-- ==== Sys2Proof/Word.lean ====
section
/-! DEFINITION. The machine's word types (R3, R8) and their plainest arithmetic. -/
namespace Sys2Proof

/-- R3: a word is 48 bits; spine and DRAM addresses are 48-bit word addresses (R4). -/
abbrev Word := BitVec 48

/-- R8: a register is 32 bits wide. -/
abbrev Reg := BitVec 32

/-- One byte of host memory or of the packed view of a word (R5). -/
abbrev Byte := BitVec 8

/-- R3: words in a line. -/
abbrev lineWords : Nat := 16

end Sys2Proof
end

