-- ==== Sys2Proof/CommandTypes.lean ====
section
/-! DEFINITION. The operand types of the commands: where a command acts, what came in from outside the block
(measurements, codes found good or bad), and the names the spec gives to fixed sets. -/
namespace Sys2Proof.Machine

/-- A number below 24: a field (R89). -/
abbrev FieldNo := Fin 24

/-- A number below 96: a router or an NI. -/
abbrev NodeNo := Fin 96

/-- R11: the access paths. -/
inductive Path where
  | host | debug | steward
  deriving DecidableEq, Repr

/-- The flags N, Z, C, V of a cell or slice. -/
structure Flags where
  n : Bool
  z : Bool
  c : Bool
  v : Bool
  deriving DecidableEq, Repr

/-- Table 3-2 and Table 5-4: the fields of an instruction entry below OP. -/
structure EntryFields where
  sat : Bool
  dst : Fin 8
  srca : Fin 8
  srcb : Fin 8
  srcc : Fin 8
  cond : Fin 16
  shift : BitVec 8
  imm : BitVec 16
  deriving DecidableEq, Repr

/-- Table 3-7 and R90: everything the configuration memory holds of one cell: its configuration word, its eight
entries (missing ones are 0), the initial values of A to D and the selectors of X, Y and Z. -/
structure CellCfg where
  word : Word
  entries : List Word
  initA : Word
  initB : Word
  initC : Word
  initD : Word
  selX : BitVec 8
  selY : BitVec 8
  selZ : BitVec 8
  deriving DecidableEq, Repr

/-- A cell that an image leaves unused (R63). -/
def CellCfg.unused : CellCfg := ⟨0, [], 0, 0, 0, 0, 0xA0, 0xA0, 0xA0⟩

/-- What the configuration memory holds of one slice (Table 5-3): its word, entries and initial A, B, C. -/
structure SliceCfg where
  word : Word
  entries : List Word
  initA : Word
  initB : Word
  initC : Word
  deriving DecidableEq, Repr

/-- A slice that an image leaves unused: PSEL and QSEL name the constant 0. The spec does not give the word of such a
slice, which R124 lets a read see: 0x210 is DESIGN CHOICE (log entry 79). -/
def SliceCfg.unused : SliceCfg := ⟨0x210, [], 0, 0, 0⟩

/-- One cell executing one cycle: the cell, the work cycle of the frame its field is executing, and the cell's
configuration where an upset has altered it (R87). -/
structure CellOp where
  field : FieldNo
  cluster : Fin 256
  cell : Fin 64
  cycle : Nat
  alt : Option CellCfg
  deriving DecidableEq, Repr

/-- One rising edge of a wire clock at a cell's register (R82), with the cell's configuration where an upset has
altered it. -/
structure WireEdge where
  field : FieldNo
  cluster : Fin 256
  cell : Fin 64
  reg : Fin 4
  alt : Option CellCfg
  deriving DecidableEq, Repr

/-- One slice executing one cycle, with its configuration where an upset has altered it (R123). -/
structure SliceOp where
  field : FieldNo
  slice : Fin 512
  cycle : Nat
  alt : Option SliceCfg
  deriving DecidableEq, Repr

/-- What can stand on a routing path (R91, R95, Table 4-2): cluster output track 16 m + t; cluster-level segment
96 m + 24 d + k, which leaves cluster m toward N, E, S or W (d 0 to 3); a relay by number; the register of a global
track; O0 or O1 of a slice; RA, RB or ST of a block memory; RXD or RXS of one of the field's three NIs; the pin
input word; and VTS of the virtual terminal. The numbers of cluster-level segments and relays are the model's (log entry 78). -/
inductive NetSource where
  | out (track : Nat)
  | hop (seg : Nat)
  | relay (number : Nat)
  | global (track : Nat)
  | slice (slice : Nat) (o1 : Bool)
  | mem (mem : Nat) (port : Fin 3)
  | ni (unit : Fin 3) (status : Bool)
  | pins
  | vts
  deriving DecidableEq, Repr

/-- The two fabric ports of a block memory (R131). -/
inductive BmPortSel where
  | pa | pb
  deriving DecidableEq, Repr

/-- Table 6-2: the syndrome a read of a stored word finds. -/
inductive Syndrome where
  | zero | corrected | uncorrectable
  deriving DecidableEq, Repr

/-- The outcome of checking one stored word: its syndrome, and the bits in which the word returned differs from the
word as written (none where an error was corrected rightly; R127 for miscorrection and escaped errors). -/
structure ReadCheck where
  syn : Syndrome
  flip : Word
  deriving DecidableEq, Repr

/-- A read that finds no error. -/
def ReadCheck.ok : ReadCheck := ⟨.zero, 0⟩

/-- One port command of a block memory in one cycle (R132). -/
structure BmOp where
  field : FieldNo
  mem : Fin 192
  port : BmPortSel
  cycle : Nat
  deriving DecidableEq, Repr

/-- Table 9-8: what the syndromes of a carriage's words on a link are: none; correctable; uncorrectable in H0 or H2, which come
raw; or uncorrectable in H1 (1), H3 (3) or payload words (4 + i), each with the word as it came. -/
inductive LinkOutcome where
  | clean | corrected
  | uncorrHeader (h0 h2 : Word)
  | uncorrBody (bad : List (Nat × Word))
  deriving DecidableEq, Repr

/-- What a read of host memory for a queue pair brings (R291, R294): a descriptor's 64 bytes, words of a descriptor's data
in order from a word offset, or the failure of either. -/
inductive HostRead where
  | desc (raw : BitVec 512)
  | descFail
  | data (slot off : Nat) (words : List Word)
  | dataFail (slot : Nat)
  deriving DecidableEq, Repr

/-- Apertures of a block memory, Table 6-7. -/
inductive Aperture where
  | data | queue | tag
  deriving DecidableEq, Repr

/-- What a field section of an image sets (R173), its frames read by the Bynath layout: the cells, slices,
cluster controls, memory words, routing, global drivers, fences and field-control settings, and the contents of the
memories it initialises. Keys: cell 64 m + k; slice s; cluster m; memory j; output track 16 m + t; input track 32 m + t;
driver 10 track + d (taps 0 to 7, the boundary switches out of the field toward E or S as 8, toward W or N as 9); fence
128 edge + track with edges N, E, S, W as 0 to 3; memory word 2048 j + w; field outputs by their driver, the pin output
word as 1280. -/
structure FieldImage where
  cells : List (Nat × CellCfg)
  slices : List (Nat × SliceCfg)
  lengths : List (Nat × Nat)
  bmWords : List (Nat × Word)
  bmCfg : List (Nat × BitVec 32)
  initMem : List Nat
  memData : List (Nat × (Word × BitVec 4))
  /-- The O0 or O1 each output track selects, with the codes of R90. -/
  outTracks : List (Nat × Nat)
  /-- What each input track and each cluster-level segment selects, and the relays, each with its cluster and input. -/
  inTracks : List (Nat × NetSource)
  hops : List (Nat × NetSource)
  relays : List (Nat × NetSource)
  /-- The drivers enabled, and the output track of its cluster (CO0 to CO15) that each tap drives from. -/
  drivers : List Nat
  taps : List (Nat × Nat)
  fences : List (Nat × Nat)
  /-- The output track that feeds the field control (none: the constant 0), and that of the pin output word. -/
  doneTrack : Option Nat
  pinTrack : Option Nat
  /-- The outputs marked DIRECT; every other is FRAMED (R38). -/
  directs : List Nat
  /-- The transmit ports' command and data tracks by NI 0 to 2, with the codes of Table 6-3 (R217). -/
  niTracks : List (Nat × (Nat × Nat))
  /-- The command and data tracks of the virtual terminal, in field 0 alone (R455). -/
  vtTracks : Option (Nat × Nat)
  need : Nat
  prot : Bool
  opMin : Nat
  pqout : List (Nat × BitVec 32)
  rstate : List (Nat × Nat)
  safe : List (Nat × Nat)
  /-- The words of configuration frames 0 to 3,583, 128 each, which the rest but memory contents is read from. -/
  frames : List Word
  deriving DecidableEq, Repr, Inhabited

/-- What is wrong in a configuration frame as it stands (R191): data bits that differ from what was written, each by word and
bit, and check bits of the frame code, each by its interleave. -/
structure FrameErrors where
  bits : List (Fin 128 × Fin 48)
  checks : List (Fin 6)
  deriving DecidableEq, Repr

/-- What the PMBus sequencer gets (R404, R405): POWER_GOOD# at 0 with READ_VOUT in mV, or no answer. -/
inductive PmbusAnswer where
  | status (powerGood : Bool) (mv : Int)
  | failed
  deriving DecidableEq, Repr

/-- What a read of one line finds in the components (R344, R345), by the global number of the line: for each beat with errors, the
symbols in error. -/
structure LineCheck where
  line : Nat
  errs : List (Nat × BitVec 16)
  deriving DecidableEq, Repr

end Sys2Proof.Machine
end

