-- ==== Sys2Proof/Config.lean ====
section
/-! DEFINITION. The values the spec leaves open, as constants with no body: nothing can be proved of what they are.
Each is applied to a counter of State that every use advances, so that two uses are two free values. -/
namespace Sys2Proof

/-- A word the spec leaves undefined: a block-memory word never written (R148), the value a tripped segment captures
(R99), a result in a case no rule states. -/
opaque Config.freeWord : Nat → Word

/-- Any other open value (a count, a code, a register field), as a number. -/
opaque Config.freeNat : Nat → Nat

/-- The levels at the 24 pins of a field in a cycle of a frame (R103): they come from outside. -/
opaque Config.pinsIn : Nat → Nat → Nat → BitVec 24

/-- What an input shows whose selector an upset has set to one of the invalid codes 161 to 255 (R90), by cell and code, in
a cycle of a frame. -/
opaque Config.badSelect : Nat → Nat → Nat → Word

/-- R365: AES-256 of FIPS 197 under a key, which the spec names and does not restate. -/
opaque Config.aes : Nat → BitVec 128 → BitVec 128

/-- R366: GHASH of NIST SP 800-38D under H over blocks, which the spec names and does not restate. -/
opaque Config.ghash : BitVec 128 → List (BitVec 128) → BitVec 128

/-- R375: the key-encryption key derived from the fuse root and the unit ID (NIST SP 800-108). -/
opaque Config.wrapKey : List (BitVec 32) → Nat → Nat

/-- R375: the AES key unwrap of NIST SP 800-38F of 40 bytes under a key-encryption key: the key, or an integrity
failure. -/
opaque Config.unwrap : Nat → List Byte → Option Nat

/-- Tamindik's Bynath format (R173), which no rule states: what the 458,752 words of a field's configuration frames set. -/
opaque Config.bynath : List Word → Machine.FieldImage

/-- R175: SHA-384 of FIPS 180-4 over bytes, as twelve 32-bit words in the order in which the fuses hold them. -/
opaque Config.sha384 : List Byte → List (BitVec 32)

/-- R175: whether (r, s) is an ECDSA P-384 signature of FIPS 186 by the key (Qx, Qy) over a digest. -/
opaque Config.ecdsa : (qx qy r s : Nat) → List (BitVec 32) → Bool

/-- R176: the device image key derived from the fuse root and the unit ID. -/
opaque Config.imageKey : List (BitVec 32) → Nat → Nat

/-- R177: the steward's check of a patch against Tamindik's key: its revision and identifier, if it is accepted. -/
opaque Config.patch : List Word → Option (Nat × Nat)

/-- The bytes a steward ROM, fuse or strap holds that no rule states (R476, VAR 2 of R481), by BAR0 offset. -/
opaque Config.romValue : Nat → BitVec 32

/-- Tamindik's JEP106 code (Table 21-6), which no rule states. -/
opaque Config.jep106 : BitVec 11

end Sys2Proof
end

