-- ==== Sys2Proof/Machine/Bits.lean ====
section
/-! DEFINITION. Bit-field, signed and byte-order helpers used by every unit, and the sparse map that holds
registers, memory and every large table of like things. -/
namespace Sys2Proof.Machine

/-- Bits `lo + w - 1 : lo` of a number. -/
def bitsOf (lo w v : Nat) : Nat := (v / 2 ^ lo) % 2 ^ w

/-- One bit of a number. -/
def bitOf (i v : Nat) : Bool := (v / 2 ^ i) % 2 == 1

/-- `v` with bits `lo + w - 1 : lo` replaced by the low `w` bits of `x`. -/
def setBitsOf (lo w v x : Nat) : Nat :=
  v % 2 ^ lo + (x % 2 ^ w) * 2 ^ lo + (v / 2 ^ (lo + w)) * 2 ^ (lo + w)

/-- 1 for true, 0 for false. -/
def bit (b : Bool) : Nat := if b then 1 else 0

/-- The two's-complement value of the low `w` bits of `v`. -/
def signed (w v : Nat) : Int :=
  let u := v % 2 ^ w
  if u < 2 ^ (w - 1) then (u : Int) else (u : Int) - (2 ^ w : Nat)

/-- The low `w` bits of an integer, as a number. -/
def wrap (w : Nat) (x : Int) : Nat := (x % ((2 ^ w : Nat) : Int)).toNat

/-- A count that saturates at the largest value of its `w` bits. -/
def satAdd (w v n : Nat) : Nat := min (v + n) (2 ^ w - 1)

/-- R5, packed view: the six bytes of a word, little-endian. -/
def packWord (x : Word) : List Byte :=
  (List.range 6).map fun k => BitVec.ofNat 8 (x.toNat / 256 ^ k)

/-- The word whose packed view begins at the head of a byte list (missing bytes count as 0). -/
def unpackWord (bs : List Byte) : Word :=
  BitVec.ofNat 48 ((bs.take 6).foldr (fun b acc => b.toNat + 256 * acc) 0)

/-- The `n` low bytes of a number, little-endian. -/
def bytesLE (n v : Nat) : List Byte := (List.range n).map fun k => BitVec.ofNat 8 (v / 256 ^ k)

/-- A sparse table: keys strictly rising, and no entry equal to the value an unlisted key reads as. -/
abbrev SMap (α : Type) := List (Nat × α)

/-- The entry listed for key `i`, if any. -/
def SMap.find? {α : Type} : SMap α → Nat → Option α
  | [], _ => none
  | (k, v) :: m, i => if i = k then some v else SMap.find? m i

/-- What key `i` reads as: its entry, or the default `d`. -/
def SMap.get {α : Type} (m : SMap α) (d : α) (i : Nat) : α := (SMap.find? m i).getD d

/-- The table without an entry for key `i`. -/
def SMap.erase {α : Type} (m : SMap α) (i : Nat) : SMap α := m.filter fun e => !(e.1 == i)

/-- The table with key `i` listed with value `x`. -/
def SMap.insert {α : Type} : SMap α → Nat → α → SMap α
  | [], i, x => [(i, x)]
  | (k, v) :: m, i, x =>
    if i = k then (i, x) :: m else if i < k then (i, x) :: (k, v) :: m else (k, v) :: SMap.insert m i x

/-- A write: key `i` reads as `x` afterwards; writing the default removes the entry. -/
def SMap.set {α : Type} [DecidableEq α] (m : SMap α) (d : α) (i : Nat) (x : α) : SMap α :=
  if x = d then SMap.erase m i else SMap.insert m i x

/-- Every key of the table is at least `lo`, keys rise strictly, and no entry is the default. -/
def SMap.wfFrom {α : Type} [DecidableEq α] (d : α) : Nat → SMap α → Bool
  | _, [] => true
  | lo, (k, v) :: m => decide (lo ≤ k) && decide (v ≠ d) && SMap.wfFrom d (k + 1) m

/-- The canonical form. -/
def SMap.wf {α : Type} [DecidableEq α] (d : α) (m : SMap α) : Bool := SMap.wfFrom d 0 m

/-- A table that lists nothing whose key `p` holds of. -/
def SMap.drop {α : Type} (p : Nat → Bool) (m : SMap α) : SMap α := m.filter fun e => !p e.1

/-- Every entry with its key in `lo ≤ key < hi` replaced by `g`; an entry that becomes the default is removed. -/
def SMap.mapIn {α : Type} [DecidableEq α] (d : α) (lo hi : Nat) (g : Nat → α → α) (m : SMap α) : SMap α :=
  m.filterMap fun e =>
    let v := if lo ≤ e.1 ∧ e.1 < hi then g e.1 e.2 else e.2
    if v = d then none else some (e.1, v)

/-- The `n` keys from `lo` listed with one value. -/
def SMap.putRange {α : Type} (m : SMap α) (lo n : Nat) (v : α) : SMap α :=
  m.filter (fun e => decide (e.1 < lo)) ++ (List.range n).map (fun i => (lo + i, v)) ++
    m.filter (fun e => decide (lo + n ≤ e.1))

end Sys2Proof.Machine
end

