-- ==== Sys2Proof/Machine/RegTypes.lean ====
section
/-! DEFINITION. What a register and a register field are (R8 to R15, R480), and the reset values that differ by
instance or by array element (VAR 1 of R481). -/
namespace Sys2Proof.Machine

/-- A register: its BAR0 byte offset and the value it takes at a device reset. -/
structure RegRef where
  off : Nat
  rst : Nat
  deriving DecidableEq, Repr

/-- A field of a register: bits `lo + w - 1 : lo`. -/
structure Fld where
  reg : RegRef
  lo : Nat
  w : Nat
  deriving DecidableEq, Repr

/-- Access codes, Table 0-3. -/
inductive Access where
  | ro | rw | wo | w1c | w1s | rc | rp | key
  deriving DecidableEq, Repr

/-- Field classes, Table 0-2. -/
inductive FieldClass where
  | static | shadow | live
  deriving DecidableEq, Repr

/-- Whether a register is one half of a LO/HI pair (R10). -/
inductive PairHalf where
  | single | lo | hi
  deriving DecidableEq, Repr

/-- A field descriptor: its name, its place, access code and class. -/
structure FieldDesc where
  name : String
  lo : Nat
  w : Nat
  access : Access
  cls : FieldClass
  deriving DecidableEq, Repr

/-- A register descriptor (R480): its name, offset in the block's instance, element count and stride of the inner and the
outer index, pair half, the reset value where no element differs, and the fields. -/
structure RegDesc where
  name : String
  off : Nat
  count : Nat
  stride : Nat
  count2 : Nat
  stride2 : Nat
  pair : PairHalf
  rst : Nat
  fields : List FieldDesc
  deriving DecidableEq, Repr

/-- Commit kinds, Table 2-4; `none` is a block with no COMMIT register (R48). -/
inductive CommitKind where
  | none | tick | go
  deriving DecidableEq, Repr

/-- The blocks of Table 22-6 that hold registers. -/
inductive Block where
  | lim | glb | pwr | clk | time | tt | trg | hb | ring | msix | noc | ni | fld | cfg | scr | drc | mig | cry
  | lane | stg | stw | bist | dbg | gpb
  deriving DecidableEq, Repr

/-- The power domain of a block's instances (Table 22-6): one domain, one a block number above a first, or as
Table 13-1 (lanes) and R303 (Stagelink ports) give it. -/
inductive DomainOf where
  | one (d : Nat) | perInst (d : Nat) | lane | stg
  deriving DecidableEq, Repr

/-- A block of Table 22-6. -/
structure BlockDesc where
  block : Block
  base : Nat
  count : Nat
  stride : Nat
  span : Nat
  commit : CommitKind
  domain : DomainOf
  regs : List RegDesc
  deriving DecidableEq, Repr

/-- Table 10-1: the context of an NI at reset. -/
def niCtx (n : Nat) : Nat :=
  if n = 80 ∨ n = 81 then 0x03 else if n = 92 then 0x00 else if n = 94 then 0x01 else if n = 95 then 0x02 else 0x04

/-- Table 10-13: NI[n].CTL at reset (TMO 0x40, CTX by Table 10-1, RETRYALT 1). -/
def niCtlReset (n : Nat) : Nat := 0x400002 + 256 * niCtx n

/-- NIs with a regulator (Table 10-18). -/
def niRegulated (n : Nat) : Bool := n == 80 || n == 81 || n == 92 || n == 93 || n == 95

/-- Table 10-18: NI[n].REG at reset; reads 0 where the NI has no regulator. -/
def niRegReset (n : Nat) : Nat :=
  if niRegulated n then (if n = 80 ∨ n = 81 then 0x060 else 0x010) * 65536 + 0x18 else 0

/-- Table 10-19: NI[n].REGSTAT at reset. -/
def niRegstatReset (n : Nat) : Nat := if niRegulated n then 0x0180 else 0

/-- Table 12-19: HB.IVSEL[i] at reset, VEC of slot k = 4i + k. -/
def ivselReset (i : Nat) : Nat :=
  (4 * i) % 64 + 256 * ((4 * i + 1) % 64) + 65536 * ((4 * i + 2) % 64) + 16777216 * ((4 * i + 3) % 64)

/-- Table 18-1: the reset EN, THR of loop `k`, for the temperature grade C. -/
def envCtlReset (k : Nat) : Nat :=
  match k with
  | 0 => 0x80000000 + 4
  | 1 => 0x80000000 + 16
  | 2 => 0x80000000 + 16
  | 3 => 0x80000000 + 64
  | 4 => 0x80000000 + 4
  | 5 => 0x80000000 + 24
  | 6 => 0x80000000 + 0x05F0
  | 7 => 0x80000000 + 0x0690
  | 8 => 0x80000000 + 1000
  | 9 => 0x80000000
  | _ => 0

/-- Table 18-1: the reset MAX, MIN of loop `k`. -/
def envLimReset (k : Nat) : Nat :=
  match k with
  | 0 => 64 * 65536 + 1
  | 1 => 256 * 65536 + 4
  | 2 => 1000 * 65536 + 2
  | 3 => 2 * 65536
  | 4 => 64 * 65536 + 1
  | 5 => 31 * 65536
  | 6 => 3 * 65536
  | 10 => 100 * 65536
  | _ => 0

end Sys2Proof.Machine
end

