-- ==== Sys2Proof/Machine/StateNet.lean ====
section
/-! DEFINITION. The state of the spine: carriages (Tables 9-2 to 9-5), routers and network interfaces. -/
namespace Sys2Proof.Machine

/-- A carriage, R199: the header fields of H0 to H3 and the 16 payload words. -/
structure Carriage where
  guar : Bool
  len : Nat
  fence : Bool
  ord : Bool
  route : BitVec 30
  hidx : Nat
  vc : Nat
  rsp : Bool
  typ : Nat
  addr : Word
  status : Nat
  tick : Nat
  seq : BitVec 16
  ctx : Nat
  src : Nat
  cidx : Nat
  otype : Nat
  dev : Nat
  utag : BitVec 16
  mask : BitVec 16
  payload : List Word
  deriving DecidableEq, Repr

/-- A carriage of all zeros. -/
def Carriage.zero : Carriage :=
  { guar := false, len := 0, fence := false, ord := false, route := 0, hidx := 0, vc := 0, rsp := false, typ := 0,
    addr := 0, status := 0, tick := 0, seq := 0, ctx := 0, src := 0, cidx := 0, otype := 0, dev := 0, utag := 0,
    mask := 0, payload := [] }

/-- A carriage waiting in a router: the spine cycle in which it reached the head of its VC (none while another stands
before it), and the output branches a BCAST still has to send. -/
structure Slot where
  c : Carriage
  since : Option Nat
  branches : List Nat
  deriving DecidableEq, Repr

/-- R208, R210: what happens to the rest of a packet that does not pass: bounced with a status, or sent to the orphan sink. -/
inductive PacketFate where
  | bounce (status : Nat) | orphan
  deriving DecidableEq, Repr

/-- A router (R198 to R214): input VC buffers by 4 port + VC (ports N, E, S, W, LOCAL as 0 to 4), carriages in reserved
slots by input port, the spill buffer, bounces it formed, the packet that holds each output VC (by 4 output + VC), the fates
of the packets that do not pass, the round-robin pointers of the outputs, and the tick of the last ERR log entry. A packet is
named by `Carriage.pid`. -/
structure RouterSt where
  bufs : SMap (List Slot)
  fast : List (Nat × Slot)
  spill : List Slot
  made : List Slot
  held : SMap (Option Nat)
  fates : List (Nat × PacketFate)
  /-- R208: the packets under way through an output: output, packet, and the port's state code when they began. -/
  begun : List (Nat × Nat × Nat)
  /-- Packets whose last carriage passed an output before their first, which was demoted (R214). -/
  ended : List (Nat × Nat)
  rr : SMap Nat
  /-- By output, the cycle after the last in which it sent. -/
  sent : SMap Nat
  logTick : Option Nat
  deriving DecidableEq, Repr

/-- A router at reset. -/
def RouterSt.zero : RouterSt := ⟨[], [], [], [], [], [], [], [], [], [], none⟩

/-- What a request's response is for, at the block that issued it. -/
inductive Use where
  /-- The fabric of a field: the receive port. -/
  | fabric
  /-- A line of a host descriptor: queue pair, descriptor index in the pair's table, line number. -/
  | desc (pair idx line : Nat)
  /-- A host read or write through BAR2. -/
  | bar2 (posted : Bool) (tag : Nat)
  /-- A carriage forwarded for a Stagelink port: port and forwarding entry. -/
  | forward (port entry : Nat)
  /-- A line of a snapshot drain. -/
  | snap (field : Nat)
  /-- An entry that timetable column `col` injected. -/
  | column (col : Nat)
  /-- A golden copy read for a repair. -/
  | golden (field frame : Nat)
  /-- A debug access window transfer. -/
  | debug (tag : Nat)
  /-- A read, write or fill of any other engine of the block. -/
  | engine (unit tag : Nat)
  deriving DecidableEq, Repr

/-- An outstanding request packet (R230): the packet as sent, its route entry, the carriages of its response received
so far, whether it was retried on ALT, is stale after a rewind (R163), has been injected, the frame that issued it where that
counts (R162), and what it is for. -/
structure Tracker where
  pkt : List Carriage
  entry : Nat
  got : List Carriage
  retried : Bool
  stale : Bool
  injected : Bool
  frame : Option Nat
  use : Use
  deriving DecidableEq, Repr

/-- A packet that waits for injection: its carriages, its route entry (256 for a response), whether it answers a request that
came in a reserved slot, whether its fence is resolved, and the frame that issued it where that is not the one in which it is
injected (R162). -/
structure InjPkt where
  pkt : List Carriage
  entry : Nat
  toGuar : Bool
  cleared : Bool
  frame : Option Nat
  deriving DecidableEq, Repr

/-- An item delivered to a field's receive port (R219): RXS.INREQ, the carriages of its buffer that stay taken until it has been
delivered (R230), the summary word, the payload words with IDX. -/
structure RxItem where
  inreq : Bool
  fills : Nat
  summary : Word
  words : List (Nat × Word)
  deriving DecidableEq, Repr

/-- One bank of an NI's tables (R227): window words by 4 w + word, route words by 2 e + word, slot words. -/
structure NiTables where
  win : SMap Word
  route : SMap Word
  slot : SMap Word
  deriving DecidableEq, Repr

/-- Tables of all zeros. -/
def NiTables.zero : NiTables := ⟨[], [], []⟩

/-- The causes of an NI's state (R241). -/
structure NiCauses where
  closing : Bool
  off : Bool
  reshaping : Bool
  stuck : Bool
  deriving DecidableEq, Repr

/-- A network interface (chapter 10). -/
structure NiSt where
  stAddr : Word
  stHead : Word
  stWords : List (Nat × Word)
  active : NiTables
  inactive : NiTables
  /-- The inactive bank was written since the last swap or check (COMMIT.PEND). -/
  written : Bool
  seq : BitVec 16
  trackers : List Tracker
  inj : List InjPkt
  replies : List InjPkt
  /-- Held requests of a protected field (R162), oldest first, with what their responses are for. -/
  release : List (InjPkt × Use)
  /-- Carriages that left the router's LOCAL output: requests and responses that await their command. -/
  inReq : List Carriage
  /-- R329: by packet, the RAW count at which the first carriage of a request left the LOCAL output, at NIs 72 to 79. -/
  came : List (Nat × Nat)
  inRsp : List Carriage
  /-- Items given to the receive port, oldest first; the item whose words are being delivered, its words already presented;
  RXD and RXS as presented at the end of the last cycle in which the port acted, that cycle, and as presented before it. -/
  rx : List RxItem
  rxNow : Option (RxItem × Nat)
  rxd : Word
  rxs : Nat
  portAt : Option (Nat × Nat)
  rxBefore : Word × Nat
  /-- Route entries whose ORD stream is broken (R236). -/
  broken : List Nat
  /-- A write ended badly since the last fence was resolved (R237). -/
  badWrite : Bool
  /-- Writes accepted and not yet performed, which a FENCE_REQ waits for. -/
  accepted : Nat
  /-- The last SLOT command showed a cycle after slot 109 of a wheel that ends at a tick (R226). -/
  lastSlots : Bool
  /-- Token bucket level, in units of 1/1,920 of a carriage (R239). -/
  tokens : Int
  causes : NiCauses
  /-- Ticks of the last NI_ORPHAN and NI_ABSORB log entries. -/
  orphanTick : Option Nat
  absorbTick : Option Nat
  deriving DecidableEq, Repr

/-- An NI at the end of a device reset, but for the token bucket, which is full (R239). -/
def NiSt.zero : NiSt :=
  { stAddr := 0, stHead := 0, stWords := [], active := .zero, inactive := .zero, written := false, seq := 0,
    trackers := [], inj := [], replies := [], release := [], inReq := [], came := [], inRsp := [], rx := [], rxNow := none, rxd := 0, rxs := 0, portAt := none, rxBefore := (0, 0), broken := [],
    badWrite := false, accepted := 0, lastSlots := false, tokens := 46080, causes := ⟨false, false, false, false⟩, orphanTick := none,
    absorbTick := none }

/-- A spine request in service at a block memory (R137, R138): the NI it came through, its packet, the aperture, the
word indices still to access in ascending order, the words read so far and what the checks found. -/
structure SpineJob where
  ni : Nat
  req : List Carriage
  ap : Aperture
  todo : List Nat
  got : List (Nat × Word)
  corrected : Bool
  uncorr : Bool
  deriving DecidableEq, Repr

end Sys2Proof.Machine
end

