-- ==== Sys2Proof/Syntax.lean ====
section
/-! DEFINITION. The commands of the block: one constructor for each row of spec/opcode_table.json, with its operands. -/
namespace Sys2Proof

open Sys2Proof.Machine

/-- The commands, in the order of the table. Each docstring gives the row's mnemonic and its rule. -/
inductive Instr where
  /-- REGISTER_WRITE, R12. -/
  | registerWrite (path : Path) (off : BitVec 24) (size : Nat) (d : BitVec 64)
  /-- LO_READ, R10. -/
  | loRead (path : Path) (off : BitVec 24) (size : Nat)
  /-- HI_WRITE, R10. -/
  | hiWrite (path : Path) (off : BitVec 24) (d : BitVec 32)
  /-- RC_READ, R15. -/
  | rcRead (path : Path) (off : BitVec 24)
  /-- POWER_ON, R469. -/
  | powerOn
  /-- SUPPLY_LOSS, R471. -/
  | supplyLoss
  /-- PERST_N, R300. -/
  | perstN
  /-- DEVICE_RESET, R408. -/
  | deviceReset (cause : Fin 3)
  /-- SOFTWARE_RESET, R409. -/
  | softwareReset (path : Path) (first : BitVec 16) (second : BitVec 16) (cycles : Nat)
  /-- REQ_RUN, R26. -/
  | reqRun
  /-- REQ_STOP, R26. -/
  | reqStop
  /-- REQ_VALLEY, R392. -/
  | reqValley
  /-- REQ_SELF_TEST, R428. -/
  | reqSelfTest (run : BitVec 13) (fail : BitVec 13)
  /-- REQ_RELEASE, R401. -/
  | reqRelease (checks : List LineCheck)
  /-- REQ_UNLOAD, R26. -/
  | reqUnload
  /-- LOCK_TIMEOUT, R26. -/
  | lockTimeout
  /-- TICK, R33. -/
  | tick
  /-- COMMIT_GO, R48. -/
  | commitGo (path : Path) (off : BitVec 24) (hold : Bool)
  /-- COMMIT_DISCARD, R50. -/
  | commitDiscard (path : Path) (off : BitVec 24) (hold : Bool) (go : Bool)
  /-- DONE, R39. -/
  | done (f : FieldNo) (cyc : Nat)
  /-- GUARD_1, R36. -/
  | guard1 (f : FieldNo)
  /-- GUARD_2, R36. -/
  | guard2 (f : FieldNo)
  /-- FIELD_STUCK, R46. -/
  | fieldStuck (f : FieldNo)
  /-- RESTART, R47. -/
  | restart (f : FieldNo)
  /-- POWER_GOOD, R57. -/
  | powerGood
  /-- PGTMO, R57. -/
  | pgtmo
  /-- VCORE_SETTLED, R58. -/
  | vcoreSettled
  /-- NOP, R71. -/
  | nop (o : CellOp)
  /-- ADD, R71. -/
  | add (o : CellOp)
  /-- ADC, R71. -/
  | adc (o : CellOp)
  /-- ADDW, R76. -/
  | addw (o : CellOp)
  /-- SUB, R71. -/
  | sub (o : CellOp)
  /-- SBC, R71. -/
  | sbc (o : CellOp)
  /-- SUBW, R76. -/
  | subw (o : CellOp)
  /-- NEG, R72. -/
  | neg (o : CellOp)
  /-- ABS, R72. -/
  | abs (o : CellOp)
  /-- ADDSH, R71. -/
  | addsh (o : CellOp)
  /-- CMP, R71. -/
  | cmp (o : CellOp)
  /-- CMPW, R71. -/
  | cmpw (o : CellOp)
  /-- AND, R71. -/
  | and (o : CellOp)
  /-- OR, R71. -/
  | or (o : CellOp)
  /-- XOR, R71. -/
  | xor (o : CellOp)
  /-- ANDN, R71. -/
  | andn (o : CellOp)
  /-- ORN, R71. -/
  | orn (o : CellOp)
  /-- XNOR, R71. -/
  | xnor (o : CellOp)
  /-- NOT, R71. -/
  | not (o : CellOp)
  /-- BSEL, R71. -/
  | bsel (o : CellOp)
  /-- TEST, R71. -/
  | test (o : CellOp)
  /-- XORSHR, R71. -/
  | xorshr (o : CellOp)
  /-- SHL, R72. -/
  | shl (o : CellOp)
  /-- SHR, R71. -/
  | shr (o : CellOp)
  /-- SAR, R71. -/
  | sar (o : CellOp)
  /-- ROL, R71. -/
  | rol (o : CellOp)
  /-- ROR, R71. -/
  | ror (o : CellOp)
  /-- SHLV, R72. -/
  | shlv (o : CellOp)
  /-- SHRV, R71. -/
  | shrv (o : CellOp)
  /-- SARV, R71. -/
  | sarv (o : CellOp)
  /-- FSHR, R71. -/
  | fshr (o : CellOp)
  /-- EXTU, R73. -/
  | extu (o : CellOp)
  /-- EXTS, R73. -/
  | exts (o : CellOp)
  /-- INS, R73. -/
  | ins (o : CellOp)
  /-- BREV, R71. -/
  | brev (o : CellOp)
  /-- BSWAP, R71. -/
  | bswap (o : CellOp)
  /-- POPC, R71. -/
  | popc (o : CellOp)
  /-- CLZ, R71. -/
  | clz (o : CellOp)
  /-- CTZ, R71. -/
  | ctz (o : CellOp)
  /-- CLS, R71. -/
  | cls (o : CellOp)
  /-- MINS, R71. -/
  | mins (o : CellOp)
  /-- MAXS, R71. -/
  | maxs (o : CellOp)
  /-- MINU, R71. -/
  | minu (o : CellOp)
  /-- MAXU, R71. -/
  | maxu (o : CellOp)
  /-- SEL, R67. -/
  | sel (o : CellOp)
  /-- SELZ, R71. -/
  | selz (o : CellOp)
  /-- MOV, R71. -/
  | mov (o : CellOp)
  /-- LDI, R71. -/
  | ldi (o : CellOp)
  /-- LDIM, R71. -/
  | ldim (o : CellOp)
  /-- LDIH, R71. -/
  | ldih (o : CellOp)
  /-- GETF, R71. -/
  | getf (o : CellOp)
  /-- SETF, R71. -/
  | setf (o : CellOp)
  /-- VADD, R74. -/
  | vadd (o : CellOp)
  /-- VSUB, R74. -/
  | vsub (o : CellOp)
  /-- VABS, R74. -/
  | vabs (o : CellOp)
  /-- VMINS, R74. -/
  | vmins (o : CellOp)
  /-- VMAXS, R74. -/
  | vmaxs (o : CellOp)
  /-- VMINU, R74. -/
  | vminu (o : CellOp)
  /-- VMAXU, R74. -/
  | vmaxu (o : CellOp)
  /-- VCMPEQ, R74. -/
  | vcmpeq (o : CellOp)
  /-- VCMPGT, R74. -/
  | vcmpgt (o : CellOp)
  /-- VSHL, R74. -/
  | vshl (o : CellOp)
  /-- VSHR, R74. -/
  | vshr (o : CellOp)
  /-- VSAR, R74. -/
  | vsar (o : CellOp)
  /-- VAVG, R74. -/
  | vavg (o : CellOp)
  /-- LUT12, R79. -/
  | lut12 (o : CellOp)
  /-- LUTONLY, R81. -/
  | lutonly (o : CellOp)
  /-- LOADX, R82. -/
  | loadx (e : WireEdge)
  /-- LOADY, R82. -/
  | loady (e : WireEdge)
  /-- INC, R82. -/
  | inc (e : WireEdge)
  /-- INCG, R82. -/
  | incg (e : WireEdge)
  /-- CONTENTION, R99. -/
  | contention (f : FieldNo) (track : Fin 128) (cyc : Nat)
  /-- CONT_CLR, R100. -/
  | contClr (f : FieldNo)
  /-- SLICE_NOP, R114. -/
  | sliceNop (o : SliceOp)
  /-- MUL, R114. -/
  | mul (o : SliceOp)
  /-- MAC, R114. -/
  | mac (o : SliceOp)
  /-- MSU, R114. -/
  | msu (o : SliceOp)
  /-- TAPM, R120. -/
  | tapm (o : SliceOp)
  /-- TAPC, R121. -/
  | tapc (o : SliceOp)
  /-- TAPZ, R120. -/
  | tapz (o : SliceOp)
  /-- RDACC, R117. -/
  | rdacc (o : SliceOp)
  /-- LDACC, R114. -/
  | ldacc (o : SliceOp)
  /-- ADDACC, R114. -/
  | addacc (o : SliceOp)
  /-- CLRACC, R114. -/
  | clracc (o : SliceOp)
  /-- SLICE_MOV, R114. -/
  | sliceMov (o : SliceOp)
  /-- SLICE_LDI, R114. -/
  | sliceLdi (o : SliceOp)
  /-- SLICE_LDIM, R114. -/
  | sliceLdim (o : SliceOp)
  /-- SLICE_LDIH, R114. -/
  | sliceLdih (o : SliceOp)
  /-- SWAPH, R114. -/
  | swaph (o : SliceOp)
  /-- CONJ, R114. -/
  | conj (o : SliceOp)
  /-- IDLE, R132. -/
  | idle (o : BmOp)
  /-- READ, R127. -/
  | read (o : BmOp) (chk : ReadCheck)
  /-- WRITE, R125. -/
  | write (o : BmOp)
  /-- PUSH, R140. -/
  | push (o : BmOp)
  /-- POP, R139. -/
  | pop (o : BmOp) (chk : ReadCheck)
  /-- PEEK, R132. -/
  | peek (o : BmOp) (chk : ReadCheck)
  /-- FETCH_ADD, R147. -/
  | fetchAdd (o : BmOp) (chk : ReadCheck)
  /-- SWAP, R147. -/
  | swap (o : BmOp) (chk : ReadCheck)
  /-- FETCH_AND, R147. -/
  | fetchAnd (o : BmOp) (chk : ReadCheck)
  /-- FETCH_OR, R147. -/
  | fetchOr (o : BmOp) (chk : ReadCheck)
  /-- FETCH_MAX, R147. -/
  | fetchMax (o : BmOp) (chk : ReadCheck)
  /-- TRIG, R141. -/
  | trig (o : BmOp)
  /-- RESETQ, R132. -/
  | resetq (o : BmOp)
  /-- WRITE_BACK, R128. -/
  | writeBack (f : FieldNo) (j : Fin 192) (cyc : Nat)
  /-- SPINE_WORD_ACCESS, R137. -/
  | spineWordAccess (f : FieldNo) (j : Fin 192) (cyc : Nat) (chk : ReadCheck)
  /-- QUEUE_WRITE_TIMEOUT, R138. -/
  | queueWriteTimeout (f : FieldNo) (j : Fin 192)
  /-- PATROL_VISIT, R150. -/
  | patrolVisit (f : FieldNo) (cyc : Nat) (chk : ReadCheck)
  /-- BMINIT, R149. -/
  | bminit (f : FieldNo) (block : Fin 256)
  /-- BMINIT_DONE, R149. -/
  | bminitDone (f : FieldNo)
  /-- CHKFAIL, R164. -/
  | chkfail (f : FieldNo) (cyc : Nat)
  /-- REPLAY_START, R164. -/
  | replayStart (f : FieldNo) (cyc : Nat)
  /-- VERIFICATION_WINDOW_CLOSE, R157. -/
  | verificationWindowClose (f : FieldNo)
  /-- SNAP_DONE, R168. -/
  | snapDone (f : FieldNo)
  /-- CFGLOAD, R180. -/
  | cfgload (q : Fin 32) (slot : Nat) (checks : List LineCheck)
  /-- LOAD_SOURCE_TIMEOUT, R180. -/
  | loadSourceTimeout
  /-- VERIFY, R181. -/
  | verify
  /-- WRITE_PHASE, R181. -/
  | writePhase (checks : List LineCheck)
  /-- ABORT, R183. -/
  | abort
  /-- STOREEN, R178. -/
  | storeen (on : Bool)
  /-- GOLDBUILD, R179. -/
  | goldbuild
  /-- GOLDBUILD_DONE, R179. -/
  | goldbuildDone (errs : List (Fin 32 × Fin 3584 × FrameErrors)) (checks : List LineCheck)
  /-- RESHAPE_WRITE, R188. -/
  | reshapeWrite (f : FieldNo)
  /-- SENSE, R192. -/
  | sense (code : Fin 32) (frame : Fin 3584) (errs : FrameErrors) (ns : Nat) (cyc : Nat)
  /-- REPAIR, R193. -/
  | repair (checks : List LineCheck) (segs : List (FieldNo × Fin 128))
  /-- GOLDEN_SCAN, R195. -/
  | goldenScan (errs : FrameErrors) (checks : List LineCheck) (cyc : Nat)
  /-- CARRIAGE_HOP, R198. -/
  | carriageHop (n : NodeNo) (out : Fin 5) (cyc : Nat) (link : LinkOutcome)
  /-- RD_LINE, R201. -/
  | rdLine (n : NodeNo)
  /-- RD_WORDS, R201. -/
  | rdWords (n : NodeNo)
  /-- WR_LINE, R201. -/
  | wrLine (n : NodeNo)
  /-- WR_WORDS, R201. -/
  | wrWords (n : NodeNo)
  /-- ATOMIC, R201. -/
  | atomic (n : NodeNo)
  /-- CAS, R147. -/
  | cas (n : NodeNo)
  /-- FENCE_REQ, R237. -/
  | fenceReq (n : NodeNo)
  /-- EVENT, R272. -/
  | event (n : NodeNo)
  /-- TRIGGER, R261. -/
  | trigger (n : NodeNo)
  /-- BCAST, R233. -/
  | bcast (n : NodeNo)
  /-- CFG, R201. -/
  | cfg (n : NodeNo)
  /-- RD_RESP, R219. -/
  | rdResp (n : NodeNo)
  /-- WR_ACK, R219. -/
  | wrAck (n : NodeNo)
  /-- ATOMIC_RESP, R219. -/
  | atomicResp (n : NodeNo)
  /-- FENCE_ACK, R219. -/
  | fenceAck (n : NodeNo)
  /-- BOUNCE, R223. -/
  | bounce (n : NodeNo)
  /-- TX_IDLE, R217. -/
  | txIdle (n : Fin 72) (cyc : Nat)
  /-- ADDR, R217. -/
  | addr (n : Fin 72) (cyc : Nat)
  /-- HEAD, R217. -/
  | head (n : Fin 72) (cyc : Nat)
  /-- WORD, R217. -/
  | word (n : Fin 72) (cyc : Nat)
  /-- SEND, R218. -/
  | send (n : Fin 72) (cyc : Nat)
  /-- DROP, R217. -/
  | drop (n : Fin 72) (cyc : Nat)
  /-- REQUEST_TIMEOUT, R231. -/
  | requestTimeout (n : NodeNo) (seq : BitVec 16)
  /-- SLOT, R224. -/
  | slot (n : NodeNo) (slot : Fin 120) (cyc : Nat) (lastWheel : Bool)
  /-- REGULATED_INJECT, R239. -/
  | regulatedInject (n : NodeNo) (elapsed : Nat)
  /-- FENCE_RELEASE, R237. -/
  | fenceRelease (n : NodeNo)
  /-- ORDCLR, R236. -/
  | ordclr (n : NodeNo)
  /-- TDATA_WRITE, R227. -/
  | tdataWrite (n : NodeNo) (data : Word)
  /-- ANCHOR_REBASE, R244. -/
  | anchorRebase
  /-- INCR_WRITE, R245. -/
  | incrWrite (v : Word)
  /-- STEP_WRITE, R246. -/
  | stepWrite (v : Word)
  /-- NOW_READ, R247. -/
  | nowRead (path : Path)
  /-- TIME_WRAP, R247. -/
  | timeWrap
  /-- SYNTH_LOCK, R243. -/
  | synthLock (ch : Option Nat) (loc : Option Nat)
  /-- SYNC_IN_EDGE, R252. -/
  | syncInEdge (ball : Word)
  /-- SYNC_LOST, R252. -/
  | syncLost
  /-- TX_STAMP, R258. -/
  | txStamp (l : Fin 64) (t : Word)
  /-- TXQID_READ, R259. -/
  | txqidRead (idx : Fin 8) (path : Path)
  /-- TRIG_EDGE, R263. -/
  | trigEdge (idx : Fin 26) (level : Bool) (t : Word)
  /-- PULSE_END, R262. -/
  | pulseEnd (o : Fin 104)
  /-- TTLOAD, R265. -/
  | ttload (q : Fin 32) (slot : Nat)
  /-- DISPATCH, R266. -/
  | dispatch
  /-- PULSE, R266. -/
  | pulse (col : Fin 64)
  /-- LEVEL, R266. -/
  | level (col : Fin 64)
  /-- INJECT, R493. -/
  | inject (col : Fin 64)
  /-- TT_TRIGGER, R265. -/
  | ttTrigger (col : Fin 64)
  /-- TT_SNAP, R168. -/
  | ttSnap (col : Fin 64)
  /-- TT_COMMIT, R49. -/
  | ttCommit (col : Fin 64)
  /-- WAKE, R270. -/
  | wake (col : Fin 64)
  /-- TT_EVENT, R266. -/
  | ttEvent (col : Fin 64)
  /-- RESHAPE_GO, R187. -/
  | reshapeGo (col : Fin 64)
  /-- COL_CLR, R269. -/
  | colClr (col : Fin 64)
  /-- FRAME_CLOSE, R272. -/
  | frameClose
  /-- BAR2_WRITE, R281. -/
  | bar2Write (off : BitVec 36) (bytes : List Byte)
  /-- BAR2_READ, R282. -/
  | bar2Read (off : BitVec 36) (n : Nat) (tag : Nat)
  /-- DOORBELL_POLL, R287. -/
  | doorbellPoll (bme : Bool)
  /-- DOORBELL_READ, R284. -/
  | doorbellRead (blk : Option (BitVec 1152))
  /-- MOVE, R291. Commands of descriptors name theirs by pair `q` and number `slot`: how many the pair had fetched before it. -/
  | move (q : Fin 32) (slot : Nat)
  /-- FILL, R291. -/
  | fill (q : Fin 32) (slot : Nat)
  /-- FENCE, R292. -/
  | fence (q : Fin 32) (slot : Nat)
  /-- SNAP, R168. -/
  | snap (q : Fin 32) (slot : Nat)
  /-- SLOTLOAD, R227. -/
  | slotload (q : Fin 32) (slot : Nat)
  /-- ROUTELOAD, R227. -/
  | routeload (q : Fin 32) (slot : Nat)
  /-- KEYLOAD, R375. -/
  | keyload (q : Fin 32) (slot : Nat)
  /-- RENEW, R381. -/
  | renew (q : Fin 32) (slot : Nat)
  /-- ATOMIC_DESC, R290. -/
  | atomicDesc (q : Fin 32) (slot : Nat)
  /-- MARK, R290. -/
  | mark (q : Fin 32) (slot : Nat)
  /-- COMPLETION_WRITE, R296. -/
  | completionWrite (q : Fin 32)
  /-- QP_ENABLE, R286. -/
  | qpEnable (q : Fin 32)
  /-- RING_ENABLE, R289. -/
  | ringEnable (event : Bool)
  /-- HOST_BRIDGE_RESET, R300. -/
  | hostBridgeReset (kind : Fin 3)
  /-- LINK_RETRAIN, R278. -/
  | linkRetrain (rate : Fin 6) (width : Fin 5)
  /-- PORT_TRAIN, R318. -/
  | portTrain (p : Fin 6)
  /-- TRAIN_TIMEOUT, R318. -/
  | trainTimeout (p : Fin 6)
  /-- CAR, R320. -/
  | car (p : Fin 6) (c : Carriage) (crc : BitVec 24) (lseq : BitVec 16) (ack : BitVec 16)
  /-- IDLE_BLOCK, R319. -/
  | idleBlock (p : Fin 6) (ack : BitVec 16)
  /-- NAK, R320. -/
  | nak (p : Fin 6) (lseq : BitVec 16) (ack : BitVec 16)
  /-- TRAIN, R318. -/
  | train (p : Fin 6) (lane : Fin 8) (idx : Fin 8) (width4 : Bool) (ready : Bool) (dev : BitVec 8) (inverted : Bool)
  /-- WAKE_BLOCK, R310. -/
  | wakeBlock (l : Fin 64)
  /-- XOFF, R319. -/
  | xoff (p : Fin 6) (rsp : Bool) (ack : BitVec 16)
  /-- XON, R319. -/
  | xon (p : Fin 6) (rsp : Bool) (ack : BitVec 16)
  /-- MARK_T, R323. -/
  | markT (p : Fin 6) (lane : Fin 8) (time : Word) (rx : Word) (inPlace : Bool)
  /-- MARK_R, R323. -/
  | markR (p : Fin 6) (lane : Fin 8) (time : Word) (t1 : Word) (inPlace : Bool)
  /-- REPLAY_TIMEOUT, R320. -/
  | replayTimeout (p : Fin 6) (receiver : Bool)
  /-- RAW_RECEIVE, R312. -/
  | rawReceive (l : Fin 64) (ws : List Word) (count : Fin 11) (start : Option (Fin 10)) (ball : Word) (idle : Bool)
  /-- UNDERRUN, R313. -/
  | underrun (l : Fin 64)
  /-- SLIP, R315. -/
  | slip (l : Fin 64) (n : Fin 1024)
  /-- EIDLE, R310. -/
  | eidle (isPort : Bool) (idx : Fin 64) (v : Bool)
  /-- CTLE_STEP, R306. -/
  | ctleStep (l : Fin 64) (step : Fin 32)
  /-- LANE_LOSS, R322. -/
  | laneLoss (l : Fin 64)
  /-- CHANNEL_ENABLE, R341. -/
  | channelEnable (c : Fin 8)
  /-- CHANNEL_INIT_DONE, R341. -/
  | channelInitDone (c : Fin 8) (err : Fin 6)
  /-- CHANNEL_DISABLE, R341. -/
  | channelDisable (c : Fin 8)
  /-- REFSB, R334. -/
  | refsb (c : Fin 8) (rank : Bool) (bank : Fin 4)
  /-- ROW_IDLE_CLOSE, R331. -/
  | rowIdleClose (c : Fin 8) (bank : Fin 64)
  /-- COMMAND_CONFIRM, R337. -/
  | commandConfirm (c : Fin 8)
  /-- FORCED_RETRAIN, R336. -/
  | forcedRetrain (c : Fin 8) (comp : Fin 32) (drift : BitVec 8)
  /-- RETRAIN_NOW, R336. -/
  | retrainNow (c : Fin 8) (comp : Fin 32) (drift : BitVec 8)
  /-- TEMP_STATUS_POLL, R334. -/
  | tempStatusPoll (c : Fin 8) (demand : Fin 3)
  /-- ALERT, R338. -/
  | alert (c : Fin 8) (crc : Bool) (asleep : Bool)
  /-- UNFREEZE, R340. -/
  | unfreeze (c : Fin 8)
  /-- ZERO_FILL_DONE, R356. -/
  | zeroFillDone (c : Fin 8)
  /-- GROUP_FLUSH, R350. -/
  | groupFlush (c : Fin 8) (group : Nat)
  /-- DRAM_PATROL_VISIT, R358. -/
  | dramPatrolVisit (c : Fin 8) (checks : List LineCheck)
  /-- REMAP_VALID, R362. -/
  | remapValid (c : Fin 8) (k : Fin 16)
  /-- REMAP_DONE, R362. -/
  | remapDone (c : Fin 8) (k : Fin 16) (checks : List LineCheck)
  /-- ZERO, R377. -/
  | zero (key : Fin 64)
  /-- SPARE, R377. -/
  | spare (key : Fin 64)
  /-- UNSPARE, R377. -/
  | unspare (key : Fin 64)
  /-- FLUSH, R371. -/
  | flush
  /-- RENEW_VISIT, R382. -/
  | renewVisit (checks : List LineCheck)
  /-- HOLD_TIMEOUT, R383. -/
  | holdTimeout (c : Fin 8) (id : Nat)
  /-- DOMAIN_DRAIN, R388. -/
  | domainDrain (d : Fin 41)
  /-- DRAIN_TIMEOUT, R388. -/
  | drainTimeout (d : Fin 41)
  /-- DOMAIN_ON, R390. -/
  | domainOn (d : Fin 41) (checks : List LineCheck)
  /-- VALLEY_ENTRY, R392. -/
  | valleyEntry
  /-- WAKE_N, R394. -/
  | wakeN
  /-- L1_EXIT, R394. -/
  | l1Exit
  /-- WAKE_COMPLETE, R395. -/
  | wakeComplete
  /-- REFCLK_CH_LOSS, R398. -/
  | refclkChLoss
  /-- REFCLK_LOC_LOSS, R397. -/
  | refclkLocLoss
  /-- RATIO_VALID, R397. -/
  | ratioValid (ratio : Word)
  /-- REQUALIFY, R399. -/
  | requalify
  /-- SYNTH_UNLOCK, R400. -/
  | synthUnlock (k : Fin 10)
  /-- SAFE_N, R400. -/
  | safeN (low : Bool)
  /-- VOUT_MODE_READ, R403. -/
  | voutModeRead (answer : Option Bool)
  /-- PMBUS_POLL, R404. -/
  | pmbusPoll (a : PmbusAnswer)
  /-- UNDERVOLTAGE, R406. -/
  | undervoltage
  /-- SENSOR_SAMPLE, R414. -/
  | sensorSample (thermal : Bool) (vs : List (BitVec 16))
  /-- SCAN, R416. -/
  | scan
  /-- BMPAT, R416. -/
  | bmpat (f : FieldNo)
  /-- DPATROL, R416. -/
  | dpatrol (c : Fin 8)
  /-- REFRESH, R416. -/
  | refresh (c : Fin 8)
  /-- CTLE, R416. -/
  | ctle (l : Fin 64) (valid : Bool) (width : Fin 128) (height : Fin 256)
  /-- OP, R417. -/
  | op
  /-- ERASE, R346. -/
  | erase (c : Fin 8)
  /-- REMAP, R363. -/
  | remap (c : Fin 8)
  /-- RENEW_LOOP, R381. -/
  | renewLoop
  /-- SHED, R419. -/
  | shed
  /-- STW_RESTART, R412. -/
  | stwRestart
  /-- LIMIT_RATIO, R423. -/
  | limitRatio (idx : Fin 10) (num : Nat) (den : Nat) (meas : Nat)
  /-- MWIN_PLACE, R422. -/
  | mwinPlace
  /-- WD_EXPIRE, R426. -/
  | wdExpire
  /-- WD_EXPIRED_CLEAR, R426. -/
  | wdExpiredClear
  /-- FIELD_TEST, R430. -/
  | fieldTest (cols : List (Fin 192 × Fin 60)) (again : Option (Fin 192 × Fin 60)) (other : Option (Fin 5 × Nat))
      (checks : List LineCheck)
  /-- FIELD_RESTORE, R431. -/
  | fieldRestore (checks : List LineCheck)
  /-- BIST_ABORT, R429. -/
  | bistAbort
  /-- SCAN_ENTER, R436. -/
  | scanEnter
  /-- SREP_WRITE, R438. -/
  | srepWrite (k : Fin 64) (r : BitVec 32)
  /-- PROG, R439. -/
  | prog (path : Path) (first : BitVec 16) (second : BitVec 16) (cycles : Nat) (tj : Int)
  /-- FUSE_WORD, R439. -/
  | fuseWord (ok : Bool)
  /-- DBG_REG, R440. -/
  | dbgReg (w : BitVec 58)
  /-- TAP_RESET, R441. -/
  | tapReset
  /-- BYPASS, R467. -/
  | bypass (bits : List Bool)
  /-- SAMPLE_PRELOAD, R467. -/
  | samplePreload (pins : List Bool) (bits : List Bool)
  /-- EXTEST, R467. -/
  | extest (pins : List Bool) (bits : List Bool)
  /-- CLAMP, R467. -/
  | clamp (bits : List Bool)
  /-- HIGHZ, R467. -/
  | highz (bits : List Bool)
  /-- IDCODE, R467. -/
  | idcode
  /-- UNLOCK, R442. -/
  | unlock (path : Path) (first : BitVec 16) (second : BitVec 16) (cycles : Nat)
  /-- LOCK, R442. -/
  | lock (path : Path)
  /-- DBG_EN_FALL, R466. -/
  | dbgEnFall
  /-- ACC_READ, R444. -/
  | accRead (path : Path)
  /-- ACC_WRITE, R444. -/
  | accWrite (path : Path)
  /-- LR, R445. -/
  | lr (path : Path)
  /-- SC, R445. -/
  | sc (path : Path)
  /-- LC_WINDOW, R447. -/
  | lcWindow (idx : Fin 4)
  /-- HALT_FRAME_END, R450. -/
  | haltFrameEnd (path : Path)
  /-- HALT_NOW, R451. -/
  | haltNow (path : Option Path)
  /-- RELEASE, R453. -/
  | release (path : Path)
  /-- RESUME_PREPARE, R453. -/
  | resumePrepare
  /-- TRACE_ENABLE, R454. -/
  | traceEnable (path : Path)
  /-- VT_SEND, R455. -/
  | vtSend (cyc : Nat)
  /-- TAKE, R455. -/
  | take (cyc : Nat)
  /-- VT_TX_WRITE, R455. -/
  | vtTxWrite (path : Path) (data : BitVec 32)
  /-- RXTAKE, R455. -/
  | rxtake (path : Path)
  /-- VCCIO_FAULT, R462. -/
  | vccioFault (b : Fin 8)
  /-- VCCIO_RETURN, R462. -/
  | vccioReturn (b : Fin 8)
  /-- FLASH_LOAD, R170. -/
  | flashLoad (words : Option (List Word))
  /-- HOST_MEMORY_READ, R294. -/
  | hostMemoryRead (q : Fin 32) (r : HostRead)
  /-- COMMAND_SLOT, R330. -/
  | commandSlot (c : Fin 8) (checks : List LineCheck)
  /-- DRAM_PHY_UNLOCK, R339. -/
  | dramPhyUnlock (c : Fin 8) (asleep : Bool)
  /-- SELF_REFRESH_IDLE, R341. -/
  | selfRefreshIdle (c : Fin 8)
  /-- BLKLOCK, R314. -/
  | blklock (l : Fin 64) (lat : BitVec 32)
  /-- PRBS_SYNC, R309. -/
  | prbsSync (l : Fin 64) (errs : Nat)
  /-- LINK_TRAINING, R278. -/
  | linkTraining (rate : Fin 6) (width : Fin 5)
  deriving DecidableEq, Repr

end Sys2Proof
end

