-- ==== Sys2Proof/Machine/Flags.lean ====
section
/-! DEFINITION. Conditions, flags, saturation and the datapath of word cells: every operation of Table 3-5 as a function
of the operands it reads (R67 to R75, R79). -/
namespace Sys2Proof.Machine

/-- GETF order: N, Z, C, V from bit 3 down. -/
def flagsCode (f : Flags) : Nat := 8 * bit f.n + 4 * bit f.z + 2 * bit f.c + bit f.v

/-- The flags that bits 3:0 of a word hold (SETF). -/
def flagsOfWord (w : Word) : Flags := ⟨w.getLsbD 3, w.getLsbD 2, w.getLsbD 1, w.getLsbD 0⟩

/-- Table 3-4, with `first` whether the cycle lies in 0 to L − 1. -/
def condHolds (code : Nat) (f : Flags) (first : Bool) : Bool :=
  match code with
  | 0 => true
  | 1 => f.z
  | 2 => !f.z
  | 3 => f.c
  | 4 => !f.c
  | 5 => f.n
  | 6 => !f.n
  | 7 => f.v
  | 8 => !f.v
  | 9 => f.c && !f.z
  | 10 => !f.c || f.z
  | 11 => f.n == f.v
  | 12 => f.n != f.v
  | 13 => !f.z && f.n == f.v
  | 14 => f.z || f.n != f.v
  | _ => first

/-- R61: what an executing cell reads at the start of its cycle: operands a, b, c, SHIFT, IMM16, SAT, the flags, CIN,
whether COND holds (the selector of SEL), and the table words of LUT12. -/
structure AluIn where
  a : Word
  b : Word
  c : Word
  shift : BitVec 8
  imm : BitVec 16
  sat : Bool
  fl : Flags
  cin : Bool
  cond : Bool
  tables : List Word
  deriving DecidableEq, Repr

/-- What an executed operation does at the end of its cycle: the value written, whether a register takes it, whether
the output latch does, the flags, COUT, and whether the value was saturated (R70). -/
structure AluOut where
  value : Word
  toReg : Bool
  toLatch : Bool
  fl : Flags
  cout : Bool
  saturated : Bool
  deriving DecidableEq, Repr

/-- SHIFT bits 5:0. -/
def AluIn.n (x : AluIn) : Nat := x.shift.toNat % 64

/-- The smallest and largest values of a signed 48-bit word. -/
def wordMin : Int := -(2 ^ 47 : Int)
def wordMax : Int := 2 ^ 47 - 1

/-- R68: V, the exact result lies outside the signed range. -/
def outOfRange (x : Int) : Bool := decide (x < wordMin) || decide (wordMax < x)

/-- R69: the saturated value toward the sign of the exact result. -/
def saturated48 (x : Int) : Word := if 0 < x then 0x7FFFFFFFFFFF else 0x800000000000

/-- R68: N and Z of the value written. -/
def flagsNz (f : Flags) (v : Word) : Flags := { f with n := v.getLsbD 47, z := v == 0 }

/-- R68, R69: a result with an exact value: V, saturation where `sat`, N and Z of what is written, C as given (none
leaves it). -/
def overflowOut (x : AluIn) (raw : Word) (exact : Int) (c : Option Bool) (cout sat reg : Bool) : AluOut :=
  let v := outOfRange exact
  let w := if v && sat then saturated48 exact else raw
  { value := w, toReg := reg, toLatch := true, saturated := v && sat, cout := cout,
    fl := { (flagsNz x.fl w) with c := c.getD x.fl.c, v := v } }

/-- Additions: C is the carry out of bit 47. -/
def addOut (x : AluIn) (a b : Word) (ci : Bool) : AluOut :=
  let carry := decide (2 ^ 48 ≤ a.toNat + b.toNat + bit ci)
  overflowOut x (a + b + BitVec.ofNat 48 (bit ci)) (a.toInt + b.toInt + bit ci) (some carry) carry x.sat true

/-- Subtractions and comparisons: a − b − (1 − ci); C is the inverse of the borrow. -/
def subOut (x : AluIn) (a b : Word) (ci sat reg : Bool) : AluOut :=
  let nb := decide (b.toNat + bit (!ci) ≤ a.toNat)
  overflowOut x (a - b - BitVec.ofNat 48 (bit (!ci))) (a.toInt - b.toInt - bit (!ci)) (some nb) nb sat reg

/-- Results that set N and Z alone. -/
def nzOut (x : AluIn) (v : Word) (reg : Bool) : AluOut := ⟨v, reg, true, flagsNz x.fl v, false, false⟩
/-- Results that set Z alone. -/
def zOut (x : AluIn) (v : Word) : AluOut := ⟨v, true, true, { x.fl with z := v == 0 }, false, false⟩
/-- Results that set no flag. -/
def plainOut (x : AluIn) (v : Word) : AluOut := ⟨v, true, true, x.fl, false, false⟩
/-- Results that set N, Z and C, where a count of 0 leaves C. -/
def nzcOut (x : AluIn) (v : Word) (c : Option Bool) : AluOut :=
  ⟨v, true, true, { (flagsNz x.fl v) with c := c.getD x.fl.c }, false, false⟩

/-- NOP: nothing written, the latch unchanged. -/
def aluNop (x : AluIn) : AluOut := ⟨0, false, false, x.fl, false, false⟩

def aluAdd (x : AluIn) : AluOut := addOut x x.a x.b false
def aluAdc (x : AluIn) : AluOut := addOut x x.a x.b x.fl.c
def aluAddw (x : AluIn) : AluOut := addOut x x.a x.b x.cin
def aluSub (x : AluIn) : AluOut := subOut x x.a x.b true x.sat true
def aluSbc (x : AluIn) : AluOut := subOut x x.a x.b x.fl.c x.sat true
def aluSubw (x : AluIn) : AluOut := subOut x x.a x.b x.cin x.sat true
def aluNeg (x : AluIn) : AluOut := subOut x 0 x.a true x.sat true
/-- ABS leaves C and drives COUT at 0 (R76). -/
def aluAbs (x : AluIn) : AluOut :=
  overflowOut x (if x.a.getLsbD 47 then 0 - x.a else x.a) x.a.toInt.natAbs none false x.sat true
def aluAddsh (x : AluIn) : AluOut := addOut x x.a (x.b <<< x.n) false
def aluCmp (x : AluIn) : AluOut := subOut x x.a x.b true false false
def aluCmpw (x : AluIn) : AluOut := subOut x x.a x.b x.cin false false
def aluAnd (x : AluIn) : AluOut := nzOut x (x.a &&& x.b) true
def aluOr (x : AluIn) : AluOut := nzOut x (x.a ||| x.b) true
def aluXor (x : AluIn) : AluOut := nzOut x (x.a ^^^ x.b) true
def aluAndn (x : AluIn) : AluOut := nzOut x (x.a &&& ~~~x.b) true
def aluOrn (x : AluIn) : AluOut := nzOut x (x.a ||| ~~~x.b) true
def aluXnor (x : AluIn) : AluOut := nzOut x (~~~(x.a ^^^ x.b)) true
def aluNot (x : AluIn) : AluOut := nzOut x (~~~x.a) true
def aluBsel (x : AluIn) : AluOut := nzOut x ((x.a &&& x.c) ||| (x.b &&& ~~~x.c)) true
def aluTest (x : AluIn) : AluOut := nzOut x (x.a &&& x.b) false
def aluXorshr (x : AluIn) : AluOut := nzOut x (x.a ^^^ (x.b >>> x.n)) true

/-- R68, R72: C is the last bit shifted out to the left, V whether the exact product leaves the signed range. -/
def shlOut (x : AluIn) (n : Nat) : AluOut :=
  overflowOut x (x.a <<< n) (x.a.toInt * (2 ^ n : Nat))
    (if n = 0 then none else some (decide (n ≤ 48) && x.a.getLsbD (48 - n))) false x.sat true
def shrOut (x : AluIn) (n : Nat) : AluOut :=
  nzcOut x (x.a >>> n) (if n = 0 then none else some (x.a.getLsbD (n - 1)))
def sarOut (x : AluIn) (n : Nat) : AluOut :=
  nzcOut x (x.a.sshiftRight n) (if n = 0 then none else some ((x.a.sshiftRight (n - 1)).getLsbD 0))

def aluShl (x : AluIn) : AluOut := shlOut x x.n
def aluShr (x : AluIn) : AluOut := shrOut x x.n
def aluSar (x : AluIn) : AluOut := sarOut x x.n
def aluRol (x : AluIn) : AluOut := nzOut x (x.a.rotateLeft (x.n % 48)) true
def aluRor (x : AluIn) : AluOut := nzOut x (x.a.rotateRight (x.n % 48)) true
def aluShlv (x : AluIn) : AluOut := shlOut x (x.b.toNat % 64)
def aluShrv (x : AluIn) : AluOut := shrOut x (x.b.toNat % 64)
def aluSarv (x : AluIn) : AluOut := sarOut x (x.b.toNat % 64)
def aluFshr (x : AluIn) : AluOut := nzOut x (((x.a ++ x.b) >>> x.n).extractLsb' 0 48) true

/-- R73: the field's position and width; a width of 0 means an empty field. -/
def AluIn.fieldWidth (x : AluIn) : Nat :=
  let w := if x.imm.toNat % 64 = 0 then 48 else x.imm.toNat % 64
  if 48 ≤ x.n then 0 else min w (48 - x.n)

def aluExtu (x : AluIn) : AluOut := nzOut x (BitVec.ofNat 48 (bitsOf x.n x.fieldWidth x.a.toNat)) true
def aluExts (x : AluIn) : AluOut :=
  let w := x.fieldWidth
  nzOut x (if w = 0 then 0 else BitVec.ofInt 48 (signed w (bitsOf x.n w x.a.toNat))) true
def aluIns (x : AluIn) : AluOut :=
  let w := x.fieldWidth
  nzOut x (if w = 0 then x.a else BitVec.ofNat 48 (setBitsOf x.n w x.a.toNat x.b.toNat)) true
def aluBrev (x : AluIn) : AluOut := nzOut x x.a.reverse true
def aluBswap (x : AluIn) : AluOut := nzOut x (unpackWord (packWord x.a).reverse) true

/-- Leading bits of the word equal to `b`, from the top bit of its `k` low bits. -/
def leading (b : Bool) (w : Word) : Nat → Nat
  | 0 => 0
  | k + 1 => if w.getLsbD k = b then leading b w k + 1 else 0
/-- Trailing zeros of the word, with `k` bits left to look at. -/
def trailing (w : Word) : Nat → Nat
  | 0 => 0
  | k + 1 => if w.getLsbD (47 - k) then 0 else trailing w k + 1

def aluPopc (x : AluIn) : AluOut :=
  zOut x (BitVec.ofNat 48 ((List.range 48).foldl (fun n k => n + bit (x.a.getLsbD k)) 0))
def aluClz (x : AluIn) : AluOut := zOut x (BitVec.ofNat 48 (leading false x.a 48))
def aluCtz (x : AluIn) : AluOut := zOut x (BitVec.ofNat 48 (trailing x.a 48))
def aluCls (x : AluIn) : AluOut := zOut x (BitVec.ofNat 48 (leading (x.a.getLsbD 47) x.a 47))
def aluMins (x : AluIn) : AluOut := nzOut x (if x.a.toInt ≤ x.b.toInt then x.a else x.b) true
def aluMaxs (x : AluIn) : AluOut := nzOut x (if x.b.toInt ≤ x.a.toInt then x.a else x.b) true
def aluMinu (x : AluIn) : AluOut := nzOut x (if x.a.toNat ≤ x.b.toNat then x.a else x.b) true
def aluMaxu (x : AluIn) : AluOut := nzOut x (if x.b.toNat ≤ x.a.toNat then x.a else x.b) true
/-- SEL uses COND as its selector (R67). -/
def aluSel (x : AluIn) : AluOut := plainOut x (if x.cond then x.a else x.b)
def aluSelz (x : AluIn) : AluOut := plainOut x (if x.c = 0 then x.b else x.a)
def aluMov (x : AluIn) : AluOut := plainOut x x.a
/-- IMM16 sign-extended. -/
def immWord (i : BitVec 16) : Word := i.signExtend 48
def aluLdi (x : AluIn) : AluOut := plainOut x (immWord x.imm)
def aluLdim (x : AluIn) : AluOut :=
  plainOut x (x.a.extractLsb' 32 16 ++ x.imm ++ x.a.extractLsb' 0 16)
def aluLdih (x : AluIn) : AluOut := plainOut x (x.imm ++ x.a.extractLsb' 0 32)
def aluGetf (x : AluIn) : AluOut := plainOut x (BitVec.ofNat 48 (flagsCode x.fl))
/-- SETF writes the flags and the latch and no register (R71). -/
def aluSetf (x : AluIn) : AluOut := ⟨x.a, false, true, flagsOfWord x.a, false, false⟩

/-! ## Lanes, R74 and R75 -/

/-- Lane width of SHIFT bits 7:6 (mode 00 is no lane mode). -/
def laneWidth (mode : Nat) : Nat := match mode with | 1 => 24 | 2 => 12 | _ => 8

/-- The lanes of a word, lowest first, as numbers below 2 ^ w. -/
def lanesOf (w : Nat) (x : Word) : List Nat := (List.range (48 / w)).map fun i => bitsOf (w * i) w x.toNat
/-- The word with these lanes. -/
def joinLanes (w : Nat) (l : List Nat) : Word :=
  BitVec.ofNat 48 (l.foldr (fun v acc => v % 2 ^ w + 2 ^ w * acc) 0)

/-- One lane's result: the value before saturation, its exact value where the lane can overflow, and its carry or
inverse borrow. -/
structure LaneOut where
  raw : Nat
  exact : Option Int
  carry : Bool
  deriving DecidableEq, Repr

def LaneOut.overflow (w : Nat) (o : LaneOut) : Bool :=
  match o.exact with
  | none => false
  | some e => decide (e < -(2 ^ (w - 1) : Int)) || decide ((2 ^ (w - 1) : Int) ≤ e)
def LaneOut.value (w : Nat) (sat : Bool) (o : LaneOut) : Nat :=
  match o.exact with
  | none => o.raw
  | some e => if o.overflow w && sat then (if 0 < e then 2 ^ (w - 1) - 1 else 2 ^ (w - 1)) else o.raw

/-- Which flags a lane operation writes: `c`, `v` and `n` as Table 3-5 lists them; Z always. -/
structure LaneFlags where
  n : Bool
  c : Bool
  v : Bool
  sat : Bool
  deriving DecidableEq, Repr

/-- R74, R75: a lane operation, from its function of one lane of a, of b, the lane width and the count s. -/
def laneOut (x : AluIn) (lf : LaneFlags) (g : Nat → Nat → Nat → Nat → LaneOut) : AluOut :=
  let w := laneWidth (x.shift.toNat / 64)
  let os := List.zipWith (fun p q => g w (x.shift.toNat % 32) p q) (lanesOf w x.a) (lanesOf w x.b)
  let sat := x.sat && lf.sat
  let v := os.any (LaneOut.overflow w)
  let r := joinLanes w (os.map (LaneOut.value w sat))
  { value := r, toReg := true, toLatch := true, cout := false, saturated := v && sat,
    fl := { n := if lf.n then r.getLsbD 47 else x.fl.n, z := r == 0,
            c := if lf.c then ((os.getLast?.map (·.carry)).getD false) else x.fl.c,
            v := if lf.v then v else x.fl.v } }

def laneAdd (w _ p q : Nat) : LaneOut := ⟨(p + q) % 2 ^ w, some (signed w p + signed w q), decide (2 ^ w ≤ p + q)⟩
def laneSub (w _ p q : Nat) : LaneOut :=
  ⟨(p + 2 ^ w - q) % 2 ^ w, some (signed w p - signed w q), decide (q ≤ p)⟩
def laneAbs (w _ p _q : Nat) : LaneOut := ⟨wrap w (signed w p).natAbs, some (signed w p).natAbs, false⟩
def laneOf (v : Nat) : LaneOut := ⟨v, none, false⟩
def laneMins (w _ p q : Nat) : LaneOut := laneOf (if signed w p ≤ signed w q then p else q)
def laneMaxs (w _ p q : Nat) : LaneOut := laneOf (if signed w q ≤ signed w p then p else q)
def laneMinu (_ _ p q : Nat) : LaneOut := laneOf (min p q)
def laneMaxu (_ _ p q : Nat) : LaneOut := laneOf (max p q)
def laneEq (w _ p q : Nat) : LaneOut := laneOf (if p = q then 2 ^ w - 1 else 0)
def laneGt (w _ p q : Nat) : LaneOut := laneOf (if signed w q < signed w p then 2 ^ w - 1 else 0)
def laneShl (w s p _q : Nat) : LaneOut := ⟨p * 2 ^ s % 2 ^ w, some (signed w p * (2 ^ s : Nat)), false⟩
def laneShr (_ s p _q : Nat) : LaneOut := laneOf (p / 2 ^ s)
def laneSar (w s p _q : Nat) : LaneOut := laneOf (wrap w (signed w p / (2 ^ s : Nat)))
def laneAvg (w _ p q : Nat) : LaneOut := laneOf (wrap w ((signed w p + signed w q + 1) / 2))

def aluVadd (x : AluIn) : AluOut := laneOut x ⟨true, true, true, true⟩ laneAdd
def aluVsub (x : AluIn) : AluOut := laneOut x ⟨true, true, true, true⟩ laneSub
def aluVabs (x : AluIn) : AluOut := laneOut x ⟨true, false, true, true⟩ laneAbs
def aluVmins (x : AluIn) : AluOut := laneOut x ⟨true, false, false, false⟩ laneMins
def aluVmaxs (x : AluIn) : AluOut := laneOut x ⟨true, false, false, false⟩ laneMaxs
def aluVminu (x : AluIn) : AluOut := laneOut x ⟨true, false, false, false⟩ laneMinu
def aluVmaxu (x : AluIn) : AluOut := laneOut x ⟨true, false, false, false⟩ laneMaxu
def aluVcmpeq (x : AluIn) : AluOut := laneOut x ⟨false, false, false, false⟩ laneEq
def aluVcmpgt (x : AluIn) : AluOut := laneOut x ⟨false, false, false, false⟩ laneGt
def aluVshl (x : AluIn) : AluOut := laneOut x ⟨true, false, true, true⟩ laneShl
def aluVshr (x : AluIn) : AluOut := laneOut x ⟨true, false, false, false⟩ laneShr
def aluVsar (x : AluIn) : AluOut := laneOut x ⟨true, false, false, false⟩ laneSar
def aluVavg (x : AluIn) : AluOut := laneOut x ⟨true, false, false, false⟩ laneAvg

/-- R79, R80: twelve lookups of `a`; lookup k has the 16 bits at 16 (k mod 3) of table word k / 3. -/
def lut12 (tables : List Word) (a : Word) : Word :=
  BitVec.ofNat 48 ((List.range 12).foldl (fun acc k =>
    acc + bit ((tables.getD (k / 3) 0).getLsbD (16 * (k % 3) + bitsOf (4 * k) 4 a.toNat)) * 2 ^ k) 0)
def aluLut12 (x : AluIn) : AluOut := plainOut x (lut12 x.tables x.a)

end Sys2Proof.Machine
end

