-- ==== Sys2Proof/Machine/RegFields.lean ====
section
/-! DEFINITION. Every register and field of the BAR0 register tables of the spec (chapters 1 to 22), by name:
`R.<BLOCK>_<REGISTER>` is a register and `F.<BLOCK>_<REGISTER>_<FIELD>` one of its fields, with the indices the
register has (block number first, then array elements). -/
namespace Sys2Proof.Machine

/-- LIM.MAGIC, Table 22-1. -/
def R.LIM_MAGIC : RegRef := ⟨0x0, 0x4c494d54⟩
def F.LIM_MAGIC_MAGIC : Fld := ⟨R.LIM_MAGIC, 0, 32⟩
/-- LIM.VER, Table 22-1. -/
def R.LIM_VER : RegRef := ⟨0x4, 0x1⟩
def F.LIM_VER_VERSION : Fld := ⟨R.LIM_VER, 0, 8⟩
/-- LIM.LENGTH, Table 22-1. -/
def R.LIM_LENGTH : RegRef := ⟨0x8, 0x0⟩
def F.LIM_LENGTH_BYTES : Fld := ⟨R.LIM_LENGTH, 0, 32⟩
/-- LIM.CRC, Table 22-1. -/
def R.LIM_CRC : RegRef := ⟨0xc, 0x0⟩
def F.LIM_CRC_CRC : Fld := ⟨R.LIM_CRC, 0, 32⟩
/-- LIM.NBLK, Table 22-1. -/
def R.LIM_NBLK : RegRef := ⟨0x10, 0x1b⟩
def F.LIM_NBLK_COUNT : Fld := ⟨R.LIM_NBLK, 0, 16⟩
/-- LIM.BLKPTR, Table 22-1. -/
def R.LIM_BLKPTR : RegRef := ⟨0x14, 0x100⟩
def F.LIM_BLKPTR_PTR : Fld := ⟨R.LIM_BLKPTR, 0, 32⟩
/-- LIM.BODY, Table 22-1. -/
def R.LIM_BODY : RegRef := ⟨0x18, 0x200000⟩
def F.LIM_BODY_PTR : Fld := ⟨R.LIM_BODY, 0, 32⟩
/-- LIM.STRPTR, Table 22-1. -/
def R.LIM_STRPTR : RegRef := ⟨0x1c, 0x0⟩
def F.LIM_STRPTR_PTR : Fld := ⟨R.LIM_STRPTR, 0, 32⟩
/-- LIM.REGS, Table 22-1. -/
def R.LIM_REGS : RegRef := ⟨0x20, 0x0⟩
def F.LIM_REGS_COUNT : Fld := ⟨R.LIM_REGS, 0, 32⟩
/-- LIM.ADDRS, Table 22-1. -/
def R.LIM_ADDRS : RegRef := ⟨0x24, 0x0⟩
def F.LIM_ADDRS_COUNT : Fld := ⟨R.LIM_ADDRS, 0, 32⟩
/-- LIM.NDESC, Table 22-1. -/
def R.LIM_NDESC : RegRef := ⟨0x28, 0x0⟩
def F.LIM_NDESC_COUNT : Fld := ⟨R.LIM_NDESC, 0, 32⟩
/-- LIM.ID, Table 22-1. -/
def R.LIM_ID : RegRef := ⟨0x40, 0x48240000⟩
def F.LIM_ID_PART : Fld := ⟨R.LIM_ID, 16, 16⟩
def F.LIM_ID_REV : Fld := ⟨R.LIM_ID, 12, 4⟩
def F.LIM_ID_TEMP : Fld := ⟨R.LIM_ID, 2, 2⟩
def F.LIM_ID_SPEED : Fld := ⟨R.LIM_ID, 0, 2⟩
/-- LIM.LOT_LO, Table 22-1. -/
def R.LIM_LOT_LO : RegRef := ⟨0x44, 0x0⟩
def F.LIM_LOT_LO_LOT : Fld := ⟨R.LIM_LOT_LO, 0, 32⟩
/-- LIM.LOT_HI, Table 22-1. -/
def R.LIM_LOT_HI : RegRef := ⟨0x48, 0x0⟩
def F.LIM_LOT_HI_LOT : Fld := ⟨R.LIM_LOT_HI, 0, 16⟩
/-- LIM.POS, Table 22-1. -/
def R.LIM_POS : RegRef := ⟨0x4c, 0x0⟩
def F.LIM_POS_WAFER : Fld := ⟨R.LIM_POS, 14, 5⟩
def F.LIM_POS_DIEY : Fld := ⟨R.LIM_POS, 7, 7⟩
def F.LIM_POS_DIEX : Fld := ⟨R.LIM_POS, 0, 7⟩
/-- LIM.UNITID0, Table 22-1. -/
def R.LIM_UNITID0 : RegRef := ⟨0x50, 0x0⟩
def F.LIM_UNITID0_ID : Fld := ⟨R.LIM_UNITID0, 0, 32⟩
/-- LIM.UNITID1, Table 22-1. -/
def R.LIM_UNITID1 : RegRef := ⟨0x54, 0x0⟩
def F.LIM_UNITID1_ID : Fld := ⟨R.LIM_UNITID1, 0, 32⟩
/-- GLB.MODE, Table 1-7. -/
def R.GLB_MODE : RegRef := ⟨0x10000, 0x0⟩
def F.GLB_MODE_BUSY : Fld := ⟨R.GLB_MODE, 8, 1⟩
def F.GLB_MODE_BASE : Fld := ⟨R.GLB_MODE, 4, 4⟩
def F.GLB_MODE_MODE : Fld := ⟨R.GLB_MODE, 0, 4⟩
/-- GLB.MODEREQ, Table 1-8. -/
def R.GLB_MODEREQ : RegRef := ⟨0x10004, 0x0⟩
def F.GLB_MODEREQ_REQ : Fld := ⟨R.GLB_MODEREQ, 0, 4⟩
/-- GLB.STATUS, Table 1-9. -/
def R.GLB_STATUS : RegRef := ⟨0x10008, 0x1⟩
def F.GLB_STATUS_ACT : Fld := ⟨R.GLB_STATUS, 0, 12⟩
/-- GLB.ERR, Table 1-10. -/
def R.GLB_ERR : RegRef := ⟨0x1000c, 0x0⟩
def F.GLB_ERR_STATICW : Fld := ⟨R.GLB_ERR, 4, 1⟩
def F.GLB_ERR_LOADFAIL : Fld := ⟨R.GLB_ERR, 3, 1⟩
def F.GLB_ERR_LOCKTO : Fld := ⟨R.GLB_ERR, 2, 1⟩
def F.GLB_ERR_BUSYREJ : Fld := ⟨R.GLB_ERR, 1, 1⟩
def F.GLB_ERR_REJECT : Fld := ⟨R.GLB_ERR, 0, 1⟩
/-- GLB.LOSTFRAMES_LO, Table 1-11. -/
def R.GLB_LOSTFRAMES_LO : RegRef := ⟨0x10010, 0x0⟩
def F.GLB_LOSTFRAMES_LO_COUNT : Fld := ⟨R.GLB_LOSTFRAMES_LO, 0, 32⟩
/-- GLB.LOSTFRAMES_HI, Table 1-11. -/
def R.GLB_LOSTFRAMES_HI : RegRef := ⟨0x10014, 0x0⟩
def F.GLB_LOSTFRAMES_HI_COUNT : Fld := ⟨R.GLB_LOSTFRAMES_HI, 0, 16⟩
/-- GLB.LOCKCFG, Table 1-12. -/
def R.GLB_LOCKCFG : RegRef := ⟨0x10018, 0x3e8⟩
def F.GLB_LOCKCFG_AUTORUN : Fld := ⟨R.GLB_LOCKCFG, 16, 1⟩
def F.GLB_LOCKCFG_TIMEOUT : Fld := ⟨R.GLB_LOCKCFG, 0, 16⟩
/-- GLB.TRANS, Table 1-13. -/
def R.GLB_TRANS : RegRef := ⟨0x1001c, 0x0⟩
def F.GLB_TRANS_REJ : Fld := ⟨R.GLB_TRANS, 23, 1⟩
def F.GLB_TRANS_CAUSE : Fld := ⟨R.GLB_TRANS, 8, 8⟩
def F.GLB_TRANS_TO : Fld := ⟨R.GLB_TRANS, 4, 4⟩
def F.GLB_TRANS_FROM : Fld := ⟨R.GLB_TRANS, 0, 4⟩
/-- PWR.OPREQ, Table 17-6. -/
def R.PWR_OPREQ : RegRef := ⟨0x20000, 0x0⟩
def F.PWR_OPREQ_OP : Fld := ⟨R.PWR_OPREQ, 0, 2⟩
/-- PWR.OPSTAT, Table 17-6. -/
def R.PWR_OPSTAT : RegRef := ⟨0x20004, 0x0⟩
def F.PWR_OPSTAT_VMOK : Fld := ⟨R.PWR_OPSTAT, 10, 1⟩
def F.PWR_OPSTAT_HELDOP : Fld := ⟨R.PWR_OPSTAT, 8, 2⟩
def F.PWR_OPSTAT_HELD : Fld := ⟨R.PWR_OPSTAT, 7, 1⟩
def F.PWR_OPSTAT_BUSY : Fld := ⟨R.PWR_OPSTAT, 6, 1⟩
def F.PWR_OPSTAT_OPF : Fld := ⟨R.PWR_OPSTAT, 4, 2⟩
def F.PWR_OPSTAT_OPV : Fld := ⟨R.PWR_OPSTAT, 2, 2⟩
def F.PWR_OPSTAT_OPCUR : Fld := ⟨R.PWR_OPSTAT, 0, 2⟩
/-- PWR.ERR, Table 17-6. -/
def R.PWR_ERR : RegRef := ⟨0x20008, 0x0⟩
def F.PWR_ERR_UV : Fld := ⟨R.PWR_ERR, 7, 1⟩
def F.PWR_ERR_VMODE : Fld := ⟨R.PWR_ERR, 6, 1⟩
def F.PWR_ERR_PMBUS : Fld := ⟨R.PWR_ERR, 5, 1⟩
def F.PWR_ERR_PGTMO : Fld := ⟨R.PWR_ERR, 4, 1⟩
def F.PWR_ERR_OPREJ : Fld := ⟨R.PWR_ERR, 3, 1⟩
def F.PWR_ERR_DOMTMO : Fld := ⟨R.PWR_ERR, 2, 1⟩
def F.PWR_ERR_DOMREJ : Fld := ⟨R.PWR_ERR, 1, 1⟩
def F.PWR_ERR_STATICW : Fld := ⟨R.PWR_ERR, 0, 1⟩
/-- PWR.DRAIN_TIMEOUT, Table 17-6. -/
def R.PWR_DRAIN_TIMEOUT : RegRef := ⟨0x2000c, 0x64⟩
def F.PWR_DRAIN_TIMEOUT_US : Fld := ⟨R.PWR_DRAIN_TIMEOUT, 0, 16⟩
/-- PWR.DOMCTL0, Table 17-6. -/
def R.PWR_DOMCTL0 : RegRef := ⟨0x20010, 0xffffffff⟩
def F.PWR_DOMCTL0_ON : Fld := ⟨R.PWR_DOMCTL0, 4, 28⟩
/-- PWR.DOMCTL1, Table 17-6. -/
def R.PWR_DOMCTL1 : RegRef := ⟨0x20014, 0x1ff⟩
def F.PWR_DOMCTL1_ON : Fld := ⟨R.PWR_DOMCTL1, 0, 9⟩
/-- PWR.DOMSTAT0, Table 17-6. -/
def R.PWR_DOMSTAT0 : RegRef := ⟨0x20018, 0xffffffff⟩
def F.PWR_DOMSTAT0_ON : Fld := ⟨R.PWR_DOMSTAT0, 0, 32⟩
/-- PWR.DOMSTAT1, Table 17-6. -/
def R.PWR_DOMSTAT1 : RegRef := ⟨0x2001c, 0x1ff⟩
def F.PWR_DOMSTAT1_ON : Fld := ⟨R.PWR_DOMSTAT1, 0, 9⟩
/-- PWR.DOMBUSY, Table 17-6. -/
def R.PWR_DOMBUSY : RegRef := ⟨0x20020, 0x0⟩
def F.PWR_DOMBUSY_PEND : Fld := ⟨R.PWR_DOMBUSY, 31, 1⟩
def F.PWR_DOMBUSY_DOM : Fld := ⟨R.PWR_DOMBUSY, 8, 6⟩
def F.PWR_DOMBUSY_STEP : Fld := ⟨R.PWR_DOMBUSY, 0, 3⟩
/-- PWR.PMB, Table 17-6. -/
def R.PWR_PMB : RegRef := ⟨0x20024, 0x40⟩
def F.PWR_PMB_PAGEEN : Fld := ⟨R.PWR_PMB, 18, 1⟩
def F.PWR_PMB_PEC : Fld := ⟨R.PWR_PMB, 17, 1⟩
def F.PWR_PMB_PAGE : Fld := ⟨R.PWR_PMB, 9, 8⟩
def F.PWR_PMB_ADDR : Fld := ⟨R.PWR_PMB, 0, 7⟩
/-- PWR.VTRIM, Table 17-6. -/
def R.PWR_VTRIM : RegRef := ⟨0x20028, 0x0⟩
def F.PWR_VTRIM_MV : Fld := ⟨R.PWR_VTRIM, 0, 6⟩
/-- PWR.CTL, Table 17-6. -/
def R.PWR_CTL : RegRef := ⟨0x2002c, 0x0⟩
def F.PWR_CTL_UVPOL : Fld := ⟨R.PWR_CTL, 0, 1⟩
/-- PWR.VALLEY, Table 17-6. -/
def R.PWR_VALLEY : RegRef := ⟨0x20030, 0x300⟩
def F.PWR_VALLEY_L1EN : Fld := ⟨R.PWR_VALLEY, 9, 1⟩
def F.PWR_VALLEY_WNEN : Fld := ⟨R.PWR_VALLEY, 8, 1⟩
def F.PWR_VALLEY_SRC : Fld := ⟨R.PWR_VALLEY, 4, 2⟩
def F.PWR_VALLEY_STATE : Fld := ⟨R.PWR_VALLEY, 0, 3⟩
/-- PWR.RSTCTL, Table 17-6. -/
def R.PWR_RSTCTL : RegRef := ⟨0x20034, 0x0⟩
def F.PWR_RSTCTL_KEY : Fld := ⟨R.PWR_RSTCTL, 0, 16⟩
/-- PWR.RSTCAUSE, Table 17-6. -/
def R.PWR_RSTCAUSE : RegRef := ⟨0x20038, 0x0⟩
def F.PWR_RSTCAUSE_CAUSE : Fld := ⟨R.PWR_RSTCAUSE, 0, 2⟩
/-- PWR.COMMIT, Table 2-6. -/
def R.PWR_COMMIT : RegRef := ⟨0x200fc, 0x0⟩
def F.PWR_COMMIT_PEND : Fld := ⟨R.PWR_COMMIT, 4, 1⟩
def F.PWR_COMMIT_HOLD : Fld := ⟨R.PWR_COMMIT, 3, 1⟩
def F.PWR_COMMIT_ARMED : Fld := ⟨R.PWR_COMMIT, 2, 1⟩
def F.PWR_COMMIT_DISCARD : Fld := ⟨R.PWR_COMMIT, 1, 1⟩
def F.PWR_COMMIT_GO : Fld := ⟨R.PWR_COMMIT, 0, 1⟩
/-- CLK.CTL, Table 17-7. -/
def R.CLK_CTL : RegRef := ⟨0x30000, 0x0⟩
def F.CLK_CTL_GATEDIS : Fld := ⟨R.CLK_CTL, 2, 1⟩
def F.CLK_CTL_PRIM : Fld := ⟨R.CLK_CTL, 1, 1⟩
def F.CLK_CTL_FAILOVER : Fld := ⟨R.CLK_CTL, 0, 1⟩
/-- CLK.LOCFREQ, Table 17-7. -/
def R.CLK_LOCFREQ : RegRef := ⟨0x30004, 0x2710⟩
def F.CLK_LOCFREQ_KHZ : Fld := ⟨R.CLK_LOCFREQ, 0, 17⟩
/-- CLK.STAT, Table 17-7. -/
def R.CLK_STAT : RegRef := ⟨0x30008, 0x0⟩
def F.CLK_STAT_LASTUNL : Fld := ⟨R.CLK_STAT, 12, 4⟩
def F.CLK_STAT_DRCLOCK : Fld := ⟨R.CLK_STAT, 11, 1⟩
def F.CLK_STAT_LNGLOCK : Fld := ⟨R.CLK_STAT, 10, 1⟩
def F.CLK_STAT_HBRLOCK : Fld := ⟨R.CLK_STAT, 9, 1⟩
def F.CLK_STAT_STWLOCK : Fld := ⟨R.CLK_STAT, 8, 1⟩
def F.CLK_STAT_SPNLOCK : Fld := ⟨R.CLK_STAT, 7, 1⟩
def F.CLK_STAT_FABLOCK : Fld := ⟨R.CLK_STAT, 6, 1⟩
def F.CLK_STAT_TBLOCK : Fld := ⟨R.CLK_STAT, 5, 1⟩
def F.CLK_STAT_ONLOC : Fld := ⟨R.CLK_STAT, 3, 1⟩
def F.CLK_STAT_RATIOV : Fld := ⟨R.CLK_STAT, 2, 1⟩
def F.CLK_STAT_LOCOK : Fld := ⟨R.CLK_STAT, 1, 1⟩
def F.CLK_STAT_CHOK : Fld := ⟨R.CLK_STAT, 0, 1⟩
/-- CLK.ERR, Table 17-7. -/
def R.CLK_ERR : RegRef := ⟨0x3000c, 0x0⟩
def F.CLK_ERR_SAFEN : Fld := ⟨R.CLK_ERR, 6, 1⟩
def F.CLK_ERR_REQUAL : Fld := ⟨R.CLK_ERR, 5, 1⟩
def F.CLK_ERR_FOVER : Fld := ⟨R.CLK_ERR, 4, 1⟩
def F.CLK_ERR_UNLOCK : Fld := ⟨R.CLK_ERR, 3, 1⟩
def F.CLK_ERR_LOCLOSS : Fld := ⟨R.CLK_ERR, 2, 1⟩
def F.CLK_ERR_CHLOSS : Fld := ⟨R.CLK_ERR, 1, 1⟩
def F.CLK_ERR_STATICW : Fld := ⟨R.CLK_ERR, 0, 1⟩
/-- CLK.REQUAL, Table 17-7. -/
def R.CLK_REQUAL : RegRef := ⟨0x30010, 0x64⟩
def F.CLK_REQUAL_MS : Fld := ⟨R.CLK_REQUAL, 0, 16⟩
/-- CLK.RATIO_LO, Table 17-7. -/
def R.CLK_RATIO_LO : RegRef := ⟨0x30014, 0x0⟩
def F.CLK_RATIO_LO_RATIO : Fld := ⟨R.CLK_RATIO_LO, 0, 32⟩
/-- CLK.RATIO_HI, Table 17-7. -/
def R.CLK_RATIO_HI : RegRef := ⟨0x30018, 0x0⟩
def F.CLK_RATIO_HI_RATIO : Fld := ⟨R.CLK_RATIO_HI, 0, 16⟩
/-- CLK.CHMEAS, Table 17-7. -/
def R.CLK_CHMEAS : RegRef := ⟨0x3001c, 0x0⟩
def F.CLK_CHMEAS_KHZ : Fld := ⟨R.CLK_CHMEAS, 0, 17⟩
/-- CLK.LOCMEAS, Table 17-7. -/
def R.CLK_LOCMEAS : RegRef := ⟨0x30020, 0x0⟩
def F.CLK_LOCMEAS_KHZ : Fld := ⟨R.CLK_LOCMEAS, 0, 17⟩
/-- CLK.COMMIT, Table 2-6. -/
def R.CLK_COMMIT : RegRef := ⟨0x300fc, 0x0⟩
def F.CLK_COMMIT_PEND : Fld := ⟨R.CLK_COMMIT, 4, 1⟩
def F.CLK_COMMIT_HOLD : Fld := ⟨R.CLK_COMMIT, 3, 1⟩
def F.CLK_COMMIT_ARMED : Fld := ⟨R.CLK_COMMIT, 2, 1⟩
def F.CLK_COMMIT_DISCARD : Fld := ⟨R.CLK_COMMIT, 1, 1⟩
def F.CLK_COMMIT_GO : Fld := ⟨R.CLK_COMMIT, 0, 1⟩
/-- TIME.CTL, Table 11-7. -/
def R.TIME_CTL : RegRef := ⟨0x40000, 0x4⟩
def F.TIME_CTL_DEVID : Fld := ⟨R.TIME_CTL, 16, 8⟩
def F.TIME_CTL_LINKPORT : Fld := ⟨R.TIME_CTL, 8, 3⟩
def F.TIME_CTL_WRAPEV : Fld := ⟨R.TIME_CTL, 2, 1⟩
def F.TIME_CTL_MODE : Fld := ⟨R.TIME_CTL, 0, 2⟩
/-- TIME.STATUS, Table 11-8. -/
def R.TIME_STATUS : RegRef := ⟨0x40004, 0x0⟩
def F.TIME_STATUS_HOLD : Fld := ⟨R.TIME_STATUS, 4, 1⟩
def F.TIME_STATUS_SYNCOK : Fld := ⟨R.TIME_STATUS, 3, 1⟩
def F.TIME_STATUS_LOCKED : Fld := ⟨R.TIME_STATUS, 2, 1⟩
def F.TIME_STATUS_TICKS : Fld := ⟨R.TIME_STATUS, 1, 1⟩
def F.TIME_STATUS_VALID : Fld := ⟨R.TIME_STATUS, 0, 1⟩
/-- TIME.ERR, Table 11-9. -/
def R.TIME_ERR : RegRef := ⟨0x40008, 0x0⟩
def F.TIME_ERR_OUTLIER : Fld := ⟨R.TIME_ERR, 6, 1⟩
def F.TIME_ERR_SYNCLOST : Fld := ⟨R.TIME_ERR, 5, 1⟩
def F.TIME_ERR_GRIDOLD : Fld := ⟨R.TIME_ERR, 4, 1⟩
def F.TIME_ERR_GRIDMIS : Fld := ⟨R.TIME_ERR, 3, 1⟩
def F.TIME_ERR_INCRRANGE : Fld := ⟨R.TIME_ERR, 2, 1⟩
def F.TIME_ERR_SYNCW : Fld := ⟨R.TIME_ERR, 1, 1⟩
def F.TIME_ERR_STATICW : Fld := ⟨R.TIME_ERR, 0, 1⟩
/-- TIME.NOW_LO, Table 11-10. -/
def R.TIME_NOW_LO : RegRef := ⟨0x40010, 0x0⟩
def F.TIME_NOW_LO_DATA : Fld := ⟨R.TIME_NOW_LO, 0, 32⟩
/-- TIME.NOW_HI, Table 11-10. -/
def R.TIME_NOW_HI : RegRef := ⟨0x40014, 0x0⟩
def F.TIME_NOW_HI_DATA : Fld := ⟨R.TIME_NOW_HI, 0, 16⟩
/-- TIME.NOWX, Table 11-12. -/
def R.TIME_NOWX : RegRef := ⟨0x40018, 0x0⟩
def F.TIME_NOWX_WRAPS : Fld := ⟨R.TIME_NOWX, 0, 32⟩
/-- TIME.RAW_LO, Table 11-10. -/
def R.TIME_RAW_LO : RegRef := ⟨0x40020, 0x0⟩
def F.TIME_RAW_LO_DATA : Fld := ⟨R.TIME_RAW_LO, 0, 32⟩
/-- TIME.RAW_HI, Table 11-10. -/
def R.TIME_RAW_HI : RegRef := ⟨0x40024, 0x0⟩
def F.TIME_RAW_HI_DATA : Fld := ⟨R.TIME_RAW_HI, 0, 16⟩
/-- TIME.INCR_LO, Table 11-10. -/
def R.TIME_INCR_LO : RegRef := ⟨0x40028, 0x0⟩
def F.TIME_INCR_LO_DATA : Fld := ⟨R.TIME_INCR_LO, 0, 32⟩
/-- TIME.INCR_HI, Table 11-10. -/
def R.TIME_INCR_HI : RegRef := ⟨0x4002c, 0x100⟩
def F.TIME_INCR_HI_DATA : Fld := ⟨R.TIME_INCR_HI, 0, 16⟩
/-- TIME.STEP_LO, Table 11-10. -/
def R.TIME_STEP_LO : RegRef := ⟨0x40030, 0x0⟩
def F.TIME_STEP_LO_DATA : Fld := ⟨R.TIME_STEP_LO, 0, 32⟩
/-- TIME.STEP_HI, Table 11-10. -/
def R.TIME_STEP_HI : RegRef := ⟨0x40034, 0x0⟩
def F.TIME_STEP_HI_DATA : Fld := ⟨R.TIME_STEP_HI, 0, 16⟩
/-- TIME.SYNCREF_LO, Table 11-10. -/
def R.TIME_SYNCREF_LO : RegRef := ⟨0x40038, 0x0⟩
def F.TIME_SYNCREF_LO_DATA : Fld := ⟨R.TIME_SYNCREF_LO, 0, 32⟩
/-- TIME.SYNCREF_HI, Table 11-10. -/
def R.TIME_SYNCREF_HI : RegRef := ⟨0x4003c, 0x0⟩
def F.TIME_SYNCREF_HI_DATA : Fld := ⟨R.TIME_SYNCREF_HI, 0, 16⟩
/-- TIME.SYNCPER, Table 11-12. -/
def R.TIME_SYNCPER : RegRef := ⟨0x40040, 0x30d4⟩
def F.TIME_SYNCPER_PER : Fld := ⟨R.TIME_SYNCPER, 0, 17⟩
/-- TIME.SYNCDLY, Table 11-12. -/
def R.TIME_SYNCDLY : RegRef := ⟨0x40044, 0x0⟩
def F.TIME_SYNCDLY_DLY : Fld := ⟨R.TIME_SYNCDLY, 0, 32⟩
/-- TIME.PHERR, Table 11-12. -/
def R.TIME_PHERR : RegRef := ⟨0x40048, 0x0⟩
def F.TIME_PHERR_ERR : Fld := ⟨R.TIME_PHERR, 0, 32⟩
/-- TIME.LINKASYM, Table 11-12. -/
def R.TIME_LINKASYM : RegRef := ⟨0x4004c, 0x0⟩
def F.TIME_LINKASYM_ASYM : Fld := ⟨R.TIME_LINKASYM, 0, 32⟩
/-- TIME.SERVO, Table 11-12. -/
def R.TIME_SERVO : RegRef := ⟨0x40050, 0x3e80414⟩
def F.TIME_SERVO_SLEW : Fld := ⟨R.TIME_SERVO, 16, 12⟩
def F.TIME_SERVO_BW : Fld := ⟨R.TIME_SERVO, 8, 4⟩
def F.TIME_SERVO_LOCKTHR : Fld := ⟨R.TIME_SERVO, 0, 8⟩
/-- TIME.COMMIT, Table 2-6. -/
def R.TIME_COMMIT : RegRef := ⟨0x400fc, 0x0⟩
def F.TIME_COMMIT_PEND : Fld := ⟨R.TIME_COMMIT, 4, 1⟩
def F.TIME_COMMIT_HOLD : Fld := ⟨R.TIME_COMMIT, 3, 1⟩
def F.TIME_COMMIT_ARMED : Fld := ⟨R.TIME_COMMIT, 2, 1⟩
def F.TIME_COMMIT_DISCARD : Fld := ⟨R.TIME_COMMIT, 1, 1⟩
def F.TIME_COMMIT_GO : Fld := ⟨R.TIME_COMMIT, 0, 1⟩
/-- TIME.TICK.PERIOD, Table 11-12. -/
def R.TIME_TICK_PERIOD : RegRef := ⟨0x40200, 0x7d⟩
def F.TIME_TICK_PERIOD_PERIOD : Fld := ⟨R.TIME_TICK_PERIOD, 0, 17⟩
/-- TIME.TICK.CTL, Table 11-12. -/
def R.TIME_TICK_CTL : RegRef := ⟨0x40204, 0x0⟩
def F.TIME_TICK_CTL_GRIDV : Fld := ⟨R.TIME_TICK_CTL, 0, 1⟩
/-- TIME.TICK.COUNT_LO, Table 11-10. -/
def R.TIME_TICK_COUNT_LO : RegRef := ⟨0x40208, 0x0⟩
def F.TIME_TICK_COUNT_LO_DATA : Fld := ⟨R.TIME_TICK_COUNT_LO, 0, 32⟩
/-- TIME.TICK.COUNT_HI, Table 11-10. -/
def R.TIME_TICK_COUNT_HI : RegRef := ⟨0x4020c, 0x0⟩
def F.TIME_TICK_COUNT_HI_DATA : Fld := ⟨R.TIME_TICK_COUNT_HI, 0, 16⟩
/-- TIME.TICK.LASTT_LO, Table 11-10. -/
def R.TIME_TICK_LASTT_LO : RegRef := ⟨0x40210, 0x0⟩
def F.TIME_TICK_LASTT_LO_DATA : Fld := ⟨R.TIME_TICK_LASTT_LO, 0, 32⟩
/-- TIME.TICK.LASTT_HI, Table 11-10. -/
def R.TIME_TICK_LASTT_HI : RegRef := ⟨0x40214, 0x0⟩
def F.TIME_TICK_LASTT_HI_DATA : Fld := ⟨R.TIME_TICK_LASTT_HI, 0, 16⟩
/-- TIME.TICK.GRIDT_LO, Table 11-10. -/
def R.TIME_TICK_GRIDT_LO : RegRef := ⟨0x40218, 0x0⟩
def F.TIME_TICK_GRIDT_LO_DATA : Fld := ⟨R.TIME_TICK_GRIDT_LO, 0, 32⟩
/-- TIME.TICK.GRIDT_HI, Table 11-10. -/
def R.TIME_TICK_GRIDT_HI : RegRef := ⟨0x4021c, 0x0⟩
def F.TIME_TICK_GRIDT_HI_DATA : Fld := ⟨R.TIME_TICK_GRIDT_HI, 0, 16⟩
/-- TIME.TICK.GRIDK_LO, Table 11-10. -/
def R.TIME_TICK_GRIDK_LO : RegRef := ⟨0x40220, 0x0⟩
def F.TIME_TICK_GRIDK_LO_DATA : Fld := ⟨R.TIME_TICK_GRIDK_LO, 0, 32⟩
/-- TIME.TICK.GRIDK_HI, Table 11-10. -/
def R.TIME_TICK_GRIDK_HI : RegRef := ⟨0x40224, 0x0⟩
def F.TIME_TICK_GRIDK_HI_DATA : Fld := ⟨R.TIME_TICK_GRIDK_HI, 0, 16⟩
/-- TIME.PASS.CTL, Table 11-12. -/
def R.TIME_PASS_CTL : RegRef := ⟨0x40400, 0x2⟩
def F.TIME_PASS_CTL_FWD : Fld := ⟨R.TIME_PASS_CTL, 8, 1⟩
def F.TIME_PASS_CTL_LAG : Fld := ⟨R.TIME_PASS_CTL, 0, 3⟩
/-- TIME.PASS.FWDADDR_LO, Table 11-10. -/
def R.TIME_PASS_FWDADDR_LO : RegRef := ⟨0x40408, 0x0⟩
def F.TIME_PASS_FWDADDR_LO_DATA : Fld := ⟨R.TIME_PASS_FWDADDR_LO, 0, 32⟩
/-- TIME.PASS.FWDADDR_HI, Table 11-10. -/
def R.TIME_PASS_FWDADDR_HI : RegRef := ⟨0x4040c, 0x0⟩
def F.TIME_PASS_FWDADDR_HI_DATA : Fld := ⟨R.TIME_PASS_FWDADDR_HI, 0, 16⟩
/-- TIME.PASS.STAT, Table 11-12. -/
def R.TIME_PASS_STAT : RegRef := ⟨0x40410, 0x0⟩
def F.TIME_PASS_STAT_DROP : Fld := ⟨R.TIME_PASS_STAT, 16, 16⟩
def F.TIME_PASS_STAT_LATE : Fld := ⟨R.TIME_PASS_STAT, 8, 8⟩
def F.TIME_PASS_STAT_GAP : Fld := ⟨R.TIME_PASS_STAT, 0, 8⟩
/-- TIME.TSP.CTL, Table 11-13. -/
def R.TIME_TSP_CTL (e : Nat) : RegRef := ⟨0x40800 + 64 * e, 0x10⟩
def F.TIME_TSP_CTL_EN (e : Nat) : Fld := ⟨R.TIME_TSP_CTL e, 31, 1⟩
def F.TIME_TSP_CTL_LANE (e : Nat) : Fld := ⟨R.TIME_TSP_CTL e, 0, 6⟩
/-- TIME.TSP.DLY, Table 11-13. -/
def R.TIME_TSP_DLY (e : Nat) : RegRef := ⟨0x40804 + 64 * e, 0x0⟩
def F.TIME_TSP_DLY_TX (e : Nat) : Fld := ⟨R.TIME_TSP_DLY e, 16, 16⟩
def F.TIME_TSP_DLY_RX (e : Nat) : Fld := ⟨R.TIME_TSP_DLY e, 0, 16⟩
/-- TIME.TSP.TXQID, Table 11-13. -/
def R.TIME_TSP_TXQID (e : Nat) : RegRef := ⟨0x40808 + 64 * e, 0x0⟩
def F.TIME_TSP_TXQID_VALID (e : Nat) : Fld := ⟨R.TIME_TSP_TXQID e, 31, 1⟩
def F.TIME_TSP_TXQID_LANE (e : Nat) : Fld := ⟨R.TIME_TSP_TXQID e, 16, 8⟩
def F.TIME_TSP_TXQID_ID (e : Nat) : Fld := ⟨R.TIME_TSP_TXQID e, 0, 16⟩
/-- TIME.TSP.TXQT_LO, Table 11-10. -/
def R.TIME_TSP_TXQT_LO (e : Nat) : RegRef := ⟨0x4080c + 64 * e, 0x0⟩
def F.TIME_TSP_TXQT_LO_DATA (e : Nat) : Fld := ⟨R.TIME_TSP_TXQT_LO e, 0, 32⟩
/-- TIME.TSP.TXQT_HI, Table 11-10. -/
def R.TIME_TSP_TXQT_HI (e : Nat) : RegRef := ⟨0x40810 + 64 * e, 0x0⟩
def F.TIME_TSP_TXQT_HI_DATA (e : Nat) : Fld := ⟨R.TIME_TSP_TXQT_HI e, 0, 16⟩
/-- TIME.TSP.STAT, Table 11-13. -/
def R.TIME_TSP_STAT (e : Nat) : RegRef := ⟨0x40814 + 64 * e, 0x0⟩
def F.TIME_TSP_STAT_OVF (e : Nat) : Fld := ⟨R.TIME_TSP_STAT e, 8, 1⟩
def F.TIME_TSP_STAT_LEN (e : Nat) : Fld := ⟨R.TIME_TSP_STAT e, 0, 5⟩
/-- TT.CTL, Table 11-14. -/
def R.TT_CTL : RegRef := ⟨0x50000, 0x1⟩
def F.TT_CTL_EN : Fld := ⟨R.TT_CTL, 0, 1⟩
/-- TT.ERR, Table 11-14. -/
def R.TT_ERR : RegRef := ⟨0x50004, 0x0⟩
def F.TT_ERR_COL : Fld := ⟨R.TT_ERR, 8, 6⟩
def F.TT_ERR_NTFFAIL : Fld := ⟨R.TT_ERR, 7, 1⟩
def F.TT_ERR_INJFAIL : Fld := ⟨R.TT_ERR, 6, 1⟩
def F.TT_ERR_NOPIN : Fld := ⟨R.TT_ERR, 5, 1⟩
def F.TT_ERR_COLRES : Fld := ⟨R.TT_ERR, 4, 1⟩
def F.TT_ERR_FULL : Fld := ⟨R.TT_ERR, 3, 1⟩
def F.TT_ERR_ORDER : Fld := ⟨R.TT_ERR, 2, 1⟩
def F.TT_ERR_BADENTRY : Fld := ⟨R.TT_ERR, 1, 1⟩
def F.TT_ERR_STATICW : Fld := ⟨R.TT_ERR, 0, 1⟩
/-- TT.INJBASE_LO, Table 11-10. -/
def R.TT_INJBASE_LO : RegRef := ⟨0x50008, 0x0⟩
def F.TT_INJBASE_LO_DATA : Fld := ⟨R.TT_INJBASE_LO, 0, 32⟩
/-- TT.INJBASE_HI, Table 11-10. -/
def R.TT_INJBASE_HI : RegRef := ⟨0x5000c, 0x0⟩
def F.TT_INJBASE_HI_DATA : Fld := ⟨R.TT_INJBASE_HI, 0, 16⟩
/-- TT.MISS, Table 11-14. -/
def R.TT_MISS : RegRef := ⟨0x50010, 0x0⟩
def F.TT_MISS_COUNT : Fld := ⟨R.TT_MISS, 16, 16⟩
def F.TT_MISS_LASTCOL : Fld := ⟨R.TT_MISS, 0, 6⟩
/-- TT.COMMIT, Table 2-6. -/
def R.TT_COMMIT : RegRef := ⟨0x500fc, 0x0⟩
def F.TT_COMMIT_PEND : Fld := ⟨R.TT_COMMIT, 4, 1⟩
def F.TT_COMMIT_HOLD : Fld := ⟨R.TT_COMMIT, 3, 1⟩
def F.TT_COMMIT_ARMED : Fld := ⟨R.TT_COMMIT, 2, 1⟩
def F.TT_COMMIT_DISCARD : Fld := ⟨R.TT_COMMIT, 1, 1⟩
def F.TT_COMMIT_GO : Fld := ⟨R.TT_COMMIT, 0, 1⟩
/-- TT.COL, Table 11-14. -/
def R.TT_COL (e : Nat) : RegRef := ⟨0x50100 + 4 * e, 0x0⟩
def F.TT_COL_CLR (e : Nat) : Fld := ⟨R.TT_COL e, 31, 1⟩
def F.TT_COL_HEAD (e : Nat) : Fld := ⟨R.TT_COL e, 10, 10⟩
def F.TT_COL_LEN (e : Nat) : Fld := ⟨R.TT_COL e, 0, 10⟩
/-- TRG.TSEN, Table 11-15. -/
def R.TRG_TSEN (e : Nat) : RegRef := ⟨0x58010 + 4 * e, 0xffffffff⟩
def F.TRG_TSEN_EN (e : Nat) : Fld := ⟨R.TRG_TSEN e, 0, 32⟩
/-- TRG.FABADDR_LO, Table 11-10. -/
def R.TRG_FABADDR_LO : RegRef := ⟨0x58020, 0x0⟩
def F.TRG_FABADDR_LO_DATA : Fld := ⟨R.TRG_FABADDR_LO, 0, 32⟩
/-- TRG.FABADDR_HI, Table 11-10. -/
def R.TRG_FABADDR_HI : RegRef := ⟨0x58024, 0x0⟩
def F.TRG_FABADDR_HI_DATA : Fld := ⟨R.TRG_FABADDR_HI, 0, 16⟩
/-- TRG.COMMIT, Table 2-6. -/
def R.TRG_COMMIT : RegRef := ⟨0x580fc, 0x0⟩
def F.TRG_COMMIT_PEND : Fld := ⟨R.TRG_COMMIT, 4, 1⟩
def F.TRG_COMMIT_HOLD : Fld := ⟨R.TRG_COMMIT, 3, 1⟩
def F.TRG_COMMIT_ARMED : Fld := ⟨R.TRG_COMMIT, 2, 1⟩
def F.TRG_COMMIT_DISCARD : Fld := ⟨R.TRG_COMMIT, 1, 1⟩
def F.TRG_COMMIT_GO : Fld := ⟨R.TRG_COMMIT, 0, 1⟩
/-- TRG.OUT, Table 11-15. -/
def R.TRG_OUT (e : Nat) : RegRef := ⟨0x58100 + 4 * e, 0x407a⟩
def F.TRG_OUT_PORT (e : Nat) : Fld := ⟨R.TRG_OUT e, 27, 3⟩
def F.TRG_OUT_WIDTH (e : Nat) : Fld := ⟨R.TRG_OUT e, 11, 16⟩
def F.TRG_OUT_MODE (e : Nat) : Fld := ⟨R.TRG_OUT e, 9, 2⟩
def F.TRG_OUT_INV (e : Nat) : Fld := ⟨R.TRG_OUT e, 8, 1⟩
def F.TRG_OUT_SRC (e : Nat) : Fld := ⟨R.TRG_OUT e, 0, 7⟩
/-- HB.CTL, Table 12-13. -/
def R.HB_CTL : RegRef := ⟨0x60000, 0x0⟩
def F.HB_CTL_RO : Fld := ⟨R.HB_CTL, 1, 1⟩
def F.HB_CTL_EN : Fld := ⟨R.HB_CTL, 0, 1⟩
/-- HB.POLL, Table 12-14. -/
def R.HB_POLL : RegRef := ⟨0x60004, 0x4⟩
def F.HB_POLL_INTERVAL : Fld := ⟨R.HB_POLL, 0, 12⟩
/-- HB.DBLK_BASE_LO, Table 12-15. -/
def R.HB_DBLK_BASE_LO : RegRef := ⟨0x60008, 0x0⟩
def F.HB_DBLK_BASE_LO_ADDR : Fld := ⟨R.HB_DBLK_BASE_LO, 0, 32⟩
/-- HB.DBLK_BASE_HI, Table 12-15. -/
def R.HB_DBLK_BASE_HI : RegRef := ⟨0x6000c, 0x0⟩
def F.HB_DBLK_BASE_HI_ADDR : Fld := ⟨R.HB_DBLK_BASE_HI, 0, 16⟩
/-- HB.STS_BASE_LO, Table 12-15. -/
def R.HB_STS_BASE_LO : RegRef := ⟨0x60010, 0x0⟩
def F.HB_STS_BASE_LO_ADDR : Fld := ⟨R.HB_STS_BASE_LO, 0, 32⟩
/-- HB.STS_BASE_HI, Table 12-15. -/
def R.HB_STS_BASE_HI : RegRef := ⟨0x60014, 0x0⟩
def F.HB_STS_BASE_HI_ADDR : Fld := ⟨R.HB_STS_BASE_HI, 0, 16⟩
/-- HB.WIN_BASE_LO, Table 12-15. -/
def R.HB_WIN_BASE_LO : RegRef := ⟨0x60018, 0x0⟩
def F.HB_WIN_BASE_LO_ADDR : Fld := ⟨R.HB_WIN_BASE_LO, 0, 32⟩
/-- HB.WIN_BASE_HI, Table 12-15. -/
def R.HB_WIN_BASE_HI : RegRef := ⟨0x6001c, 0x0⟩
def F.HB_WIN_BASE_HI_ADDR : Fld := ⟨R.HB_WIN_BASE_HI, 0, 16⟩
/-- HB.WIN, Table 12-16. -/
def R.HB_WIN : RegRef := ⟨0x60020, 0x3⟩
def F.HB_WIN_EN : Fld := ⟨R.HB_WIN, 8, 1⟩
def F.HB_WIN_CTX : Fld := ⟨R.HB_WIN, 0, 7⟩
/-- HB.LINK, Table 12-17. -/
def R.HB_LINK : RegRef := ⟨0x60024, 0x400⟩
def F.HB_LINK_MAXGEN : Fld := ⟨R.HB_LINK, 8, 4⟩
def F.HB_LINK_WIDTH : Fld := ⟨R.HB_LINK, 4, 4⟩
def F.HB_LINK_SPEED : Fld := ⟨R.HB_LINK, 0, 4⟩
/-- HB.ERR, Table 12-18. -/
def R.HB_ERR : RegRef := ⟨0x60028, 0x0⟩
def F.HB_ERR_NOBME : Fld := ⟨R.HB_ERR, 7, 1⟩
def F.HB_ERR_RESET : Fld := ⟨R.HB_ERR, 6, 1⟩
def F.HB_ERR_BADTAIL : Fld := ⟨R.HB_ERR, 5, 1⟩
def F.HB_ERR_QFAULT : Fld := ⟨R.HB_ERR, 4, 1⟩
def F.HB_ERR_B0SIZE : Fld := ⟨R.HB_ERR, 3, 1⟩
def F.HB_ERR_B2ERR : Fld := ⟨R.HB_ERR, 2, 1⟩
def F.HB_ERR_PARTIAL : Fld := ⟨R.HB_ERR, 1, 1⟩
def F.HB_ERR_STATICW : Fld := ⟨R.HB_ERR, 0, 1⟩
/-- HB.IVSEL, Table 12-19. -/
def R.HB_IVSEL (e : Nat) : RegRef := ⟨0x60040 + 4 * e, Sys2Proof.Machine.ivselReset e⟩
def F.HB_IVSEL_DIS3 (e : Nat) : Fld := ⟨R.HB_IVSEL e, 31, 1⟩
def F.HB_IVSEL_VEC3 (e : Nat) : Fld := ⟨R.HB_IVSEL e, 24, 6⟩
def F.HB_IVSEL_DIS2 (e : Nat) : Fld := ⟨R.HB_IVSEL e, 23, 1⟩
def F.HB_IVSEL_VEC2 (e : Nat) : Fld := ⟨R.HB_IVSEL e, 16, 6⟩
def F.HB_IVSEL_DIS1 (e : Nat) : Fld := ⟨R.HB_IVSEL e, 15, 1⟩
def F.HB_IVSEL_VEC1 (e : Nat) : Fld := ⟨R.HB_IVSEL e, 8, 6⟩
def F.HB_IVSEL_DIS0 (e : Nat) : Fld := ⟨R.HB_IVSEL e, 7, 1⟩
def F.HB_IVSEL_VEC0 (e : Nat) : Fld := ⟨R.HB_IVSEL e, 0, 6⟩
/-- HB.COMMIT, Table 2-6. -/
def R.HB_COMMIT : RegRef := ⟨0x600fc, 0x0⟩
def F.HB_COMMIT_PEND : Fld := ⟨R.HB_COMMIT, 4, 1⟩
def F.HB_COMMIT_HOLD : Fld := ⟨R.HB_COMMIT, 3, 1⟩
def F.HB_COMMIT_ARMED : Fld := ⟨R.HB_COMMIT, 2, 1⟩
def F.HB_COMMIT_DISCARD : Fld := ⟨R.HB_COMMIT, 1, 1⟩
def F.HB_COMMIT_GO : Fld := ⟨R.HB_COMMIT, 0, 1⟩
/-- RING.COMMIT, Table 2-6. -/
def R.RING_COMMIT : RegRef := ⟨0x610fc, 0x0⟩
def F.RING_COMMIT_PEND : Fld := ⟨R.RING_COMMIT, 4, 1⟩
def F.RING_COMMIT_HOLD : Fld := ⟨R.RING_COMMIT, 3, 1⟩
def F.RING_COMMIT_ARMED : Fld := ⟨R.RING_COMMIT, 2, 1⟩
def F.RING_COMMIT_DISCARD : Fld := ⟨R.RING_COMMIT, 1, 1⟩
def F.RING_COMMIT_GO : Fld := ⟨R.RING_COMMIT, 0, 1⟩
/-- RING.QP.CTL, Table 12-20. -/
def R.RING_QP_CTL (e : Nat) : RegRef := ⟨0x61100 + 64 * e, 0x20203⟩
def F.RING_QP_CTL_EN (e : Nat) : Fld := ⟨R.RING_QP_CTL e, 31, 1⟩
def F.RING_QP_CTL_PRIV (e : Nat) : Fld := ⟨R.RING_QP_CTL e, 30, 1⟩
def F.RING_QP_CTL_CQSZL (e : Nat) : Fld := ⟨R.RING_QP_CTL e, 16, 5⟩
def F.RING_QP_CTL_SQSZL (e : Nat) : Fld := ⟨R.RING_QP_CTL e, 8, 5⟩
def F.RING_QP_CTL_CTX (e : Nat) : Fld := ⟨R.RING_QP_CTL e, 0, 7⟩
/-- RING.QP.SQBASE_LO, Table 12-21. -/
def R.RING_QP_SQBASE_LO (e : Nat) : RegRef := ⟨0x61104 + 64 * e, 0x0⟩
def F.RING_QP_SQBASE_LO_ADDR (e : Nat) : Fld := ⟨R.RING_QP_SQBASE_LO e, 0, 32⟩
/-- RING.QP.SQBASE_HI, Table 12-21. -/
def R.RING_QP_SQBASE_HI (e : Nat) : RegRef := ⟨0x61108 + 64 * e, 0x0⟩
def F.RING_QP_SQBASE_HI_ADDR (e : Nat) : Fld := ⟨R.RING_QP_SQBASE_HI e, 0, 16⟩
/-- RING.QP.CQBASE_LO, Table 12-21. -/
def R.RING_QP_CQBASE_LO (e : Nat) : RegRef := ⟨0x6110c + 64 * e, 0x0⟩
def F.RING_QP_CQBASE_LO_ADDR (e : Nat) : Fld := ⟨R.RING_QP_CQBASE_LO e, 0, 32⟩
/-- RING.QP.CQBASE_HI, Table 12-21. -/
def R.RING_QP_CQBASE_HI (e : Nat) : RegRef := ⟨0x61110 + 64 * e, 0x0⟩
def F.RING_QP_CQBASE_HI_ADDR (e : Nat) : Fld := ⟨R.RING_QP_CQBASE_HI e, 0, 16⟩
/-- RING.QP.STAT, Table 12-22. -/
def R.RING_QP_STAT (e : Nat) : RegRef := ⟨0x61114 + 64 * e, 0x80000000⟩
def F.RING_QP_STAT_IDLE (e : Nat) : Fld := ⟨R.RING_QP_STAT e, 31, 1⟩
def F.RING_QP_STAT_FAULT (e : Nat) : Fld := ⟨R.RING_QP_STAT e, 30, 1⟩
def F.RING_QP_STAT_BADTAIL (e : Nat) : Fld := ⟨R.RING_QP_STAT e, 29, 1⟩
def F.RING_QP_STAT_CQFULL (e : Nat) : Fld := ⟨R.RING_QP_STAT e, 28, 1⟩
def F.RING_QP_STAT_STATICW (e : Nat) : Fld := ⟨R.RING_QP_STAT e, 27, 1⟩
def F.RING_QP_STAT_INPROG (e : Nat) : Fld := ⟨R.RING_QP_STAT e, 16, 5⟩
def F.RING_QP_STAT_SQHEAD (e : Nat) : Fld := ⟨R.RING_QP_STAT e, 0, 16⟩
/-- RING.QP.CQIDX, Table 12-23. -/
def R.RING_QP_CQIDX (e : Nat) : RegRef := ⟨0x61118 + 64 * e, 0x10000⟩
def F.RING_QP_CQIDX_PHASE (e : Nat) : Fld := ⟨R.RING_QP_CQIDX e, 16, 1⟩
def F.RING_QP_CQIDX_CQTAIL (e : Nat) : Fld := ⟨R.RING_QP_CQIDX e, 0, 16⟩
/-- RING.EVR.CTL, Table 12-24. -/
def R.RING_EVR_CTL : RegRef := ⟨0x61900, 0x400a0000⟩
def F.RING_EVR_CTL_EN : Fld := ⟨R.RING_EVR_CTL, 31, 1⟩
def F.RING_EVR_CTL_IRQ : Fld := ⟨R.RING_EVR_CTL, 30, 1⟩
def F.RING_EVR_CTL_SZL : Fld := ⟨R.RING_EVR_CTL, 16, 5⟩
/-- RING.EVR.BASE_LO, Table 12-24. -/
def R.RING_EVR_BASE_LO : RegRef := ⟨0x61904, 0x0⟩
def F.RING_EVR_BASE_LO_ADDR : Fld := ⟨R.RING_EVR_BASE_LO, 0, 32⟩
/-- RING.EVR.BASE_HI, Table 12-24. -/
def R.RING_EVR_BASE_HI : RegRef := ⟨0x61908, 0x0⟩
def F.RING_EVR_BASE_HI_ADDR : Fld := ⟨R.RING_EVR_BASE_HI, 0, 16⟩
/-- RING.EVR.STAT, Table 12-24. -/
def R.RING_EVR_STAT : RegRef := ⟨0x6190c, 0x20000000⟩
def F.RING_EVR_STAT_FULL : Fld := ⟨R.RING_EVR_STAT, 31, 1⟩
def F.RING_EVR_STAT_STATICW : Fld := ⟨R.RING_EVR_STAT, 30, 1⟩
def F.RING_EVR_STAT_IDLE : Fld := ⟨R.RING_EVR_STAT, 29, 1⟩
def F.RING_EVR_STAT_TAIL : Fld := ⟨R.RING_EVR_STAT, 0, 16⟩
/-- RING.LGR.CTL, Table 12-24. -/
def R.RING_LGR_CTL : RegRef := ⟨0x61920, 0x400a0000⟩
def F.RING_LGR_CTL_EN : Fld := ⟨R.RING_LGR_CTL, 31, 1⟩
def F.RING_LGR_CTL_IRQ : Fld := ⟨R.RING_LGR_CTL, 30, 1⟩
def F.RING_LGR_CTL_SZL : Fld := ⟨R.RING_LGR_CTL, 16, 5⟩
/-- RING.LGR.BASE_LO, Table 12-24. -/
def R.RING_LGR_BASE_LO : RegRef := ⟨0x61924, 0x0⟩
def F.RING_LGR_BASE_LO_ADDR : Fld := ⟨R.RING_LGR_BASE_LO, 0, 32⟩
/-- RING.LGR.BASE_HI, Table 12-24. -/
def R.RING_LGR_BASE_HI : RegRef := ⟨0x61928, 0x0⟩
def F.RING_LGR_BASE_HI_ADDR : Fld := ⟨R.RING_LGR_BASE_HI, 0, 16⟩
/-- RING.LGR.STAT, Table 12-24. -/
def R.RING_LGR_STAT : RegRef := ⟨0x6192c, 0x20000000⟩
def F.RING_LGR_STAT_FULL : Fld := ⟨R.RING_LGR_STAT, 31, 1⟩
def F.RING_LGR_STAT_STATICW : Fld := ⟨R.RING_LGR_STAT, 30, 1⟩
def F.RING_LGR_STAT_IDLE : Fld := ⟨R.RING_LGR_STAT, 29, 1⟩
def F.RING_LGR_STAT_TAIL : Fld := ⟨R.RING_LGR_STAT, 0, 16⟩
/-- NOC.PORTCTL, Table 9-9. -/
def R.NOC_PORTCTL (i : Nat) : RegRef := ⟨0x80000 + 256 * i, 0x0⟩
def F.NOC_PORTCTL_W (i : Nat) : Fld := ⟨R.NOC_PORTCTL i, 6, 2⟩
def F.NOC_PORTCTL_S (i : Nat) : Fld := ⟨R.NOC_PORTCTL i, 4, 2⟩
def F.NOC_PORTCTL_E (i : Nat) : Fld := ⟨R.NOC_PORTCTL i, 2, 2⟩
def F.NOC_PORTCTL_N (i : Nat) : Fld := ⟨R.NOC_PORTCTL i, 0, 2⟩
/-- NOC.PORTSTAT, Table 9-10. -/
def R.NOC_PORTSTAT (i : Nat) : RegRef := ⟨0x80004 + 256 * i, 0x0⟩
def F.NOC_PORTSTAT_PKT (i : Nat) : Fld := ⟨R.NOC_PORTSTAT i, 8, 4⟩
def F.NOC_PORTSTAT_STATE (i : Nat) : Fld := ⟨R.NOC_PORTSTAT i, 0, 8⟩
/-- NOC.LINKCNT, Table 9-11. -/
def R.NOC_LINKCNT (i e : Nat) : RegRef := ⟨0x80010 + 256 * i + 4 * e, 0x0⟩
def F.NOC_LINKCNT_CORR (i e : Nat) : Fld := ⟨R.NOC_LINKCNT i e, 16, 16⟩
def F.NOC_LINKCNT_UNC (i e : Nat) : Fld := ⟨R.NOC_LINKCNT i e, 8, 8⟩
/-- NOC.EVCNT, Table 9-12. -/
def R.NOC_EVCNT (i : Nat) : RegRef := ⟨0x80020 + 256 * i, 0x0⟩
def F.NOC_EVCNT_BOUNCE (i : Nat) : Fld := ⟨R.NOC_EVCNT i, 16, 16⟩
def F.NOC_EVCNT_SPILL (i : Nat) : Fld := ⟨R.NOC_EVCNT i, 8, 8⟩
def F.NOC_EVCNT_ORPHAN (i : Nat) : Fld := ⟨R.NOC_EVCNT i, 0, 8⟩
/-- NOC.ERR, Table 9-13. -/
def R.NOC_ERR (i : Nat) : RegRef := ⟨0x80024 + 256 * i, 0x0⟩
def F.NOC_ERR_BCASTCUT (i : Nat) : Fld := ⟨R.NOC_ERR i, 5, 1⟩
def F.NOC_ERR_BADROUTE (i : Nat) : Fld := ⟨R.NOC_ERR i, 4, 1⟩
def F.NOC_ERR_SPILLLOSS (i : Nat) : Fld := ⟨R.NOC_ERR i, 3, 1⟩
def F.NOC_ERR_SLOTCONF (i : Nat) : Fld := ⟨R.NOC_ERR i, 2, 1⟩
def F.NOC_ERR_LINKUNC (i : Nat) : Fld := ⟨R.NOC_ERR i, 1, 1⟩
def F.NOC_ERR_ORPHAN (i : Nat) : Fld := ⟨R.NOC_ERR i, 0, 1⟩
/-- NOC.ARB, Table 9-14. -/
def R.NOC_ARB (i : Nat) : RegRef := ⟨0x80028 + 256 * i, 0x40⟩
def F.NOC_ARB_AGEMAX (i : Nat) : Fld := ⟨R.NOC_ARB i, 0, 8⟩
/-- NOC.OUTBUSY, Table 9-15. -/
def R.NOC_OUTBUSY (i e : Nat) : RegRef := ⟨0x80030 + 256 * i + 4 * e, 0x0⟩
def F.NOC_OUTBUSY_COUNT (i e : Nat) : Fld := ⟨R.NOC_OUTBUSY i e, 0, 32⟩
/-- NOC.COMMIT, Table 2-6. -/
def R.NOC_COMMIT (i : Nat) : RegRef := ⟨0x800fc + 256 * i, 0x0⟩
def F.NOC_COMMIT_PEND (i : Nat) : Fld := ⟨R.NOC_COMMIT i, 4, 1⟩
def F.NOC_COMMIT_HOLD (i : Nat) : Fld := ⟨R.NOC_COMMIT i, 3, 1⟩
def F.NOC_COMMIT_ARMED (i : Nat) : Fld := ⟨R.NOC_COMMIT i, 2, 1⟩
def F.NOC_COMMIT_DISCARD (i : Nat) : Fld := ⟨R.NOC_COMMIT i, 1, 1⟩
def F.NOC_COMMIT_GO (i : Nat) : Fld := ⟨R.NOC_COMMIT i, 0, 1⟩
/-- NI.CTL, Table 10-13. -/
def R.NI_CTL (i : Nat) : RegRef := ⟨0x90000 + 1024 * i, Sys2Proof.Machine.niCtlReset i⟩
def F.NI_CTL_TMO (i : Nat) : Fld := ⟨R.NI_CTL i, 16, 8⟩
def F.NI_CTL_CTX (i : Nat) : Fld := ⟨R.NI_CTL i, 8, 7⟩
def F.NI_CTL_ORDCLR (i : Nat) : Fld := ⟨R.NI_CTL i, 3, 1⟩
def F.NI_CTL_BCACC (i : Nat) : Fld := ⟨R.NI_CTL i, 2, 1⟩
def F.NI_CTL_RETRYALT (i : Nat) : Fld := ⟨R.NI_CTL i, 1, 1⟩
/-- NI.STATE, Table 10-14. -/
def R.NI_STATE (i : Nat) : RegRef := ⟨0x90004 + 1024 * i, 0x4000⟩
def F.NI_STATE_OUTST (i : Nat) : Fld := ⟨R.NI_STATE i, 16, 9⟩
def F.NI_STATE_RFREE (i : Nat) : Fld := ⟨R.NI_STATE i, 8, 7⟩
def F.NI_STATE_CAUSE (i : Nat) : Fld := ⟨R.NI_STATE i, 2, 2⟩
def F.NI_STATE_STATE (i : Nat) : Fld := ⟨R.NI_STATE i, 0, 2⟩
/-- NI.STAT, Table 10-15. -/
def R.NI_STAT (i : Nat) : RegRef := ⟨0x90008 + 1024 * i, 0x0⟩
def F.NI_STAT_STATICW (i : Nat) : Fld := ⟨R.NI_STAT i, 9, 1⟩
def F.NI_STAT_CTXREJ (i : Nat) : Fld := ⟨R.NI_STAT i, 8, 1⟩
def F.NI_STAT_BCCUT (i : Nat) : Fld := ⟨R.NI_STAT i, 7, 1⟩
def F.NI_STAT_ORDBRK (i : Nat) : Fld := ⟨R.NI_STAT i, 6, 1⟩
def F.NI_STAT_FABORT (i : Nat) : Fld := ⟨R.NI_STAT i, 5, 1⟩
def F.NI_STAT_TBLERR (i : Nat) : Fld := ⟨R.NI_STAT i, 4, 1⟩
def F.NI_STAT_ORPHAN (i : Nat) : Fld := ⟨R.NI_STAT i, 3, 1⟩
def F.NI_STAT_TMO (i : Nat) : Fld := ⟨R.NI_STAT i, 2, 1⟩
def F.NI_STAT_DENY (i : Nat) : Fld := ⟨R.NI_STAT i, 1, 1⟩
def F.NI_STAT_NOWIN (i : Nat) : Fld := ⟨R.NI_STAT i, 0, 1⟩
/-- NI.CNT, Table 10-16. -/
def R.NI_CNT (i : Nat) : RegRef := ⟨0x9000c + 1024 * i, 0x0⟩
def F.NI_CNT_TMO (i : Nat) : Fld := ⟨R.NI_CNT i, 24, 8⟩
def F.NI_CNT_ORPH (i : Nat) : Fld := ⟨R.NI_CNT i, 16, 8⟩
def F.NI_CNT_BCREF (i : Nat) : Fld := ⟨R.NI_CNT i, 8, 8⟩
def F.NI_CNT_BCABS (i : Nat) : Fld := ⟨R.NI_CNT i, 0, 8⟩
/-- NI.CNT2, Table 10-17. -/
def R.NI_CNT2 (i : Nat) : RegRef := ⟨0x90010 + 1024 * i, 0x0⟩
def F.NI_CNT2_BOUNCEIN (i : Nat) : Fld := ⟨R.NI_CNT2 i, 16, 16⟩
def F.NI_CNT2_RETRY (i : Nat) : Fld := ⟨R.NI_CNT2 i, 0, 16⟩
/-- NI.REG, Table 10-18. -/
def R.NI_REG (i : Nat) : RegRef := ⟨0x90014 + 1024 * i, Sys2Proof.Machine.niRegReset i⟩
def F.NI_REG_RATE (i : Nat) : Fld := ⟨R.NI_REG i, 16, 11⟩
def F.NI_REG_DEPTH (i : Nat) : Fld := ⟨R.NI_REG i, 0, 8⟩
/-- NI.REGSTAT, Table 10-19. -/
def R.NI_REGSTAT (i : Nat) : RegRef := ⟨0x90018 + 1024 * i, Sys2Proof.Machine.niRegstatReset i⟩
def F.NI_REGSTAT_QLEN (i : Nat) : Fld := ⟨R.NI_REGSTAT i, 16, 8⟩
def F.NI_REGSTAT_TOKENS (i : Nat) : Fld := ⟨R.NI_REGSTAT i, 0, 16⟩
/-- NI.TSEL, Table 10-20. -/
def R.NI_TSEL (i : Nat) : RegRef := ⟨0x9001c + 1024 * i, 0x0⟩
def F.NI_TSEL_BANK (i : Nat) : Fld := ⟨R.NI_TSEL i, 18, 1⟩
def F.NI_TSEL_TABLE (i : Nat) : Fld := ⟨R.NI_TSEL i, 16, 2⟩
def F.NI_TSEL_INDEX (i : Nat) : Fld := ⟨R.NI_TSEL i, 8, 8⟩
def F.NI_TSEL_WORD (i : Nat) : Fld := ⟨R.NI_TSEL i, 0, 2⟩
/-- NI.TDATA_LO, Table 10-21. -/
def R.NI_TDATA_LO (i : Nat) : RegRef := ⟨0x90020 + 1024 * i, 0x0⟩
def F.NI_TDATA_LO_DATA (i : Nat) : Fld := ⟨R.NI_TDATA_LO i, 0, 32⟩
/-- NI.TDATA_HI, Table 10-21. -/
def R.NI_TDATA_HI (i : Nat) : RegRef := ⟨0x90024 + 1024 * i, 0x0⟩
def F.NI_TDATA_HI_DATA (i : Nat) : Fld := ⟨R.NI_TDATA_HI i, 0, 16⟩
/-- NI.TBL, Table 10-22. -/
def R.NI_TBL (i : Nat) : RegRef := ⟨0x90028 + 1024 * i, 0x0⟩
def F.NI_TBL_BADSLOT (i : Nat) : Fld := ⟨R.NI_TBL i, 5, 1⟩
def F.NI_TBL_BADROUTE (i : Nat) : Fld := ⟨R.NI_TBL i, 4, 1⟩
def F.NI_TBL_BADWIN (i : Nat) : Fld := ⟨R.NI_TBL i, 3, 1⟩
def F.NI_TBL_COPY (i : Nat) : Fld := ⟨R.NI_TBL i, 2, 1⟩
/-- NI.COMMIT, Table 2-6. -/
def R.NI_COMMIT (i : Nat) : RegRef := ⟨0x900fc + 1024 * i, 0x0⟩
def F.NI_COMMIT_PEND (i : Nat) : Fld := ⟨R.NI_COMMIT i, 4, 1⟩
def F.NI_COMMIT_HOLD (i : Nat) : Fld := ⟨R.NI_COMMIT i, 3, 1⟩
def F.NI_COMMIT_ARMED (i : Nat) : Fld := ⟨R.NI_COMMIT i, 2, 1⟩
def F.NI_COMMIT_DISCARD (i : Nat) : Fld := ⟨R.NI_COMMIT i, 1, 1⟩
def F.NI_COMMIT_GO (i : Nat) : Fld := ⟨R.NI_COMMIT i, 0, 1⟩
/-- FLD.CTL, Table 2-7. -/
def R.FLD_CTL (i : Nat) : RegRef := ⟨0xc0000 + 4096 * i, 0x104⟩
def F.FLD_CTL_RESTART (i : Nat) : Fld := ⟨R.FLD_CTL i, 16, 1⟩
def F.FLD_CTL_OVR_MAX (i : Nat) : Fld := ⟨R.FLD_CTL i, 8, 4⟩
def F.FLD_CTL_IDLEGATE (i : Nat) : Fld := ⟨R.FLD_CTL i, 2, 1⟩
def F.FLD_CTL_DONESRC (i : Nat) : Fld := ⟨R.FLD_CTL i, 1, 1⟩
def F.FLD_CTL_LATE_POLICY (i : Nat) : Fld := ⟨R.FLD_CTL i, 0, 1⟩
/-- FLD.FSTAT, Table 2-8. -/
def R.FLD_FSTAT (i : Nat) : RegRef := ⟨0xc0004 + 4096 * i, 0x0⟩
def F.FLD_FSTAT_NEEDREJ (i : Nat) : Fld := ⟨R.FLD_FSTAT i, 5, 1⟩
def F.FLD_FSTAT_STATICW (i : Nat) : Fld := ⟨R.FLD_FSTAT i, 4, 1⟩
def F.FLD_FSTAT_STUCK (i : Nat) : Fld := ⟨R.FLD_FSTAT i, 3, 1⟩
def F.FLD_FSTAT_LATE (i : Nat) : Fld := ⟨R.FLD_FSTAT i, 2, 1⟩
def F.FLD_FSTAT_DONE (i : Nat) : Fld := ⟨R.FLD_FSTAT i, 1, 1⟩
def F.FLD_FSTAT_OVERRUN (i : Nat) : Fld := ⟨R.FLD_FSTAT i, 0, 1⟩
/-- FLD.NEED, Table 2-9. -/
def R.FLD_NEED (i : Nat) : RegRef := ⟨0xc0008 + 4096 * i, 0x0⟩
def F.FLD_NEED_CYC (i : Nat) : Fld := ⟨R.FLD_NEED i, 0, 24⟩
/-- FLD.DONEAT, Table 2-10. -/
def R.FLD_DONEAT (i : Nat) : RegRef := ⟨0xc000c + 4096 * i, 0x0⟩
def F.FLD_DONEAT_CYC (i : Nat) : Fld := ⟨R.FLD_DONEAT i, 0, 24⟩
/-- FLD.BUDGET, Table 2-11. -/
def R.FLD_BUDGET (i : Nat) : RegRef := ⟨0xc0010 + 4096 * i, 0x0⟩
def F.FLD_BUDGET_CYC (i : Nat) : Fld := ⟨R.FLD_BUDGET i, 0, 24⟩
/-- FLD.LASTDONE, Table 2-12. -/
def R.FLD_LASTDONE (i : Nat) : RegRef := ⟨0xc0014 + 4096 * i, 0x0⟩
def F.FLD_LASTDONE_CYC (i : Nat) : Fld := ⟨R.FLD_LASTDONE i, 0, 24⟩
/-- FLD.MAXDONE, Table 2-13. -/
def R.FLD_MAXDONE (i : Nat) : RegRef := ⟨0xc0018 + 4096 * i, 0x0⟩
def F.FLD_MAXDONE_CYC (i : Nat) : Fld := ⟨R.FLD_MAXDONE i, 0, 24⟩
/-- FLD.OVRCNT, Table 2-14. -/
def R.FLD_OVRCNT (i : Nat) : RegRef := ⟨0xc001c + 4096 * i, 0x0⟩
def F.FLD_OVRCNT_SKIP (i : Nat) : Fld := ⟨R.FLD_OVRCNT i, 16, 16⟩
def F.FLD_OVRCNT_OVR (i : Nat) : Fld := ⟨R.FLD_OVRCNT i, 0, 16⟩
/-- FLD.CSEL, Table 3-10. -/
def R.FLD_CSEL (i : Nat) : RegRef := ⟨0xc0040 + 4096 * i, 0x0⟩
def F.FLD_CSEL_ENTRY (i : Nat) : Fld := ⟨R.FLD_CSEL i, 18, 3⟩
def F.FLD_CSEL_ITEM (i : Nat) : Fld := ⟨R.FLD_CSEL i, 14, 4⟩
def F.FLD_CSEL_CLUSTER (i : Nat) : Fld := ⟨R.FLD_CSEL i, 6, 8⟩
def F.FLD_CSEL_CELL (i : Nat) : Fld := ⟨R.FLD_CSEL i, 0, 6⟩
/-- FLD.CDATA_LO, Table 3-11. -/
def R.FLD_CDATA_LO (i : Nat) : RegRef := ⟨0xc0044 + 4096 * i, 0x0⟩
def F.FLD_CDATA_LO_DATA (i : Nat) : Fld := ⟨R.FLD_CDATA_LO i, 0, 32⟩
/-- FLD.CDATA_HI, Table 3-11. -/
def R.FLD_CDATA_HI (i : Nat) : RegRef := ⟨0xc0048 + 4096 * i, 0x0⟩
def F.FLD_CDATA_HI_DATA (i : Nat) : Fld := ⟨R.FLD_CDATA_HI i, 0, 16⟩
/-- FLD.SATCYC, Table 3-12. -/
def R.FLD_SATCYC (i : Nat) : RegRef := ⟨0xc004c + 4096 * i, 0x0⟩
def F.FLD_SATCYC_COUNT (i : Nat) : Fld := ⟨R.FLD_SATCYC i, 0, 32⟩
/-- FLD.SSEL, Table 5-11. -/
def R.FLD_SSEL (i : Nat) : RegRef := ⟨0xc0050 + 4096 * i, 0x0⟩
def F.FLD_SSEL_ENTRY (i : Nat) : Fld := ⟨R.FLD_SSEL i, 14, 3⟩
def F.FLD_SSEL_ITEM (i : Nat) : Fld := ⟨R.FLD_SSEL i, 9, 5⟩
def F.FLD_SSEL_SLICE (i : Nat) : Fld := ⟨R.FLD_SSEL i, 0, 9⟩
/-- FLD.SDATA_LO, Table 5-12. -/
def R.FLD_SDATA_LO (i : Nat) : RegRef := ⟨0xc0054 + 4096 * i, 0x0⟩
def F.FLD_SDATA_LO_DATA (i : Nat) : Fld := ⟨R.FLD_SDATA_LO i, 0, 32⟩
/-- FLD.SDATA_HI, Table 5-12. -/
def R.FLD_SDATA_HI (i : Nat) : RegRef := ⟨0xc0058 + 4096 * i, 0x0⟩
def F.FLD_SDATA_HI_DATA (i : Nat) : Fld := ⟨R.FLD_SDATA_HI i, 0, 16⟩
/-- FLD.ACCOVF, Table 5-13. -/
def R.FLD_ACCOVF (i : Nat) : RegRef := ⟨0xc005c + 4096 * i, 0x0⟩
def F.FLD_ACCOVF_COUNT (i : Nat) : Fld := ⟨R.FLD_ACCOVF i, 0, 32⟩
/-- FLD.CONTCTL, Table 4-5. -/
def R.FLD_CONTCTL (i : Nat) : RegRef := ⟨0xc0064 + 4096 * i, 0x1⟩
def F.FLD_CONTCTL_CLR (i : Nat) : Fld := ⟨R.FLD_CONTCTL i, 1, 1⟩
def F.FLD_CONTCTL_AUTO (i : Nat) : Fld := ⟨R.FLD_CONTCTL i, 0, 1⟩
/-- FLD.CONTSTAT, Table 4-6. -/
def R.FLD_CONTSTAT (i : Nat) : RegRef := ⟨0xc0068 + 4096 * i, 0x0⟩
def F.FLD_CONTSTAT_TRIPS (i : Nat) : Fld := ⟨R.FLD_CONTSTAT i, 16, 8⟩
def F.FLD_CONTSTAT_HELD (i : Nat) : Fld := ⟨R.FLD_CONTSTAT i, 15, 1⟩
def F.FLD_CONTSTAT_HELDN (i : Nat) : Fld := ⟨R.FLD_CONTSTAT i, 7, 8⟩
def F.FLD_CONTSTAT_LASTSEG (i : Nat) : Fld := ⟨R.FLD_CONTSTAT i, 0, 7⟩
/-- FLD.FENCE, Table 4-7. -/
def R.FLD_FENCE (i : Nat) : RegRef := ⟨0xc006c + 4096 * i, 0x0⟩
def F.FLD_FENCE_N (i : Nat) : Fld := ⟨R.FLD_FENCE i, 3, 1⟩
def F.FLD_FENCE_E (i : Nat) : Fld := ⟨R.FLD_FENCE i, 2, 1⟩
def F.FLD_FENCE_S (i : Nat) : Fld := ⟨R.FLD_FENCE i, 1, 1⟩
def F.FLD_FENCE_W (i : Nat) : Fld := ⟨R.FLD_FENCE i, 0, 1⟩
/-- FLD.PROBE, Table 4-8. -/
def R.FLD_PROBE (i e : Nat) : RegRef := ⟨0xc0070 + 4096 * i + 4 * e, 0x0⟩
def F.FLD_PROBE_KIND (i e : Nat) : Fld := ⟨R.FLD_PROBE i e, 16, 2⟩
def F.FLD_PROBE_CLUSTER (i e : Nat) : Fld := ⟨R.FLD_PROBE i e, 8, 8⟩
def F.FLD_PROBE_INDEX (i e : Nat) : Fld := ⟨R.FLD_PROBE i e, 0, 7⟩
/-- FLD.BMPAT, Table 6-9. -/
def R.FLD_BMPAT (i : Nat) : RegRef := ⟨0xc0080 + 4096 * i, 0x80000010⟩
def F.FLD_BMPAT_EN (i : Nat) : Fld := ⟨R.FLD_BMPAT i, 31, 1⟩
def F.FLD_BMPAT_INTERVAL (i : Nat) : Fld := ⟨R.FLD_BMPAT i, 0, 16⟩
/-- FLD.BMINIT, Table 6-10. -/
def R.FLD_BMINIT (i : Nat) : RegRef := ⟨0xc0084 + 4096 * i, 0x0⟩
def F.FLD_BMINIT_REJ (i : Nat) : Fld := ⟨R.FLD_BMINIT i, 10, 1⟩
def F.FLD_BMINIT_BUSY (i : Nat) : Fld := ⟨R.FLD_BMINIT i, 9, 1⟩
def F.FLD_BMINIT_GO (i : Nat) : Fld := ⟨R.FLD_BMINIT i, 8, 1⟩
def F.FLD_BMINIT_BLOCK (i : Nat) : Fld := ⟨R.FLD_BMINIT i, 0, 8⟩
/-- FLD.BMECC, Table 6-11. -/
def R.FLD_BMECC (i : Nat) : RegRef := ⟨0xc0088 + 4096 * i, 0x0⟩
def F.FLD_BMECC_CORR (i : Nat) : Fld := ⟨R.FLD_BMECC i, 16, 16⟩
def F.FLD_BMECC_UNC (i : Nat) : Fld := ⟨R.FLD_BMECC i, 8, 8⟩
/-- FLD.BMELOC, Table 6-12. -/
def R.FLD_BMELOC (i : Nat) : RegRef := ⟨0xc008c + 4096 * i, 0x0⟩
def F.FLD_BMELOC_KIND (i : Nat) : Fld := ⟨R.FLD_BMELOC i, 30, 2⟩
def F.FLD_BMELOC_SRC (i : Nat) : Fld := ⟨R.FLD_BMELOC i, 28, 2⟩
def F.FLD_BMELOC_BLOCK (i : Nat) : Fld := ⟨R.FLD_BMELOC i, 19, 8⟩
def F.FLD_BMELOC_WORD (i : Nat) : Fld := ⟨R.FLD_BMELOC i, 8, 11⟩
/-- FLD.PROT, Table 7-7. -/
def R.FLD_PROT (i : Nat) : RegRef := ⟨0xc0090 + 4096 * i, 0x2⟩
def F.FLD_PROT_INSNAP (i : Nat) : Fld := ⟨R.FLD_PROT i, 2, 1⟩
def F.FLD_PROT_CHKEN (i : Nat) : Fld := ⟨R.FLD_PROT i, 1, 1⟩
def F.FLD_PROT_EN (i : Nat) : Fld := ⟨R.FLD_PROT i, 0, 1⟩
/-- FLD.PROTSTAT, Table 7-8. -/
def R.FLD_PROTSTAT (i : Nat) : RegRef := ⟨0xc0094 + 4096 * i, 0x0⟩
def F.FLD_PROTSTAT_POSTREL (i : Nat) : Fld := ⟨R.FLD_PROTSTAT i, 5, 1⟩
def F.FLD_PROTSTAT_UNPROT (i : Nat) : Fld := ⟨R.FLD_PROTSTAT i, 4, 1⟩
def F.FLD_PROTSTAT_UNVER (i : Nat) : Fld := ⟨R.FLD_PROTSTAT i, 3, 1⟩
def F.FLD_PROTSTAT_FAILED (i : Nat) : Fld := ⟨R.FLD_PROTSTAT i, 2, 1⟩
def F.FLD_PROTSTAT_REPLAYING (i : Nat) : Fld := ⟨R.FLD_PROTSTAT i, 1, 1⟩
def F.FLD_PROTSTAT_VERIFIED (i : Nat) : Fld := ⟨R.FLD_PROTSTAT i, 0, 1⟩
/-- FLD.PCNT, Table 7-9. -/
def R.FLD_PCNT (i : Nat) : RegRef := ⟨0xc0098 + 4096 * i, 0x0⟩
def F.FLD_PCNT_FAIL (i : Nat) : Fld := ⟨R.FLD_PCNT i, 24, 8⟩
def F.FLD_PCNT_UNVER (i : Nat) : Fld := ⟨R.FLD_PCNT i, 16, 8⟩
def F.FLD_PCNT_REPLAY (i : Nat) : Fld := ⟨R.FLD_PCNT i, 0, 16⟩
/-- FLD.WMAX, Table 7-10. -/
def R.FLD_WMAX (i : Nat) : RegRef := ⟨0xc009c + 4096 * i, 0x0⟩
def F.FLD_WMAX_CYC (i : Nat) : Fld := ⟨R.FLD_WMAX i, 0, 24⟩
/-- FLD.BUFMAX, Table 7-11. -/
def R.FLD_BUFMAX (i : Nat) : RegRef := ⟨0xc00a0 + 4096 * i, 0x0⟩
def F.FLD_BUFMAX_BLOCK (i : Nat) : Fld := ⟨R.FLD_BUFMAX i, 8, 8⟩
def F.FLD_BUFMAX_ENTRIES (i : Nat) : Fld := ⟨R.FLD_BUFMAX i, 0, 7⟩
/-- FLD.PQOUT, Table 7-12. -/
def R.FLD_PQOUT (i e : Nat) : RegRef := ⟨0xc00a4 + 4096 * i + 4 * e, 0x0⟩
def F.FLD_PQOUT_SPINE (i e : Nat) : Fld := ⟨R.FLD_PQOUT i e, 0, 32⟩
/-- FLD.SNAPADDR_LO, Table 7-13. -/
def R.FLD_SNAPADDR_LO (i : Nat) : RegRef := ⟨0xc00bc + 4096 * i, 0x0⟩
def F.FLD_SNAPADDR_LO_ADDR (i : Nat) : Fld := ⟨R.FLD_SNAPADDR_LO i, 0, 32⟩
/-- FLD.SNAPADDR_HI, Table 7-13. -/
def R.FLD_SNAPADDR_HI (i : Nat) : RegRef := ⟨0xc00c0 + 4096 * i, 0x0⟩
def F.FLD_SNAPADDR_HI_ADDR (i : Nat) : Fld := ⟨R.FLD_SNAPADDR_HI i, 0, 16⟩
/-- FLD.SNAPSTAT, Table 7-14. -/
def R.FLD_SNAPSTAT (i : Nat) : RegRef := ⟨0xc00c4 + 4096 * i, 0x0⟩
def F.FLD_SNAPSTAT_TICK (i : Nat) : Fld := ⟨R.FLD_SNAPSTAT i, 3, 12⟩
def F.FLD_SNAPSTAT_ERR (i : Nat) : Fld := ⟨R.FLD_SNAPSTAT i, 2, 1⟩
def F.FLD_SNAPSTAT_DRAIN (i : Nat) : Fld := ⟨R.FLD_SNAPSTAT i, 1, 1⟩
def F.FLD_SNAPSTAT_DONE (i : Nat) : Fld := ⟨R.FLD_SNAPSTAT i, 0, 1⟩
/-- FLD.QCWP, Table 6-17. -/
def R.FLD_QCWP (i : Nat) : RegRef := ⟨0xc00c8 + 4096 * i, 0x0⟩
def F.FLD_QCWP_CWP (i : Nat) : Fld := ⟨R.FLD_QCWP i, 12, 12⟩
def F.FLD_QCWP_BLOCK (i : Nat) : Fld := ⟨R.FLD_QCWP i, 0, 8⟩
/-- FLD.COMMIT, Table 2-6. -/
def R.FLD_COMMIT (i : Nat) : RegRef := ⟨0xc00fc + 4096 * i, 0x0⟩
def F.FLD_COMMIT_PEND (i : Nat) : Fld := ⟨R.FLD_COMMIT i, 4, 1⟩
def F.FLD_COMMIT_HOLD (i : Nat) : Fld := ⟨R.FLD_COMMIT i, 3, 1⟩
def F.FLD_COMMIT_ARMED (i : Nat) : Fld := ⟨R.FLD_COMMIT i, 2, 1⟩
def F.FLD_COMMIT_DISCARD (i : Nat) : Fld := ⟨R.FLD_COMMIT i, 1, 1⟩
def F.FLD_COMMIT_GO (i : Nat) : Fld := ⟨R.FLD_COMMIT i, 0, 1⟩
/-- FLD.BM.CFG, Table 6-13. -/
def R.FLD_BM_CFG (i e : Nat) : RegRef := ⟨0xc0400 + 4096 * i + 16 * e, 0x0⟩
def F.FLD_BM_CFG_MODE (i e : Nat) : Fld := ⟨R.FLD_BM_CFG i e, 30, 2⟩
def F.FLD_BM_CFG_CODE (i e : Nat) : Fld := ⟨R.FLD_BM_CFG i e, 29, 1⟩
def F.FLD_BM_CFG_SIZEL (i e : Nat) : Fld := ⟨R.FLD_BM_CFG i e, 26, 3⟩
def F.FLD_BM_CFG_BASE (i e : Nat) : Fld := ⟨R.FLD_BM_CFG i e, 15, 11⟩
def F.FLD_BM_CFG_STAMP (i e : Nat) : Fld := ⟨R.FLD_BM_CFG i e, 13, 2⟩
def F.FLD_BM_CFG_SPORT (i e : Nat) : Fld := ⟨R.FLD_BM_CFG i e, 12, 1⟩
def F.FLD_BM_CFG_PATROL (i e : Nat) : Fld := ⟨R.FLD_BM_CFG i e, 11, 1⟩
def F.FLD_BM_CFG_MSGL (i e : Nat) : Fld := ⟨R.FLD_BM_CFG i e, 7, 4⟩
def F.FLD_BM_CFG_MBSRC (i e : Nat) : Fld := ⟨R.FLD_BM_CFG i e, 6, 1⟩
def F.FLD_BM_CFG_INITD (i e : Nat) : Fld := ⟨R.FLD_BM_CFG i e, 5, 1⟩
/-- FLD.BM.WM, Table 6-14. -/
def R.FLD_BM_WM (i e : Nat) : RegRef := ⟨0xc0404 + 4096 * i + 16 * e, 0x800000⟩
def F.FLD_BM_WM_HWM (i e : Nat) : Fld := ⟨R.FLD_BM_WM i e, 12, 12⟩
def F.FLD_BM_WM_LWM (i e : Nat) : Fld := ⟨R.FLD_BM_WM i e, 0, 12⟩
/-- FLD.BM.Q, Table 6-15. -/
def R.FLD_BM_Q (i e : Nat) : RegRef := ⟨0xc0408 + 4096 * i + 16 * e, 0x0⟩
def F.FLD_BM_Q_PCONF (i e : Nat) : Fld := ⟨R.FLD_BM_Q i e, 29, 1⟩
def F.FLD_BM_Q_BADCMD (i e : Nat) : Fld := ⟨R.FLD_BM_Q i e, 28, 1⟩
def F.FLD_BM_Q_STOP (i e : Nat) : Fld := ⟨R.FLD_BM_Q i e, 27, 1⟩
def F.FLD_BM_Q_OVW (i e : Nat) : Fld := ⟨R.FLD_BM_Q i e, 26, 1⟩
def F.FLD_BM_Q_UNF (i e : Nat) : Fld := ⟨R.FLD_BM_Q i e, 25, 1⟩
def F.FLD_BM_Q_OVF (i e : Nat) : Fld := ⟨R.FLD_BM_Q i e, 24, 1⟩
def F.FLD_BM_Q_RP (i e : Nat) : Fld := ⟨R.FLD_BM_Q i e, 12, 12⟩
def F.FLD_BM_Q_WP (i e : Nat) : Fld := ⟨R.FLD_BM_Q i e, 0, 12⟩
/-- FLD.BM.Q2, Table 6-16. -/
def R.FLD_BM_Q2 (i e : Nat) : RegRef := ⟨0xc040c + 4096 * i + 16 * e, 0x0⟩
def F.FLD_BM_Q2_OCC (i e : Nat) : Fld := ⟨R.FLD_BM_Q2 i e, 12, 12⟩
def F.FLD_BM_Q2_CRP (i e : Nat) : Fld := ⟨R.FLD_BM_Q2 i e, 0, 12⟩
/-- CFG.CTL, Table 8-10. -/
def R.CFG_CTL : RegRef := ⟨0xe0000, 0x0⟩
def F.CFG_CTL_GOLDBUILD : Fld := ⟨R.CFG_CTL, 5, 1⟩
def F.CFG_CTL_ABORT : Fld := ⟨R.CFG_CTL, 4, 1⟩
def F.CFG_CTL_GOSRC : Fld := ⟨R.CFG_CTL, 1, 1⟩
def F.CFG_CTL_STOREEN : Fld := ⟨R.CFG_CTL, 0, 1⟩
/-- CFG.STATUS, Table 8-11. -/
def R.CFG_STATUS : RegRef := ⟨0xe0004, 0x0⟩
def F.CFG_STATUS_OPEN : Fld := ⟨R.CFG_STATUS, 17, 1⟩
def F.CFG_STATUS_STOREOK : Fld := ⟨R.CFG_STATUS, 16, 1⟩
def F.CFG_STATUS_BADSTRAP : Fld := ⟨R.CFG_STATUS, 15, 1⟩
def F.CFG_STATUS_BOOT : Fld := ⟨R.CFG_STATUS, 13, 2⟩
def F.CFG_STATUS_FLASHSLOT : Fld := ⟨R.CFG_STATUS, 12, 1⟩
def F.CFG_STATUS_DIRECT : Fld := ⟨R.CFG_STATUS, 11, 1⟩
def F.CFG_STATUS_GBUSY : Fld := ⟨R.CFG_STATUS, 10, 1⟩
def F.CFG_STATUS_KIND : Fld := ⟨R.CFG_STATUS, 9, 1⟩
def F.CFG_STATUS_PHASE : Fld := ⟨R.CFG_STATUS, 0, 4⟩
/-- CFG.ERR, Table 8-12. -/
def R.CFG_ERR : RegRef := ⟨0xe0008, 0x0⟩
def F.CFG_ERR_ABORTLATE : Fld := ⟨R.CFG_ERR, 17, 1⟩
def F.CFG_ERR_STATICW : Fld := ⟨R.CFG_ERR, 16, 1⟩
def F.CFG_ERR_DETAIL : Fld := ⟨R.CFG_ERR, 8, 8⟩
def F.CFG_ERR_CODE : Fld := ⟨R.CFG_ERR, 0, 8⟩
/-- CFG.ERRLOC, Table 8-13. -/
def R.CFG_ERRLOC : RegRef := ⟨0xe000c, 0x0⟩
def F.CFG_ERRLOC_FIELD : Fld := ⟨R.CFG_ERRLOC, 16, 5⟩
def F.CFG_ERRLOC_ITEM : Fld := ⟨R.CFG_ERRLOC, 0, 16⟩
/-- CFG.WORDS, Table 8-14. -/
def R.CFG_WORDS : RegRef := ⟨0xe0010, 0x0⟩
def F.CFG_WORDS_COUNT : Fld := ⟨R.CFG_WORDS, 0, 25⟩
/-- CFG.FIELDS, Table 8-15. -/
def R.CFG_FIELDS : RegRef := ⟨0xe0014, 0x0⟩
def F.CFG_FIELDS_DEV : Fld := ⟨R.CFG_FIELDS, 24, 1⟩
def F.CFG_FIELDS_MAP : Fld := ⟨R.CFG_FIELDS, 0, 24⟩
/-- CFG.RESHAPE, Table 8-15. -/
def R.CFG_RESHAPE : RegRef := ⟨0xe0018, 0x0⟩
def F.CFG_RESHAPE_DEV : Fld := ⟨R.CFG_RESHAPE, 24, 1⟩
def F.CFG_RESHAPE_MAP : Fld := ⟨R.CFG_RESHAPE, 0, 24⟩
/-- CFG.OPMIN, Table 8-16. -/
def R.CFG_OPMIN : RegRef := ⟨0xe001c, 0x0⟩
def F.CFG_OPMIN_DEV : Fld := ⟨R.CFG_OPMIN, 0, 2⟩
/-- CFG.STORE_LO, Table 8-17. -/
def R.CFG_STORE_LO : RegRef := ⟨0xe0020, 0x0⟩
def F.CFG_STORE_LO_ADDR : Fld := ⟨R.CFG_STORE_LO, 0, 32⟩
/-- CFG.STORE_HI, Table 8-17. -/
def R.CFG_STORE_HI : RegRef := ⟨0xe0024, 0x0⟩
def F.CFG_STORE_HI_ADDR : Fld := ⟨R.CFG_STORE_HI, 0, 16⟩
/-- CFG.SLOT, Table 8-15. -/
def R.CFG_SLOT : RegRef := ⟨0xe0028, 0x0⟩
def F.CFG_SLOT_DEV : Fld := ⟨R.CFG_SLOT, 24, 1⟩
def F.CFG_SLOT_MAP : Fld := ⟨R.CFG_SLOT, 0, 24⟩
/-- CFG.GVALID, Table 8-15. -/
def R.CFG_GVALID : RegRef := ⟨0xe002c, 0x0⟩
def F.CFG_GVALID_DEV : Fld := ⟨R.CFG_GVALID, 24, 1⟩
def F.CFG_GVALID_MAP : Fld := ⟨R.CFG_GVALID, 0, 24⟩
/-- CFG.OWNERSTAT, Table 8-18. -/
def R.CFG_OWNERSTAT : RegRef := ⟨0xe0030, 0x0⟩
def F.CFG_OWNERSTAT_MATCHV : Fld := ⟨R.CFG_OWNERSTAT, 10, 1⟩
def F.CFG_OWNERSTAT_MATCH : Fld := ⟨R.CFG_OWNERSTAT, 8, 2⟩
def F.CFG_OWNERSTAT_REVOKED : Fld := ⟨R.CFG_OWNERSTAT, 4, 4⟩
def F.CFG_OWNERSTAT_PROG : Fld := ⟨R.CFG_OWNERSTAT, 0, 4⟩
/-- CFG.COMMIT, Table 2-6. -/
def R.CFG_COMMIT : RegRef := ⟨0xe00fc, 0x0⟩
def F.CFG_COMMIT_PEND : Fld := ⟨R.CFG_COMMIT, 4, 1⟩
def F.CFG_COMMIT_HOLD : Fld := ⟨R.CFG_COMMIT, 3, 1⟩
def F.CFG_COMMIT_ARMED : Fld := ⟨R.CFG_COMMIT, 2, 1⟩
def F.CFG_COMMIT_DISCARD : Fld := ⟨R.CFG_COMMIT, 1, 1⟩
def F.CFG_COMMIT_GO : Fld := ⟨R.CFG_COMMIT, 0, 1⟩
/-- SCR.CTL, Table 8-19. -/
def R.SCR_CTL : RegRef := ⟨0xe1000, 0xb⟩
def F.SCR_CTL_SCANEN : Fld := ⟨R.SCR_CTL, 3, 1⟩
def F.SCR_CTL_UNCPOL : Fld := ⟨R.SCR_CTL, 2, 1⟩
def F.SCR_CTL_GOLDEN : Fld := ⟨R.SCR_CTL, 1, 1⟩
def F.SCR_CTL_EN : Fld := ⟨R.SCR_CTL, 0, 1⟩
/-- SCR.SCAN, Table 8-20. -/
def R.SCR_SCAN : RegRef := ⟨0xe1004, 0x10⟩
def F.SCR_SCAN_INTERVAL : Fld := ⟨R.SCR_SCAN, 0, 16⟩
/-- SCR.STAT, Table 8-21. -/
def R.SCR_STAT : RegRef := ⟨0xe1008, 0x0⟩
def F.SCR_STAT_QOVF : Fld := ⟨R.SCR_STAT, 5, 1⟩
def F.SCR_STAT_QLEN : Fld := ⟨R.SCR_STAT, 0, 5⟩
/-- SCR.CNT, Table 8-22. -/
def R.SCR_CNT : RegRef := ⟨0xe100c, 0x0⟩
def F.SCR_CNT_CORR : Fld := ⟨R.SCR_CNT, 16, 16⟩
def F.SCR_CNT_GOLD : Fld := ⟨R.SCR_CNT, 8, 8⟩
def F.SCR_CNT_UNC : Fld := ⟨R.SCR_CNT, 0, 8⟩
/-- SCR.CNT2, Table 8-23. -/
def R.SCR_CNT2 : RegRef := ⟨0xe1010, 0x0⟩
def F.SCR_CNT2_ESCAPE : Fld := ⟨R.SCR_CNT2, 0, 16⟩
/-- SCR.LAST, Table 8-24. -/
def R.SCR_LAST : RegRef := ⟨0xe1014, 0x0⟩
def F.SCR_LAST_KIND : Fld := ⟨R.SCR_LAST, 30, 2⟩
def F.SCR_LAST_ESC : Fld := ⟨R.SCR_LAST, 29, 1⟩
def F.SCR_LAST_FIELD : Fld := ⟨R.SCR_LAST, 24, 5⟩
def F.SCR_LAST_FRAME : Fld := ⟨R.SCR_LAST, 12, 12⟩
def F.SCR_LAST_ILV : Fld := ⟨R.SCR_LAST, 0, 6⟩
/-- SCR.UNCFG, Table 8-25. -/
def R.SCR_UNCFG : RegRef := ⟨0xe1018, 0x0⟩
def F.SCR_UNCFG_MAP : Fld := ⟨R.SCR_UNCFG, 0, 24⟩
/-- SCR.SWEEP, Table 8-26. -/
def R.SCR_SWEEP : RegRef := ⟨0xe101c, 0x0⟩
def F.SCR_SWEEP_MAXNS : Fld := ⟨R.SCR_SWEEP, 0, 16⟩
/-- SCR.COMMIT, Table 2-6. -/
def R.SCR_COMMIT : RegRef := ⟨0xe10fc, 0x0⟩
def F.SCR_COMMIT_PEND : Fld := ⟨R.SCR_COMMIT, 4, 1⟩
def F.SCR_COMMIT_HOLD : Fld := ⟨R.SCR_COMMIT, 3, 1⟩
def F.SCR_COMMIT_ARMED : Fld := ⟨R.SCR_COMMIT, 2, 1⟩
def F.SCR_COMMIT_DISCARD : Fld := ⟨R.SCR_COMMIT, 1, 1⟩
def F.SCR_COMMIT_GO : Fld := ⟨R.SCR_COMMIT, 0, 1⟩
/-- DRC.CTL, Table 14-8. -/
def R.DRC_CTL (i : Nat) : RegRef := ⟨0x100000 + 8192 * i, 0x18000000⟩
def F.DRC_CTL_EN (i : Nat) : Fld := ⟨R.DRC_CTL i, 31, 1⟩
def F.DRC_CTL_UNFREEZE (i : Nat) : Fld := ⟨R.DRC_CTL i, 30, 1⟩
def F.DRC_CTL_FREEZEPOL (i : Nat) : Fld := ⟨R.DRC_CTL i, 29, 1⟩
def F.DRC_CTL_WRCRC (i : Nat) : Fld := ⟨R.DRC_CTL i, 28, 1⟩
def F.DRC_CTL_CAPAR (i : Nat) : Fld := ⟨R.DRC_CTL i, 27, 1⟩
/-- DRC.CFG, Table 14-8. -/
def R.DRC_CFG (i : Nat) : RegRef := ⟨0x100004 + 8192 * i, 0x1⟩
def F.DRC_CFG_RATE (i : Nat) : Fld := ⟨R.DRC_CFG i, 3, 3⟩
def F.DRC_CFG_RANKS (i : Nat) : Fld := ⟨R.DRC_CFG i, 2, 1⟩
def F.DRC_CFG_DENS (i : Nat) : Fld := ⟨R.DRC_CFG i, 0, 2⟩
/-- DRC.STAT, Table 14-8. -/
def R.DRC_STAT (i : Nat) : RegRef := ⟨0x100008 + 8192 * i, 0x0⟩
def F.DRC_STAT_INITERR (i : Nat) : Fld := ⟨R.DRC_STAT i, 8, 4⟩
def F.DRC_STAT_SRFOK (i : Nat) : Fld := ⟨R.DRC_STAT i, 7, 1⟩
def F.DRC_STAT_STATE (i : Nat) : Fld := ⟨R.DRC_STAT i, 0, 3⟩
/-- DRC.ERR, Table 14-8. -/
def R.DRC_ERR (i : Nat) : RegRef := ⟨0x10000c + 8192 * i, 0x0⟩
def F.DRC_ERR_STATICW (i : Nat) : Fld := ⟨R.DRC_ERR i, 6, 1⟩
def F.DRC_ERR_TRAINFAIL (i : Nat) : Fld := ⟨R.DRC_ERR i, 5, 1⟩
def F.DRC_ERR_FORCEDRT (i : Nat) : Fld := ⟨R.DRC_ERR i, 4, 1⟩
def F.DRC_ERR_DRIFT (i : Nat) : Fld := ⟨R.DRC_ERR i, 3, 1⟩
def F.DRC_ERR_FROZE (i : Nat) : Fld := ⟨R.DRC_ERR i, 2, 1⟩
def F.DRC_ERR_WRCRC (i : Nat) : Fld := ⟨R.DRC_ERR i, 1, 1⟩
def F.DRC_ERR_CAPAR (i : Nat) : Fld := ⟨R.DRC_ERR i, 0, 1⟩
/-- DRC.CNT, Table 14-8. -/
def R.DRC_CNT (i : Nat) : RegRef := ⟨0x100010 + 8192 * i, 0x0⟩
def F.DRC_CNT_REPLAY (i : Nat) : Fld := ⟨R.DRC_CNT i, 16, 16⟩
def F.DRC_CNT_CAPAR (i : Nat) : Fld := ⟨R.DRC_CNT i, 8, 8⟩
def F.DRC_CNT_WRCRC (i : Nat) : Fld := ⟨R.DRC_CNT i, 0, 8⟩
/-- DRC.AMAP, Table 14-9. -/
def R.DRC_AMAP (i : Nat) : RegRef := ⟨0x100018 + 8192 * i, 0xb⟩
def F.DRC_AMAP_HASH (i : Nat) : Fld := ⟨R.DRC_AMAP i, 4, 1⟩
def F.DRC_AMAP_GRAN (i : Nat) : Fld := ⟨R.DRC_AMAP i, 2, 2⟩
def F.DRC_AMAP_NCH (i : Nat) : Fld := ⟨R.DRC_AMAP i, 0, 2⟩
/-- DRC.TIMING0, Table 14-9. -/
def R.DRC_TIMING0 (i : Nat) : RegRef := ⟨0x100020 + 8192 * i, 0x28262727⟩
def F.DRC_TIMING0_CL (i : Nat) : Fld := ⟨R.DRC_TIMING0 i, 24, 8⟩
def F.DRC_TIMING0_CWL (i : Nat) : Fld := ⟨R.DRC_TIMING0 i, 16, 8⟩
def F.DRC_TIMING0_TRCD (i : Nat) : Fld := ⟨R.DRC_TIMING0 i, 8, 8⟩
def F.DRC_TIMING0_TRP (i : Nat) : Fld := ⟨R.DRC_TIMING0 i, 0, 8⟩
/-- DRC.TIMING1, Table 14-9. -/
def R.DRC_TIMING1 (i : Nat) : RegRef := ⟨0x100024 + 8192 * i, 0x2424744d⟩
def F.DRC_TIMING1_TWR (i : Nat) : Fld := ⟨R.DRC_TIMING1 i, 23, 9⟩
def F.DRC_TIMING1_TRTP (i : Nat) : Fld := ⟨R.DRC_TIMING1 i, 17, 6⟩
def F.DRC_TIMING1_TRC (i : Nat) : Fld := ⟨R.DRC_TIMING1 i, 8, 9⟩
def F.DRC_TIMING1_TRAS (i : Nat) : Fld := ⟨R.DRC_TIMING1 i, 0, 8⟩
/-- DRC.TIMING2, Table 14-9. -/
def R.DRC_TIMING2 (i : Nat) : RegRef := ⟨0x100028 + 8192 * i, 0x1b03d8⟩
def F.DRC_TIMING2_TRFCSB (i : Nat) : Fld := ⟨R.DRC_TIMING2 i, 12, 12⟩
def F.DRC_TIMING2_TRFC (i : Nat) : Fld := ⟨R.DRC_TIMING2 i, 0, 12⟩
/-- DRC.TIMING3, Table 14-9. -/
def R.DRC_TIMING3 (i : Nat) : RegRef := ⟨0x10002c + 8192 * i, 0x3f02490⟩
def F.DRC_TIMING3_TXS (i : Nat) : Fld := ⟨R.DRC_TIMING3 i, 16, 12⟩
def F.DRC_TIMING3_TREFI (i : Nat) : Fld := ⟨R.DRC_TIMING3 i, 0, 16⟩
/-- DRC.TIMING4, Table 14-9. -/
def R.DRC_TIMING4 (i : Nat) : RegRef := ⟨0x100030 + 8192 * i, 0xc080c08⟩
def F.DRC_TIMING4_TCCDL (i : Nat) : Fld := ⟨R.DRC_TIMING4 i, 24, 8⟩
def F.DRC_TIMING4_TCCDS (i : Nat) : Fld := ⟨R.DRC_TIMING4 i, 16, 8⟩
def F.DRC_TIMING4_TRRDL (i : Nat) : Fld := ⟨R.DRC_TIMING4 i, 8, 8⟩
def F.DRC_TIMING4_TRRDS (i : Nat) : Fld := ⟨R.DRC_TIMING4 i, 0, 8⟩
/-- DRC.TIMING5, Table 14-9. -/
def R.DRC_TIMING5 (i : Nat) : RegRef := ⟨0x100034 + 8192 * i, 0x18062030⟩
def F.DRC_TIMING5_TWTRL (i : Nat) : Fld := ⟨R.DRC_TIMING5 i, 24, 8⟩
def F.DRC_TIMING5_TWTRS (i : Nat) : Fld := ⟨R.DRC_TIMING5 i, 16, 8⟩
def F.DRC_TIMING5_TFAW (i : Nat) : Fld := ⟨R.DRC_TIMING5 i, 8, 8⟩
def F.DRC_TIMING5_TCCDLWR (i : Nat) : Fld := ⟨R.DRC_TIMING5 i, 0, 8⟩
/-- DRC.TIMING6, Table 14-9. -/
def R.DRC_TIMING6 (i : Nat) : RegRef := ⟨0x100038 + 8192 * i, 0x4880⟩
def F.DRC_TIMING6_TXP (i : Nat) : Fld := ⟨R.DRC_TIMING6 i, 10, 8⟩
def F.DRC_TIMING6_TALERT (i : Nat) : Fld := ⟨R.DRC_TIMING6 i, 0, 10⟩
/-- DRC.PAGE, Table 14-9. -/
def R.DRC_PAGE (i : Nat) : RegRef := ⟨0x100040 + 8192 * i, 0x40⟩
def F.DRC_PAGE_IDLE (i : Nat) : Fld := ⟨R.DRC_PAGE i, 0, 10⟩
/-- DRC.REF, Table 14-9. -/
def R.DRC_REF (i : Nat) : RegRef := ⟨0x100044 + 8192 * i, 0x0⟩
def F.DRC_REF_EFF (i : Nat) : Fld := ⟨R.DRC_REF i, 4, 2⟩
def F.DRC_REF_MULT (i : Nat) : Fld := ⟨R.DRC_REF i, 0, 2⟩
/-- DRC.RETRAIN, Table 14-9. -/
def R.DRC_RETRAIN (i : Nat) : RegRef := ⟨0x100048 + 8192 * i, 0x408⟩
def F.DRC_RETRAIN_NOW (i : Nat) : Fld := ⟨R.DRC_RETRAIN i, 31, 1⟩
def F.DRC_RETRAIN_DRIFTTHR (i : Nat) : Fld := ⟨R.DRC_RETRAIN i, 8, 8⟩
def F.DRC_RETRAIN_INTERVAL (i : Nat) : Fld := ⟨R.DRC_RETRAIN i, 0, 7⟩
/-- DRC.MAINT, Table 14-9. -/
def R.DRC_MAINT (i : Nat) : RegRef := ⟨0x10004c + 8192 * i, 0x28⟩
def F.DRC_MAINT_WLEN (i : Nat) : Fld := ⟨R.DRC_MAINT i, 0, 10⟩
/-- DRC.BW, Table 14-9. -/
def R.DRC_BW (i : Nat) : RegRef := ⟨0x100050 + 8192 * i, 0x0⟩
def F.DRC_BW_LINES (i : Nat) : Fld := ⟨R.DRC_BW i, 0, 32⟩
/-- DRC.DQS, Table 14-9. -/
def R.DRC_DQS (i : Nat) : RegRef := ⟨0x100054 + 8192 * i, 0x0⟩
def F.DRC_DQS_COMP (i : Nat) : Fld := ⟨R.DRC_DQS i, 8, 8⟩
def F.DRC_DQS_DRIFT (i : Nat) : Fld := ⟨R.DRC_DQS i, 0, 8⟩
/-- DRC.PORT, Table 14-10. -/
def R.DRC_PORT (i e : Nat) : RegRef := ⟨0x100080 + 8192 * i + 4 * e, 0x0⟩
def F.DRC_PORT_TARGET (i e : Nat) : Fld := ⟨R.DRC_PORT i e, 0, 9⟩
/-- DRC.COMMIT, Table 2-6. -/
def R.DRC_COMMIT (i : Nat) : RegRef := ⟨0x1000fc + 8192 * i, 0x0⟩
def F.DRC_COMMIT_PEND (i : Nat) : Fld := ⟨R.DRC_COMMIT i, 4, 1⟩
def F.DRC_COMMIT_HOLD (i : Nat) : Fld := ⟨R.DRC_COMMIT i, 3, 1⟩
def F.DRC_COMMIT_ARMED (i : Nat) : Fld := ⟨R.DRC_COMMIT i, 2, 1⟩
def F.DRC_COMMIT_DISCARD (i : Nat) : Fld := ⟨R.DRC_COMMIT i, 1, 1⟩
def F.DRC_COMMIT_GO (i : Nat) : Fld := ⟨R.DRC_COMMIT i, 0, 1⟩
/-- DRC.PORTMAP, Table 14-10. -/
def R.DRC_PORTMAP (i e : Nat) : RegRef := ⟨0x100100 + 8192 * i + 4 * e, 0x0⟩
def F.DRC_PORTMAP_PORT (i e : Nat) : Fld := ⟨R.DRC_PORTMAP i e, 0, 32⟩
/-- DRC.PORTCNT, Table 14-10. -/
def R.DRC_PORTCNT (i e : Nat) : RegRef := ⟨0x100140 + 8192 * i + 4 * e, 0x0⟩
def F.DRC_PORTCNT_MISS (i e : Nat) : Fld := ⟨R.DRC_PORTCNT i e, 16, 16⟩
def F.DRC_PORTCNT_MAXLAT (i e : Nat) : Fld := ⟨R.DRC_PORTCNT i e, 0, 16⟩
/-- MIG.CTL, Table 15-6. -/
def R.MIG_CTL : RegRef := ⟨0x120000, 0x7⟩
def F.MIG_CTL_GCOMB : Fld := ⟨R.MIG_CTL, 2, 1⟩
def F.MIG_CTL_RECON : Fld := ⟨R.MIG_CTL, 1, 1⟩
def F.MIG_CTL_DWB : Fld := ⟨R.MIG_CTL, 0, 1⟩
/-- MIG.STAT, Table 15-6. -/
def R.MIG_STAT : RegRef := ⟨0x120004, 0x0⟩
def F.MIG_STAT_REMAPFULL : Fld := ⟨R.MIG_STAT, 4, 1⟩
def F.MIG_STAT_EXCLBAD : Fld := ⟨R.MIG_STAT, 3, 1⟩
def F.MIG_STAT_REGBAD : Fld := ⟨R.MIG_STAT, 2, 1⟩
def F.MIG_STAT_RMWFAIL : Fld := ⟨R.MIG_STAT, 1, 1⟩
def F.MIG_STAT_UNCORR : Fld := ⟨R.MIG_STAT, 0, 1⟩
/-- MIG.CNT, Table 15-7. -/
def R.MIG_CNT (e : Nat) : RegRef := ⟨0x120010 + 4 * e, 0x0⟩
def F.MIG_CNT_CORR (e : Nat) : Fld := ⟨R.MIG_CNT e, 16, 16⟩
def F.MIG_CNT_UNC (e : Nat) : Fld := ⟨R.MIG_CNT e, 8, 8⟩
def F.MIG_CNT_RECON (e : Nat) : Fld := ⟨R.MIG_CNT e, 0, 8⟩
/-- MIG.CNT2, Table 15-7. -/
def R.MIG_CNT2 (e : Nat) : RegRef := ⟨0x120030 + 4 * e, 0x0⟩
def F.MIG_CNT2_RMWFAIL (e : Nat) : Fld := ⟨R.MIG_CNT2 e, 16, 16⟩
def F.MIG_CNT2_EXCLHIT (e : Nat) : Fld := ⟨R.MIG_CNT2 e, 0, 16⟩
/-- MIG.ERASE, Table 15-7. -/
def R.MIG_ERASE (e : Nat) : RegRef := ⟨0x120050 + 4 * e, 0x0⟩
def F.MIG_ERASE_EN1 (e : Nat) : Fld := ⟨R.MIG_ERASE e, 15, 1⟩
def F.MIG_ERASE_COMP1 (e : Nat) : Fld := ⟨R.MIG_ERASE e, 8, 4⟩
def F.MIG_ERASE_EN0 (e : Nat) : Fld := ⟨R.MIG_ERASE e, 7, 1⟩
def F.MIG_ERASE_COMP0 (e : Nat) : Fld := ⟨R.MIG_ERASE e, 0, 4⟩
/-- MIG.ELOC, Table 15-7. -/
def R.MIG_ELOC (e : Nat) : RegRef := ⟨0x120070 + 4 * e, 0x0⟩
def F.MIG_ELOC_KIND (e : Nat) : Fld := ⟨R.MIG_ELOC e, 30, 2⟩
def F.MIG_ELOC_RANK (e : Nat) : Fld := ⟨R.MIG_ELOC e, 29, 1⟩
def F.MIG_ELOC_BG (e : Nat) : Fld := ⟨R.MIG_ELOC e, 26, 3⟩
def F.MIG_ELOC_BANK (e : Nat) : Fld := ⟨R.MIG_ELOC e, 24, 2⟩
def F.MIG_ELOC_ROW (e : Nat) : Fld := ⟨R.MIG_ELOC e, 7, 17⟩
def F.MIG_ELOC_LINE (e : Nat) : Fld := ⟨R.MIG_ELOC e, 0, 7⟩
/-- MIG.ESYM, Table 15-7. -/
def R.MIG_ESYM (e : Nat) : RegRef := ⟨0x120090 + 4 * e, 0x0⟩
def F.MIG_ESYM_BEATS (e : Nat) : Fld := ⟨R.MIG_ESYM e, 16, 16⟩
def F.MIG_ESYM_SYMS (e : Nat) : Fld := ⟨R.MIG_ESYM e, 0, 16⟩
/-- MIG.PATROL, Table 15-7. -/
def R.MIG_PATROL (e : Nat) : RegRef := ⟨0x1200b0 + 4 * e, 0xa⟩
def F.MIG_PATROL_EN (e : Nat) : Fld := ⟨R.MIG_PATROL e, 31, 1⟩
def F.MIG_PATROL_INTERVAL (e : Nat) : Fld := ⟨R.MIG_PATROL e, 0, 16⟩
/-- MIG.PATPOS, Table 15-7. -/
def R.MIG_PATPOS (e : Nat) : RegRef := ⟨0x1200d0 + 4 * e, 0x0⟩
def F.MIG_PATPOS_LINE (e : Nat) : Fld := ⟨R.MIG_PATPOS e, 0, 30⟩
/-- MIG.COMMIT, Table 2-6. -/
def R.MIG_COMMIT : RegRef := ⟨0x1200fc, 0x0⟩
def F.MIG_COMMIT_PEND : Fld := ⟨R.MIG_COMMIT, 4, 1⟩
def F.MIG_COMMIT_HOLD : Fld := ⟨R.MIG_COMMIT, 3, 1⟩
def F.MIG_COMMIT_ARMED : Fld := ⟨R.MIG_COMMIT, 2, 1⟩
def F.MIG_COMMIT_DISCARD : Fld := ⟨R.MIG_COMMIT, 1, 1⟩
def F.MIG_COMMIT_GO : Fld := ⟨R.MIG_COMMIT, 0, 1⟩
/-- MIG.INITCTL, Table 15-7. -/
def R.MIG_INITCTL (e : Nat) : RegRef := ⟨0x120100 + 4 * e, 0x0⟩
def F.MIG_INITCTL_AUTO (e : Nat) : Fld := ⟨R.MIG_INITCTL e, 31, 1⟩
def F.MIG_INITCTL_BUSY (e : Nat) : Fld := ⟨R.MIG_INITCTL e, 30, 1⟩
def F.MIG_INITCTL_DONE (e : Nat) : Fld := ⟨R.MIG_INITCTL e, 29, 1⟩
/-- MIG.EXCL.CTL, Table 15-8. -/
def R.MIG_EXCL_CTL (e : Nat) : RegRef := ⟨0x120400 + 32 * e, 0x0⟩
def F.MIG_EXCL_CTL_EN (e : Nat) : Fld := ⟨R.MIG_EXCL_CTL e, 31, 1⟩
def F.MIG_EXCL_CTL_SPARE (e : Nat) : Fld := ⟨R.MIG_EXCL_CTL e, 30, 1⟩
def F.MIG_EXCL_CTL_KIND (e : Nat) : Fld := ⟨R.MIG_EXCL_CTL e, 29, 1⟩
/-- MIG.EXCL.A_LO, Table 15-8. -/
def R.MIG_EXCL_A_LO (e : Nat) : RegRef := ⟨0x120404 + 32 * e, 0x0⟩
def F.MIG_EXCL_A_LO_A (e : Nat) : Fld := ⟨R.MIG_EXCL_A_LO e, 0, 32⟩
/-- MIG.EXCL.A_HI, Table 15-8. -/
def R.MIG_EXCL_A_HI (e : Nat) : RegRef := ⟨0x120408 + 32 * e, 0x0⟩
def F.MIG_EXCL_A_HI_A (e : Nat) : Fld := ⟨R.MIG_EXCL_A_HI e, 0, 16⟩
/-- MIG.EXCL.B_LO, Table 15-8. -/
def R.MIG_EXCL_B_LO (e : Nat) : RegRef := ⟨0x12040c + 32 * e, 0x0⟩
def F.MIG_EXCL_B_LO_B (e : Nat) : Fld := ⟨R.MIG_EXCL_B_LO e, 0, 32⟩
/-- MIG.EXCL.B_HI, Table 15-8. -/
def R.MIG_EXCL_B_HI (e : Nat) : RegRef := ⟨0x120410 + 32 * e, 0x0⟩
def F.MIG_EXCL_B_HI_B (e : Nat) : Fld := ⟨R.MIG_EXCL_B_HI e, 0, 16⟩
/-- MIG.REGION.CTL, Table 15-9. -/
def R.MIG_REGION_CTL (e : Nat) : RegRef := ⟨0x120c00 + 32 * e, 0x0⟩
def F.MIG_REGION_CTL_EN (e : Nat) : Fld := ⟨R.MIG_REGION_CTL e, 31, 1⟩
def F.MIG_REGION_CTL_PATROL (e : Nat) : Fld := ⟨R.MIG_REGION_CTL e, 30, 1⟩
def F.MIG_REGION_CTL_CODE (e : Nat) : Fld := ⟨R.MIG_REGION_CTL e, 29, 1⟩
def F.MIG_REGION_CTL_CRYPTO (e : Nat) : Fld := ⟨R.MIG_REGION_CTL e, 27, 2⟩
def F.MIG_REGION_CTL_KEYID (e : Nat) : Fld := ⟨R.MIG_REGION_CTL e, 0, 6⟩
/-- MIG.REGION.BASE_LO, Table 15-9. -/
def R.MIG_REGION_BASE_LO (e : Nat) : RegRef := ⟨0x120c04 + 32 * e, 0x0⟩
def F.MIG_REGION_BASE_LO_BASE (e : Nat) : Fld := ⟨R.MIG_REGION_BASE_LO e, 0, 32⟩
/-- MIG.REGION.BASE_HI, Table 15-9. -/
def R.MIG_REGION_BASE_HI (e : Nat) : RegRef := ⟨0x120c08 + 32 * e, 0x0⟩
def F.MIG_REGION_BASE_HI_BASE (e : Nat) : Fld := ⟨R.MIG_REGION_BASE_HI e, 0, 16⟩
/-- MIG.REGION.LIMIT_LO, Table 15-9. -/
def R.MIG_REGION_LIMIT_LO (e : Nat) : RegRef := ⟨0x120c0c + 32 * e, 0x0⟩
def F.MIG_REGION_LIMIT_LO_LIMIT (e : Nat) : Fld := ⟨R.MIG_REGION_LIMIT_LO e, 0, 32⟩
/-- MIG.REGION.LIMIT_HI, Table 15-9. -/
def R.MIG_REGION_LIMIT_HI (e : Nat) : RegRef := ⟨0x120c10 + 32 * e, 0x0⟩
def F.MIG_REGION_LIMIT_HI_LIMIT (e : Nat) : Fld := ⟨R.MIG_REGION_LIMIT_HI e, 0, 16⟩
/-- MIG.REMAP.FROM, Table 15-10. -/
def R.MIG_REMAP_FROM (e2 e : Nat) : RegRef := ⟨0x121000 + 256 * e2 + 8 * e, 0x0⟩
def F.MIG_REMAP_FROM_VALID (e2 e : Nat) : Fld := ⟨R.MIG_REMAP_FROM e2 e, 31, 1⟩
def F.MIG_REMAP_FROM_LOST (e2 e : Nat) : Fld := ⟨R.MIG_REMAP_FROM e2 e, 30, 1⟩
def F.MIG_REMAP_FROM_LINE (e2 e : Nat) : Fld := ⟨R.MIG_REMAP_FROM e2 e, 0, 30⟩
/-- MIG.REMAP.TO, Table 15-10. -/
def R.MIG_REMAP_TO (e2 e : Nat) : RegRef := ⟨0x121004 + 256 * e2 + 8 * e, 0x0⟩
def F.MIG_REMAP_TO_AUTO (e2 e : Nat) : Fld := ⟨R.MIG_REMAP_TO e2 e, 31, 1⟩
def F.MIG_REMAP_TO_BUSY (e2 e : Nat) : Fld := ⟨R.MIG_REMAP_TO e2 e, 30, 1⟩
def F.MIG_REMAP_TO_LINE (e2 e : Nat) : Fld := ⟨R.MIG_REMAP_TO e2 e, 0, 30⟩
/-- CRY.CTL, Table 16-6. -/
def R.CRY_CTL : RegRef := ⟨0x130000, 0x0⟩
def F.CRY_CTL_FLUSH : Fld := ⟨R.CRY_CTL, 1, 1⟩
def F.CRY_CTL_EN : Fld := ⟨R.CRY_CTL, 0, 1⟩
/-- CRY.STAT, Table 16-6. -/
def R.CRY_STAT : RegRef := ⟨0x130004, 0x0⟩
def F.CRY_STAT_FLUSHING : Fld := ⟨R.CRY_STAT, 6, 1⟩
def F.CRY_STAT_KEYREJ : Fld := ⟨R.CRY_STAT, 5, 1⟩
def F.CRY_STAT_HOLDTMO : Fld := ⟨R.CRY_STAT, 4, 1⟩
def F.CRY_STAT_CTRWR : Fld := ⟨R.CRY_STAT, 3, 1⟩
def F.CRY_STAT_CFGBAD : Fld := ⟨R.CRY_STAT, 2, 1⟩
def F.CRY_STAT_KEYFAIL : Fld := ⟨R.CRY_STAT, 1, 1⟩
def F.CRY_STAT_STATICW : Fld := ⟨R.CRY_STAT, 0, 1⟩
/-- CRY.RENEW_THRESH, Table 16-6. -/
def R.CRY_RENEW_THRESH : RegRef := ⟨0x130008, 0xfff00000⟩
def F.CRY_RENEW_THRESH_THRESH : Fld := ⟨R.CRY_RENEW_THRESH, 0, 32⟩
/-- CRY.HOLD, Table 16-6. -/
def R.CRY_HOLD : RegRef := ⟨0x13000c, 0x64⟩
def F.CRY_HOLD_MAX : Fld := ⟨R.CRY_HOLD, 0, 16⟩
/-- CRY.RNREQ, Table 16-6. -/
def R.CRY_RNREQ : RegRef := ⟨0x130010, 0x0⟩
def F.CRY_RNREQ_REQ : Fld := ⟨R.CRY_RNREQ, 0, 32⟩
/-- CRY.RNURG, Table 16-6. -/
def R.CRY_RNURG : RegRef := ⟨0x130014, 0x0⟩
def F.CRY_RNURG_URG : Fld := ⟨R.CRY_RNURG, 0, 32⟩
/-- CRY.RN, Table 16-6. -/
def R.CRY_RN : RegRef := ⟨0x130018, 0x0⟩
def F.CRY_RN_ACTIVE : Fld := ⟨R.CRY_RN, 31, 1⟩
def F.CRY_RN_STW : Fld := ⟨R.CRY_RN, 30, 1⟩
def F.CRY_RN_REGION : Fld := ⟨R.CRY_RN, 18, 5⟩
def F.CRY_RN_NEWKEY : Fld := ⟨R.CRY_RN, 6, 6⟩
def F.CRY_RN_OLDKEY : Fld := ⟨R.CRY_RN, 0, 6⟩
/-- CRY.RPTR_LO, Table 16-6. -/
def R.CRY_RPTR_LO : RegRef := ⟨0x130020, 0x0⟩
def F.CRY_RPTR_LO_PTR : Fld := ⟨R.CRY_RPTR_LO, 0, 32⟩
/-- CRY.RPTR_HI, Table 16-6. -/
def R.CRY_RPTR_HI : RegRef := ⟨0x130024, 0x0⟩
def F.CRY_RPTR_HI_PTR : Fld := ⟨R.CRY_RPTR_HI, 0, 16⟩
/-- CRY.RNCNT, Table 16-6. -/
def R.CRY_RNCNT : RegRef := ⟨0x130028, 0x0⟩
def F.CRY_RNCNT_LOST : Fld := ⟨R.CRY_RNCNT, 16, 16⟩
def F.CRY_RNCNT_EARLY : Fld := ⟨R.CRY_RNCNT, 0, 16⟩
/-- CRY.CNT, Table 16-6. -/
def R.CRY_CNT : RegRef := ⟨0x13002c, 0x0⟩
def F.CRY_CNT_TAGFAIL : Fld := ⟨R.CRY_CNT, 16, 16⟩
def F.CRY_CNT_MISS : Fld := ⟨R.CRY_CNT, 0, 16⟩
/-- CRY.KEYSTAT, Table 16-7. -/
def R.CRY_KEYSTAT (e : Nat) : RegRef := ⟨0x130040 + 4 * e, 0x0⟩
def F.CRY_KEYSTAT_STATE7 (e : Nat) : Fld := ⟨R.CRY_KEYSTAT e, 28, 4⟩
def F.CRY_KEYSTAT_STATE6 (e : Nat) : Fld := ⟨R.CRY_KEYSTAT e, 24, 4⟩
def F.CRY_KEYSTAT_STATE5 (e : Nat) : Fld := ⟨R.CRY_KEYSTAT e, 20, 4⟩
def F.CRY_KEYSTAT_STATE4 (e : Nat) : Fld := ⟨R.CRY_KEYSTAT e, 16, 4⟩
def F.CRY_KEYSTAT_STATE3 (e : Nat) : Fld := ⟨R.CRY_KEYSTAT e, 12, 4⟩
def F.CRY_KEYSTAT_STATE2 (e : Nat) : Fld := ⟨R.CRY_KEYSTAT e, 8, 4⟩
def F.CRY_KEYSTAT_STATE1 (e : Nat) : Fld := ⟨R.CRY_KEYSTAT e, 4, 4⟩
def F.CRY_KEYSTAT_STATE0 (e : Nat) : Fld := ⟨R.CRY_KEYSTAT e, 0, 4⟩
/-- CRY.KEYCTL, Table 16-7. -/
def R.CRY_KEYCTL : RegRef := ⟨0x130060, 0x0⟩
def F.CRY_KEYCTL_OP : Fld := ⟨R.CRY_KEYCTL, 8, 2⟩
def F.CRY_KEYCTL_KEYID : Fld := ⟨R.CRY_KEYCTL, 0, 6⟩
/-- CRY.CFGKEY, Table 16-7. -/
def R.CRY_CFGKEY : RegRef := ⟨0x130064, 0x0⟩
def F.CRY_CFGKEY_LOADED : Fld := ⟨R.CRY_CFGKEY, 0, 1⟩
/-- CRY.COMMIT, Table 2-6. -/
def R.CRY_COMMIT : RegRef := ⟨0x1300fc, 0x0⟩
def F.CRY_COMMIT_PEND : Fld := ⟨R.CRY_COMMIT, 4, 1⟩
def F.CRY_COMMIT_HOLD : Fld := ⟨R.CRY_COMMIT, 3, 1⟩
def F.CRY_COMMIT_ARMED : Fld := ⟨R.CRY_COMMIT, 2, 1⟩
def F.CRY_COMMIT_DISCARD : Fld := ⟨R.CRY_COMMIT, 1, 1⟩
def F.CRY_COMMIT_GO : Fld := ⟨R.CRY_COMMIT, 0, 1⟩
/-- CRY.RGN.CTRBASE_LO, Table 16-7. -/
def R.CRY_RGN_CTRBASE_LO (e : Nat) : RegRef := ⟨0x130100 + 8 * e, 0x0⟩
def F.CRY_RGN_CTRBASE_LO_ADDR (e : Nat) : Fld := ⟨R.CRY_RGN_CTRBASE_LO e, 0, 32⟩
/-- CRY.RGN.CTRBASE_HI, Table 16-7. -/
def R.CRY_RGN_CTRBASE_HI (e : Nat) : RegRef := ⟨0x130104 + 8 * e, 0x0⟩
def F.CRY_RGN_CTRBASE_HI_ADDR (e : Nat) : Fld := ⟨R.CRY_RGN_CTRBASE_HI e, 0, 16⟩
/-- CRY.RIGHTS.CTL, Table 16-7. -/
def R.CRY_RIGHTS_CTL (e : Nat) : RegRef := ⟨0x130400 + 16 * e, 0x7⟩
def F.CRY_RIGHTS_CTL_RAW (e : Nat) : Fld := ⟨R.CRY_RIGHTS_CTL e, 3, 1⟩
def F.CRY_RIGHTS_CTL_PLAIN (e : Nat) : Fld := ⟨R.CRY_RIGHTS_CTL e, 2, 1⟩
def F.CRY_RIGHTS_CTL_W (e : Nat) : Fld := ⟨R.CRY_RIGHTS_CTL e, 1, 1⟩
def F.CRY_RIGHTS_CTL_R (e : Nat) : Fld := ⟨R.CRY_RIGHTS_CTL e, 0, 1⟩
/-- CRY.RIGHTS.MASK0, Table 16-7. -/
def R.CRY_RIGHTS_MASK0 (e : Nat) : RegRef := ⟨0x130404 + 16 * e, 0x0⟩
def F.CRY_RIGHTS_MASK0_KEYS (e : Nat) : Fld := ⟨R.CRY_RIGHTS_MASK0 e, 0, 32⟩
/-- CRY.RIGHTS.MASK1, Table 16-7. -/
def R.CRY_RIGHTS_MASK1 (e : Nat) : RegRef := ⟨0x130408 + 16 * e, 0x0⟩
def F.CRY_RIGHTS_MASK1_KEYS (e : Nat) : Fld := ⟨R.CRY_RIGHTS_MASK1 e, 0, 32⟩
/-- LANE.CTL, Table 13-9. -/
def R.LANE_CTL (i : Nat) : RegRef := ⟨0x140000 + 512 * i, 0x0⟩
def F.LANE_CTL_EN (i : Nat) : Fld := ⟨R.LANE_CTL i, 31, 1⟩
def F.LANE_CTL_EIDLE (i : Nat) : Fld := ⟨R.LANE_CTL i, 30, 1⟩
def F.LANE_CTL_SLIP (i : Nat) : Fld := ⟨R.LANE_CTL i, 20, 10⟩
/-- LANE.CFG, Table 13-10. -/
def R.LANE_CFG (i : Nat) : RegRef := ⟨0x140004 + 512 * i, 0x0⟩
def F.LANE_CFG_RXINV (i : Nat) : Fld := ⟨R.LANE_CFG i, 9, 1⟩
def F.LANE_CFG_TXINV (i : Nat) : Fld := ⟨R.LANE_CFG i, 8, 1⟩
def F.LANE_CFG_RATE (i : Nat) : Fld := ⟨R.LANE_CFG i, 3, 3⟩
def F.LANE_CFG_USE (i : Nat) : Fld := ⟨R.LANE_CFG i, 0, 3⟩
/-- LANE.STAT, Table 13-11. -/
def R.LANE_STAT (i : Nat) : RegRef := ⟨0x140008 + 512 * i, 0x0⟩
def F.LANE_STAT_STATICW (i : Nat) : Fld := ⟨R.LANE_STAT i, 8, 1⟩
def F.LANE_STAT_HIBER (i : Nat) : Fld := ⟨R.LANE_STAT i, 7, 1⟩
def F.LANE_STAT_POLINV (i : Nat) : Fld := ⟨R.LANE_STAT i, 6, 1⟩
def F.LANE_STAT_EIDLE (i : Nat) : Fld := ⟨R.LANE_STAT i, 5, 1⟩
def F.LANE_STAT_RXIDLE (i : Nat) : Fld := ⟨R.LANE_STAT i, 4, 1⟩
def F.LANE_STAT_BLKLOCK (i : Nat) : Fld := ⟨R.LANE_STAT i, 3, 1⟩
def F.LANE_STAT_CDRLOCK (i : Nat) : Fld := ⟨R.LANE_STAT i, 2, 1⟩
def F.LANE_STAT_LOSS (i : Nat) : Fld := ⟨R.LANE_STAT i, 1, 1⟩
/-- LANE.CTLE, Table 13-12. -/
def R.LANE_CTLE (i : Nat) : RegRef := ⟨0x14000c + 512 * i, 0x1010⟩
def F.LANE_CTLE_HOLD (i : Nat) : Fld := ⟨R.LANE_CTLE i, 31, 1⟩
def F.LANE_CTLE_INIT (i : Nat) : Fld := ⟨R.LANE_CTLE i, 8, 5⟩
def F.LANE_CTLE_STEP (i : Nat) : Fld := ⟨R.LANE_CTLE i, 0, 5⟩
/-- LANE.EYE, Table 13-13. -/
def R.LANE_EYE (i : Nat) : RegRef := ⟨0x140010 + 512 * i, 0x0⟩
def F.LANE_EYE_VALID (i : Nat) : Fld := ⟨R.LANE_EYE i, 31, 1⟩
def F.LANE_EYE_HEIGHT (i : Nat) : Fld := ⟨R.LANE_EYE i, 8, 8⟩
def F.LANE_EYE_WIDTH (i : Nat) : Fld := ⟨R.LANE_EYE i, 0, 7⟩
/-- LANE.LAT, Table 13-13. -/
def R.LANE_LAT (i : Nat) : RegRef := ⟨0x140014 + 512 * i, 0x0⟩
def F.LANE_LAT_RX (i : Nat) : Fld := ⟨R.LANE_LAT i, 16, 16⟩
def F.LANE_LAT_TX (i : Nat) : Fld := ⟨R.LANE_LAT i, 0, 16⟩
/-- LANE.CNT, Table 13-14. -/
def R.LANE_CNT (i : Nat) : RegRef := ⟨0x140018 + 512 * i, 0x0⟩
def F.LANE_CNT_BADSH (i : Nat) : Fld := ⟨R.LANE_CNT i, 16, 16⟩
def F.LANE_CNT_ERRBLK (i : Nat) : Fld := ⟨R.LANE_CNT i, 0, 16⟩
/-- LANE.PRBS, Table 13-14. -/
def R.LANE_PRBS (i : Nat) : RegRef := ⟨0x14001c + 512 * i, 0x0⟩
def F.LANE_PRBS_GEN (i : Nat) : Fld := ⟨R.LANE_PRBS i, 31, 1⟩
def F.LANE_PRBS_CHK (i : Nat) : Fld := ⟨R.LANE_PRBS i, 30, 1⟩
def F.LANE_PRBS_PAT (i : Nat) : Fld := ⟨R.LANE_PRBS i, 29, 1⟩
def F.LANE_PRBS_SYNC (i : Nat) : Fld := ⟨R.LANE_PRBS i, 28, 1⟩
/-- LANE.PRBSCNT, Table 13-14. -/
def R.LANE_PRBSCNT (i : Nat) : RegRef := ⟨0x140020 + 512 * i, 0x0⟩
def F.LANE_PRBSCNT_ERRS (i : Nat) : Fld := ⟨R.LANE_PRBSCNT i, 0, 32⟩
/-- LANE.RXADDR_LO, Table 13-15. -/
def R.LANE_RXADDR_LO (i : Nat) : RegRef := ⟨0x140024 + 512 * i, 0x0⟩
def F.LANE_RXADDR_LO_ADDR (i : Nat) : Fld := ⟨R.LANE_RXADDR_LO i, 0, 32⟩
/-- LANE.RXADDR_HI, Table 13-15. -/
def R.LANE_RXADDR_HI (i : Nat) : RegRef := ⟨0x140028 + 512 * i, 0x0⟩
def F.LANE_RXADDR_HI_ADDR (i : Nat) : Fld := ⟨R.LANE_RXADDR_HI i, 0, 16⟩
/-- LANE.RXCTL, Table 13-15. -/
def R.LANE_RXCTL (i : Nat) : RegRef := ⟨0x14002c + 512 * i, 0x0⟩
def F.LANE_RXCTL_GUAR (i : Nat) : Fld := ⟨R.LANE_RXCTL i, 6, 1⟩
def F.LANE_RXCTL_IDLEDROP (i : Nat) : Fld := ⟨R.LANE_RXCTL i, 5, 1⟩
def F.LANE_RXCTL_RINGL (i : Nat) : Fld := ⟨R.LANE_RXCTL i, 0, 5⟩
/-- LANE.RAWCNT, Table 13-16. -/
def R.LANE_RAWCNT (i : Nat) : RegRef := ⟨0x140030 + 512 * i, 0x0⟩
def F.LANE_RAWCNT_TXDROP (i : Nat) : Fld := ⟨R.LANE_RAWCNT i, 24, 8⟩
def F.LANE_RAWCNT_RXOVF (i : Nat) : Fld := ⟨R.LANE_RAWCNT i, 16, 8⟩
def F.LANE_RAWCNT_RXWERR (i : Nat) : Fld := ⟨R.LANE_RAWCNT i, 8, 8⟩
def F.LANE_RAWCNT_UNDERRUN (i : Nat) : Fld := ⟨R.LANE_RAWCNT i, 0, 8⟩
/-- LANE.COMMIT, Table 2-6. -/
def R.LANE_COMMIT (i : Nat) : RegRef := ⟨0x1400fc + 512 * i, 0x0⟩
def F.LANE_COMMIT_PEND (i : Nat) : Fld := ⟨R.LANE_COMMIT i, 4, 1⟩
def F.LANE_COMMIT_HOLD (i : Nat) : Fld := ⟨R.LANE_COMMIT i, 3, 1⟩
def F.LANE_COMMIT_ARMED (i : Nat) : Fld := ⟨R.LANE_COMMIT i, 2, 1⟩
def F.LANE_COMMIT_DISCARD (i : Nat) : Fld := ⟨R.LANE_COMMIT i, 1, 1⟩
def F.LANE_COMMIT_GO (i : Nat) : Fld := ⟨R.LANE_COMMIT i, 0, 1⟩
/-- STG.CTL, Table 13-17. -/
def R.STG_CTL (i : Nat) : RegRef := ⟨0x148000 + 1024 * i, 0x4a0a8100⟩
def F.STG_CTL_EN (i : Nat) : Fld := ⟨R.STG_CTL i, 31, 1⟩
def F.STG_CTL_AUTOTRAIN (i : Nat) : Fld := ⟨R.STG_CTL i, 30, 1⟩
def F.STG_CTL_FALLBACK (i : Nat) : Fld := ⟨R.STG_CTL i, 29, 1⟩
def F.STG_CTL_WIDTH (i : Nat) : Fld := ⟨R.STG_CTL i, 28, 1⟩
def F.STG_CTL_RATE (i : Nat) : Fld := ⟨R.STG_CTL i, 25, 3⟩
def F.STG_CTL_EIDLE (i : Nat) : Fld := ⟨R.STG_CTL i, 24, 1⟩
def F.STG_CTL_TRAINTMO (i : Nat) : Fld := ⟨R.STG_CTL i, 16, 8⟩
def F.STG_CTL_REPLAYMAX (i : Nat) : Fld := ⟨R.STG_CTL i, 12, 4⟩
def F.STG_CTL_REPLAYTMO (i : Nat) : Fld := ⟨R.STG_CTL i, 0, 12⟩
/-- STG.STAT, Table 13-18. -/
def R.STG_STAT (i : Nat) : RegRef := ⟨0x148004 + 1024 * i, 0x0⟩
def F.STG_STAT_PEERDEV (i : Nat) : Fld := ⟨R.STG_STAT i, 20, 8⟩
def F.STG_STAT_POLMAP (i : Nat) : Fld := ⟨R.STG_STAT i, 12, 8⟩
def F.STG_STAT_REVERSED (i : Nat) : Fld := ⟨R.STG_STAT i, 11, 1⟩
def F.STG_STAT_WIDTHNOW (i : Nat) : Fld := ⟨R.STG_STAT i, 10, 1⟩
def F.STG_STAT_DUPDEV (i : Nat) : Fld := ⟨R.STG_STAT i, 9, 1⟩
def F.STG_STAT_FAIL (i : Nat) : Fld := ⟨R.STG_STAT i, 3, 3⟩
def F.STG_STAT_STATE (i : Nat) : Fld := ⟨R.STG_STAT i, 0, 3⟩
/-- STG.ERR, Table 13-19. -/
def R.STG_ERR (i : Nat) : RegRef := ⟨0x148008 + 1024 * i, 0x0⟩
def F.STG_ERR_STATICW (i : Nat) : Fld := ⟨R.STG_ERR i, 4, 1⟩
def F.STG_ERR_DISCARD (i : Nat) : Fld := ⟨R.STG_ERR i, 3, 1⟩
def F.STG_ERR_REPLAYLIM (i : Nat) : Fld := ⟨R.STG_ERR i, 2, 1⟩
def F.STG_ERR_TRAINFAIL (i : Nat) : Fld := ⟨R.STG_ERR i, 1, 1⟩
def F.STG_ERR_CRC (i : Nat) : Fld := ⟨R.STG_ERR i, 0, 1⟩
/-- STG.CNT, Table 13-20. -/
def R.STG_CNT (i : Nat) : RegRef := ⟨0x14800c + 1024 * i, 0x0⟩
def F.STG_CNT_CRCERR (i : Nat) : Fld := ⟨R.STG_CNT i, 16, 16⟩
def F.STG_CNT_REPLAY (i : Nat) : Fld := ⟨R.STG_CNT i, 0, 16⟩
/-- STG.CNT2, Table 13-20. -/
def R.STG_CNT2 (i : Nat) : RegRef := ⟨0x148010 + 1024 * i, 0x0⟩
def F.STG_CNT2_NAKTX (i : Nat) : Fld := ⟨R.STG_CNT2 i, 16, 16⟩
def F.STG_CNT2_DOWNS (i : Nat) : Fld := ⟨R.STG_CNT2 i, 8, 8⟩
def F.STG_CNT2_DISC (i : Nat) : Fld := ⟨R.STG_CNT2 i, 0, 8⟩
/-- STG.ONEWAY, Table 13-21. -/
def R.STG_ONEWAY (i : Nat) : RegRef := ⟨0x148014 + 1024 * i, 0x0⟩
def F.STG_ONEWAY_DLY (i : Nat) : Fld := ⟨R.STG_ONEWAY i, 0, 32⟩
/-- STG.OFFSET, Table 13-21. -/
def R.STG_OFFSET (i : Nat) : RegRef := ⟨0x148018 + 1024 * i, 0x0⟩
def F.STG_OFFSET_THETA (i : Nat) : Fld := ⟨R.STG_OFFSET i, 0, 32⟩
/-- STG.FWD, Table 13-21. -/
def R.STG_FWD (i : Nat) : RegRef := ⟨0x14801c + 1024 * i, 0x0⟩
def F.STG_FWD_OPEN (i : Nat) : Fld := ⟨R.STG_FWD i, 0, 9⟩
/-- STG.COMMIT, Table 2-6. -/
def R.STG_COMMIT (i : Nat) : RegRef := ⟨0x1480fc + 1024 * i, 0x0⟩
def F.STG_COMMIT_PEND (i : Nat) : Fld := ⟨R.STG_COMMIT i, 4, 1⟩
def F.STG_COMMIT_HOLD (i : Nat) : Fld := ⟨R.STG_COMMIT i, 3, 1⟩
def F.STG_COMMIT_ARMED (i : Nat) : Fld := ⟨R.STG_COMMIT i, 2, 1⟩
def F.STG_COMMIT_DISCARD (i : Nat) : Fld := ⟨R.STG_COMMIT i, 1, 1⟩
def F.STG_COMMIT_GO (i : Nat) : Fld := ⟨R.STG_COMMIT i, 0, 1⟩
/-- STW.CTL, Table 18-6. -/
def R.STW_CTL : RegRef := ⟨0x150000, 0x0⟩
def F.STW_CTL_OBS : Fld := ⟨R.STW_CTL, 0, 1⟩
/-- STW.STAT, Table 18-6. -/
def R.STW_STAT : RegRef := ⟨0x150004, 0x0⟩
def F.STW_STAT_RESTARTS : Fld := ⟨R.STW_STAT, 0, 8⟩
/-- STW.FW, Table 18-6. -/
def R.STW_FW : RegRef := ⟨0x150008, 0x0⟩
def F.STW_FW_ROMREV : Fld := ⟨R.STW_FW, 24, 8⟩
def F.STW_FW_PATCHREV : Fld := ⟨R.STW_FW, 16, 8⟩
def F.STW_FW_PATCHID : Fld := ⟨R.STW_FW, 0, 16⟩
/-- STW.WD_CTL, Table 18-6. -/
def R.STW_WD_CTL : RegRef := ⟨0x150010, 0x40003e8⟩
def F.STW_WD_CTL_EN : Fld := ⟨R.STW_WD_CTL, 31, 1⟩
def F.STW_WD_CTL_ACTION : Fld := ⟨R.STW_WD_CTL, 28, 2⟩
def F.STW_WD_CTL_KSRC : Fld := ⟨R.STW_WD_CTL, 26, 2⟩
def F.STW_WD_CTL_FLINE : Fld := ⟨R.STW_WD_CTL, 16, 6⟩
def F.STW_WD_CTL_PERIOD : Fld := ⟨R.STW_WD_CTL, 0, 16⟩
/-- STW.WD_STAT, Table 18-6. -/
def R.STW_WD_STAT : RegRef := ⟨0x150014, 0x0⟩
def F.STW_WD_STAT_HALTSEEN : Fld := ⟨R.STW_WD_STAT, 31, 1⟩
def F.STW_WD_STAT_EXPIRED : Fld := ⟨R.STW_WD_STAT, 30, 1⟩
def F.STW_WD_STAT_SAFEOUT : Fld := ⟨R.STW_WD_STAT, 29, 1⟩
def F.STW_WD_STAT_EXPCNT : Fld := ⟨R.STW_WD_STAT, 16, 8⟩
def F.STW_WD_STAT_REMAIN : Fld := ⟨R.STW_WD_STAT, 0, 16⟩
/-- STW.MWIN, Table 18-6. -/
def R.STW_MWIN : RegRef := ⟨0x150020, 0x80010000⟩
def F.STW_MWIN_EN : Fld := ⟨R.STW_MWIN, 31, 1⟩
def F.STW_MWIN_STAGGER : Fld := ⟨R.STW_MWIN, 16, 1⟩
def F.STW_MWIN_OFFS : Fld := ⟨R.STW_MWIN, 0, 16⟩
/-- STW.LRFLOOR, Table 18-6. -/
def R.STW_LRFLOOR : RegRef := ⟨0x150024, 0x40⟩
def F.STW_LRFLOOR_F : Fld := ⟨R.STW_LRFLOOR, 0, 16⟩
/-- STW.LR, Table 18-6. -/
def R.STW_LR (e : Nat) : RegRef := ⟨0x150040 + 4 * e, 0x0⟩
def F.STW_LR_RATIO (e : Nat) : Fld := ⟨R.STW_LR e, 16, 16⟩
def F.STW_LR_MEAS (e : Nat) : Fld := ⟨R.STW_LR e, 0, 16⟩
/-- STW.COMMIT, Table 2-6. -/
def R.STW_COMMIT : RegRef := ⟨0x1500fc, 0x0⟩
def F.STW_COMMIT_PEND : Fld := ⟨R.STW_COMMIT, 4, 1⟩
def F.STW_COMMIT_HOLD : Fld := ⟨R.STW_COMMIT, 3, 1⟩
def F.STW_COMMIT_ARMED : Fld := ⟨R.STW_COMMIT, 2, 1⟩
def F.STW_COMMIT_DISCARD : Fld := ⟨R.STW_COMMIT, 1, 1⟩
def F.STW_COMMIT_GO : Fld := ⟨R.STW_COMMIT, 0, 1⟩
/-- STW.TEMP, Table 18-6. -/
def R.STW_TEMP (e : Nat) : RegRef := ⟨0x150200 + 4 * e, 0x80008000⟩
def F.STW_TEMP_ODD (e : Nat) : Fld := ⟨R.STW_TEMP e, 16, 16⟩
def F.STW_TEMP_EVEN (e : Nat) : Fld := ⟨R.STW_TEMP e, 0, 16⟩
/-- STW.TMAX, Table 18-6. -/
def R.STW_TMAX : RegRef := ⟨0x150280, 0x8000⟩
def F.STW_TMAX_SENSOR : Fld := ⟨R.STW_TMAX, 16, 6⟩
def F.STW_TMAX_TEMP : Fld := ⟨R.STW_TMAX, 0, 16⟩
/-- STW.VMON, Table 18-6. -/
def R.STW_VMON (e : Nat) : RegRef := ⟨0x150300 + 4 * e, 0x0⟩
def F.STW_VMON_ODD (e : Nat) : Fld := ⟨R.STW_VMON e, 16, 16⟩
def F.STW_VMON_EVEN (e : Nat) : Fld := ⟨R.STW_VMON e, 0, 16⟩
/-- STW.ENV.CTL, Table 18-6. -/
def R.STW_ENV_CTL (e : Nat) : RegRef := ⟨0x150400 + 8 * e, Sys2Proof.Machine.envCtlReset e⟩
def F.STW_ENV_CTL_EN (e : Nat) : Fld := ⟨R.STW_ENV_CTL e, 31, 1⟩
def F.STW_ENV_CTL_THR (e : Nat) : Fld := ⟨R.STW_ENV_CTL e, 0, 16⟩
/-- STW.ENV.LIM, Table 18-6. -/
def R.STW_ENV_LIM (e : Nat) : RegRef := ⟨0x150404 + 8 * e, Sys2Proof.Machine.envLimReset e⟩
def F.STW_ENV_LIM_MAX (e : Nat) : Fld := ⟨R.STW_ENV_LIM e, 16, 16⟩
def F.STW_ENV_LIM_MIN (e : Nat) : Fld := ⟨R.STW_ENV_LIM e, 0, 16⟩
/-- STW.SHED, Table 18-6. -/
def R.STW_SHED : RegRef := ⟨0x150480, 0x0⟩
def F.STW_SHED_DOM : Fld := ⟨R.STW_SHED, 0, 32⟩
/-- STW.SHED2, Table 18-6. -/
def R.STW_SHED2 : RegRef := ⟨0x150484, 0x0⟩
def F.STW_SHED2_LNG : Fld := ⟨R.STW_SHED2, 0, 4⟩
/-- BIST.CTL, Table 19-7. -/
def R.BIST_CTL : RegRef := ⟨0x160000, 0x8⟩
def F.BIST_CTL_STAY : Fld := ⟨R.BIST_CTL, 5, 1⟩
def F.BIST_CTL_ABORT : Fld := ⟨R.BIST_CTL, 4, 1⟩
def F.BIST_CTL_AUTOREP : Fld := ⟨R.BIST_CTL, 3, 1⟩
def F.BIST_CTL_SCAN : Fld := ⟨R.BIST_CTL, 2, 1⟩
def F.BIST_CTL_FIELD : Fld := ⟨R.BIST_CTL, 1, 1⟩
def F.BIST_CTL_ANALOG : Fld := ⟨R.BIST_CTL, 0, 1⟩
/-- BIST.FMAP, Table 19-7. -/
def R.BIST_FMAP : RegRef := ⟨0x160004, 0x0⟩
def F.BIST_FMAP_MAP : Fld := ⟨R.BIST_FMAP, 0, 24⟩
/-- BIST.SAVE_LO, Table 19-7. -/
def R.BIST_SAVE_LO : RegRef := ⟨0x160008, 0x0⟩
def F.BIST_SAVE_LO_ADDR : Fld := ⟨R.BIST_SAVE_LO, 0, 32⟩
/-- BIST.SAVE_HI, Table 19-7. -/
def R.BIST_SAVE_HI : RegRef := ⟨0x16000c, 0x0⟩
def F.BIST_SAVE_HI_ADDR : Fld := ⟨R.BIST_SAVE_HI, 0, 16⟩
/-- BIST.STAT, Table 19-7. -/
def R.BIST_STAT : RegRef := ⟨0x160010, 0x0⟩
def F.BIST_STAT_ZEROD : Fld := ⟨R.BIST_STAT, 9, 1⟩
def F.BIST_STAT_BUSY : Fld := ⟨R.BIST_STAT, 8, 1⟩
def F.BIST_STAT_PHASE : Fld := ⟨R.BIST_STAT, 5, 3⟩
def F.BIST_STAT_CUR : Fld := ⟨R.BIST_STAT, 0, 5⟩
/-- BIST.ERR, Table 19-7. -/
def R.BIST_ERR : RegRef := ⟨0x160014, 0x0⟩
def F.BIST_ERR_FUSEMODE : Fld := ⟨R.BIST_ERR, 8, 1⟩
def F.BIST_ERR_FUSETEMP : Fld := ⟨R.BIST_ERR, 7, 1⟩
def F.BIST_ERR_FUSEFULL : Fld := ⟨R.BIST_ERR, 6, 1⟩
def F.BIST_ERR_FUSEFAIL : Fld := ⟨R.BIST_ERR, 5, 1⟩
def F.BIST_ERR_REPBUSY : Fld := ⟨R.BIST_ERR, 4, 1⟩
def F.BIST_ERR_SPAREUSED : Fld := ⟨R.BIST_ERR, 3, 1⟩
def F.BIST_ERR_RENEW : Fld := ⟨R.BIST_ERR, 2, 1⟩
def F.BIST_ERR_SAVE : Fld := ⟨R.BIST_ERR, 1, 1⟩
def F.BIST_ERR_STATICW : Fld := ⟨R.BIST_ERR, 0, 1⟩
/-- BIST.FRES, Table 19-7. -/
def R.BIST_FRES (e : Nat) : RegRef := ⟨0x160040 + 4 * e, 0x0⟩
def F.BIST_FRES_RESULT (e : Nat) : Fld := ⟨R.BIST_FRES e, 21, 3⟩
def F.BIST_FRES_ITEM (e : Nat) : Fld := ⟨R.BIST_FRES e, 18, 3⟩
def F.BIST_FRES_LOC (e : Nat) : Fld := ⟨R.BIST_FRES e, 0, 16⟩
/-- BIST.ARES, Table 19-7. -/
def R.BIST_ARES : RegRef := ⟨0x1600a0, 0x0⟩
def F.BIST_ARES_RUN : Fld := ⟨R.BIST_ARES, 13, 13⟩
def F.BIST_ARES_FAIL : Fld := ⟨R.BIST_ARES, 0, 13⟩
/-- BIST.COMMIT, Table 2-6. -/
def R.BIST_COMMIT : RegRef := ⟨0x1600fc, 0x0⟩
def F.BIST_COMMIT_PEND : Fld := ⟨R.BIST_COMMIT, 4, 1⟩
def F.BIST_COMMIT_HOLD : Fld := ⟨R.BIST_COMMIT, 3, 1⟩
def F.BIST_COMMIT_ARMED : Fld := ⟨R.BIST_COMMIT, 2, 1⟩
def F.BIST_COMMIT_DISCARD : Fld := ⟨R.BIST_COMMIT, 1, 1⟩
def F.BIST_COMMIT_GO : Fld := ⟨R.BIST_COMMIT, 0, 1⟩
/-- BIST.SREP, Table 19-7. -/
def R.BIST_SREP (e : Nat) : RegRef := ⟨0x160100 + 4 * e, 0x0⟩
def F.BIST_SREP_REC (e : Nat) : Fld := ⟨R.BIST_SREP e, 0, 32⟩
/-- BIST.FUSECTL, Table 19-7. -/
def R.BIST_FUSECTL : RegRef := ⟨0x160200, 0x0⟩
def F.BIST_FUSECTL_PROG : Fld := ⟨R.BIST_FUSECTL, 31, 1⟩
def F.BIST_FUSECTL_ITEM : Fld := ⟨R.BIST_FUSECTL, 2, 2⟩
def F.BIST_FUSECTL_INDEX : Fld := ⟨R.BIST_FUSECTL, 0, 2⟩
/-- BIST.FUSEDATA, Table 19-7. -/
def R.BIST_FUSEDATA : RegRef := ⟨0x160204, 0x0⟩
def F.BIST_FUSEDATA_DATA : Fld := ⟨R.BIST_FUSEDATA, 0, 32⟩
/-- BIST.FUSESTAT, Table 19-7. -/
def R.BIST_FUSESTAT : RegRef := ⟨0x160208, 0x0⟩
def F.BIST_FUSESTAT_BUSY : Fld := ⟨R.BIST_FUSESTAT, 11, 1⟩
def F.BIST_FUSESTAT_ROOT : Fld := ⟨R.BIST_FUSESTAT, 10, 1⟩
def F.BIST_FUSESTAT_USED : Fld := ⟨R.BIST_FUSESTAT, 0, 10⟩
/-- BIST.FUSEKEY, Table 19-7. -/
def R.BIST_FUSEKEY : RegRef := ⟨0x16020c, 0x0⟩
def F.BIST_FUSEKEY_KEY : Fld := ⟨R.BIST_FUSEKEY, 0, 16⟩
/-- BIST.FREC, Table 19-7. -/
def R.BIST_FREC (e : Nat) : RegRef := ⟨0x160400 + 4 * e, 0x0⟩
def F.BIST_FREC_REC (e : Nat) : Fld := ⟨R.BIST_FREC e, 0, 32⟩
/-- DBG.CTL, Table 20-5. -/
def R.DBG_CTL : RegRef := ⟨0x170000, 0x0⟩
def F.DBG_CTL_RELAT : Fld := ⟨R.DBG_CTL, 5, 1⟩
def F.DBG_CTL_LOCK : Fld := ⟨R.DBG_CTL, 4, 1⟩
def F.DBG_CTL_RELEASE : Fld := ⟨R.DBG_CTL, 3, 1⟩
def F.DBG_CTL_HALT : Fld := ⟨R.DBG_CTL, 1, 2⟩
def F.DBG_CTL_EN : Fld := ⟨R.DBG_CTL, 0, 1⟩
/-- DBG.STAT, Table 20-5. -/
def R.DBG_STAT : RegRef := ⟨0x170004, 0x0⟩
def F.DBG_STAT_DBGEN : Fld := ⟨R.DBG_STAT, 7, 1⟩
def F.DBG_STAT_UNLOCKED : Fld := ⟨R.DBG_STAT, 6, 1⟩
def F.DBG_STAT_HALTED : Fld := ⟨R.DBG_STAT, 5, 1⟩
def F.DBG_STAT_PEND : Fld := ⟨R.DBG_STAT, 4, 1⟩
def F.DBG_STAT_CUT : Fld := ⟨R.DBG_STAT, 3, 1⟩
def F.DBG_STAT_SRC : Fld := ⟨R.DBG_STAT, 0, 3⟩
/-- DBG.ERR, Table 20-5. -/
def R.DBG_ERR : RegRef := ⟨0x170008, 0x0⟩
def F.DBG_ERR_TXOVF : Fld := ⟨R.DBG_ERR, 3, 1⟩
def F.DBG_ERR_RELLATE : Fld := ⟨R.DBG_ERR, 2, 1⟩
def F.DBG_ERR_LOCKED : Fld := ⟨R.DBG_ERR, 1, 1⟩
def F.DBG_ERR_HALTREJ : Fld := ⟨R.DBG_ERR, 0, 1⟩
/-- DBG.UNLOCK, Table 20-5. -/
def R.DBG_UNLOCK : RegRef := ⟨0x17000c, 0x0⟩
def F.DBG_UNLOCK_KEY : Fld := ⟨R.DBG_UNLOCK, 0, 16⟩
/-- DBG.RELTICK_LO, Table 20-5. -/
def R.DBG_RELTICK_LO : RegRef := ⟨0x170010, 0x0⟩
def F.DBG_RELTICK_LO_TICK : Fld := ⟨R.DBG_RELTICK_LO, 0, 32⟩
/-- DBG.RELTICK_HI, Table 20-5. -/
def R.DBG_RELTICK_HI : RegRef := ⟨0x170014, 0x0⟩
def F.DBG_RELTICK_HI_TICK : Fld := ⟨R.DBG_RELTICK_HI, 0, 16⟩
/-- DBG.HALTT_LO, Table 20-5. -/
def R.DBG_HALTT_LO : RegRef := ⟨0x170018, 0x0⟩
def F.DBG_HALTT_LO_TIME : Fld := ⟨R.DBG_HALTT_LO, 0, 32⟩
/-- DBG.HALTT_HI, Table 20-5. -/
def R.DBG_HALTT_HI : RegRef := ⟨0x17001c, 0x0⟩
def F.DBG_HALTT_HI_TIME : Fld := ⟨R.DBG_HALTT_HI, 0, 16⟩
/-- DBG.ACC_ADDR_LO, Table 20-5. -/
def R.DBG_ACC_ADDR_LO : RegRef := ⟨0x170020, 0x0⟩
def F.DBG_ACC_ADDR_LO_ADDR : Fld := ⟨R.DBG_ACC_ADDR_LO, 0, 32⟩
/-- DBG.ACC_ADDR_HI, Table 20-5. -/
def R.DBG_ACC_ADDR_HI : RegRef := ⟨0x170024, 0x0⟩
def F.DBG_ACC_ADDR_HI_ADDR : Fld := ⟨R.DBG_ACC_ADDR_HI, 0, 16⟩
/-- DBG.ACC_DATA_LO, Table 20-5. -/
def R.DBG_ACC_DATA_LO : RegRef := ⟨0x170028, 0x0⟩
def F.DBG_ACC_DATA_LO_DATA : Fld := ⟨R.DBG_ACC_DATA_LO, 0, 32⟩
/-- DBG.ACC_DATA_HI, Table 20-5. -/
def R.DBG_ACC_DATA_HI : RegRef := ⟨0x17002c, 0x0⟩
def F.DBG_ACC_DATA_HI_DATA : Fld := ⟨R.DBG_ACC_DATA_HI, 0, 16⟩
/-- DBG.ACC_CTL, Table 20-5. -/
def R.DBG_ACC_CTL : RegRef := ⟨0x170030, 0x0⟩
def F.DBG_ACC_CTL_GO : Fld := ⟨R.DBG_ACC_CTL, 31, 1⟩
def F.DBG_ACC_CTL_BUSY : Fld := ⟨R.DBG_ACC_CTL, 30, 1⟩
def F.DBG_ACC_CTL_RSV : Fld := ⟨R.DBG_ACC_CTL, 29, 1⟩
def F.DBG_ACC_CTL_SCFAIL : Fld := ⟨R.DBG_ACC_CTL, 28, 1⟩
def F.DBG_ACC_CTL_STATUS : Fld := ⟨R.DBG_ACC_CTL, 4, 4⟩
def F.DBG_ACC_CTL_OP : Fld := ⟨R.DBG_ACC_CTL, 0, 2⟩
/-- DBG.VT_TX, Table 20-5. -/
def R.DBG_VT_TX : RegRef := ⟨0x170040, 0x0⟩
def F.DBG_VT_TX_DATA : Fld := ⟨R.DBG_VT_TX, 0, 32⟩
/-- DBG.VT_RX, Table 20-5. -/
def R.DBG_VT_RX : RegRef := ⟨0x170044, 0x0⟩
def F.DBG_VT_RX_DATA : Fld := ⟨R.DBG_VT_RX, 0, 32⟩
/-- DBG.VT_STAT, Table 20-5. -/
def R.DBG_VT_STAT : RegRef := ⟨0x170048, 0x0⟩
def F.DBG_VT_STAT_RXTAKE : Fld := ⟨R.DBG_VT_STAT, 2, 1⟩
def F.DBG_VT_STAT_RXFULL : Fld := ⟨R.DBG_VT_STAT, 1, 1⟩
def F.DBG_VT_STAT_TXFULL : Fld := ⟨R.DBG_VT_STAT, 0, 1⟩
/-- DBG.COMMIT, Table 2-6. -/
def R.DBG_COMMIT : RegRef := ⟨0x1700fc, 0x0⟩
def F.DBG_COMMIT_PEND : Fld := ⟨R.DBG_COMMIT, 4, 1⟩
def F.DBG_COMMIT_HOLD : Fld := ⟨R.DBG_COMMIT, 3, 1⟩
def F.DBG_COMMIT_ARMED : Fld := ⟨R.DBG_COMMIT, 2, 1⟩
def F.DBG_COMMIT_DISCARD : Fld := ⟨R.DBG_COMMIT, 1, 1⟩
def F.DBG_COMMIT_GO : Fld := ⟨R.DBG_COMMIT, 0, 1⟩
/-- DBG.WU.CTL, Table 20-5. -/
def R.DBG_WU_CTL (e : Nat) : RegRef := ⟨0x170100 + 64 * e, 0x0⟩
def F.DBG_WU_CTL_EN (e : Nat) : Fld := ⟨R.DBG_WU_CTL e, 31, 1⟩
def F.DBG_WU_CTL_KIND (e : Nat) : Fld := ⟨R.DBG_WU_CTL e, 30, 1⟩
def F.DBG_WU_CTL_DIR (e : Nat) : Fld := ⟨R.DBG_WU_CTL e, 29, 1⟩
def F.DBG_WU_CTL_SEL (e : Nat) : Fld := ⟨R.DBG_WU_CTL e, 22, 7⟩
def F.DBG_WU_CTL_CTXEN (e : Nat) : Fld := ⟨R.DBG_WU_CTL e, 21, 1⟩
def F.DBG_WU_CTL_CTX (e : Nat) : Fld := ⟨R.DBG_WU_CTL e, 14, 7⟩
def F.DBG_WU_CTL_TYPEEN (e : Nat) : Fld := ⟨R.DBG_WU_CTL e, 13, 1⟩
def F.DBG_WU_CTL_TYPE (e : Nat) : Fld := ⟨R.DBG_WU_CTL e, 8, 5⟩
def F.DBG_WU_CTL_ADDREN (e : Nat) : Fld := ⟨R.DBG_WU_CTL e, 7, 1⟩
def F.DBG_WU_CTL_DATAEN (e : Nat) : Fld := ⟨R.DBG_WU_CTL e, 6, 1⟩
def F.DBG_WU_CTL_DWORD (e : Nat) : Fld := ⟨R.DBG_WU_CTL e, 2, 4⟩
/-- DBG.WU.ALO_LO, Table 20-5. -/
def R.DBG_WU_ALO_LO (e : Nat) : RegRef := ⟨0x170104 + 64 * e, 0x0⟩
def F.DBG_WU_ALO_LO_VALUE (e : Nat) : Fld := ⟨R.DBG_WU_ALO_LO e, 0, 32⟩
/-- DBG.WU.ALO_HI, Table 20-5. -/
def R.DBG_WU_ALO_HI (e : Nat) : RegRef := ⟨0x170108 + 64 * e, 0x0⟩
def F.DBG_WU_ALO_HI_VALUE (e : Nat) : Fld := ⟨R.DBG_WU_ALO_HI e, 0, 16⟩
/-- DBG.WU.AHI_LO, Table 20-5. -/
def R.DBG_WU_AHI_LO (e : Nat) : RegRef := ⟨0x17010c + 64 * e, 0x0⟩
def F.DBG_WU_AHI_LO_VALUE (e : Nat) : Fld := ⟨R.DBG_WU_AHI_LO e, 0, 32⟩
/-- DBG.WU.AHI_HI, Table 20-5. -/
def R.DBG_WU_AHI_HI (e : Nat) : RegRef := ⟨0x170110 + 64 * e, 0x0⟩
def F.DBG_WU_AHI_HI_VALUE (e : Nat) : Fld := ⟨R.DBG_WU_AHI_HI e, 0, 16⟩
/-- DBG.WU.DVAL_LO, Table 20-5. -/
def R.DBG_WU_DVAL_LO (e : Nat) : RegRef := ⟨0x170114 + 64 * e, 0x0⟩
def F.DBG_WU_DVAL_LO_VALUE (e : Nat) : Fld := ⟨R.DBG_WU_DVAL_LO e, 0, 32⟩
/-- DBG.WU.DVAL_HI, Table 20-5. -/
def R.DBG_WU_DVAL_HI (e : Nat) : RegRef := ⟨0x170118 + 64 * e, 0x0⟩
def F.DBG_WU_DVAL_HI_VALUE (e : Nat) : Fld := ⟨R.DBG_WU_DVAL_HI e, 0, 16⟩
/-- DBG.WU.DMSK_LO, Table 20-5. -/
def R.DBG_WU_DMSK_LO (e : Nat) : RegRef := ⟨0x17011c + 64 * e, 0x0⟩
def F.DBG_WU_DMSK_LO_VALUE (e : Nat) : Fld := ⟨R.DBG_WU_DMSK_LO e, 0, 32⟩
/-- DBG.WU.DMSK_HI, Table 20-5. -/
def R.DBG_WU_DMSK_HI (e : Nat) : RegRef := ⟨0x170120 + 64 * e, 0x0⟩
def F.DBG_WU_DMSK_HI_VALUE (e : Nat) : Fld := ⟨R.DBG_WU_DMSK_HI e, 0, 16⟩
/-- DBG.WU.HITS, Table 20-5. -/
def R.DBG_WU_HITS (e : Nat) : RegRef := ⟨0x170124 + 64 * e, 0x0⟩
def F.DBG_WU_HITS_COUNT (e : Nat) : Fld := ⟨R.DBG_WU_HITS e, 0, 32⟩
/-- DBG.LC.CTL, Table 20-5. -/
def R.DBG_LC_CTL (e : Nat) : RegRef := ⟨0x170600 + 16 * e, 0x0⟩
def F.DBG_LC_CTL_EN (e : Nat) : Fld := ⟨R.DBG_LC_CTL e, 31, 1⟩
def F.DBG_LC_CTL_EVENT (e : Nat) : Fld := ⟨R.DBG_LC_CTL e, 30, 1⟩
def F.DBG_LC_CTL_TRACE (e : Nat) : Fld := ⟨R.DBG_LC_CTL e, 29, 1⟩
def F.DBG_LC_CTL_HALT (e : Nat) : Fld := ⟨R.DBG_LC_CTL e, 27, 2⟩
def F.DBG_LC_CTL_NSTAGE (e : Nat) : Fld := ⟨R.DBG_LC_CTL e, 22, 2⟩
def F.DBG_LC_CTL_WINDOW (e : Nat) : Fld := ⟨R.DBG_LC_CTL e, 0, 16⟩
/-- DBG.LC.S01, Table 20-5. -/
def R.DBG_LC_S01 (e : Nat) : RegRef := ⟨0x170604 + 16 * e, 0x0⟩
def F.DBG_LC_S01_S1 (e : Nat) : Fld := ⟨R.DBG_LC_S01 e, 16, 16⟩
def F.DBG_LC_S01_S0 (e : Nat) : Fld := ⟨R.DBG_LC_S01 e, 0, 16⟩
/-- DBG.LC.S23, Table 20-5. -/
def R.DBG_LC_S23 (e : Nat) : RegRef := ⟨0x170608 + 16 * e, 0x0⟩
def F.DBG_LC_S23_S3 (e : Nat) : Fld := ⟨R.DBG_LC_S23 e, 16, 16⟩
def F.DBG_LC_S23_S2 (e : Nat) : Fld := ⟨R.DBG_LC_S23 e, 0, 16⟩
/-- DBG.LC.STAT, Table 20-5. -/
def R.DBG_LC_STAT (e : Nat) : RegRef := ⟨0x17060c + 16 * e, 0x0⟩
def F.DBG_LC_STAT_COUNT (e : Nat) : Fld := ⟨R.DBG_LC_STAT e, 16, 16⟩
def F.DBG_LC_STAT_CUR (e : Nat) : Fld := ⟨R.DBG_LC_STAT e, 0, 2⟩
/-- DBG.TRC_CTL, Table 20-5. -/
def R.DBG_TRC_CTL : RegRef := ⟨0x170700, 0x8000⟩
def F.DBG_TRC_CTL_EN : Fld := ⟨R.DBG_TRC_CTL, 31, 1⟩
def F.DBG_TRC_CTL_MODE : Fld := ⟨R.DBG_TRC_CTL, 30, 1⟩
def F.DBG_TRC_CTL_CHANGE : Fld := ⟨R.DBG_TRC_CTL, 29, 1⟩
def F.DBG_TRC_CTL_FIELD : Fld := ⟨R.DBG_TRC_CTL, 24, 5⟩
def F.DBG_TRC_CTL_WORD : Fld := ⟨R.DBG_TRC_CTL, 22, 2⟩
def F.DBG_TRC_CTL_POST : Fld := ⟨R.DBG_TRC_CTL, 0, 16⟩
/-- DBG.TRC_STAT, Table 20-5. -/
def R.DBG_TRC_STAT : RegRef := ⟨0x170704, 0x0⟩
def F.DBG_TRC_STAT_STOPPED : Fld := ⟨R.DBG_TRC_STAT, 31, 1⟩
def F.DBG_TRC_STAT_WRAP : Fld := ⟨R.DBG_TRC_STAT, 30, 1⟩
def F.DBG_TRC_STAT_TRIGD : Fld := ⟨R.DBG_TRC_STAT, 29, 1⟩
def F.DBG_TRC_STAT_WPTR : Fld := ⟨R.DBG_TRC_STAT, 0, 16⟩
/-- DBG.TRC_RIDX, Table 20-5. -/
def R.DBG_TRC_RIDX : RegRef := ⟨0x170708, 0x0⟩
def F.DBG_TRC_RIDX_IDX : Fld := ⟨R.DBG_TRC_RIDX, 0, 16⟩
/-- DBG.TRC_RDATA_LO, Table 20-5. -/
def R.DBG_TRC_RDATA_LO : RegRef := ⟨0x17070c, 0x0⟩
def F.DBG_TRC_RDATA_LO_DATA : Fld := ⟨R.DBG_TRC_RDATA_LO, 0, 32⟩
/-- DBG.TRC_RDATA_HI, Table 20-5. -/
def R.DBG_TRC_RDATA_HI : RegRef := ⟨0x170710, 0x0⟩
def F.DBG_TRC_RDATA_HI_DATA : Fld := ⟨R.DBG_TRC_RDATA_HI, 0, 16⟩
/-- DBG.TRC_TRIGT_LO, Table 20-5. -/
def R.DBG_TRC_TRIGT_LO : RegRef := ⟨0x170714, 0x0⟩
def F.DBG_TRC_TRIGT_LO_TIME : Fld := ⟨R.DBG_TRC_TRIGT_LO, 0, 32⟩
/-- DBG.TRC_TRIGT_HI, Table 20-5. -/
def R.DBG_TRC_TRIGT_HI : RegRef := ⟨0x170718, 0x0⟩
def F.DBG_TRC_TRIGT_HI_TIME : Fld := ⟨R.DBG_TRC_TRIGT_HI, 0, 16⟩
/-- DBG.TRC_TRIG, Table 20-5. -/
def R.DBG_TRC_TRIG : RegRef := ⟨0x17071c, 0x0⟩
def F.DBG_TRC_TRIG_IDX : Fld := ⟨R.DBG_TRC_TRIG, 0, 16⟩
/-- GPB.SEL, Table 4-9. -/
def R.GPB_SEL (i e : Nat) : RegRef := ⟨0x180000 + 1024 * i + 4 * e, 0x0⟩
def F.GPB_SEL_MODE (i e : Nat) : Fld := ⟨R.GPB_SEL i e, 18, 2⟩
def F.GPB_SEL_FIELD (i e : Nat) : Fld := ⟨R.GPB_SEL i e, 13, 5⟩
def F.GPB_SEL_WORD (i e : Nat) : Fld := ⟨R.GPB_SEL i e, 11, 2⟩
def F.GPB_SEL_BIT (i e : Nat) : Fld := ⟨R.GPB_SEL i e, 5, 6⟩
def F.GPB_SEL_INV (i e : Nat) : Fld := ⟨R.GPB_SEL i e, 0, 1⟩
/-- GPB.COMMIT, Table 2-6. -/
def R.GPB_COMMIT (i : Nat) : RegRef := ⟨0x1800fc + 1024 * i, 0x0⟩
def F.GPB_COMMIT_PEND (i : Nat) : Fld := ⟨R.GPB_COMMIT i, 4, 1⟩
def F.GPB_COMMIT_HOLD (i : Nat) : Fld := ⟨R.GPB_COMMIT i, 3, 1⟩
def F.GPB_COMMIT_ARMED (i : Nat) : Fld := ⟨R.GPB_COMMIT i, 2, 1⟩
def F.GPB_COMMIT_DISCARD (i : Nat) : Fld := ⟨R.GPB_COMMIT i, 1, 1⟩
def F.GPB_COMMIT_GO (i : Nat) : Fld := ⟨R.GPB_COMMIT i, 0, 1⟩

end Sys2Proof.Machine
end

