-- ==== Sys2Proof/Machine/RegTable.lean ====
section
/-! DEFINITION. The register descriptors of R480: for every block of Table 22-6 its base, its instances, its commit kind
(Table 2-4) and, register by register, its name (R482) and the fields with their access code and class (Table 0-2,
Table 0-3). -/
namespace Sys2Proof.Machine

/-- Registers of block LIM. -/
def regsLIM : List RegDesc := [
  ⟨"MAGIC", 0x0, 1, 0, 1, 0, .single, 0x4c494d54, [⟨"MAGIC", 0, 32, .ro, .live⟩]⟩,
  ⟨"VER", 0x4, 1, 0, 1, 0, .single, 0x1, [⟨"VERSION", 0, 8, .ro, .live⟩]⟩,
  ⟨"LENGTH", 0x8, 1, 0, 1, 0, .single, 0x0, [⟨"BYTES", 0, 32, .ro, .live⟩]⟩,
  ⟨"CRC", 0xc, 1, 0, 1, 0, .single, 0x0, [⟨"CRC", 0, 32, .ro, .live⟩]⟩,
  ⟨"NBLK", 0x10, 1, 0, 1, 0, .single, 0x1b, [⟨"COUNT", 0, 16, .ro, .live⟩]⟩,
  ⟨"BLKPTR", 0x14, 1, 0, 1, 0, .single, 0x100, [⟨"PTR", 0, 32, .ro, .live⟩]⟩,
  ⟨"BODY", 0x18, 1, 0, 1, 0, .single, 0x200000, [⟨"PTR", 0, 32, .ro, .live⟩]⟩,
  ⟨"STRPTR", 0x1c, 1, 0, 1, 0, .single, 0x0, [⟨"PTR", 0, 32, .ro, .live⟩]⟩,
  ⟨"REGS", 0x20, 1, 0, 1, 0, .single, 0x0, [⟨"COUNT", 0, 32, .ro, .live⟩]⟩,
  ⟨"ADDRS", 0x24, 1, 0, 1, 0, .single, 0x0, [⟨"COUNT", 0, 32, .ro, .live⟩]⟩,
  ⟨"NDESC", 0x28, 1, 0, 1, 0, .single, 0x0, [⟨"COUNT", 0, 32, .ro, .live⟩]⟩,
  ⟨"ID", 0x40, 1, 0, 1, 0, .single, 0x48240000, [⟨"PART", 16, 16, .ro, .live⟩, ⟨"REV", 12, 4, .ro, .live⟩, ⟨"TEMP", 2, 2, .ro, .live⟩, ⟨"SPEED", 0, 2, .ro, .live⟩]⟩,
  ⟨"LOT_LO", 0x44, 1, 0, 1, 0, .lo, 0x0, [⟨"LOT", 0, 32, .ro, .live⟩]⟩,
  ⟨"LOT_HI", 0x48, 1, 0, 1, 0, .hi, 0x0, [⟨"LOT", 0, 16, .ro, .live⟩]⟩,
  ⟨"POS", 0x4c, 1, 0, 1, 0, .single, 0x0, [⟨"WAFER", 14, 5, .ro, .live⟩, ⟨"DIEY", 7, 7, .ro, .live⟩, ⟨"DIEX", 0, 7, .ro, .live⟩]⟩,
  ⟨"UNITID0", 0x50, 1, 0, 1, 0, .single, 0x0, [⟨"ID", 0, 32, .ro, .live⟩]⟩,
  ⟨"UNITID1", 0x54, 1, 0, 1, 0, .single, 0x0, [⟨"ID", 0, 32, .ro, .live⟩]⟩]

/-- Registers of block GLB. -/
def regsGLB : List RegDesc := [
  ⟨"MODE", 0x0, 1, 0, 1, 0, .single, 0x0, [⟨"BUSY", 8, 1, .ro, .live⟩, ⟨"BASE", 4, 4, .ro, .live⟩, ⟨"MODE", 0, 4, .ro, .live⟩]⟩,
  ⟨"MODEREQ", 0x4, 1, 0, 1, 0, .single, 0x0, [⟨"REQ", 0, 4, .wo, .live⟩]⟩,
  ⟨"STATUS", 0x8, 1, 0, 1, 0, .single, 0x1, [⟨"ACT", 0, 12, .ro, .live⟩]⟩,
  ⟨"ERR", 0xc, 1, 0, 1, 0, .single, 0x0, [⟨"STATICW", 4, 1, .w1c, .live⟩, ⟨"LOADFAIL", 3, 1, .w1c, .live⟩, ⟨"LOCKTO", 2, 1, .w1c, .live⟩, ⟨"BUSYREJ", 1, 1, .w1c, .live⟩, ⟨"REJECT", 0, 1, .w1c, .live⟩]⟩,
  ⟨"LOSTFRAMES_LO", 0x10, 1, 0, 1, 0, .lo, 0x0, [⟨"COUNT", 0, 32, .ro, .live⟩]⟩,
  ⟨"LOSTFRAMES_HI", 0x14, 1, 0, 1, 0, .hi, 0x0, [⟨"COUNT", 0, 16, .ro, .live⟩]⟩,
  ⟨"LOCKCFG", 0x18, 1, 0, 1, 0, .single, 0x3e8, [⟨"AUTORUN", 16, 1, .rw, .live⟩, ⟨"TIMEOUT", 0, 16, .rw, .live⟩]⟩,
  ⟨"TRANS", 0x1c, 1, 0, 1, 0, .single, 0x0, [⟨"REJ", 23, 1, .ro, .live⟩, ⟨"CAUSE", 8, 8, .ro, .live⟩, ⟨"TO", 4, 4, .ro, .live⟩, ⟨"FROM", 0, 4, .ro, .live⟩]⟩]

/-- Registers of block PWR. -/
def regsPWR : List RegDesc := [
  ⟨"OPREQ", 0x0, 1, 0, 1, 0, .single, 0x0, [⟨"OP", 0, 2, .rw, .shadow⟩]⟩,
  ⟨"OPSTAT", 0x4, 1, 0, 1, 0, .single, 0x0, [⟨"VMOK", 10, 1, .ro, .live⟩, ⟨"HELDOP", 8, 2, .ro, .live⟩, ⟨"HELD", 7, 1, .ro, .live⟩, ⟨"BUSY", 6, 1, .ro, .live⟩, ⟨"OPF", 4, 2, .ro, .live⟩, ⟨"OPV", 2, 2, .ro, .live⟩, ⟨"OPCUR", 0, 2, .ro, .live⟩]⟩,
  ⟨"ERR", 0x8, 1, 0, 1, 0, .single, 0x0, [⟨"UV", 7, 1, .w1c, .live⟩, ⟨"VMODE", 6, 1, .w1c, .live⟩, ⟨"PMBUS", 5, 1, .w1c, .live⟩, ⟨"PGTMO", 4, 1, .w1c, .live⟩, ⟨"OPREJ", 3, 1, .w1c, .live⟩, ⟨"DOMTMO", 2, 1, .w1c, .live⟩, ⟨"DOMREJ", 1, 1, .w1c, .live⟩, ⟨"STATICW", 0, 1, .w1c, .live⟩]⟩,
  ⟨"DRAIN_TIMEOUT", 0xc, 1, 0, 1, 0, .single, 0x64, [⟨"US", 0, 16, .rw, .shadow⟩]⟩,
  ⟨"DOMCTL0", 0x10, 1, 0, 1, 0, .single, 0xffffffff, [⟨"ON", 4, 28, .rw, .shadow⟩]⟩,
  ⟨"DOMCTL1", 0x14, 1, 0, 1, 0, .single, 0x1ff, [⟨"ON", 0, 9, .rw, .shadow⟩]⟩,
  ⟨"DOMSTAT0", 0x18, 1, 0, 1, 0, .single, 0xffffffff, [⟨"ON", 0, 32, .ro, .live⟩]⟩,
  ⟨"DOMSTAT1", 0x1c, 1, 0, 1, 0, .single, 0x1ff, [⟨"ON", 0, 9, .ro, .live⟩]⟩,
  ⟨"DOMBUSY", 0x20, 1, 0, 1, 0, .single, 0x0, [⟨"PEND", 31, 1, .ro, .live⟩, ⟨"DOM", 8, 6, .ro, .live⟩, ⟨"STEP", 0, 3, .ro, .live⟩]⟩,
  ⟨"PMB", 0x24, 1, 0, 1, 0, .single, 0x40, [⟨"PAGEEN", 18, 1, .rw, .static⟩, ⟨"PEC", 17, 1, .rw, .static⟩, ⟨"PAGE", 9, 8, .rw, .static⟩, ⟨"ADDR", 0, 7, .rw, .static⟩]⟩,
  ⟨"VTRIM", 0x28, 1, 0, 1, 0, .single, 0x0, [⟨"MV", 0, 6, .rw, .static⟩]⟩,
  ⟨"CTL", 0x2c, 1, 0, 1, 0, .single, 0x0, [⟨"UVPOL", 0, 1, .rw, .static⟩]⟩,
  ⟨"VALLEY", 0x30, 1, 0, 1, 0, .single, 0x300, [⟨"L1EN", 9, 1, .rw, .live⟩, ⟨"WNEN", 8, 1, .rw, .live⟩, ⟨"SRC", 4, 2, .ro, .live⟩, ⟨"STATE", 0, 3, .ro, .live⟩]⟩,
  ⟨"RSTCTL", 0x34, 1, 0, 1, 0, .single, 0x0, [⟨"KEY", 0, 16, .key, .live⟩]⟩,
  ⟨"RSTCAUSE", 0x38, 1, 0, 1, 0, .single, 0x0, [⟨"CAUSE", 0, 2, .ro, .live⟩]⟩,
  ⟨"COMMIT", 0xfc, 1, 0, 1, 0, .single, 0x0, [⟨"PEND", 4, 1, .ro, .live⟩, ⟨"HOLD", 3, 1, .rw, .live⟩, ⟨"ARMED", 2, 1, .ro, .live⟩, ⟨"DISCARD", 1, 1, .wo, .live⟩, ⟨"GO", 0, 1, .wo, .live⟩]⟩]

/-- Registers of block CLK. -/
def regsCLK : List RegDesc := [
  ⟨"CTL", 0x0, 1, 0, 1, 0, .single, 0x0, [⟨"GATEDIS", 2, 1, .rw, .live⟩, ⟨"PRIM", 1, 1, .rw, .static⟩, ⟨"FAILOVER", 0, 1, .rw, .live⟩]⟩,
  ⟨"LOCFREQ", 0x4, 1, 0, 1, 0, .single, 0x2710, [⟨"KHZ", 0, 17, .rw, .static⟩]⟩,
  ⟨"STAT", 0x8, 1, 0, 1, 0, .single, 0x0, [⟨"LASTUNL", 12, 4, .ro, .live⟩, ⟨"DRCLOCK", 11, 1, .ro, .live⟩, ⟨"LNGLOCK", 10, 1, .ro, .live⟩, ⟨"HBRLOCK", 9, 1, .ro, .live⟩, ⟨"STWLOCK", 8, 1, .ro, .live⟩, ⟨"SPNLOCK", 7, 1, .ro, .live⟩, ⟨"FABLOCK", 6, 1, .ro, .live⟩, ⟨"TBLOCK", 5, 1, .ro, .live⟩, ⟨"ONLOC", 3, 1, .ro, .live⟩, ⟨"RATIOV", 2, 1, .ro, .live⟩, ⟨"LOCOK", 1, 1, .ro, .live⟩, ⟨"CHOK", 0, 1, .ro, .live⟩]⟩,
  ⟨"ERR", 0xc, 1, 0, 1, 0, .single, 0x0, [⟨"SAFEN", 6, 1, .w1c, .live⟩, ⟨"REQUAL", 5, 1, .w1c, .live⟩, ⟨"FOVER", 4, 1, .w1c, .live⟩, ⟨"UNLOCK", 3, 1, .w1c, .live⟩, ⟨"LOCLOSS", 2, 1, .w1c, .live⟩, ⟨"CHLOSS", 1, 1, .w1c, .live⟩, ⟨"STATICW", 0, 1, .w1c, .live⟩]⟩,
  ⟨"REQUAL", 0x10, 1, 0, 1, 0, .single, 0x64, [⟨"MS", 0, 16, .rw, .live⟩]⟩,
  ⟨"RATIO_LO", 0x14, 1, 0, 1, 0, .lo, 0x0, [⟨"RATIO", 0, 32, .ro, .live⟩]⟩,
  ⟨"RATIO_HI", 0x18, 1, 0, 1, 0, .hi, 0x0, [⟨"RATIO", 0, 16, .ro, .live⟩]⟩,
  ⟨"CHMEAS", 0x1c, 1, 0, 1, 0, .single, 0x0, [⟨"KHZ", 0, 17, .ro, .live⟩]⟩,
  ⟨"LOCMEAS", 0x20, 1, 0, 1, 0, .single, 0x0, [⟨"KHZ", 0, 17, .ro, .live⟩]⟩,
  ⟨"COMMIT", 0xfc, 1, 0, 1, 0, .single, 0x0, [⟨"PEND", 4, 1, .ro, .live⟩, ⟨"HOLD", 3, 1, .rw, .live⟩, ⟨"ARMED", 2, 1, .ro, .live⟩, ⟨"DISCARD", 1, 1, .wo, .live⟩, ⟨"GO", 0, 1, .wo, .live⟩]⟩]

/-- Registers of block TIME, part 0. -/
def regsTIME_0 : List RegDesc := [
  ⟨"CTL", 0x0, 1, 0, 1, 0, .single, 0x4, [⟨"DEVID", 16, 8, .rw, .static⟩, ⟨"LINKPORT", 8, 3, .rw, .static⟩, ⟨"WRAPEV", 2, 1, .rw, .live⟩, ⟨"MODE", 0, 2, .rw, .static⟩]⟩,
  ⟨"STATUS", 0x4, 1, 0, 1, 0, .single, 0x0, [⟨"HOLD", 4, 1, .ro, .live⟩, ⟨"SYNCOK", 3, 1, .ro, .live⟩, ⟨"LOCKED", 2, 1, .ro, .live⟩, ⟨"TICKS", 1, 1, .ro, .live⟩, ⟨"VALID", 0, 1, .ro, .live⟩]⟩,
  ⟨"ERR", 0x8, 1, 0, 1, 0, .single, 0x0, [⟨"OUTLIER", 6, 1, .w1c, .live⟩, ⟨"SYNCLOST", 5, 1, .w1c, .live⟩, ⟨"GRIDOLD", 4, 1, .w1c, .live⟩, ⟨"GRIDMIS", 3, 1, .w1c, .live⟩, ⟨"INCRRANGE", 2, 1, .w1c, .live⟩, ⟨"SYNCW", 1, 1, .w1c, .live⟩, ⟨"STATICW", 0, 1, .w1c, .live⟩]⟩,
  ⟨"NOW_LO", 0x10, 1, 0, 1, 0, .lo, 0x0, [⟨"DATA", 0, 32, .ro, .live⟩]⟩,
  ⟨"NOW_HI", 0x14, 1, 0, 1, 0, .hi, 0x0, [⟨"DATA", 0, 16, .ro, .live⟩]⟩,
  ⟨"NOWX", 0x18, 1, 0, 1, 0, .single, 0x0, [⟨"WRAPS", 0, 32, .ro, .live⟩]⟩,
  ⟨"RAW_LO", 0x20, 1, 0, 1, 0, .lo, 0x0, [⟨"DATA", 0, 32, .ro, .live⟩]⟩,
  ⟨"RAW_HI", 0x24, 1, 0, 1, 0, .hi, 0x0, [⟨"DATA", 0, 16, .ro, .live⟩]⟩,
  ⟨"INCR_LO", 0x28, 1, 0, 1, 0, .lo, 0x0, [⟨"DATA", 0, 32, .rw, .live⟩]⟩,
  ⟨"INCR_HI", 0x2c, 1, 0, 1, 0, .hi, 0x100, [⟨"DATA", 0, 16, .rw, .live⟩]⟩,
  ⟨"STEP_LO", 0x30, 1, 0, 1, 0, .lo, 0x0, [⟨"DATA", 0, 32, .wo, .live⟩]⟩,
  ⟨"STEP_HI", 0x34, 1, 0, 1, 0, .hi, 0x0, [⟨"DATA", 0, 16, .wo, .live⟩]⟩,
  ⟨"SYNCREF_LO", 0x38, 1, 0, 1, 0, .lo, 0x0, [⟨"DATA", 0, 32, .rw, .shadow⟩]⟩,
  ⟨"SYNCREF_HI", 0x3c, 1, 0, 1, 0, .hi, 0x0, [⟨"DATA", 0, 16, .rw, .shadow⟩]⟩,
  ⟨"SYNCPER", 0x40, 1, 0, 1, 0, .single, 0x30d4, [⟨"PER", 0, 17, .rw, .shadow⟩]⟩,
  ⟨"SYNCDLY", 0x44, 1, 0, 1, 0, .single, 0x0, [⟨"DLY", 0, 32, .rw, .shadow⟩]⟩,
  ⟨"PHERR", 0x48, 1, 0, 1, 0, .single, 0x0, [⟨"ERR", 0, 32, .ro, .live⟩]⟩,
  ⟨"LINKASYM", 0x4c, 1, 0, 1, 0, .single, 0x0, [⟨"ASYM", 0, 32, .rw, .shadow⟩]⟩,
  ⟨"SERVO", 0x50, 1, 0, 1, 0, .single, 0x3e80414, [⟨"SLEW", 16, 12, .rw, .shadow⟩, ⟨"BW", 8, 4, .rw, .shadow⟩, ⟨"LOCKTHR", 0, 8, .rw, .shadow⟩]⟩,
  ⟨"COMMIT", 0xfc, 1, 0, 1, 0, .single, 0x0, [⟨"PEND", 4, 1, .ro, .live⟩, ⟨"HOLD", 3, 1, .rw, .live⟩, ⟨"ARMED", 2, 1, .ro, .live⟩, ⟨"DISCARD", 1, 1, .wo, .live⟩, ⟨"GO", 0, 1, .wo, .live⟩]⟩]

/-- Registers of block TIME, part 1. -/
def regsTIME_1 : List RegDesc := [
  ⟨"TICK.PERIOD", 0x200, 1, 0, 1, 0, .single, 0x7d, [⟨"PERIOD", 0, 17, .rw, .shadow⟩]⟩,
  ⟨"TICK.CTL", 0x204, 1, 0, 1, 0, .single, 0x0, [⟨"GRIDV", 0, 1, .rw, .shadow⟩]⟩,
  ⟨"TICK.COUNT_LO", 0x208, 1, 0, 1, 0, .lo, 0x0, [⟨"DATA", 0, 32, .ro, .live⟩]⟩,
  ⟨"TICK.COUNT_HI", 0x20c, 1, 0, 1, 0, .hi, 0x0, [⟨"DATA", 0, 16, .ro, .live⟩]⟩,
  ⟨"TICK.LASTT_LO", 0x210, 1, 0, 1, 0, .lo, 0x0, [⟨"DATA", 0, 32, .ro, .live⟩]⟩,
  ⟨"TICK.LASTT_HI", 0x214, 1, 0, 1, 0, .hi, 0x0, [⟨"DATA", 0, 16, .ro, .live⟩]⟩,
  ⟨"TICK.GRIDT_LO", 0x218, 1, 0, 1, 0, .lo, 0x0, [⟨"DATA", 0, 32, .rw, .shadow⟩]⟩,
  ⟨"TICK.GRIDT_HI", 0x21c, 1, 0, 1, 0, .hi, 0x0, [⟨"DATA", 0, 16, .rw, .shadow⟩]⟩,
  ⟨"TICK.GRIDK_LO", 0x220, 1, 0, 1, 0, .lo, 0x0, [⟨"DATA", 0, 32, .rw, .shadow⟩]⟩,
  ⟨"TICK.GRIDK_HI", 0x224, 1, 0, 1, 0, .hi, 0x0, [⟨"DATA", 0, 16, .rw, .shadow⟩]⟩,
  ⟨"PASS.CTL", 0x400, 1, 0, 1, 0, .single, 0x2, [⟨"FWD", 8, 1, .rw, .shadow⟩, ⟨"LAG", 0, 3, .rw, .shadow⟩]⟩,
  ⟨"PASS.FWDADDR_LO", 0x408, 1, 0, 1, 0, .lo, 0x0, [⟨"DATA", 0, 32, .rw, .shadow⟩]⟩,
  ⟨"PASS.FWDADDR_HI", 0x40c, 1, 0, 1, 0, .hi, 0x0, [⟨"DATA", 0, 16, .rw, .shadow⟩]⟩,
  ⟨"PASS.STAT", 0x410, 1, 0, 1, 0, .single, 0x0, [⟨"DROP", 16, 16, .rc, .live⟩, ⟨"LATE", 8, 8, .rc, .live⟩, ⟨"GAP", 0, 8, .rc, .live⟩]⟩,
  ⟨"TSP.CTL", 0x800, 8, 64, 1, 0, .single, 0x10, [⟨"EN", 31, 1, .rw, .live⟩, ⟨"LANE", 0, 6, .rw, .shadow⟩]⟩,
  ⟨"TSP.DLY", 0x804, 8, 64, 1, 0, .single, 0x0, [⟨"TX", 16, 16, .rw, .shadow⟩, ⟨"RX", 0, 16, .rw, .shadow⟩]⟩,
  ⟨"TSP.TXQID", 0x808, 8, 64, 1, 0, .single, 0x0, [⟨"VALID", 31, 1, .rp, .live⟩, ⟨"LANE", 16, 8, .rp, .live⟩, ⟨"ID", 0, 16, .rp, .live⟩]⟩,
  ⟨"TSP.TXQT_LO", 0x80c, 8, 64, 1, 0, .lo, 0x0, [⟨"DATA", 0, 32, .ro, .live⟩]⟩,
  ⟨"TSP.TXQT_HI", 0x810, 8, 64, 1, 0, .hi, 0x0, [⟨"DATA", 0, 16, .ro, .live⟩]⟩,
  ⟨"TSP.STAT", 0x814, 8, 64, 1, 0, .single, 0x0, [⟨"OVF", 8, 1, .w1c, .live⟩, ⟨"LEN", 0, 5, .ro, .live⟩]⟩]

/-- Registers of block TIME. -/
def regsTIME : List RegDesc := regsTIME_0 ++ regsTIME_1

/-- Registers of block TT. -/
def regsTT : List RegDesc := [
  ⟨"CTL", 0x0, 1, 0, 1, 0, .single, 0x1, [⟨"EN", 0, 1, .rw, .live⟩]⟩,
  ⟨"ERR", 0x4, 1, 0, 1, 0, .single, 0x0, [⟨"COL", 8, 6, .ro, .live⟩, ⟨"NTFFAIL", 7, 1, .w1c, .live⟩, ⟨"INJFAIL", 6, 1, .w1c, .live⟩, ⟨"NOPIN", 5, 1, .w1c, .live⟩, ⟨"COLRES", 4, 1, .w1c, .live⟩, ⟨"FULL", 3, 1, .w1c, .live⟩, ⟨"ORDER", 2, 1, .w1c, .live⟩, ⟨"BADENTRY", 1, 1, .w1c, .live⟩, ⟨"STATICW", 0, 1, .w1c, .live⟩]⟩,
  ⟨"INJBASE_LO", 0x8, 1, 0, 1, 0, .lo, 0x0, [⟨"DATA", 0, 32, .rw, .shadow⟩]⟩,
  ⟨"INJBASE_HI", 0xc, 1, 0, 1, 0, .hi, 0x0, [⟨"DATA", 0, 16, .rw, .shadow⟩]⟩,
  ⟨"MISS", 0x10, 1, 0, 1, 0, .single, 0x0, [⟨"COUNT", 16, 16, .rc, .live⟩, ⟨"LASTCOL", 0, 6, .ro, .live⟩]⟩,
  ⟨"COMMIT", 0xfc, 1, 0, 1, 0, .single, 0x0, [⟨"PEND", 4, 1, .ro, .live⟩, ⟨"HOLD", 3, 1, .rw, .live⟩, ⟨"ARMED", 2, 1, .ro, .live⟩, ⟨"DISCARD", 1, 1, .wo, .live⟩, ⟨"GO", 0, 1, .wo, .live⟩]⟩,
  ⟨"COL", 0x100, 64, 4, 1, 0, .single, 0x0, [⟨"CLR", 31, 1, .wo, .live⟩, ⟨"HEAD", 10, 10, .ro, .live⟩, ⟨"LEN", 0, 10, .ro, .live⟩]⟩]

/-- Registers of block TRG. -/
def regsTRG : List RegDesc := [
  ⟨"TSEN", 0x10, 4, 4, 1, 0, .single, 0xffffffff, [⟨"EN", 0, 32, .rw, .live⟩]⟩,
  ⟨"FABADDR_LO", 0x20, 1, 0, 1, 0, .lo, 0x0, [⟨"DATA", 0, 32, .rw, .shadow⟩]⟩,
  ⟨"FABADDR_HI", 0x24, 1, 0, 1, 0, .hi, 0x0, [⟨"DATA", 0, 16, .rw, .shadow⟩]⟩,
  ⟨"COMMIT", 0xfc, 1, 0, 1, 0, .single, 0x0, [⟨"PEND", 4, 1, .ro, .live⟩, ⟨"HOLD", 3, 1, .rw, .live⟩, ⟨"ARMED", 2, 1, .ro, .live⟩, ⟨"DISCARD", 1, 1, .wo, .live⟩, ⟨"GO", 0, 1, .wo, .live⟩]⟩,
  ⟨"OUT", 0x100, 104, 4, 1, 0, .single, 0x407a, [⟨"PORT", 27, 3, .rw, .shadow⟩, ⟨"WIDTH", 11, 16, .rw, .shadow⟩, ⟨"MODE", 9, 2, .rw, .shadow⟩, ⟨"INV", 8, 1, .rw, .shadow⟩, ⟨"SRC", 0, 7, .rw, .shadow⟩]⟩]

/-- Registers of block HB. -/
def regsHB : List RegDesc := [
  ⟨"CTL", 0x0, 1, 0, 1, 0, .single, 0x0, [⟨"RO", 1, 1, .rw, .static⟩, ⟨"EN", 0, 1, .rw, .live⟩]⟩,
  ⟨"POLL", 0x4, 1, 0, 1, 0, .single, 0x4, [⟨"INTERVAL", 0, 12, .rw, .shadow⟩]⟩,
  ⟨"DBLK_BASE_LO", 0x8, 1, 0, 1, 0, .lo, 0x0, [⟨"ADDR", 0, 32, .rw, .static⟩]⟩,
  ⟨"DBLK_BASE_HI", 0xc, 1, 0, 1, 0, .hi, 0x0, [⟨"ADDR", 0, 16, .rw, .static⟩]⟩,
  ⟨"STS_BASE_LO", 0x10, 1, 0, 1, 0, .lo, 0x0, [⟨"ADDR", 0, 32, .rw, .static⟩]⟩,
  ⟨"STS_BASE_HI", 0x14, 1, 0, 1, 0, .hi, 0x0, [⟨"ADDR", 0, 16, .rw, .static⟩]⟩,
  ⟨"WIN_BASE_LO", 0x18, 1, 0, 1, 0, .lo, 0x0, [⟨"ADDR", 0, 32, .rw, .static⟩]⟩,
  ⟨"WIN_BASE_HI", 0x1c, 1, 0, 1, 0, .hi, 0x0, [⟨"ADDR", 0, 16, .rw, .static⟩]⟩,
  ⟨"WIN", 0x20, 1, 0, 1, 0, .single, 0x3, [⟨"EN", 8, 1, .rw, .live⟩, ⟨"CTX", 0, 7, .rw, .static⟩]⟩,
  ⟨"LINK", 0x24, 1, 0, 1, 0, .single, 0x400, [⟨"MAXGEN", 8, 4, .rw, .live⟩, ⟨"WIDTH", 4, 4, .ro, .live⟩, ⟨"SPEED", 0, 4, .ro, .live⟩]⟩,
  ⟨"ERR", 0x28, 1, 0, 1, 0, .single, 0x0, [⟨"NOBME", 7, 1, .w1c, .live⟩, ⟨"RESET", 6, 1, .w1c, .live⟩, ⟨"BADTAIL", 5, 1, .w1c, .live⟩, ⟨"QFAULT", 4, 1, .w1c, .live⟩, ⟨"B0SIZE", 3, 1, .w1c, .live⟩, ⟨"B2ERR", 2, 1, .w1c, .live⟩, ⟨"PARTIAL", 1, 1, .w1c, .live⟩, ⟨"STATICW", 0, 1, .w1c, .live⟩]⟩,
  ⟨"IVSEL", 0x40, 9, 4, 1, 0, .single, 0x0, [⟨"DIS", 31, 1, .rw, .live⟩, ⟨"VEC", 24, 6, .rw, .live⟩, ⟨"DIS", 23, 1, .rw, .live⟩, ⟨"VEC", 16, 6, .rw, .live⟩, ⟨"DIS", 15, 1, .rw, .live⟩, ⟨"VEC", 8, 6, .rw, .live⟩, ⟨"DIS", 7, 1, .rw, .live⟩, ⟨"VEC", 0, 6, .rw, .live⟩]⟩,
  ⟨"COMMIT", 0xfc, 1, 0, 1, 0, .single, 0x0, [⟨"PEND", 4, 1, .ro, .live⟩, ⟨"HOLD", 3, 1, .rw, .live⟩, ⟨"ARMED", 2, 1, .ro, .live⟩, ⟨"DISCARD", 1, 1, .wo, .live⟩, ⟨"GO", 0, 1, .wo, .live⟩]⟩]

/-- Registers of block RING. -/
def regsRING : List RegDesc := [
  ⟨"COMMIT", 0xfc, 1, 0, 1, 0, .single, 0x0, [⟨"PEND", 4, 1, .ro, .live⟩, ⟨"HOLD", 3, 1, .rw, .live⟩, ⟨"ARMED", 2, 1, .ro, .live⟩, ⟨"DISCARD", 1, 1, .wo, .live⟩, ⟨"GO", 0, 1, .wo, .live⟩]⟩,
  ⟨"QP.CTL", 0x100, 32, 64, 1, 0, .single, 0x20203, [⟨"EN", 31, 1, .rw, .live⟩, ⟨"PRIV", 30, 1, .rw, .static⟩, ⟨"CQSZL", 16, 5, .rw, .static⟩, ⟨"SQSZL", 8, 5, .rw, .static⟩, ⟨"CTX", 0, 7, .rw, .static⟩]⟩,
  ⟨"QP.SQBASE_LO", 0x104, 32, 64, 1, 0, .lo, 0x0, [⟨"ADDR", 0, 32, .rw, .static⟩]⟩,
  ⟨"QP.SQBASE_HI", 0x108, 32, 64, 1, 0, .hi, 0x0, [⟨"ADDR", 0, 16, .rw, .static⟩]⟩,
  ⟨"QP.CQBASE_LO", 0x10c, 32, 64, 1, 0, .lo, 0x0, [⟨"ADDR", 0, 32, .rw, .static⟩]⟩,
  ⟨"QP.CQBASE_HI", 0x110, 32, 64, 1, 0, .hi, 0x0, [⟨"ADDR", 0, 16, .rw, .static⟩]⟩,
  ⟨"QP.STAT", 0x114, 32, 64, 1, 0, .single, 0x80000000, [⟨"IDLE", 31, 1, .ro, .live⟩, ⟨"FAULT", 30, 1, .w1c, .live⟩, ⟨"BADTAIL", 29, 1, .w1c, .live⟩, ⟨"CQFULL", 28, 1, .ro, .live⟩, ⟨"STATICW", 27, 1, .w1c, .live⟩, ⟨"INPROG", 16, 5, .ro, .live⟩, ⟨"SQHEAD", 0, 16, .ro, .live⟩]⟩,
  ⟨"QP.CQIDX", 0x118, 32, 64, 1, 0, .single, 0x10000, [⟨"PHASE", 16, 1, .ro, .live⟩, ⟨"CQTAIL", 0, 16, .ro, .live⟩]⟩,
  ⟨"EVR.CTL", 0x900, 1, 0, 1, 0, .single, 0x400a0000, [⟨"EN", 31, 1, .rw, .live⟩, ⟨"IRQ", 30, 1, .rw, .live⟩, ⟨"SZL", 16, 5, .rw, .static⟩]⟩,
  ⟨"EVR.BASE_LO", 0x904, 1, 0, 1, 0, .lo, 0x0, [⟨"ADDR", 0, 32, .rw, .static⟩]⟩,
  ⟨"EVR.BASE_HI", 0x908, 1, 0, 1, 0, .hi, 0x0, [⟨"ADDR", 0, 16, .rw, .static⟩]⟩,
  ⟨"EVR.STAT", 0x90c, 1, 0, 1, 0, .single, 0x20000000, [⟨"FULL", 31, 1, .ro, .live⟩, ⟨"STATICW", 30, 1, .w1c, .live⟩, ⟨"IDLE", 29, 1, .ro, .live⟩, ⟨"TAIL", 0, 16, .ro, .live⟩]⟩,
  ⟨"LGR.CTL", 0x920, 1, 0, 1, 0, .single, 0x400a0000, [⟨"EN", 31, 1, .rw, .live⟩, ⟨"IRQ", 30, 1, .rw, .live⟩, ⟨"SZL", 16, 5, .rw, .static⟩]⟩,
  ⟨"LGR.BASE_LO", 0x924, 1, 0, 1, 0, .lo, 0x0, [⟨"ADDR", 0, 32, .rw, .static⟩]⟩,
  ⟨"LGR.BASE_HI", 0x928, 1, 0, 1, 0, .hi, 0x0, [⟨"ADDR", 0, 16, .rw, .static⟩]⟩,
  ⟨"LGR.STAT", 0x92c, 1, 0, 1, 0, .single, 0x20000000, [⟨"FULL", 31, 1, .ro, .live⟩, ⟨"STATICW", 30, 1, .w1c, .live⟩, ⟨"IDLE", 29, 1, .ro, .live⟩, ⟨"TAIL", 0, 16, .ro, .live⟩]⟩]

/-- Registers of block MSIX. -/
def regsMSIX : List RegDesc := [
]

/-- Registers of block NOC. -/
def regsNOC : List RegDesc := [
  ⟨"PORTCTL", 0x0, 1, 0, 1, 0, .single, 0x0, [⟨"W", 6, 2, .rw, .shadow⟩, ⟨"S", 4, 2, .rw, .shadow⟩, ⟨"E", 2, 2, .rw, .shadow⟩, ⟨"N", 0, 2, .rw, .shadow⟩]⟩,
  ⟨"PORTSTAT", 0x4, 1, 0, 1, 0, .single, 0x0, [⟨"PKT", 8, 4, .ro, .live⟩, ⟨"STATE", 0, 8, .ro, .live⟩]⟩,
  ⟨"LINKCNT", 0x10, 4, 4, 1, 0, .single, 0x0, [⟨"CORR", 16, 16, .rc, .live⟩, ⟨"UNC", 8, 8, .rc, .live⟩]⟩,
  ⟨"EVCNT", 0x20, 1, 0, 1, 0, .single, 0x0, [⟨"BOUNCE", 16, 16, .rc, .live⟩, ⟨"SPILL", 8, 8, .rc, .live⟩, ⟨"ORPHAN", 0, 8, .rc, .live⟩]⟩,
  ⟨"ERR", 0x24, 1, 0, 1, 0, .single, 0x0, [⟨"BCASTCUT", 5, 1, .w1c, .live⟩, ⟨"BADROUTE", 4, 1, .w1c, .live⟩, ⟨"SPILLLOSS", 3, 1, .w1c, .live⟩, ⟨"SLOTCONF", 2, 1, .w1c, .live⟩, ⟨"LINKUNC", 1, 1, .w1c, .live⟩, ⟨"ORPHAN", 0, 1, .w1c, .live⟩]⟩,
  ⟨"ARB", 0x28, 1, 0, 1, 0, .single, 0x40, [⟨"AGEMAX", 0, 8, .rw, .shadow⟩]⟩,
  ⟨"OUTBUSY", 0x30, 5, 4, 1, 0, .single, 0x0, [⟨"COUNT", 0, 32, .rc, .live⟩]⟩,
  ⟨"COMMIT", 0xfc, 1, 0, 1, 0, .single, 0x0, [⟨"PEND", 4, 1, .ro, .live⟩, ⟨"HOLD", 3, 1, .rw, .live⟩, ⟨"ARMED", 2, 1, .ro, .live⟩, ⟨"DISCARD", 1, 1, .wo, .live⟩, ⟨"GO", 0, 1, .wo, .live⟩]⟩]

/-- Registers of block NI. -/
def regsNI : List RegDesc := [
  ⟨"CTL", 0x0, 1, 0, 1, 0, .single, 0x400002, [⟨"TMO", 16, 8, .rw, .shadow⟩, ⟨"CTX", 8, 7, .rw, .static⟩, ⟨"ORDCLR", 3, 1, .wo, .live⟩, ⟨"BCACC", 2, 1, .rw, .shadow⟩, ⟨"RETRYALT", 1, 1, .rw, .shadow⟩]⟩,
  ⟨"STATE", 0x4, 1, 0, 1, 0, .single, 0x4000, [⟨"OUTST", 16, 9, .ro, .live⟩, ⟨"RFREE", 8, 7, .ro, .live⟩, ⟨"CAUSE", 2, 2, .ro, .live⟩, ⟨"STATE", 0, 2, .ro, .live⟩]⟩,
  ⟨"STAT", 0x8, 1, 0, 1, 0, .single, 0x0, [⟨"STATICW", 9, 1, .w1c, .live⟩, ⟨"CTXREJ", 8, 1, .w1c, .live⟩, ⟨"BCCUT", 7, 1, .w1c, .live⟩, ⟨"ORDBRK", 6, 1, .w1c, .live⟩, ⟨"FABORT", 5, 1, .w1c, .live⟩, ⟨"TBLERR", 4, 1, .w1c, .live⟩, ⟨"ORPHAN", 3, 1, .w1c, .live⟩, ⟨"TMO", 2, 1, .w1c, .live⟩, ⟨"DENY", 1, 1, .w1c, .live⟩, ⟨"NOWIN", 0, 1, .w1c, .live⟩]⟩,
  ⟨"CNT", 0xc, 1, 0, 1, 0, .single, 0x0, [⟨"TMO", 24, 8, .rc, .live⟩, ⟨"ORPH", 16, 8, .rc, .live⟩, ⟨"BCREF", 8, 8, .rc, .live⟩, ⟨"BCABS", 0, 8, .rc, .live⟩]⟩,
  ⟨"CNT2", 0x10, 1, 0, 1, 0, .single, 0x0, [⟨"BOUNCEIN", 16, 16, .rc, .live⟩, ⟨"RETRY", 0, 16, .rc, .live⟩]⟩,
  ⟨"REG", 0x14, 1, 0, 1, 0, .single, 0x18, [⟨"RATE", 16, 11, .rw, .shadow⟩, ⟨"DEPTH", 0, 8, .rw, .shadow⟩]⟩,
  ⟨"REGSTAT", 0x18, 1, 0, 1, 0, .single, 0x0, [⟨"QLEN", 16, 8, .ro, .live⟩, ⟨"TOKENS", 0, 16, .ro, .live⟩]⟩,
  ⟨"TSEL", 0x1c, 1, 0, 1, 0, .single, 0x0, [⟨"BANK", 18, 1, .rw, .live⟩, ⟨"TABLE", 16, 2, .rw, .live⟩, ⟨"INDEX", 8, 8, .rw, .live⟩, ⟨"WORD", 0, 2, .rw, .live⟩]⟩,
  ⟨"TDATA_LO", 0x20, 1, 0, 1, 0, .lo, 0x0, [⟨"DATA", 0, 32, .rw, .live⟩]⟩,
  ⟨"TDATA_HI", 0x24, 1, 0, 1, 0, .hi, 0x0, [⟨"DATA", 0, 16, .rw, .live⟩]⟩,
  ⟨"TBL", 0x28, 1, 0, 1, 0, .single, 0x0, [⟨"BADSLOT", 5, 1, .ro, .live⟩, ⟨"BADROUTE", 4, 1, .ro, .live⟩, ⟨"BADWIN", 3, 1, .ro, .live⟩, ⟨"COPY", 2, 1, .ro, .live⟩]⟩,
  ⟨"COMMIT", 0xfc, 1, 0, 1, 0, .single, 0x0, [⟨"PEND", 4, 1, .ro, .live⟩, ⟨"HOLD", 3, 1, .rw, .live⟩, ⟨"ARMED", 2, 1, .ro, .live⟩, ⟨"DISCARD", 1, 1, .wo, .live⟩, ⟨"GO", 0, 1, .wo, .live⟩]⟩]

/-- Registers of block FLD, part 0. -/
def regsFLD_0 : List RegDesc := [
  ⟨"CTL", 0x0, 1, 0, 1, 0, .single, 0x104, [⟨"RESTART", 16, 1, .wo, .live⟩, ⟨"OVR_MAX", 8, 4, .rw, .shadow⟩, ⟨"IDLEGATE", 2, 1, .rw, .shadow⟩, ⟨"DONESRC", 1, 1, .rw, .shadow⟩, ⟨"LATE_POLICY", 0, 1, .rw, .shadow⟩]⟩,
  ⟨"FSTAT", 0x4, 1, 0, 1, 0, .single, 0x0, [⟨"NEEDREJ", 5, 1, .w1c, .live⟩, ⟨"STATICW", 4, 1, .w1c, .live⟩, ⟨"STUCK", 3, 1, .ro, .live⟩, ⟨"LATE", 2, 1, .ro, .live⟩, ⟨"DONE", 1, 1, .ro, .live⟩, ⟨"OVERRUN", 0, 1, .w1c, .live⟩]⟩,
  ⟨"NEED", 0x8, 1, 0, 1, 0, .single, 0x0, [⟨"CYC", 0, 24, .ro, .static⟩]⟩,
  ⟨"DONEAT", 0xc, 1, 0, 1, 0, .single, 0x0, [⟨"CYC", 0, 24, .rw, .shadow⟩]⟩,
  ⟨"BUDGET", 0x10, 1, 0, 1, 0, .single, 0x0, [⟨"CYC", 0, 24, .ro, .live⟩]⟩,
  ⟨"LASTDONE", 0x14, 1, 0, 1, 0, .single, 0x0, [⟨"CYC", 0, 24, .ro, .live⟩]⟩,
  ⟨"MAXDONE", 0x18, 1, 0, 1, 0, .single, 0x0, [⟨"CYC", 0, 24, .rc, .live⟩]⟩,
  ⟨"OVRCNT", 0x1c, 1, 0, 1, 0, .single, 0x0, [⟨"SKIP", 16, 16, .rc, .live⟩, ⟨"OVR", 0, 16, .rc, .live⟩]⟩,
  ⟨"CSEL", 0x40, 1, 0, 1, 0, .single, 0x0, [⟨"ENTRY", 18, 3, .rw, .live⟩, ⟨"ITEM", 14, 4, .rw, .live⟩, ⟨"CLUSTER", 6, 8, .rw, .live⟩, ⟨"CELL", 0, 6, .rw, .live⟩]⟩,
  ⟨"CDATA_LO", 0x44, 1, 0, 1, 0, .lo, 0x0, [⟨"DATA", 0, 32, .ro, .live⟩]⟩,
  ⟨"CDATA_HI", 0x48, 1, 0, 1, 0, .hi, 0x0, [⟨"DATA", 0, 16, .ro, .live⟩]⟩,
  ⟨"SATCYC", 0x4c, 1, 0, 1, 0, .single, 0x0, [⟨"COUNT", 0, 32, .rc, .live⟩]⟩,
  ⟨"SSEL", 0x50, 1, 0, 1, 0, .single, 0x0, [⟨"ENTRY", 14, 3, .rw, .live⟩, ⟨"ITEM", 9, 5, .rw, .live⟩, ⟨"SLICE", 0, 9, .rw, .live⟩]⟩,
  ⟨"SDATA_LO", 0x54, 1, 0, 1, 0, .lo, 0x0, [⟨"DATA", 0, 32, .ro, .live⟩]⟩,
  ⟨"SDATA_HI", 0x58, 1, 0, 1, 0, .hi, 0x0, [⟨"DATA", 0, 16, .ro, .live⟩]⟩,
  ⟨"ACCOVF", 0x5c, 1, 0, 1, 0, .single, 0x0, [⟨"COUNT", 0, 32, .rc, .live⟩]⟩,
  ⟨"CONTCTL", 0x64, 1, 0, 1, 0, .single, 0x1, [⟨"CLR", 1, 1, .wo, .live⟩, ⟨"AUTO", 0, 1, .rw, .live⟩]⟩,
  ⟨"CONTSTAT", 0x68, 1, 0, 1, 0, .single, 0x0, [⟨"TRIPS", 16, 8, .rc, .live⟩, ⟨"HELD", 15, 1, .ro, .live⟩, ⟨"HELDN", 7, 8, .ro, .live⟩, ⟨"LASTSEG", 0, 7, .ro, .live⟩]⟩,
  ⟨"FENCE", 0x6c, 1, 0, 1, 0, .single, 0x0, [⟨"N", 3, 1, .ro, .live⟩, ⟨"E", 2, 1, .ro, .live⟩, ⟨"S", 1, 1, .ro, .live⟩, ⟨"W", 0, 1, .ro, .live⟩]⟩,
  ⟨"PROBE", 0x70, 4, 4, 1, 0, .single, 0x0, [⟨"KIND", 16, 2, .rw, .live⟩, ⟨"CLUSTER", 8, 8, .rw, .live⟩, ⟨"INDEX", 0, 7, .rw, .live⟩]⟩]

/-- Registers of block FLD, part 1. -/
def regsFLD_1 : List RegDesc := [
  ⟨"BMPAT", 0x80, 1, 0, 1, 0, .single, 0x80000010, [⟨"EN", 31, 1, .rw, .live⟩, ⟨"INTERVAL", 0, 16, .rw, .live⟩]⟩,
  ⟨"BMINIT", 0x84, 1, 0, 1, 0, .single, 0x0, [⟨"REJ", 10, 1, .w1c, .live⟩, ⟨"BUSY", 9, 1, .ro, .live⟩, ⟨"GO", 8, 1, .wo, .live⟩, ⟨"BLOCK", 0, 8, .rw, .live⟩]⟩,
  ⟨"BMECC", 0x88, 1, 0, 1, 0, .single, 0x0, [⟨"CORR", 16, 16, .rc, .live⟩, ⟨"UNC", 8, 8, .rc, .live⟩]⟩,
  ⟨"BMELOC", 0x8c, 1, 0, 1, 0, .single, 0x0, [⟨"KIND", 30, 2, .ro, .live⟩, ⟨"SRC", 28, 2, .ro, .live⟩, ⟨"BLOCK", 19, 8, .ro, .live⟩, ⟨"WORD", 8, 11, .ro, .live⟩]⟩,
  ⟨"PROT", 0x90, 1, 0, 1, 0, .single, 0x2, [⟨"INSNAP", 2, 1, .rw, .shadow⟩, ⟨"CHKEN", 1, 1, .rw, .shadow⟩, ⟨"EN", 0, 1, .ro, .static⟩]⟩,
  ⟨"PROTSTAT", 0x94, 1, 0, 1, 0, .single, 0x0, [⟨"POSTREL", 5, 1, .w1c, .live⟩, ⟨"UNPROT", 4, 1, .w1c, .live⟩, ⟨"UNVER", 3, 1, .w1c, .live⟩, ⟨"FAILED", 2, 1, .w1c, .live⟩, ⟨"REPLAYING", 1, 1, .ro, .live⟩, ⟨"VERIFIED", 0, 1, .ro, .live⟩]⟩,
  ⟨"PCNT", 0x98, 1, 0, 1, 0, .single, 0x0, [⟨"FAIL", 24, 8, .rc, .live⟩, ⟨"UNVER", 16, 8, .rc, .live⟩, ⟨"REPLAY", 0, 16, .rc, .live⟩]⟩,
  ⟨"WMAX", 0x9c, 1, 0, 1, 0, .single, 0x0, [⟨"CYC", 0, 24, .ro, .live⟩]⟩,
  ⟨"BUFMAX", 0xa0, 1, 0, 1, 0, .single, 0x0, [⟨"BLOCK", 8, 8, .rc, .live⟩, ⟨"ENTRIES", 0, 7, .rc, .live⟩]⟩,
  ⟨"PQOUT", 0xa4, 6, 4, 1, 0, .single, 0x0, [⟨"SPINE", 0, 32, .rw, .static⟩]⟩,
  ⟨"SNAPADDR_LO", 0xbc, 1, 0, 1, 0, .lo, 0x0, [⟨"ADDR", 0, 32, .rw, .shadow⟩]⟩,
  ⟨"SNAPADDR_HI", 0xc0, 1, 0, 1, 0, .hi, 0x0, [⟨"ADDR", 0, 16, .rw, .shadow⟩]⟩,
  ⟨"SNAPSTAT", 0xc4, 1, 0, 1, 0, .single, 0x0, [⟨"TICK", 3, 12, .ro, .live⟩, ⟨"ERR", 2, 1, .w1c, .live⟩, ⟨"DRAIN", 1, 1, .ro, .live⟩, ⟨"DONE", 0, 1, .w1c, .live⟩]⟩,
  ⟨"QCWP", 0xc8, 1, 0, 1, 0, .single, 0x0, [⟨"CWP", 12, 12, .ro, .live⟩, ⟨"BLOCK", 0, 8, .rw, .live⟩]⟩,
  ⟨"COMMIT", 0xfc, 1, 0, 1, 0, .single, 0x0, [⟨"PEND", 4, 1, .ro, .live⟩, ⟨"HOLD", 3, 1, .rw, .live⟩, ⟨"ARMED", 2, 1, .ro, .live⟩, ⟨"DISCARD", 1, 1, .wo, .live⟩, ⟨"GO", 0, 1, .wo, .live⟩]⟩,
  ⟨"BM.CFG", 0x400, 192, 16, 1, 0, .single, 0x0, [⟨"MODE", 30, 2, .rw, .static⟩, ⟨"CODE", 29, 1, .rw, .static⟩, ⟨"SIZEL", 26, 3, .rw, .static⟩, ⟨"BASE", 15, 11, .rw, .static⟩, ⟨"STAMP", 13, 2, .rw, .static⟩, ⟨"SPORT", 12, 1, .rw, .static⟩, ⟨"PATROL", 11, 1, .rw, .live⟩, ⟨"MSGL", 7, 4, .rw, .static⟩, ⟨"MBSRC", 6, 1, .rw, .static⟩, ⟨"INITD", 5, 1, .rw, .live⟩]⟩,
  ⟨"BM.WM", 0x404, 192, 16, 1, 0, .single, 0x800000, [⟨"HWM", 12, 12, .rw, .shadow⟩, ⟨"LWM", 0, 12, .rw, .shadow⟩]⟩,
  ⟨"BM.Q", 0x408, 192, 16, 1, 0, .single, 0x0, [⟨"PCONF", 29, 1, .w1c, .live⟩, ⟨"BADCMD", 28, 1, .w1c, .live⟩, ⟨"STOP", 27, 1, .ro, .live⟩, ⟨"OVW", 26, 1, .w1c, .live⟩, ⟨"UNF", 25, 1, .w1c, .live⟩, ⟨"OVF", 24, 1, .w1c, .live⟩, ⟨"RP", 12, 12, .ro, .live⟩, ⟨"WP", 0, 12, .ro, .live⟩]⟩,
  ⟨"BM.Q2", 0x40c, 192, 16, 1, 0, .single, 0x0, [⟨"OCC", 12, 12, .ro, .live⟩, ⟨"CRP", 0, 12, .ro, .live⟩]⟩]

/-- Registers of block FLD. -/
def regsFLD : List RegDesc := regsFLD_0 ++ regsFLD_1

/-- Registers of block CFG. -/
def regsCFG : List RegDesc := [
  ⟨"CTL", 0x0, 1, 0, 1, 0, .single, 0x0, [⟨"GOLDBUILD", 5, 1, .wo, .live⟩, ⟨"ABORT", 4, 1, .wo, .live⟩, ⟨"GOSRC", 1, 1, .rw, .live⟩, ⟨"STOREEN", 0, 1, .rw, .live⟩]⟩,
  ⟨"STATUS", 0x4, 1, 0, 1, 0, .single, 0x0, [⟨"OPEN", 17, 1, .ro, .live⟩, ⟨"STOREOK", 16, 1, .ro, .live⟩, ⟨"BADSTRAP", 15, 1, .ro, .live⟩, ⟨"BOOT", 13, 2, .ro, .live⟩, ⟨"FLASHSLOT", 12, 1, .ro, .live⟩, ⟨"DIRECT", 11, 1, .ro, .live⟩, ⟨"GBUSY", 10, 1, .ro, .live⟩, ⟨"KIND", 9, 1, .ro, .live⟩, ⟨"PHASE", 0, 4, .ro, .live⟩]⟩,
  ⟨"ERR", 0x8, 1, 0, 1, 0, .single, 0x0, [⟨"ABORTLATE", 17, 1, .w1c, .live⟩, ⟨"STATICW", 16, 1, .w1c, .live⟩, ⟨"DETAIL", 8, 8, .ro, .live⟩, ⟨"CODE", 0, 8, .ro, .live⟩]⟩,
  ⟨"ERRLOC", 0xc, 1, 0, 1, 0, .single, 0x0, [⟨"FIELD", 16, 5, .ro, .live⟩, ⟨"ITEM", 0, 16, .ro, .live⟩]⟩,
  ⟨"WORDS", 0x10, 1, 0, 1, 0, .single, 0x0, [⟨"COUNT", 0, 25, .ro, .live⟩]⟩,
  ⟨"FIELDS", 0x14, 1, 0, 1, 0, .single, 0x0, [⟨"DEV", 24, 1, .ro, .live⟩, ⟨"MAP", 0, 24, .ro, .live⟩]⟩,
  ⟨"RESHAPE", 0x18, 1, 0, 1, 0, .single, 0x0, [⟨"DEV", 24, 1, .ro, .live⟩, ⟨"MAP", 0, 24, .ro, .live⟩]⟩,
  ⟨"OPMIN", 0x1c, 1, 0, 1, 0, .single, 0x0, [⟨"DEV", 0, 2, .ro, .live⟩]⟩,
  ⟨"STORE_LO", 0x20, 1, 0, 1, 0, .lo, 0x0, [⟨"ADDR", 0, 32, .rw, .static⟩]⟩,
  ⟨"STORE_HI", 0x24, 1, 0, 1, 0, .hi, 0x0, [⟨"ADDR", 0, 16, .rw, .static⟩]⟩,
  ⟨"SLOT", 0x28, 1, 0, 1, 0, .single, 0x0, [⟨"DEV", 24, 1, .ro, .live⟩, ⟨"MAP", 0, 24, .ro, .live⟩]⟩,
  ⟨"GVALID", 0x2c, 1, 0, 1, 0, .single, 0x0, [⟨"DEV", 24, 1, .ro, .live⟩, ⟨"MAP", 0, 24, .ro, .live⟩]⟩,
  ⟨"OWNERSTAT", 0x30, 1, 0, 1, 0, .single, 0x0, [⟨"MATCHV", 10, 1, .ro, .live⟩, ⟨"MATCH", 8, 2, .ro, .live⟩, ⟨"REVOKED", 4, 4, .ro, .live⟩, ⟨"PROG", 0, 4, .ro, .live⟩]⟩,
  ⟨"COMMIT", 0xfc, 1, 0, 1, 0, .single, 0x0, [⟨"PEND", 4, 1, .ro, .live⟩, ⟨"HOLD", 3, 1, .rw, .live⟩, ⟨"ARMED", 2, 1, .ro, .live⟩, ⟨"DISCARD", 1, 1, .wo, .live⟩, ⟨"GO", 0, 1, .wo, .live⟩]⟩]

/-- Registers of block SCR. -/
def regsSCR : List RegDesc := [
  ⟨"CTL", 0x0, 1, 0, 1, 0, .single, 0xb, [⟨"SCANEN", 3, 1, .rw, .shadow⟩, ⟨"UNCPOL", 2, 1, .rw, .shadow⟩, ⟨"GOLDEN", 1, 1, .rw, .live⟩, ⟨"EN", 0, 1, .rw, .live⟩]⟩,
  ⟨"SCAN", 0x4, 1, 0, 1, 0, .single, 0x10, [⟨"INTERVAL", 0, 16, .rw, .shadow⟩]⟩,
  ⟨"STAT", 0x8, 1, 0, 1, 0, .single, 0x0, [⟨"QOVF", 5, 1, .w1c, .live⟩, ⟨"QLEN", 0, 5, .ro, .live⟩]⟩,
  ⟨"CNT", 0xc, 1, 0, 1, 0, .single, 0x0, [⟨"CORR", 16, 16, .rc, .live⟩, ⟨"GOLD", 8, 8, .rc, .live⟩, ⟨"UNC", 0, 8, .rc, .live⟩]⟩,
  ⟨"CNT2", 0x10, 1, 0, 1, 0, .single, 0x0, [⟨"ESCAPE", 0, 16, .rc, .live⟩]⟩,
  ⟨"LAST", 0x14, 1, 0, 1, 0, .single, 0x0, [⟨"KIND", 30, 2, .ro, .live⟩, ⟨"ESC", 29, 1, .ro, .live⟩, ⟨"FIELD", 24, 5, .ro, .live⟩, ⟨"FRAME", 12, 12, .ro, .live⟩, ⟨"ILV", 0, 6, .ro, .live⟩]⟩,
  ⟨"UNCFG", 0x18, 1, 0, 1, 0, .single, 0x0, [⟨"MAP", 0, 24, .ro, .live⟩]⟩,
  ⟨"SWEEP", 0x1c, 1, 0, 1, 0, .single, 0x0, [⟨"MAXNS", 0, 16, .rc, .live⟩]⟩,
  ⟨"COMMIT", 0xfc, 1, 0, 1, 0, .single, 0x0, [⟨"PEND", 4, 1, .ro, .live⟩, ⟨"HOLD", 3, 1, .rw, .live⟩, ⟨"ARMED", 2, 1, .ro, .live⟩, ⟨"DISCARD", 1, 1, .wo, .live⟩, ⟨"GO", 0, 1, .wo, .live⟩]⟩]

/-- Registers of block DRC, part 0. -/
def regsDRC_0 : List RegDesc := [
  ⟨"CTL", 0x0, 1, 0, 1, 0, .single, 0x18000000, [⟨"EN", 31, 1, .rw, .live⟩, ⟨"UNFREEZE", 30, 1, .wo, .live⟩, ⟨"FREEZEPOL", 29, 1, .rw, .static⟩, ⟨"WRCRC", 28, 1, .rw, .static⟩, ⟨"CAPAR", 27, 1, .rw, .static⟩]⟩,
  ⟨"CFG", 0x4, 1, 0, 1, 0, .single, 0x1, [⟨"RATE", 3, 3, .rw, .static⟩, ⟨"RANKS", 2, 1, .rw, .static⟩, ⟨"DENS", 0, 2, .rw, .static⟩]⟩,
  ⟨"STAT", 0x8, 1, 0, 1, 0, .single, 0x0, [⟨"INITERR", 8, 4, .ro, .live⟩, ⟨"SRFOK", 7, 1, .ro, .live⟩, ⟨"STATE", 0, 3, .ro, .live⟩]⟩,
  ⟨"ERR", 0xc, 1, 0, 1, 0, .single, 0x0, [⟨"STATICW", 6, 1, .w1c, .live⟩, ⟨"TRAINFAIL", 5, 1, .w1c, .live⟩, ⟨"FORCEDRT", 4, 1, .w1c, .live⟩, ⟨"DRIFT", 3, 1, .w1c, .live⟩, ⟨"FROZE", 2, 1, .w1c, .live⟩, ⟨"WRCRC", 1, 1, .w1c, .live⟩, ⟨"CAPAR", 0, 1, .w1c, .live⟩]⟩,
  ⟨"CNT", 0x10, 1, 0, 1, 0, .single, 0x0, [⟨"REPLAY", 16, 16, .rc, .live⟩, ⟨"CAPAR", 8, 8, .rc, .live⟩, ⟨"WRCRC", 0, 8, .rc, .live⟩]⟩,
  ⟨"AMAP", 0x18, 1, 0, 1, 0, .single, 0xb, [⟨"HASH", 4, 1, .rw, .static⟩, ⟨"GRAN", 2, 2, .rw, .static⟩, ⟨"NCH", 0, 2, .rw, .static⟩]⟩,
  ⟨"TIMING0", 0x20, 1, 0, 1, 0, .single, 0x28262727, [⟨"CL", 24, 8, .rw, .static⟩, ⟨"CWL", 16, 8, .rw, .static⟩, ⟨"TRCD", 8, 8, .rw, .static⟩, ⟨"TRP", 0, 8, .rw, .static⟩]⟩,
  ⟨"TIMING1", 0x24, 1, 0, 1, 0, .single, 0x2424744d, [⟨"TWR", 23, 9, .rw, .static⟩, ⟨"TRTP", 17, 6, .rw, .static⟩, ⟨"TRC", 8, 9, .rw, .static⟩, ⟨"TRAS", 0, 8, .rw, .static⟩]⟩,
  ⟨"TIMING2", 0x28, 1, 0, 1, 0, .single, 0x1b03d8, [⟨"TRFCSB", 12, 12, .rw, .static⟩, ⟨"TRFC", 0, 12, .rw, .static⟩]⟩,
  ⟨"TIMING3", 0x2c, 1, 0, 1, 0, .single, 0x3f02490, [⟨"TXS", 16, 12, .rw, .static⟩, ⟨"TREFI", 0, 16, .rw, .static⟩]⟩,
  ⟨"TIMING4", 0x30, 1, 0, 1, 0, .single, 0xc080c08, [⟨"TCCDL", 24, 8, .rw, .static⟩, ⟨"TCCDS", 16, 8, .rw, .static⟩, ⟨"TRRDL", 8, 8, .rw, .static⟩, ⟨"TRRDS", 0, 8, .rw, .static⟩]⟩,
  ⟨"TIMING5", 0x34, 1, 0, 1, 0, .single, 0x18062030, [⟨"TWTRL", 24, 8, .rw, .static⟩, ⟨"TWTRS", 16, 8, .rw, .static⟩, ⟨"TFAW", 8, 8, .rw, .static⟩, ⟨"TCCDLWR", 0, 8, .rw, .static⟩]⟩,
  ⟨"TIMING6", 0x38, 1, 0, 1, 0, .single, 0x4880, [⟨"TXP", 10, 8, .rw, .static⟩, ⟨"TALERT", 0, 10, .rw, .static⟩]⟩,
  ⟨"PAGE", 0x40, 1, 0, 1, 0, .single, 0x40, [⟨"IDLE", 0, 10, .rw, .live⟩]⟩,
  ⟨"REF", 0x44, 1, 0, 1, 0, .single, 0x0, [⟨"EFF", 4, 2, .ro, .live⟩, ⟨"MULT", 0, 2, .rw, .live⟩]⟩,
  ⟨"RETRAIN", 0x48, 1, 0, 1, 0, .single, 0x408, [⟨"NOW", 31, 1, .wo, .live⟩, ⟨"DRIFTTHR", 8, 8, .rw, .shadow⟩, ⟨"INTERVAL", 0, 7, .rw, .shadow⟩]⟩,
  ⟨"MAINT", 0x4c, 1, 0, 1, 0, .single, 0x28, [⟨"WLEN", 0, 10, .rw, .shadow⟩]⟩,
  ⟨"BW", 0x50, 1, 0, 1, 0, .single, 0x0, [⟨"LINES", 0, 32, .rc, .live⟩]⟩,
  ⟨"DQS", 0x54, 1, 0, 1, 0, .single, 0x0, [⟨"COMP", 8, 8, .ro, .live⟩, ⟨"DRIFT", 0, 8, .ro, .live⟩]⟩,
  ⟨"PORT", 0x80, 16, 4, 1, 0, .single, 0x0, [⟨"TARGET", 0, 9, .rw, .shadow⟩]⟩]

/-- Registers of block DRC, part 1. -/
def regsDRC_1 : List RegDesc := [
  ⟨"COMMIT", 0xfc, 1, 0, 1, 0, .single, 0x0, [⟨"PEND", 4, 1, .ro, .live⟩, ⟨"HOLD", 3, 1, .rw, .live⟩, ⟨"ARMED", 2, 1, .ro, .live⟩, ⟨"DISCARD", 1, 1, .wo, .live⟩, ⟨"GO", 0, 1, .wo, .live⟩]⟩,
  ⟨"PORTMAP", 0x100, 16, 4, 1, 0, .single, 0x0, [⟨"PORT", 0, 32, .rw, .shadow⟩]⟩,
  ⟨"PORTCNT", 0x140, 16, 4, 1, 0, .single, 0x0, [⟨"MISS", 16, 16, .rc, .live⟩, ⟨"MAXLAT", 0, 16, .rc, .live⟩]⟩]

/-- Registers of block DRC. -/
def regsDRC : List RegDesc := regsDRC_0 ++ regsDRC_1

/-- Registers of block MIG, part 0. -/
def regsMIG_0 : List RegDesc := [
  ⟨"CTL", 0x0, 1, 0, 1, 0, .single, 0x7, [⟨"GCOMB", 2, 1, .rw, .shadow⟩, ⟨"RECON", 1, 1, .rw, .shadow⟩, ⟨"DWB", 0, 1, .rw, .shadow⟩]⟩,
  ⟨"STAT", 0x4, 1, 0, 1, 0, .single, 0x0, [⟨"REMAPFULL", 4, 1, .w1c, .live⟩, ⟨"EXCLBAD", 3, 1, .w1c, .live⟩, ⟨"REGBAD", 2, 1, .w1c, .live⟩, ⟨"RMWFAIL", 1, 1, .w1c, .live⟩, ⟨"UNCORR", 0, 1, .w1c, .live⟩]⟩,
  ⟨"CNT", 0x10, 8, 4, 1, 0, .single, 0x0, [⟨"CORR", 16, 16, .rc, .live⟩, ⟨"UNC", 8, 8, .rc, .live⟩, ⟨"RECON", 0, 8, .rc, .live⟩]⟩,
  ⟨"CNT2", 0x30, 8, 4, 1, 0, .single, 0x0, [⟨"RMWFAIL", 16, 16, .rc, .live⟩, ⟨"EXCLHIT", 0, 16, .rc, .live⟩]⟩,
  ⟨"ERASE", 0x50, 8, 4, 1, 0, .single, 0x0, [⟨"EN1", 15, 1, .rw, .live⟩, ⟨"COMP1", 8, 4, .rw, .live⟩, ⟨"EN0", 7, 1, .rw, .live⟩, ⟨"COMP0", 0, 4, .rw, .live⟩]⟩,
  ⟨"ELOC", 0x70, 8, 4, 1, 0, .single, 0x0, [⟨"KIND", 30, 2, .ro, .live⟩, ⟨"RANK", 29, 1, .ro, .live⟩, ⟨"BG", 26, 3, .ro, .live⟩, ⟨"BANK", 24, 2, .ro, .live⟩, ⟨"ROW", 7, 17, .ro, .live⟩, ⟨"LINE", 0, 7, .ro, .live⟩]⟩,
  ⟨"ESYM", 0x90, 8, 4, 1, 0, .single, 0x0, [⟨"BEATS", 16, 16, .ro, .live⟩, ⟨"SYMS", 0, 16, .ro, .live⟩]⟩,
  ⟨"PATROL", 0xb0, 8, 4, 1, 0, .single, 0xa, [⟨"EN", 31, 1, .rw, .live⟩, ⟨"INTERVAL", 0, 16, .rw, .live⟩]⟩,
  ⟨"PATPOS", 0xd0, 8, 4, 1, 0, .single, 0x0, [⟨"LINE", 0, 30, .ro, .live⟩]⟩,
  ⟨"COMMIT", 0xfc, 1, 0, 1, 0, .single, 0x0, [⟨"PEND", 4, 1, .ro, .live⟩, ⟨"HOLD", 3, 1, .rw, .live⟩, ⟨"ARMED", 2, 1, .ro, .live⟩, ⟨"DISCARD", 1, 1, .wo, .live⟩, ⟨"GO", 0, 1, .wo, .live⟩]⟩,
  ⟨"INITCTL", 0x100, 8, 4, 1, 0, .single, 0x0, [⟨"AUTO", 31, 1, .rw, .live⟩, ⟨"BUSY", 30, 1, .ro, .live⟩, ⟨"DONE", 29, 1, .w1c, .live⟩]⟩,
  ⟨"EXCL.CTL", 0x400, 64, 32, 1, 0, .single, 0x0, [⟨"EN", 31, 1, .rw, .shadow⟩, ⟨"SPARE", 30, 1, .rw, .shadow⟩, ⟨"KIND", 29, 1, .rw, .shadow⟩]⟩,
  ⟨"EXCL.A_LO", 0x404, 64, 32, 1, 0, .lo, 0x0, [⟨"A", 0, 32, .rw, .shadow⟩]⟩,
  ⟨"EXCL.A_HI", 0x408, 64, 32, 1, 0, .hi, 0x0, [⟨"A", 0, 16, .rw, .shadow⟩]⟩,
  ⟨"EXCL.B_LO", 0x40c, 64, 32, 1, 0, .lo, 0x0, [⟨"B", 0, 32, .rw, .shadow⟩]⟩,
  ⟨"EXCL.B_HI", 0x410, 64, 32, 1, 0, .hi, 0x0, [⟨"B", 0, 16, .rw, .shadow⟩]⟩,
  ⟨"REGION.CTL", 0xc00, 32, 32, 1, 0, .single, 0x0, [⟨"EN", 31, 1, .rw, .shadow⟩, ⟨"PATROL", 30, 1, .rw, .shadow⟩, ⟨"CODE", 29, 1, .rw, .shadow⟩, ⟨"CRYPTO", 27, 2, .rw, .shadow⟩, ⟨"KEYID", 0, 6, .rw, .shadow⟩]⟩,
  ⟨"REGION.BASE_LO", 0xc04, 32, 32, 1, 0, .lo, 0x0, [⟨"BASE", 0, 32, .rw, .shadow⟩]⟩,
  ⟨"REGION.BASE_HI", 0xc08, 32, 32, 1, 0, .hi, 0x0, [⟨"BASE", 0, 16, .rw, .shadow⟩]⟩,
  ⟨"REGION.LIMIT_LO", 0xc0c, 32, 32, 1, 0, .lo, 0x0, [⟨"LIMIT", 0, 32, .rw, .shadow⟩]⟩]

/-- Registers of block MIG, part 1. -/
def regsMIG_1 : List RegDesc := [
  ⟨"REGION.LIMIT_HI", 0xc10, 32, 32, 1, 0, .hi, 0x0, [⟨"LIMIT", 0, 16, .rw, .shadow⟩]⟩,
  ⟨"REMAP.FROM", 0x1000, 16, 8, 8, 256, .single, 0x0, [⟨"VALID", 31, 1, .rw, .live⟩, ⟨"LOST", 30, 1, .ro, .live⟩, ⟨"LINE", 0, 30, .rw, .live⟩]⟩,
  ⟨"REMAP.TO", 0x1004, 16, 8, 8, 256, .single, 0x0, [⟨"AUTO", 31, 1, .ro, .live⟩, ⟨"BUSY", 30, 1, .ro, .live⟩, ⟨"LINE", 0, 30, .rw, .live⟩]⟩]

/-- Registers of block MIG. -/
def regsMIG : List RegDesc := regsMIG_0 ++ regsMIG_1

/-- Registers of block CRY. -/
def regsCRY : List RegDesc := [
  ⟨"CTL", 0x0, 1, 0, 1, 0, .single, 0x0, [⟨"FLUSH", 1, 1, .wo, .live⟩, ⟨"EN", 0, 1, .rw, .live⟩]⟩,
  ⟨"STAT", 0x4, 1, 0, 1, 0, .single, 0x0, [⟨"FLUSHING", 6, 1, .ro, .live⟩, ⟨"KEYREJ", 5, 1, .w1c, .live⟩, ⟨"HOLDTMO", 4, 1, .w1c, .live⟩, ⟨"CTRWR", 3, 1, .w1c, .live⟩, ⟨"CFGBAD", 2, 1, .w1c, .live⟩, ⟨"KEYFAIL", 1, 1, .w1c, .live⟩, ⟨"STATICW", 0, 1, .w1c, .live⟩]⟩,
  ⟨"RENEW_THRESH", 0x8, 1, 0, 1, 0, .single, 0xfff00000, [⟨"THRESH", 0, 32, .rw, .shadow⟩]⟩,
  ⟨"HOLD", 0xc, 1, 0, 1, 0, .single, 0x64, [⟨"MAX", 0, 16, .rw, .shadow⟩]⟩,
  ⟨"RNREQ", 0x10, 1, 0, 1, 0, .single, 0x0, [⟨"REQ", 0, 32, .w1c, .live⟩]⟩,
  ⟨"RNURG", 0x14, 1, 0, 1, 0, .single, 0x0, [⟨"URG", 0, 32, .ro, .live⟩]⟩,
  ⟨"RN", 0x18, 1, 0, 1, 0, .single, 0x0, [⟨"ACTIVE", 31, 1, .ro, .live⟩, ⟨"STW", 30, 1, .ro, .live⟩, ⟨"REGION", 18, 5, .ro, .live⟩, ⟨"NEWKEY", 6, 6, .ro, .live⟩, ⟨"OLDKEY", 0, 6, .ro, .live⟩]⟩,
  ⟨"RPTR_LO", 0x20, 1, 0, 1, 0, .lo, 0x0, [⟨"PTR", 0, 32, .ro, .live⟩]⟩,
  ⟨"RPTR_HI", 0x24, 1, 0, 1, 0, .hi, 0x0, [⟨"PTR", 0, 16, .ro, .live⟩]⟩,
  ⟨"RNCNT", 0x28, 1, 0, 1, 0, .single, 0x0, [⟨"LOST", 16, 16, .rc, .live⟩, ⟨"EARLY", 0, 16, .rc, .live⟩]⟩,
  ⟨"CNT", 0x2c, 1, 0, 1, 0, .single, 0x0, [⟨"TAGFAIL", 16, 16, .rc, .live⟩, ⟨"MISS", 0, 16, .rc, .live⟩]⟩,
  ⟨"KEYSTAT", 0x40, 8, 4, 1, 0, .single, 0x0, [⟨"STATE", 28, 4, .ro, .live⟩, ⟨"STATE", 24, 4, .ro, .live⟩, ⟨"STATE", 20, 4, .ro, .live⟩, ⟨"STATE", 16, 4, .ro, .live⟩, ⟨"STATE", 12, 4, .ro, .live⟩, ⟨"STATE", 8, 4, .ro, .live⟩, ⟨"STATE", 4, 4, .ro, .live⟩, ⟨"STATE", 0, 4, .ro, .live⟩]⟩,
  ⟨"KEYCTL", 0x60, 1, 0, 1, 0, .single, 0x0, [⟨"OP", 8, 2, .wo, .live⟩, ⟨"KEYID", 0, 6, .wo, .live⟩]⟩,
  ⟨"CFGKEY", 0x64, 1, 0, 1, 0, .single, 0x0, [⟨"LOADED", 0, 1, .ro, .live⟩]⟩,
  ⟨"COMMIT", 0xfc, 1, 0, 1, 0, .single, 0x0, [⟨"PEND", 4, 1, .ro, .live⟩, ⟨"HOLD", 3, 1, .rw, .live⟩, ⟨"ARMED", 2, 1, .ro, .live⟩, ⟨"DISCARD", 1, 1, .wo, .live⟩, ⟨"GO", 0, 1, .wo, .live⟩]⟩,
  ⟨"RGN.CTRBASE_LO", 0x100, 32, 8, 1, 0, .lo, 0x0, [⟨"ADDR", 0, 32, .rw, .shadow⟩]⟩,
  ⟨"RGN.CTRBASE_HI", 0x104, 32, 8, 1, 0, .hi, 0x0, [⟨"ADDR", 0, 16, .rw, .shadow⟩]⟩,
  ⟨"RIGHTS.CTL", 0x400, 128, 16, 1, 0, .single, 0x7, [⟨"RAW", 3, 1, .rw, .shadow⟩, ⟨"PLAIN", 2, 1, .rw, .shadow⟩, ⟨"W", 1, 1, .rw, .shadow⟩, ⟨"R", 0, 1, .rw, .shadow⟩]⟩,
  ⟨"RIGHTS.MASK0", 0x404, 128, 16, 1, 0, .single, 0x0, [⟨"KEYS", 0, 32, .rw, .shadow⟩]⟩,
  ⟨"RIGHTS.MASK1", 0x408, 128, 16, 1, 0, .single, 0x0, [⟨"KEYS", 0, 32, .rw, .shadow⟩]⟩]

/-- Registers of block LANE. -/
def regsLANE : List RegDesc := [
  ⟨"CTL", 0x0, 1, 0, 1, 0, .single, 0x0, [⟨"EN", 31, 1, .rw, .live⟩, ⟨"EIDLE", 30, 1, .rw, .live⟩, ⟨"SLIP", 20, 10, .wo, .live⟩]⟩,
  ⟨"CFG", 0x4, 1, 0, 1, 0, .single, 0x0, [⟨"RXINV", 9, 1, .rw, .static⟩, ⟨"TXINV", 8, 1, .rw, .static⟩, ⟨"RATE", 3, 3, .rw, .static⟩, ⟨"USE", 0, 3, .rw, .static⟩]⟩,
  ⟨"STAT", 0x8, 1, 0, 1, 0, .single, 0x0, [⟨"STATICW", 8, 1, .w1c, .live⟩, ⟨"HIBER", 7, 1, .ro, .live⟩, ⟨"POLINV", 6, 1, .ro, .live⟩, ⟨"EIDLE", 5, 1, .ro, .live⟩, ⟨"RXIDLE", 4, 1, .ro, .live⟩, ⟨"BLKLOCK", 3, 1, .ro, .live⟩, ⟨"CDRLOCK", 2, 1, .ro, .live⟩, ⟨"LOSS", 1, 1, .w1c, .live⟩]⟩,
  ⟨"CTLE", 0xc, 1, 0, 1, 0, .single, 0x1010, [⟨"HOLD", 31, 1, .rw, .live⟩, ⟨"INIT", 8, 5, .rw, .static⟩, ⟨"STEP", 0, 5, .rw, .live⟩]⟩,
  ⟨"EYE", 0x10, 1, 0, 1, 0, .single, 0x0, [⟨"VALID", 31, 1, .ro, .live⟩, ⟨"HEIGHT", 8, 8, .ro, .live⟩, ⟨"WIDTH", 0, 7, .ro, .live⟩]⟩,
  ⟨"LAT", 0x14, 1, 0, 1, 0, .single, 0x0, [⟨"RX", 16, 16, .ro, .live⟩, ⟨"TX", 0, 16, .ro, .live⟩]⟩,
  ⟨"CNT", 0x18, 1, 0, 1, 0, .single, 0x0, [⟨"BADSH", 16, 16, .rc, .live⟩, ⟨"ERRBLK", 0, 16, .rc, .live⟩]⟩,
  ⟨"PRBS", 0x1c, 1, 0, 1, 0, .single, 0x0, [⟨"GEN", 31, 1, .rw, .live⟩, ⟨"CHK", 30, 1, .rw, .live⟩, ⟨"PAT", 29, 1, .rw, .live⟩, ⟨"SYNC", 28, 1, .ro, .live⟩]⟩,
  ⟨"PRBSCNT", 0x20, 1, 0, 1, 0, .single, 0x0, [⟨"ERRS", 0, 32, .rc, .live⟩]⟩,
  ⟨"RXADDR_LO", 0x24, 1, 0, 1, 0, .lo, 0x0, [⟨"ADDR", 0, 32, .rw, .static⟩]⟩,
  ⟨"RXADDR_HI", 0x28, 1, 0, 1, 0, .hi, 0x0, [⟨"ADDR", 0, 16, .rw, .static⟩]⟩,
  ⟨"RXCTL", 0x2c, 1, 0, 1, 0, .single, 0x0, [⟨"GUAR", 6, 1, .rw, .static⟩, ⟨"IDLEDROP", 5, 1, .rw, .static⟩, ⟨"RINGL", 0, 5, .rw, .static⟩]⟩,
  ⟨"RAWCNT", 0x30, 1, 0, 1, 0, .single, 0x0, [⟨"TXDROP", 24, 8, .rc, .live⟩, ⟨"RXOVF", 16, 8, .rc, .live⟩, ⟨"RXWERR", 8, 8, .rc, .live⟩, ⟨"UNDERRUN", 0, 8, .rc, .live⟩]⟩,
  ⟨"COMMIT", 0xfc, 1, 0, 1, 0, .single, 0x0, [⟨"PEND", 4, 1, .ro, .live⟩, ⟨"HOLD", 3, 1, .rw, .live⟩, ⟨"ARMED", 2, 1, .ro, .live⟩, ⟨"DISCARD", 1, 1, .wo, .live⟩, ⟨"GO", 0, 1, .wo, .live⟩]⟩]

/-- Registers of block STG. -/
def regsSTG : List RegDesc := [
  ⟨"CTL", 0x0, 1, 0, 1, 0, .single, 0x4a0a8100, [⟨"EN", 31, 1, .rw, .live⟩, ⟨"AUTOTRAIN", 30, 1, .rw, .static⟩, ⟨"FALLBACK", 29, 1, .rw, .static⟩, ⟨"WIDTH", 28, 1, .rw, .static⟩, ⟨"RATE", 25, 3, .rw, .static⟩, ⟨"EIDLE", 24, 1, .rw, .live⟩, ⟨"TRAINTMO", 16, 8, .rw, .shadow⟩, ⟨"REPLAYMAX", 12, 4, .rw, .shadow⟩, ⟨"REPLAYTMO", 0, 12, .rw, .shadow⟩]⟩,
  ⟨"STAT", 0x4, 1, 0, 1, 0, .single, 0x0, [⟨"PEERDEV", 20, 8, .ro, .live⟩, ⟨"POLMAP", 12, 8, .ro, .live⟩, ⟨"REVERSED", 11, 1, .ro, .live⟩, ⟨"WIDTHNOW", 10, 1, .ro, .live⟩, ⟨"DUPDEV", 9, 1, .ro, .live⟩, ⟨"FAIL", 3, 3, .ro, .live⟩, ⟨"STATE", 0, 3, .ro, .live⟩]⟩,
  ⟨"ERR", 0x8, 1, 0, 1, 0, .single, 0x0, [⟨"STATICW", 4, 1, .w1c, .live⟩, ⟨"DISCARD", 3, 1, .w1c, .live⟩, ⟨"REPLAYLIM", 2, 1, .w1c, .live⟩, ⟨"TRAINFAIL", 1, 1, .w1c, .live⟩, ⟨"CRC", 0, 1, .w1c, .live⟩]⟩,
  ⟨"CNT", 0xc, 1, 0, 1, 0, .single, 0x0, [⟨"CRCERR", 16, 16, .rc, .live⟩, ⟨"REPLAY", 0, 16, .rc, .live⟩]⟩,
  ⟨"CNT2", 0x10, 1, 0, 1, 0, .single, 0x0, [⟨"NAKTX", 16, 16, .rc, .live⟩, ⟨"DOWNS", 8, 8, .rc, .live⟩, ⟨"DISC", 0, 8, .rc, .live⟩]⟩,
  ⟨"ONEWAY", 0x14, 1, 0, 1, 0, .single, 0x0, [⟨"DLY", 0, 32, .ro, .live⟩]⟩,
  ⟨"OFFSET", 0x18, 1, 0, 1, 0, .single, 0x0, [⟨"THETA", 0, 32, .ro, .live⟩]⟩,
  ⟨"FWD", 0x1c, 1, 0, 1, 0, .single, 0x0, [⟨"OPEN", 0, 9, .ro, .live⟩]⟩,
  ⟨"COMMIT", 0xfc, 1, 0, 1, 0, .single, 0x0, [⟨"PEND", 4, 1, .ro, .live⟩, ⟨"HOLD", 3, 1, .rw, .live⟩, ⟨"ARMED", 2, 1, .ro, .live⟩, ⟨"DISCARD", 1, 1, .wo, .live⟩, ⟨"GO", 0, 1, .wo, .live⟩]⟩]

/-- Registers of block STW. -/
def regsSTW : List RegDesc := [
  ⟨"CTL", 0x0, 1, 0, 1, 0, .single, 0x0, [⟨"OBS", 0, 1, .rw, .shadow⟩]⟩,
  ⟨"STAT", 0x4, 1, 0, 1, 0, .single, 0x0, [⟨"RESTARTS", 0, 8, .rc, .live⟩]⟩,
  ⟨"FW", 0x8, 1, 0, 1, 0, .single, 0x0, [⟨"ROMREV", 24, 8, .ro, .live⟩, ⟨"PATCHREV", 16, 8, .ro, .live⟩, ⟨"PATCHID", 0, 16, .ro, .live⟩]⟩,
  ⟨"WD_CTL", 0x10, 1, 0, 1, 0, .single, 0x40003e8, [⟨"EN", 31, 1, .rw, .live⟩, ⟨"ACTION", 28, 2, .rw, .shadow⟩, ⟨"KSRC", 26, 2, .rw, .shadow⟩, ⟨"FLINE", 16, 6, .rw, .shadow⟩, ⟨"PERIOD", 0, 16, .rw, .shadow⟩]⟩,
  ⟨"WD_STAT", 0x14, 1, 0, 1, 0, .single, 0x0, [⟨"HALTSEEN", 31, 1, .w1c, .live⟩, ⟨"EXPIRED", 30, 1, .w1c, .live⟩, ⟨"SAFEOUT", 29, 1, .ro, .live⟩, ⟨"EXPCNT", 16, 8, .rc, .live⟩, ⟨"REMAIN", 0, 16, .ro, .live⟩]⟩,
  ⟨"MWIN", 0x20, 1, 0, 1, 0, .single, 0x80010000, [⟨"EN", 31, 1, .rw, .live⟩, ⟨"STAGGER", 16, 1, .rw, .live⟩, ⟨"OFFS", 0, 16, .rw, .live⟩]⟩,
  ⟨"LRFLOOR", 0x24, 1, 0, 1, 0, .single, 0x40, [⟨"F", 0, 16, .rw, .live⟩]⟩,
  ⟨"LR", 0x40, 10, 4, 1, 0, .single, 0x0, [⟨"RATIO", 16, 16, .ro, .live⟩, ⟨"MEAS", 0, 16, .ro, .live⟩]⟩,
  ⟨"COMMIT", 0xfc, 1, 0, 1, 0, .single, 0x0, [⟨"PEND", 4, 1, .ro, .live⟩, ⟨"HOLD", 3, 1, .rw, .live⟩, ⟨"ARMED", 2, 1, .ro, .live⟩, ⟨"DISCARD", 1, 1, .wo, .live⟩, ⟨"GO", 0, 1, .wo, .live⟩]⟩,
  ⟨"TEMP", 0x200, 32, 4, 1, 0, .single, 0x80008000, [⟨"ODD", 16, 16, .ro, .live⟩, ⟨"EVEN", 0, 16, .ro, .live⟩]⟩,
  ⟨"TMAX", 0x280, 1, 0, 1, 0, .single, 0x8000, [⟨"SENSOR", 16, 6, .ro, .live⟩, ⟨"TEMP", 0, 16, .ro, .live⟩]⟩,
  ⟨"VMON", 0x300, 24, 4, 1, 0, .single, 0x0, [⟨"ODD", 16, 16, .ro, .live⟩, ⟨"EVEN", 0, 16, .ro, .live⟩]⟩,
  ⟨"ENV.CTL", 0x400, 12, 8, 1, 0, .single, 0x0, [⟨"EN", 31, 1, .rw, .shadow⟩, ⟨"THR", 0, 16, .rw, .shadow⟩]⟩,
  ⟨"ENV.LIM", 0x404, 12, 8, 1, 0, .single, 0x0, [⟨"MAX", 16, 16, .rw, .shadow⟩, ⟨"MIN", 0, 16, .rw, .shadow⟩]⟩,
  ⟨"SHED", 0x480, 1, 0, 1, 0, .single, 0x0, [⟨"DOM", 0, 32, .rw, .shadow⟩]⟩,
  ⟨"SHED2", 0x484, 1, 0, 1, 0, .single, 0x0, [⟨"LNG", 0, 4, .rw, .shadow⟩]⟩]

/-- Registers of block BIST. -/
def regsBIST : List RegDesc := [
  ⟨"CTL", 0x0, 1, 0, 1, 0, .single, 0x8, [⟨"STAY", 5, 1, .rw, .static⟩, ⟨"ABORT", 4, 1, .wo, .live⟩, ⟨"AUTOREP", 3, 1, .rw, .static⟩, ⟨"SCAN", 2, 1, .rw, .static⟩, ⟨"FIELD", 1, 1, .rw, .static⟩, ⟨"ANALOG", 0, 1, .rw, .static⟩]⟩,
  ⟨"FMAP", 0x4, 1, 0, 1, 0, .single, 0x0, [⟨"MAP", 0, 24, .rw, .static⟩]⟩,
  ⟨"SAVE_LO", 0x8, 1, 0, 1, 0, .lo, 0x0, [⟨"ADDR", 0, 32, .rw, .static⟩]⟩,
  ⟨"SAVE_HI", 0xc, 1, 0, 1, 0, .hi, 0x0, [⟨"ADDR", 0, 16, .rw, .static⟩]⟩,
  ⟨"STAT", 0x10, 1, 0, 1, 0, .single, 0x0, [⟨"ZEROD", 9, 1, .ro, .live⟩, ⟨"BUSY", 8, 1, .ro, .live⟩, ⟨"PHASE", 5, 3, .ro, .live⟩, ⟨"CUR", 0, 5, .ro, .live⟩]⟩,
  ⟨"ERR", 0x14, 1, 0, 1, 0, .single, 0x0, [⟨"FUSEMODE", 8, 1, .w1c, .live⟩, ⟨"FUSETEMP", 7, 1, .w1c, .live⟩, ⟨"FUSEFULL", 6, 1, .w1c, .live⟩, ⟨"FUSEFAIL", 5, 1, .w1c, .live⟩, ⟨"REPBUSY", 4, 1, .w1c, .live⟩, ⟨"SPAREUSED", 3, 1, .w1c, .live⟩, ⟨"RENEW", 2, 1, .w1c, .live⟩, ⟨"SAVE", 1, 1, .w1c, .live⟩, ⟨"STATICW", 0, 1, .w1c, .live⟩]⟩,
  ⟨"FRES", 0x40, 24, 4, 1, 0, .single, 0x0, [⟨"RESULT", 21, 3, .ro, .live⟩, ⟨"ITEM", 18, 3, .ro, .live⟩, ⟨"LOC", 0, 16, .ro, .live⟩]⟩,
  ⟨"ARES", 0xa0, 1, 0, 1, 0, .single, 0x0, [⟨"RUN", 13, 13, .ro, .live⟩, ⟨"FAIL", 0, 13, .ro, .live⟩]⟩,
  ⟨"COMMIT", 0xfc, 1, 0, 1, 0, .single, 0x0, [⟨"PEND", 4, 1, .ro, .live⟩, ⟨"HOLD", 3, 1, .rw, .live⟩, ⟨"ARMED", 2, 1, .ro, .live⟩, ⟨"DISCARD", 1, 1, .wo, .live⟩, ⟨"GO", 0, 1, .wo, .live⟩]⟩,
  ⟨"SREP", 0x100, 64, 4, 1, 0, .single, 0x0, [⟨"REC", 0, 32, .rw, .live⟩]⟩,
  ⟨"FUSECTL", 0x200, 1, 0, 1, 0, .single, 0x0, [⟨"PROG", 31, 1, .wo, .live⟩, ⟨"ITEM", 2, 2, .rw, .live⟩, ⟨"INDEX", 0, 2, .rw, .live⟩]⟩,
  ⟨"FUSEDATA", 0x204, 1, 0, 1, 0, .single, 0x0, [⟨"DATA", 0, 32, .wo, .live⟩]⟩,
  ⟨"FUSESTAT", 0x208, 1, 0, 1, 0, .single, 0x0, [⟨"BUSY", 11, 1, .ro, .live⟩, ⟨"ROOT", 10, 1, .ro, .live⟩, ⟨"USED", 0, 10, .ro, .live⟩]⟩,
  ⟨"FUSEKEY", 0x20c, 1, 0, 1, 0, .single, 0x0, [⟨"KEY", 0, 16, .key, .live⟩]⟩,
  ⟨"FREC", 0x400, 512, 4, 1, 0, .single, 0x0, [⟨"REC", 0, 32, .ro, .live⟩]⟩]

/-- Registers of block DBG, part 0. -/
def regsDBG_0 : List RegDesc := [
  ⟨"CTL", 0x0, 1, 0, 1, 0, .single, 0x0, [⟨"RELAT", 5, 1, .rw, .live⟩, ⟨"LOCK", 4, 1, .wo, .live⟩, ⟨"RELEASE", 3, 1, .wo, .live⟩, ⟨"HALT", 1, 2, .wo, .live⟩, ⟨"EN", 0, 1, .rw, .live⟩]⟩,
  ⟨"STAT", 0x4, 1, 0, 1, 0, .single, 0x0, [⟨"DBGEN", 7, 1, .ro, .live⟩, ⟨"UNLOCKED", 6, 1, .ro, .live⟩, ⟨"HALTED", 5, 1, .ro, .live⟩, ⟨"PEND", 4, 1, .ro, .live⟩, ⟨"CUT", 3, 1, .ro, .live⟩, ⟨"SRC", 0, 3, .ro, .live⟩]⟩,
  ⟨"ERR", 0x8, 1, 0, 1, 0, .single, 0x0, [⟨"TXOVF", 3, 1, .w1c, .live⟩, ⟨"RELLATE", 2, 1, .w1c, .live⟩, ⟨"LOCKED", 1, 1, .w1c, .live⟩, ⟨"HALTREJ", 0, 1, .w1c, .live⟩]⟩,
  ⟨"UNLOCK", 0xc, 1, 0, 1, 0, .single, 0x0, [⟨"KEY", 0, 16, .key, .live⟩]⟩,
  ⟨"RELTICK_LO", 0x10, 1, 0, 1, 0, .lo, 0x0, [⟨"TICK", 0, 32, .rw, .live⟩]⟩,
  ⟨"RELTICK_HI", 0x14, 1, 0, 1, 0, .hi, 0x0, [⟨"TICK", 0, 16, .rw, .live⟩]⟩,
  ⟨"HALTT_LO", 0x18, 1, 0, 1, 0, .lo, 0x0, [⟨"TIME", 0, 32, .ro, .live⟩]⟩,
  ⟨"HALTT_HI", 0x1c, 1, 0, 1, 0, .hi, 0x0, [⟨"TIME", 0, 16, .ro, .live⟩]⟩,
  ⟨"ACC_ADDR_LO", 0x20, 1, 0, 1, 0, .lo, 0x0, [⟨"ADDR", 0, 32, .rw, .live⟩]⟩,
  ⟨"ACC_ADDR_HI", 0x24, 1, 0, 1, 0, .hi, 0x0, [⟨"ADDR", 0, 16, .rw, .live⟩]⟩,
  ⟨"ACC_DATA_LO", 0x28, 1, 0, 1, 0, .lo, 0x0, [⟨"DATA", 0, 32, .rw, .live⟩]⟩,
  ⟨"ACC_DATA_HI", 0x2c, 1, 0, 1, 0, .hi, 0x0, [⟨"DATA", 0, 16, .rw, .live⟩]⟩,
  ⟨"ACC_CTL", 0x30, 1, 0, 1, 0, .single, 0x0, [⟨"GO", 31, 1, .wo, .live⟩, ⟨"BUSY", 30, 1, .ro, .live⟩, ⟨"RSV", 29, 1, .ro, .live⟩, ⟨"SCFAIL", 28, 1, .ro, .live⟩, ⟨"STATUS", 4, 4, .ro, .live⟩, ⟨"OP", 0, 2, .rw, .live⟩]⟩,
  ⟨"VT_TX", 0x40, 1, 0, 1, 0, .single, 0x0, [⟨"DATA", 0, 32, .rw, .live⟩]⟩,
  ⟨"VT_RX", 0x44, 1, 0, 1, 0, .single, 0x0, [⟨"DATA", 0, 32, .ro, .live⟩]⟩,
  ⟨"VT_STAT", 0x48, 1, 0, 1, 0, .single, 0x0, [⟨"RXTAKE", 2, 1, .wo, .live⟩, ⟨"RXFULL", 1, 1, .ro, .live⟩, ⟨"TXFULL", 0, 1, .ro, .live⟩]⟩,
  ⟨"COMMIT", 0xfc, 1, 0, 1, 0, .single, 0x0, [⟨"PEND", 4, 1, .ro, .live⟩, ⟨"HOLD", 3, 1, .rw, .live⟩, ⟨"ARMED", 2, 1, .ro, .live⟩, ⟨"DISCARD", 1, 1, .wo, .live⟩, ⟨"GO", 0, 1, .wo, .live⟩]⟩,
  ⟨"WU.CTL", 0x100, 16, 64, 1, 0, .single, 0x0, [⟨"EN", 31, 1, .rw, .shadow⟩, ⟨"KIND", 30, 1, .rw, .shadow⟩, ⟨"DIR", 29, 1, .rw, .shadow⟩, ⟨"SEL", 22, 7, .rw, .shadow⟩, ⟨"CTXEN", 21, 1, .rw, .shadow⟩, ⟨"CTX", 14, 7, .rw, .shadow⟩, ⟨"TYPEEN", 13, 1, .rw, .shadow⟩, ⟨"TYPE", 8, 5, .rw, .shadow⟩, ⟨"ADDREN", 7, 1, .rw, .shadow⟩, ⟨"DATAEN", 6, 1, .rw, .shadow⟩, ⟨"DWORD", 2, 4, .rw, .shadow⟩]⟩,
  ⟨"WU.ALO_LO", 0x104, 16, 64, 1, 0, .lo, 0x0, [⟨"VALUE", 0, 32, .rw, .shadow⟩]⟩,
  ⟨"WU.ALO_HI", 0x108, 16, 64, 1, 0, .hi, 0x0, [⟨"VALUE", 0, 16, .rw, .shadow⟩]⟩]

/-- Registers of block DBG, part 1. -/
def regsDBG_1 : List RegDesc := [
  ⟨"WU.AHI_LO", 0x10c, 16, 64, 1, 0, .lo, 0x0, [⟨"VALUE", 0, 32, .rw, .shadow⟩]⟩,
  ⟨"WU.AHI_HI", 0x110, 16, 64, 1, 0, .hi, 0x0, [⟨"VALUE", 0, 16, .rw, .shadow⟩]⟩,
  ⟨"WU.DVAL_LO", 0x114, 16, 64, 1, 0, .lo, 0x0, [⟨"VALUE", 0, 32, .rw, .shadow⟩]⟩,
  ⟨"WU.DVAL_HI", 0x118, 16, 64, 1, 0, .hi, 0x0, [⟨"VALUE", 0, 16, .rw, .shadow⟩]⟩,
  ⟨"WU.DMSK_LO", 0x11c, 16, 64, 1, 0, .lo, 0x0, [⟨"VALUE", 0, 32, .rw, .shadow⟩]⟩,
  ⟨"WU.DMSK_HI", 0x120, 16, 64, 1, 0, .hi, 0x0, [⟨"VALUE", 0, 16, .rw, .shadow⟩]⟩,
  ⟨"WU.HITS", 0x124, 16, 64, 1, 0, .single, 0x0, [⟨"COUNT", 0, 32, .rc, .live⟩]⟩,
  ⟨"LC.CTL", 0x600, 4, 16, 1, 0, .single, 0x0, [⟨"EN", 31, 1, .rw, .shadow⟩, ⟨"EVENT", 30, 1, .rw, .shadow⟩, ⟨"TRACE", 29, 1, .rw, .shadow⟩, ⟨"HALT", 27, 2, .rw, .shadow⟩, ⟨"NSTAGE", 22, 2, .rw, .shadow⟩, ⟨"WINDOW", 0, 16, .rw, .shadow⟩]⟩,
  ⟨"LC.S01", 0x604, 4, 16, 1, 0, .single, 0x0, [⟨"S1", 16, 16, .rw, .shadow⟩, ⟨"S0", 0, 16, .rw, .shadow⟩]⟩,
  ⟨"LC.S23", 0x608, 4, 16, 1, 0, .single, 0x0, [⟨"S3", 16, 16, .rw, .shadow⟩, ⟨"S2", 0, 16, .rw, .shadow⟩]⟩,
  ⟨"LC.STAT", 0x60c, 4, 16, 1, 0, .single, 0x0, [⟨"COUNT", 16, 16, .rc, .live⟩, ⟨"CUR", 0, 2, .ro, .live⟩]⟩,
  ⟨"TRC_CTL", 0x700, 1, 0, 1, 0, .single, 0x8000, [⟨"EN", 31, 1, .rw, .live⟩, ⟨"MODE", 30, 1, .rw, .shadow⟩, ⟨"CHANGE", 29, 1, .rw, .shadow⟩, ⟨"FIELD", 24, 5, .rw, .shadow⟩, ⟨"WORD", 22, 2, .rw, .shadow⟩, ⟨"POST", 0, 16, .rw, .shadow⟩]⟩,
  ⟨"TRC_STAT", 0x704, 1, 0, 1, 0, .single, 0x0, [⟨"STOPPED", 31, 1, .ro, .live⟩, ⟨"WRAP", 30, 1, .ro, .live⟩, ⟨"TRIGD", 29, 1, .ro, .live⟩, ⟨"WPTR", 0, 16, .ro, .live⟩]⟩,
  ⟨"TRC_RIDX", 0x708, 1, 0, 1, 0, .single, 0x0, [⟨"IDX", 0, 16, .rw, .live⟩]⟩,
  ⟨"TRC_RDATA_LO", 0x70c, 1, 0, 1, 0, .lo, 0x0, [⟨"DATA", 0, 32, .ro, .live⟩]⟩,
  ⟨"TRC_RDATA_HI", 0x710, 1, 0, 1, 0, .hi, 0x0, [⟨"DATA", 0, 16, .ro, .live⟩]⟩,
  ⟨"TRC_TRIGT_LO", 0x714, 1, 0, 1, 0, .lo, 0x0, [⟨"TIME", 0, 32, .ro, .live⟩]⟩,
  ⟨"TRC_TRIGT_HI", 0x718, 1, 0, 1, 0, .hi, 0x0, [⟨"TIME", 0, 16, .ro, .live⟩]⟩,
  ⟨"TRC_TRIG", 0x71c, 1, 0, 1, 0, .single, 0x0, [⟨"IDX", 0, 16, .ro, .live⟩]⟩]

/-- Registers of block DBG. -/
def regsDBG : List RegDesc := regsDBG_0 ++ regsDBG_1

/-- Registers of block GPB. -/
def regsGPB : List RegDesc := [
  ⟨"SEL", 0x0, 2, 4, 1, 0, .single, 0x0, [⟨"MODE", 18, 2, .rw, .shadow⟩, ⟨"FIELD", 13, 5, .rw, .shadow⟩, ⟨"WORD", 11, 2, .rw, .shadow⟩, ⟨"BIT", 5, 6, .rw, .shadow⟩, ⟨"INV", 0, 1, .rw, .shadow⟩]⟩,
  ⟨"COMMIT", 0xfc, 1, 0, 1, 0, .single, 0x0, [⟨"PEND", 4, 1, .ro, .live⟩, ⟨"HOLD", 3, 1, .rw, .live⟩, ⟨"ARMED", 2, 1, .ro, .live⟩, ⟨"DISCARD", 1, 1, .wo, .live⟩, ⟨"GO", 0, 1, .wo, .live⟩]⟩]

/-- Table 22-6: the blocks of BAR0 with register descriptors, in record order. -/
def blockTable : List BlockDesc := [
  ⟨.lim, 0x0, 1, 0x0, 0x100, .none, .one 0, regsLIM⟩,
  ⟨.glb, 0x10000, 1, 0x0, 0x100, .none, .one 0, regsGLB⟩,
  ⟨.pwr, 0x20000, 1, 0x0, 0x100, .tick, .one 0, regsPWR⟩,
  ⟨.clk, 0x30000, 1, 0x0, 0x100, .go, .one 0, regsCLK⟩,
  ⟨.time, 0x40000, 1, 0x0, 0x1000, .tick, .one 0, regsTIME⟩,
  ⟨.tt, 0x50000, 1, 0x0, 0x1000, .tick, .one 1, regsTT⟩,
  ⟨.trg, 0x58000, 1, 0x0, 0x1000, .tick, .one 1, regsTRG⟩,
  ⟨.hb, 0x60000, 1, 0x0, 0x100, .go, .one 3, regsHB⟩,
  ⟨.ring, 0x61000, 1, 0x0, 0x1000, .go, .one 3, regsRING⟩,
  ⟨.msix, 0x70000, 1, 0x0, 0x1000, .none, .one 3, regsMSIX⟩,
  ⟨.noc, 0x80000, 96, 0x100, 0x6000, .tick, .one 2, regsNOC⟩,
  ⟨.ni, 0x90000, 96, 0x400, 0x18000, .tick, .one 2, regsNI⟩,
  ⟨.fld, 0xc0000, 24, 0x1000, 0x18000, .tick, .perInst 4, regsFLD⟩,
  ⟨.cfg, 0xe0000, 1, 0x0, 0x100, .tick, .one 1, regsCFG⟩,
  ⟨.scr, 0xe1000, 1, 0x0, 0x100, .tick, .one 1, regsSCR⟩,
  ⟨.drc, 0x100000, 8, 0x2000, 0x10000, .go, .perInst 28, regsDRC⟩,
  ⟨.mig, 0x120000, 1, 0x0, 0x2000, .go, .one 2, regsMIG⟩,
  ⟨.cry, 0x130000, 1, 0x0, 0x1000, .go, .one 40, regsCRY⟩,
  ⟨.lane, 0x140000, 64, 0x200, 0x8000, .go, .lane, regsLANE⟩,
  ⟨.stg, 0x148000, 6, 0x400, 0x1800, .go, .stg, regsSTG⟩,
  ⟨.stw, 0x150000, 1, 0x0, 0x1000, .tick, .one 1, regsSTW⟩,
  ⟨.bist, 0x160000, 1, 0x0, 0x1000, .go, .one 1, regsBIST⟩,
  ⟨.dbg, 0x170000, 1, 0x0, 0x1000, .go, .one 1, regsDBG⟩,
  ⟨.gpb, 0x180000, 8, 0x400, 0x2000, .tick, .one 1, regsGPB⟩]

end Sys2Proof.Machine
end

