-- ==== Sys2Proof/Machine/StateCore.lean ====
section
/-! DEFINITION. The state of the mode machine, the time base, the event merger, the log and the configuration engine. -/
namespace Sys2Proof.Machine

/-- Table 1-4: the twelve modes. -/
inductive Mode where
  | bare | loading | staged | locking | run | reshape | holdover | valley | safeHold | halt | selfTest | freeze
  deriving DecidableEq, Repr

/-- Table 1-4: the code of a mode. -/
def Mode.code : Mode → Nat
  | .bare => 0x0 | .loading => 0x1 | .staged => 0x2 | .locking => 0x3 | .run => 0x4 | .reshape => 0x5
  | .holdover => 0x6 | .valley => 0x7 | .safeHold => 0x8 | .halt => 0x9 | .selfTest => 0xA | .freeze => 0xB

/-- The overlay conditions of R23 that are active. -/
structure Overlays where
  reshape : Bool
  valley : Bool
  halt : Bool
  selfTest : Bool
  freeze : Bool
  safeHold : Bool
  deriving DecidableEq, Repr

/-- R26, R392: what waits for the first tick at which no field that runs frames is late. -/
inductive Drain where
  | stop | valley
  deriving DecidableEq, Repr

/-- Table 1-5 under R25: a hardware cause that lost to a mode of higher precedence and stays pending. -/
inductive HwCause where
  | holdover      -- REFCLK_CH lost with failover
  | freeze        -- a fatal error
  deriving DecidableEq, Repr

/-- The mode machine of chapter 1. -/
structure ModeSt where
  base : Mode
  ov : Overlays
  busy : Bool
  /-- The mode before LOADING and before SELF-TEST (Table 1-5). -/
  before : Mode
  drain : Option Drain
  pending : List HwCause
  /-- A LOCKING that has placed the tick grid: RUN begins at the next tick (R251). -/
  runNext : Bool
  /-- HOLDOVER returns to RUN at the next tick (R254). -/
  backNext : Bool
  /-- Ticks that passed without a frame starting since frames were suspended (R29). -/
  lost : Nat
  deriving DecidableEq, Repr

/-- R251: where LOCKING stands. -/
inductive LockStep where
  | none | edges | snap | servo | raise
  deriving DecidableEq, Repr

/-- The time base (R243 to R257). RAW and the tick counter are counts modulo 2^48. -/
structure TimeSt where
  /-- The synthesizers have locked since the device reset, so RAW runs (R243). -/
  running : Bool
  raw : Nat
  anchor : Nat
  offset : Nat
  nowx : Nat
  tick : Nat
  lastT : Word
  /-- Ticks occur (TIME.STATUS.TICKS); the first tick after a lock or a release has yet to fall (R257). -/
  ticks : Bool
  /-- The counter has taken a number, so the next free-running tick counts up from it. -/
  numbered : Bool
  /-- The number the first tick of a placed grid takes (R256). -/
  placed : Option Nat
  /-- The RAW count of the next tick edge, when one is set. -/
  nextTick : Option Nat
  lock : LockStep
  /-- Consecutive good edges or measurements of the present step (R251, R254), missing edges and consecutive
  outliers (R252). -/
  good : Nat
  missing : Nat
  outliers : Nat
  /-- The corrected time of the last SYNC_IN edge while LOCKING counts edges. -/
  lastEdge : Option Word
  /-- REFCLK_CH has been requalified during HOLDOVER and steering runs (R254, R399). -/
  requalified : Bool
  /-- Nanoseconds of RAW that passed outside HALT: the steward cycles that unlock windows count (R443). -/
  unhalted : Nat
  deriving DecidableEq, Repr

/-- An event record, Table 11-16. -/
structure EvRec where
  time : Word
  arg : BitVec 8
  code : BitVec 9
  dev : BitVec 8
  src : BitVec 7
  seq : BitVec 16
  deriving DecidableEq, Repr

/-- W1 of an event record. -/
def EvRec.w1 (r : EvRec) : Word :=
  BitVec.ofNat 48 (r.arg.toNat * 2 ^ 40 + r.code.toNat * 2 ^ 31 + r.dev.toNat * 2 ^ 23 + r.src.toNat * 2 ^ 16 + r.seq.toNat)

/-- The record whose words are `w0` and `w1`. -/
def EvRec.ofWords (w0 w1 : Word) : EvRec :=
  { time := w0, arg := w1.extractLsb' 40 8, code := w1.extractLsb' 31 9, dev := w1.extractLsb' 23 8,
    src := w1.extractLsb' 16 7, seq := w1.extractLsb' 0 16 }

/-- The Pass (R271 to R274): the records it holds, whether each arrived after its frame closed, the ticks whose frames
are still open (number and time, oldest first), drops since the last batch, and the last SEQ emitted for each
(DEV, SRC) pair, most recently seen first, records emitted that wait for room in the event ring with the number of their
frame, and records that wait to be forwarded. -/
structure PassSt where
  held : List (EvRec × Bool)
  frames : List (Nat × Word)
  dropped : Nat
  last : List ((Nat × Nat) × Nat)
  out : List (EvRec × Nat)
  fwd : List EvRec
  deriving DecidableEq, Repr

/-- A log-ring entry, Table 18-4; the argument is bytes 0 to 7 and the detail bytes 0 to 11, each little-endian. -/
structure LogEntry where
  time : Word
  tick : BitVec 16
  code : BitVec 16
  source : BitVec 16
  arg : BitVec 64
  detail : BitVec 96
  deriving DecidableEq, Repr

/-- The phases of a load (R181, CFG.STATUS.PHASE). -/
inductive LoadPhase where
  | idle | ingest | verify | waitStop | draining | write | sweep | waitCommit
  deriving DecidableEq, Repr

/-- Table 8-11: the code of a phase. -/
def LoadPhase.code : LoadPhase → Nat
  | .idle => 0 | .ingest => 1 | .verify => 2 | .waitStop => 3 | .draining => 4 | .write => 5 | .sweep => 6 | .waitCommit => 7

/-- The header of an image that matters after it is read (Table 8-3). -/
structure ImageInfo where
  full : Bool
  length : Nat
  fieldMap : BitVec 24
  protMap : BitVec 24
  opMin : Nat
  enc : Bool
  /-- The key is the configuration key slot; the GCM IV. -/
  keySrc : Bool
  iv : BitVec 96
  patch : Bool
  /-- The flash clock in MHz and the dummy clocks, for the rest of a flash slot (R170). -/
  spiClk : Nat
  dummy : Nat
  wcCount : Nat
  deriving DecidableEq, Repr

/-- R170: a slot of the flash being read: its first byte, the clock in MHz and the dummy clocks in use. -/
structure FlashSt where
  base : Nat
  mhz : Nat
  dummy : Nat
  deriving DecidableEq, Repr

/-- A slot as the engine starts on it. -/
def FlashSt.start (slot : Bool) : FlashSt := ⟨if slot then 0x8000000 else 0, 25, 10⟩

/-- A failed check of a load: Table 8-5 code, Table 8-6 detail, field (31 for header or device section) and item. -/
structure LoadFail where
  code : Nat
  detail : Nat
  field : Nat
  item : Nat
  deriving DecidableEq, Repr

/-- A load in progress (R180 to R190): its source queue pair (none for flash), the flash slot it reads, whether it writes
configuration memory directly, the words received, how many of them the parts taken so far hold, the ring slot of the
descriptor that brought the last word, the header's words and what they say once read, the key an encrypted body is under, the
wire-clock map, the device section, the field sections in order, the GCM tag and signature words, whether every part has come,
its phase, and after
acceptance: GOSRC as read, whether RESHAPE_GO has fired, the fields that have stopped with the tick each stopped at, the
fields that are drained, the RAW count at which the sweep of the written frames ends, whether that sweep found an
uncorrectable frame, and the steward patch. -/
structure LoadSt where
  pair : Option Nat
  flash : FlashSt
  direct : Bool
  got : List Word
  taken : Nat
  last : Option Nat
  header : List Word
  info : Option ImageInfo
  key : Option Nat
  wires : List Word
  device : List Word
  sections : List (Nat × FieldImage)
  tail : List Word
  complete : Bool
  phase : LoadPhase
  gosrc : Bool
  fired : Bool
  stopped : List (Nat × Nat)
  drained : List Nat
  sweepEnd : Nat
  dirty : Bool
  deriving DecidableEq, Repr

/-- A load that has taken in nothing. -/
def LoadSt.start (pair : Option Nat) (direct : Bool) : LoadSt :=
  { pair := pair, flash := .start false, direct := direct, got := [], taken := 0, last := none, header := [], info := none,
    key := none, wires := [], device := [], sections := [], tail := [], complete := false, phase := .ingest, gosrc := false, fired := false, stopped := [], drained := [], sweepEnd := 0,
    dirty := false }

/-- A configuration frame in the repair queue (R193): its field code, its number, its interleaves in error, whether
the golden scan found it, and whether its code cannot correct it, so that it waits for its golden copy. -/
structure RepairReq where
  field : Nat
  frame : Nat
  ilv : BitVec 6
  esc : Bool
  golden : Bool
  deriving DecidableEq, Repr

/-- The configuration engine and scrubber: the load, the repair queue, the tick of the last logged detection (R197), the
encrypted mark of each configured field's image (R430), the golden scan's place, 4096 × field code + frame, the fields that
stay fenced until a new image is loaded into them (R27, R431), and for fields whose frames wait for a full sweep (R192, R391) the
RAW count at which it ends. -/
structure CfgSt where
  load : Option LoadSt
  repairs : List RepairReq
  upsetLogTick : Option Nat
  encrypted : SMap Bool
  scanAt : Nat
  fenced : List Nat
  sweeps : SMap (Option Nat)
  deriving DecidableEq, Repr

/-- An idle engine. -/
def CfgSt.zero : CfgSt := ⟨none, [], none, [], 0, [], []⟩

end Sys2Proof.Machine
end

