-- ==== Sys2Proof/Machine/StateDebug.lean ====
section
/-! DEFINITION. The state of the steward, of self-test and of debug (chapters 18 to 20). -/
namespace Sys2Proof.Machine

/-- The steward's own counts: detections since the last cadence and cadences without one, by 1024 × loop + instance; the
direction each lane's peaking last took and its eye then (R416); consecutive samples at the critical limit (R418); the
domains the SHED loop switched off (R419); lanes with a peaking step pending for a lane window (R306); the time of the last
maintenance window placed for each channel, and for the timing lanes as 8 (R422). -/
structure StwSt where
  seen : SMap Nat
  quiet : SMap Nat
  up : SMap Bool
  eye : SMap Nat
  critical : Nat
  shed : List Nat
  pending : SMap (Option Nat)
  windows : SMap (Option Word)
  deriving DecidableEq, Repr

/-- A steward just started. -/
def StwSt.zero : StwSt := ⟨[], [], [], [], 0, [], [], []⟩

/-- Self-test: the fields still to test, whether the sequence of tests has ended, whether an ABORT waits, whether scan was
entered, the field whose saved copy is still to be restored (its tables keep what the copy holds, R430), whether the field under
test has failed, the failures so far; whether FUSEKEY has been given (R439), the staged fuse words, the item and index being programmed with the words blown and
whether one failed. -/
structure BistSt where
  todo : List Nat
  ended : Bool
  aborted : Bool
  scanned : Bool
  saved : Option Nat
  failed : Bool
  failures : Nat
  keyed : Bool
  staged : List (BitVec 32)
  prog : Option (Nat × Nat)
  blown : Nat
  bad : Bool
  deriving DecidableEq, Repr

/-- No test. -/
def BistSt.zero : BistSt :=
  { todo := [], ended := false, aborted := false, scanned := false, saved := none, failed := false, failures := 0, keyed := false, staged := [],
    prog := none, blown := 0, bad := false }

/-- The resume tick of a release (R453): the first at or after a RAW count, or the one of a number. -/
inductive Resume where
  | after (raw : Nat)
  | atTick (k : Nat)
  deriving DecidableEq, Repr

/-- Debug: reservations of the host and of the debug path (address, value; R445); the access engine's path, address,
operation and SC's compare value while BUSY; the tick at which each condition's first stage hit, and the spine cycle in which it last advanced
(R447); the trace buffer, the last probe word written and the words left after a trigger (R454); a pending halt, now or
at frame end, with its source; when frames resume: at the first tick at or after a RAW count, or at the tick of a number; and whether the channels have left self-refresh for it (R453). -/
structure DbgSt where
  rsvHost : Option (Word × Word)
  rsvDebug : Option (Word × Word)
  access : Option (Path × Word × Nat × Word)
  firstHit : SMap (Option Nat)
  advancedAt : SMap (Option Nat)
  trace : SMap Word
  lastTraced : Option Word
  postLeft : Nat
  halt : Option (Bool × Nat)
  resume : Option Resume
  prepared : Bool
  deriving DecidableEq, Repr

/-- Debug at reset. -/
def DbgSt.zero : DbgSt := ⟨none, none, none, [], [], [], none, 0, none, none, false⟩

end Sys2Proof.Machine
end

