-- ==== Sys2Proof/Machine/StateDram.lean ====
section
/-! DEFINITION. The state of the DRAM channels with their memory-integrity and encryption stages (chapters 14 to 16). -/
namespace Sys2Proof.Machine

/-- The protection of a line, as a request is accepted under it (R347, R348, R367): its MIG region (32: none), whether the
region is NESTED, its CRYPTO code and key ID, its first word, and its counter area's base and whether that is NESTED. -/
structure LineRgn where
  region : Nat
  nested : Bool
  crypto : Nat
  key : Nat
  base : Nat
  area : Nat
  areaNested : Bool
  deriving DecidableEq, Repr

/-- A request packet accepted by a channel: its number in arrival order, the packet, the RAW count of its arrival, its
port, the protection of each line by CIDX, whether its context reads ciphertext (Table 16-4), the lines (by CIDX) still to
issue, the words read by 16 × CIDX + word, and the STATUS of each line performed; `held` marks a write held at counter
exhaustion (R383). -/
structure DramReq where
  id : Nat
  pkt : List Carriage
  arrived : Nat
  port : Nat
  rgns : List LineRgn
  raw : Bool
  todo : List Nat
  got : List (Nat × Word)
  stats : List (Nat × Nat)
  held : Bool
  deriving DecidableEq, Repr

/-- Whom a DRAM command serves: the requests (none for the channel itself), and CTX, SRC, port and SEQ of the first. -/
structure DramWho where
  reqs : List Nat
  ctx : Nat
  src : Nat
  port : Nat
  seq : BitVec 16
  deriving DecidableEq, Repr

/-- A command of the channel itself. -/
def DramWho.none : DramWho := ⟨[], 0, 0, 0, 0⟩

/-- A command in the retry buffer (R337), with what Table 22-4 shows of it: its code there, its bank as 32 rank + 4 group +
bank, its row, its line within the row, whom it serves and its issue time. -/
structure DramCmd where
  code : Nat
  bank : Nat
  row : Nat
  line : Nat
  who : DramWho
  time : Word
  deriving DecidableEq, Repr

/-- A NESTED group buffer (R350): the group number, and the full lines it holds by place in the group, each with its plain
words and the requests and CIDX it came from, the line's own first. -/
structure GroupBuf where
  group : Nat
  lines : List (Nat × List Word × List (Nat × Nat))
  deriving DecidableEq, Repr

/-- A DRAM channel: the zero fill that follows the running initialisation, and for a filled channel the ranges of global
lines unwritten since (R348, R355, R356; with `none` every unlisted line is unwritten); the stored lines by channel-local
number; requests in arrival order; open rows by bank; unconfirmed commands, oldest first, with the slot of the oldest;
replays since the last confirmation; group buffers; a write burst runs (R332); RAW counts of the last ZQ calibration and
retraining (R335); the multiplier the components' temperature demands (R334); the freeze record of R485 (time, cause);
ticks of the last log entry by kind (corrected, uncorrectable, rebuilt, write not performed), of the last exclusion
hit by entry and of the last missed target; the symbols of the latest patrol correction by line, and the lines due to be remapped
(R363). -/
structure ChSt where
  fillNext : Bool
  filled : Option (List (Nat × Nat))
  lines : SMap (Option (List Word))
  reqs : List DramReq
  nextId : Nat
  rows : SMap (Option Nat)
  retry : List DramCmd
  oldest : Nat
  replay : Nat
  groups : List GroupBuf
  burst : Bool
  zqAt : Nat
  trainedAt : Nat
  hot : Nat
  frozen : Option (Word × Bool)
  logTicks : SMap (Option Nat)
  exclTicks : SMap (Option Nat)
  missTick : Option Nat
  weak : SMap (BitVec 16)
  suspects : List Nat
  deriving DecidableEq, Repr

/-- A channel at reset. -/
def ChSt.zero : ChSt :=
  { fillNext := false, filled := none, lines := [], reqs := [], nextId := 0, rows := [], retry := [], oldest := 0,
    replay := 0, groups := [], burst := false, zqAt := 0, trainedAt := 0, hot := 0, frozen := none, logTicks := [],
    exclTicks := [], missTick := none, weak := [], suspects := [] }

/-- A metadata line in the counter cache (R371), by global line number: its words and its dirty state. -/
structure CacheLine where
  words : List Word
  dirty : Bool
  deriving DecidableEq, Repr

/-- The encryption stage: keys by ID and the configuration key slot, never readable (R374); the counter cache; misses
since MISS last counted (in 1,024s); the RENEW descriptor a renewal serves (pair, slot), lines re-encrypted by the running
renewal and its rate in lines per µs (R381, R384); regions whose
area a MIG commit left breaking R368, until a CRY commit passes. -/
structure CrySt where
  keys : SMap (Option Nat)
  cfgKey : Option Nat
  cache : SMap (Option CacheLine)
  misses : Nat
  renewFor : Option (Nat × Nat)
  renewed : Nat
  rate : Nat
  barred : List Nat
  deriving DecidableEq, Repr

/-- A stage with no key. -/
def CrySt.zero : CrySt := ⟨[], none, [], 0, none, 0, 0, []⟩

end Sys2Proof.Machine
end

