-- ==== Sys2Proof/Machine/StateFabric.lean ====
section
/-! DEFINITION. The state of the fabric: cells, slices, global segments, block memories with their queue controllers,
and what each field keeps of the frame it is in. -/
namespace Sys2Proof.Machine

/-- Table 3-1: the registers of a word cell that a cycle reads and writes. -/
structure CellRegs where
  a : Word
  b : Word
  c : Word
  d : Word
  latch : Word
  fl : Flags
  deriving DecidableEq, Repr

/-- Flags all 0, their initial value (Table 3-1, Table 5-2). -/
def flags0 : Flags := ⟨false, false, false, false⟩

/-- Registers all 0. -/
def CellRegs.zero : CellRegs := ⟨0, 0, 0, 0, 0, flags0⟩

/-- The two-stage synchronisers of a cell's wire-clocked registers (R84): each register as the last cycle ended, and the
two stages. -/
structure SyncSt where
  last : Vector Word 4
  first : Vector Word 4
  second : Vector Word 4
  deriving DecidableEq, Repr

/-- Stages all 0. -/
def SyncSt.zero : SyncSt := ⟨#v[0, 0, 0, 0], #v[0, 0, 0, 0], #v[0, 0, 0, 0]⟩

/-- A word cell: its registers now, as they stood before the last cycle it executed (what its neighbours read during
that cycle), its tick shadows (R36), the frame and cycle it last executed, COUT as last driven (R76), its synchronisers,
and its configuration where an upset has altered it (R87). -/
structure CellSt where
  now : CellRegs
  prev : CellRegs
  shadow : CellRegs
  stamp : Nat × Nat
  cout : Bool
  sync : SyncSt
  alt : Option CellCfg
  deriving DecidableEq, Repr

/-- A cell with every register 0. -/
def CellSt.zero : CellSt := ⟨.zero, .zero, .zero, (0, 0), false, .zero, none⟩

/-- Table 5-2: the registers of a slice. -/
structure SliceRegs where
  a : Word
  b : Word
  c : Word
  x : Word
  xd : Word
  acc0 : BitVec 112
  acc1 : BitVec 112
  latch : Word
  fl : Flags
  deriving DecidableEq, Repr

/-- Registers all 0. -/
def SliceRegs.zero : SliceRegs := ⟨0, 0, 0, 0, 0, 0, 0, 0, flags0⟩

/-- A slice: its registers now, as they stood before the last cycle it executed (XIN and ACCIN of the next slice,
R112), its tick shadows, the frame and cycle it last executed, and its configuration where an upset has altered it
(R123). -/
structure SliceSt where
  now : SliceRegs
  prev : SliceRegs
  shadow : SliceRegs
  stamp : Nat × Nat
  alt : Option SliceCfg
  deriving DecidableEq, Repr

/-- A slice with every register 0. -/
def SliceSt.zero : SliceSt := ⟨.zero, .zero, .zero, (0, 0), none⟩

/-- A global segment (R95 to R101), or a relay (R93): its register in the cycle its field stands in and in the cycle
before, the register's tick shadow, whether contention holds it, the value the register captures in the cycle of a trip
(R99), the tick count of its last automatic re-enable, and whether it waits for CLR alone. -/
structure SegSt where
  value : Word
  prev : Word
  shadow : Word
  held : Bool
  trip : Option Word
  autoAt : Option Nat
  clrOnly : Bool
  deriving DecidableEq, Repr

/-- A segment that reads 0 and is not held. -/
def SegSt.zero : SegSt := ⟨0, 0, 0, false, none, none, false⟩

/-- A stored word of a block memory that has been written: its data and its tag (Table 6-1). The check symbols are
those of the data, and a read's operand says what the code finds. -/
structure BmCell where
  data : Word
  tag : BitVec 4
  deriving DecidableEq, Repr

/-- What of a queue controller has a tick shadow (R146). -/
structure QRegs where
  wp : Nat
  rp : Nat
  stop : Bool
  post : Option Nat
  opened : Nat
  /-- Words of a refused message still to drop, part of the open-message count (R142). -/
  refusing : Nat
  ra : Word
  rb : Word
  st : Word
  deriving DecidableEq, Repr

/-- Pointers and outputs all 0. -/
def QRegs.zero : QRegs := ⟨0, 0, false, none, 0, 0, 0, 0, 0⟩

/-- A word with a pending correction write-back (R128). -/
structure WriteBack where
  word : Nat
  data : Word
  tag : BitVec 4
  deriving DecidableEq, Repr

/-- RA, RB and ST as the memory shows them before a later cycle's command changes them: until the second cycle after
`stamp` (R132). -/
structure OldPorts where
  stamp : Nat × Nat
  ra : Word
  rb : Word
  st : Word
  deriving DecidableEq, Repr

/-- A block memory's queue controller and port state: the shadowed registers and their shadow, the committed pointers
(R145), the frame and cycle of the last port command with the ports that acted in it (1 PA, 2 PB) and the words PA wrote
in it (R133), what the ports showed before it, newest first, the cycle whose port B slot is taken (R137), the cycle in
which the post-trigger count ended (R141), the write buffer of a protected field, newest entry first (R159), whether it
overflowed in this frame (R160), pending write-backs, CRP and CWP at the tick of the last snapshot (R168), and the spine requests that wait, the head in service. -/
structure QCtl where
  q : QRegs
  shadow : QRegs
  crp : Nat
  cwp : Nat
  stamp : Nat × Nat
  acted : Nat
  paWrote : List Nat
  before : List OldPorts
  slotAt : Option (Nat × Nat)
  stopStamp : Option (Nat × Nat)
  wbuf : List (Nat × (Option BmCell))
  overflow : Bool
  backs : List WriteBack
  snapC : Nat × Nat
  jobs : List SpineJob
  deriving DecidableEq, Repr

/-- A queue controller at reset. -/
def QCtl.zero : QCtl := ⟨.zero, .zero, 0, 0, (0, 0), 0, [], [], none, none, [], false, [], (0, 0), []⟩

/-- Where a field stands between two ticks (R36, R44, R46): not running frames, in a frame, in a frame that overran,
idle after a late DONE until the next tick, or STUCK. -/
inductive FieldPhase where
  | idle | frame | late | lateDone | stuck
  deriving DecidableEq, Repr

/-- Table 7-2: what starts a replay; the codes are the ARG of a REPLAY event (R167). -/
inductive ReplaySource where
  | config | contention | blockMem | chkfail
  deriving DecidableEq, Repr

/-- What a field keeps of its frame beside its registers. -/
structure FieldSt where
  phase : FieldPhase
  /-- Frames begun; the frame's number in the tick counter; the corrected time of its starting tick; the fabric clock
  in MHz at that tick (R34, R144). -/
  frames : Nat
  frameTick : Nat
  frameTime : Word
  mhz : Nat
  /-- The cycle the field stands in, counted from the starting tick: every earlier one has ended. -/
  cycle : Nat
  /-- The cycle the current replay began in, 0 when the frame has not been replayed (R164). -/
  base : Nat
  /-- The cycle DONE was sampled in, counted from the starting tick (R41). -/
  doneAt : Option Nat
  /-- Tick spans a late frame has crossed, and the frames not begun since (R44, R46). -/
  crossed : Nat
  missed : Nat
  /-- A restart written while STUCK, taken at the next tick (R47). -/
  restart : Bool
  /-- The frame and cycle already counted in SATCYC and in ACCOVF (R70, R119). -/
  satAt : Nat × Nat
  ovfAt : Nat × Nat
  /-- Framed outputs: the values captured in the release registers and the values driven, by output number (R36, R38). -/
  release : List (Nat × Word)
  driven : List (Nat × Word)
  captured : Bool
  /-- Protected execution: the fabric waits for repairs before a replay starts; the frame was replayed; the frame
  failed and is rewound at the next tick (R165); the last commit released a replay (R166). -/
  rewound : Bool
  failed : Bool
  wasReplay : Bool
  /-- A snapshot waits for the field's next frame start (R168), and the acknowledgements its drain still awaits. -/
  snapWait : Bool
  snapLeft : Nat
  /-- The next line to write, the tick counter k of the last snapshot, its corrected time and the operating point then. -/
  snapNext : Nat
  snapTick : Nat
  snapTime : Word
  snapOp : Nat
  /-- The tick of the last BM_UNCORR log entry (R151). -/
  uncorrTick : Option Nat
  /-- The next word the patrol looks at, 2048 j + word (R150). -/
  patrolAt : Nat
  /-- The four probe words (R104). -/
  probe : Vector Word 4
  /-- A fill of BMINIT runs: the memory, or every memory (R149). -/
  fill : Option (Option Nat)
  /-- The boundary switches into the field that were enabled when the fence of their source field began, by 128 edge +
  track, each with the value it passed last (R102, Table 4-3). -/
  fenceHold : List (Nat × Word)
  /-- The field's memory clock and accepted requests have stopped for a reshape or a domain-off (R188, R388). -/
  drained : Bool
  deriving DecidableEq, Repr

/-- A field that runs no frames. -/
def FieldSt.zero : FieldSt :=
  { phase := .idle, frames := 0, frameTick := 0, frameTime := 0, mhz := 0, cycle := 0, base := 0, doneAt := none,
    crossed := 0, missed := 0, restart := false, satAt := (0, 0), ovfAt := (0, 0), release := [], driven := [],
    captured := false, rewound := false, failed := false, wasReplay := false, snapWait := false, snapLeft := 0,
    snapNext := 0, snapTick := 0, snapTime := 0, snapOp := 0, uncorrTick := none, patrolAt := 0,
    probe := #v[0, 0, 0, 0], fill := none, fenceHold := [], drained := false }

end Sys2Proof.Machine
end

