-- ==== Sys2Proof/Machine/StateHost.lean ====
section
/-! DEFINITION. The state of the host bridge (chapter 12): queue pairs with their descriptors and completions, the rings'
indices and the accesses through BAR2. -/
namespace Sys2Proof.Machine

/-- A descriptor (Table 12-6), as fetched: `slot` is its number, how many its pair had fetched before it, and `raw` holds its 64
bytes little-endian. For one that has started: the words read and written so far, the words that have arrived and are not yet written, the responses still to
come, the first failure with the word offset of its request, whether a response carried CORRECTED, the word the result
holds, and whether a condition the operation waits for has come. -/
structure DescSt where
  slot : Nat
  raw : BitVec 512
  rdOff : Nat
  wrOff : Nat
  have_ : List (Nat × Word)
  out : Nat
  fail : Option (Nat × Nat)
  corrected : Bool
  result : Word
  ready : Bool
  deriving DecidableEq, Repr

/-- A completion that waits to be written (Table 12-8). -/
structure Completion where
  qtag : Nat
  status : Nat
  irq : Bool
  result : Word
  time : Word
  deriving DecidableEq, Repr

/-- A queue pair: the tail and completion head the host gave last, SQHEAD, CQTAIL and PHASE, how many descriptors it has fetched, fetched descriptors not yet
started in ring order, those in progress oldest first, completions that wait, whether a descriptor failed since the last
FENCE, whether a fault stopped the pair, and whether a descriptor read is outstanding. -/
structure PairSt where
  sqTail : Nat
  cqHead : Nat
  sqHead : Nat
  cqTail : Nat
  phase : Bool
  count : Nat
  fetched : List DescSt
  active : List DescSt
  waiting : List Completion
  failed : Bool
  stopped : Bool
  fetching : Bool
  deriving DecidableEq, Repr

/-- A pair at reset. -/
def PairSt.zero : PairSt := ⟨0, 0, 0, 0, true, 0, [], [], [], false, false, false⟩

/-- An access through BAR2 that waits for NI 81: the WR_WORDS of one line, or a read of `count` words from `addr`, of
which the first `skip` bytes are not asked for, with its tag and its length in bytes. -/
inductive Bar2Item where
  | write (addr : Word) (mask : BitVec 16) (words : List (Nat × Word))
  | read (tag : Nat) (addr : Word) (count skip bytes : Nat)
  deriving DecidableEq, Repr

/-- A BAR2 read in progress: what it asked for, the words requested so far and received, responses outstanding, and the
STATUS that spoils it. -/
structure Bar2Read where
  tag : Nat
  addr : Word
  count : Nat
  skip : Nat
  bytes : Nat
  issued : Nat
  got : List (Nat × Word)
  out : Nat
  bad : Option Nat
  deriving DecidableEq, Repr

/-- R301: an access of the host that comes while a wake runs and waits for its end: to BAR0, with the data of a write, or
through BAR2. -/
inductive LateAccess where
  | bar0 (off size : Nat) (data : Option (BitVec 64))
  | bar2Write (off : Nat) (bytes : List Byte)
  | bar2Read (off bytes tag : Nat)
  deriving DecidableEq, Repr

/-- The host bridge. -/
structure HostSt where
  pairs : SMap PairSt
  evHead : Nat
  evTail : Nat
  lgHead : Nat
  lgTail : Nat
  /-- The heartbeat word of the last doorbell read, whether a read is outstanding, and whether the next is deferred until it
  is answered (R287). -/
  heart : Option (BitVec 32)
  polling : Bool
  deferred : Bool
  bar2 : List Bar2Item
  reads : List Bar2Read
  nextTag : Nat
  /-- Log entries dropped since the log ring was enabled (Table 12-5). -/
  dropped : Nat
  /-- Accesses that wait for the end of a wake, the oldest first (R301). -/
  late : List LateAccess
  deriving DecidableEq, Repr

/-- The bridge at reset. -/
def HostSt.zero : HostSt := ⟨[], 0, 0, 0, 0, none, false, false, [], [], 0, 0, []⟩

end Sys2Proof.Machine
end

