-- ==== Sys2Proof/Machine/StateLink.lean ====
section
/-! DEFINITION. The state of Stagelink ports and raw lanes (chapter 13). -/
namespace Sys2Proof.Machine

/-- What a port puts on its link: TRAIN (with READY), the wake burst, a CAR with its carriage, CRC-24, LSEQ and ACK, an IDLE with
its two numbers, a NAK with the LSEQ expected, and XOFF or XON of a class (true for responses). -/
inductive LinkBlock where
  | train (ready : Bool)
  | wake
  | car (c : Carriage) (crc : BitVec 24) (lseq ack : BitVec 16)
  | idle (lseq ack : BitVec 16)
  | nak (lseq ack : BitVec 16)
  | xoff (rsp : Bool)
  | xon (rsp : Bool)
  deriving DecidableEq, Repr

/-- A carriage sent and not acknowledged: its LSEQ and how often it has been replayed. -/
structure Unacked where
  lseq : BitVec 16
  c : Carriage
  replays : Nat
  deriving DecidableEq, Repr

/-- A Stagelink port: whether it trains at width 4 after a fallback; training (the lane index received at each lane
position, positions deskewed, positions whose READY 1 has come); carriages that wait to be sent; the next LSEQ and the
replay buffer; the LSEQ expected and whether a NAK is out for it; carriages received and not yet injected; XOFF as
received and as sent, by class; open forwarding entries with the request kept; the corrected times t3, t4 of R323;
the RAW count at which an exit from electrical idle began; and the blocks that wait while the transmitter is idle (R310). -/
structure PortSt where
  fellBack : Bool
  seen : List (Nat × Nat)
  marked : List Nat
  ready : List Nat
  txq : List Carriage
  txSeq : BitVec 16
  replay : List Unacked
  rxSeq : BitVec 16
  nakOut : Bool
  rx : List Carriage
  stopReq : Bool
  stopRsp : Bool
  sentReq : Bool
  sentRsp : Bool
  fwd : List (Nat × List Carriage)
  t3 : Word
  t4 : Word
  haveT : Bool
  exitFrom : Option Nat
  later : List LinkBlock
  deriving DecidableEq, Repr

/-- A port at reset. -/
def PortSt.zero : PortSt :=
  { fellBack := false, seen := [], marked := [], ready := [], txq := [], txSeq := 0, replay := [], rxSeq := 0,
    nakOut := false, rx := [], stopReq := false, stopRsp := false, sentReq := false, sentRsp := false, fwd := [],
    t3 := 0, t4 := 0, haveT := false, exitFrom := none, later := [] }

/-- A raw lane: its FIFOs, the carriages received since EN went to 1, slips pending and the place of the carriage
boundary, both modulo 768, the stamp request of the carriage that left last, whether the last block sent was neither
a terminate nor an idle block, whether the receiver has locked since EN went to 1, and the window of the BER monitor (R314): the
RAW count at which it began and the bad sync headers in it. -/
structure LaneSt where
  tx : List (List Word)
  rx : List (List Word)
  received : Nat
  slip : Nat
  boundary : Nat
  stamp : Option Nat
  openFrame : Bool
  lockedOnce : Bool
  berFrom : Nat
  ber : Nat
  deriving DecidableEq, Repr

/-- A lane at reset. -/
def LaneSt.zero : LaneSt := ⟨[], [], 0, 0, 0, none, false, false, 0, 0⟩

/-- What a raw lane puts on its line: a carriage, the RAW48 fill carriage, an idle block, an error block (R313) or the wake burst (R310). -/
inductive LaneSent where
  | carriage (ws : List Word)
  | fill
  | idleBlock
  | errorBlock
  | wake
  deriving DecidableEq, Repr

end Sys2Proof.Machine
end

