-- ==== Sys2Proof/Machine/StatePower.lean ====
section
/-! DEFINITION. The state of power, clocks, pins, straps, fuses and the test access port (chapters 17, 19 and 21). -/
namespace Sys2Proof.Machine

/-- Power and clocks beside their registers: the supplies are valid (R469); the DOMBUSY step each domain stands at
(codes of Table 17-6, 0 idle); a committed domain change waits (R389); a point asked for while PWR was disabled, which the next
tick takes in (R18, R57); the point a raise goes to, the VCORE point before the running change, and whether its
power-good has held (R57); a lowering whose voltage has yet to settle (R58); the VCORE target commanded in mV (R404); PMBus
failures in a row (R405); the level of SAFE_N. -/
structure PowerSt where
  powered : Bool
  steps : SMap Nat
  waiting : Bool
  asked : Option Nat
  raising : Option Nat
  old : Nat
  good : Bool
  lowering : Bool
  target : Int
  fails : Nat
  safeN : Bool
  deriving DecidableEq, Repr

/-- Straps as tied: CFG_MODE, PULL_CFG, DBG_EN (R466). -/
structure Straps where
  mode : Nat
  pullUp : Bool
  dbgEn : Bool
  deriving DecidableEq, Repr

/-- The fuses: repair records in their slots (R439), owner-key digests by slot and revoke bits (R175), the fuse root, and
the identity fuses the machine acts on (R172, R477): die revision, temperature and speed grade, unit ID. -/
structure FuseSt where
  records : List (BitVec 32)
  owners : SMap (List (BitVec 32))
  revoked : Nat
  root : Option (List (BitVec 32))
  rev : Nat
  temp : Nat
  speed : Nat
  unit : Nat
  deriving DecidableEq, Repr

/-- Table 21-6: the instructions of the test access port. -/
inductive TapInstr where
  | bypass | samplePreload | extest | clamp | highz | idcode | dbgReg | scanEnter
  deriving DecidableEq, Repr

/-- The test access port: the instruction in effect, the bypass bit, the data register an identification read loads, the
boundary-scan register's cells, and the DBG_REG capture value with an access pending (R440). -/
structure TapSt where
  instr : TapInstr
  bypass : Bool
  idreg : BitVec 32
  cells : List Bool
  capture : BitVec 58
  busy : Bool
  deriving DecidableEq, Repr

/-- A reset port shifts IDCODE, as IEEE 1149.1 has it. -/
def TapSt.zero : TapSt := ⟨.idcode, false, 0, [], 0, false⟩

/-- I/O banks: the device-section words in effect by number (1 to 392, R460), banks out of range, and banks that return at
the next tick (R462). -/
structure PinsSt where
  device : SMap Word
  off : SMap Bool
  back : SMap Bool
  deriving DecidableEq, Repr

end Sys2Proof.Machine
end

