-- ==== Sys2Proof/Machine/StateTime.lean ====
section
/-! DEFINITION. The state of the timetable, the trigger matrix and the timestamp points (chapter 11). -/
namespace Sys2Proof.Machine

/-- A timetable entry, Table 11-4: W0 to W3. -/
structure TtEntry where
  time : Word
  period : Word
  w2 : Word
  arg : Word
  deriving DecidableEq, Repr

/-- A column: its entries, head first, and the slot of the head (R264). -/
structure TtColumn where
  entries : List TtEntry
  head : Nat
  deriving DecidableEq, Repr

/-- An empty column. -/
def TtColumn.zero : TtColumn := ⟨[], 0⟩

/-- An entry the dispatcher took, whose action is still to be performed: its column, and whether it was taken late and
acts as early as it can (R268). -/
structure TtTaken where
  col : Nat
  entry : TtEntry
  late : Bool
  deriving DecidableEq, Repr

/-- The LEVEL state of a TIME_OUT pin, with the time and column of the action that set it (R266). -/
structure PinLevel where
  level : Bool
  time : Word
  col : Nat
  deriving DecidableEq, Repr

/-- A pin no action has set. -/
def PinLevel.zero : PinLevel := ⟨false, 0, 0⟩

/-- The timetable: columns, taken entries, LEVEL states by TIME_OUT number, running pulses (pin, start, width in time
units), and the tick of the last logged miss and of the last logged write failure (R268, R493). -/
structure TtSt where
  cols : SMap TtColumn
  taken : List TtTaken
  levels : SMap PinLevel
  pulses : List (Nat × Word × Nat)
  missTick : Option Nat
  failTick : Option Nat
  deriving DecidableEq, Repr

/-- An empty timetable. -/
def TtSt.zero : TtSt := ⟨[], [], [], [], none, none⟩

/-- The trigger matrix: input levels, the RAW time at which an output's running pulse ends, outputs 24 to 103 as last delivered, edges held until
their time (time, input, level, R492), and notifications and remote edges that wait for NI 93 (output, time, level). -/
structure MatrixSt where
  inputs : SMap Bool
  pulses : SMap (Option Nat)
  outs : SMap Bool
  held : List (Word × Nat × Bool)
  waiting : List (Nat × Word × Bool)
  deriving DecidableEq, Repr

/-- A matrix with every line low. -/
def MatrixSt.zero : MatrixSt := ⟨[], [], [], [], []⟩

/-- A transmit stamp (R259). -/
structure TxStamp where
  time : Word
  id : Nat
  lane : Nat
  deriving DecidableEq, Repr

/-- A timestamp point: its queue, oldest first, and the time of the entry popped last. -/
structure TspSt where
  queue : List TxStamp
  popped : Word
  deriving DecidableEq, Repr

/-- An empty timestamp point. -/
def TspSt.zero : TspSt := ⟨[], 0⟩

end Sys2Proof.Machine
end

