-- ==== Sys2Proof/Machine/State.lean ====
section
/-! DEFINITION. The machine's state as plain data: every register, memory, queue, counter, mode and pin the spec gives
the P4824, the commands that wait, and the block's outputs to the world outside. -/
namespace Sys2Proof.Machine

/-- Reasons the block stops with a fault. No command of this block has one: an access to an address that does not exist
reads 0 or is answered on the spine (R136, R483, R489), and a wrong command changes an error bit. -/
inductive Fault where
  /-- Raised by no command; it keeps the type inhabited. Safe. -/
  | none
  deriving DecidableEq, Repr

/-- Reasons a command has no effect the model can give. -/
inductive Refusal where
  /-- A command that has no meaning yet, by its row's mnemonic. Raised by exec's arms alone. Safe. -/
  | notModelled (mnemonic : String)
  deriving DecidableEq, Repr

/-- A staged SHADOW value of one register (R12, R51, R52): the bits staged and their values, from the host (the host
bridge and the debug port) and from the steward. -/
structure Staged where
  hostMask : Reg
  hostVal : Reg
  stwMask : Reg
  stwVal : Reg
  deriving DecidableEq, Repr

/-- Nothing staged. -/
def Staged.none : Staged := ⟨0, 0, 0, 0⟩

/-- R11, R124: what an access path keeps: read latches by the offset of the LO register (the latched wrap count and last tick
time of R247 among them), staged LO values, the wide latch of slice accumulators by field, and the first halves of key
sequences by the offset of the KEY register, with the steward's time at which each was written (R409, R439, R442). -/
structure PathSt where
  latch : SMap (BitVec 32)
  staging : SMap (Option Reg)
  wide : SMap (BitVec 64)
  keys : SMap (Option Nat)
  deriving DecidableEq, Repr

/-- Latches at reset hold 0 (R10). -/
def PathSt.zero : PathSt := ⟨[], [], [], []⟩

/-- What the block hands to the world outside, oldest first: a posted write of bytes to host memory, a read request
of host memory, an MSI-X vector, and the completion of a BAR2 read (none for Completer Abort; with the EP bit where the
data is poisoned). -/
inductive HostOut where
  | write (addr : Word) (bytes : List Byte) (relaxed : Bool)
  | read (addr : Word) (bytes : Nat)
  | msix (vector : Nat)
  | bar2 (tag : Nat) (data : Option (List Byte)) (poisoned : Bool)
  deriving DecidableEq, Repr

/-- The machine. -/
structure State where
  /-- Commands that wait, first in, first out. -/
  pending : List Instr
  /-- Every register of BAR0 by byte offset; an unlisted register holds its reset value. -/
  regs : SMap Reg
  /-- Staged SHADOW values by register offset. -/
  staged : SMap Staged
  hostPath : PathSt
  debugPath : PathSt
  stewardPath : PathSt
  /-- The value the last register read returned, and the path that read it. -/
  readOut : Path × BitVec 64
  mode : ModeSt
  time : TimeSt
  /-- Next SEQ by SRC (R271). -/
  seqs : SMap (BitVec 16)
  pass : PassSt
  tt : TtSt
  matrix : MatrixSt
  /-- Timestamp points by number. -/
  tsp : SMap TspSt
  /-- Log-ring entries not yet written to the host, oldest first. -/
  log : List LogEntry
  hostOut : List HostOut
  host : HostSt
  cells : SMap CellSt
  slices : SMap SliceSt
  segs : SMap SegSt
  /-- Block memories by 2048 (192 f + j) + word; an unlisted word has not been written (R148). -/
  bmem : SMap (Option BmCell)
  queues : SMap QCtl
  fields : SMap FieldSt
  /-- Routers and NIs by number. -/
  routers : SMap RouterSt
  /-- The latest spine cycle in which a router sent (ages are counted from it, R213). -/
  spineNow : Nat
  nis : SMap NiSt
  /-- Stagelink ports and lanes by number, and what they have put on their lines, oldest first. -/
  ports : SMap PortSt
  lanes : SMap LaneSt
  linkOut : List (Nat × LinkBlock)
  laneOut : List (Nat × LaneSent)
  /-- Configuration memory of each configured field. -/
  images : SMap (Option FieldImage)
  cfg : CfgSt
  power : PowerSt
  straps : Straps
  /-- The fuses, and what of them the last device reset found (R439, R481). -/
  fuses : FuseSt
  atReset : FuseSt
  tap : TapSt
  pins : PinsSt
  /-- DRAM channels by number. -/
  drams : SMap ChSt
  cry : CrySt
  stw : StwSt
  bist : BistSt
  dbg : DbgSt
  /-- Uses so far of the open values of Config. The model's own field. -/
  free : Nat
  deriving DecidableEq, Repr

/-- The machine at the end of a device reset (R408): BARE, every register and table at its reset value, every domain on,
no synthesizer locked yet, no command waiting; the transition to BARE has its log entry and its event (R30). The straps are tied for CFG_MODE HOST with pull-downs, and the fuses hold no
repair, no owner key and no root, with die revision 1 and grade 2C (DESIGN CHOICE, log entry 2). -/
def State.reset : State :=
  { pending := [], regs := [], staged := [], hostPath := .zero, debugPath := .zero, stewardPath := .zero,
    readOut := (.host, 0),
    mode := { base := .bare, ov := ⟨false, false, false, false, false, false⟩, busy := false, before := .bare,
              drain := none, pending := [], runNext := false, backNext := false, lost := 0 },
    time := { running := false, raw := 0, anchor := 0, offset := 0, nowx := 0, tick := 0, lastT := 0, ticks := false,
              numbered := false, placed := none, nextTick := none, lock := .none, good := 0, missing := 0,
              outliers := 0, lastEdge := none, requalified := false, unhalted := 0 },
    seqs := [(92, 1)], pass := ⟨[(⟨0, 0, 1, 0, 92, 0⟩, false)], [], 0, [], [], []⟩, tt := .zero, matrix := .zero, tsp := [], log := [⟨0, 0, 1, 92, 0, 0⟩], hostOut := [],
    host := .zero, cells := [], slices := [], segs := [], bmem := [], queues := [], fields := [], routers := [],
    spineNow := 0, nis := [], ports := [], lanes := [], linkOut := [], laneOut := [], images := [],
    cfg := .zero,
    power := { powered := true, steps := [], waiting := false, asked := none, raising := none, old := 0, good := false,
               lowering := false, target := 0, fails := 0, safeN := true },
    straps := ⟨0, false, false⟩,
    fuses := { records := [], owners := [], revoked := 0, root := none, rev := 1, temp := 1, speed := 2, unit := 0 },
    atReset := { records := [], owners := [], revoked := 0, root := none, rev := 1, temp := 1, speed := 2, unit := 0 },
    tap := .zero, pins := ⟨[], [], []⟩, drams := [], cry := .zero, stw := .zero, bist := .zero, dbg := .zero, free := 0 }

end Sys2Proof.Machine
end

