-- ==== Sys2Proof/Machine/Ops.lean ====
section
/-! DEFINITION. The named operations every unit uses: registers and their fields, the fabric tables, corrected time,
free values, event posting (R271, R272), the log ring (R424), interrupts (R297) and mode transitions (R30, R488). -/
namespace Sys2Proof.Machine

/-- A meaning's answer: the next state. -/
abbrev Ans := Host.Outcome State Fault Refusal

/-! ## Registers -/

/-- The value of a register. -/
def State.reg (s : State) (r : RegRef) : Nat := (SMap.get s.regs (BitVec.ofNat 32 r.rst) r.off).toNat

/-- A register takes a value. -/
def State.setReg (s : State) (r : RegRef) (v : Nat) : State :=
  { s with regs := SMap.set s.regs (BitVec.ofNat 32 r.rst) r.off (BitVec.ofNat 32 v) }

/-- The value of a register field. -/
def State.get (s : State) (f : Fld) : Nat := bitsOf f.lo f.w (s.reg f.reg)

/-- A register field takes a value. -/
def State.put (s : State) (f : Fld) (v : Nat) : State := s.setReg f.reg (setBitsOf f.lo f.w (s.reg f.reg) v)

/-- Whether a one-bit field is 1. -/
def State.is (s : State) (f : Fld) : Bool := s.get f == 1

/-- Hardware sets a one-bit field. -/
def State.raise (s : State) (f : Fld) : State := s.put f 1

/-- Hardware clears a field. -/
def State.clear (s : State) (f : Fld) : State := s.put f 0

/-- A counting field advances and saturates. -/
def State.bump (s : State) (f : Fld) (n : Nat) : State := s.put f (satAdd f.w (s.get f) n)

/-- A field that holds the largest value seen. -/
def State.peak (s : State) (f : Fld) (v : Nat) : State := s.put f (max (s.get f) (min v (2 ^ f.w - 1)))

/-- A field counts modulo its width. -/
def State.count (s : State) (f : Fld) (n : Nat) : State := s.put f (s.get f + n)

/-- The 48-bit value of a LO/HI pair (R10). -/
def State.pair (s : State) (lo hi : RegRef) : Nat := s.reg lo + 2 ^ 32 * (s.reg hi % 2 ^ 16)

/-- A LO/HI pair takes a 48-bit value. -/
def State.setPair (s : State) (lo hi : RegRef) (v : Nat) : State :=
  (s.setReg lo (v % 2 ^ 32)).setReg hi (v / 2 ^ 32 % 2 ^ 16)

/-! ## Tables -/

def State.fld (s : State) (f : Nat) : FieldSt := SMap.get s.fields FieldSt.zero f
def State.setFld (s : State) (f : Nat) (x : FieldSt) : State := { s with fields := SMap.set s.fields FieldSt.zero f x }
/-- Key of a cell, a slice, a memory: the field's number times their number in a field, plus the own number. -/
def cellKey (f c k : Nat) : Nat := 16384 * f + 64 * c + k
def sliceKey (f i : Nat) : Nat := 512 * f + i
def memKey (f j : Nat) : Nat := 192 * f + j
def segKey (f d : Nat) : Nat := 2048 * f + d
def State.cell (s : State) (k : Nat) : CellSt := SMap.get s.cells CellSt.zero k
def State.setCell (s : State) (k : Nat) (x : CellSt) : State := { s with cells := SMap.set s.cells CellSt.zero k x }
def State.slice (s : State) (k : Nat) : SliceSt := SMap.get s.slices SliceSt.zero k
def State.setSlice (s : State) (k : Nat) (x : SliceSt) : State :=
  { s with slices := SMap.set s.slices SliceSt.zero k x }
def State.seg (s : State) (k : Nat) : SegSt := SMap.get s.segs SegSt.zero k
def State.setSeg (s : State) (k : Nat) (x : SegSt) : State := { s with segs := SMap.set s.segs SegSt.zero k x }
def State.queue (s : State) (k : Nat) : QCtl := SMap.get s.queues QCtl.zero k
def State.setQueue (s : State) (k : Nat) (x : QCtl) : State := { s with queues := SMap.set s.queues QCtl.zero k x }
/-- A stored word of a block memory; none if it has not been written since the rule that unwrites it (R148). -/
def State.word (s : State) (m w : Nat) : Option BmCell := SMap.get s.bmem none (2048 * m + w)
def State.setWord (s : State) (m w : Nat) (x : Option BmCell) : State :=
  { s with bmem := SMap.set s.bmem none (2048 * m + w) x }
def State.router (s : State) (n : Nat) : RouterSt := SMap.get s.routers RouterSt.zero n
def State.setRouter (s : State) (n : Nat) (x : RouterSt) : State :=
  { s with routers := SMap.set s.routers RouterSt.zero n x }
def State.ni (s : State) (n : Nat) : NiSt := SMap.get s.nis NiSt.zero n
def State.setNi (s : State) (n : Nat) (x : NiSt) : State := { s with nis := SMap.set s.nis NiSt.zero n x }
/-- What the configuration memory holds of a field; none if the field is unconfigured. -/
def State.image (s : State) (f : Nat) : Option FieldImage := SMap.get s.images none f
def State.setImage (s : State) (f : Nat) (x : Option FieldImage) : State :=
  { s with images := SMap.set s.images none f x }
def State.configured (s : State) (f : Nat) : Bool := (s.image f).isSome
/-- Some field is configured. -/
def State.anyConfigured (s : State) : Bool := (List.range 24).any fun f => s.configured f
/-- A fact about an association list: the value of a key, or a default. -/
def lookupD {α : Type} (l : List (Nat × α)) (k : Nat) (d : α) : α := ((l.find? fun e => e.1 == k).map (·.2)).getD d

/-- R387: a power domain is on, by Table 17-1's code. -/
def State.domainOn (s : State) (d : Nat) : Bool :=
  if d < 32 then bitOf d (s.reg R.PWR_DOMSTAT0) else bitOf (d - 32) (s.reg R.PWR_DOMSTAT1)

/-! ## Free values -/

/-- An open word, and the state in which the next one is another. -/
def State.freeWord (s : State) : Word × State := (Config.freeWord s.free, { s with free := s.free + 1 })
/-- An open number. -/
def State.freeNat (s : State) : Nat × State := (Config.freeNat s.free, { s with free := s.free + 1 })

/-! ## Time -/

/-- TIME.INCR. -/
def State.incr (s : State) : Nat := s.pair R.TIME_INCR_LO R.TIME_INCR_HI

/-- R244: corrected time. -/
def State.correctedNat (s : State) : Nat :=
  (s.time.offset + s.incr * ((s.time.raw + 2 ^ 48 - s.time.anchor) % 2 ^ 48) / 2 ^ 24) % 2 ^ 48
def State.now (s : State) : Word := BitVec.ofNat 48 s.correctedNat

/-! ## Events and the log -/

/-- DEV of a local block's record (R272). -/
def State.devid (s : State) : BitVec 8 := BitVec.ofNat 8 (s.get F.TIME_CTL_DEVID)

/-- R272: whether the frame a record belongs to has closed: a frame is open, and the record's time lies before the
first open one. With no tick yet, no frame has closed. -/
def PassSt.isLate (p : PassSt) (t : Word) : Bool :=
  match p.frames with
  | [] => false
  | (_, t0) :: _ => decide (signed 48 ((t - t0).toNat) < 0)

/-- R272, R274: a record reaches the Pass: it is held, or dropped when 8,192 are held. -/
def State.passTake (s : State) (r : EvRec) : State :=
  if s.pass.held.length + s.pass.out.length < 8192 then
    let late := s.pass.isLate r.time
    let s := { s with pass := { s.pass with held := s.pass.held ++ [(r, late)] } }
    if late then s.bump F.TIME_PASS_STAT_LATE 1 else s
  else
    { s with pass := { s.pass with dropped := s.pass.dropped + 1 } }.bump F.TIME_PASS_STAT_DROP 1

/-- R271: a local block posts a record of the present instant. -/
def State.post (s : State) (code src arg : Nat) : State :=
  let q := SMap.get s.seqs 0 src
  let r : EvRec := { time := s.now, arg := BitVec.ofNat 8 arg, code := BitVec.ofNat 9 code, dev := s.devid,
                     src := BitVec.ofNat 7 src, seq := q }
  { s with seqs := SMap.set s.seqs 0 src (q + 1) }.passTake r

/-- R271: a local block posts a record that reports another instant. -/
def State.postAt (s : State) (t : Word) (code src arg : Nat) : State :=
  let q := SMap.get s.seqs 0 src
  let r : EvRec := { time := t, arg := BitVec.ofNat 8 arg, code := BitVec.ofNat 9 code, dev := s.devid,
                     src := BitVec.ofNat 7 src, seq := q }
  { s with seqs := SMap.set s.seqs 0 src (q + 1) }.passTake r

/-- R424, R289: an entry of the log ring: the steward holds up to 256 and counts further ones as dropped. -/
def State.logEntry (s : State) (code src arg detail : Nat) : State :=
  if s.log.length < 256 then
    { s with log := s.log ++ [{ time := s.now, tick := BitVec.ofNat 16 s.time.tick, code := BitVec.ofNat 16 code,
                                source := BitVec.ofNat 16 src, arg := BitVec.ofNat 64 arg,
                                detail := BitVec.ofNat 96 detail }] }
  else { s with host := { s.host with dropped := s.host.dropped + 1 } }

/-- An event, with the log entry that R424 lays out for it. -/
def State.postLog (s : State) (code src arg : Nat) : State := (s.logEntry code src arg 0).post code src arg

/-- A log entry whose code no rule gives: an open value. -/
def State.logOpen (s : State) (src arg : Nat) : State :=
  let p := s.freeNat
  p.2.logEntry p.1 src arg 0

/-- A once-in-a-tick log entry: written when the tick counter has moved since `last`. -/
def State.newTick (s : State) (last : Option Nat) : Bool := last != some s.time.tick

/-- A detection that loop k of the steward counts for an instance (Table 18-1). -/
def State.see (s : State) (k i : Nat) : State :=
  let n := 1024 * k + i
  { s with stw := { s.stw with seen := SMap.set s.stw.seen 0 n (SMap.get s.stw.seen 0 n + 1) } }

/-- The SRC of a field's events: its first NI (Table 9-1, Table 11-6). -/
def fieldSrc (f : Nat) : Nat := 3 * f

/-! ## Interrupts -/

/-- The vector control word of MSI-X vector `v`, and the word of the pending-bit array that holds its bit. -/
def msixCtl (v : Nat) : RegRef := ⟨0x7000C + 16 * v, 1⟩
def msixPba (v : Nat) : RegRef := ⟨0x78000 + 4 * (v / 32), 0⟩

/-- R297, R298: interrupt source `n` fires: its vector's message is sent, or stays pending while the vector is masked. -/
def State.interrupt (s : State) (n : Nat) : State :=
  let b := bitsOf (8 * (n % 4)) 8 (s.reg (R.HB_IVSEL (n / 4)))
  if bitOf 7 b then s
  else
    let v := b % 64
    if bitOf 0 (s.reg (msixCtl v)) then s.put ⟨msixPba v, v % 32, 1⟩ 1
    else { s with hostOut := s.hostOut ++ [.msix v] }

/-- A bit of HB.ERR is set; its change from 0 to 1 raises source 35 (Table 12-10). -/
def State.hbError (s : State) (f : Fld) : State := if s.is f then s else (s.raise f).interrupt 35

/-! ## Modes -/

/-- R24: the active condition of highest precedence. -/
def ModeSt.top (m : ModeSt) : Mode :=
  if m.ov.safeHold then .safeHold else if m.ov.freeze then .freeze else if m.ov.selfTest then .selfTest
  else if m.ov.halt then .halt else if m.ov.valley then .valley else if m.base = .holdover then .holdover
  else if m.ov.reshape then .reshape else m.base

/-- GLB.STATUS.ACT: one bit for each active mode. -/
def ModeSt.act (m : ModeSt) : Nat :=
  2 ^ m.base.code + 2 ^ 8 * bit m.ov.safeHold + 2 ^ 11 * bit m.ov.freeze + 2 ^ 10 * bit m.ov.selfTest +
    2 ^ 9 * bit m.ov.halt + 2 ^ 7 * bit m.ov.valley + 2 ^ 5 * bit m.ov.reshape

/-- An overlay other than RESHAPE suspends the base mode (R23). -/
def ModeSt.suspended (m : ModeSt) : Bool :=
  m.ov.safeHold || m.ov.freeze || m.ov.selfTest || m.ov.halt || m.ov.valley

/-- Frames run: RUN or HOLDOVER, not suspended. -/
def ModeSt.running (m : ModeSt) : Bool := (decide (m.base = .run) || decide (m.base = .holdover)) && !m.suspended

/-- CAUSE codes of GLB.TRANS, Table 1-13. -/
inductive Cause where
  | reset | host | load | lock | clock | debug | wake | fatal | safeN | selfTest | reshape
  deriving DecidableEq, Repr

def Cause.code : Cause → Nat
  | .reset => 0 | .host => 1 | .load => 2 | .lock => 3 | .clock => 4 | .debug => 5 | .wake => 6 | .fatal => 7
  | .safeN => 8 | .selfTest => 9 | .reshape => 10

/-- R30: transitions that hardware causes, as against a host or debug request. -/
def Cause.byHardware : Cause → Bool
  | .reset | .host | .debug => false
  | _ => true

/-- R30, R488: what every transition and every rejected request writes: GLB.TRANS, one log entry, one event, and the
interrupt of a hardware cause. `flags` are REJ and BUSYREJ, `req` the code of a rejected request, `lost` the frames
added to GLB.LOSTFRAMES. -/
def State.noteMode (s : State) (old new : Mode) (c : Cause) (lost flags req : Nat) : State :=
  let a := 16 * old.code + new.code
  let s := s.setReg R.GLB_TRANS (old.code + 16 * new.code + 256 * c.code + 2 ^ 23 * bit (flags != 0))
  let s := s.logEntry 0x0001 92 (a + 256 * c.code + 65536 * (lost % 2 ^ 48)) (flags + 256 * req)
  let s := s.post 0x001 92 a
  if c.byHardware && flags == 0 then s.interrupt 34 else s

/-- A transition of the mode machine to `m`. -/
def State.enterMode (s : State) (m : ModeSt) (c : Cause) : State :=
  { s with mode := m }.noteMode s.mode.top m.top c 0 0 0

/-- R29: frames that passed without starting are added to GLB.LOSTFRAMES, which is 48 bits wide. -/
def State.addLost (s : State) (n : Nat) : State :=
  s.setPair R.GLB_LOSTFRAMES_LO R.GLB_LOSTFRAMES_HI ((s.pair R.GLB_LOSTFRAMES_LO R.GLB_LOSTFRAMES_HI + n) % 2 ^ 48)

/-- A transition at which frames resume: the ticks lost are counted and put in the log entry (R29). -/
def State.resumeMode (s : State) (m : ModeSt) (c : Cause) : State :=
  let n := s.mode.lost
  let s' := { s with mode := { m with lost := 0 } }
  (s'.addLost n).noteMode s.mode.top m.top c n 0 0

/-- R26, R30: a request that Table 1-5 does not allow, or that arrives while BUSY is 1, changes nothing but its error
bit and the record of the rejection. -/
def State.rejectRequest (s : State) (req : Nat) : State :=
  if s.mode.busy then (s.raise F.GLB_ERR_BUSYREJ).noteMode s.mode.top s.mode.top .host 0 3 req
  else (s.raise F.GLB_ERR_REJECT).noteMode s.mode.top s.mode.top .host 0 1 req

/-- A hardware cause that stays pending under a mode of higher precedence (R25). -/
def State.pendCause (s : State) (h : HwCause) : State :=
  if s.mode.pending.contains h then s
  else { s with mode := { s.mode with pending := s.mode.pending ++ [h] } }

/-! ## Applying a step to each of a list -/

/-- Fold a state over a list of numbers. -/
def State.forEach (s : State) (l : List Nat) (g : State → Nat → State) : State := l.foldl g s

/-- The 24 fields. -/
def allFields : List Nat := List.range 24

/-! ## Sweeps of configuration frames -/

/-- R186: the sections of an accepted image that is not committed yet. -/
def State.accepted (s : State) : List (Nat × FieldImage) :=
  match s.cfg.load with
  | some l => (match l.phase with | .waitStop | .draining | .write | .sweep | .waitCommit => l.sections | _ => [])
  | none => []
/-- RAW has reached count `r`: counts within 2^47 behind it lie in the past. -/
def State.rawPast (s : State) (r : Nat) : Bool := decide ((s.time.raw + 2 ^ 48 - r % 2 ^ 48) % 2 ^ 48 < 2 ^ 47)
/-- R192: a field's frames wait for a sweep that ends `n` ns from now. -/
def State.awaitSweep (s : State) (f n : Nat) : State :=
  { s with cfg := { s.cfg with sweeps := SMap.set s.cfg.sweeps none f (some ((s.time.raw + n) % 2 ^ 48)) } }
/-- R192: sensing starts again: every sweep in progress begins anew. -/
def State.restartSweeps (s : State) : State :=
  let done := (s.time.raw + 1792) % 2 ^ 48
  let load := s.cfg.load.map fun l => if l.phase = .sweep then { l with sweepEnd := done } else l
  { s with cfg := { s.cfg with load := load, sweeps := s.cfg.sweeps.map fun e => (e.1, some done) } }
/-- R192: the sweep that the frames of a field wait for, if any, is complete, and so are its repairs. -/
def State.swept (s : State) (f : Nat) : Bool :=
  match SMap.get s.cfg.sweeps none f with
  | none => true
  | some r => s.is F.SCR_CTL_EN && s.rawPast r && !s.cfg.repairs.any fun q => q.field == f

end Sys2Proof.Machine
end

