-- ==== Sys2Proof/Machine/Operands.lean ====
section
/-! DEFINITION. The operand forms of cells: entry fields and configuration words (Table 3-2, Table 3-7), sources (Table
3-3), the carry chain (R76, R77) and when a field executes (R64). -/
namespace Sys2Proof.Machine

/-- Table 3-2: the fields of an entry word, and its OP. -/
def entryOf (w : Word) : EntryFields :=
  { sat := w.getLsbD 40, dst := (w.extractLsb' 37 3).toFin, srca := (w.extractLsb' 34 3).toFin,
    srcb := (w.extractLsb' 31 3).toFin, srcc := (w.extractLsb' 28 3).toFin, cond := (w.extractLsb' 24 4).toFin,
    shift := w.extractLsb' 16 8, imm := w.extractLsb' 0 16 }
def opOf (w : Word) : Nat := (w.extractLsb' 41 7).toNat

/-- The OP codes of Table 3-5. -/
def cellOps : List Nat :=
  [0x00, 0x01, 0x02, 0x03, 0x04, 0x05, 0x06, 0x07, 0x08, 0x09, 0x0A, 0x0B, 0x10, 0x11, 0x12, 0x13, 0x14, 0x15, 0x16,
   0x17, 0x18, 0x19, 0x20, 0x21, 0x22, 0x23, 0x24, 0x25, 0x26, 0x27, 0x28, 0x30, 0x31, 0x32, 0x33, 0x34, 0x38, 0x39,
   0x3A, 0x3B, 0x3C, 0x3D, 0x3E, 0x3F, 0x40, 0x41, 0x44, 0x45, 0x46, 0x47, 0x48, 0x49] ++
  [0x50, 0x51, 0x52, 0x53, 0x54, 0x55, 0x56, 0x57, 0x58, 0x59, 0x5A, 0x5B, 0x5C, 0x70]

/-- Lane operations, and the shift and field operations whose SHIFT bits 7:6 must be 0 (R73). -/
def isLaneOp (op : Nat) : Bool := decide (0x50 ≤ op ∧ op ≤ 0x5C)
def isShiftOp (op : Nat) : Bool :=
  op == 0x09 || op == 0x19 || decide (0x20 ≤ op ∧ op ≤ 0x28) || decide (0x30 ≤ op ∧ op ≤ 0x32)

/-- R87: a field that Table 3-8 forbids, other than DST, makes the entry execute as NOP. -/
def cellForbidden (op : Nat) (e : EntryFields) (len : Nat) : Bool :=
  (isLaneOp op && e.shift.toNat / 64 == 0) || (isShiftOp op && e.shift.toNat / 64 != 0) ||
  ((op == 0x30 || op == 0x31 || op == 0x32) && e.srca.val == 7) || (op == 0x32 && e.srcb.val == 7) ||
  (op == 0x70 && decide (4 < len))

/-! ## Configuration words -/

def CellCfg.lutOnly (c : CellCfg) : Bool := c.word.getLsbD 39
def CellCfg.chain (c : CellCfg) : Bool := c.word.getLsbD 38
def CellCfg.o1Sel (c : CellCfg) : Nat := (c.word.extractLsb' 36 2).toNat
/-- Register r is wire-clocked; its wire operation and its clock bit of Z. -/
def CellCfg.wired (c : CellCfg) (r : Nat) : Bool := c.word.getLsbD (9 * r + 8)
def CellCfg.wop (c : CellCfg) (r : Nat) : Nat := (c.word.extractLsb' (9 * r + 6) 2).toNat
def CellCfg.wcBit (c : CellCfg) (r : Nat) : Nat := (c.word.extractLsb' (9 * r) 6).toNat
def CellCfg.init (c : CellCfg) (r : Nat) : Word :=
  match r with | 0 => c.initA | 1 => c.initB | 2 => c.initC | _ => c.initD

/-- What an image holds of a cell; a cell it does not list is unused (R63). -/
def FieldImage.cell (i : FieldImage) (k : Nat) : CellCfg := lookupD i.cells k CellCfg.unused
/-- The sequence length L of a cluster: its cluster control holds L − 1 (R63, R88). -/
def FieldImage.len (i : FieldImage) (m : Nat) : Nat := lookupD i.lengths m 0 % 8 + 1
/-- The entry word a cell executes in work cycle t. -/
def CellCfg.entry (c : CellCfg) (idx : Nat) : Word := c.entries.getD idx 0

/-- The configuration a cell or slice runs on: as an upset has altered it, else as the image has it (R87, R123). -/
def State.cellCfg (s : State) (i : FieldImage) (f k : Nat) : CellCfg := (s.cell (16384 * f + k)).alt.getD (i.cell k)
def FieldImage.slice (i : FieldImage) (k : Nat) : SliceCfg := lookupD i.slices k SliceCfg.unused
def State.sliceCfg (s : State) (i : FieldImage) (f k : Nat) : SliceCfg := (s.slice (sliceKey f k)).alt.getD (i.slice k)
def SliceCfg.entry (c : SliceCfg) (idx : Nat) : Word := c.entries.getD idx 0

def CellRegs.get (r : CellRegs) (k : Nat) : Word := match k with | 0 => r.a | 1 => r.b | 2 => r.c | _ => r.d
def CellRegs.set (r : CellRegs) (k : Nat) (v : Word) : CellRegs :=
  match k with | 0 => { r with a := v } | 1 => { r with b := v } | 2 => { r with c := v } | _ => { r with d := v }

/-! ## When a field executes -/

/-- Budget B of the field's current frame (R34). -/
def State.budget (s : State) (f : Nat) : Nat := s.get (F.FLD_BUDGET_CYC f)

/-- The frame and cycle, counted from the starting tick, of work cycle `t` (R164: a replay counts from its start). -/
def FieldSt.stamp (x : FieldSt) (t : Nat) : Nat × Nat := (x.frames, x.base + t)
/-- The frame and cycle a field stands in. -/
def FieldSt.here (x : FieldSt) : Nat × Nat := (x.frames, x.cycle)

/-- R46: spans crossed after which a late field is STUCK at the tick. -/
def State.spent (s : State) (f : Nat) : Bool := decide (s.get (F.FLD_CTL_OVR_MAX f) < (s.fld f).crossed)

/-- R36, R37, R44, R64: whether cycle `c` of the field's frame is a work cycle of it: the cycle lies in the budget or the
frame is late, and the clocks have not stopped at DONE. -/
def State.works (s : State) (f c : Nat) : Bool :=
  let x := s.fld f
  match x.phase, x.doneAt with
  | .frame, none => decide (c < s.budget f)
  | .frame, some d => decide (c < s.budget f) && (!s.is (F.FLD_CTL_IDLEGATE f) || decide (c ≤ d))
  | .late, none => !s.spent f
  | .late, some d => decide (c ≤ d)
  | .lateDone, some d => decide (c ≤ d)
  | _, _ => false
/-- Whether the field's cells and slices execute in work cycle `t`: the mode runs frames, no replay waits for a repair, and
the cycle has not ended. -/
def State.executes (s : State) (f t : Nat) : Bool :=
  let x := s.fld f
  let c := x.base + t
  s.mode.running && s.configured f && !x.rewound && !x.drained && decide (x.cycle ≤ c) && s.works f c

/-! ## Registers and the carry chain -/

/-- What a neighbour's registers show in the cycle `st`: their values at the start of the cycle (R61). -/
def CellSt.seen (c : CellSt) (st : Nat × Nat) : CellRegs := if c.stamp = st then c.prev else c.now
def SliceSt.seen (c : SliceSt) (st : Nat × Nat) : SliceRegs := if c.stamp = st then c.prev else c.now

/-- R77: a cell continues a chain in work cycle `t`: CHAIN = 1 and its entry is ADDW, SUBW or CMPW. -/
def CellCfg.links (c : CellCfg) (len t : Nat) : Bool :=
  let op := opOf (c.entry (t % len))
  c.chain && !c.lutOnly && (op == 0x03 || op == 0x06 || op == 0x0B)
/-- R77, R87: the place of cell `k` of a field in its chain, from 1, given which cells continue one; a cell that would be
the fifth begins anew. -/
def chainPlace (links : Nat → Bool) : Nat → Nat
  | 0 => 1
  | k + 1 =>
    if links (k + 1) then
      let p := chainPlace links k
      if p < 4 then p + 1 else 1
    else 1

/-- R76, R87: CIN of cell `k` of field `f` in work cycle `t`, the cycle `st` of the frame: what the cell on its left drives
in that cycle; 0 with CHAIN = 0, at cell 0 of cluster 0, and at a cell that would be the fifth of a chain. -/
def State.cinOf (s : State) (i : FieldImage) (f k t : Nat) (st : Nat × Nat) : Bool :=
  let links (k : Nat) : Bool := (s.cellCfg i f k).links (i.len (k / 64)) t
  let left := s.cell (16384 * f + (k - 1))
  if k = 0 || !(s.cellCfg i f k).chain || left.stamp != st then false
  else if links k && chainPlace links k == 1 then false
  else left.cout

/-- Table 3-3: the value of a source code; a wire-clocked register is read through its synchroniser (R84). -/
def sourceOf (c : CellCfg) (r : CellRegs) (y : SyncSt) (vx vy vz : Word) (imm : BitVec 16) (code : Nat) : Word :=
  match code with
  | 4 => vx
  | 5 => vy
  | 6 => vz
  | 7 => immWord imm
  | k => if c.wired k then y.second[k]?.getD 0 else r.get k

/-- The entry a command executes: that of the cycle, when its OP is the command's. An undefined OP stands for NOP
(R87). -/
def entryFor (ops : List Nat) (op : Nat) (w : Word) : Option EntryFields :=
  if opOf w = op || (op == 0 && !ops.contains (opOf w)) then some (entryOf w) else none

end Sys2Proof.Machine
end

