-- ==== Sys2Proof/Machine/Watch.lean ====
section
/-! DEFINITION. What debug watches (R446 to R448, R454) and the probe words (R104): watch units, linked conditions, the trace
buffer, and the request of a halt (R449). -/
namespace Sys2Proof.Machine

/-! ## Requests of a halt -/

/-- R449: a halt is requested, now or at frame end, by source `src` (1 a write, 4 + i condition i). A halt now replaces one
pending at frame end; any other request while HALT is active or pending is ignored. -/
def State.haltRequest (s : State) (now : Bool) (src : Nat) : State :=
  let pend (s : State) : State := { s with dbg := { s.dbg with halt := some (now, src) } }
  if s.mode.ov.halt then s
  else match s.dbg.halt with
    | some (true, _) => s
    | some (false, _) => if now then pend s else s
    | none =>
      match s.mode.top with
      | .run | .reshape | .holdover => pend s
      | _ => s.raise F.DBG_ERR_HALTREJ
/-- The codes of CTL.HALT and of a condition's HALT: 1 frame end, 2 and 3 now. -/
def State.haltCode (s : State) (code src : Nat) : State := if code = 0 then s else s.haltRequest (decide (2 ≤ code)) src

/-- A change of UNLOCKED posts DBG_UNLOCK. -/
def State.dbgUnlocked (s : State) (on : Bool) : State :=
  if s.is F.DBG_STAT_UNLOCKED == on then s
  else (s.put F.DBG_STAT_UNLOCKED (bit on)).post 0x0EF 95 (bit (!on))

/-! ## The trace buffer -/

/-- A word goes to the trace buffer at WPTR. -/
def State.traceStore (s : State) (w : Word) : State :=
  let p := s.get F.DBG_TRC_STAT_WPTR
  let s : State := { s with dbg := { s.dbg with trace := SMap.set s.dbg.trace 0 p w, lastTraced := some w } }
  if p = 65535 then (s.put F.DBG_TRC_STAT_WPTR 0).raise F.DBG_TRC_STAT_WRAP else s.put F.DBG_TRC_STAT_WPTR (p + 1)
/-- After a trigger the words left are counted down to the stop. -/
def State.traceCount (s : State) : State :=
  if !s.is F.DBG_TRC_STAT_TRIGD then s
  else
    let s : State := { s with dbg := { s.dbg with postLeft := s.dbg.postLeft - 1 } }
    if s.dbg.postLeft = 0 then s.raise F.DBG_TRC_STAT_STOPPED else s
/-- One word is written at WPTR; WRAP is set when the pointer first wraps, and POST words after a trigger STOPPED is. -/
def State.traceWord (s : State) (w : Word) : State :=
  if !s.is F.DBG_TRC_CTL_EN || s.is F.DBG_TRC_STAT_STOPPED then s else (s.traceStore w).traceCount

/-- A trace trigger: TRIGD, WPTR and the corrected time; ignored while TRIGD is 1. -/
def State.traceTrigger (s : State) : State :=
  if s.is F.DBG_TRC_STAT_TRIGD then s
  else
    let post := s.get F.DBG_TRC_CTL_POST
    let s := (s.raise F.DBG_TRC_STAT_TRIGD).put F.DBG_TRC_TRIG_IDX (s.get F.DBG_TRC_STAT_WPTR)
    let s := s.setPair R.DBG_TRC_TRIGT_LO R.DBG_TRC_TRIGT_HI s.correctedNat
    let s : State := { s with dbg := { s.dbg with postLeft := post } }
    if post = 0 then s.raise F.DBG_TRC_STAT_STOPPED else s

/-! ## Watch units and linked conditions -/

/-- What a unit compares: a carriage, or a probe word. -/
structure Watched where
  kind : Nat
  dir : Nat
  sel : Nat
  typ : Nat
  ctx : Nat
  addr : Nat
  /-- The payload word a unit names, and whether its MASK bit is 1. -/
  data : Nat → Option Word

/-- The DATA compare of unit u. -/
def State.dataHit (s : State) (u : Nat) : Option Word → Bool
  | some w =>
    (w.toNat ^^^ s.pair (R.DBG_WU_DVAL_LO u) (R.DBG_WU_DVAL_HI u)) &&&
      s.pair (R.DBG_WU_DMSK_LO u) (R.DBG_WU_DMSK_HI u) == 0
  | none => false
/-- R446: unit u hits: it is enabled, looks at this source, and every enabled compare holds. For a probe word the DATA
compare alone applies. -/
def State.unitHit (s : State) (u : Nat) (w : Watched) : Bool :=
  let c := s.reg (R.DBG_WU_CTL u)
  let on (f : Nat → Fld) : Bool := s.is (f u)
  let data := s.dataHit u (w.data (s.get (F.DBG_WU_CTL_DWORD u)))
  let source := bitOf 31 c && s.get (F.DBG_WU_CTL_KIND u) == w.kind && s.get (F.DBG_WU_CTL_SEL u) == w.sel
  if w.kind = 1 then source && on F.DBG_WU_CTL_DATAEN && data
  else
    source && s.get (F.DBG_WU_CTL_DIR u) == w.dir &&
    (on F.DBG_WU_CTL_ADDREN || on F.DBG_WU_CTL_CTXEN || on F.DBG_WU_CTL_TYPEEN || on F.DBG_WU_CTL_DATAEN) &&
    (!on F.DBG_WU_CTL_ADDREN || (decide (s.pair (R.DBG_WU_ALO_LO u) (R.DBG_WU_ALO_HI u) ≤ w.addr) &&
      decide (w.addr ≤ s.pair (R.DBG_WU_AHI_LO u) (R.DBG_WU_AHI_HI u)))) &&
    (!on F.DBG_WU_CTL_CTXEN || s.get (F.DBG_WU_CTL_CTX u) == w.ctx) &&
    (!on F.DBG_WU_CTL_TYPEEN || s.get (F.DBG_WU_CTL_TYPE u) == w.typ) &&
    (!on F.DBG_WU_CTL_DATAEN || data)

/-- The words HITS mode writes for a hit: the corrected time, then unit, TYPE, CTX and ADDR, or the probe word. -/
def State.traceHit (s : State) (u : Nat) (w : Watched) : State :=
  if !s.is F.DBG_TRC_CTL_MODE then s
  else
    let low := if w.kind = 1 then ((w.data 0).getD 0).toNat else w.addr
    let head := if w.kind = 1 then u else u + 16 * w.typ + 512 * w.ctx
    (s.traceWord s.now).traceWord (BitVec.ofNat 48 (head + 65536 * (low % 2 ^ 32)))

/-- R447: the unit mask of stage k of condition i. -/
def State.stageMask (s : State) (i k : Nat) : Nat :=
  bitsOf (16 * (k % 2)) 16 (s.reg (if k < 2 then R.DBG_LC_S01 i else R.DBG_LC_S23 i))
/-- R448: a complete condition takes its actions, counts, and returns to stage 0. -/
def State.lcComplete (s : State) (i : Nat) : State :=
  let s := (s.put (F.DBG_LC_STAT_CUR i) 0).bump (F.DBG_LC_STAT_COUNT i) 1
  let s := if s.is (F.DBG_LC_CTL_EVENT i) then s.post 0x0ED 95 i else s
  let s := if s.is (F.DBG_LC_CTL_TRACE i) then s.traceTrigger else s
  s.haltCode (s.get (F.DBG_LC_CTL_HALT i)) (4 + i)
/-- R447: condition i sees the units that hit in the cycle `stamp`: it advances at most one stage in a cycle. -/
def State.lcStep (s : State) (i stamp : Nat) (units : List Nat) : State :=
  let cur := s.get (F.DBG_LC_STAT_CUR i)
  if !s.is (F.DBG_LC_CTL_EN i) || SMap.get s.dbg.advancedAt none i == some stamp ||
      !units.any (fun u => bitOf u (s.stageMask i cur)) then s
  else
    let s : State := { s with dbg := { s.dbg with advancedAt := SMap.set s.dbg.advancedAt none i (some stamp) } }
    let s : State := if cur = 0 then
        { s with dbg := { s.dbg with firstHit := SMap.set s.dbg.firstHit none i (some s.time.tick) } } else s
    if s.get (F.DBG_LC_CTL_NSTAGE i) ≤ cur then s.lcComplete i else s.put (F.DBG_LC_STAT_CUR i) (cur + 1)

/-- R446 to R448: every unit looks at one carriage or probe word in the cycle `stamp`. -/
def State.watch (s : State) (w : Watched) (stamp : Nat) : State :=
  if !s.is F.DBG_CTL_EN || !s.domainOn 1 then s
  else
    match (List.range 16).filter (fun u => s.unitHit u w) with
    | [] => s
    | units =>
      let s := s.forEach units fun s u => (s.bump (F.DBG_WU_HITS_COUNT u) 1).traceHit u w
      s.forEach (List.range 4) fun s i => s.lcStep i stamp units

/-- R446: a carriage that NI n ejects or injects in spine cycle `cyc`; the debugger's own never hits. -/
def State.watchCarriage (s : State) (n : Nat) (injected : Bool) (c : Carriage) (cyc : Nat) : State :=
  if c.ctx = 2 then s
  else
    s.watch { kind := 0, dir := bit injected, sel := n, typ := c.typ, ctx := c.ctx,
              addr := (c.addr.toNat + 16 * c.cidx) % 2 ^ 48,
              data := fun i => if c.mask.getLsbD i then c.payload[i]? else none } (2 * cyc)

/-! ## Probes -/

/-- R104: the item probe word k of field f carries. -/
def State.probeItem (s : State) (f k : Nat) : Word :=
  let m := s.get (F.FLD_PROBE_CLUSTER f k)
  let j := s.get (F.FLD_PROBE_INDEX f k)
  match s.get (F.FLD_PROBE_KIND f k) with
  | 0 => 0
  | 3 => (s.seg (segKey f j)).value
  | kind =>
    if 64 ≤ j then 0
    else
      let r := (s.cell (cellKey f m j)).now
      if kind = 1 then r.latch
      else match s.image f with
        | some i => r.get (s.cellCfg i f (64 * m + j)).o1Sel
        | none => 0

/-- R104, R106, R446: probe word k is sampled at the end of cycle `c` of the field's frame: it shows its item, the trace
buffer and the watch units see it. -/
def State.sampleProbe (s : State) (f c k : Nat) : State :=
  let x := s.fld f
  let v := s.probeItem f k
  let s := if k < 4 then s.setFld f { x with probe := x.probe.setIfInBounds k v } else s
  let s := if s.is F.DBG_TRC_CTL_EN && !s.is F.DBG_TRC_CTL_MODE && s.get F.DBG_TRC_CTL_FIELD == f &&
      s.get F.DBG_TRC_CTL_WORD == k && !(s.is F.DBG_TRC_CTL_CHANGE && s.dbg.lastTraced == some v) then s.traceWord v else s
  s.watch { kind := 1, dir := 0, sel := 4 * f + k, typ := 0, ctx := 0, addr := 0, data := fun _ => some v }
    (2 * (c + 2 ^ 20 * x.frames) + 1)
/-- Every probe word of a field is sampled. -/
def State.sampleProbes (s : State) (f c : Nat) : State := s.forEach (List.range 4) fun s k => s.sampleProbe f c k

end Sys2Proof.Machine
end

