-- ==== Sys2Proof/Machine/Network.lean ====
section
/-! DEFINITION. Routing (chapter 4): what stands on a cluster's tracks and on the global segments in each cycle, and the
end of a cycle, at which relays and segments load (R89 to R104). -/
namespace Sys2Proof.Machine

/-! ## Geometry, Table 4-1 -/

/-- Clusters a cluster-level segment spans (Table 4-2): 12 of span 1, 8 of span 2 and 4 of span 4 toward each edge. -/
def hopSpan (k : Nat) : Nat := if k < 12 then 1 else if k < 20 then 2 else 4
/-- Cluster-level segment `h` ends at or passes cluster `m`. -/
def hopReaches (h m : Nat) : Bool :=
  let p := h / 96
  let n := hopSpan (h % 24)
  match h % 96 / 24 with
  | 0 => p % 16 == m % 16 && decide (m / 16 < p / 16 ∧ p / 16 ≤ m / 16 + n)
  | 1 => p / 16 == m / 16 && decide (p % 16 < m % 16 ∧ m % 16 ≤ p % 16 + n)
  | 2 => p % 16 == m % 16 && decide (p / 16 < m / 16 ∧ m / 16 ≤ p / 16 + n)
  | _ => p / 16 == m / 16 && decide (m % 16 < p % 16 ∧ p % 16 ≤ m % 16 + n)
/-- R131: the cluster block memory `j` attaches to. -/
def memCluster (j : Nat) : Nat := 16 * (j % 48 / 3) + 4 * (j / 48) + 3
/-- R217: the cluster NI 3 f + u attaches to. -/
def niCluster (u : Nat) : Nat := 16 * (5 * u + 2) + 8
/-- R103: cluster `m` of field `f` lies in the row or column nearest the field's bank, and carries the pin word. -/
def carriesPins (f m : Nat) : Bool :=
  if f < 6 then m / 16 == 0 else if 18 ≤ f then m / 16 == 15
  else if f % 6 = 5 then m % 16 == 15 else f % 6 == 0 && m % 16 == 0
/-- R95: the cluster of tap `d` on a track. -/
def tapCluster (t d : Nat) : Nat := if t < 64 then 16 * (t / 4) + 2 * d else 32 * d + (t - 64) / 4
/-- The field beyond an edge (N, E, S, W as 0 to 3), if there is one. -/
def fieldBeyond (f edge : Nat) : Option Nat :=
  match edge with
  | 0 => if 6 ≤ f then some (f - 6) else none
  | 1 => if f % 6 < 5 then some (f + 1) else none
  | 2 => if f + 6 < 24 then some (f + 6) else none
  | _ => if 0 < f % 6 then some (f - 1) else none
/-- R95: the two ends of a track: the edge of the field and the driver of the field beyond it that drives in. -/
def trackEnds (t : Nat) : List (Nat × Nat) := if t < 64 then [(3, 8), (1, 9)] else [(0, 8), (2, 9)]

/-! ## Paths -/

/-- A source that stands at cluster `m` of field `f`: what a cluster-level segment or a relay there may take. -/
def FieldImage.feeds (i : FieldImage) (m : Nat) : NetSource → Bool
  | .out t => t / 16 == m
  | .hop h => hopReaches h m
  | .relay r => (i.relays[r]?.map (·.1)) == some m
  | _ => false
/-- R91: what an input track of cluster `m` of field `f` may select. -/
def offers (f m : Nat) : NetSource → Bool
  | .hop h => hopReaches h m
  | .global t => if t < 64 then t / 4 == m / 16 else decide (t < 128) && (t - 64) / 4 == m % 16
  | .slice k _ => k / 2 == m
  | .mem j _ => memCluster j == m
  | .ni u _ => niCluster u / 16 == m / 16
  | .pins => carriesPins f m
  | .vts => f == 0 && m == 255
  | _ => false
/-- Where a path begins: a source followed back through at most `n` cluster-level segments to what drives them (R92);
none where there are more, as in a loop, or where nothing drives one. -/
def FieldImage.origin (i : FieldImage) : Nat → NetSource → Option NetSource
  | 0, .hop _ => none
  | n + 1, .hop h =>
    match i.hops.find? fun e => e.1 == h with
    | some e => if i.feeds (h / 96) e.2 then i.origin n e.2 else none
    | none => none
  | _, x => some x
/-- R98: a path of more than `n` cluster-level segments, or a loop of them without a relay. -/
def FieldImage.tooLong (i : FieldImage) : Nat → NetSource → Bool
  | 0, .hop _ => true
  | n + 1, .hop h =>
    match i.hops.find? fun e => e.1 == h with
    | some e => i.tooLong n e.2
    | none => false
  | _, _ => false
/-- R91: where input track `t` of cluster `m` comes from. -/
def FieldImage.track (i : FieldImage) (f m t : Nat) : Option NetSource :=
  match i.inTracks.find? fun e => e.1 == 32 * m + t with
  | some e => if offers f m e.2 then i.origin 4 e.2 else none
  | none => none

/-! ## What stands on a path -/

/-- R90: O0 and O1 of the cells of cluster `m` in cycle `st`, and the constant 0. A wire-clocked register on O1 is not
synchronised (R84). -/
def State.output (s : State) (i : FieldImage) (f m : Nat) (st : Nat × Nat) (code : Nat) : Word :=
  if code < 64 then ((s.cell (cellKey f m code)).seen st).latch
  else if code < 128 then
    let c := s.cellCfg i f (64 * m + (code - 64))
    let x := s.cell (cellKey f m (code - 64))
    if c.wired c.o1Sel then x.now.get c.o1Sel else (x.seen st).get c.o1Sel
  else 0
/-- R91: a cluster output track. -/
def State.outTrack (s : State) (i : FieldImage) (f : Nat) (st : Nat × Nat) (t : Nat) : Word :=
  s.output i f (t / 16) st (lookupD i.outTracks t 160)
/-- R111: O0 and O1 of a slice. -/
def State.sliceOut (s : State) (i : FieldImage) (f : Nat) (st : Nat × Nat) (k : Nat) (o1 : Bool) : Word :=
  let r := (s.slice (sliceKey f k)).seen st
  if !o1 then r.latch
  else match bitsOf 13 2 (s.sliceCfg i f k).word.toNat with | 0 => r.a | 1 => r.b | 2 => r.c | _ => r.x
/-- R132: a command of cycle `a` shows in cycle `st`. -/
def shownBy (a st : Nat × Nat) : Bool := a.1 != st.1 || decide (a.2 + 2 ≤ st.2)
/-- R131, R132: RA, RB or ST of a memory in cycle `st`. -/
def QCtl.shows (q : QCtl) (st : Nat × Nat) (port : Fin 3) : Word :=
  let o : OldPorts := if shownBy q.stamp st then ⟨q.stamp, q.q.ra, q.q.rb, q.q.st⟩
    else (q.before.find? fun o => shownBy o.stamp st).getD ⟨(0, 0), 0, 0, 0⟩
  match port with | 0 => o.ra | 1 => o.rb | _ => o.st
/-- R217, R219: RXD or RXS of an NI in cycle `st`. -/
def NiSt.shows (x : NiSt) (st : Nat × Nat) (status : Bool) : Word :=
  if x.portAt = some st then (if status then BitVec.ofNat 48 x.rxBefore.2 else x.rxBefore.1)
  else (if status then BitVec.ofNat 48 x.rxs else x.rxd)
/-- Table 4-4: the field a pin belongs to. -/
def pinField (p : Nat) : Nat :=
  let b := p / 48
  let second := decide (24 ≤ p % 48)
  (([(0, 1), (2, 3), (4, 5), (11, 17), (23, 22), (21, 20), (19, 18), (12, 6)] : List (Nat × Nat)).getD b (0, 0) |>
    fun e => if second then e.2 else e.1)
/-- The pins of a field. -/
def fieldPins (f : Nat) : List Nat := (List.range 384).filter fun p => pinField p == f
/-- Table 21-5: the pin word in effect of pin p. -/
def State.pinCfg (s : State) (p : Nat) : Nat := (SMap.get s.pins.device 0 (9 + p)).toNat
/-- The pin's standard: 0 unused, 1 LVCMOS, 2 LVDS, 3 SLVS-400. -/
def State.pinStd (s : State) (p : Nat) : Nat := bitsOf 0 3 (s.pinCfg p)
/-- R459: the pin is half of a pair. -/
def State.pinPaired (s : State) (p : Nat) : Bool := s.pinStd p == 2 || s.pinStd p == 3
/-- A pin brings its level: its bank is in range (R462), it is used (Table 21-5), and it is not the odd pin of a pair (R459). -/
def State.pinReads (s : State) (p : Nat) : Bool :=
  !SMap.get s.pins.off false (p / 48) && s.pinStd p != 0 && !(s.pinPaired p && p % 2 == 1)
/-- R103: the pin input word: the pins' levels, and 0 above. -/
def State.pinWord (s : State) (f : Nat) (st : Nat × Nat) : Word :=
  let levels := Config.pinsIn f st.1 st.2
  (fieldPins f).foldl (fun w p => w ||| BitVec.ofNat 48 (2 ^ (p % 24) * bit (s.pinReads p && levels.getLsbD (p % 24)))) 0
/-- R455: VTS, the status word of the virtual terminal's fabric side. -/
def State.vtStatus (s : State) : Word :=
  BitVec.ofNat 48 (s.get F.DBG_VT_TX_DATA + 2 ^ 32 * s.get F.DBG_VT_STAT_TXFULL + 2 ^ 33 * s.get F.DBG_VT_STAT_RXFULL)
/-- What a register or port brings to a path in cycle `st` of field `f`; relays and segments stand at the field's cycle. -/
def State.source (s : State) (i : FieldImage) (f : Nat) (st : Nat × Nat) : NetSource → Word
  | .out t => s.outTrack i f st t
  | .relay r => (s.seg (segKey f (128 + r % 1920))).value
  | .global t => (s.seg (segKey f (t % 128))).value
  | .slice k o1 => s.sliceOut i f st k o1
  | .mem j p => (s.queue (memKey f j)).shows st p
  | .ni u b => (s.ni (3 * f + u.val)).shows st b
  | .pins => s.pinWord f st
  | .vts => s.vtStatus
  | .hop _ => 0
/-- What the end of a path brings; nothing, 0. -/
def State.arrives (s : State) (i : FieldImage) (f : Nat) (st : Nat × Nat) : Option NetSource → Word
  | some x => s.source i f st x
  | none => 0
/-- R90: the value the selector `code` brings to an input of cell `k` of field `f` in cycle `st`. -/
def State.input (s : State) (i : FieldImage) (f k : Nat) (st : Nat × Nat) (sel : BitVec 8) : Word :=
  let c := sel.toNat
  if c < 128 then s.output i f (k / 64) st c
  else if c < 160 then s.arrives i f st (i.track f (k / 64) (c - 128))
  else if c = 160 then 0
  else Config.badSelect (256 * (16384 * f + k) + c) st.1 st.2
/-- The word on the output track that a code of Table 6-3 names at cluster `m`; codes from 16 bring 0. -/
def State.port16 (s : State) (i : FieldImage) (f m : Nat) (st : Nat × Nat) (code : Nat) : Word :=
  if code < 16 then s.outTrack i f st (16 * m + code) else 0

/-! ## Field outputs and fences -/

/-- R38: the outputs of a field: its enabled boundary switches and its pin output word. -/
def FieldImage.outputs (i : FieldImage) : List Nat :=
  (i.drivers.filter fun d => 8 ≤ d % 10) ++ (if i.pinTrack.isSome then [1280] else [])
/-- The value at an output of the field inside it, in the cycle the field stands in: the register of its track, or the pin
output word (R95, R103). -/
def State.inner (s : State) (i : FieldImage) (f out : Nat) : Word :=
  if out = 1280 then (i.pinTrack.map (s.outTrack i f (s.fld f).here)).getD 0 else (s.seg (segKey f (out / 10))).value
/-- R37: the framed outputs with the values present. -/
def State.framed (s : State) (f : Nat) : List (Nat × Word) :=
  match s.image f with
  | some i => (i.outputs.filter fun o => !i.directs.contains o).map fun o => (o, s.inner i f o)
  | none => []
/-- R38, R94: what an output shows outside: a DIRECT one its value, a FRAMED one the value last released. -/
def State.shown (s : State) (f out : Nat) : Word :=
  match s.image f with
  | some i => if i.directs.contains out then s.inner i f out else lookupD (s.fld f).driven out 0
  | none => 0
/-- The same in cycle `c` of the neighbour that reads it, when this field has gone one cycle further. -/
def State.shownIn (s : State) (f out c : Nat) : Word :=
  match s.image f with
  | some i =>
    if i.directs.contains out && (s.fld f).cycle == c + 1 then (s.seg (segKey f (out / 10))).prev else s.shown f out
  | none => 0

/-- R102: a field whose boundary switches are fenced: it is stopped for a reshape, its domain is off, or a cut-off reshape has left it fenced (R27). -/
def State.fencedOff (s : State) (g : Nat) : Bool :=
  !s.domainOn (4 + g) || s.cfg.fenced.contains g ||
    (match s.cfg.load with
     | some l => l.stopped.any fun e => e.1 == g
     | none => false)
/-- Table 4-3: what a fenced switch drives. -/
def fenceWord (code : Nat) (held : Word) : Word := match code with | 0 => 0 | 1 => BitVec.allOnes 48 | _ => held
/-- R95, R102: what the boundary switch at edge `e` of track `t` drives into field `f`, if it drives: driver `d` of the field
beyond. -/
def State.switchWord (s : State) (i : FieldImage) (f t e d c : Nat) : Option Word :=
  match fieldBeyond f e with
  | none => none
  | some g =>
    if s.fencedOff g then
      ((s.fld f).fenceHold.find? fun x => x.1 == 128 * e + t).map fun x => fenceWord (lookupD i.fences (128 * e + t) 0) x.2
    else if (s.image g).any fun j => j.drivers.contains (10 * t + d) then some (s.shownIn g (10 * t + d) c) else none

/-! ## The end of a cycle -/

/-- R95, R96: what the driver of a global segment drives onto it in cycle `st`; without one it reads 0. -/
def State.segmentInput (s : State) (i : FieldImage) (f : Nat) (st : Nat × Nat) (t : Nat) : Word :=
  match (List.range 8).find? fun d => i.drivers.contains (10 * t + d) with
  | some d => s.outTrack i f st (16 * tapCluster t d + lookupD i.taps (10 * t + d) 0 % 16)
  | none => ((trackEnds t).findSome? fun e => s.switchWord i f t e.1 e.2 st.2).getD 0
/-- R99: the register of a global segment at the end of cycle `st`. A held segment reads 0 after the cycle of its trip;
another loads when the field's cells execute (R93). -/
def State.segmentNext (s : State) (i : FieldImage) (f : Nat) (st : Nat × Nat) (load : Bool) (t : Nat) : SegSt :=
  let x := s.seg (segKey f t)
  let v := if x.held then x.trip.getD 0 else if load then s.segmentInput i f st t else x.value
  { x with value := v, prev := x.value, trip := none }
/-- R93: the register of relay `r`, likewise. -/
def State.relayNext (s : State) (i : FieldImage) (f : Nat) (st : Nat × Nat) (load : Bool) (r : Nat) : SegSt :=
  let x := s.seg (segKey f (128 + r))
  let v := match i.relays[r]? with
    | some e => if i.feeds e.1 e.2 then s.arrives i f st (i.origin 4 e.2) else 0
    | none => x.value
  { x with value := if load then v else x.value, prev := x.value }
/-- Relays and segments at the end of cycle `st`, all at once. -/
def State.loadNet (s : State) (i : FieldImage) (f : Nat) (st : Nat × Nat) (load : Bool) : State :=
  let next := (List.range 128).map (fun t => (t, s.segmentNext i f st load t)) ++
    (List.range (min 1920 i.relays.length)).map fun r => (128 + r, s.relayNext i f st load r)
  next.foldl (fun s e => s.setSeg (segKey f e.1) e.2) s

/-- What one bit of a register shows that is caught while it counts: its old or its new value (R84). -/
def torn (mix old new : Word) : Word := (mix &&& new) ||| (~~~mix &&& old)
/-- R84: the synchroniser of register `r` of cell `k` takes one step. A register under INC that changed in the cycle may be
torn; one under INCG shows its value. -/
def State.syncReg (s : State) (c : CellCfg) (k r : Nat) : State :=
  if !c.wired r then s
  else
    let x := s.cell k
    let v := x.now.get r
    let old := x.sync.last[r]?.getD 0
    let w := s.freeWord
    let p : Word × State := if c.wop r = 2 && v != old then (torn w.1 old v, w.2) else (v, s)
    let y : SyncSt := { last := x.sync.last.setIfInBounds r v, first := x.sync.first.setIfInBounds r p.1,
                        second := x.sync.second.setIfInBounds r (x.sync.first[r]?.getD 0) }
    p.2.setCell k { x with sync := y }
/-- Every synchroniser of a field takes one step. -/
def State.syncField (s : State) (i : FieldImage) (f : Nat) : State :=
  i.cells.foldl (fun s e => s.forEach (List.range 4) fun s r => s.syncReg (s.cellCfg i f (e.1 % 16384)) (16384 * f + e.1 % 16384) r) s

/-- R104: the field's clocks run in cycle `c` of its frame: a work cycle or a guard cycle, and not after DONE under
IDLEGATE. -/
def State.clocked (s : State) (f c : Nat) : Bool :=
  s.mode.running && !(s.fld f).rewound && (s.works f c ||
    (decide ((s.fld f).phase = .frame) && decide (s.budget f ≤ c) &&
      !(s.is (F.FLD_CTL_IDLEGATE f) && (s.fld f).doneAt.isSome)))
/-- R61, R93, R104: cycle `c` of the field's frame ends: relays and segments load if its cells execute, the synchronisers
step and the probe words are sampled. -/
def State.endCycle (s : State) (f c : Nat) : State :=
  match s.image f with
  | some i =>
    if s.clocked f c then
      (((s.loadNet i f ((s.fld f).frames, c) (s.works f c)).syncField i f).sampleProbes f c)
    else s
  | none => s
/-- The field comes to cycle `c` of its frame: the cycles before it end. -/
def State.comeTo (s : State) (f c : Nat) : State :=
  let from_ := (s.fld f).cycle
  let s := s.forEach (List.range' from_ (c - from_)) fun s t => s.endCycle f t
  s.setFld f { s.fld f with cycle := max from_ c }

end Sys2Proof.Machine
end

