-- ==== Sys2Proof/Machine/NetOps.lean ====
section
/-! DEFINITION. What network interfaces do for every unit: carriage headers, routes, windows and tables, local answers,
the orphan sink, NI states, taking a request, and filling the router's LOCAL input (R199 to R241). -/
namespace Sys2Proof.Machine

/-! ## Types and headers -/

/-- TYPE codes of Table 9-5. -/
def tRdLine : Nat := 0x01
def tRdWords : Nat := 0x02
def tWrLine : Nat := 0x03
def tWrWords : Nat := 0x04
def tAtomic : Nat := 0x05
def tFence : Nat := 0x06
def tEvent : Nat := 0x07
def tTrigger : Nat := 0x08
def tBcast : Nat := 0x09
def tCfg : Nat := 0x0A
def tRdResp : Nat := 0x10
def tWrAck : Nat := 0x11
def tAtomicResp : Nat := 0x12
def tFenceAck : Nat := 0x13
def tBounce : Nat := 0x14

/-- STATUS codes of Table 9-6. -/
def stOk : Nat := 0x0
def stUncorr : Nat := 0x1
def stDenied : Nat := 0x2
def stRouteClosed : Nat := 0x3
def stDomainOff : Nat := 0x4
def stTagFail : Nat := 0x5
def stPoisoned : Nat := 0x6
def stNoWindow : Nat := 0x7
def stTimeout : Nat := 0x8
def stFenceAbort : Nat := 0x9
def stCorrected : Nat := 0xA
def stReshaping : Nat := 0xB

/-- Request types, and those that expect a response: all but EVENT, TRIGGER and BCAST (R230). -/
def isRequestType (t : Nat) : Bool := decide (1 ≤ t ∧ t ≤ 0x0A)
def expectsResponse (t : Nat) : Bool := isRequestType t && t != tEvent && t != tTrigger && t != tBcast
def isWriteType (t : Nat) : Bool := t == tWrLine || t == tWrWords
def isReadType (t : Nat) : Bool := t == tRdLine || t == tRdWords
/-- Table 9-5: the LEN a type allows. -/
def lenAllowed (t len : Nat) : Bool := len == 0 || ((t == tRdLine || t == tWrLine) && decide (len ≤ 3))
/-- The response type of a request (Table 9-5); a CFG read answers RD_RESP, a write WR_ACK. -/
def responseType (t : Nat) (cfgWrite : Bool) : Nat :=
  if isReadType t then tRdResp
  else if t == tAtomic then tAtomicResp
  else if t == tFence then tFenceAck
  else if t == tCfg then (if cfgWrite then tWrAck else tRdResp)
  else tWrAck

/-- Payload word i. -/
def Carriage.word (c : Carriage) (i : Nat) : Word := c.payload.getD i 0
/-- MASK bit i. -/
def Carriage.enables (c : Carriage) (i : Nat) : Bool := c.mask.getLsbD i
/-- A CFG carriage writes (W0 bit 24). -/
def Carriage.cfgWrites (c : Carriage) : Bool := (c.word 0).getLsbD 24

/-- Tables 9-2 to 9-4: the words H0, H2 and H3. -/
def Carriage.h0 (c : Carriage) : Nat :=
  c.typ + 32 * bit c.rsp + 64 * c.vc + 256 * c.hidx + 4096 * c.route.toNat + 2 ^ 42 * bit c.ord +
    2 ^ 43 * bit c.fence + 2 ^ 44 * c.len + 2 ^ 46 * bit c.guar
def Carriage.h2 (c : Carriage) : Nat :=
  c.src + 128 * c.ctx + 2 ^ 14 * c.seq.toNat + 2 ^ 30 * c.tick + 2 ^ 42 * c.status

def Carriage.h3 (c : Carriage) : Nat :=
  c.mask.toNat + 2 ^ 16 * c.utag.toNat + 2 ^ 32 * c.dev + 2 ^ 40 * c.otype + 2 ^ 45 * c.cidx

/-! ## Routes -/

/-- Direction code i of a ROUTE. -/
def routeCode (r : BitVec 30) (i : Nat) : Nat := bitsOf (3 * i) 3 r.toNat
/-- The ROUTE whose first codes are these. -/
def routeOf (l : List Nat) : BitVec 30 := BitVec.ofNat 30 (l.foldr (fun d acc => d % 8 + 8 * acc) 0)
/-- R205: the reversal of the first h hops of a route. -/
def reverseRoute (r : BitVec 30) (h : Nat) : BitVec 30 :=
  let back := (List.range h).map fun i => (routeCode r (h - 1 - i) + 2) % 4
  routeOf (if h < 10 then back ++ [4] else back)

/-- Coordinates of a router, and its neighbour in a direction (Table 9-1). -/
def routerAt (x y : Nat) : Nat := 12 * (y % 8) + x % 12
def neighbour (n d : Nat) : Nat :=
  let x := n % 12
  let y := n / 12
  match d with
  | 0 => routerAt x (y + 1)
  | 1 => routerAt (x + 1) y
  | 2 => routerAt x (y + 7)
  | _ => routerAt (x + 11) y
/-- The hop in direction d from router n crosses a wrap link. -/
def crossesWrap (n d : Nat) : Bool :=
  match d with
  | 0 => n / 12 == 7 | 1 => n % 12 == 11 | 2 => n / 12 == 0 | _ => n % 12 == 0

/-- R203: the hops of a route up to its EJECT. -/
def routeHops (r : BitVec 30) : List Nat := ((List.range 10).map (routeCode r)).takeWhile fun d => d != 4
/-- R204: the x-run, then the y-run, with one direction in each. -/
def legalRoute (r : BitVec 30) : Bool :=
  let h := routeHops r
  let xs := h.takeWhile fun d => d == 1 || d == 3
  let ys := h.drop xs.length
  ys.all (fun d => d == 0 || d == 2) && xs.all (fun d => some d == xs.head?) && ys.all (fun d => some d == ys.head?)
/-- R204, R212: the minimal path from router a to router b, its x-run first. -/
def pathTo (a b : Nat) : List Nat :=
  let dx := (b % 12 + 12 - a % 12) % 12
  let dy := (b / 12 + 8 - a / 12) % 8
  (if dx ≤ 6 then List.replicate dx 1 else List.replicate (12 - dx) 3) ++
    (if dy ≤ 4 then List.replicate dy 0 else List.replicate (8 - dy) 2)
/-- The ROUTE of a path. -/
def routeAlong (path : List Nat) : BitVec 30 := routeOf (if path.length < 10 then path ++ [4] else path)
/-- Where a route from router n ends. -/
def routeEnd (n : Nat) (r : BitVec 30) : Nat := (routeHops r).foldl neighbour n

/-! ## Tables -/

/-- Word `w` of window `i`, of route entry `i`, and the slot word `i`. -/
def NiTables.window (t : NiTables) (i w : Nat) : Nat := (SMap.get t.win 0 (4 * i + w)).toNat
def NiTables.routeWord (t : NiTables) (i w : Nat) : Nat := (SMap.get t.route 0 (2 * i + w)).toNat
def NiTables.slotWord (t : NiTables) (i : Nat) : Nat := (SMap.get t.slot 0 i).toNat

/-- R220: window w is enabled and covers the address. -/
def NiTables.covers (t : NiTables) (a w : Nat) : Bool :=
  bitOf 8 (t.window w 3) && decide (t.window w 0 ≤ a ∧ a ≤ t.window w 1)
/-- R220: the lowest-numbered matching window. -/
def NiTables.match? (t : NiTables) (a : Nat) : Option Nat := (List.range 64).find? (t.covers a)

/-- DRAM channels in use and the granule in lines (AMAP of channel 0, R326). -/
def State.nch (s : State) : Nat := 2 ^ s.get (F.DRC_AMAP_NCH 0)
def State.granule (s : State) : Nat :=
  match s.get (F.DRC_AMAP_GRAN 0) with | 0 => 1 | 1 => 4 | _ => 16
/-- R326: the channel and the channel-local line of a DRAM line. -/
def State.channelOf (s : State) (line : Nat) : Nat := line / s.granule % s.nch
def State.localLine (s : State) (line : Nat) : Nat :=
  line / (s.granule * s.nch) * s.granule + line % s.granule

/-- R220: the target address and the route entry of a request through window w. -/
def State.translate (s : State) (t : NiTables) (w a : Nat) : Nat × Nat :=
  let target := (t.window w 2 + (a + 2 ^ 48 - t.window w 0)) % 2 ^ 48
  let ridx := t.window w 3 % 256
  (target, if bitOf 9 (t.window w 3) then (ridx + s.channelOf (target / 16)) % 256 else ridx)

/-! ## Status bits, the orphan sink -/

/-- A bit of NI[n].STAT is set; its change from 0 to 1 posts SPINE_ERR with ARG 16 + bit. -/
def State.niError (s : State) (n : Nat) (f : Fld) : State :=
  if s.is f then s else (s.raise f).post 0x0B0 n (16 + f.lo)

/-- R231: a carriage with this H0 and H2 reaches the orphan sink of NI n. -/
def State.orphanWords (s : State) (n h0 h2 : Nat) : State :=
  let s := (s.bump (F.NI_CNT_ORPH n) 1).niError n (F.NI_STAT_ORPHAN n)
  let x := s.ni n
  if s.newTick x.orphanTick then
    (s.setNi n { x with orphanTick := some s.time.tick }).logEntry 0x0B1 n h0 h2
  else s
def State.orphan (s : State) (n : Nat) (c : Carriage) : State := s.orphanWords n c.h0 c.h2

/-! ## NI states -/

/-- Codes of Table 10-14. -/
inductive NiState where
  | opened | closing | closed | refusing
  deriving DecidableEq, Repr
def NiState.code : NiState → Nat | .opened => 0 | .closing => 1 | .closed => 2 | .refusing => 3

/-- Table 14-6, R339: NI 72 + c is CLOSED in SAFE-HOLD and FREEZE, and while its channel is FROZEN or ISOLATED. -/
def State.dramShut (s : State) (n : Nat) : Bool :=
  decide (72 ≤ n ∧ n < 80) &&
    (s.mode.ov.safeHold || s.mode.ov.freeze || s.get (F.DRC_STAT_STATE (n - 72)) == 4 || s.get (F.DRC_STAT_STATE (n - 72)) == 5)

/-- R241, Table 10-11, Table 14-6: the state of an NI. A field's NIs refuse while the field is STUCK or the device halted, and
so do the DRAM NIs in HALT. -/
def State.niState (s : State) (n : Nat) : NiState :=
  let c := (s.ni n).causes
  if c.off || s.dramShut n then .closed
  else if c.closing || c.reshaping then .closing
  else if c.stuck || (decide (n < 80) && s.mode.ov.halt) then .refusing
  else .opened

/-- R241: the cause shown and used: the first of DOMAIN_OFF, RESHAPING and TIMEOUT that applies. -/
def State.niCause (s : State) (n : Nat) : Nat :=
  let c := (s.ni n).causes
  if c.off || c.closing || s.dramShut n then 1 else if c.reshaping then 2
  else if s.niState n = .refusing then 3 else 0
/-- The STATUS with which a new request is bounced (Table 10-11). -/
def State.niRefusal (s : State) (n : Nat) : Nat :=
  match s.niCause n with | 1 => stDomainOff | 2 => stReshaping | _ => stTimeout

/-- R215: NI registers count as disabled in BARE, LOADING and STAGED, and while CLOSING or CLOSED. -/
def State.niEnabled (s : State) (n : Nat) : Bool :=
  !(decide (s.mode.top = .bare) || decide (s.mode.top = .loading) || decide (s.mode.top = .staged)) &&
    !decide (s.niState n = .closing) && !decide (s.niState n = .closed)

/-- A field's NI in a protected field. -/
def State.niProtected (s : State) (n : Nat) : Bool := decide (n < 72) && s.is (F.FLD_PROT_EN (n / 3))

/-! ## Local answers -/

/-- R221, R231: a response the NI forms itself: its type, STATUS, UTAG and SEQ, no payload. -/
def localAnswer (typ status : Nat) (utag seq : BitVec 16) (addr : Word) (n : Nat) : Carriage :=
  { Carriage.zero with typ := typ, rsp := true, status := status, utag := utag, seq := seq, addr := addr, src := n }

/-- R232: a BOUNCE of EVENT, TRIGGER or BCAST is absorbed: counted, and logged once a tick. -/
def State.absorb (s : State) (n : Nat) (c : Carriage) : State :=
  let s := s.bump (F.NI_CNT_BCABS n) 1
  let s := if c.otype == tBcast then s.niError n (F.NI_STAT_BCCUT n) else s
  let x := s.ni n
  if s.newTick x.absorbTick then
    (s.setNi n { x with absorbTick := some s.time.tick }).logEntry 0x0B2 n c.h0 c.h2
  else s

/-- R219: RXD of an item's summary. -/
def summaryWord (c : Carriage) : Word :=
  BitVec.ofNat 48 (c.typ + 32 * c.otype + 1024 * c.status + 2 ^ 14 * c.seq.toNat + 2 ^ 30 * c.utag.toNat)

/-- R219: the payload words an item delivers, by its carriages. -/
def itemWords (cs : List Carriage) (isLocal : Bool) : List (Nat × Word) :=
  if isLocal then []
  else cs.flatMap fun c =>
    let ws (p : Nat → Bool) := ((List.range 16).filter p).map fun i => (16 * c.cidx + i, c.word i)
    if c.typ == tAtomicResp then ws (· == 0)
    else if c.typ == tBounce && c.otype == tAtomic then ws (fun i => decide (i < 3))
    else if c.typ == tWrAck || c.typ == tFenceAck then []
    else ws c.enables

/-- R219: an item that takes `fills` carriages of its buffer reaches the receive port of a field NI. -/
def State.rxItem (s : State) (n : Nat) (inreq : Bool) (fills : Nat) (isLocal : Bool) (cs : List Carriage) : State :=
  let x := s.ni n
  let c := cs.headD Carriage.zero
  s.setNi n { x with rx := x.rx ++ [⟨inreq, fills, summaryWord c, itemWords cs isLocal⟩] }

/-! ## Requests -/

/-- A request as a block hands it to its NI. -/
structure Request where
  typ : Nat
  len : Nat
  addr : Word
  utag : BitVec 16
  mask : BitVec 16
  guar : Bool
  fence : Bool
  ord : Bool
  ctx : Nat
  dev : Nat
  words : List (Nat × Word)
  deriving DecidableEq, Repr

/-- R219: the carriages that items of a class fill, the one in delivery included. -/
def NiSt.rxFill (x : NiSt) (inreq : Bool) : Nat :=
  let all := x.rx ++ (match x.rxNow with | some e => [e.1] | none => [])
  ((all.filter fun i => i.inreq == inreq).map RxItem.fills).foldl (· + ·) 0
/-- R230: response-buffer carriages reserved: LEN + 1 for each outstanding request, its bounce included, until the response
has been delivered. -/
def Tracker.room (t : Tracker) : Nat := (t.pkt.headD Carriage.zero).len + 1
def NiSt.reserved (x : NiSt) : Nat := (x.trackers.map Tracker.room).foldl (· + ·) 0 + x.rxFill false
/-- Carriages in the injection queue, and in the release queue. -/
def NiSt.queued (x : NiSt) : Nat := (x.inj.map fun p => p.pkt.length).foldl (· + ·) 0
def NiSt.heldBack (x : NiSt) : Nat := (x.release.map fun p => p.1.pkt.length).foldl (· + ·) 0

/-- R239: NIs that pass everything through a token bucket. -/
def isRegulated (n : Nat) : Bool := niRegulated n
/-- DEPTH of a regulated NI; 0 acts as 1. -/
def State.niDepth (s : State) (n : Nat) : Nat := max 1 (s.get (F.NI_REG_DEPTH n))

/-- R218, R239: the injection queue has room for the packet; an NI whose DEPTH is less takes it when its queue is empty. -/
def State.queueRoom (s : State) (n len : Nat) : Bool :=
  let x := s.ni n
  if isRegulated n then decide (x.queued + len + 1 ≤ s.niDepth n) || x.inj.isEmpty else decide (x.queued + len + 1 ≤ 16)
/-- R218: whether the NI can take a request now. -/
def State.txReady (s : State) (n : Nat) (typ len : Nat) : Bool :=
  let x := s.ni n
  (decide (s.niState n = .opened) || decide (s.niState n = .refusing)) &&
  (!expectsResponse typ || (decide (x.trackers.length < 256) && decide (x.reserved + len + 1 ≤ 64))) &&
  s.queueRoom n len &&
  (!s.niProtected n || decide (x.heldBack + len + 1 ≤ 64))

/-- R221: whether a window allows a kind of request. -/
def kindAllowed (win3 typ ctx : Nat) : Bool :=
  let rd := bitOf 10 win3
  let wr := bitOf 11 win3
  if isReadType typ then rd
  else if typ == tAtomic then rd && wr
  else if typ == tCfg then rd && wr && decide (ctx ≤ 2)
  else wr

/-- Table 9-5: requests without payload, whose payload words are 0. -/
def noPayload (typ : Nat) : Bool := isReadType typ || typ == tFence
/-- The carriages of a request packet (R199 to R201): RD_LINE is one carriage whatever its LEN. H2.TICK is written at injection
(R33). -/
def buildPacket (n : Nat) (q : Request) (target : Nat) (route : BitVec 30) (seq : BitVec 16) : List Carriage :=
  let k := if q.typ == tRdLine then 1 else q.len + 1
  (List.range k).map fun i =>
    { guar := q.guar, len := q.len, fence := q.fence, ord := q.ord, route := route, hidx := 0, vc := 0, rsp := false,
      typ := q.typ, addr := BitVec.ofNat 48 target, status := 0, tick := 0, seq := seq,
      ctx := q.ctx, src := n, cidx := i, otype := 0, dev := q.dev, utag := q.utag, mask := q.mask,
      payload := (List.range 16).map fun w => if noPayload q.typ then 0 else lookupD q.words (16 * i + w) 0 }

/-- Lines a request touches overlap. -/
def linesOverlap (a b : Carriage) : Bool :=
  let la := a.addr.toNat / 16
  let lb := b.addr.toNat / 16
  decide (la ≤ lb + b.len ∧ lb ≤ la + a.len)

/-- R162, Table 7-4: a protected field's request that is held until release: writes, fences, events, triggers and
broadcasts, and a read of a line that a held write of the same NI writes. DEDUCED (log 78): Table 7-4 alone decides, so a read
does not wait behind a held FENCE or ORD request. -/
def NiSt.mustHold (x : NiSt) (c : Carriage) : Bool :=
  if isReadType c.typ then
    x.release.any fun p => p.1.pkt.any fun w => isWriteType w.typ && linesOverlap w c
  else true

/-- The outcome of handing a request to the NI: taken, or answered locally with a response for the requester. -/
structure Taken where
  state : State
  answer : Option Carriage

/-- A local answer of STATUS st: absorbed where no response is expected (R221). -/
def State.answerLocally (s : State) (n : Nat) (q : Request) (st : Nat) : Taken :=
  let x := s.ni n
  if q.typ == tEvent || q.typ == tTrigger || q.typ == tBcast then
    ⟨s.absorb n { localAnswer tBounce st q.utag x.seq q.addr n with otype := q.typ }, none⟩
  else
    let cfgW := (lookupD q.words 0 0).getLsbD 24
    ⟨s, some (localAnswer (responseType q.typ cfgW) st q.utag x.seq q.addr n)⟩

/-- R218 to R223, R162, R236: the NI takes a request: windows, kinds, the route entry, the packet with its SEQ, the
tracker, and the queue in which it waits. -/
def State.niTake (s : State) (n : Nat) (q : Request) (use : Use) : Taken :=
  let x := s.ni n
  let t := x.active
  if !isRequestType q.typ || !lenAllowed q.typ q.len then s.answerLocally n q stDenied
  else if s.niProtected n && (q.typ == tAtomic || q.typ == tCfg) then
    (s.logOpen n q.typ).answerLocally n q stDenied
  else
    match t.match? q.addr.toNat with
    | none => (s.niError n (F.NI_STAT_NOWIN n)).answerLocally n q stNoWindow
    | some w =>
      if !kindAllowed (t.window w 3) q.typ q.ctx then (s.niError n (F.NI_STAT_DENY n)).answerLocally n q stDenied
      else
        let te := s.translate t w q.addr.toNat
        let e := te.2
        let r0 := t.routeWord e 0
        if !bitOf 37 r0 then (s.niError n (F.NI_STAT_NOWIN n)).answerLocally n q stNoWindow
        else if q.ord && x.broken.contains e then
          (s.niError n (F.NI_STAT_ORDBRK n)).answerLocally n q stRouteClosed
        else
          let q := { q with fence := q.fence || q.typ == tFence }
          let pkt := buildPacket n q te.1 (BitVec.ofNat 30 r0) x.seq
          let hold := s.niProtected n && x.mustHold (pkt.headD Carriage.zero)
          let frame := if hold then some (s.fld (n / 3)).frameTick else none
          let p : InjPkt := ⟨pkt, e, false, false, frame⟩
          let x := { x with seq := x.seq + 1 }
          let trk : Tracker := ⟨pkt, e, [], false, false, false, frame, use⟩
          let x := if expectsResponse q.typ then { x with trackers := x.trackers ++ [trk] } else x
          if hold then
            ⟨s.setNi n { x with release := x.release ++ [(p, use)] }, none⟩
          else ⟨s.setNi n { x with inj := x.inj ++ [p] }, none⟩

/-! ## Injection -/

/-- The slot table reserves a slot for requests of a route entry (R224). -/
def NiTables.reserves (t : NiTables) (e : Nat) : Bool :=
  (List.range 120).any fun i =>
    let w := t.slotWord i
    bitOf 0 w && !bitOf 1 w && w / 4 % 256 == e

/-- Unacknowledged writes injected by the NI (R234, R237). -/
def NiSt.openWrites (x : NiSt) : List Carriage :=
  (x.trackers.filter fun t => t.injected && isWriteType (t.pkt.headD Carriage.zero).typ).flatMap (·.pkt)

/-- A waiting request may be injected before those that wait ahead of it: its fence is resolved; it is no read of a line with an
unacknowledged write (R234); and no ORD request after another to its route entry (R235). -/
def NiSt.eligible (x : NiSt) (ahead : List InjPkt) (p : InjPkt) : Bool :=
  let c := p.pkt.headD Carriage.zero
  let writes := x.openWrites ++ (ahead.flatMap (·.pkt)).filter fun w => isWriteType w.typ
  (!c.fence || p.cleared) && !(isReadType c.typ && writes.any (linesOverlap c)) &&
    !(c.ord && ahead.any fun q => q.entry == p.entry && (q.pkt.headD Carriage.zero).ord)

/-- The requests before the first fenced one, and that one once its fence is resolved (R237). -/
def NiSt.beforeFence (x : NiSt) : List InjPkt :=
  let free (p : InjPkt) : Bool := !(p.pkt.headD Carriage.zero).fence
  x.inj.takeWhile free ++ ((x.inj.dropWhile free).take 1).filter (·.cleared)
/-- Of waiting requests, those that may go, given those ahead of them. -/
def NiSt.mayGo (x : NiSt) (ahead : List InjPkt) : List InjPkt → List InjPkt
  | [] => []
  | p :: t => (if x.eligible ahead p then [p] else []) ++ mayGo x (ahead ++ [p]) t
/-- The requests that may be injected, oldest first. -/
def NiSt.ready (x : NiSt) : List InjPkt := x.mayGo [] x.beforeFence

/-- The tracker of a packet is marked injected. -/
def NiSt.markInjected (x : NiSt) (seq : BitVec 16) : NiSt :=
  { x with trackers := x.trackers.map fun t =>
      if (t.pkt.headD Carriage.zero).seq = seq then { t with injected := true } else t }

/-- Carriages enter the LOCAL input of the NI's router, each in its VC (R206). -/
def RouterSt.push (r : RouterSt) (port cyc : Nat) (c : Carriage) : RouterSt :=
  let k := 4 * port + c.vc
  let q := SMap.get r.bufs [] k
  { r with bufs := SMap.set r.bufs [] k (q ++ [⟨c, if q.isEmpty then some cyc else none, []⟩]) }

/-- Room of four carriages in an input VC. -/
def RouterSt.room (r : RouterSt) (port vc : Nat) : Nat := 4 - (SMap.get r.bufs [] (4 * port + vc)).length

/-- R33, R162, R206: a carriage as its NI injects it: a request carries the frame's number, a response its request's (R200). -/
def State.injected (s : State) (p : InjPkt) (guar : Bool) (c : Carriage) : Carriage :=
  { c with guar := guar, vc := if c.rsp then 2 else 0, tick := if c.rsp then c.tick else p.frame.getD s.time.tick % 4096 }
/-- The router's LOCAL input takes a whole packet. A best-effort carriage travels with GUAR 0. -/
def State.present (s : State) (n : Nat) (p : InjPkt) : State :=
  s.setRouter n (p.pkt.foldl (fun r c => r.push 4 s.spineNow (s.injected p false c)) (s.router n))
/-- R226: the NI's tables are known to swap at the next tick, and its wheel has passed slot 109. -/
def State.silent (s : State) (n : Nat) : Bool :=
  (s.ni n).lastSlots && (s.ni n).written && (!s.is (F.NI_COMMIT_HOLD n) || s.is (F.NI_COMMIT_ARMED n))

/-- One best-effort packet of NI n moves to the router's LOCAL input, if one may and its VC has room: the oldest
response first, then the oldest request that is not held back and has no reserved slot of its own. -/
def State.pumpOne (s : State) (n : Nat) : State :=
  let x := s.ni n
  let r := s.router n
  let waitsForSlot (p : InjPkt) := p.toGuar && (List.range 120).any fun i =>
    let w := x.active.slotWord i
    bitOf 0 w && bitOf 1 w && w / 4 % 256 == (p.pkt.headD Carriage.zero).src
  match x.replies.find? (fun p => !waitsForSlot p) with
  | some p =>
    if p.pkt.length ≤ r.room 4 2 then
      (s.setNi n { x with replies := x.replies.erase p }).present n p
    else s
  | none =>
    match x.ready.find? (fun p => !((p.pkt.headD Carriage.zero).guar && x.active.reserves p.entry)) with
    | none => s
    | some p =>
      if p.pkt.length ≤ r.room 4 0 then
        let x := { x with inj := x.inj.erase p }
        (s.setNi n (x.markInjected (p.pkt.headD Carriage.zero).seq)).present n p
      else s

/-- A best-effort NI fills its router's LOCAL input as far as room allows, but for the end of a wheel before its tables swap; a
regulated NI waits for its tokens. -/
def State.pump (s : State) (n : Nat) : State :=
  if isRegulated n || s.silent n then s
  else (List.range 8).foldl (fun s _ => s.pumpOne n) s

/-- R205: the head of a response to a request that reached the target with its HIDX; R200 gives its fields. -/
def replyTo (c : Carriage) (typ status : Nat) (mask : BitVec 16) (payload : List Word) : Carriage :=
  { c with typ := typ, rsp := true, vc := 2, route := reverseRoute c.route c.hidx, hidx := 0, status := status,
           mask := mask, payload := payload, guar := false, fence := false, ord := false, otype := 0 }

/-- A response packet joins the NI's queue of responses. -/
def State.reply (s : State) (n : Nat) (req : Carriage) (pkt : List Carriage) : State :=
  let x := s.ni n
  (s.setNi n { x with replies := x.replies ++ [⟨pkt, 256, req.guar, false, none⟩] }).pump n

/-- One-carriage responses: WR_ACK, ATOMIC_RESP, FENCE_ACK. -/
def State.replyOne (s : State) (n : Nat) (req : Carriage) (typ status : Nat) (payload : List Word) : State :=
  s.reply n req [{ replyTo req typ status req.mask payload with len := 0, cidx := 0 }]

/-- R209, R241: a request packet returned as a BOUNCE, with its payload unchanged. -/
def bouncePacket (pkt : List Carriage) (status : Nat) : List Carriage :=
  pkt.map fun c => { replyTo c tBounce status c.mask c.payload with otype := c.typ }
def State.bounceBack (s : State) (n : Nat) (pkt : List Carriage) (status : Nat) : State :=
  s.reply n (pkt.headD Carriage.zero) (bouncePacket pkt status)

/-- R490, R136: the response Table 9-5 gives for a request, with a STATUS and every payload word 0. -/
def State.replyFail (s : State) (n : Nat) (pkt : List Carriage) (status : Nat) : State :=
  let c := pkt.headD Carriage.zero
  let typ := responseType c.typ c.cfgWrites
  let k := if c.typ == tRdLine then c.len + 1 else 1
  s.reply n c ((List.range k).map fun i =>
    { replyTo c typ status c.mask (List.replicate 16 0) with
        cidx := i, len := if c.typ == tRdLine then c.len else 0 })

/-! ## Rewinds of a protected field -/

/-- The NIs of a field. -/
def fieldNis (f : Nat) : List Nat := [3 * f, 3 * f + 1, 3 * f + 2]

/-- R162, R163: at a rewind a field's NIs discard their release queues with the trackers of what was held, and mark
the reads still outstanding as stale. DEDUCED (log 79): responses that have already reached the receive buffer are not outstanding;
they stay, and the replay finds them there. -/
def State.rewindNi (s : State) (n : Nat) : State :=
  let x := s.ni n
  let seqs := x.release.map fun p => (p.1.pkt.headD Carriage.zero).seq
  s.setNi n { x with
    release := [],
    trackers := (x.trackers.filter fun t => !seqs.contains (t.pkt.headD Carriage.zero).seq).map fun t =>
      if isReadType (t.pkt.headD Carriage.zero).typ then { t with stale := true } else t }
def State.rewindNis (s : State) (f : Nat) : State := s.forEach (fieldNis f) State.rewindNi

/-- R236: a request to a route entry whose ORD stream is broken is answered at the receive port, or absorbed. -/
def State.refuseOrd (s : State) (n : Nat) (p : InjPkt) : State :=
  let c := p.pkt.headD Carriage.zero
  let s := s.niError n (F.NI_STAT_ORDBRK n)
  let x := s.ni n
  if expectsResponse c.typ then
    let s := s.setNi n { x with trackers := x.trackers.filter fun t => (t.pkt.headD Carriage.zero).seq != c.seq }
    s.rxItem n false (c.len + 1) true [localAnswer (responseType c.typ c.cfgWrites) stRouteClosed c.utag c.seq c.addr n]
  else s.absorb n { localAnswer tBounce stRouteClosed c.utag c.seq c.addr n with otype := c.typ }
/-- R162: at the commit tick the held carriages join the injection queue in issue order, but for those of a broken ORD stream
(R236). -/
def State.releaseNi (s : State) (n : Nat) : State :=
  let x := s.ni n
  let cut (p : InjPkt) : Bool := (p.pkt.headD Carriage.zero).ord && x.broken.contains p.entry
  let l := x.release.map (·.1)
  let s := s.setNi n { x with release := [], inj := x.inj ++ l.filter fun p => !cut p }
  ((l.filter cut).foldl (fun s p => s.refuseOrd n p) s).pump n
def State.releaseNis (s : State) (f : Nat) : State := s.forEach (fieldNis f) State.releaseNi

end Sys2Proof.Machine
end

