-- ==== Sys2Proof/Machine/Router.lean ====
section
/-! DEFINITION. Routers (R198 to R214): routes, port states, bounces, link outcomes, broadcast copies, arbitration and
the spill buffer. -/
namespace Sys2Proof.Machine

/-! ## Port states and errors -/

/-- Table 9-6a. -/
inductive PortState where
  | opened | closed | dead
  deriving DecidableEq, Repr

/-- A state's code; 3 acts as DEAD. -/
def PortState.ofCode : Nat → PortState | 0 => .opened | 1 => .closed | _ => .dead
/-- The code of the state of output port `p` (N, E, S, W as 0 to 3), and that state; LOCAL has none. -/
def State.portCode (s : State) (n p : Nat) : Nat := if 4 ≤ p then 0 else bitsOf (2 * p) 2 (s.reg (R.NOC_PORTCTL n))
def State.portState (s : State) (n p : Nat) : PortState := .ofCode (s.portCode n p)

/-- A bit of NOC[n].ERR is set; its change from 0 to 1 posts SPINE_ERR, and the first such change of a tick is
logged. -/
def State.nocError (s : State) (n : Nat) (f : Fld) : State :=
  if s.is f then s
  else
    let s := (s.raise f).post 0x0B0 n f.lo
    let r := s.router n
    if s.newTick r.logTick then
      (s.setRouter n { r with logTick := some s.time.tick }).logEntry 0x0B0 n f.lo 0
    else s

/-- A carriage with this H0 and H2 goes from the router to the orphan sink of its NI. -/
def State.sinkOrphan (s : State) (n h0 h2 : Nat) : State :=
  ((s.bump (F.NOC_EVCNT_ORPHAN n) 1).nocError n (F.NOC_ERR_ORPHAN n)).orphanWords n h0 h2
def State.routerOrphan (s : State) (n : Nat) (c : Carriage) : State := s.sinkOrphan n c.h0 c.h2

/-! ## Routes -/

/-- R211, Table 9-7: the counts of a BCAST ROUTE. -/
def bcYdir (r : BitVec 30) : Nat := bitsOf 16 1 r.toNat
def bcPhase (r : BitVec 30) : Nat := bitsOf 14 2 r.toNat
def bcYs (r : BitVec 30) : Nat := bitsOf 11 3 r.toNat
def bcYn (r : BitVec 30) : Nat := bitsOf 8 3 r.toNat
def bcXw (r : BitVec 30) : Nat := bitsOf 4 4 r.toNat
def bcXe (r : BitVec 30) : Nat := bitsOf 0 4 r.toNat
def bcRoute (ydir phase ys yn xw xe : Nat) : BitVec 30 :=
  BitVec.ofNat 30 (xe + 16 * xw + 256 * yn + 2048 * ys + 16384 * phase + 65536 * ydir)

/-- R211: the outputs a BCAST carriage leaves through, each with the ROUTE of its copy; LOCAL is 4. -/
def bcCopies (r : BitVec 30) : List (Nat × BitVec 30) :=
  let xe := bcXe r
  let xw := bcXw r
  let yn := bcYn r
  let ys := bcYs r
  let ph := bcPhase r
  let e := if (ph = 0 ∨ ph = 1) ∧ 0 < xe then [(1, bcRoute 0 1 ys yn xw (xe - 1))] else []
  let w := if (ph = 0 ∨ ph = 2) ∧ 0 < xw then [(3, bcRoute 0 2 ys yn (xw - 1) xe)] else []
  let n := if ph ≠ 3 ∧ 0 < yn then [(0, bcRoute 0 3 ys (yn - 1) xw xe)] else []
  let so := if ph ≠ 3 ∧ 0 < ys then [(2, bcRoute 1 3 (ys - 1) yn xw xe)] else []
  let y := if ph = 3 ∧ bcYdir r = 0 ∧ 0 < yn then [(0, bcRoute 0 3 ys (yn - 1) xw xe)]
    else if ph = 3 ∧ bcYdir r = 1 ∧ 0 < ys then [(2, bcRoute 1 3 (ys - 1) yn xw xe)] else []
  e ++ w ++ n ++ so ++ y ++ [(4, r)]

/-- A BCAST request. -/
def Carriage.isBcast (c : Carriage) : Bool := c.typ == tBcast && !c.rsp

/-- R203: the output a unicast carriage asks for; none for an invalid code or HIDX. -/
def Carriage.wants (c : Carriage) : Option Nat :=
  if 10 < c.hidx then none
  else if c.hidx = 10 then some 4
  else let d := routeCode c.route c.hidx; if d ≤ 4 then some d else none

/-- The direction of the hop before this router, if any. -/
def Carriage.cameBy (c : Carriage) : Option Nat :=
  if c.isBcast then
    match bcPhase c.route with | 0 => none | 1 => some 1 | 2 => some 3 | _ => some (2 * bcYdir c.route)
  else if c.hidx = 0 then none else some (routeCode c.route (c.hidx - 1))

/-- R206: the D bit with which a carriage leaves router n in direction d. -/
def Carriage.dateline (c : Carriage) (n d : Nat) : Nat :=
  if crossesWrap n d then 1
  else match c.cameBy with
    | some b => if b % 2 = d % 2 then c.vc % 2 else 0
    | none => c.vc % 2
/-- The VC in which it leaves; a carriage delivered through LOCAL keeps its own. -/
def Carriage.nextVc (c : Carriage) (n out : Nat) : Nat :=
  if out = 4 then c.vc else 2 * bit c.rsp + c.dateline n out

/-- The last carriage of its packet; an RD_LINE request and its bounce are one carriage. -/
def Carriage.isLast (c : Carriage) : Bool :=
  c.typ == tRdLine || (c.typ == tBounce && c.otype == tRdLine) || decide (c.len ≤ c.cidx)

/-- R209: the bounce a router forms of a request carriage. -/
def bounceOf (c : Carriage) (status : Nat) : Carriage := { replyTo c tBounce status c.mask c.payload with otype := c.typ }

/-- R212: the bounce of a cut broadcast branch, routed from the coordinates of router n back to SRC. -/
def bcBounce (c : Carriage) (n : Nat) : Carriage :=
  let path := pathTo c.src n
  { replyTo { c with route := routeOf path, hidx := path.length } tBounce stRouteClosed c.mask c.payload with
    otype := tBcast }

/-! ## Where a carriage waits -/

/-- Where a carriage waits in a router: a reserved slot at an input port, an input VC, the spill buffer, or a bounce
formed for it here. -/
inductive Seat where
  | fast (port : Nat) | vc (key : Nat) | spill (i : Nat) | made (i : Nat)
  deriving DecidableEq, Repr

/-- R213: the place of a seat among the input ports; the spill buffer and bounces formed here count as LOCAL. -/
def Seat.port : Seat → Nat | .fast p => p | .vc k => k / 4 | _ => 4

/-- R200: a packet in the spine is known by its SRC, SEQ and CLASS. -/
def Carriage.pid (c : Carriage) : Nat := c.src + 2 ^ 7 * c.seq.toNat + 2 ^ 23 * bit c.rsp

/-- The carriages at the head of every seat. -/
def RouterSt.heads (r : RouterSt) : List (Seat × Slot) :=
  r.fast.map (fun e => (.fast e.1, e.2)) ++
  (List.range 20).filterMap (fun k => ((SMap.get r.bufs [] k).head?).map fun x => (.vc k, x)) ++
  (List.range r.spill.length).filterMap (fun i => (r.spill[i]?).map fun x => (.spill i, x)) ++
  (List.range r.made.length).filterMap (fun i => (r.made[i]?).map fun x => (.made i, x))

/-- A head of an input VC after it changed from one carriage to the next: the new head's age starts. -/
def popSlots (l : List Slot) (cyc : Nat) : List Slot :=
  match l.drop 1 with
  | [] => []
  | x :: t => { x with since := x.since.orElse fun _ => some cyc } :: t

/-- A carriage leaves its seat. -/
def RouterSt.leave (r : RouterSt) (cyc : Nat) : Seat → RouterSt
  | .fast p => { r with fast := r.fast.eraseP fun e => e.1 == p }
  | .vc k => { r with bufs := SMap.set r.bufs [] k (popSlots (SMap.get r.bufs [] k) (cyc + 1)) }
  | .spill i => { r with spill := r.spill.eraseIdx i }
  | .made i => { r with made := r.made.eraseIdx i }

/-- What is left to send of a seat's broadcast. -/
def RouterSt.keep (r : RouterSt) (branches : List Nat) : Seat → RouterSt
  | .fast p => { r with fast := r.fast.map fun e => if e.1 = p then (p, { e.2 with branches := branches }) else e }
  | .vc k =>
    match SMap.get r.bufs [] k with
    | [] => r
    | x :: t => { r with bufs := SMap.set r.bufs [] k ({ x with branches := branches } :: t) }
  | .spill i => { r with spill := r.spill.modify i fun x => { x with branches := branches } }
  | .made i => { r with made := r.made.modify i fun x => { x with branches := branches } }

/-- The fate of a carriage's packet, where it does not pass. -/
def RouterSt.fate (r : RouterSt) (c : Carriage) : Option PacketFate := (r.fates.find? fun e => e.1 == c.pid).map (·.2)
/-- The fate of the rest of a packet; forgotten with its last carriage. -/
def RouterSt.setFate (r : RouterSt) (c : Carriage) (p : PacketFate) : RouterSt :=
  let l := r.fates.filter fun e => e.1 != c.pid
  { r with fates := if c.isLast then l else (c.pid, p) :: l }

/-- The outputs a waiting carriage still asks for. A carriage that can go nowhere is dealt with at LOCAL. -/
def RouterSt.asks (r : RouterSt) (e : Seat × Slot) : List Nat :=
  if e.2.c.isBcast then
    if (r.fate e.2.c).isSome then [4]
    else if e.2.branches.isEmpty then (bcCopies e.2.c.route).map (·.1) else e.2.branches
  else [e.2.c.wants.getD 4]

/-! ## Arbitration -/

/-- AGEMAX; 0 acts as 1. -/
def State.ageMax (s : State) (n : Nat) : Nat := max 1 (s.get (F.NOC_ARB_AGEMAX n))
/-- R206: the packet that holds output VC `vc` of output `out`. -/
def RouterSt.holder (r : RouterSt) (out vc : Nat) : Option Nat := SMap.get r.held none (4 * out + vc)
/-- R208: the port state under which the packet of a carriage began to pass output `out`. -/
def RouterSt.begunAt (r : RouterSt) (out : Nat) (c : Carriage) : Option Nat :=
  (r.begun.find? fun e => e.1 == out && e.2.1 == c.pid).map (·.2.2)

/-- A carriage may leave through `out`: the output VC is free or its packet's own, and the next router has room. A carriage in
a reserved slot needs neither (R213). -/
def State.canLeave (s : State) (n out : Nat) (e : Seat × Slot) : Bool :=
  let r := s.router n
  let vc := e.2.c.nextVc n out
  let free := match r.holder out vc with | none => true | some p => p == e.2.c.pid
  match e.1 with
  | .fast _ => true
  | _ => free && (decide (out = 4) || decide (0 < (s.router (neighbour n out)).room ((out + 2) % 4) vc))

/-- R213, R214: the rank of a waiting carriage, smaller first: the tier, then the age (older first), the class, the port from
the round-robin pointer, and the VC. A spilled carriage is AGEMAX cycles older than its wait. -/
def State.rank (s : State) (n out cyc : Nat) (e : Seat × Slot) : List Nat :=
  let since := e.2.since.getD cyc
  let age := cyc - since
  let aged := match e.1 with
    | .spill _ => true
    | _ => !isRegulated e.2.c.src && decide (s.ageMax n ≤ age)
  let tier := match e.1 with | .fast _ => 0 | _ => if aged then 1 else if isRegulated e.2.c.src then 2 else 3
  let rr := SMap.get (s.router n).rr 0 out
  let from0 := match e.1 with | .spill _ => since + 65536 - s.ageMax n | _ => since + 65536
  match e.1 with
  | .fast p => [0, p]
  | _ => [tier, from0, bit (!e.2.c.rsp), (e.1.port + 5 - rr) % 5, e.2.c.vc]

/-- Lexicographic order of ranks. -/
def rankLt : List Nat → List Nat → Bool
  | [], _ => false
  | _ :: _, [] => false
  | a :: x, b :: y => decide (a < b) || (a == b && rankLt x y)

/-- R213: the carriage that wins an output. -/
def State.winner (s : State) (n out cyc : Nat) : Option (Seat × Slot) :=
  ((s.router n).heads.filter fun e =>
      ((s.router n).asks e).contains out && s.canLeave n out e && decide (e.2.since.getD 0 ≤ cyc)).foldl
    (fun best e => match best with
      | none => some e
      | some b => if rankLt (s.rank n out cyc e) (s.rank n out cyc b) then some e else best) none

/-! ## Arrival -/

/-- R214: a GUAR carriage is demoted into the spill buffer, or lost when that is full. It may leave from cycle `cyc`. -/
def State.demote (s : State) (n cyc : Nat) (x : Slot) : State :=
  let s := s.bump (F.NOC_EVCNT_SPILL n) 1
  let r := s.router n
  let c := { x.c with guar := false }
  if r.spill.length < 8 then s.setRouter n { r with spill := r.spill ++ [{ x with c := c, since := some cyc }] }
  else (s.routerOrphan n c).nocError n (F.NOC_ERR_SPILLLOSS n)

/-- A bounce formed at router n joins its bounces. -/
def State.formBounce (s : State) (n cyc : Nat) (c : Carriage) : State :=
  let s := s.bump (F.NOC_EVCNT_BOUNCE n) 1
  let r := s.router n
  s.setRouter n { r with made := r.made ++ [⟨c, some cyc, []⟩] }

/-- A carriage enters an input of router m, in the cycle `cyc`. -/
def State.enter (s : State) (m port cyc : Nat) (c : Carriage) : State :=
  let r := s.router m
  if c.guar then s.setRouter m { r with fast := r.fast ++ [(port, ⟨c, some cyc, []⟩)] }
  else s.setRouter m (r.push port cyc c)

/-- The packet of a carriage ends at this router: nothing is held for it, and nothing known of it. -/
def RouterSt.forget (r : RouterSt) (c : Carriage) : RouterSt :=
  { r with held := r.held.filter fun e => e.2 != some c.pid, begun := r.begun.filter fun e => e.2.1 != c.pid }
/-- A carriage lost at router m (DESIGN CHOICE, log 78): the loss of a packet's last carriage ends the packet in every router,
and after the loss of its first the rest goes on as a packet that has begun. -/
def State.loseCarriage (s : State) (m : Nat) (c : Carriage) : State :=
  if c.isLast then s.forEach (List.range 96) fun s k => s.setRouter k ((s.router k).forget c)
  else if c.cidx = 0 then
    let r := s.router m
    let out := c.wants.getD 4
    s.setRouter m { r with begun := (out, c.pid, s.portCode m out) :: r.begun }
  else s
/-- R210: H1, H3 and payload words of a carriage as they came. CIDX stays the carriage's place in its packet. -/
def Carriage.spoiled (c : Carriage) (bad : List (Nat × Word)) : Carriage :=
  let h3 := (lookupD bad 3 (BitVec.ofNat 48 c.h3)).toNat
  { c with addr := lookupD bad 1 c.addr, otype := bitsOf 40 5 h3, dev := bitsOf 32 8 h3,
           utag := BitVec.ofNat 16 (bitsOf 16 16 h3), mask := BitVec.ofNat 16 (bitsOf 0 16 h3),
           payload := (List.range 16).map fun i => lookupD bad (4 + i) (c.word i) }

/-- R210, Table 9-8: a carriage arrives over a link at input `port` of router m. -/
def State.arrive (s : State) (m port cyc : Nat) (c : Carriage) (link : LinkOutcome) : State :=
  let unc (s : State) : State := (s.bump (F.NOC_LINKCNT_UNC m port) 1).nocError m (F.NOC_ERR_LINKUNC m)
  match link with
  | .clean => s.enter m port cyc c
  | .corrected =>
    let s := s.bump (F.NOC_LINKCNT_CORR m port) 1
    if c.guar then s.demote m (cyc + 1) ⟨c, none, []⟩ else s.enter m port (cyc + 1) c
  | .uncorrHeader h0 h2 => ((unc s).sinkOrphan m h0.toNat h2.toNat).loseCarriage m c
  | .uncorrBody bad =>
    let s := unc s
    if c.rsp then
      s.enter m port cyc { c.spoiled bad with
        status := if c.status = stOk ∨ c.status = stCorrected then stUncorr else c.status }
    else if c.cidx = 0 then
      (s.setRouter m ((s.router m).setFate c (.bounce stUncorr))).formBounce m cyc (bounceOf (c.spoiled bad) stUncorr)
    else
      s.enter m port cyc { c with status := stUncorr, addr := 0, otype := 0, dev := 0, utag := 0, mask := 0,
                                  payload := List.replicate 16 0 }

/-! ## The hop -/

/-- The other reserved-slot carriages that ask for the same output are demoted (R214). -/
def State.slotConflicts (s : State) (n out cyc : Nat) (won : Seat) : State :=
  let r := s.router n
  let lost := r.fast.filter fun e => (.fast e.1 : Seat) != won && (r.asks (.fast e.1, e.2)).contains out &&
    decide (e.2.since.getD 0 ≤ cyc)
  if lost.isEmpty then s
  else
    let s := s.nocError n (F.NOC_ERR_SLOTCONF n)
    lost.foldl (fun s e =>
      (s.setRouter n { s.router n with fast := (s.router n).fast.erase e }).demote n (cyc + 1) e.2) s

/-- R206, R208: a carriage has passed output `out`. Its packet holds the output VC from its first carriage to its last, and passes
under the port state in which it began. A carriage in a reserved slot takes no VC; of a packet whose last carriage passed before a
demoted first one nothing is held. -/
def RouterSt.passed (r : RouterSt) (n out code : Nat) (seat : Seat) (c : Carriage) : RouterSt :=
  let k := 4 * out + c.nextVc n out
  let p := c.pid
  let started := c.cidx == 0 || (r.begunAt out c).isSome
  if c.isLast then
    { r with held := if SMap.get r.held none k = some p then SMap.set r.held none k none else r.held,
             begun := r.begun.filter fun e => !(e.1 == out && e.2.1 == p),
             ended := if started then r.ended else (out, p) :: r.ended }
  else if r.ended.contains (out, p) then
    (if c.cidx = 0 then { r with ended := r.ended.erase (out, p) } else r)
  else if started then
    { r with held := (match seat with | .fast _ => r.held | _ => SMap.set r.held none k (some p)),
             begun := if (r.begunAt out c).isSome then r.begun else (out, p, code) :: r.begun }
  else r

/-- R206, R213: the output sends: the packet's VC is held, the pointer moves, the count rises. -/
def State.grant (s : State) (n out cyc : Nat) (e : Seat × Slot) : State :=
  let r := (s.router n).passed n out (s.portCode n out) e.1 e.2.c
  let s := s.setRouter n { r with
    rr := SMap.set r.rr 0 out ((e.1.port + 1) % 5), sent := SMap.set r.sent 0 out (cyc + 1) }
  s.bump (F.NOC_OUTBUSY_COUNT n out) 1

/-- The carriage as it leaves through `out`: HIDX advanced, the VC of the next hop; a BCAST copy with its own ROUTE. -/
def leaving (c : Carriage) (n out : Nat) : Carriage :=
  if c.isBcast then { c with route := lookupD (bcCopies c.route) out c.route, vc := c.nextVc n out }
  else if out = 4 then c
  else { c with hidx := c.hidx + 1, vc := c.nextVc n out }

/-- Two carriages of one packet; DEV can be lost in a carriage after the first (Table 9-8). -/
def Carriage.sameAs (c d : Carriage) : Bool :=
  c.src == d.src && c.seq == d.seq && c.typ == d.typ && (c.dev == d.dev || decide (0 < c.len))
/-- A carriage joins an NI's arrivals. The rest of an older packet of several carriages with its SRC and SEQ, of which a carriage
was lost on the way, is no packet (R490) and goes. -/
def joinPacket (l : List Carriage) (c : Carriage) : List Carriage :=
  (if decide (0 < c.len) && l.any (fun d => d.sameAs c && d.cidx == c.cidx) then l.filter fun d => !d.sameAs c else l) ++ [c]
/-- The carriages of a packet that have come, by their places in it. -/
def gathered (l : List Carriage) (c : Carriage) : List Carriage :=
  (List.range (c.len + 1)).filterMap fun i => l.find? fun d => d.sameAs c && d.cidx == i
/-- Every carriage of the packet is there; an RD_LINE request and its bounce are one. A packet of which a carriage was lost on the
way never is, and its requester receives TIMEOUT (R231, R490). -/
def packetWhole (pkt : List Carriage) : Bool :=
  let c := pkt.headD Carriage.zero
  decide (pkt.length = if c.typ = tRdLine ∨ (c.typ = tBounce ∧ c.otype = tRdLine) then 1 else c.len + 1)
/-- The packet that was whole first. -/
def firstWhole (l : List Carriage) : Option (List Carriage) :=
  (List.range l.length).findSome? fun k =>
    let pkt := gathered (l.take (k + 1)) (l.getD k Carriage.zero)
    if packetWhole pkt then some pkt else none
/-- A carriage leaves through LOCAL to NI n, in spine cycle `cyc`; a watch unit may see it (R446). -/
def State.deliver (s : State) (n cyc : Nat) (c : Carriage) : State :=
  let s := s.watchCarriage n false c cyc
  let x := s.ni n
  if c.rsp then s.setNi n { x with inRsp := joinPacket x.inRsp c }
  else
    let came := x.came.filter fun e => x.inReq.any fun d => d.pid == e.1
    let came := if 72 ≤ n ∧ n < 80 ∧ ¬ came.any (fun e => e.1 == c.pid) then came ++ [(c.pid, s.time.raw)] else came
    s.setNi n { x with inReq := joinPacket x.inReq c, came := came }

/-- The carriage's seat gives up this output: the slot is freed when nothing is left to send. -/
def State.release (s : State) (n out cyc : Nat) (e : Seat × Slot) : State :=
  let r := s.router n
  let left := (r.asks e).filter (· != out)
  s.setRouter n (if left.isEmpty then r.leave cyc e.1 else r.keep left e.1)

/-- A seat holds a carriage its NI injected: it came in through the LOCAL input, not as a bounce or a demoted carriage. -/
def Seat.injected : Seat → Bool
  | .fast p => p == 4
  | .vc k => decide (16 ≤ k)
  | _ => false
/-- R203, R207 to R209, R212: what becomes of the winner of an output. -/
def State.send (s : State) (n out cyc : Nat) (e : Seat × Slot) (link : LinkOutcome) : State :=
  let c := e.2.c
  let r := s.router n
  let s := if e.1.injected && e.2.branches.isEmpty then s.watchCarriage n true c cyc else s
  let s := s.release n out cyc e
  let refuse (s : State) (st : Nat) : State :=
    (s.setRouter n ((s.router n).setFate c (.bounce st))).formBounce n cyc (bounceOf c st)
  let sink (s : State) : State := (s.setRouter n ((s.router n).setFate c .orphan)).routerOrphan n c
  match r.fate c with
  | some (.bounce st) => refuse s st
  | some .orphan => sink s
  | none =>
    if !c.isBcast && c.wants.isNone then
      let s := s.nocError n (F.NOC_ERR_BADROUTE n)
      if c.rsp || decide (10 < c.hidx) then sink s else refuse s stRouteClosed
    else
      let st := match r.begunAt out c with | some code => PortState.ofCode code | none => s.portState n out
      if st = .opened || (st = .closed && c.rsp) then
        let s := s.grant n out cyc e
        if out = 4 then s.deliver n cyc c
        else s.arrive (neighbour n out) ((out + 2) % 4) (cyc + 1) (leaving c n out) link
      else if c.rsp then sink s
      else if c.isBcast then (s.nocError n (F.NOC_ERR_BCASTCUT n)).formBounce n cyc (bcBounce c n)
      else refuse s stRouteClosed

/-- R198, R213: in spine cycle `cyc` output `out` of router n sends the carriage that wins it. -/
def State.hop (s : State) (n out cyc : Nat) (link : LinkOutcome) : State :=
  if !s.domainOn 2 || decide (cyc < SMap.get (s.router n).sent 0 out) then s
  else
    let s := { s with spineNow := max s.spineNow cyc }
    match s.winner n out cyc with
    | none => s
    | some e =>
      let s := s.slotConflicts n out cyc e.1
      (s.send n out cyc e link).pump n

end Sys2Proof.Machine
end

