-- ==== Sys2Proof/Machine/Interfaces.lean ====
section
/-! DEFINITION. Network interfaces: the transmit port of a field NI, reserved slots, the token bucket, the table port and
the check and swap of the tables (R216 to R241). -/
namespace Sys2Proof.Machine

/-! ## The transmit port (R217, R218) -/

/-- R218: TXRDY for the staged request. -/
def State.txrdy (s : State) (n : Nat) : Bool :=
  let h := (s.ni n).stHead.toNat
  s.txReady n (bitsOf 0 5 h) (bitsOf 5 2 h)
/-- The word the port delivers next (R219): the rest of the item in delivery, else the summary of the first response, else
that of the first inbound request; RXD, RXS without TXRDY, and the interface after it. -/
def NiSt.deliver (x : NiSt) : NiSt × Word × Nat :=
  let sh (i : RxItem) : Nat := 1 + 1024 * bit i.inreq
  match x.rxNow with
  | some (i, k) =>
    let w := i.words.getD k (0, 0)
    let last := decide (i.words.length ≤ k + 1)
    ({ x with rxNow := if last then none else some (i, k + 1) }, w.2, sh i + 8 * w.1 + 4 * bit last)
  | none =>
    match (x.rx.find? fun i => !i.inreq).orElse fun _ => x.rx.head? with
    | some i =>
      let last := i.words.isEmpty
      ({ x with rx := x.rx.erase i, rxNow := if last then none else some (i, 0) }, i.summary, sh i + 2 + 4 * bit last)
    | none => (x, 0, 0)
/-- R219, Table 10-4: at the end of cycle `st` the receive port presents the next word, with TXRDY. -/
def State.rxStep (s : State) (n : Nat) (st : Nat × Nat) : State :=
  let x := s.ni n
  let d := x.deliver
  s.setNi n { d.1 with rxd := d.2.1, rxs := d.2.2 + 512 * bit (s.txrdy n), rxBefore := (x.rxd, x.rxs), portAt := some st }

/-- R217: the command and data words at the transmit port of field NI n. -/
def State.txWords (s : State) (i : FieldImage) (n : Nat) (st : Nat × Nat) : Word × Word :=
  let c := lookupD i.niTracks (n % 3) (16, 16)
  (s.port16 i (n / 3) (niCluster (n % 3)) st c.1, s.port16 i (n / 3) (niCluster (n % 3)) st c.2)
/-- A command at the transmit port of field NI n in work cycle `cyc`, performed where the STEP at the port is the command's
(`fits`), with the word its receive port presents at the end of that cycle; one command in a cycle. `g` gets IDX and the data
word (Table 10-2). -/
def State.txPort (s : State) (n cyc : Nat) (fits : Nat → Bool) (g : Nat → Word → State → State) : State :=
  let f := n / 3
  let st := (s.fld f).stamp cyc
  match s.image f with
  | none => s
  | some i =>
    if !s.executes f cyc || (s.ni n).portAt == some st then s
    else
      let s' := s.comeTo f ((s.fld f).base + cyc)
      let w := s'.txWords i n st
      if fits (bitsOf 0 4 w.1.toNat) then (g (bitsOf 4 6 w.1.toNat) w.2 s').rxStep n st else s

/-- STEP 0, and STEP 6 to 15 (Table 10-2): nothing. -/
def execTxIdle (n : Fin 72) (cyc : Nat) (s : State) : Ans :=
  .next (s.txPort n cyc (fun k => k == 0 || decide (6 ≤ k)) fun _ _ s => s)
def execAddr (n : Fin 72) (cyc : Nat) (s : State) : Ans :=
  .next (s.txPort n cyc (· == 1) fun _ data s => s.setNi n { s.ni n with stAddr := data })
def execHead (n : Fin 72) (cyc : Nat) (s : State) : Ans :=
  .next (s.txPort n cyc (· == 2) fun _ data s => s.setNi n { s.ni n with stHead := data })
/-- Staged payload word `idx`, the last one staged under a number counting. -/
def State.stageWord (s : State) (n idx : Nat) (data : Word) : State :=
  let x := s.ni n
  s.setNi n { x with stWords := x.stWords.filter (fun e => e.1 != idx) ++ [(idx, data)] }
def execWord (n : Fin 72) (cyc : Nat) (s : State) : Ans :=
  .next (s.txPort n cyc (· == 3) fun idx data s => s.stageWord n idx data)
/-- The staging cleared: words not staged are 0. -/
def State.clearStaging (s : State) (n : Nat) : State :=
  s.setNi n { s.ni n with stAddr := 0, stHead := 0, stWords := [] }
def execDrop (n : Fin 72) (cyc : Nat) (s : State) : Ans := .next (s.txPort n cyc (· == 5) fun _ _ s => s.clearStaging n)

/-- R199: the fields of a request before its route. -/
def State.stagedRequest (s : State) (n : Nat) : Request :=
  let x := s.ni n
  let h := x.stHead.toNat
  { typ := bitsOf 0 5 h, len := bitsOf 5 2 h, addr := x.stAddr, utag := BitVec.ofNat 16 (bitsOf 26 16 h),
    mask := BitVec.ofNat 16 (bitsOf 10 16 h), guar := bitOf 9 h, fence := bitOf 8 h, ord := bitOf 7 h,
    ctx := s.get (F.NI_CTL_CTX n), dev := s.devid.toNat, words := x.stWords }

/-- R218: SEND is ignored while TXRDY is 0; otherwise the request is taken, or answered at the receive port. -/
def State.send218 (s : State) (n : Nat) : State :=
  let q := s.stagedRequest n
  if s.txReady n q.typ q.len then
    let t := (s.clearStaging n).niTake n q .fabric
    let s := match t.answer with
      | some c => t.state.rxItem n false 0 true [c]
      | none => t.state
    s.pump n
  else s
def execSend (n : Fin 72) (cyc : Nat) (s : State) : Ans := .next (s.txPort n cyc (· == 4) fun _ _ s => s.send218 n)

/-! ## Reserved slots (R224 to R226) -/

/-- One carriage travels in a reserved slot. -/
def State.slotCarriage (s : State) (n cyc : Nat) (p : InjPkt) : State :=
  s.enter n 4 cyc (s.injected p true (p.pkt.headD Carriage.zero))

/-- A packet without its first carriage; gone with its last. -/
def InjPkt.advance (l : List InjPkt) (p : InjPkt) : List InjPkt :=
  l.flatMap fun q => if q = p then (if p.pkt.length ≤ 1 then [] else [{ p with pkt := p.pkt.drop 1 }]) else [q]

/-- R224, R226: slot `slot` of a wheel, in spine cycle `cyc`; `lastWheel` when a tick ends this wheel. -/
def State.slot (s : State) (n slot cyc : Nat) (lastWheel : Bool) : State :=
  let s := if s.domainOn 2 then s.setNi n { s.ni n with lastSlots := lastWheel && decide (110 ≤ slot) } else s
  let x := s.ni n
  let w := x.active.slotWord slot
  if !s.domainOn 2 || !bitOf 0 w || s.silent n then s
  else
    let s := { s with spineNow := max s.spineNow cyc }
    let idx := w / 4 % 256
    if bitOf 1 w then
      match x.replies.find? fun p => p.toGuar && (p.pkt.headD Carriage.zero).src == idx with
      | some p => (s.setNi n { x with replies := InjPkt.advance x.replies p }).slotCarriage n cyc p
      | none => s
    else
      match x.ready.find? fun p => (p.pkt.headD Carriage.zero).guar && p.entry == idx with
      | some p =>
        let c := p.pkt.headD Carriage.zero
        let x := { x with inj := InjPkt.advance x.inj p }
        (s.setNi n (x.markInjected c.seq)).slotCarriage n cyc p
      | none => s
def execSlot (n : NodeNo) (slot : Fin 120) (cyc : Nat) (lastWheel : Bool) (s : State) : Ans :=
  .next (s.slot n slot cyc lastWheel)

/-! ## Regulated injectors (R239) -/

/-- RATE: 0 acts as 1, above 1,920 as 1,920. -/
def State.niRate (s : State) (n : Nat) : Nat := min 1920 (max 1 (s.get (F.NI_REG_RATE n)))

/-- The packet a regulated NI would inject next: the oldest response, else the oldest request that may go. -/
def NiSt.nextPacket (x : NiSt) : Option (InjPkt × Bool) :=
  match x.replies with
  | p :: _ => some (p, true)
  | [] => x.ready.head?.map fun p => (p, false)

/-- R239: after `elapsed` spine cycles the bucket has gained RATE ÷ 1,920 carriages for each, up to DEPTH; the next
packet is injected whole when the bucket allows it. -/
def State.regulated (s : State) (n elapsed : Nat) : State :=
  if !isRegulated n || !s.domainOn 2 then s
  else
    let x := s.ni n
    let full : Int := 1920 * s.niDepth n
    let tokens := min full (x.tokens + ((s.niRate n * elapsed : Nat) : Int))
    let x := { x with tokens := tokens }
    match x.nextPacket with
    | none => s.setNi n x
    | some (p, isReply) =>
      let c := p.pkt.headD Carriage.zero
      let need : Int := ((1920 * p.pkt.length : Nat) : Int)
      if (need ≤ tokens ∨ (s.niDepth n < p.pkt.length ∧ tokens = full)) ∧
          p.pkt.length ≤ (s.router n).room 4 (if c.rsp then 2 else 0) then
        let x := { x with tokens := tokens - need }
        let x := if isReply then { x with replies := x.replies.drop 1 }
          else { x with inj := x.inj.erase p }.markInjected c.seq
        (s.setNi n x).present n p
      else s.setNi n x

/-! ## The table port and the swap -/

/-- R236: ORDCLR ends the refusal. -/
def State.ordClr (s : State) (n : Nat) : State := s.setNi n { s.ni n with broken := [] }
def execOrdclr (n : NodeNo) (s : State) : Ans := .next (s.ordClr n)

/-- Table 10-20: the table, the key and whether the selected word exists. -/
def State.tableSel (s : State) (n : Nat) : Nat × Nat × Bool :=
  let i := s.get (F.NI_TSEL_INDEX n)
  let w := s.get (F.NI_TSEL_WORD n)
  match s.get (F.NI_TSEL_TABLE n) with
  | 0 => (0, 4 * i + w, decide (i < 64))
  | 1 => (1, 2 * i + w, decide (w < 2))
  | 2 => (2, i, decide (i < 120 ∧ w = 0))
  | _ => (3, 0, false)

/-- Word `key` of a table. -/
def NiTables.read (t : NiTables) (table key : Nat) : Word :=
  match table with
  | 0 => SMap.get t.win 0 key | 1 => SMap.get t.route 0 key | 2 => SMap.get t.slot 0 key | _ => 0
def NiTables.write (t : NiTables) (table key : Nat) (v : Word) : NiTables :=
  match table with
  | 0 => { t with win := SMap.set t.win 0 key v }
  | 1 => { t with route := SMap.set t.route 0 key v }
  | 2 => { t with slot := SMap.set t.slot 0 key v }
  | _ => t

/-- R227: a word of the inactive bank is written. -/
def State.bankWrite (s : State) (n table key : Nat) (v : Word) : State :=
  let x := s.ni n
  s.setNi n { x with inactive := x.inactive.write table key v, written := true }
def State.tdataWrite (s : State) (n : Nat) (v : Word) : State :=
  let t := s.tableSel n
  if t.2.2 && s.domainOn 2 then s.bankWrite n t.1 t.2.1 v else s
def execTdataWrite (n : NodeNo) (data : Word) (s : State) : Ans := .next (s.tdataWrite n data)
/-- What the table port reads. -/
def State.tdataRead (s : State) (n : Nat) : Word :=
  let t := s.tableSel n
  let x := s.ni n
  if t.2.2 then (if s.is (F.NI_TSEL_BANK n) then x.active else x.inactive).read t.1 t.2.1 else 0

/-- R228: the windows pass: an ILV window, enabled or not, has its eight entries. -/
def NiTables.windowsOk (t : NiTables) : Bool :=
  (List.range 64).all fun i =>
    let w3 := t.window i 3
    let r := w3 % 256
    decide (w3 < 4096) && (!bitOf 8 w3 || decide (t.window i 0 ≤ t.window i 1)) &&
    (!bitOf 9 w3 ||
      (decide (r + 7 < 256) && (List.range 8).all fun k => bitOf 37 (t.routeWord (r + k) 0)))
/-- R228: a route is legal and ends at a router. -/
def routeOk (n dest r : Nat) : Bool :=
  let b := BitVec.ofNat 30 r
  legalRoute b && routeEnd n b == dest
def NiTables.routesOk (t : NiTables) (n : Nat) : Bool :=
  (List.range 256).all fun i =>
    let w0 := t.routeWord i 0
    let w1 := t.routeWord i 1
    let pri := w0 % 2 ^ 30
    let dest := bitsOf 30 7 w0
    decide (w0 < 2 ^ 40) && decide (w1 < 2 ^ 30) &&
    (!bitOf 37 w0 ||
      ((if bitOf 39 w0 then
         decide (pri < 16384) && decide (pri % 16 ≤ 6) && decide (pri / 16 % 16 ≤ 5) && decide (pri / 256 % 8 ≤ 4) &&
          decide (pri / 2048 % 8 ≤ 3)
        else routeOk n dest pri) && (!bitOf 38 w0 || routeOk n dest (w1 % 2 ^ 30))))
def NiTables.slotsOk (t : NiTables) (n : Nat) : Bool :=
  (List.range 120).all fun i =>
    let w := t.slotWord i
    let idx := w / 4 % 256
    let e := t.routeWord idx 0
    decide (w < 1024) &&
    (!bitOf 0 w || (!isRegulated n &&
      (if bitOf 1 w then decide (idx < 96) else bitOf 37 e && !bitOf 39 e && bitsOf 30 7 e != n)))

/-- R228: the NI's commit point after its inactive bank was written: the check, and the swap of all three tables. -/
def State.niSwap (s : State) (n : Nat) : State :=
  let x := s.ni n
  if !x.written then s
  else
    let w := x.inactive.windowsOk
    let r := x.inactive.routesOk n
    let l := x.inactive.slotsOk n
    let s := s.setNi n { x with written := false }
    if w && r && l then
      (s.setNi n { s.ni n with active := x.inactive, broken := [] }).setReg (R.NI_TBL n) 0
    else
      let bad := 8 * bit (!w) + 16 * bit (!r) + 32 * bit (!l)
      (((s.setReg (R.NI_TBL n) bad).niError n (F.NI_STAT_TBLERR n)).logEntry 0x0B0 n (16 + (F.NI_STAT_TBLERR n).lo) 0)

end Sys2Proof.Machine
end

