-- ==== Sys2Proof/Machine/Link.lean ====
section
/-! DEFINITION. Stagelink ports below their commands (R303, R304, R310, R316 to R322): states, training, replay, flow
control, the carriage transport of Table 13-6, and going DOWN. -/
namespace Sys2Proof.Machine

def State.portSt (s : State) (p : Nat) : PortSt := SMap.get s.ports PortSt.zero p
def State.setPort (s : State) (p : Nat) (x : PortSt) : State := { s with ports := SMap.set s.ports PortSt.zero p x }
def State.laneSt (s : State) (l : Nat) : LaneSt := SMap.get s.lanes LaneSt.zero l
def State.setLane (s : State) (l : Nat) (x : LaneSt) : State := { s with lanes := SMap.set s.lanes LaneSt.zero l x }

/-! ## Places -/

/-- Table 13-1: the first lane of a port, and the port whose range of eight lanes holds a lane. -/
def portLane (p : Nat) : Nat := match p with | 0 => 16 | 1 => 24 | 2 => 32 | 3 => 40 | 4 => 48 | _ => 56
def lanePort (l : Nat) : Nat := (l - 16) / 8
/-- Table 13-1: the power domain of a lane; R303: that of a port. -/
def laneDomain (l : Nat) : Nat := if l < 16 then 3 else 36 + (l - 16) / 12
def portDomain (p : Nat) : Nat := laneDomain (portLane p)
/-- The raw group of a lane. -/
def rawGroup (l : Nat) : Nat := (l - 16) / 12
/-- The use of a lane (Table 13-10): 5 to 7 act as 0, lanes 0 to 15 are PCIE. -/
def State.laneUse (s : State) (l : Nat) : Nat :=
  if l < 16 then 1 else let u := s.get (F.LANE_CFG_USE l); if 4 < u then 0 else u
/-- The NI of a lane's use (Table 13-8). -/
def State.laneNi (s : State) (l : Nat) : Nat :=
  if l < 16 then 80 else if s.laneUse l = 2 then 82 + lanePort l else 88 + rawGroup l

/-- The width a port trains at or runs at: 8, or 4 lanes. -/
def State.portWidth (s : State) (p : Nat) : Nat :=
  if s.is (F.STG_CTL_WIDTH p) || (s.portSt p).fellBack then 4 else 8
/-- R303: the lanes a port uses. -/
def State.portLanes (s : State) (p : Nat) : List Nat := (List.range (s.portWidth p)).map (· + portLane p)
/-- R303: every domain holding one of its used lanes is on. -/
def State.portPowered (s : State) (p : Nat) : Bool := (s.portLanes p).all fun l => s.domainOn (laneDomain l)
/-- Table 13-3: the conditions that keep ports DOWN. -/
def ModeSt.linksDown (m : ModeSt) : Bool := m.ov.safeHold || m.ov.freeze || m.ov.valley

/-! ## States of a port (Table 13-18) -/

/-- R310: ceiling of 1,024 UI in nanoseconds, by RATE code. -/
def burstNs (rate : Nat) : Nat := match rate with | 1 => 100 | 2 => 64 | 3 => 40 | 4 => 37 | 5 => 32 | _ => 128
/-- R310: the wake burst of an EXITING port has ended. -/
def State.burstOver (s : State) (p : Nat) : Bool :=
  match (s.portSt p).exitFrom with
  | some t => decide (burstNs (s.get (F.STG_CTL_RATE p)) ≤ (s.time.raw + 2 ^ 48 - t) % 2 ^ 48)
  | none => false
/-- STAT.STATE as it stands: 0 DOWN, 1 TRAINING, 2 UP, 3 IDLE, 4 EXITING. -/
def State.portState13 (s : State) (p : Nat) : Nat :=
  let v := s.get (F.STG_STAT_STATE p)
  if v = 4 ∧ s.burstOver p then 2 else v
/-- The port carries traffic: UP, or UP beneath electrical idle of its transmitter. -/
def State.portCarries (s : State) (p : Nat) : Bool := decide (2 ≤ s.portState13 p)
def State.portUp (s : State) (p : Nat) : Bool := s.portState13 p == 2

/-- A block goes on the link; while the transmitter is in electrical idle, or leaves it, the block waits (R310). -/
def State.linkSend (s : State) (p : Nat) (b : LinkBlock) : State :=
  if 3 ≤ s.portState13 p then s.setPort p { s.portSt p with later := (s.portSt p).later ++ [b] }
  else { s with linkOut := s.linkOut ++ [(p, b)] }
/-- R316: the 960-bit carriage string: H0 to H3, then the 16 payload words, word 0 lowest. -/
def Carriage.line (c : Carriage) : Nat :=
  c.h0 + 2 ^ 48 * c.addr.toNat + 2 ^ 96 * c.h2 + 2 ^ 144 * c.h3 +
    2 ^ 192 * (List.range 16).foldr (fun i v => (c.word i).toNat + 2 ^ 48 * v) 0
/-- R316: the CRC-24 of a carriage and its LSEQ in wire order, bit 0 of each first. -/
def linkCrc (c : Carriage) (lseq : BitVec 16) : BitVec 24 :=
  let v := c.line + 2 ^ 960 * lseq.toNat
  BitVec.ofNat 24 ((List.range 976).foldl (fun r i =>
    let t := 2 * r % 2 ^ 24
    if r.testBit 23 != v.testBit i then t ^^^ 0x864CFB else t) 0xFFFFFF)

/-! ## Sending (R319, R320) -/

/-- ACK as sent: the LSEQ of the last carriage received in order. -/
def PortSt.ack (x : PortSt) : BitVec 16 := x.rxSeq - 1
/-- XOFF holds for the class of a carriage. -/
def PortSt.stopped (x : PortSt) (c : Carriage) : Bool := if c.rsp then x.stopRsp else x.stopReq
/-- LSEQ a lies at or before b in serial order (R200). -/
def lseqLe (a b : BitVec 16) : Bool := decide ((b - a).toNat ≤ 32767)

/-- R319: the first waiting carriage of a class that may go is sent, if the replay buffer has a free entry. -/
def State.sendOne (s : State) (p : Nat) : State :=
  let x := s.portSt p
  match x.txq.find? fun c => !x.stopped c with
  | none => s
  | some c =>
    if 64 ≤ x.replay.length ∨ ¬ s.portUp p then s
    else
      (s.setPort p { x with txq := x.txq.erase c, txSeq := x.txSeq + 1, replay := x.replay ++ [⟨x.txSeq, c, 0⟩] }).linkSend p
        (.car c (linkCrc c x.txSeq) x.txSeq x.ack)
def State.sendAll (s : State) (p : Nat) : State := (List.range 64).foldl (fun s _ => s.sendOne p) s
/-- R310: a port whose wake burst is over sends IDLE, then what waited, and goes on. -/
def State.resumePort (s : State) (p : Nat) : State :=
  let x := s.portSt p
  if s.get (F.STG_STAT_STATE p) = 4 ∧ s.burstOver p then
    let s := (s.setPort p { x with exitFrom := none, later := [] }).put (F.STG_STAT_STATE p) 2
    { s with linkOut := s.linkOut ++ (LinkBlock.idle x.txSeq x.ack :: x.later).map fun b => (p, b) }.sendAll p
  else s
/-- Carriages join those that wait to be sent. -/
def State.linkQueue (s : State) (p : Nat) (cs : List Carriage) : State :=
  let s := s.resumePort p
  let x := s.portSt p
  (s.setPort p { x with txq := x.txq ++ cs }).sendAll p

/-- R319: an ACK frees the carriage it names and every earlier one, and more are sent. -/
def State.linkAck (s : State) (p : Nat) (ack : BitVec 16) : State :=
  let x := s.portSt p
  (s.setPort p { x with replay := x.replay.filter fun u => !lseqLe u.lseq ack }).sendAll p

/-! ## Going DOWN (R322) -/

/-- FWD.OPEN follows the open entries. -/
def State.setFwd (s : State) (p : Nat) (l : List (Nat × List Carriage)) : State :=
  (s.setPort p { s.portSt p with fwd := l }).put (F.STG_FWD_OPEN p) l.length

/-- R322: the port goes DOWN with a FAIL code: buffers are discarded, open entries answered TIMEOUT, the event posted
and the log entry written. -/
def State.portDown (s : State) (p fail : Nat) : State :=
  if s.portState13 p = 0 then s
  else
    let x := s.portSt p
    let n := x.txq.length + x.replay.length + x.rx.length
    let s := if n = 0 then s else (s.bump (F.STG_CNT2_DISC p) n).raise (F.STG_ERR_DISCARD p)
    let s := s.setPort p PortSt.zero
    let s := x.fwd.foldl (fun s e => s.replyFail (82 + p) e.2 stTimeout) s
    let s := s.put (F.STG_FWD_OPEN p) 0
    let s := (s.put (F.STG_STAT_STATE p) 0).put (F.STG_STAT_FAIL p) fail
    let s := s.bump (F.STG_CNT2_DOWNS p) 1
    s.postLog 0x0D2 (82 + p) fail

/-- R318: training fails with a cause. -/
def State.trainFail (s : State) (p fail : Nat) : State := (s.raise (F.STG_ERR_TRAINFAIL p)).portDown p fail

/-- R320: DOWN with REPLAY. -/
def State.replayDown (s : State) (p : Nat) : State := (s.raise (F.STG_ERR_REPLAYLIM p)).portDown p 5

/-- REPLAYMAX; 0 acts as 1. -/
def State.replayMax (s : State) (p : Nat) : Nat := max 1 (s.get (F.STG_CTL_REPLAYMAX p))

/-- R320: the carriages from LSEQ `q` on are sent again; a carriage already replayed REPLAYMAX times takes the port
DOWN. -/
def State.replayFrom (s : State) (p : Nat) (q : BitVec 16) : State :=
  let x := s.portSt p
  let sentAgain := x.replay.filter fun u => lseqLe q u.lseq
  if sentAgain.isEmpty then s
  else if sentAgain.any (fun u => decide (s.replayMax p ≤ u.replays)) then s.replayDown p
  else
    let s := s.bump (F.STG_CNT_REPLAY p) 1
    let count (u : Unacked) : Unacked := if lseqLe q u.lseq then { u with replays := u.replays + 1 } else u
    let s := s.setPort p { x with replay := x.replay.map count }
    sentAgain.foldl (fun s u => s.linkSend p (.car u.c (linkCrc u.c u.lseq) u.lseq x.ack)) s

/-- R320: a NAK for the LSEQ expected. -/
def State.sendNak (s : State) (p : Nat) : State :=
  let x := s.portSt p
  ((s.setPort p { x with nakOut := true }).bump (F.STG_CNT2_NAKTX p) 1).linkSend p (.nak x.rxSeq x.ack)

/-! ## Training (R318) -/

/-- R318: training starts: every used lane must be a lane of the port, and powered. -/
def State.startTraining (s : State) (p : Nat) : State :=
  let x := s.portSt p
  let s := s.setPort p { PortSt.zero with fellBack := x.fellBack }
  let s := (s.setReg (R.STG_STAT p) 0).put (F.STG_STAT_STATE p) 1
  let s := s.put (F.STG_STAT_WIDTHNOW p) (bit (s.portWidth p == 4))
  if s.mode.linksDown || !s.portPowered p then s.trainFail p 7
  else if !(s.portLanes p).all (fun l => s.laneUse l == 2) then s.trainFail p 2
  else
    let s := s.forEach (s.portLanes p) fun s l =>
      (s.put (F.LANE_CTLE_STEP l) (s.get (F.LANE_CTLE_INIT l))).put (F.LANE_STAT_EIDLE l) 0
    s.linkSend p (.train false)

/-- R318: a width-8 port that failed only on lanes 4 to 7 retrains once at width 4. -/
def State.failOrFallBack (s : State) (p fail : Nat) (onlyHigh : Bool) : State :=
  if onlyHigh && s.is (F.STG_CTL_FALLBACK p) && s.portWidth p == 8 then
    let s := s.trainFail p fail
    (s.setPort p { s.portSt p with fellBack := true }).startTraining p
  else s.trainFail p fail

/-- R318 step 5: the port is UP. -/
def State.portIsUp (s : State) (p : Nat) : State :=
  ((s.setPort p { PortSt.zero with fellBack := (s.portSt p).fellBack }).put (F.STG_STAT_STATE p) 2).post 0x0D1 (82 + p)
    (s.portWidth p)

/-- R308: a receiver has locked: LAT takes the latencies, which the silicon measures. -/
def State.noteLat (s : State) (l : Nat) : State :=
  let a := s.freeNat
  a.2.setReg (R.LANE_LAT l) (a.1 % 2 ^ 32)
/-- R318: the receive order of the port is reversed; POLMAP names logical lanes. -/
def State.reverse (s : State) (p : Nat) : State :=
  let w := s.portWidth p
  let m := s.get (F.STG_STAT_POLMAP p)
  (s.raise (F.STG_STAT_REVERSED p)).put (F.STG_STAT_POLMAP p)
    ((List.range w).foldl (fun v k => v + 2 ^ (w - 1 - k) * bit (bitOf k m)) 0)
/-- R318 steps 4 and 5: what the lane indices received so far decide. -/
def State.trainCheck (s : State) (p : Nat) : State :=
  let x := s.portSt p
  let w := s.portWidth p
  if x.seen.length < w then s
  else
    let normal (e : Nat × Nat) : Bool := e.1 == e.2
    if x.seen.all normal then s
    else if x.seen.all (fun e => e.2 + e.1 + 1 == w) then (if s.is (F.STG_STAT_REVERSED p) then s else s.reverse p)
    else s.failOrFallBack p 3 ((x.seen.filter fun e => decide (e.1 < 4)).all normal)
def State.trainReady (s : State) (p : Nat) : State :=
  let x := s.portSt p
  let w := s.portWidth p
  if s.portState13 p = 1 ∧ x.seen.length = w ∧ x.marked.length = w ∧ x.ready.length = w then s.portIsUp p else s

/-- R318: a TRAIN block received at lane position `k`. -/
def State.trainBlock (s : State) (p k idx : Nat) (width4 ready : Bool) (dev : Nat) (inverted : Bool) : State :=
  let st := s.portState13 p
  if 2 ≤ st then s.portDown p 6
  else if st = 0 ∨ s.portWidth p ≤ k then s
  else
    let l := portLane p + k
    let s := if s.is (F.LANE_STAT_CDRLOCK l) then s else s.noteLat l
    let s := (s.raise (F.LANE_STAT_CDRLOCK l)).raise (F.LANE_STAT_BLKLOCK l)
    let s := (s.put (F.LANE_STAT_POLINV l) (bit inverted)).put (F.STG_STAT_PEERDEV p) dev
    let j := if s.is (F.STG_STAT_REVERSED p) then s.portWidth p - 1 - k else k
    let s := s.put ⟨R.STG_STAT p, 12 + j, 1⟩ (bit inverted)
    let s := if dev = s.devid.toNat ∧ ¬ s.is (F.STG_STAT_DUPDEV p) then
        (s.raise (F.STG_STAT_DUPDEV p)).logOpen (82 + p) dev
      else s
    if width4 != (s.portWidth p == 4) then s.failOrFallBack p 2 (decide (4 ≤ k))
    else
      let x := s.portSt p
      let x := { x with seen := x.seen.filter (fun e => e.1 != k) ++ [(k, idx)] }
      let x := if ready && !x.ready.contains k then { x with ready := x.ready ++ [k] } else x
      ((s.setPort p x).trainCheck p).trainReady p

/-! ## Receiving (R319 to R321) -/

/-- Free space of the receive buffer of a class. -/
def PortSt.rxRoom (x : PortSt) (rsp : Bool) : Nat := 128 - (x.rx.filter fun c => c.rsp == rsp).length
/-- R319: XOFF when the free space of a class falls below 64, XON when it reaches 96. -/
def State.flowControl (s : State) (p : Nat) (rsp : Bool) : State :=
  let x := s.portSt p
  let sent := if rsp then x.sentRsp else x.sentReq
  let set (b : Bool) : PortSt := if rsp then { x with sentRsp := b } else { x with sentReq := b }
  if !sent && decide (x.rxRoom rsp < 64) then (s.setPort p (set true)).linkSend p (.xoff rsp)
  else if sent && decide (96 ≤ x.rxRoom rsp) then (s.setPort p (set false)).linkSend p (.xon rsp)
  else s

/-- The first packet of a class in the receive buffer, if its last carriage is there. -/
def PortSt.firstPacket (x : PortSt) (rsp : Bool) : Option (List Carriage) :=
  let l := x.rx.filter fun c => c.rsp == rsp
  match l with
  | [] => none
  | c :: _ =>
    let p := l.takeWhile fun d => d.src == c.src && d.seq == c.seq && d.typ == c.typ
    let k := if c.isLast then 1 else c.len + 1
    if k ≤ p.length then some (p.take k) else none

/-- R321, near port: a response matches its forwarding entry, takes back what was kept, and its entry is freed. -/
def State.linkResponse (s : State) (p : Nat) (pkt : List Carriage) : State :=
  let n := 82 + p
  let e := (pkt.headD Carriage.zero).seq.toNat
  match ((s.portSt p).fwd.find? fun f => f.1 == e).map (·.2) with
  | none => pkt.foldl (fun s c => s.orphan n c) s
  | some req =>
    let c := req.headD Carriage.zero
    let back := pkt.map fun r =>
      { replyTo c r.typ r.status r.mask r.payload with len := r.len, cidx := r.cidx, otype := r.otype }
    (s.setFwd p ((s.portSt p).fwd.filter fun f => f.1 != e)).reply n c back

/-- R321, far port: a request is injected under the port's own windows and routes. -/
def State.linkRequest (s : State) (p : Nat) (pkt : List Carriage) : State :=
  let n := 82 + p
  let c := pkt.headD Carriage.zero
  let q : Request :=
    { typ := c.typ, len := c.len, addr := c.addr, utag := c.utag, mask := c.mask, guar := c.guar, fence := c.fence,
      ord := c.ord, ctx := s.get (F.NI_CTL_CTX n), dev := c.dev,
      words := pkt.flatMap fun d => (List.range 16).map fun i => (16 * d.cidx + i, d.word i) }
  let own := (s.ni n).seq
  let t := (s.setNi n { s.ni n with seq := c.seq }).niTake n q (.forward p c.seq.toNat)
  let x := t.state.ni n
  let keepSrc (y : InjPkt) : InjPkt :=
    if expectsResponse c.typ then y else { y with pkt := y.pkt.map fun d => { d with src := c.src } }
  let l := x.inj.length
  let inj := (s.ni n).inj.length
  let x := { x with seq := own, inj := if inj < l then (x.inj.take inj) ++ (x.inj.drop inj).map keepSrc else x.inj }
  let s := t.state.setNi n x
  let s := match t.answer with
    | none => s
    | some a =>
      let k := if c.typ == tRdLine then c.len + 1 else 1
      s.linkQueue p ((List.range k).map fun i =>
        { replyTo c a.typ a.status c.mask (List.replicate 16 0) with
          src := c.src, cidx := i, len := if c.typ == tRdLine then c.len else 0 })
  s.pump n

/-- R321: one packet of a class leaves the receive buffer, if the NI takes it. -/
def State.deliverOne (s : State) (p : Nat) (rsp : Bool) : State :=
  let x := s.portSt p
  match x.firstPacket rsp with
  | none => s
  | some pkt =>
    let c := pkt.headD Carriage.zero
    if !rsp && !s.txReady (82 + p) c.typ c.len then s
    else
      let s := s.setPort p { x with rx := pkt.foldl (fun l d => l.erase d) x.rx }
      let s := if rsp then s.linkResponse p pkt else s.linkRequest p pkt
      s.flowControl p rsp
/-- The receive buffer is emptied as far as NI 82 + p takes what it holds. -/
def State.drainPort (s : State) (p : Nat) : State :=
  (List.range 128).foldl (fun s _ => (s.deliverOne p true).deliverOne p false) s

/-- R319, R320: a CAR block completes a carriage, with the CRC it carries. -/
def State.carBlock (s : State) (p : Nat) (c : Carriage) (crc : BitVec 24) (lseq ack : BitVec 16) : State :=
  if !s.portCarries p then s
  else
    let s := s.linkAck p ack
    let x := s.portSt p
    if crc ≠ linkCrc c lseq then
      let s := (s.raise (F.STG_ERR_CRC p)).bump (F.STG_CNT_CRCERR p) 1
      if x.nakOut then s else s.sendNak p
    else if lseq = x.rxSeq then
      let x := { x with rxSeq := x.rxSeq + 1, nakOut := false, rx := x.rx ++ [c] }
      let s := ((s.setPort p x).linkSend p (.idle x.txSeq x.ack)).flowControl p c.rsp
      s.drainPort p
    else if lseqLe lseq (x.rxSeq - 1) then s
    else if x.nakOut then s else s.sendNak p

/-! ## Requests that enter a port (Table 13-6, near port) -/

/-- The lowest free forwarding entry. -/
def PortSt.freeEntry (x : PortSt) : Option Nat := (List.range 256).find? fun e => !(x.fwd.any fun f => f.1 == e)

/-- R321, R322: a request packet that reached NI 82 + p is forwarded, or returned. -/
def State.linkForward (s : State) (p : Nat) (pkt : List Carriage) : State :=
  let n := 82 + p
  let c := pkt.headD Carriage.zero
  if !s.portCarries p then s.bounceBack n pkt stRouteClosed
  else if !expectsResponse c.typ then s.linkQueue p pkt
  else
    match (s.portSt p).freeEntry with
    | none => s.bounceBack n pkt stTimeout
    | some e =>
      let s := s.setFwd p ((s.portSt p).fwd ++ [(e, pkt)])
      s.linkQueue p (pkt.map fun d => { d with src := n, seq := BitVec.ofNat 16 e })

/-- R321, R322, far port: a response returning to NI 82 + p crosses the link with its SEQ; DOWN, it is an orphan. -/
def State.linkReturn (s : State) (p : Nat) (pkt : List Carriage) : State :=
  if s.portCarries p then s.linkQueue p pkt else pkt.foldl (fun s c => s.orphan (82 + p) c) s

/-! ## Lanes -/

/-- R310: a lane's transmitter enters electrical idle, or leaves it. -/
def State.laneIdle (s : State) (l : Nat) (b : Bool) : State := s.put (F.LANE_STAT_EIDLE l) (bit b)

/-- Table 13-3: every port goes DOWN for the mode or domain. -/
def State.portsDown (s : State) (ps : List Nat) : State := s.forEach ps fun s p => s.portDown p 7
/-- Table 13-3, FREEZE: ports go DOWN, and the lanes of those enabled send TRAIN with READY 0. -/
def State.linksFrozen (s : State) : State :=
  (s.portsDown (List.range 6)).forEach (List.range 6) fun s p => if s.is (F.STG_CTL_EN p) then s.linkSend p (.train false) else s
/-- R303, Table 13-3: a LNG domain goes off: the ports that use lanes of it go DOWN. -/
def State.portsOff (s : State) (d : Nat) : State :=
  s.portsDown ((List.range 6).filter fun p => (s.portLanes p).any fun l => laneDomain l == d)
/-- Table 13-3, SAFE-HOLD: lanes 16 to 63 in electrical idle, ports DOWN. -/
def State.linksSafe (s : State) : State :=
  s.portsDown (List.range 6) |>.forEach ((List.range 48).map (· + 16)) fun s l => s.laneIdle l true

/-- R310: an EIDLE bit of a port is written. -/
def State.portEidle (s : State) (p : Nat) (b : Bool) : State :=
  let s := s.resumePort p
  let s := s.put (F.STG_CTL_EIDLE p) (bit b)
  let st := s.portState13 p
  if b && (st == 2 || st == 4) then
    let s := s.setPort p { s.portSt p with exitFrom := none }
    (s.put (F.STG_STAT_STATE p) 3).forEach (s.portLanes p) fun s l => s.laneIdle l true
  else if !b && st == 3 then
    let s := s.setPort p { s.portSt p with exitFrom := some s.time.raw }
    let s := (s.put (F.STG_STAT_STATE p) 4).forEach (s.portLanes p) fun s l => s.laneIdle l false
    { s with linkOut := s.linkOut ++ [(p, .wake)] }
  else if st ≤ 1 then
    let was := (s.portLanes p).any fun l => s.is (F.LANE_STAT_EIDLE l)
    let s := s.forEach (s.portLanes p) fun s l => s.laneIdle l b
    if was && !b then s.linkSend p .wake else s
  else s

/-- R303: a lane is a raw lane. -/
def State.isRaw (s : State) (l : Nat) : Bool := decide (16 ≤ l) && (s.laneUse l == 3 || s.laneUse l == 4)
/-- Table 13-3: SAFE-HOLD ends: lanes leave electrical idle but where an EIDLE bit keeps them there; a raw lane sends the wake
burst (R310). -/
def State.linksRelease (s : State) : State :=
  s.forEach ((List.range 48).map (· + 16)) fun s l =>
    let keep := if s.isRaw l then s.is (F.LANE_CTL_EIDLE l) else s.laneUse l == 2 && s.is (F.STG_CTL_EIDLE (lanePort l))
    if !s.is (F.LANE_STAT_EIDLE l) || keep then s
    else
      let s := s.laneIdle l false
      if s.isRaw l then { s with laneOut := s.laneOut ++ [(l, .wake)] } else s
/-- A raw lane's transmitter or receiver works: EN, its domain, and no mode of Table 13-3 against it. -/
def State.rawOn (s : State) (l : Nat) : Bool :=
  s.isRaw l && s.is (F.LANE_CTL_EN l) && s.domainOn (laneDomain l)
def State.rawReceives (s : State) (l : Nat) : Bool :=
  s.rawOn l && !s.mode.linksDown && s.is (F.LANE_STAT_CDRLOCK l) && (s.laneUse l != 4 || s.is (F.LANE_STAT_BLKLOCK l))

/-- R309: the pattern generator or checker of a lane acts. -/
def State.prbsActs (s : State) (l : Nat) : Bool :=
  decide (16 ≤ l) && s.domainOn (laneDomain l) && (s.laneUse l != 2 || !s.is (F.STG_CTL_EN (lanePort l)))

/-- R311, R313, R309: a transmit carriage for a raw lane, and the STATUS of its WR_ACK. -/
def State.rawAccept (s : State) (l : Nat) (ws : List Word) : State × Nat :=
  let x := s.laneSt l
  let drop (s : State) : State := s.bump (F.LANE_RAWCNT_TXDROP l) 1
  let n := (ws.getD 15 0).toNat % 16
  if 8 ≤ x.tx.length then (drop s, stTimeout)
  else if s.is (F.LANE_PRBS_GEN l) then (drop s, stOk)
  else if s.laneUse l = 4 ∧ (n = 0 ∨ 10 < n) then (drop s, stOk)
  else (s.setLane l { x with tx := x.tx ++ [ws] }, stOk)

/-- R312: one received carriage is handed to NI 88 + g, if it takes it. -/
def State.rawDeliverOne (s : State) (l : Nat) : State :=
  let x := s.laneSt l
  let n := 88 + rawGroup l
  match x.rx with
  | [] => s
  | ws :: rest =>
    if !s.txReady n tWrLine 0 then s
    else
      let r := min 20 (s.get (F.LANE_RXCTL_RINGL l))
      let base := s.pair (R.LANE_RXADDR_LO l) (R.LANE_RXADDR_HI l) / 16 * 16
      let k := x.received
      let q : Request :=
        { typ := tWrLine, len := 0, addr := BitVec.ofNat 48 (if r = 0 then base else base + 16 * (k % 2 ^ r)),
          utag := 0, mask := 0xFFFF, guar := s.is (F.LANE_RXCTL_GUAR l), fence := false, ord := false,
          ctx := s.get (F.NI_CTL_CTX n), dev := s.devid.toNat,
          words := (List.range 16).map fun i => (i, ws.getD i 0) }
      let t := (s.setLane l { x with rx := rest, received := k + 1 }).niTake n q (.engine n l)
      let s := match t.answer with
        | some a => if statusOk a.status then t.state else t.state.bump (F.LANE_RAWCNT_RXWERR l) 1
        | none => t.state
      s.pump n
where
  statusOk (st : Nat) : Bool := st == stOk || st == stCorrected
def State.rawDeliver (s : State) (l : Nat) : State := (List.range 8).foldl (fun s _ => s.rawDeliverOne l) s
/-- Every lane of a raw group hands over what it holds. -/
def State.groupDeliver (s : State) (g : Nat) : State :=
  s.forEach ((List.range 12).map fun i => 16 + 12 * g + i) State.rawDeliver

/-- R312: a carriage arrives on a raw lane. -/
def State.rawArrive (s : State) (l : Nat) (ws : List Word) : State :=
  let x := s.laneSt l
  if 8 ≤ x.rx.length then
    let s := if s.get (F.LANE_RAWCNT_RXOVF l) = 0 then s.post 0x0D3 (88 + rawGroup l) l else s
    s.bump (F.LANE_RAWCNT_RXOVF l) 1
  else (s.setLane l { x with rx := x.rx ++ [ws] }).rawDeliver l

/-- A raw lane's receiver loses lock, or its EN falls. -/
def State.laneUnlock (s : State) (l : Nat) : State :=
  ((s.clear (F.LANE_STAT_CDRLOCK l)).clear (F.LANE_STAT_BLKLOCK l)).clear (F.LANE_PRBS_SYNC l)

/-- An LNG domain is off: its lanes and ports return to reset; CTL.EN reads 0 after power returns (Table 13-3). -/
def State.lanesOff (s : State) (d : Nat) : State :=
  let ls := ((List.range 48).map (· + 16)).filter fun l => laneDomain l == d
  s.forEach ls fun s l => s.setLane l LaneSt.zero

end Sys2Proof.Machine
end

