-- ==== Sys2Proof/Machine/TimeOps.lean ====
section
/-! DEFINITION. The time base below its commands: RAW and corrected time (R243 to R247), phase measurements and LOCKING
(R249 to R255), and the placing of the tick grid (R256, R257). -/
namespace Sys2Proof.Machine

/-- Nanoseconds, as a count of time units (R6). -/
def nsUnits (n : Nat) : Nat := 65536 * n
/-- A beat is 80 ns. -/
def beatUnits : Nat := 65536 * 80

/-! ## RAW and corrected time -/

/-- Δ of R244. -/
def State.timeDelta (s : State) : Nat := (s.time.raw + 2 ^ 48 - s.time.anchor) % 2 ^ 48
/-- R244, R245: ANCHOR := RAW and OFFSET := C. -/
def State.rebase (s : State) : State := { s with time := { s.time with anchor := s.time.raw, offset := s.correctedNat } }

/-- R247: a wrap of the nanosecond count that no step caused. -/
def State.wrapOnce (s : State) : State :=
  let x := (s.time.nowx + 1) % 2 ^ 32
  let s := { s with time := { s.time with nowx := x } }
  if s.is F.TIME_CTL_WRAPEV then s.postAt 0 0x010 93 (x % 256) else s

/-- R243, R244, R247: `n` RAW counts pass, at most 2⁴⁷; where Δ reaches 2⁴⁷ on the way, ANCHOR and OFFSET are set there. -/
def State.advance (s : State) (n : Nat) : State :=
  if !s.time.running then s
  else
    let d := s.timeDelta
    let at' (k : Nat) : Nat := s.time.offset + s.incr * k / 2 ^ 24
    let t := { s.time with
      raw := (s.time.raw + n) % 2 ^ 48, unhalted := s.time.unhalted + (if s.mode.ov.halt then 0 else n) }
    let c := at' (2 ^ 47) + s.incr * (d + n - 2 ^ 47) / 2 ^ 24
    let e : TimeSt × Nat := if 2 ^ 47 ≤ d + n
      then ({ t with anchor := (s.time.anchor + 2 ^ 47) % 2 ^ 48, offset := at' (2 ^ 47) % 2 ^ 48 }, c) else (t, at' (d + n))
    (List.range (e.2 / 2 ^ 48 - at' d / 2 ^ 48)).foldl (fun s _ => s.wrapOnce) { s with time := e.1 }
/-- RAW reaches a count; it stays where it is if it has passed it. -/
def State.advanceTo (s : State) (r : Nat) : State :=
  let n := (r + 2 ^ 48 - s.time.raw) % 2 ^ 48
  if n ≤ 2 ^ 47 then s.advance n else s

/-- R246, R247: OFFSET changes by a signed number of time units; NOWX follows a wrap crossed. -/
def State.stepTime (s : State) (v : Int) : State :=
  let c : Int := (s.correctedNat : Int) + v
  let n : Int := (s.time.nowx : Int) + c / (2 ^ 48 : Int)
  { s with time := { s.time with offset := wrap 48 ((s.time.offset : Int) + v), nowx := wrap 32 n } }

/-- Table 11-2: 0 SYNC, 1 LINK, 2 FREE; 3 acts as FREE. -/
def State.timeMode (s : State) : Nat := min 2 (s.get F.TIME_CTL_MODE)
/-- R277: the TIME block counts as enabled. -/
def ModeSt.timeEnabled (m : ModeSt) : Bool :=
  !(decide (m.top = .bare) || decide (m.top = .loading) || decide (m.top = .staged))

/-- R245: a write of INCR. -/
def State.incrWrite (s : State) (v : Nat) : State :=
  if s.timeMode < 2 then s.raise F.TIME_ERR_SYNCW
  else if 0x00FFBE76C8B4 ≤ v ∧ v ≤ 0x01004189374C then
    s.rebase.setPair R.TIME_INCR_LO R.TIME_INCR_HI v
  else s.raise F.TIME_ERR_INCRRANGE
/-- R245: in SYNC and LINK modes INCR is held at 1. -/
def State.holdIncr (s : State) : State :=
  if s.timeMode < 2 then s.rebase.setPair R.TIME_INCR_LO R.TIME_INCR_HI 0x010000000000 else s

/-- R246: a write of STEP. -/
def State.stepWrite (s : State) (v : Word) : State :=
  if s.timeMode = 2 ∨ ¬ s.mode.timeEnabled then
    (s.stepTime v.toInt).post 0x011 93 (bit v.msb)
  else s.raise F.TIME_ERR_SYNCW

/-! ## Placing the grid (R256) -/

/-- PERIOD acted on, in beats. -/
def State.period (s : State) : Nat := max 6 (s.get F.TIME_TICK_PERIOD_PERIOD)
/-- The first beat at or after a RAW count. -/
def beatUp (r : Nat) : Nat := (r + 79) / 80 * 80 % 2 ^ 48
/-- RAW counts until corrected time (R244) has advanced by at least `u` units. -/
def State.rawFor (s : State) (u : Nat) : Nat :=
  let d := s.timeDelta
  ((s.incr * d / 2 ^ 24 + u) * 2 ^ 24 + s.incr - 1) / s.incr - d
/-- The RAW count of the beat on which a tick at `u` units from now falls. In SYNC mode that instant is itself a beat (R256). -/
def State.tickBeat (s : State) (u : Nat) : Nat :=
  let r := s.time.raw + s.rawFor u
  if s.timeMode = 0 then r % 2 ^ 48 else beatUp r

/-- R257: free-running ticks begin at the first beat 2 µs or more ahead. -/
def State.startTicks (s : State) : State :=
  { s with time := { s.time with nextTick := some (beatUp (s.time.raw + 2000)) } }

/-- R251: LOCKING restarts at step 2. -/
def State.lockRestart (s : State) : State :=
  { s with time := { s.time with lock := .edges, good := 0, lastEdge := none } }

/-- R251 steps 5 and 6: the grid is placed, time is valid, and RUN begins at the next tick: a transition in progress (R26). -/
def State.lockDone (s : State) (rawTick number : Nat) : State :=
  let s := s.raise F.TIME_STATUS_VALID
  { s with
    time := { s.time with
      lock := .none
      good := 0
      placed := some (number % 2 ^ 48)
      nextTick := some rawTick },
    mode := { s.mode with runNext := true, busy := true } }

/-- R256. -/
def State.placeGrid (s : State) : State :=
  let k := s.pair R.TIME_TICK_GRIDK_LO R.TIME_TICK_GRIDK_HI
  if !s.is F.TIME_TICK_CTL_GRIDV then s.lockDone (beatUp (s.time.raw + 2000)) k
  else
    let g := BitVec.ofNat 48 (s.pair R.TIME_TICK_GRIDT_LO R.TIME_TICK_GRIDT_HI)
    let ref := BitVec.ofNat 48 (s.pair R.TIME_SYNCREF_LO R.TIME_SYNCREF_HI)
    let d := (g - s.now).toInt
    if d = -(2 ^ 47 : Int) then (s.raise F.TIME_ERR_GRIDOLD).lockRestart
    else if s.timeMode = 0 ∧ (g - ref).toInt % (beatUnits : Int) ≠ 0 then (s.raise F.TIME_ERR_GRIDMIS).lockRestart
    else
      let t : Int := (s.period * beatUnits : Nat)
      let n : Int := ((nsUnits 2000 : Nat) - d + t - 1) / t
      s.lockDone (s.tickBeat (d + n * t).toNat) (wrap 48 ((k : Int) + n))

/-- R184, R251: the phase is settled; the operating point must reach OPMIN before the grid is placed. -/
def State.lockSettled (s : State) : State :=
  if s.get F.PWR_OPSTAT_OPCUR < s.get F.CFG_OPMIN_DEV then { s with time := { s.time with lock := .raise } }
  else s.placeGrid

/-- The synthesizers of R251 step 1 are locked. -/
def State.synthsLocked (s : State) : Bool :=
  s.is F.CLK_STAT_TBLOCK && s.is F.CLK_STAT_FABLOCK && s.is F.CLK_STAT_SPNLOCK && s.is F.CLK_STAT_STWLOCK

/-- R251 step 1 is done: SYNC and LINK count measurements; FREE skips steps 2 to 4. -/
def State.lockBegin (s : State) : State :=
  if s.mode.top = .locking ∧ s.time.lock = .none ∧ s.mode.runNext = false then
    if !s.synthsLocked || !s.time.running then s
    else if s.timeMode = 2 then s.lockSettled
    else s.lockRestart
  else s
/-- R184: the raise that LOCKING waited for is done. -/
def State.lockRaised (s : State) : State :=
  if s.mode.top = .locking ∧ s.time.lock = .raise ∧ s.get F.CFG_OPMIN_DEV ≤ s.get F.PWR_OPSTAT_OPCUR then s.placeGrid
  else s

/-! ## Phase measurements -/

/-- |err| is below LOCKTHR picoseconds. -/
def State.withinLock (s : State) (err : Int) : Bool :=
  decide (err.natAbs * 1000 < s.get F.TIME_SERVO_LOCKTHR * 65536)
/-- |err| exceeds 2 ns. -/
def beyond2ns (err : Int) : Bool := decide (2 * 65536 < err.natAbs)

/-- TIME.PHERR and LOCKED take a measurement. -/
def State.notePhase (s : State) (err : Int) : State :=
  (s.put F.TIME_PHERR_ERR (wrap 32 err)).put F.TIME_STATUS_LOCKED (bit (s.withinLock err))

/-- R251 step 3: whole beats of `d` leave corrected time by a step; the remainder is a shift of phase. -/
def State.snapBy (s : State) (d : Int) : State :=
  let q : Int := d.tdiv (beatUnits : Int)
  let s := s.stepTime (-(q * (beatUnits : Int)))
  { s with time := { s.time with lock := .servo, good := 0 } }

/-- The count of consecutive measurements within the lock threshold. -/
def State.countGood (s : State) (err : Int) : State :=
  { s with time := { s.time with good := if s.withinLock err then s.time.good + 1 else 0 } }

/-- R252: an ignored measurement; the sixteenth in a row is a loss. -/
def State.outlier (s : State) : State :=
  let s := s.raise F.TIME_ERR_OUTLIER
  let n := s.time.outliers + 1
  let s := { s with time := { s.time with outliers := n } }
  if n = 16 ∧ s.is F.TIME_STATUS_VALID then
    ((s.clear F.TIME_STATUS_SYNCOK).raise F.TIME_ERR_SYNCLOST).post 0x012 93 1
  else s

/-- A measurement on the grid (R252). -/
def State.onGrid (s : State) (err : Int) : State :=
  let s := (s.notePhase err).raise F.TIME_STATUS_SYNCOK
  { s with time := { s.time with missing := 0, outliers := 0 } }

/-- R252, R254, R255: the servo's measurement, by where the device stands. -/
def State.measure (s : State) (err : Int) : State :=
  match s.time.lock with
  | .servo =>
    if beyond2ns err then { s.outlier with time := { s.outlier.time with good := 0 } }
    else
      let s := (s.onGrid err).countGood err
      if s.time.good = 16 then { s with time := { s.time with good := 0 } }.lockSettled else s
  | .raise => if beyond2ns err then s.outlier else s.onGrid err
  | _ =>
    if !s.is F.TIME_STATUS_VALID then s
    else if beyond2ns err then { s.outlier with time := { s.outlier.time with good := 0 } }
    else if s.mode.base = .holdover then
      let s := s.onGrid err
      if s.time.requalified then
        let s := s.countGood err
        if 16 ≤ s.time.good then { s with mode := { s.mode with backNext := true } } else s
      else s
    else s.onGrid err

/-- SYNCPER in time units; PER 0 acts as 1. -/
def State.syncPeriod (s : State) : Nat := max 1 (s.get F.TIME_SYNCPER_PER) * beatUnits
/-- The nearest whole number to x ÷ y, halves upward. -/
def roundDiv (x y : Int) : Int := (2 * x + y) / (2 * y)

/-- R250: the edge's time at the reference point, less SYNCREF. -/
def State.edgeDelta (s : State) (ball : Word) : Int :=
  (ball - BitVec.ofInt 48 (signed 32 (s.get F.TIME_SYNCDLY_DLY)) -
    BitVec.ofNat 48 (s.pair R.TIME_SYNCREF_LO R.TIME_SYNCREF_HI)).toInt
/-- The phase error of an edge: its distance from the nearest time of the sync grid. -/
def State.edgeError (s : State) (ball : Word) : Int :=
  let p : Int := (s.syncPeriod : Nat)
  let d := s.edgeDelta ball
  d - roundDiv d p * p

/-- R251, R252: a SYNC_IN edge at corrected time `ball`. -/
def State.syncEdge (s : State) (ball : Word) : State :=
  if s.timeMode ≠ 0 ∨ ¬ s.time.running then s
  else
    match s.time.lock with
    | .edges =>
      let near := match s.time.lastEdge with
        | some l => decide (((ball - l).toInt - (s.syncPeriod : Nat)).natAbs ≤ nsUnits 2)
        | none => false
      let n := if near then s.time.good + 1 else 1
      let s := { s with time := { s.time with good := n, lastEdge := some ball } }
      if n = 4 then { s with time := { s.time with lock := .snap, good := 0 } } else s
    | .snap =>
      if s.edgeDelta ball = -(2 ^ 47 : Int) then (s.raise F.TIME_ERR_GRIDOLD).lockRestart
      else s.snapBy (s.edgeError ball)
    | _ => s.measure (s.edgeError ball)

/-- R251, R255: a two-way measurement θ of the link port. -/
def State.linkMeasure (s : State) (theta : Int) : State :=
  if s.timeMode ≠ 1 ∨ ¬ s.time.running then s
  else
    match s.time.lock with
    | .edges =>
      let s := { s with time := { s.time with good := s.time.good + 1 } }
      if s.time.good = 4 then { s with time := { s.time with lock := .snap, good := 0 } } else s
    | .snap => s.snapBy (-theta)
    | _ => s.measure theta

/-- R252: two expected edges have passed without one. -/
def State.syncLost (s : State) : State :=
  if s.timeMode ≠ 0 then s
  else
    match s.time.lock with
    | .edges | .snap => s.lockRestart
    | _ =>
      if s.is F.TIME_STATUS_SYNCOK then
        let s := (s.clear F.TIME_STATUS_SYNCOK).raise F.TIME_ERR_SYNCLOST
        { s with time := { s.time with good := 0 } }.post 0x012 93 0
      else { s with time := { s.time with good := 0 } }

/-! ## The commands of the time base -/

def State.anchorRebase (s : State) : State :=
  if s.time.running then s.advanceTo ((s.time.anchor + 2 ^ 47) % 2 ^ 48) else s
/-- ANCHOR_REBASE: RAW reaches ANCHOR + 2⁴⁷. -/
def execAnchorRebase (s : State) : Ans := .next s.anchorRebase
def execIncrWrite (v : Word) (s : State) : Ans := .next (s.incrWrite v.toNat)
def execStepWrite (v : Word) (s : State) : Ans := .next (s.stepWrite v)

def State.path (s : State) : Path → PathSt
  | .host => s.hostPath | .debug => s.debugPath | .steward => s.stewardPath
def State.setPath (s : State) (p : Path) (x : PathSt) : State :=
  match p with
  | .host => { s with hostPath := x } | .debug => { s with debugPath := x } | .steward => { s with stewardPath := x }

/-- R247: a read of TIME.NOW_LO. -/
def State.nowRead (s : State) (p : Path) : State :=
  let x := s.path p
  let hi := BitVec.ofNat 32 (s.correctedNat / 2 ^ 32)
  let x := { x with
    latch := SMap.set (SMap.set x.latch 0 R.TIME_NOW_LO.off hi) 0 R.TIME_NOWX.off (BitVec.ofNat 32 s.time.nowx) }
  { s.setPath p x with readOut := (p, BitVec.ofNat 64 (s.correctedNat % 2 ^ 32)) }
def execNowRead (p : Path) (s : State) : Ans := .next (s.nowRead p)

/-- TIME_WRAP: RAW reaches the first count at which the nanosecond count has wrapped. -/
def State.timeWrap (s : State) : State :=
  if !s.time.running then s
  else
    let d := s.timeDelta
    let c := s.time.offset + s.incr * d / 2 ^ 24
    let target := (c / 2 ^ 48 + 1) * 2 ^ 48
    let k := ((target - s.time.offset) * 2 ^ 24 + s.incr - 1) / s.incr
    s.advance (k - d)
def execTimeWrap (s : State) : Ans := .next s.timeWrap

def execSyncInEdge (ball : Word) (s : State) : Ans := .next (s.syncEdge ball)
def execSyncLost (s : State) : Ans := .next s.syncLost

end Sys2Proof.Machine
end

