-- ==== Sys2Proof/Machine/HostOps.lean ====
section
/-! DEFINITION. What the host bridge does below its commands: descriptor fields (Table 12-6), queue pairs, completions
(R295, R296), the log ring and the status block (R289). -/
namespace Sys2Proof.Machine

/-! ## Descriptors -/

/-- `w` bits of a descriptor from bit `lo` of its byte `b`. -/
def DescSt.bits (d : DescSt) (b lo w : Nat) : Nat := bitsOf (8 * b + lo) w d.raw.toNat
def DescSt.op (d : DescSt) : Nat := d.bits 0 0 8
def DescSt.fence (d : DescSt) : Bool := d.bits 1 0 1 == 1
def DescSt.irq (d : DescSt) : Bool := d.bits 1 1 1 == 1
def DescSt.ord (d : DescSt) : Bool := d.bits 1 2 1 == 1
def DescSt.qtag (d : DescSt) : Nat := d.bits 2 0 16
def DescSt.len (d : DescSt) : Nat := d.bits 4 0 32
def DescSt.srcHost (d : DescSt) : Bool := d.bits 8 63 1 == 1
def DescSt.src (d : DescSt) : Nat := d.bits 8 0 48
def DescSt.dstHost (d : DescSt) : Bool := d.bits 16 63 1 == 1
def DescSt.dst (d : DescSt) : Nat := d.bits 16 0 48

/-- Bytes of the operation-specific part that an operation defines, as (first bit from byte 24, bits). -/
def extUsed (op : Nat) : Nat × Nat :=
  match op with
  | 0x01 => (0, 16) | 0x02 => (0, 48) | 0x03 => (0, 1) | 0x04 => (0, 6) | 0x06 => (0, 24) | 0x07 => (0, 8)
  | 0x08 => (0, 8) | 0x09 => (0, 9) | 0x0A => (0, 32) | 0x0B => (0, 99) | 0x0C => (0, 8) | _ => (0, 0)

/-- R290, R293: every bit that must be 0 is 0. -/
def DescSt.reservedOk (d : DescSt) : Bool :=
  let u := extUsed d.op
  decide (d.bits 1 3 5 = 0) && decide (d.bits 8 48 15 = 0) && decide (d.bits 16 48 15 = 0) &&
    decide (d.raw.toNat / 2 ^ (192 + u.2) = 0)

/-- A field Table 12-7 gives as 0. -/
def DescSt.srcZero (d : DescSt) : Bool := d.bits 8 0 64 == 0
def DescSt.dstZero (d : DescSt) : Bool := d.bits 16 0 64 == 0

/-- R375: the words of a wrapped key. -/
def wrappedKeyWords : Nat := 8

/-- R293: the operands of each operation are in range. -/
def DescSt.operandsOk (d : DescSt) : Bool :=
  let e := d.bits 24 0 8
  let k := d.bits 25 0 8
  match d.op with
  | 0x01 => decide (1 ≤ d.len) && !(d.srcHost && d.dstHost)
  | 0x02 => d.srcZero && !d.dstHost && decide (1 ≤ d.len)
  | 0x03 => d.srcZero && (if e % 2 = 1 then !d.dstHost else d.dstZero) && d.len == 0
  | 0x04 => d.dstZero && decide (4 ≤ d.len ∧ d.len ≤ 2048 ∧ d.len % 4 = 0)
  | 0x05 => d.dstZero && decide (1 ≤ d.len)
  | 0x06 => d.srcZero && d.dstZero && d.len == 0
  | 0x07 => d.dstZero && d.len == 120 && decide (e ≤ 95)
  | 0x08 => d.dstZero && d.len == 768 && decide (e ≤ 95)
  | 0x09 => d.dstZero && d.len == wrappedKeyWords && decide (1 ≤ e ∧ e ≤ 63)
  | 0x0A => d.srcZero && d.dstZero && d.len == 0 && decide (e ≤ 31) && decide (1 ≤ k ∧ k ≤ 63)
  | 0x0B => d.srcZero && !d.dstHost && d.len == 1
  | 0x0C => d.srcZero && d.dstZero && d.len == 0
  | _ => false
def DescSt.bad (d : DescSt) : Bool := !(d.reservedOk && d.operandsOk)
/-- R293: the privileged operations. -/
def DescSt.privileged (d : DescSt) : Bool :=
  d.op == 0x05 || d.op == 0x07 || d.op == 0x08 || d.op == 0x09 || d.op == 0x0A

/-! ## Queue pairs -/

def State.pairSt (s : State) (q : Nat) : PairSt := SMap.get s.host.pairs PairSt.zero q
def State.setPairSt (s : State) (q : Nat) (x : PairSt) : State :=
  { s with host := { s.host with pairs := SMap.set s.host.pairs PairSt.zero q x } }

/-- R283: sizes of the queues, 2^SZL entries with SZL held within 2 to 16. -/
def ringSize (szl : Nat) : Nat := 2 ^ min 16 (max 2 szl)
def State.sqSize (s : State) (q : Nat) : Nat := ringSize (s.get (F.RING_QP_CTL_SQSZL q))
def State.cqSize (s : State) (q : Nat) : Nat := ringSize (s.get (F.RING_QP_CTL_CQSZL q))

/-- Descriptors in progress and those that wait for completion room (R285, R291). -/
def PairSt.inProgress (x : PairSt) : Nat := x.fetched.length + x.active.length + x.waiting.length
def State.inProgress (s : State) : Nat := (s.host.pairs.map fun e => e.2.inProgress).foldl (· + ·) 0

/-- The NI of a pair (R291). -/
def pairNi (q : Nat) : Nat := if q < 16 then 80 else 81

/-- A descriptor in progress. -/
def PairSt.find (x : PairSt) (slot : Nat) : Option DescSt := x.active.find? fun d => d.slot == slot
def PairSt.update (x : PairSt) (d : DescSt) : PairSt :=
  { x with active := x.active.map fun e => if e.slot = d.slot then d else e }
/-- Every descriptor of the pair before `slot` has completed. -/
def PairSt.isOldest (x : PairSt) (slot : Nat) : Bool :=
  match x.active with
  | d :: _ => d.slot == slot
  | [] => match x.fetched with | d :: _ => d.slot == slot | [] => false

/-- R295: statuses that do not fail. -/
def statusFine (st : Nat) : Bool := st == stOk || st == stCorrected

/-- A descriptor completes: its completion waits for room (R285). -/
def State.completeDesc (s : State) (q : Nat) (d : DescSt) (status : Nat) (result : Word) : State :=
  let x := s.pairSt q
  let c : Completion := ⟨d.qtag, status, d.irq, result, s.now⟩
  s.setPairSt q { x with
    active := x.active.filter (fun e => e.slot != d.slot), fetched := x.fetched.filter (fun e => e.slot != d.slot),
    waiting := x.waiting ++ [c], failed := !statusFine status || (x.failed && !d.fence) }

/-- R295: the status of a descriptor whose requests have all been answered. -/
def DescSt.status (d : DescSt) : Nat :=
  match d.fail with
  | some (st, _) => st
  | none => if d.corrected then stCorrected else stOk

/-- Table 12-7: the operation codes. -/
def knownOp (op : Nat) : Bool := decide (1 ≤ op ∧ op ≤ 12)
/-- R291, R293: a descriptor whose OP Table 12-7 does not list has no command of its own: it completes with BADDESC once it is the
next to start, or aborts as its FENCE gives it (R292). -/
def State.dropUnknownOne (s : State) (q : Nat) : State :=
  let x := s.pairSt q
  match x.fetched with
  | [] => s
  | d :: _ =>
    if knownOp d.op || (d.fence && !(x.active.isEmpty)) then s
    else
      let t := s.completeDesc q d (if d.fence && x.failed then stFenceAbort else 0x10) 0
      t.setPairSt q { t.pairSt q with active := x.active, fetched := x.fetched.drop 1 }
def State.dropUnknown (s : State) (q : Nat) : State := (List.range 16).foldl (fun s _ => s.dropUnknownOne q) s

/-- R292, R293: the descriptor at the head of the pair's fetched ones starts: it is malformed, denied, aborted by its
fence, waits for its fence, or joins those in progress. -/
def State.startDesc (s : State) (q slot op : Nat) : State × Option DescSt :=
  let x := s.pairSt q
  match x.fetched with
  | [] => (s, none)
  | d :: rest =>
    if d.slot ≠ slot ∨ d.op ≠ op then (s, none)
    else if d.fence && !(x.active.isEmpty) then (s, none)
    else if d.fence && x.failed then (s.completeDesc q d stFenceAbort 0, none)
    else if d.bad then (s.completeDesc q d 0x10 0, none)
    else if d.privileged && !s.is (F.RING_QP_CTL_PRIV q) then (s.completeDesc q d stDenied 0, none)
    else (s.setPairSt q { x with fetched := rest, active := x.active ++ [d], failed := x.failed && !d.fence }, some d)

/-- R291: the descriptor a command names: in progress already, or started now. -/
def State.descFor (s : State) (q slot op : Nat) : State × Option DescSt :=
  match (s.pairSt q).find slot with
  | some d => if d.op = op then (s, some d) else (s, none)
  | none => s.startDesc q slot op
/-- The descriptor's progress is kept. -/
def State.keepDesc (s : State) (q : Nat) (d : DescSt) : State := s.setPairSt q ((s.pairSt q).update d)

/-! ## Writes to host memory -/

def State.hostWrite (s : State) (a : Nat) (bs : List Byte) : State :=
  { s with hostOut := s.hostOut ++ [.write (BitVec.ofNat 48 a) bs false] }
/-- Table 12-1: a DMA data write, with Relaxed Ordering while HB.CTL.RO is 1. -/
def State.dataWrite (s : State) (a : Nat) (bs : List Byte) : State :=
  { s with hostOut := s.hostOut ++ [.write (BitVec.ofNat 48 a) bs (s.is F.HB_CTL_RO)] }
def State.hostRead (s : State) (a n : Nat) : State := { s with hostOut := s.hostOut ++ [.read (BitVec.ofNat 48 a) n] }

/-- Table 12-8. -/
def Completion.bytes (c : Completion) (phase : Bool) (sqHead : Nat) : List Byte :=
  bytesLE 2 c.qtag ++ bytesLE 1 c.status ++ bytesLE 1 (bit phase) ++ bytesLE 6 c.result.toNat ++ bytesLE 2 sqHead ++
    bytesLE 4 (c.time.toNat / 65536)

/-- Table 12-5. -/
def State.writeStatus (s : State) : State :=
  s.hostWrite (s.pair R.HB_STS_BASE_LO R.HB_STS_BASE_HI / 32 * 32)
    (bytesLE 2 s.host.evTail ++ bytesLE 2 s.host.lgTail ++ bytesLE 2 (min s.host.dropped 65535) ++
      bytesLE 6 s.correctedNat ++ List.replicate 20 0)

/-- Table 18-4. -/
def LogEntry.bytes (e : LogEntry) : List Byte :=
  bytesLE 6 e.time.toNat ++ bytesLE 2 e.tick.toNat ++ bytesLE 2 e.code.toNat ++ bytesLE 2 e.source.toNat ++
    bytesLE 8 e.arg.toNat ++ bytesLE 12 e.detail.toNat

def State.lgSize (s : State) : Nat := ringSize (s.get F.RING_LGR_CTL_SZL)
def State.evSize (s : State) : Nat := ringSize (s.get F.RING_EVR_CTL_SZL)
/-- Free entries of the two rings (R285). -/
def State.lgRoom (s : State) : Nat := (s.host.lgHead + s.lgSize - s.host.lgTail - 1) % s.lgSize
def State.evRoom (s : State) : Nat := (s.host.evHead + s.evSize - s.host.evTail - 1) % s.evSize

/-- R289: held log entries go to the ring as far as it has room, the status block after them, then source 33. -/
def State.flushLog (s : State) : State :=
  if !s.is F.RING_LGR_CTL_EN || s.log.isEmpty || s.lgRoom = 0 then s
  else
    let n := min s.log.length s.lgRoom
    let base := s.pair R.RING_LGR_BASE_LO R.RING_LGR_BASE_HI / 32 * 32
    let s := (s.log.take n).foldl (fun s e =>
      let t := s.hostWrite (base + 32 * s.host.lgTail) e.bytes
      { t with host := { t.host with lgTail := (t.host.lgTail + 1) % t.lgSize } }) s
    let s : State := { s with log := s.log.drop n }
    let s := s.writeStatus
    if s.is F.RING_LGR_CTL_IRQ then s.interrupt 33 else s

end Sys2Proof.Machine
end

