-- ==== Sys2Proof/Machine/Watchdog.lean ====
section
/-! DEFINITION. The watchdog counter (R425, R427) and the arming of TICK-kind blocks (R49). -/
namespace Sys2Proof.Machine

/-- PERIOD; 0 acts as 1. -/
def State.wdPeriod (s : State) : Nat := max 1 (s.get F.STW_WD_CTL_PERIOD)
/-- R425: the counter is loaded with PERIOD. -/
def State.wdLoad (s : State) : State := s.put F.STW_WD_STAT_REMAIN s.wdPeriod
/-- R427: the modes in which the watchdog is frozen. -/
def ModeSt.wdFrozen (m : ModeSt) : Bool := m.ov.halt || m.ov.valley || m.ov.safeHold || m.ov.freeze || m.ov.selfTest
/-- R425: a kick from source `b` (0 heartbeat, 1 fabric line). -/
def State.wdKick (s : State) (b : Nat) : State :=
  if s.is F.STW_WD_CTL_EN && bitOf b (s.get F.STW_WD_CTL_KSRC) && !s.mode.wdFrozen then s.wdLoad else s

/-- The COMMIT register of the block a COMMIT action names (Table 11-5). -/
def commitTarget (t : Nat) : Option RegRef :=
  match t with
  | 0 => some R.TIME_COMMIT | 1 => some R.TT_COMMIT | 2 => some R.TRG_COMMIT | 3 => some R.PWR_COMMIT
  | 4 => some R.STW_COMMIT | 5 => some R.CFG_COMMIT | 6 => some R.SCR_COMMIT
  | _ =>
    if 8 ≤ t ∧ t ≤ 31 then some (R.FLD_COMMIT (t - 8))
    else if 32 ≤ t ∧ t ≤ 39 then some (R.GPB_COMMIT (t - 32))
    else if 128 ≤ t ∧ t ≤ 223 then some (R.NI_COMMIT (t - 128))
    else if 256 ≤ t ∧ t ≤ 351 then some (R.NOC_COMMIT (t - 256))
    else none
/-- Every code of Table 11-5 that names one block. -/
def commitTargets : List Nat :=
  List.range 7 ++ (List.range 32).map (· + 8) ++ (List.range 96).map (· + 128) ++ (List.range 96).map (· + 256)

/-- The bits of a COMMIT register. -/
def cHold (r : RegRef) : Fld := ⟨r, 3, 1⟩
def cArmed (r : RegRef) : Fld := ⟨r, 2, 1⟩

/-- R49: a TICK-kind block is armed; with HOLD 0 arming has no effect. -/
def State.arm (s : State) (r : RegRef) : State := if s.is (cHold r) then s.raise (cArmed r) else s
/-- R49: a timetable COMMIT with this TARGET; 1,023 names every block with HOLD 1. -/
def State.armTarget (s : State) (t : Nat) : State :=
  if t = 1023 then commitTargets.foldl (fun s c => match commitTarget c with | some r => s.arm r | none => s) s
  else match commitTarget t with | some r => s.arm r | none => s

end Sys2Proof.Machine
end

