-- ==== Sys2Proof/Machine/TimetableOps.lean ====
section
/-! DEFINITION. What the timetable, the timestamp points and the Pass do below their commands: entries and loads
(R264, R265), dispatch (R266 to R270), event batches (R271 to R274). -/
namespace Sys2Proof.Machine

/-! ## Entries -/

def TtEntry.action (e : TtEntry) : Nat := bitsOf 0 6 e.w2.toNat
def TtEntry.target (e : TtEntry) : Nat := bitsOf 6 10 e.w2.toNat
def TtEntry.flags (e : TtEntry) : Nat := bitsOf 16 8 e.w2.toNat
def TtEntry.count (e : TtEntry) : Nat := bitsOf 24 24 e.w2.toNat
def TtEntry.periodic (e : TtEntry) : Bool := bitOf 0 e.flags
def TtEntry.missSkip (e : TtEntry) : Bool := bitOf 1 e.flags
def TtEntry.evt (e : TtEntry) : Bool := bitOf 2 e.flags
def TtEntry.setCount (e : TtEntry) (n : Nat) : TtEntry := { e with w2 := BitVec.ofNat 48 (setBitsOf 24 24 e.w2.toNat n) }

/-- Table 11-5: TARGET and ARG are in range for the action. -/
def actionOk (action target arg : Nat) : Bool :=
  match action with
  | 0x01 => decide (target ≤ 7 ∧ 1 ≤ arg ∧ arg < 2 ^ 24)
  | 0x02 => decide (target ≤ 7 ∧ arg ≤ 1)
  | 0x03 => true
  | 0x04 => decide (target ≤ 15 ∧ arg ≤ 2)
  | 0x05 => decide (target = 0 ∧ arg < 2 ^ 24)
  | 0x06 => ((commitTarget target).isSome || target == 1023) && arg == 0
  | 0x07 => target == 0 && arg == 0
  | 0x08 => decide (target = 0 ∧ arg < 256)
  | 0x09 => target == 0 && arg == 0
  | _ => false
/-- Table 11-4: FLAGS are defined, and a periodic entry's PERIOD is 16 ns to 2³¹ ns. -/
def TtEntry.ok (e : TtEntry) : Bool :=
  decide (e.flags < 8) && (!e.periodic || decide (16 * 65536 ≤ e.period.toNat ∧ e.period.toNat ≤ 2 ^ 31 * 65536)) &&
    actionOk e.action e.target e.arg.toNat

/-- Four words make an entry. -/
def ttEntries : List Word → List TtEntry
  | a :: b :: c :: d :: l => ⟨a, b, c, d⟩ :: ttEntries l
  | _ => []

/-! ## Loads -/

def State.column (s : State) (c : Nat) : TtColumn := SMap.get s.tt.cols TtColumn.zero c
def State.setColumn (s : State) (c : Nat) (x : TtColumn) : State :=
  { s with tt := { s.tt with cols := SMap.set s.tt.cols TtColumn.zero c x } }
/-- R265: no TIME lies before the one before it. -/
def ttOrdered : Option TtEntry → List TtEntry → Bool
  | _, [] => true
  | none, e :: l => ttOrdered (some e) l
  | some p, e :: l => decide (0 ≤ signed 48 (e.time - p.time).toNat) && ttOrdered (some e) l
/-- R265: the error bits a load for a column sets, by the context it comes from; `maskOk` when its carriages' MASKs are
allowed. -/
def State.ttErrors (s : State) (c ctx : Nat) (es : List TtEntry) (maskOk : Bool) : List Fld :=
  let x := s.column c
  (if !maskOk || !es.all TtEntry.ok then [F.TT_ERR_BADENTRY] else []) ++
  (if !ttOrdered x.entries.getLast? es then [F.TT_ERR_ORDER] else []) ++
  (if 512 < x.entries.length + es.length then [F.TT_ERR_FULL] else []) ++
  (if (c = 62 ∧ ctx ≠ 0) ∨ es.any (fun e => (e.action == 7) != (c == 63)) then [F.TT_ERR_COLRES] else [])
/-- R265: a load is appended whole, or rejected whole; the flag says which. -/
def State.ttLoad (s : State) (c ctx : Nat) (es : List TtEntry) (maskOk : Bool) : State × Bool :=
  match s.ttErrors c ctx es maskOk with
  | [] =>
    let x := s.column c
    (s.setColumn c { x with entries := x.entries ++ es }, true)
  | errs => ((errs.foldl State.raise s).put F.TT_ERR_COL c, false)

/-! ## Dispatch -/

/-- R266, R270: how long before TIME the action must be taken: 250 µs more for a WAKE. -/
def TtEntry.lead (e : TtEntry) : Nat := if e.action = 7 then 250000 * 65536 else 0
/-- C − (TIME − lead − ns), as a signed difference. -/
def State.ttDiff (s : State) (e : TtEntry) (ns : Nat) : Int :=
  signed 48 (s.now - (e.time - BitVec.ofNat 48 (e.lead + ns * 65536))).toNat
def State.ttDue (s : State) (e : TtEntry) : Bool := decide (0 ≤ s.ttDiff e 64)
def State.ttOnTime (s : State) (e : TtEntry) : Bool := decide (s.ttDiff e 32 ≤ 0)

/-- R269, R270: the columns that are dispatched now. -/
def State.ttRuns (s : State) (c : Nat) : Bool :=
  s.is F.TIME_STATUS_VALID && (c == 63 || (s.is F.TT_CTL_EN && !s.mode.ov.halt && s.domainOn 1))

/-- The head leaves the column. -/
def TtColumn.pop (x : TtColumn) : TtColumn := ⟨x.entries.drop 1, (x.head + 1) % 512⟩
/-- The head is replaced. -/
def TtColumn.replace (x : TtColumn) (e : TtEntry) : TtColumn := { x with entries := e :: x.entries.drop 1 }
/-- R267, R268: `n` periods pass: TIME advances, COUNT decreases, and the entry leaves when its COUNT is exhausted. -/
def TtColumn.advance (x : TtColumn) (e : TtEntry) (n : Nat) : TtColumn :=
  if e.count = 0 then x.replace { e with time := e.time + BitVec.ofNat 48 (n * e.period.toNat) }
  else if e.count ≤ n then x.pop
  else x.replace ({ e with time := e.time + BitVec.ofNat 48 (n * e.period.toNat) }.setCount (e.count - n))
/-- R268: whole periods until the entry is on time. -/
def State.ttSkips (s : State) (e : TtEntry) : Nat :=
  let d := (s.ttDiff e 32).toNat
  (d + e.period.toNat - 1) / e.period.toNat
/-- R268: a periodic head that is not on time skips periods until it is. -/
def State.ttCatchUp (s : State) (x : TtColumn) : TtColumn :=
  match x.entries with
  | e :: _ => if e.periodic && !s.ttOnTime e then x.advance e (s.ttSkips e) else x
  | [] => x

/-- An action waits for its command. -/
def State.ttTake (s : State) (c : Nat) (e : TtEntry) (late : Bool) : State :=
  { s with tt := { s.tt with taken := s.tt.taken ++ [⟨c, e, late⟩] } }
/-- R268: a miss is counted, posted, and logged once a tick. -/
def State.ttMissed (s : State) (c : Nat) : State :=
  let s := ((s.bump F.TT_MISS_COUNT 1).put F.TT_MISS_LASTCOL c).post 0x020 93 c
  if s.newTick s.tt.missTick then
    { s with tt := { s.tt with missTick := some s.time.tick } }.logEntry 0x020 93 c 0
  else s

/-- R266 to R268: one examination of the head of a column. -/
def State.dispatchColumn (s : State) (c : Nat) : State :=
  let x := s.column c
  match x.entries with
  | [] => s
  | e :: _ =>
    if !s.ttRuns c || !s.ttDue e then s
    else if s.ttOnTime e then
      (s.ttTake c e false).setColumn c (if e.periodic then x.advance e 1 else x.pop)
    else
      let s := s.ttMissed c
      if e.missSkip then s.setColumn c (if e.periodic then x.advance e (s.ttSkips e) else x.pop)
      else
        let x' := if e.periodic then (let y := x.advance e 1; if y.entries.length < x.entries.length then y else s.ttCatchUp y)
          else x.pop
        (s.ttTake c e true).setColumn c x'

/-- R269: a column is emptied. -/
def State.colClr (s : State) (c : Nat) : State :=
  let x := s.column c
  s.setColumn c ⟨[], (x.head + x.entries.length) % 512⟩

/-! ## Performing an action -/

/-- The oldest taken action of column `c` of a kind whose time has come. -/
def State.ttReady (s : State) (c action : Nat) : Option TtTaken :=
  s.tt.taken.find? fun t => t.col == c && t.entry.action == action &&
    (t.late || action == 7 || decide (0 ≤ signed 48 (s.now - t.entry.time).toNat))
/-- The instant an action takes effect: TIME, or the actual time of a late one (R268). -/
def State.ttWhen (s : State) (t : TtTaken) : Word := if t.late then s.now else t.entry.time
/-- A taken action is performed: it leaves the list, and posts TT_FIRED if its entry asks for it. -/
def State.ttPerform (s : State) (c action : Nat) (g : State → TtTaken → State) : State :=
  match s.ttReady c action with
  | none => s
  | some t =>
    let s : State := { s with tt := { s.tt with taken := s.tt.taken.erase t } }
    let s := g s t
    if t.entry.evt then s.postAt (s.ttWhen t) 0x022 93 c else s

/-! ## The Pass -/

/-- LAG, held within 1 to 4. -/
def State.passLag (s : State) : Nat := min 4 (max 1 (s.get F.TIME_PASS_CTL_LAG))
/-- R200: SEQ a precedes SEQ b. -/
def seqBefore (a b : BitVec 16) : Bool := decide (1 ≤ (b - a).toNat ∧ (b - a).toNat ≤ 32767)
/-- R272: the canonical order of two records. -/
def EvRec.before (a b : EvRec) : Bool :=
  let d := signed 48 (b.time - a.time).toNat
  if d ≠ 0 then decide (0 < d)
  else if a.dev ≠ b.dev then decide (a.dev.toNat < b.dev.toNat)
  else if a.src ≠ b.src then decide (a.src.toNat < b.src.toNat)
  else seqBefore a.seq b.seq
/-- A record put in its place, behind those that come before it. -/
def insertRec (r : EvRec) : List EvRec → List EvRec
  | [] => [r]
  | x :: l => if r.before x then r :: x :: l else x :: insertRec r l
def sortRecs (l : List EvRec) : List EvRec := l.foldl (fun acc r => insertRec r acc) []

/-- A marker of the Pass itself (R273). -/
def State.marker (s : State) (t : Word) (code arg : Nat) : EvRec :=
  { time := t, arg := BitVec.ofNat 8 (min 255 arg), code := BitVec.ofNat 9 code, dev := s.devid,
    src := BitVec.ofNat 7 93, seq := 0 }
/-- A record of the batch of frame `k` is emitted. -/
def State.emit (s : State) (k : Nat) (r : EvRec) : State :=
  let p := s.pass
  { s with pass := { p with out := p.out ++ [(r, k)],
                            fwd := if s.is F.TIME_PASS_CTL_FWD then p.fwd ++ [r] else p.fwd } }
/-- R273: a record is emitted behind its gap marker, if its SEQ skips. -/
def State.emitChecked (s : State) (k : Nat) (r : EvRec) : State :=
  let key := (r.dev.toNat, r.src.toNat)
  let rest := s.pass.last.filter fun e => e.1 != key
  let keep (s : State) (q : Nat) : State := { s with pass := { s.pass with last := ((key, q) :: rest).take 512 } }
  match (s.pass.last.find? fun e => e.1 == key).map (·.2) with
  | none => (keep s r.seq.toNat).emit k r
  | some q =>
    let d := (r.seq - BitVec.ofNat 16 q).toNat
    if d = 0 ∨ 32767 < d then (keep s q).emit k r
    else if d = 1 then (keep s r.seq.toNat).emit k r
    else (((keep s r.seq.toNat).bump F.TIME_PASS_STAT_GAP 1).emit k (s.marker r.time 0x041 (d - 1))).emit k r

/-- R274: late records, behind a marker for each 255. -/
def State.emitLate (s : State) (k : Nat) (t : Word) : Nat → List EvRec → State
  | 0, _ => s
  | n + 1, l =>
    if l.isEmpty then s
    else
      let c := l.take 255
      let s := c.foldl (fun s r => s.emitChecked k r) (s.emit k (s.marker t 0x040 c.length))
      s.emitLate k t n (l.drop 255)

/-- R272 to R274: the oldest frame is closed at the (LAG + 1)-th tick after its own: its batch is emitted. -/
def State.closeFrame (s : State) : State :=
  match s.pass.frames with
  | (k, t) :: (k', t') :: rest =>
    if rest.length < s.passLag then s
    else
      let p := s.pass
      let isMine (e : EvRec × Bool) : Bool := e.2 || decide (signed 48 (e.1.time - t').toNat < 0)
      let late := sortRecs ((p.held.filter (·.2)).map (·.1))
      let mine := sortRecs ((p.held.filter fun e => !e.2 && isMine e).map (·.1))
      let s : State := { s with pass := { p with held := p.held.filter (fun e => !isMine e), frames := (k', t') :: rest,
                                                 dropped := 0 } }
      let s := if p.dropped = 0 then s else s.emit k (s.marker t 0x042 p.dropped)
      let s := s.emitLate k t 64 late
      mine.foldl (fun s r => s.emitChecked k r) s
  | _ => s

/-- R289: emitted records go to the event ring as far as it has room, the status block after them, then source 32. -/
def State.flushEvents (s : State) : State :=
  if !s.is F.RING_EVR_CTL_EN || s.pass.out.isEmpty || s.evRoom = 0 then s
  else
    let n := min s.pass.out.length s.evRoom
    let base := s.pair R.RING_EVR_BASE_LO R.RING_EVR_BASE_HI / 16 * 16
    let s := (s.pass.out.take n).foldl (fun s e =>
      let t := s.hostWrite (base + 16 * s.host.evTail)
        (bytesLE 6 e.1.time.toNat ++ bytesLE 6 e.1.w1.toNat ++ bytesLE 4 e.2)
      { t with host := { t.host with evTail := (t.host.evTail + 1) % t.evSize } }) s
    let s : State := { s with pass := { s.pass with out := s.pass.out.drop n } }
    let s := s.writeStatus
    if s.is F.RING_EVR_CTL_IRQ then s.interrupt 32 else s

/-- A request of NI 93 for one of its own blocks. -/
def State.request93 (s : State) (typ : Nat) (addr : Nat) (mask : Nat) (ws : List Word) : Request :=
  { typ := typ, len := 0, addr := BitVec.ofNat 48 addr, utag := 0, mask := BitVec.ofNat 16 mask, guar := false,
    fence := false, ord := false, ctx := s.get (F.NI_CTL_CTX 93), dev := s.devid.toNat,
    words := (List.range ws.length).map fun i => (i, ws.getD i 0) }

/-- R272: emitted records are forwarded in EVENT carriages, as NI 93 takes them. -/
def State.forwardOne (s : State) : State :=
  if s.pass.fwd.isEmpty || !s.txReady 93 tEvent 0 then s
  else
    let l := s.pass.fwd.take 8
    let ws := l.flatMap fun r => [r.time, r.w1]
    let q := s.request93 tEvent (s.pair R.TIME_PASS_FWDADDR_LO R.TIME_PASS_FWDADDR_HI) (2 ^ (2 * l.length) - 1) ws
    ({ s with pass := { s.pass with fwd := s.pass.fwd.drop 8 } }.niTake 93 q (.engine 93 0)).state
def State.forwardEvents (s : State) : State := s.pass.fwd.foldl (fun s _ => s.forwardOne) s

/-- R272: a tick opens a frame. -/
def State.openFrame (s : State) : State :=
  { s with pass := { s.pass with frames := s.pass.frames ++ [(s.time.tick, s.time.lastT)] } }

/-- FRAME_CLOSE: the batch is emitted, written and forwarded. -/
def State.frameClose (s : State) : State := s.closeFrame.flushEvents.forwardEvents.flushLog

/-! ## Timestamp points -/

def State.tspSt (s : State) (i : Nat) : TspSt := SMap.get s.tsp TspSt.zero i
def State.setTsp (s : State) (i : Nat) (x : TspSt) : State := { s with tsp := SMap.set s.tsp TspSt.zero i x }
/-- R258, R259: a transmit stamp of point i: the departure time `t` at the ball plus DLY.TX, or a drop when the queue is
full. -/
def State.txStamp (s : State) (i id lane : Nat) (t : Word) : State :=
  if !s.is (F.TIME_TSP_CTL_EN i) || decide (lane < 16) || s.get (F.TIME_TSP_CTL_LANE i) != lane then s
  else
    let x := s.tspSt i
    if x.queue.length < 16 then
      s.setTsp i { x with queue := x.queue ++ [⟨t + BitVec.ofNat 48 (256 * s.get (F.TIME_TSP_DLY_TX i)), id, lane⟩] }
    else (s.raise (F.TIME_TSP_STAT_OVF i)).post 0x038 93 i
/-- Table 11-13: what TXQID shows. -/
def State.txqidValue (s : State) (i : Nat) : Nat :=
  match (s.tspSt i).queue with
  | [] => 0
  | e :: _ => 2 ^ 31 + 65536 * (e.lane % 256) + e.id % 65536
/-- R259: a read of TXQID pops the head and latches its time; under peek it only shows it. -/
def State.txqidPop (s : State) (i : Nat) (peek : Bool) : State :=
  let x := s.tspSt i
  match x.queue with
  | [] => s
  | e :: l => if peek then s else s.setTsp i ⟨l, e.time⟩

end Sys2Proof.Machine
end

