-- ==== Sys2Proof/Machine/Lanes.lean ====
section
/-! DEFINITION. The commands of serial lanes and Stagelink ports (chapter 13), and the stamps of the timestamp points. -/
namespace Sys2Proof.Machine

/-! ## Training -/

/-- PORT_TRAIN: EN is written with 1, or AUTOTRAIN retrains a port that went DOWN. -/
def State.portTrain (s : State) (p : Nat) : State :=
  if !s.domainOn (portDomain p) then s
  else
    let s := s.raise (F.STG_CTL_EN p)
    if s.portState13 p ≠ 0 then s
    else (s.setPort p { s.portSt p with fellBack := false }).startTraining p
def execPortTrain (p : Fin 6) (s : State) : Ans := .next (s.portTrain p)

/-- R318: TRAINTMO has passed. Step 2 or 4 failed on lanes 4 to 7 alone when the others have shown their index. -/
def State.trainTimeout (s : State) (p : Nat) : State :=
  if s.portState13 p = 1 then
    let x := s.portSt p
    let low := (x.seen.filter fun e => decide (e.1 < 4)).length
    s.failOrFallBack p 1 (decide (low = 4) && decide (x.seen.length < s.portWidth p))
  else s
def execTrainTimeout (p : Fin 6) (s : State) : Ans := .next (s.trainTimeout p)

def execTrain (p : Fin 6) (lane idx : Fin 8) (width4 ready : Bool) (dev : BitVec 8) (inverted : Bool) (s : State) : Ans :=
  .next (s.trainBlock p lane idx width4 ready dev.toNat inverted)

/-! ## Blocks on the stream -/

/-- R319: a control block whose ACK counts. -/
def State.ackBlock (s : State) (p : Nat) (ack : BitVec 16) (g : State → State) : State :=
  let s := s.resumePort p
  if s.portCarries p then g (s.linkAck p ack) else s
def execCar (p : Fin 6) (c : Carriage) (crc : BitVec 24) (lseq ack : BitVec 16) (s : State) : Ans :=
  .next ((s.resumePort p).carBlock p c crc lseq ack)
def execIdleBlock (p : Fin 6) (ack : BitVec 16) (s : State) : Ans := .next (s.ackBlock p ack id)
def execNak (p : Fin 6) (lseq ack : BitVec 16) (s : State) : Ans :=
  .next (s.ackBlock p ack fun s => s.replayFrom p lseq)

/-- R319: XOFF or XON of a class. -/
def State.setStop (s : State) (p : Nat) (rsp b : Bool) : State :=
  let x := s.portSt p
  (s.setPort p (if rsp then { x with stopRsp := b } else { x with stopReq := b })).sendAll p
def execXoff (p : Fin 6) (rsp : Bool) (ack : BitVec 16) (s : State) : Ans :=
  .next (s.ackBlock p ack fun s => s.setStop p rsp true)
def execXon (p : Fin 6) (rsp : Bool) (ack : BitVec 16) (s : State) : Ans :=
  .next (s.ackBlock p ack fun s => s.setStop p rsp false)

/-- R320: REPLAYTMO has passed without the expected carriage, or without progress of the ACK. -/
def State.replayTimeout (s : State) (p : Nat) (receiver : Bool) : State :=
  let x := s.portSt p
  if !s.portCarries p then s
  else if receiver then (if x.nakOut then s.sendNak p else s)
  else
    match x.replay with
    | [] => s
    | u :: _ => if x.stopReq || x.stopRsp then s else s.replayFrom p u.lseq
def execReplayTimeout (p : Fin 6) (receiver : Bool) (s : State) : Ans := .next ((s.resumePort p).replayTimeout p receiver)

/-! ## Markers and time transfer (R317, R318, R323) -/

/-- R317: a marker out of place fails the port with DESKEW. -/
def State.markerLost (s : State) (p : Nat) : State :=
  if s.portState13 p = 1 then s.failOrFallBack p 4 false else s.portDown p 4

/-- MARK_T received on logical lane `k` at corrected time `rx`, with its transmit time. -/
def State.markT (s : State) (p k : Nat) (time rx : Word) (inPlace : Bool) : State :=
  if s.portState13 p = 0 ∨ s.portWidth p ≤ k then s
  else if !inPlace then s.markerLost p
  else
    let x := s.portSt p
    let x := if k = 0 then { x with t3 := time, t4 := rx, haveT := true } else x
    if s.portState13 p = 1 then
      let done := x.marked.contains k
      let x := if done then x else { x with marked := x.marked ++ [k] }
      let s := s.setPort p x
      let s := if !done && x.marked.length == s.portWidth p then s.linkSend p (.train true) else s
      s.trainReady p
    else s.setPort p x
def execMarkT (p : Fin 6) (lane : Fin 8) (time rx : Word) (inPlace : Bool) (s : State) : Ans :=
  .next (s.markT p lane time rx inPlace)

/-- The port of LINK mode; 6 and 7 act as 0. -/
def State.linkPort (s : State) : Nat := let p := s.get F.TIME_CTL_LINKPORT; if 5 < p then 0 else p

/-- R323: a set of four times gives ONEWAY and OFFSET; the time base uses those of LINKPORT (R255). -/
def State.timeSet (s : State) (p : Nat) (t1 t2 : Word) : State :=
  let x := s.portSt p
  let theta := ((t2 - t1).toInt - (x.t4 - x.t3).toInt) / 2
  let s := s.put (F.STG_ONEWAY_DLY p) (wrap 32 (((x.t4 - t1).toInt - (x.t3 - t2).toInt) / 2))
  let s := s.put (F.STG_OFFSET_THETA p) (wrap 32 theta)
  let s := s.setPort p { x with haveT := false }
  if s.linkPort = p then s.linkMeasure (theta - signed 32 (s.get F.TIME_LINKASYM_ASYM)) else s

/-- MARK_R received on logical lane `k` with its receive time `time` of our MARK_T, which left at `t1`. -/
def State.markR (s : State) (p k : Nat) (time t1 : Word) (inPlace : Bool) : State :=
  if s.portState13 p = 0 ∨ s.portWidth p ≤ k then s
  else if !inPlace then s.markerLost p
  else if k = 0 ∧ s.portCarries p ∧ (s.portSt p).haveT ∧ time ≠ 0 then s.timeSet p t1 time
  else s
def execMarkR (p : Fin 6) (lane : Fin 8) (time t1 : Word) (inPlace : Bool) (s : State) : Ans :=
  .next (s.markR p lane time t1 inPlace)

/-! ## Electrical idle, equaliser, lock -/

/-- R310: an EIDLE bit of a lane is written; it acts on raw lanes. -/
def State.laneEidle (s : State) (l : Nat) (b : Bool) : State :=
  if l < 16 ∨ ¬ s.domainOn (laneDomain l) then s
  else
    let s := s.put (F.LANE_CTL_EIDLE l) (bit b)
    if !s.isRaw l then s
    else
      let was := s.is (F.LANE_STAT_EIDLE l)
      let s := s.laneIdle l b
      if was && !b then { s with laneOut := s.laneOut ++ [(l, .wake)] } else s
def execEidle (isPort : Bool) (i : Fin 64) (v : Bool) (s : State) : Ans :=
  .next (if isPort then (if 6 ≤ i.val ∨ ¬ s.domainOn (portDomain i) then s else s.portEidle i v) else s.laneEidle i v)

/-- R310: the WAKE block gives the receiver its boundary; it is locked and aligned. -/
def State.wakeBlock (s : State) (l : Nat) : State :=
  if l < 16 ∨ ¬ s.domainOn (laneDomain l) then s
  else
    let s := (s.clear (F.LANE_STAT_RXIDLE l)).raise (F.LANE_STAT_CDRLOCK l)
    if s.laneUse l = 3 then s else s.raise (F.LANE_STAT_BLKLOCK l)
def execWakeBlock (l : Fin 64) (s : State) : Ans := .next (s.wakeBlock l)

/-- R306: a host write of STEP takes effect at once. -/
def State.ctleStep (s : State) (l step : Nat) : State :=
  if s.domainOn (laneDomain l) then s.put (F.LANE_CTLE_STEP l) step else s
def execCtleStep (l : Fin 64) (step : Fin 32) (s : State) : Ans := .next (s.ctleStep l step)

/-- LANE_LOSS: a lane loses lock; lanes 0 to 15 have no STAT (Table 13-8: the event alone). The cause FAIL shows for an UP port that a lane leaves is an open value. -/
def State.laneLoss (s : State) (l : Nat) : State :=
  if !s.domainOn (laneDomain l) then s
  else if l < 16 then s.post 0x0D0 80 l
  else
    let s := s.laneUnlock l
    let s := if s.is (F.LANE_STAT_LOSS l) then s else (s.raise (F.LANE_STAT_LOSS l)).post 0x0D0 (s.laneNi l) l
    let p := lanePort l
    if s.laneUse l ≠ 2 ∨ ¬ (s.portLanes p).contains l then s
    else if s.portCarries p then
      let v := s.freeNat
      v.2.portDown p (v.1 % 8)
    else
      let k := l - portLane p
      let x := s.portSt p
      s.setPort p { x with seen := x.seen.filter (fun e => e.1 != k), marked := x.marked.filter (· != k),
                           ready := x.ready.filter (· != k) }
def execLaneLoss (l : Fin 64) (s : State) : Ans := .next (s.laneLoss l)

/-- R305, R308, R314: a raw lane's receiver gains lock; the first lock sets the step to INIT. LAT takes the latencies. -/
def State.blkLock (s : State) (l lat : Nat) : State :=
  if !s.rawOn l then s
  else
    let x := s.laneSt l
    let s := if x.lockedOnce then s
      else (s.setLane l { x with lockedOnce := true }).put (F.LANE_CTLE_STEP l) (s.get (F.LANE_CTLE_INIT l))
    let s := (s.raise (F.LANE_STAT_CDRLOCK l)).setReg (R.LANE_LAT l) lat
    let s := s.put (F.LANE_STAT_POLINV l) (s.get (F.LANE_CFG_RXINV l))
    if s.laneUse l = 4 then s.raise (F.LANE_STAT_BLKLOCK l) else s
def execBlklock (l : Fin 64) (lat : BitVec 32) (s : State) : Ans := .next (s.blkLock l lat.toNat)

/-- R309: the checker synchronises, and has since counted `errs` bit errors. -/
def State.prbsSync (s : State) (l errs : Nat) : State :=
  if s.prbsActs l && s.is (F.LANE_PRBS_CHK l) then
    (s.raise (F.LANE_PRBS_SYNC l)).bump (F.LANE_PRBSCNT_ERRS l) errs
  else s
def execPrbsSync (l : Fin 64) (errs : Nat) (s : State) : Ans := .next (s.prbsSync l errs)

/-! ## Raw lanes (R311 to R315) -/

/-- R315: a write of SLIP. -/
def State.slipWrite (s : State) (l n : Nat) : State :=
  if s.rawOn l ∧ s.laneUse l = 3 ∧ 1 ≤ n ∧ n ≤ 767 then
    let x := s.laneSt l
    s.setLane l { x with slip := (x.slip + n) % 768 }
  else s
def execSlip (l : Fin 64) (n : Fin 1024) (s : State) : Ans := .next (s.slipWrite l n)

/-- The receive stamp of the lane: the TSP that watches it takes DLY.RX off the time at the ball (R258). -/
def State.rxStamp (s : State) (l : Nat) (ball : Word) : Option Word :=
  ((List.range 8).find? fun i => s.is (F.TIME_TSP_CTL_EN i) && s.get (F.TIME_TSP_CTL_LANE i) == l).map fun i =>
    ball - BitVec.ofNat 48 (256 * s.get (F.TIME_TSP_DLY_RX i))

/-- Table 13-4: words 14 and 15 of a received PCS66 carriage. -/
def State.pcsTail (s : State) (l count : Nat) (start : Option (Fin 10)) (ball : Word) : Word × Word :=
  let stamp := match start with | some _ => s.rxStamp l ball | none => none
  let idx := match start with | some i => i.val | none => 15
  (stamp.getD 0,
   BitVec.ofNat 48 (count + 16 * idx + 256 * bit (s.is (F.LANE_STAT_BLKLOCK l)) + 512 * bit (s.is (F.LANE_STAT_HIBER l)) +
     1024 * bit stamp.isSome))

/-- The 66-bit block `b` of a PCS66 carriage. -/
def pcsBlock (ws : List Word) (b : Nat) : Nat :=
  bitsOf (66 * b) 66 ((ws.take 14).foldr (fun w acc => w.toNat + 2 ^ 48 * acc) 0)
/-- The control block types of Clause 49. -/
def pcsTypes : List Nat := [0x1E, 0x2D, 0x33, 0x66, 0x55, 0x78, 0x4B, 0x87, 0x99, 0xAA, 0xB4, 0xCC, 0xD2, 0xE1, 0xFF]
/-- R314: a block whose sync header is bad, and an error block: of no defined type, or with an error code (0x1E) among its
eight control codes. -/
def badHeader (v : Nat) : Bool := v % 4 == 0 || v % 4 == 3
def errorBlock (v : Nat) : Bool :=
  v % 4 == 2 &&
    (!pcsTypes.contains (v / 4 % 256) ||
      (v / 4 % 256 == 0x1E && (List.range 8).any fun i => bitsOf (10 + 7 * i) 7 v == 0x1E))
/-- How many of the first `n` blocks of a carriage are such. -/
def countBlocks (p : Nat → Bool) (ws : List Word) (n : Nat) : Nat := ((List.range n).filter fun b => p (pcsBlock ws b)).length

/-- R314: the BER monitors of Clause 49 at 10.3125 Gb/s and Clause 107 at 25.78125 Gb/s: the window in nanoseconds and the bad
sync headers that make it high (PRESUMED, log entry 47). -/
def State.berLimits (s : State) (l : Nat) : Nat × Nat :=
  if s.get (F.LANE_CFG_RATE l) = 1 then (125000, 16) else (2000000, 97)
/-- R314: `n` bad sync headers reach the monitor. HIBER rises as the window's count does, and falls with the end of a window below
it. -/
def State.berNote (s : State) (l n : Nat) : State :=
  let x := s.laneSt l
  let w := s.berLimits l
  let past := decide (w.1 ≤ (s.time.raw + 2 ^ 48 - x.berFrom) % 2 ^ 48)
  let s := if past && decide (x.ber < w.2) then s.clear (F.LANE_STAT_HIBER l) else s
  let k := if past then n else x.ber + n
  let s := s.setLane l { x with berFrom := if past then s.time.raw else x.berFrom, ber := k }
  if w.2 ≤ k then s.raise (F.LANE_STAT_HIBER l) else s

/-- R312, R314: a carriage closes on a raw lane. `ws` are its line bits or blocks; for PCS66, `count` blocks, the start
block's index and its time at the ball, and whether every block is idle. Pending slips take effect (R315). -/
def State.rawReceive (s : State) (l : Nat) (ws : List Word) (count : Nat) (start : Option (Fin 10)) (ball : Word)
    (idle : Bool) : State :=
  if !s.rawReceives l then s
  else if s.laneUse l = 3 then
    let x := s.laneSt l
    let s := s.setLane l { x with slip := 0, boundary := (x.boundary + x.slip) % 768 }
    s.rawArrive l ws
  else
    let s := s.bump (F.LANE_CNT_BADSH l) (countBlocks badHeader ws count)
    let s := s.berNote l (countBlocks badHeader ws count)
    let s := s.bump (F.LANE_CNT_ERRBLK l) (countBlocks errorBlock ws count)
    let t := s.pcsTail l count start ball
    if idle && s.is (F.LANE_RXCTL_IDLEDROP l) then s
    else s.rawArrive l ((List.range 14).map (fun i => ws.getD i 0) ++ [t.1, t.2])
def execRawReceive (l : Fin 64) (ws : List Word) (count : Fin 11) (start : Option (Fin 10)) (ball : Word) (idle : Bool)
    (s : State) : Ans :=
  .next (s.rawReceive l ws count start ball idle)

/-- A block that is neither a terminate nor an idle block (Clause 49 block types). -/
def blockOpen (v : Nat) : Bool :=
  !(v % 4 == 2 && !errorBlock v && [0x1E, 0x87, 0x99, 0xAA, 0xB4, 0xCC, 0xD2, 0xE1, 0xFF].contains (v / 4 % 256))

/-- A transmit boundary of a raw lane: the carriage at the head of its FIFO leaves, or the lane underruns (R313); in
FREEZE it sends the underrun pattern whatever waits (Table 13-3). -/
def State.txBoundary (s : State) (l : Nat) : State :=
  let x := s.laneSt l
  let put (s : State) (b : LaneSent) : State := { s with laneOut := s.laneOut ++ [(l, b)] }
  if !s.rawOn l || s.is (F.LANE_STAT_EIDLE l) || s.is (F.LANE_PRBS_GEN l) || s.mode.ov.safeHold || s.mode.ov.valley then s
  else
    match x.tx with
    | ws :: rest =>
      if s.mode.ov.freeze then under s x put
      else if s.laneUse l = 3 then put (s.setLane l { x with tx := rest }) (.carriage ws)
      else
        let w := (ws.getD 14 0).toNat
        let n := (ws.getD 15 0).toNat % 16
        put (s.setLane l { x with
              tx := rest
              stamp := if bitOf 47 w then some (w % 65536) else none
              openFrame := blockOpen (pcsBlock ws (n - 1)) }) (.carriage ws)
    | [] => under s x put
where
  /-- The underrun. -/
  under (s : State) (x : LaneSt) (put : State → LaneSent → State) : State :=
    let s := s.bump (F.LANE_RAWCNT_UNDERRUN l) 1
    put s (if s.laneUse l = 3 then .fill else if x.openFrame then .errorBlock else .idleBlock)
def execUnderrun (l : Fin 64) (s : State) : Ans := .next (s.txBoundary l)

/-! ## Timestamp points -/

/-- R258, R259: the start block whose stamp was asked for leaves the transmit ball at `t`. -/
def State.laneStamp (s : State) (l : Nat) (t : Word) : State :=
  let x := s.laneSt l
  match x.stamp with
  | none => s
  | some id => (s.setLane l { x with stamp := none }).forEach (List.range 8) fun s i => s.txStamp i id l t
def execTxStamp (l : Fin 64) (t : Word) (s : State) : Ans := .next (s.laneStamp l t)

/-- R259: a read of TXQID on a path; the debug path peeks. -/
def State.txqidRead (s : State) (i : Nat) (p : Path) : State :=
  let v := s.txqidValue i
  { s.txqidPop i (p == .debug) with readOut := (p, BitVec.ofNat 64 v) }
def execTxqidRead (i : Fin 8) (p : Path) (s : State) : Ans := .next (s.txqidRead i p)

end Sys2Proof.Machine
end

