-- ==== Sys2Proof/Machine/MemOps.lean ====
section
/-! DEFINITION. What block memories and queue controllers do below their commands: configuration, pointers, status
word, checked reads, writes, pushes and pops, and the rewind of a protected field (R125 to R146, R158 to R167). -/
namespace Sys2Proof.Machine

/-! ## Configuration and pointers -/

def State.bmMode (s : State) (f j : Nat) : Nat := s.get (F.FLD_BM_CFG_MODE f j)
/-- R125: the LIGHT code, under which words carry tags. -/
def State.bmLight (s : State) (f j : Nat) : Bool := s.is (F.FLD_BM_CFG_CODE f j)
/-- R139: SIZE in words, and BASE with its low bits treated as 0. -/
def State.bmSize (s : State) (f j : Nat) : Nat := 16 * 2 ^ s.get (F.FLD_BM_CFG_SIZEL f j)
def State.bmBase (s : State) (f j : Nat) : Nat := s.get (F.FLD_BM_CFG_BASE f j) / s.bmSize f j * s.bmSize f j
/-- The word of the array a pointer names. -/
def State.bmSlot (s : State) (f j p : Nat) : Nat := (s.bmBase f j + p % s.bmSize f j) % 2048
/-- R144: pushes are stamped; STAMP 3 acts as 0. -/
def State.bmStamp (s : State) (f j : Nat) : Nat := s.get (F.FLD_BM_CFG_STAMP f j) % 3
def State.bmStamped (s : State) (f j : Nat) : Nat := bit (s.bmStamp f j != 0)
/-- R142: words of a message, and with its stamp. -/
def State.bmMsg (s : State) (f j : Nat) : Nat := s.get (F.FLD_BM_CFG_MSGL f j) + 1
def State.bmMsgAll (s : State) (f j : Nat) : Nat := s.bmMsg f j + s.bmStamped f j
/-- Words of one entry: a word with its stamp, or a message. -/
def State.bmEntry (s : State) (f j : Nat) : Nat := if s.bmMode f j = 3 then s.bmMsgAll f j else 1 + s.bmStamped f j
def State.isProtected (s : State) (f : Nat) : Bool := s.is (F.FLD_PROT_EN f)
/-- R142, R161: the producer, and in a protected field the consumer, is the spine. -/
def State.spineFeeds (s : State) (f j : Nat) : Bool := s.is (F.FLD_BM_CFG_MBSRC f j)
def State.spineDrains (s : State) (f j : Nat) : Bool := bitOf (j % 32) (s.reg (R.FLD_PQOUT f (j / 32)))

/-- The difference of two 12-bit word counts. -/
def gap (a b : Nat) : Nat := (a + 4096 - b % 4096) % 4096
/-- R145: CRP and CWP; in an unprotected field they follow RP and WP. -/
def State.crpOf (s : State) (f : Nat) (q : QCtl) : Nat := if s.isProtected f then q.crp else q.q.rp
def State.cwpOf (s : State) (f : Nat) (q : QCtl) : Nat := if s.isProtected f then q.cwp else q.q.wp
/-- R145: room for `n` more words, measured from CRP. -/
def State.bmRoom (s : State) (f j n : Nat) : Bool :=
  let q := s.queue (memKey f j)
  decide (gap q.q.wp (s.crpOf f q) + n ≤ s.bmSize f j)

/-- Words a consumer can pop: the entries up to `limit`. In a MAILBOX these are complete messages (R142): the last ends where
the open one begins, and a message that reaches beyond `limit` is none. -/
def State.bmAvail (s : State) (f j limit : Nat) : Nat :=
  let q := (s.queue (memKey f j)).q
  if s.bmMode f j = 3 then
    let full := gap (q.wp + 4096 - q.opened) q.rp
    let n := s.bmMsgAll f j
    full - (full - gap limit q.rp + n - 1) / n * n
  else gap limit q.rp
/-- R161: what a fabric pop sees, and what a spine pop sees. -/
def State.fabricLimit (s : State) (f j : Nat) : Nat :=
  let q := s.queue (memKey f j)
  if s.isProtected f && s.is (F.FLD_PROT_INSNAP f) && s.spineFeeds f j then q.cwp else q.q.wp
def State.spineLimit (s : State) (f j : Nat) : Nat := s.cwpOf f (s.queue (memKey f j))

/-- Table 6-6: OCC in its units. -/
def State.bmOcc (s : State) (f j : Nat) : Nat :=
  let q := (s.queue (memKey f j)).q
  match s.bmMode f j with
  | 0 => 0
  | 3 => (s.bmAvail f j q.wp + s.bmMsgAll f j - 1) / s.bmMsgAll f j
  | _ => gap q.wp q.rp

/-- Table 6-6: the queue bits of ST, after all the commands so far. -/
def State.stQueueBits (s : State) (f j : Nat) : Nat :=
  if s.bmMode f j = 0 then 0
  else
    let q := s.queue (memKey f j)
    let occ := s.bmOcc f j
    2 ^ 18 * occ + 2 ^ 17 * bit q.q.stop + 2 ^ 16 * s.get (F.FLD_BM_Q_OVF f j) +
      2 ^ 15 * bit (decide (occ ≤ s.get (F.FLD_BM_WM_LWM f j))) +
      2 ^ 14 * bit (decide (s.get (F.FLD_BM_WM_HWM f j) ≤ occ)) +
      2 ^ 13 * bit (decide (s.bmSize f j < gap q.q.wp (s.crpOf f q) + s.bmEntry f j)) + 2 ^ 12 * bit (occ == 0)

/-! ## The array -/

/-- The word as written, under the memory's code: under STRONG a tag reads as 0 (R126). -/
def State.bmCell (s : State) (f j : Nat) (data : Word) (tag : BitVec 4) : BmCell :=
  ⟨data, if s.bmLight f j then tag else 0⟩
/-- A write of a word: it removes any earlier error, so a pending write-back of the word is void (R125, R128). -/
def State.arrayWrite (s : State) (f j w : Nat) (c : BmCell) : State :=
  let k := memKey f j
  let s := s.setWord k w (some c)
  let q := s.queue k
  if q.backs.isEmpty then s else s.setQueue k { q with backs := q.backs.filter fun b => b.word != w }

/-- R159, R160: the first fabric write to a word in a frame takes a write-buffer entry; the 65th overflows. -/
def State.bufferWord (s : State) (f j w : Nat) : State :=
  if !s.isProtected f then s
  else
    let k := memKey f j
    let q := s.queue k
    if q.wbuf.any (fun e => e.1 == w) then s
    else if q.wbuf.length < 64 then
      let s := s.setQueue k { q with wbuf := (w, s.word k w) :: q.wbuf }
      if s.get (F.FLD_BUFMAX_ENTRIES f) < q.wbuf.length + 1 then
        (s.put (F.FLD_BUFMAX_ENTRIES f) (q.wbuf.length + 1)).put (F.FLD_BUFMAX_BLOCK f) j
      else s
    else
      let t := (s.setQueue k { q with overflow := true }).raise (F.FLD_PROTSTAT_UNPROT f)
      if q.overflow then t else t.logOpen (fieldSrc f) j
/-- A fabric WRITE or ATOMIC, or a push that overwrites. -/
def State.fabricWrite (s : State) (f j w : Nat) (c : BmCell) : State := (s.bufferWord f j w).arrayWrite f j w c

/-- Where a read came from, the SRC codes of BMELOC. -/
inductive ReadFrom where
  | port | spine | patrol
  deriving DecidableEq, Repr
def ReadFrom.code : ReadFrom → Nat | .port => 0 | .spine => 1 | .patrol => 2

/-- What a checked read gives. -/
structure ReadOut where
  state : State
  cell : BmCell
  pois : Bool
  corrected : Bool

/-- BMELOC takes the last error. -/
def State.noteError (s : State) (f j w kind src : Nat) : State :=
  s.setReg (R.FLD_BMELOC f) (2 ^ 30 * kind + 2 ^ 28 * src + 2 ^ 19 * j + 256 * w)

/-- R127, R128, R151: a word is read and checked. A word never written holds open contents (R148). -/
def State.checkRead (s : State) (f j w : Nat) (chk : ReadCheck) (src : ReadFrom) : ReadOut :=
  let k := memKey f j
  let p : BmCell × State :=
    match s.word k w with
    | some c => (c, s)
    | none =>
      let a := s.freeWord
      let b := a.2.freeWord
      (s.bmCell f j a.1 (b.1.extractLsb' 0 4), b.2)
  let c : BmCell := ⟨p.1.data ^^^ chk.flip, p.1.tag⟩
  let s := p.2
  match chk.syn with
  | .zero => ⟨s, c, false, false⟩
  | .corrected =>
    let s := ((s.bump (F.FLD_BMECC_CORR f) 1).noteError f j w 1 src.code).see 1 f
    let q := s.queue k
    ⟨s.setQueue k { q with backs := (q.backs.filter fun b => b.word != w) ++ [⟨w, c.data, c.tag⟩] }, c, false, true⟩
  | .uncorrectable =>
    let s := (s.bump (F.FLD_BMECC_UNC f) 1).noteError f j w 2 src.code
    let x := s.fld f
    let s := if s.newTick x.uncorrTick then
        (s.setFld f { x with uncorrTick := some s.time.tick }).logEntry 0x084 (fieldSrc f) j 0
      else s
    ⟨s.post 0x084 (fieldSrc f) j, c, true, false⟩

/-- R161: the saved entry of a word in the write buffer. -/
def State.saved (s : State) (f j w : Nat) : Option (Option BmCell) :=
  if s.isProtected f then ((s.queue (memKey f j)).wbuf.find? fun e => e.1 == w).map (·.2) else none
/-- A spine read of a word: its committed value, checked (R161). A saved word that had never been written holds open
contents, and the read may report any outcome (R148). -/
def State.spineRead (s : State) (f j w : Nat) (chk : ReadCheck) : ReadOut :=
  match s.saved f j w with
  | some (some c) => ⟨s, c, false, false⟩
  | some none =>
    let a := s.freeWord
    let b := a.2.freeWord
    ⟨b.2, s.bmCell f j a.1 (b.1.extractLsb' 0 4), decide (chk.syn = .uncorrectable), decide (chk.syn = .corrected)⟩
  | none => s.checkRead f j w chk .spine
/-- A spine write of a word: its saved value, or the array (R161). -/
def State.spineWrite (s : State) (f j w : Nat) (c : BmCell) : State :=
  match s.saved f j w with
  | some _ =>
    let k := memKey f j
    let q := s.queue k
    s.setQueue k { q with wbuf := q.wbuf.map fun e => if e.1 = w then (w, some c) else e }
  | none => s.arrayWrite f j w c

/-! ## Pushes and pops -/

/-- R144: the stamp of a push in work cycle t; 0 when the field runs no frame. -/
def State.stampWord (s : State) (f j t : Nat) : Word :=
  let x := s.fld f
  match x.phase with
  | .frame | .late | .lateDone =>
    if s.bmStamp f j = 1 then x.frameTime + BitVec.ofNat 48 (t * 65536000 / x.mhz)
    else BitVec.ofNat 48 ((x.frameTick % 2 ^ 24) * 2 ^ 24 + t % 2 ^ 24)
  | _ => 0

/-- Q.OVF is set; its change from 0 to 1 posts QUEUE_OVF (R140). -/
def State.queueOvf (s : State) (f j : Nat) : State :=
  if s.is (F.FLD_BM_Q_OVF f j) then s else (s.raise (F.FLD_BM_Q_OVF f j)).post 0x083 (fieldSrc f) j

/-- The words a push writes: the data word, and its stamp when `stamp`. -/
def State.pushWords (s : State) (f j t : Nat) (data : Word) (tag : BitVec 4) (stamp : Bool) : List BmCell :=
  if stamp then [s.bmCell f j data tag, s.bmCell f j (s.stampWord f j t) tag] else [s.bmCell f j data tag]

/-- Words written at WP onward by `put`: a push into free space writes the array, one that overwrites entries writes as the
fabric does, and the spine's writes as R161 says. -/
def State.writeAtWp (s : State) (f j : Nat) (put : State → Nat → Nat → Nat → BmCell → State) (cs : List BmCell) : State :=
  let k := memKey f j
  cs.foldl (fun s c =>
    let s := put s f j (s.bmSlot f j (s.queue k).q.wp) c
    let q := s.queue k
    s.setQueue k { q with q := { q.q with wp := (q.q.wp + 1) % 4096 } }) s
/-- Who pushes, with how its words are written. -/
def pushPut (spine fabric : Bool) : State → Nat → Nat → Nat → BmCell → State :=
  if spine then State.spineWrite else if fabric then State.fabricWrite else State.arrayWrite

/-- R141: a push performed after a TRIG counts; the push that brings the count to 0 stops the ring at the end of its
cycle. -/
def State.countPost (s : State) (f j : Nat) (st : Nat × Nat) : State :=
  let k := memKey f j
  let q := s.queue k
  match q.q.post with
  | none => s
  | some n =>
    if n ≤ 1 then s.setQueue k { q with q := { q.q with post := none, stop := true }, stopStamp := some st }
    else s.setQueue k { q with q := { q.q with post := some (n - 1) } }

/-- R140: a FIFO push. -/
def State.pushFifo (s : State) (f j t : Nat) (spine : Bool) (data : Word) (tag : BitVec 4) : State :=
  let cs := s.pushWords f j t data tag (s.bmStamped f j == 1)
  if s.bmRoom f j cs.length then s.writeAtWp f j (pushPut spine false) cs else s.queueOvf f j

/-- R140, R141, R145, R161: a RING push in cycle `st`. Without room from CRP on it overwrites the word at CRP, so in a
protected field it is dropped while a word lies between CRP and RP. -/
def State.pushRing (s : State) (f j t : Nat) (st : Nat × Nat) (spine : Bool) (data : Word) (tag : BitVec 4) : State :=
  let k := memKey f j
  let q := s.queue k
  let cs := s.pushWords f j t data tag (s.bmStamped f j == 1)
  if q.q.stop && q.stopStamp != some st then s
  else if s.bmRoom f j cs.length then (s.writeAtWp f j (pushPut spine false) cs).countPost f j st
  else if s.isProtected f && (s.spineDrains f j || decide (0 < gap q.q.rp q.crp)) then s.queueOvf f j
  else
    let s := s.writeAtWp f j (pushPut spine true) cs
    let q := s.queue k
    let rp := if gap q.q.wp q.q.rp ≤ s.bmSize f j then q.q.rp else (q.q.rp + cs.length) % 4096
    ((s.setQueue k { q with q := { q.q with rp := rp } }).raise (F.FLD_BM_Q_OVW f j)).countPost f j st

/-- R142: a word of a MAILBOX message. -/
def State.pushMail (s : State) (f j t : Nat) (spine : Bool) (data : Word) (tag : BitVec 4) : State :=
  let k := memKey f j
  let q := s.queue k
  let n := s.bmMsg f j
  if 0 < q.q.refusing then s.setQueue k { q with q := { q.q with refusing := q.q.refusing - 1 } }
  else if q.q.opened = 0 && !s.bmRoom f j (s.bmMsgAll f j) then
    (s.setQueue k { q with q := { q.q with refusing := n - 1 } }).queueOvf f j
  else
    let last := decide (n ≤ q.q.opened + 1)
    let s := s.writeAtWp f j (pushPut spine false) (s.pushWords f j t data tag (last && s.bmStamped f j == 1))
    let q := s.queue k
    s.setQueue k { q with q := { q.q with opened := if last then 0 else q.q.opened + 1 } }

/-- A push under the queue mode (Table 6-8), in work cycle `t`, the cycle `st` of the frame. -/
def State.pushWord (s : State) (f j t : Nat) (st : Nat × Nat) (spine : Bool) (data : Word) (tag : BitVec 4) : State :=
  match s.bmMode f j with
  | 1 => s.pushFifo f j t spine data tag
  | 2 => s.pushRing f j t st spine data tag
  | 3 => s.pushMail f j t spine data tag
  | _ => s

/-- RP advances past one popped word. -/
def State.advanceRp (s : State) (f j : Nat) : State :=
  let k := memKey f j
  let q := s.queue k
  s.setQueue k { q with q := { q.q with rp := (q.q.rp + 1) % 4096 } }

/-! ## Clocks and enables -/

/-- R192: the fields that a load keeps from running frames, from their stop on. -/
def State.reshaping (s : State) (f : Nat) : Bool :=
  match s.cfg.load with
  | some l => l.stopped.any fun e => e.1 == f
  | none => false

/-- R130: the field's memory clock runs. -/
def State.memClock (s : State) (f : Nat) : Bool :=
  s.configured f && s.domainOn (4 + f) && !(s.fld f).drained && !s.mode.suspended &&
    (match s.mode.base with | .staged | .locking | .run | .holdover => true | _ => false)

/-- R54: the FLD block counts as enabled: its field runs frames, is in overrun, STUCK or halted, or was so when
SAFE-HOLD or FREEZE began. -/
def State.fldEnabled (s : State) (f : Nat) : Bool :=
  s.configured f && !(s.fld f).drained && !s.reshaping f && (!decide ((s.fld f).phase = .idle) || s.mode.ov.halt) &&
    (match s.mode.top with
     | .bare | .loading | .staged | .locking | .valley | .selfTest => false
     | _ => true)

/-! ## The rewind of a protected field -/

/-- R85: the registers of a cell restored from their shadow; wire-clocked ones are not. -/
def restoreCell (c : CellCfg) (x : CellSt) : CellSt :=
  let c := x.alt.getD c
  let g (r : Nat) : Word := if c.wired r then x.now.get r else x.shadow.get r
  { x with now := { x.shadow with a := g 0, b := g 1, c := g 2, d := g 3 } }
/-- The shadow a cell captures: wire-clocked registers have none and read 0 (R85, R88). -/
def captureCell (c : CellCfg) (x : CellSt) : CellSt :=
  let c := x.alt.getD c
  let g (r : Nat) : Word := if c.wired r then 0 else x.now.get r
  { x with shadow := { x.now with a := g 0, b := g 1, c := g 2, d := g 3 } }

/-- R164: the queue of one memory rewound: buffered words, with no correction of them left to write back (R128); pointers of
the fabric's sides, STOP and the counts, RA, RB and ST. -/
def State.rewindQueue (s : State) (f j : Nat) : State :=
  let k := memKey f j
  let s := (s.queue k).wbuf.foldl (fun s e => s.setWord k e.1 e.2) s
  let q := s.queue k
  if q = QCtl.zero then s
  else
    let wp := if s.spineFeeds f j then q.q.wp else q.shadow.wp
    let rp := if s.spineDrains f j then q.q.rp else q.crp
    let backs := q.backs.filter fun b => !q.wbuf.any fun e => e.1 == b.word
    s.setQueue k { q with
      q := { q.shadow with wp := wp, rp := rp }, before := [], backs := backs, wbuf := [], overflow := false }

/-- R164: every shadowed register of the field restored, and the memories and queues rewound. -/
def State.rewindFabric (s : State) (f : Nat) : State :=
  let cfg (k : Nat) : CellCfg := ((s.image f).map fun i => i.cell (k - 16384 * f)).getD CellCfg.unused
  let s : State := { s with
    cells := SMap.mapIn CellSt.zero (16384 * f) (16384 * (f + 1)) (fun k x => restoreCell (cfg k) x) s.cells,
    slices := SMap.mapIn SliceSt.zero (512 * f) (512 * (f + 1)) (fun _ x => { x with now := x.shadow }) s.slices,
    segs := SMap.mapIn SegSt.zero (2048 * f) (2048 * (f + 1)) (fun _ x => { x with value := x.shadow, prev := x.shadow }) s.segs }
  s.forEach (List.range 192) fun s j => s.rewindQueue f j

/-- A buffer overflowed in this frame (R160). -/
def State.overflowed (s : State) (f : Nat) : Bool := (List.range 192).any fun j => (s.queue (memKey f j)).overflow

def ReplaySource.code : ReplaySource → Nat | .config => 0 | .contention => 1 | .blockMem => 2 | .chkfail => 3

/-- R165: the carriages that a field's NIs hold are discarded. -/
def State.discardHeld (s : State) (f : Nat) : State :=
  s.forEach (fieldNis f) fun s n =>
    let y := s.ni n
    let seqs := y.release.map fun p => (p.1.pkt.headD Carriage.zero).seq
    let keep := y.trackers.filter (fun t => !(seqs.contains (t.pkt.headD Carriage.zero).seq))
    s.setNi n { y with release := [], trackers := keep }
/-- R165: the frame fails: its outputs will be kept back, its held carriages are discarded. -/
def State.failFrame (s : State) (f : Nat) : State :=
  let x := s.fld f
  if x.failed then s
  else
    let frozen := s.is (F.FLD_SNAPSTAT_DRAIN f)
    let s := (s.setFld f { x with failed := true }).discardHeld f
    let s := (s.raise (F.FLD_PROTSTAT_FAILED f)).bump (F.FLD_PCNT_FAIL f) 1
    (s.logEntry 0x086 (fieldSrc f) 0 (bit frozen)).post 0x086 (fieldSrc f) 0

/-- R157: a configuration detection at cycle t comes before DONE + 2 µs. -/
def FieldSt.inWindow (x : FieldSt) (t : Nat) : Bool :=
  match x.doneAt with | some d => decide (t < d + 2 * x.mhz) | none => true
/-- R164, R167: a counting detection at absolute cycle t of the frame: rewind and wait for the repairs, or fail. The clocks
stop at the end of cycle t + 1. A further detection while the rewound frame waits is ignored, neither counted nor failing
the frame: DESIGN CHOICE (log entry 79). REPLAYING is set as the replay starts. -/
def State.detect (s : State) (f : Nat) (src : ReplaySource) (t : Nat) : State :=
  let x := s.fld f
  let inFrame := match x.phase with | .frame | .late | .lateDone => true | _ => false
  if !s.isProtected f || !inFrame || x.rewound || x.failed || (src = .config && !x.inWindow t) then s
  else
    let afterWmax := match x.doneAt with | some d => decide (s.get (F.FLD_WMAX_CYC f) < d) | none => false
    if s.is (F.FLD_PROTSTAT_REPLAYING f) || s.overflowed f || s.is (F.FLD_SNAPSTAT_DRAIN f) || afterWmax then
      s.failFrame f
    else
      let s := (s.rewindFabric f).rewindNis f
      let phase := if x.phase = .lateDone then FieldPhase.late else x.phase
      let s := s.setFld f { s.fld f with
        phase := phase, rewound := true, doneAt := none, captured := false, cycle := max x.cycle (t + 1) }
      let s := (s.clear (F.FLD_PROTSTAT_VERIFIED f)).bump (F.FLD_PCNT_REPLAY f) 1
      (s.logEntry 0x085 (fieldSrc f) t 0).post 0x085 (fieldSrc f) src.code

/-- Table 7-2: a detection that counts only before DONE. -/
def State.detectBeforeDone (s : State) (f : Nat) (src : ReplaySource) (t : Nat) : State :=
  if (s.fld f).doneAt.isNone then s.detect f src t else s

end Sys2Proof.Machine
end

