-- ==== Sys2Proof/Machine/Snapshot.lean ====
section
/-! DEFINITION. The drain of a snapshot (R168, Table 7-6): the lines of a field's frozen shadows, written as best-effort WR_LINE
requests of its three NIs. -/
namespace Sys2Proof.Machine

/-- Relays of a field, and the lines of its snapshot. -/
def State.relays (s : State) (f : Nat) : Nat := match s.image f with | some i => min 1920 i.relays.length | none => 0
def State.snapLines (s : State) (f : Nat) : Nat := 6857 + (s.relays f + 15) / 16

/-- Six words of a cell: A to D, output latch, flags. -/
def snapCell (r : CellRegs) : List Word := [r.a, r.b, r.c, r.d, r.latch, BitVec.ofNat 48 (flagsCode r.fl)]
/-- The 16 words of a slice. -/
def snapSlice (r : SliceRegs) : List Word :=
  let acc (a : BitVec 112) : List Word := [a.extractLsb' 0 48, a.extractLsb' 48 48, (a.extractLsb' 96 16).zeroExtend 48]
  [r.a, r.b, r.c, r.x, r.xd, r.latch, BitVec.ofNat 48 (flagsCode r.fl)] ++ acc r.acc0 ++ acc r.acc1 ++ [0, 0, 0]
/-- The words of a queue, with its CRP and CWP. -/
def snapQueue (r : QRegs) (c : Nat × Nat) : List Word :=
  let n (k : Nat) : Word := BitVec.ofNat 48 k
  [n r.wp, n r.rp, n c.1, n c.2, n (bit r.stop), n (r.post.getD 0), n r.opened, r.ra, r.rb, r.st]
/-- Table 7-6: line l of the snapshot of field f. -/
def State.snapLine (s : State) (f l : Nat) : List Word :=
  let n (k : Nat) : Word := BitVec.ofNat 48 k
  if l = 0 then [n (s.fld f).snapTick, (s.fld f).snapTime, n f, n (s.snapLines f), n (s.fld f).snapOp]
  else if l < 6145 then
    (List.range 16).map fun w =>
      let i := 16 * (l - 1) + w
      (snapCell (s.cell (16384 * f + i / 6)).shadow).getD (i % 6) 0
  else if l < 6657 then snapSlice (s.slice (sliceKey f (l - 6145))).shadow
  else if l < 6849 then
    let q := s.queue (memKey f (l - 6657))
    snapQueue q.shadow q.snapC
  else
    (List.range 16).map fun w =>
      let r := 16 * (l - 6849) + w
      if r < 128 + s.relays f then (s.seg (segKey f r)).shadow else 0

/-- A line's acknowledgement, or the answer that takes its place. -/
def State.snapAck (s : State) (f status : Nat) : State :=
  let s := if status = stOk then s else s.raise (F.FLD_SNAPSTAT_ERR f)
  s.setFld f { s.fld f with snapLeft := (s.fld f).snapLeft - 1 }
/-- A drain's write is best effort: it does not wait for the release of its protected field. -/
def State.unhold (s : State) (n : Nat) (f : Nat) : State :=
  let x := s.ni n
  let mine := x.release.filter fun p => p.2 == Use.snap f
  s.setNi n { x with release := x.release.filter fun p => !(p.2 == Use.snap f), inj := x.inj ++ mine.map (·.1) }
/-- The next line is handed to its NI, if that takes it: line l goes through NI 3f + l mod 3. -/
def State.snapOne (s : State) (f : Nat) : State :=
  let x := s.fld f
  let l := x.snapNext
  let n := 3 * f + l % 3
  if !s.is (F.FLD_SNAPSTAT_DRAIN f) || decide (s.snapLines f ≤ l) || !s.txReady n tWrLine 0 then s
  else
    let ws := s.snapLine f l
    let base := s.pair (R.FLD_SNAPADDR_LO f) (R.FLD_SNAPADDR_HI f) / 16 * 16
    let q : Request := {
      typ := tWrLine, len := 0, addr := BitVec.ofNat 48 (base + 16 * l), utag := 0, mask := 0xFFFF, guar := false,
      fence := false, ord := false, ctx := s.get (F.NI_CTL_CTX n), dev := s.devid.toNat,
      words := (List.range 16).map fun i => (i, ws.getD i 0) }
    let t := (s.setFld f { x with snapNext := l + 1 }).niTake n q (.snap f)
    match t.answer with
    | some c => t.state.snapAck f c.status
    | none => (t.state.unhold n f).pump n
/-- The drain goes on as far as the NIs take lines. -/
def State.snapPump (s : State) (f : Nat) : State := (List.range 48).foldl (fun s _ => s.snapOne f) s
/-- The snapshot tick: the shadows are frozen and the drain begins. A second SNAP while a drain runs begins it anew from line 0, with
this tick and a new count, at the field's next frame start, which R168 leaves open: DESIGN CHOICE (log entry 79). -/
def State.snapStart (s : State) (f : Nat) : State :=
  let x := s.fld f
  let s := s.raise (F.FLD_SNAPSTAT_DRAIN f)
  let s : State := { s with
    queues := SMap.mapIn QCtl.zero (192 * f) (192 * (f + 1)) (fun _ q => { q with snapC := (s.crpOf f q, s.cwpOf f q) }) s.queues }
  let s := s.setFld f { x with
    snapWait := false
    snapNext := 0
    snapTick := s.time.tick
    snapTime := s.time.lastT
    snapOp := s.get F.PWR_OPSTAT_OPCUR
    snapLeft := s.snapLines f }
  s.snapPump f

end Sys2Proof.Machine
end

