-- ==== Sys2Proof/Machine/BlockMem.lean ====
section
/-! DEFINITION. The commands of block memories: port commands (Table 6-5), the spine's word accesses, write-backs, the
patrol and the zero fill (R125 to R152). -/
namespace Sys2Proof.Machine

/-! ## Port commands -/

/-- PA is 1 and PB is 2 in the order of R133. -/
def BmPortSel.order : BmPortSel → Nat | .pa => 1 | .pb => 2

/-- What stands at a port in a cycle: the fields of its command word (Table 6-4) and its data word. -/
structure PortIn where
  cmd : Nat
  aop : Nat
  tag : BitVec 4
  addr : Nat
  data : Word
  deriving DecidableEq, Repr

/-- R131, R132: the command and data words at a port, from the output tracks of the attached cluster that the memory's
configuration word chooses (Table 6-3). -/
def State.portIn (s : State) (i : FieldImage) (o : BmOp) (st : Nat × Nat) : PortIn :=
  let c := (lookupD i.bmWords o.mem 0x84210).toNat
  let lo := match o.port with | .pa => 0 | .pb => 10
  let word (at_ : Nat) : Word := s.port16 i o.field (memCluster o.mem) st (bitsOf at_ 5 c)
  let w := (word lo).toNat
  { cmd := bitsOf 12 4 w, aop := bitsOf 21 3 w, tag := BitVec.ofNat 4 (bitsOf 16 4 w), addr := bitsOf 0 11 w,
    data := word (lo + 5) }

/-- The memory comes to cycle `st`: RA, RB and ST as they stood stay to be shown (R132), and no port has acted in it. -/
def State.memCycle (s : State) (f j : Nat) (st : Nat × Nat) : State :=
  let k := memKey f j
  let q := s.queue k
  if q.stamp = st then s
  else
    s.setQueue k { q with stamp := st, acted := 0, paWrote := [], q := { q.q with st := 0 },
                          before := (⟨q.stamp, q.q.ra, q.q.rb, q.q.st⟩ :: q.before).take 3 }
/-- R137: port B's slot of cycle `st`, or of a later one, is taken. -/
def QCtl.slotTaken (q : QCtl) (st : Nat × Nat) : Bool :=
  match q.slotAt with | some a => a.1 == st.1 && decide (st.2 ≤ a.2) | none => false
def State.takeSlot (s : State) (f j : Nat) (st : Nat × Nat) : State :=
  s.setQueue (memKey f j) { s.queue (memKey f j) with slotAt := some st }
/-- Table 6-6: OCC and the queue bits of ST are those after all the commands of the cycle, the spine's words included. -/
def State.refreshSt (s : State) (f j : Nat) : State :=
  let k := memKey f j
  let q := s.queue k
  s.setQueue k { q with q := { q.q with st := BitVec.ofNat 48 (s.stQueueBits f j + bitsOf 0 12 q.q.st.toNat) } }

/-- R132, R133: a port may act: its cluster executes the cycle, the port and those after it have not yet acted in it, and
what takes port B's slot has not. -/
def State.portReady (s : State) (o : BmOp) : Bool :=
  let q := s.queue (memKey o.field o.mem)
  let st := (s.fld o.field).stamp o.cycle
  s.executes o.field o.cycle && !(q.stamp == st && decide (o.port.order ≤ q.acted)) && !q.slotTaken st

/-- What a port command returns: the word for RA or RB (none leaves it), VAL, POIS and the tag read. -/
structure PortOut where
  data : Option Word
  val : Bool
  pois : Bool
  tag : BitVec 4
  deriving DecidableEq, Repr

/-- A command that returns no data. -/
def PortOut.none : PortOut := ⟨Option.none, false, false, 0⟩

/-- The port command begins; one of PB but IDLE takes the slot. -/
def State.portBegin (s : State) (o : BmOp) (st : Nat × Nat) (idle : Bool) : State :=
  let k := memKey o.field o.mem
  let s := s.memCycle o.field o.mem st
  let s := s.setQueue k { s.queue k with acted := o.port.order }
  if o.port = .pb && !idle then s.takeSlot o.field o.mem st else s

/-- R132, Table 6-6: RA or RB and ST take the command's result; the other port's bits are those of the same cycle. -/
def State.portEnd (s : State) (o : BmOp) (r : PortOut) : State :=
  let f := o.field.val
  let j := o.mem.val
  let k := memKey f j
  let q := s.queue k
  let own := match o.port with
    | .pa => 2 ^ 10 * bit r.val + 2 ^ 8 * bit r.pois + r.tag.toNat
    | .pb => 2 ^ 11 * bit r.val + 2 ^ 9 * bit r.pois + 16 * r.tag.toNat
  let other := match o.port with
    | .pa => 0
    | .pb => q.q.st.toNat % 16 + 2 ^ 8 * bitsOf 8 1 q.q.st.toNat + 2 ^ 10 * bitsOf 10 1 q.q.st.toNat
  let st : Word := BitVec.ofNat 48 (s.stQueueBits f j + own + other)
  let ra := if o.port = .pa then r.data.getD q.q.ra else q.q.ra
  let rb := if o.port = .pb then r.data.getD q.q.rb else q.q.rb
  s.setQueue k { q with q := { q.q with ra := ra, rb := rb, st := st } }

/-- R133: words a port writes: PA's are noted, and PB's write of one of them sets PCONF. -/
def State.noteWrites (s : State) (o : BmOp) (ws : List Nat) : State :=
  let k := memKey o.field o.mem
  let q := s.queue k
  match o.port with
  | .pa => s.setQueue k { q with paWrote := ws }
  | .pb => if ws.any q.paWrote.contains then s.raise (F.FLD_BM_Q_PCONF o.field o.mem) else s

/-- The turn of a memory's port in a cycle: its field comes to it. -/
def State.portTurn (s : State) (o : BmOp) : State := s.comeTo o.field ((s.fld o.field).base + o.cycle)
/-- A port command as a whole: performed where the word at the port is the command's (`fits`). An uncorrectable read is
reported to the replay logic (R151). -/
def State.port (s : State) (o : BmOp) (fits : PortIn → Bool) (g : PortIn → State → State × PortOut) : State :=
  match s.image o.field with
  | none => s
  | some i =>
    if !s.portReady o then s
    else
      let st := (s.fld o.field).stamp o.cycle
      let p := (s.portTurn o).portIn i o st
      if fits p then
        let r := g p ((s.portTurn o).portBegin o st (p.cmd == 0))
        let t := r.1.portEnd o r.2
        if r.2.pois then t.detectBeforeDone o.field .blockMem st.2 else t
      else s

/-- R134: treated as IDLE, with BADCMD set. -/
def State.badCmd (s : State) (o : BmOp) : State × PortOut := (s.raise (F.FLD_BM_Q_BADCMD o.field o.mem), .none)
/-- A checked read on a port. -/
def State.portRead (s : State) (o : BmOp) (w : Nat) (chk : ReadCheck) : State × PortOut × BmCell :=
  let r := s.checkRead o.field o.mem w chk .port
  (r.state, ⟨some r.cell.data, true, r.pois, r.cell.tag⟩, r.cell)

/-- IDLE, and what is treated as IDLE: a CMD of 9 to 15 and an AOP of 5 to 7 (R132, R134). -/
def PortIn.idles (p : PortIn) : Bool := p.cmd == 0 || decide (9 ≤ p.cmd) || (p.cmd == 6 && decide (5 ≤ p.aop))
def State.bmIdle (s : State) (o : BmOp) : State :=
  s.port o PortIn.idles fun p s => if p.cmd = 0 then (s, .none) else s.badCmd o
def execIdle (o : BmOp) (s : State) : Ans := .next (s.bmIdle o)

def State.bmRead (s : State) (o : BmOp) (chk : ReadCheck) : State :=
  s.port o (·.cmd == 1) fun p s => let r := s.portRead o p.addr chk; (r.1, r.2.1)
def execRead (o : BmOp) (chk : ReadCheck) (s : State) : Ans := .next (s.bmRead o chk)

def State.bmWrite (s : State) (o : BmOp) : State :=
  s.port o (·.cmd == 2) fun p s =>
    let s := s.noteWrites o [p.addr]
    (s.fabricWrite o.field o.mem p.addr (s.bmCell o.field o.mem p.data p.tag), .none)
def execWrite (o : BmOp) (s : State) : Ans := .next (s.bmWrite o)

/-- R134, R161: a fabric push is refused in RAM mode, into a MAILBOX the spine feeds, and into any queue the spine feeds
in a protected field. -/
def State.pushBarred (s : State) (f j : Nat) : Bool :=
  s.bmMode f j == 0 || (s.spineFeeds f j && (s.bmMode f j == 3 || s.isProtected f))
def State.bmPush (s : State) (o : BmOp) : State :=
  s.port o (·.cmd == 3) fun p s =>
    let f := o.field.val
    let j := o.mem.val
    if s.pushBarred f j then s.badCmd o
    else
      let wp := (s.queue (memKey f j)).q.wp
      let t := s.pushWord f j o.cycle ((s.fld f).stamp o.cycle) false p.data p.tag
      let n := gap (t.queue (memKey f j)).q.wp wp
      (t.noteWrites o ((List.range n).map fun i => t.bmSlot f j (wp + i)), .none)
def execPush (o : BmOp) (s : State) : Ans := .next (s.bmPush o)

/-- R134, R161: a fabric pop is refused in RAM mode and from a queue the spine drains in a protected field. -/
def State.popBarred (s : State) (f j : Nat) : Bool :=
  s.bmMode f j == 0 || (s.isProtected f && s.spineDrains f j)
/-- POP and PEEK: the head word; RP advances when `pop`. An empty queue returns 0 with VAL 0 and sets UNF (R140). -/
def State.bmHead (s : State) (o : BmOp) (chk : ReadCheck) (pop : Bool) : State :=
  s.port o (·.cmd == (if pop then 4 else 5)) fun _ s =>
    let f := o.field.val
    let j := o.mem.val
    if s.popBarred f j then s.badCmd o
    else if s.bmAvail f j (s.fabricLimit f j) = 0 then
      (s.raise (F.FLD_BM_Q_UNF f j), ⟨some 0, false, false, 0⟩)
    else
      let r := s.portRead o (s.bmSlot f j (s.queue (memKey f j)).q.rp) chk
      (if pop then r.1.advanceRp f j else r.1, r.2.1)
def execPop (o : BmOp) (chk : ReadCheck) (s : State) : Ans := .next (s.bmHead o chk true)
def execPeek (o : BmOp) (chk : ReadCheck) (s : State) : Ans := .next (s.bmHead o chk false)

/-- R147: an atomic's new value. -/
def atomicNew (aop : Nat) (old x : Word) : Word :=
  match aop with
  | 0 => old + x
  | 1 => x
  | 2 => old &&& x
  | 3 => old ||| x
  | _ => if old.toInt ≤ x.toInt then x else old
/-- R147: a port atomic: the old value is returned; an uncorrectable read writes nothing; the tag is kept. -/
def State.bmAtomic (s : State) (o : BmOp) (aop : Nat) (chk : ReadCheck) : State :=
  s.port o (fun p => p.cmd == 6 && p.aop == aop) fun p s =>
    let r := s.portRead o p.addr chk
    if r.2.1.pois then (r.1, r.2.1)
    else
      let s := r.1.noteWrites o [p.addr]
      (s.fabricWrite o.field o.mem p.addr ⟨atomicNew aop r.2.2.data p.data, r.2.2.tag⟩, r.2.1)
def execFetchAdd (o : BmOp) (chk : ReadCheck) (s : State) : Ans := .next (s.bmAtomic o 0 chk)
def execSwap (o : BmOp) (chk : ReadCheck) (s : State) : Ans := .next (s.bmAtomic o 1 chk)
def execFetchAnd (o : BmOp) (chk : ReadCheck) (s : State) : Ans := .next (s.bmAtomic o 2 chk)
def execFetchOr (o : BmOp) (chk : ReadCheck) (s : State) : Ans := .next (s.bmAtomic o 3 chk)
def execFetchMax (o : BmOp) (chk : ReadCheck) (s : State) : Ans := .next (s.bmAtomic o 4 chk)

/-- R141: TRIG arms the post-trigger count of a RING; a count of 0 stops it at once. -/
def State.bmTrig (s : State) (o : BmOp) : State :=
  s.port o (·.cmd == 7) fun p s =>
    let f := o.field.val
    let j := o.mem.val
    if s.bmMode f j = 2 then
      let k := memKey f j
      let q := s.queue k
      let n := bitsOf 0 12 p.data.toNat
      if n = 0 then
        (s.setQueue k { q with stopStamp := Option.none, q := { q.q with post := Option.none, stop := true } }, .none)
      else (s.setQueue k { q with q := { q.q with post := some n } }, .none)
    else s.badCmd o
def execTrig (o : BmOp) (s : State) : Ans := .next (s.bmTrig o)

/-- Table 6-5: RESETQ empties the queue, clears STOP and disarms the count. The partial message of a mailbox is discarded:
WP first goes back over its words, which Table 6-5 leaves open: DESIGN CHOICE (log entry 79). -/
def State.bmResetq (s : State) (o : BmOp) : State :=
  s.port o (·.cmd == 8) fun _ s =>
    let f := o.field.val
    let j := o.mem.val
    if s.bmMode f j = 0 then s.badCmd o
    else
      let k := memKey f j
      let q := s.queue k
      let wp := (q.q.wp + 4096 - q.q.opened) % 4096
      (s.setQueue k { q with crp := wp, q := { q.q with wp := wp, rp := wp, stop := false, post := Option.none,
                                                         opened := 0, refusing := 0 } }, .none)
def execResetq (o : BmOp) (s : State) : Ans := .next (s.bmResetq o)

/-! ## The port B slot: write-backs, spine words, the patrol -/

/-- R137: the port B slot of the memory cycle is free. `cyc` is the work cycle it falls in. -/
def State.slotFree (s : State) (f j cyc : Nat) : Bool :=
  s.memClock f && (s.fld f).fill.isNone && !(s.queue (memKey f j)).slotTaken ((s.fld f).stamp cyc)
/-- What takes port B's slot in cycle `cyc`: the memory comes to the cycle, the access is made, and ST follows. -/
def State.inSlot (s : State) (f j cyc : Nat) (g : State → State) : State :=
  let st := (s.fld f).stamp cyc
  ((g ((s.memCycle f j st).takeSlot f j st))).refreshSt f j

/-- R128: the oldest pending correction is written back, with the tag the word has. It takes no write-buffer entry. -/
def State.writeBack (s : State) (f j cyc : Nat) : State :=
  match (s.queue (memKey f j)).backs with
  | [] => s
  | b :: _ => if s.slotFree f j cyc then s.inSlot f j cyc fun s => s.arrayWrite f j b.word ⟨b.data, b.tag⟩ else s
def execWriteBack (f : FieldNo) (j : Fin 192) (cyc : Nat) (s : State) : Ans := .next (s.writeBack f j cyc)

/-- Table 9-6: the STATUS of a job's checks. -/
def SpineJob.status (b : SpineJob) : Nat := if b.uncorr then stUncorr else if b.corrected then stCorrected else stOk

/-- The response of a finished job (Table 9-5): words and MASK as read, or an acknowledgement. -/
def SpineJob.response (b : SpineJob) : List Carriage :=
  let c := b.req.headD Carriage.zero
  if isReadType c.typ then
    (List.range (if c.typ == tRdLine then c.len + 1 else 1)).map fun i =>
      let ws := (List.range 16).map fun w => lookupD b.got (16 * i + w) 0
      let m := BitVec.ofNat 16 ((List.range 16).foldl (fun acc w =>
        acc + bit (b.got.any fun e => e.1 == 16 * i + w) * 2 ^ w) 0)
      { replyTo c tRdResp b.status m ws with cidx := i, len := if c.typ == tRdLine then c.len else 0 }
  else if c.typ == tAtomic then
    [{ replyTo c tAtomicResp b.status c.mask (lookupD b.got 0 0 :: List.replicate 15 0) with len := 0 }]
  else [{ replyTo c tWrAck b.status c.mask [] with len := 0, cidx := 0 }]

/-- The head job leaves the block and is answered; a write it carried has been performed. -/
def State.finishJob (s : State) (f j : Nat) (b : SpineJob) (pkt : List Carriage) : State :=
  let k := memKey f j
  let q := s.queue k
  let s := s.setQueue k { q with jobs := q.jobs.drop 1 }
  let c := b.req.headD Carriage.zero
  let x := s.ni b.ni
  let s := if isReadType c.typ then s else s.setNi b.ni { x with accepted := x.accepted - 1 }
  s.reply b.ni c pkt
def State.endJob (s : State) (f j : Nat) (b : SpineJob) : State := s.finishJob f j b b.response

/-- The head job goes on: answered when no word is left. -/
def State.nextWord (s : State) (f j : Nat) (b : SpineJob) : State :=
  if b.todo.isEmpty then s.endJob f j b
  else
    let k := memKey f j
    let q := s.queue k
    s.setQueue k { q with jobs := b :: q.jobs.drop 1 }

/-- A read word joins the job, with what its check found. -/
def SpineJob.take (b : SpineJob) (i : Nat) (v : Word) (r : ReadOut) : SpineJob :=
  { b with todo := b.todo.drop 1, got := b.got ++ [(i, v)], corrected := b.corrected || r.corrected,
           uncorr := b.uncorr || r.pois }

/-- Word i of a request's payload. -/
def SpineJob.payload (b : SpineJob) (i : Nat) : Word := (b.req.getD (i / 16) Carriage.zero).word (i % 16)
/-- The word of the block a request's word i names (R136). -/
def SpineJob.word (b : SpineJob) (i : Nat) : Nat := ((b.req.headD Carriage.zero).addr.toNat + i) % 2048
/-- The tag of a spine write (R126). -/
def SpineJob.tag (b : SpineJob) : BitVec 4 := (b.req.headD Carriage.zero).utag.extractLsb' 0 4

/-- R147: a spine atomic or CAS on word w, with nothing written after an uncorrectable read or a failed compare. -/
def State.spineAtomic (s : State) (f j : Nat) (b : SpineJob) (w : Nat) (chk : ReadCheck) : State :=
  let c := b.req.headD Carriage.zero
  let aop := bitsOf 0 3 (c.word 2).toNat
  let r := s.spineRead f j w chk
  let b' := b.take 0 r.cell.data r
  if r.pois then r.state.nextWord f j b'
  else if aop = 5 then
    if r.cell.data = c.word 1 then (r.state.spineWrite f j w ⟨c.word 0, r.cell.tag⟩).nextWord f j b'
    else r.state.nextWord f j b'
  else (r.state.spineWrite f j w ⟨atomicNew aop r.cell.data (c.word 0), r.cell.tag⟩).nextWord f j b'

/-- R138: one word of a QUEUE read: a pop, or a look without popping under peek; an empty queue ends the read. -/
def State.spinePop (s : State) (f j : Nat) (b : SpineJob) (i : Nat) (chk : ReadCheck) : State :=
  let peek := decide ((b.req.headD Carriage.zero).ctx = 2)
  let ahead := if peek then b.got.length else 0
  if s.bmAvail f j (s.spineLimit f j) ≤ ahead then
    let s := if peek then s else s.raise (F.FLD_BM_Q_UNF f j)
    s.endJob f j { b with todo := [] }
  else
    let r := s.spineRead f j (s.bmSlot f j ((s.queue (memKey f j)).q.rp + ahead)) chk
    let t := if peek then r.state else r.state.advanceRp f j
    t.nextWord f j (b.take i r.cell.data r)

/-- R138: a QUEUE write waits: a FIFO has no room for its next word, or a MAILBOX none for its message. -/
def State.pushWaits (s : State) (f j : Nat) : Bool :=
  let m := s.bmMode f j
  (m == 1 && !s.bmRoom f j (1 + s.bmStamped f j)) ||
    (m == 3 && decide ((s.queue (memKey f j)).q.opened = 0) && !s.bmRoom f j (s.bmMsgAll f j))
/-- The request at the head of the block's queue waits for room. -/
def State.jobWaits (s : State) (f j : Nat) : Bool :=
  match (s.queue (memKey f j)).jobs with
  | b :: _ => decide (b.ap = .queue) && isWriteType (b.req.headD Carriage.zero).typ && !b.todo.isEmpty && s.pushWaits f j
  | [] => false
/-- R138: one word of a QUEUE write. -/
def State.spinePush (s : State) (f j cyc : Nat) (b : SpineJob) (i : Nat) : State :=
  (s.pushWord f j cyc ((s.fld f).stamp cyc) true (b.payload i) b.tag).nextWord f j { b with todo := b.todo.drop 1 }

/-- The request at the head moves one word. -/
def State.serveWord (s : State) (f j cyc : Nat) (chk : ReadCheck) : State :=
  match (s.queue (memKey f j)).jobs with
  | [] => s
  | b :: _ =>
    let c := b.req.headD Carriage.zero
    match b.todo with
    | [] => s.endJob f j b
    | i :: _ =>
      match b.ap with
      | .queue => if isReadType c.typ then s.spinePop f j b i chk else s.spinePush f j cyc b i
      | .tag =>
        let r := s.spineRead f j (b.word i) chk
        r.state.nextWord f j (b.take i (BitVec.ofNat 48 r.cell.tag.toNat) r)
      | .data =>
        if c.typ == tAtomic then s.spineAtomic f j b (b.word 0) chk
        else if isReadType c.typ then
          let r := s.spineRead f j (b.word i) chk
          r.state.nextWord f j (b.take i r.cell.data r)
        else
          (s.spineWrite f j (b.word i) (s.bmCell f j (b.payload i) b.tag)).nextWord f j
            { b with todo := b.todo.drop 1 }
/-- R452: in HALT the memory is clocked for the requests of context 2 to its DATA and TAG apertures alone, and what a read
corrects is written back at once. -/
def State.haltWord (s : State) (f j cyc : Nat) (chk : ReadCheck) : State :=
  let k := memKey f j
  let q := s.queue k
  match q.jobs.find? fun b => (b.req.headD Carriage.zero).ctx == 2 && b.ap != .queue with
  | none => s
  | some b =>
    let backs := q.backs.length
    let s := (s.setQueue k { q with jobs := b :: q.jobs.erase b }).serveWord f j cyc chk
    ((s.queue k).backs.drop backs).foldl (fun s b => s.arrayWrite f j b.word ⟨b.data, b.tag⟩) s
/-- R137: a waiting spine request moves one word, in a memory cycle whose port B slot is free of a command and of a
write-back. -/
def State.spineWord (s : State) (f j cyc : Nat) (chk : ReadCheck) : State :=
  if s.mode.top = .halt then
    if s.configured f && !(s.fld f).drained && s.domainOn (4 + f) then s.haltWord f j cyc chk else s
  else
    let q := s.queue (memKey f j)
    if !s.slotFree f j cyc || !q.backs.isEmpty || q.jobs.isEmpty || s.jobWaits f j then s
    else s.inSlot f j cyc fun s => s.serveWord f j cyc chk
def execSpineWordAccess (f : FieldNo) (j : Fin 192) (cyc : Nat) (chk : ReadCheck) (s : State) : Ans :=
  .next (s.spineWord f j cyc chk)

/-- R138: a QUEUE write still waiting for room after 4,096 memory cycles is answered TIMEOUT; words pushed remain. -/
def State.queueTimeout (s : State) (f j : Nat) : State :=
  match (s.queue (memKey f j)).jobs with
  | b :: _ =>
    if s.jobWaits f j then
      let c := b.req.headD Carriage.zero
      s.finishJob f j b [{ replyTo c tWrAck stTimeout c.mask [] with len := 0, cidx := 0 }]
    else s
  | [] => s
def execQueueWriteTimeout (f : FieldNo) (j : Fin 192) (s : State) : Ans := .next (s.queueTimeout f j)

/-! ## The patrol and the zero fill -/

/-- R150: a memory is enrolled. -/
def State.enrolled (s : State) (f j : Nat) : Bool := s.is (F.FLD_BM_CFG_PATROL f j) && s.is (F.FLD_BM_CFG_INITD f j)
/-- R150: the next word to visit, in ascending memory and word order, wrapping at the end. -/
def State.nextVisit (s : State) (f : Nat) : Option Nat :=
  let p := (s.fld f).patrolAt
  if s.enrolled f (p / 2048) && decide (p < 192 * 2048) then some p
  else
    match (List.range 192).find? (fun j => decide (p / 2048 < j) && s.enrolled f j) with
    | some j => some (2048 * j)
    | none => ((List.range 192).find? (s.enrolled f)).map (2048 * ·)

/-- R150: the patrol visits the next enrolled word, when no write-back or spine word claims the slot. -/
def State.patrol (s : State) (f cyc : Nat) (chk : ReadCheck) : State :=
  match s.nextVisit f with
  | none => s
  | some p =>
    let j := p / 2048
    let q := s.queue (memKey f j)
    if s.is (F.FLD_BMPAT_EN f) && s.slotFree f j cyc && q.backs.isEmpty && (q.jobs.isEmpty || s.jobWaits f j) then
      let t := s.inSlot f j cyc fun s => (s.checkRead f j (p % 2048) chk .patrol).state
      t.setFld f { t.fld f with patrolAt := p + 1 }
    else s
def execPatrolVisit (f : FieldNo) (cyc : Nat) (chk : ReadCheck) (s : State) : Ans := .next (s.patrol f cyc chk)

/-- R149: a write of 1 to BMINIT.GO with BLOCK: accepted while the block is disabled, else REJ; ignored while the domain is
off (R54). One that finds BUSY at 1 starts nothing and sets no REJ, though BLOCK takes its value: DESIGN CHOICE (log entry
79). -/
def State.bmInit (s : State) (f block : Nat) : State :=
  if !s.domainOn (4 + f) then s else
  let s := s.put (F.FLD_BMINIT_BLOCK f) block
  if s.fldEnabled f then s.raise (F.FLD_BMINIT_REJ f)
  else if s.is (F.FLD_BMINIT_BUSY f) || decide (192 ≤ block ∧ block ≤ 254) then s
  else
    (s.raise (F.FLD_BMINIT_BUSY f)).setFld f
      { s.fld f with fill := some (if block = 255 then none else some block) }
def execBminit (f : FieldNo) (block : Fin 256) (s : State) : Ans := .next (s.bmInit f block)

/-- One memory filled with 0, tag 0, and INITD set (R148). -/
def State.zeroMemory (s : State) (f j : Nat) : State :=
  let s := { s with bmem := SMap.putRange s.bmem (2048 * memKey f j) 2048 (some ⟨0, 0⟩) }
  let k := memKey f j
  (s.setQueue k { s.queue k with backs := [] }).raise (F.FLD_BM_CFG_INITD f j)
/-- R149: the fill completes; it goes on in memory cycles alone (R130). -/
def State.bmInitDone (s : State) (f : Nat) : State :=
  match (s.fld f).fill with
  | none => s
  | some which =>
    if !s.memClock f then s else
    let s := match which with
      | some j => s.zeroMemory f j
      | none => s.forEach (List.range 192) fun s j => s.zeroMemory f j
    (s.setFld f { s.fld f with fill := none }).clear (F.FLD_BMINIT_BUSY f)
def execBminitDone (f : FieldNo) (s : State) : Ans := .next (s.bmInitDone f)

/-! ## Admission of spine requests -/

/-- R136, R138, R161: the STATUS that refuses a request to a block memory, if one does. `n` is the number of words it
enables. -/
def State.bmRefusal (s : State) (f j : Nat) (ap : Nat) (c : Carriage) (n : Nat) : Option Nat :=
  let rd := isReadType c.typ
  let at_ := c.typ == tAtomic
  if 192 ≤ j ∨ ap = 3 then some stNoWindow
  else if !s.is (F.FLD_BM_CFG_SPORT f j) then some stDenied
  else if at_ && decide (6 ≤ bitsOf 0 3 (c.word 2).toNat) then some stDenied
  else if ap = 2 then (if rd then none else some stDenied)
  else if ap = 1 then
    if at_ || s.bmMode f j == 0 then some stNoWindow
    else if s.bmMode f j == 3 && n != s.bmMsgAll f j then some stDenied
    else if !rd && !s.spineFeeds f j && (s.bmMode f j == 3 || s.isProtected f) then some stDenied
    else if rd && s.isProtected f && !s.spineDrains f j then some stDenied
    else none
  else none

/-- The words a request enables, ascending. -/
def enabledWords (pkt : List Carriage) : List Nat :=
  let c := pkt.headD Carriage.zero
  if c.typ == tAtomic then [0]
  else if c.typ == tRdLine || c.typ == tWrLine then List.range (16 * (c.len + 1))
  else (List.range 16).filter c.enables

/-- R135 to R138: a request to a field's block memories is refused, or waits at its block in arrival order. -/
def State.bmAdmit (s : State) (n : Nat) (pkt : List Carriage) : State :=
  let c := pkt.headD Carriage.zero
  let f := n / 3
  let a := c.addr.toNat
  let ap := bitsOf 19 2 a
  let j := bitsOf 11 8 a
  let ws := enabledWords pkt
  match s.bmRefusal f j ap c ws.length with
  | some st => s.replyFail n pkt st
  | none =>
    let stampSlot := ap = 1 ∧ s.bmMode f j = 3 ∧ s.bmStamped f j = 1 ∧ isWriteType c.typ
    let b : SpineJob :=
      { ni := n, req := pkt, ap := if ap = 0 then .data else if ap = 1 then .queue else .tag,
        todo := if stampSlot then ws.dropLast else ws, got := [], corrected := false, uncorr := false }
    let k := memKey f j
    let q := s.queue k
    let x := s.ni n
    let s := if isReadType c.typ then s else s.setNi n { x with accepted := x.accepted + 1 }
    s.setQueue k { q with jobs := q.jobs ++ [b] }

end Sys2Proof.Machine
end

