-- ==== Sys2Proof/Machine/RegMap.lean ====
section
/-! DEFINITION. Where a BAR0 offset lies: its block, its instance and its power domain (Table 22-6), and what a register
keeps when its domain is switched off (R54, R386, R391). -/
namespace Sys2Proof.Machine

/-- The block whose span holds an offset, and the instance. -/
def blockAt (off : Nat) : Option (BlockDesc × Nat) :=
  (blockTable.find? fun b => decide (b.base ≤ off ∧ off < b.base + b.span)).map fun b =>
    (b, if b.stride = 0 then 0 else (off - b.base) / b.stride)

/-- The power domain of an instance of a block. -/
def BlockDesc.domainAt (b : BlockDesc) (i : Nat) : Nat :=
  match b.domain with
  | .one d => d
  | .perInst d => d + i
  | .lane => laneDomain i
  | .stg => portDomain i

/-- The domain of an offset; AO where no block lies. -/
def domainAt (off : Nat) : Nat :=
  match blockAt off with
  | some (b, i) => b.domainAt i
  | none => 0

/-- R54, R148, R192: the bits of an FLD register that configuration memory holds, by offset in the instance: NEED.CYC, PROT.EN,
PQOUT and the BM CFG registers but INITD. -/
def fldImageBits (l : Nat) : Nat :=
  if l = 0x8 then 2 ^ 32 - 1
  else if l = 0x90 then 1
  else if 0xA4 ≤ l ∧ l < 0xA4 + 24 then 2 ^ 32 - 1
  else if 0x400 ≤ l ∧ l < 0x400 + 16 * 192 ∧ l % 16 = 0 then 2 ^ 32 - 1 - 2 ^ 5
  else 0

/-- The bits of a register that stay when its domain is off, and its reset value: an image's settings of a field, SRFOK of a
channel (AO), of CRY the renewal state and the state of the keys (AO), the soft records (AO, R438), and what the retained
configuration shows in CFG.FIELDS and STW.FW (R386, R411). -/
def retained (off : Nat) : Nat × Nat :=
  if 0xC0000 ≤ off ∧ off < 0xD8000 then (fldImageBits (off % 4096), if off % 4096 = 0x90 then 2 else 0)
  else if 0x100000 ≤ off ∧ off < 0x110000 ∧ off % 8192 = 8 then (2 ^ 7, 0)
  else if off = 0x130018 ∨ off = 0x130020 ∨ off = 0x130024 then (2 ^ 32 - 1, 0)
  else if (0x130040 ≤ off ∧ off ≤ 0x13005C) ∨ off = 0x130064 then (2 ^ 32 - 1, 0)
  else if 0x160100 ≤ off ∧ off < 0x160200 then (2 ^ 32 - 1, 0)
  else if off = 0xE0014 ∨ off = 0x150008 then (2 ^ 32 - 1, 0)
  else (0, 0)

/-- A register after its domain was off, and a register whose image is taken away: the kept bits, or the others, stay. -/
def keepBits (mask rst : Nat) (v : Reg) : Reg :=
  let m := BitVec.ofNat 32 mask
  (v &&& m) ||| (BitVec.ofNat 32 rst &&& ~~~m)

/-- The registers of a domain take their reset values but for what is retained. -/
def State.resetRegs (s : State) (d : Nat) : State :=
  { s with
    regs := s.regs.filterMap fun e =>
      if domainAt e.1 = d then
        let k := retained e.1
        if k.1 = 0 then none
        else
          let v := keepBits k.1 k.2 e.2
          if v = BitVec.ofNat 32 k.2 then none else some (e.1, v)
      else some e
    staged := s.staged.filter fun e => domainAt e.1 != d }

/-- The image's settings, and INITD, leave the registers of field f. -/
def State.dropImageBits (s : State) (f : Nat) : State :=
  { s with
    regs := s.regs.filterMap fun e =>
      let k := if 0xC0000 + 4096 * f ≤ e.1 ∧ e.1 < 0xC0000 + 4096 * (f + 1) then fldImageBits (e.1 % 4096) else 0
      let m := if k = 2 ^ 32 - 1 - 2 ^ 5 then 2 ^ 32 - 1 else k
      if m = 0 then some e
      else
        let rst := (retained e.1).2
        let v := keepBits (2 ^ 32 - 1 - m) rst e.2
        if v = BitVec.ofNat 32 rst then none else some (e.1, v) }

end Sys2Proof.Machine
end

