-- ==== Sys2Proof/Machine/DramLines.lean ====
section
/-! DEFINITION. Lines of a DRAM channel: the address map (R326, R327), regions and exclusion (R347, R361), the inner code with
rebuild (R344 to R351), remap (R362), encryption with its counters (R364 to R373), and what one line read or line write
does (Tables 15-3 and 15-4). -/
namespace Sys2Proof.Machine

/-! ## The address map -/

def State.dram (s : State) (c : Nat) : ChSt := SMap.get s.drams ChSt.zero c
def State.setDram (s : State) (c : Nat) (x : ChSt) : State := { s with drams := SMap.set s.drams ChSt.zero c x }
/-- The SRC of a channel's events. -/
def drcSrc (c : Nat) : Nat := 72 + c

/-- Table 14-2: the lines of a channel. -/
def State.chanLines (s : State) (c : Nat) : Nat :=
  (1 + s.get (F.DRC_CFG_RANKS c)) * 2 ^ (28 + bit (s.get (F.DRC_CFG_DENS c) != 0))
/-- R326: the global line of a channel-local line. -/
def State.globalLine (s : State) (c l : Nat) : Nat :=
  l / s.granule * (s.granule * s.nch) + c * s.granule + l % s.granule
/-- R327, Table 14-4: rank, bank group and bank of a channel-local line as 32 rank + 4 group + bank, and its row. -/
def State.rankOf (s : State) (c l : Nat) : Nat :=
  if s.is (F.DRC_CFG_RANKS c) then bitsOf (28 + bit (s.get (F.DRC_CFG_DENS c) != 0)) 1 l else 0
def State.bankOf (s : State) (c l : Nat) : Nat :=
  let h := s.is (F.DRC_AMAP_HASH 0)
  let g := bitsOf 7 3 l ^^^ (if h then bitsOf 12 3 l else 0)
  let b := bitsOf 10 2 l ^^^ (if h then bitsOf 15 2 l else 0)
  32 * s.rankOf c l + 4 * g + b
def State.rowOf (s : State) (c l : Nat) : Nat := bitsOf 12 (16 + bit (s.get (F.DRC_CFG_DENS c) != 0)) l

/-! ## Regions and exclusion -/

def State.rgnBase (s : State) (r : Nat) : Nat := s.pair (R.MIG_REGION_BASE_LO r) (R.MIG_REGION_BASE_HI r) / 16 * 16
def State.rgnLimit (s : State) (r : Nat) : Nat :=
  s.pair (R.MIG_REGION_LIMIT_LO r) (R.MIG_REGION_LIMIT_HI r) / 16 * 16 + 15
def State.ctrBase (s : State) (r : Nat) : Nat := s.pair (R.CRY_RGN_CTRBASE_LO r) (R.CRY_RGN_CTRBASE_HI r) / 16 * 16
/-- R347: the region of a word address. -/
def State.regionAt (s : State) (a : Nat) : Option Nat :=
  (List.range 32).find? fun r => s.is (F.MIG_REGION_CTL_EN r) && decide (s.rgnBase r ≤ a ∧ a ≤ s.rgnLimit r)
def State.rgnNested (s : State) (a : Nat) : Bool :=
  match s.regionAt a with | some r => s.is (F.MIG_REGION_CTL_CODE r) | none => false
def State.lineRgn (s : State) (a : Nat) : LineRgn :=
  match s.regionAt a with
  | none => ⟨32, false, 0, 0, 0, 0, false⟩
  | some r => ⟨r, s.is (F.MIG_REGION_CTL_CODE r), s.get (F.MIG_REGION_CTL_CRYPTO r), s.get (F.MIG_REGION_CTL_KEYID r),
      s.rgnBase r, s.ctrBase r, s.rgnNested (s.ctrBase r)⟩

/-- R361: an enabled exclusion entry covers a word of line l of channel c, at word address a. -/
def State.exclCovers (s : State) (c l a e : Nat) : Bool :=
  let x := s.pair (R.MIG_EXCL_A_LO e) (R.MIG_EXCL_A_HI e)
  let y := s.pair (R.MIG_EXCL_B_LO e) (R.MIG_EXCL_B_HI e)
  s.is (F.MIG_EXCL_CTL_EN e) &&
    (if s.is (F.MIG_EXCL_CTL_KIND e) then
      bitsOf 0 3 x == c && 32 * bitsOf 3 1 x + 4 * bitsOf 4 3 x + bitsOf 7 2 x == s.bankOf c l &&
        decide (bitsOf 9 17 x ≤ s.rowOf c l ∧ s.rowOf c l ≤ bitsOf 0 17 y)
    else decide (x ≤ a + 15 ∧ a ≤ y))
def State.exclOf (s : State) (c l a : Nat) : Option Nat := (List.range 64).find? (s.exclCovers c l a)

/-! ## Commands to the components -/

/-- R337: a command issues and enters the retry buffer. -/
def State.dramCmd (s : State) (c code bank row line : Nat) (w : DramWho) : State :=
  let x := s.dram c
  s.setDram c { x with retry := x.retry ++ [⟨code, bank, row, line, w, s.now⟩] }
/-- A line is transferred: its row is opened where it is not open, and closed again when PAGE.IDLE is 0 (R331). -/
def State.lineCmd (s : State) (c p : Nat) (wr : Bool) (w : DramWho) : State :=
  let b := s.bankOf c p
  let r := s.rowOf c p
  let s := match SMap.get (s.dram c).rows none b with
    | some r' => if r' = r then s else (s.dramCmd c 3 b r' 0 w).dramCmd c 0 b r 0 w
    | none => s.dramCmd c 0 b r 0 w
  let s := s.dramCmd c (if wr then 2 else 1) b r (p % 128) w
  let shut := decide (s.get (F.DRC_PAGE_IDLE c) = 0)
  let s := if shut then s.dramCmd c 3 b r 0 w else s
  let x := s.dram c
  (s.setDram c { x with rows := SMap.set x.rows none b (if shut then none else some r) }).bump (F.DRC_BW_LINES c) 1

/-! ## Stored lines -/

/-- R362: the remap entry that redirects a line. -/
def State.remapEntry (s : State) (c l : Nat) : Option Nat :=
  (List.range 16).find? fun k =>
    s.is (F.MIG_REMAP_FROM_VALID c k) && !s.is (F.MIG_REMAP_TO_BUSY c k) && s.get (F.MIG_REMAP_FROM_LINE c k) == l
def State.physLine (s : State) (c l : Nat) : Nat :=
  match s.remapEntry c l with | some k => s.get (F.MIG_REMAP_TO_LINE c k) | none => l
def State.lineLost (s : State) (c l : Nat) : Bool :=
  match s.remapEntry c l with | some k => s.is (F.MIG_REMAP_FROM_LOST c k) | none => false

/-- Open words, where the spec gives none. -/
def State.freeWords (s : State) : Nat → List Word × State
  | 0 => ([], s)
  | n + 1 =>
    let a := s.freeWord
    let b := a.2.freeWords n
    (a.1 :: b.1, b.2)

/-- A line that no write has reached since the fill holds zeros. -/
def State.zeroLine (s : State) (c p : Nat) : Bool :=
  match (s.dram c).filled with
  | none => false
  | some vs => let g := s.globalLine c p; !vs.any fun v => decide (v.1 ≤ g ∧ g ≤ v.2)
/-- The bits stored at a physical line: an unwritten line holds open contents (R355). -/
def State.storedLine (s : State) (c p : Nat) : List Word × State :=
  match SMap.get (s.dram c).lines none p with
  | some ws => (ws, s)
  | none => if s.zeroLine c p then (List.replicate 16 0, s) else s.freeWords 16

/-- What the inner code gives of a line (R345): its words with uncorrectable beats 0, the corrected and the uncorrectable
beats, and the symbols in error. -/
structure LineOut where
  state : State
  words : List Word
  fixed : BitVec 16
  lost : BitVec 16
  syms : BitVec 16

def lineCheck (checks : List LineCheck) (g : Nat) : LineCheck := (checks.find? fun k => k.line == g).getD ⟨g, []⟩
/-- The beats of a line, with those of a mask 0. -/
def dropBeats (ws : List Word) (m : BitVec 16) : List Word :=
  (List.range 16).map fun i => if m.getLsbD i then 0 else ws.getD i 0
/-- Beat by beat, the XOR of two lines. -/
def xorLines (a b : List Word) : List Word := (List.range 16).map fun i => a.getD i 0 ^^^ b.getD i 0
/-- Beats of `a` where the mask is 1, of `b` elsewhere. -/
def mixBeats (m : BitVec 16) (a b : List Word) : List Word :=
  (List.range 16).map fun i => if m.getLsbD i then a.getD i 0 else b.getD i 0

/-- Bits set in a mask. -/
def beats (m : BitVec 16) : Nat := (List.range 16).foldl (fun n i => n + bit (m.getLsbD i)) 0
/-- R346: the erased component of a rank, as its symbol bit. -/
def State.erased (s : State) (c rank : Nat) : BitVec 16 :=
  let en := if rank = 1 then s.is (F.MIG_ERASE_EN1 c) else s.is (F.MIG_ERASE_EN0 c)
  let k := if rank = 1 then s.get (F.MIG_ERASE_COMP1 c) else s.get (F.MIG_ERASE_COMP0 c)
  if en then BitVec.ofNat 16 (2 ^ k) else 0
/-- Table 15-2: the outcomes of a beat; `escapes` may be miscorrected or pass undetected. -/
inductive BeatOut where
  | clean | fixed | lost | escapes
  deriving DecidableEq, Repr
/-- Table 15-2: what the code makes of the symbols `e` in error, `m` holding the symbol erased in the rank. -/
def beatOut (m e : BitVec 16) : BeatOut :=
  let n := beats (e &&& ~~~m)
  if e = 0 then .clean
  else if n ≤ 1 then .fixed
  else if n ≤ (if m = 0 then 3 else 2) then .lost
  else .escapes
/-- One beat decoded; an error that escapes leaves an open word under an open outcome. -/
def LineOut.beat (o : LineOut) (m : BitVec 16) (i : Nat) (e : BitVec 16) : LineOut :=
  let b := BitVec.ofNat 16 (2 ^ i)
  match beatOut m e with
  | .clean => o
  | .fixed => { o with fixed := o.fixed ||| b, syms := o.syms ||| e }
  | .lost => { o with lost := o.lost ||| b, syms := o.syms ||| e }
  | .escapes =>
    let k := o.state.freeNat
    let v := k.2.freeWord
    match k.1 % 3 with
    | 0 => { o with state := v.2, words := o.words.set i v.1 }
    | 1 => { o with state := v.2, words := o.words.set i v.1, fixed := o.fixed ||| b, syms := o.syms ||| e }
    | _ => { o with state := v.2, lost := o.lost ||| b, syms := o.syms ||| e }
/-- R345: the beats of a line as stored, each decoded on its own. -/
def LineOut.decode (o : LineOut) (m : BitVec 16) (errs : List (Nat × BitVec 16)) : LineOut :=
  if errs.isEmpty then o else (List.range 16).foldl (fun o i => o.beat m i (lookupD errs i 0)) o

/-- R345, R362: line l is read through remap and the inner code; every beat of a LOST line is uncorrectable. -/
def State.decodeLine (s : State) (c l : Nat) (checks : List LineCheck) (w : DramWho) : LineOut :=
  let p := s.physLine c l
  let s := s.lineCmd c p false w
  let a := s.storedLine c p
  let o := LineOut.decode ⟨a.2, a.1, 0, 0, 0⟩ (s.erased c (s.rankOf c p)) (lineCheck checks (s.globalLine c l)).errs
  let lost := if s.lineLost c l then BitVec.allOnes 16 else o.lost
  { o with words := dropBeats o.words lost, fixed := o.fixed &&& ~~~lost, lost := lost }
/-- A line's stored bits are written. -/
def State.storeLine (s : State) (c l : Nat) (ws : List Word) (w : DramWho) : State :=
  let p := s.physLine c l
  let s := s.lineCmd c p true w
  let x := s.dram c
  s.setDram c { x with lines := SMap.set x.lines none p (some ws) }
/-- A full-line write clears LOST of a remapped line. -/
def State.clearLost (s : State) (c l : Nat) : State :=
  match s.remapEntry c l with | some k => s.clear (F.MIG_REMAP_FROM_LOST c k) | none => s

/-- The other lines of a group of 16. -/
def groupMates (l : Nat) : List Nat := ((List.range 16).map (l / 16 * 16 + ·)).filter (· != l)
/-- R351: the XOR of the other 15 lines of the group, and the beats in which one of them is not known. -/
def State.groupXor (s : State) (c : Nat) (ls : List Nat) (checks : List LineCheck) (w : DramWho) : LineOut :=
  ls.foldl (fun o l =>
    let d := o.state.decodeLine c l checks w
    ⟨d.state, xorLines o.words d.words, 0, o.lost ||| d.lost, 0⟩) ⟨s, List.replicate 16 0, 0, 0, 0⟩

/-- R360: MIG.ELOC and MIG.ESYM take the place, and the first outcome of its kind in a tick is logged. Kinds: 1 corrected,
2 uncorrectable, 3 rebuilt. -/
def State.noteLine (s : State) (c l kind : Nat) (bs syms : BitVec 16) : State :=
  let b := s.bankOf c l
  let eloc := 2 ^ 30 * kind + 2 ^ 29 * (b / 32) + 2 ^ 26 * (b / 4 % 8) + 2 ^ 24 * (b % 4) + 2 ^ 7 * s.rowOf c l + l % 128
  let esym := 2 ^ 16 * bs.toNat + syms.toNat
  let s := (s.setReg (R.MIG_ELOC c) eloc).setReg (R.MIG_ESYM c) esym
  let x := s.dram c
  if s.newTick (SMap.get x.logTicks none kind) then
    let s := s.setDram c { x with logTicks := SMap.set x.logTicks none kind (some s.time.tick) }
    let code : Nat × State := if kind = 2 then (0x0C8, s) else if kind = 3 then (0x0C9, s) else s.freeNat
    code.2.logEntry code.1 (drcSrc c) (16 * s.globalLine c l) (eloc + 2 ^ 32 * esym + 2 ^ 64 * c)
  else s

/-- A line found corrected: counted, and but for an erasure-only correction logged and seen by the steward. -/
def State.noteFixed (s : State) (c l : Nat) (d : LineOut) : State :=
  let s := (s.bump (F.MIG_CNT_CORR c) 1).see 2 c
  let e := s.erased c (s.rankOf c l)
  if d.syms &&& ~~~e = 0 then s
  else
    let s := (s.see 3 c).noteLine c l 1 (d.fixed ||| d.lost) d.syms
    s.forEach ((List.range 16).filter d.syms.getLsbD) fun s k => s.see 8 (32 * c + 16 * s.rankOf c l + k)

/-- A write of the line is queued or combining. -/
def State.writeWaits (s : State) (c l : Nat) : Bool :=
  let x := s.dram c
  let g := s.globalLine c l
  x.groups.any (fun b => b.group == l / 16 && b.lines.any fun e => e.1 == l % 16) ||
    x.reqs.any fun r => (r.todo.any fun i => (r.pkt.headD Carriage.zero).addr.toNat / 16 + i == g) &&
      !isReadType (r.pkt.headD Carriage.zero).typ

/-- R355: a NESTED group counts as written once its parity line is: by a combined write of the group, or a zero fill. -/
def State.groupWritten (s : State) (c l : Nat) : Bool :=
  let p := s.physLine c (l / 16 * 16 + 15)
  (SMap.get (s.dram c).lines none p).isSome || s.zeroLine c p
/-- R355: what the components hold of a line of a NESTED group that does not count as written is open. -/
def State.openUnwritten (s : State) (c l : Nat) (nested : Bool) (d : LineOut) : LineOut :=
  if nested && !s.groupWritten c l then
    let v := d.state.freeWords 16
    { d with state := v.2, words := dropBeats v.1 d.lost }
  else d
/-- R351, R357, R358: a line is read with rebuild and write-back, and its outcome counted, logged and posted. -/
def State.readLine (s : State) (c l : Nat) (nested demand : Bool) (checks : List LineCheck) (w : DramWho) : LineOut :=
  let d := s.openUnwritten c l nested (s.decodeLine c l checks w)
  let s := d.state
  if d.lost = 0 then
    if d.fixed = 0 then d
    else
      let s := s.noteFixed c l d
      let back := (s.is F.MIG_CTL_DWB || !demand) && d.syms &&& ~~~(s.erased c (s.rankOf c l)) != 0 && !s.writeWaits c l
      { d with state := if back then s.storeLine c l d.words w else s }
  else
    let o : LineOut := if nested && s.is F.MIG_CTL_RECON && !s.lineLost c l then s.groupXor c (groupMates l) checks w
      else ⟨s, [], 0, BitVec.allOnes 16, 0⟩
    let got := d.lost &&& ~~~o.lost
    let ws := mixBeats got o.words d.words
    let left := d.lost &&& o.lost
    if left = 0 then
      let s := ((o.state.bump (F.MIG_CNT_RECON c) 1).noteLine c l 3 d.lost d.syms).post 0x0C9 (drcSrc c) (beats d.lost)
      ⟨s.storeLine c l ws w, ws, d.fixed ||| got, 0, d.syms⟩
    else
      let s := ((o.state.bump (F.MIG_CNT_UNC c) 1).raise F.MIG_STAT_UNCORR).noteLine c l 2 (d.fixed ||| d.lost) d.syms
      let s := s.post 0x0C8 (drcSrc c) (beats left)
      let x := s.dram c
      ⟨s.setDram c { x with suspects := x.suspects.filter (· != l) ++ [l] }, ws, d.fixed ||| got, left, d.syms⟩

/-! ## Parity -/

/-- R353: the new parity line for a line that goes from x (with `lost` beats unknown) to y: P ⊕ x ⊕ y where both are known, else
the XOR of y with the other 14 data lines; none where one of those is unknown too. The flag says that this was needed. -/
def State.newParity (s : State) (c l : Nat) (x : List Word) (lost : BitVec 16) (y : List Word) (checks : List LineCheck)
    (w : DramWho) : State × Option (List Word) × Bool :=
  let p := s.decodeLine c (l / 16 * 16 + 15) checks w
  let bad := p.lost ||| lost
  let plain := xorLines (xorLines p.words x) y
  if bad = 0 then (p.state, some plain, false)
  else
    let o := p.state.groupXor c ((groupMates l).filter fun m => m % 16 != 15) checks w
    if bad &&& o.lost = 0 then (o.state, some (mixBeats bad (xorLines o.words y) plain), true)
    else (o.state, none, true)

/-- A stored line replaced, with the parity of a NESTED group; false where that parity cannot be formed. The parity line of a group
that does not count as written stays so (R355). -/
def State.replaceLine (s : State) (c l : Nat) (nested : Bool) (x : List Word) (lost : BitVec 16) (y : List Word)
    (checks : List LineCheck) (w : DramWho) : State × Bool × Bool :=
  if !nested then (s.storeLine c l y w, true, false)
  else
    match s.newParity c l x lost y checks w with
    | (t, some p, f) =>
      let q := l / 16 * 16 + 15
      let t := t.storeLine c l y w
      (if t.groupWritten c l then t.storeLine c q p w else t.lineCmd c (t.physLine c q) true w, true, f)
    | (t, none, f) => (t, false, f)

/-- Table 15-4: an outcome that leaves a write not performed. -/
def State.rmwFail (s : State) (c st : Nat) : State :=
  let s := ((s.bump (F.MIG_CNT2_RMWFAIL c) 1).raise F.MIG_STAT_RMWFAIL).post 0x0CA (drcSrc c) st
  let x := s.dram c
  if s.newTick (SMap.get x.logTicks none 4) then
    (s.setDram c { x with logTicks := SMap.set x.logTicks none 4 (some s.time.tick) }).logEntry 0x0CA (drcSrc c) st 0
  else s

/-! ## Counters and the cache -/

/-- R367: the word address of metadata line m of an area. -/
def metaAddr (area m : Nat) (nested : Bool) : Nat := area + 16 * (if nested then 16 * (m / 15) + m % 15 else m)
/-- Metadata lines of a region: of the counter of line i, and of its tag. -/
def LineRgn.ctrLine (r : LineRgn) (i : Nat) : Nat :=
  metaAddr r.area (if r.crypto = 2 then 3 * (i / 16) else i / 16) r.areaNested / 16
def LineRgn.tagLine (r : LineRgn) (i : Nat) : Nat :=
  metaAddr r.area (3 * (i / 16) + 1 + i % 16 / 8) r.areaNested / 16

/-- A dirty metadata line is written to DRAM. -/
def State.spillMeta (s : State) (ml : Nat) (checks : List LineCheck) : State :=
  match SMap.get s.cry.cache none ml with
  | some e =>
    if e.dirty then
      let c := s.channelOf ml
      let l := s.localLine ml
      let nested := s.rgnNested (16 * ml)
      let d : LineOut := if nested then s.decodeLine c l checks .none else ⟨s, [], 0, 0, 0⟩
      let t := d.state.replaceLine c l nested d.words d.lost e.words checks .none
      if !t.2.1 then t.1.rmwFail c stUncorr
      else
      let t := t.1
      { t with cry := { t.cry with cache := SMap.set t.cry.cache none ml (some { e with dirty := false }) } }
    else s
  | none => s
/-- R371: 2,048 lines of a channel fit; which line leaves is open, and one may leave earlier. The lines of the access in
hand stay. -/
def State.makeRoom (s : State) (c : Nat) (keep : List Nat) (checks : List LineCheck) : State :=
  let mine := (s.cry.cache.map (·.1)).filter fun m => s.channelOf m == c && !keep.contains m
  let v := s.freeNat
  match mine[v.1 % (if mine.length < 2048 then mine.length + 1 else mine.length)]? with
  | some ml =>
    let t := v.2.spillMeta ml checks
    { t with cry := { t.cry with cache := SMap.erase t.cry.cache ml } }
  | none => v.2
/-- A metadata line that the cache does not hold is read into it. -/
def State.metaMiss (s : State) (ml : Nat) (keep : List Nat) (checks : List LineCheck) (w : DramWho) :
    State × List Word × Bool :=
  let c := s.channelOf ml
  let n := s.cry.misses + 1
  let s : State := { s with cry := { s.cry with misses := n % 1024 } }
  let s := (if n = 1024 then s.bump F.CRY_CNT_MISS 1 else s).makeRoom c keep checks
  let d := s.readLine c (s.localLine ml) (s.rgnNested (16 * ml)) true checks w
  if d.lost = 0 then
    let t := d.state
    ({ t with cry := { t.cry with cache := SMap.set t.cry.cache none ml (some ⟨d.words, false⟩) } }, d.words, true)
  else (d.state, d.words, false)
/-- A word of a cached metadata line changes. -/
def State.metaWrite (s : State) (ml i : Nat) (v : Word) : State :=
  match SMap.get s.cry.cache none ml with
  | some e => { s with cry := { s.cry with cache := SMap.set s.cry.cache none ml (some ⟨e.words.set i v, true⟩) } }
  | none => s
/-- R372: the cached lines of a channel are lost. -/
def State.dropCache (s : State) (c : Nat) : State :=
  { s with cry := { s.cry with cache := SMap.drop (fun m => s.channelOf m == c) s.cry.cache } }
/-- A metadata line through the cache: its words, and whether it could be read. -/
def State.metaRead (s : State) (ml : Nat) (keep : List Nat) (checks : List LineCheck) (w : DramWho) :
    State × List Word × Bool :=
  match SMap.get s.cry.cache none ml with
  | some e => (s, e.words, true)
  | none => s.metaMiss ml keep checks w

/-! ## Encryption -/

/-- Table 16-1: the counter block. -/
def ctrBlock (use b ctr line : Nat) : BitVec 128 :=
  BitVec.ofNat 128 (0x4B5300000001 * 2 ^ 80 + use * 2 ^ 79 + b * 2 ^ 76 + ctr % 2 ^ 32 * 2 ^ 44 + line % 2 ^ 44)
/-- R365: the words of a line XOR its keystream. -/
def cryptLine (key ctr line : Nat) (ws : List Word) : List Word :=
  let ks := (List.range 6).foldl (fun n b => n + (Config.aes key (ctrBlock 0 b ctr line)).toNat * 2 ^ (128 * b)) 0
  (List.range 16).map fun k => ws.getD k 0 ^^^ BitVec.ofNat 48 (ks / 2 ^ (48 * k))
/-- R366: the tag of a line's ciphertext. -/
def lineTag (key ctr line : Nat) (ws : List Word) : Nat :=
  let n := (List.range 16).foldl (fun n k => n + (ws.getD k 0).toNat * 2 ^ (48 * k)) 0
  let a := BitVec.ofNat 128 (line % 2 ^ 44 + ctr % 2 ^ 32 * 2 ^ 44)
  let g := Config.ghash (Config.aes key 0) ((List.range 6).map (fun b => BitVec.ofNat 128 (n / 2 ^ (128 * b))) ++ [a])
  (g ^^^ Config.aes key (ctrBlock 1 0 ctr line)).toNat % 2 ^ 64

/-- The state of a key ID, Table 16-3. -/
def State.keyState (s : State) (k : Nat) : Nat := bitsOf (4 * (k % 8)) 4 (s.reg (R.CRY_KEYSTAT (k / 8)))
def State.setKeyState (s : State) (k v : Nat) : State := s.put ⟨R.CRY_KEYSTAT (k / 8), 4 * (k % 8), 4⟩ v
/-- The key of an ID; an ID with no key gives none to read with. -/
def State.keyOf (s : State) (k : Nat) : Nat := (SMap.get s.cry.keys none k).getD 0
/-- The renewal pointer. -/
def State.rptr (s : State) : Nat := s.pair R.CRY_RPTR_LO R.CRY_RPTR_HI
/-- R381: the key ID a line is under. -/
def State.lineKey (s : State) (r : LineRgn) (a : Nat) (early : Bool) : Nat :=
  if s.is F.CRY_RN_ACTIVE && s.get F.CRY_RN_REGION == r.region && (decide (a < s.rptr) || early) then
    s.get F.CRY_RN_NEWKEY
  else r.key

/-- The counter word of a line: its counter, EARLY and LOST. -/
def ctrOf (v : Word) : Nat := v.toNat % 2 ^ 32
def ctrWord (ctr : Nat) (early lost : Bool) : Word := BitVec.ofNat 48 (ctr % 2 ^ 32 + 2 ^ 32 * bit early + 2 ^ 33 * bit lost)

/-- What the metadata of an encrypted line says: the counter line as read and its word, the tag as stored, the poisoned
mark, and whether the counter line and the tag slot could be read. -/
structure MetaOut where
  state : State
  ctr : Word
  tag : Nat
  poison : Bool
  ctrOk : Bool
  tagOk : Bool
def State.readMeta (s : State) (r : LineRgn) (a : Nat) (withTag : Bool) (checks : List LineCheck) (w : DramWho) : MetaOut :=
  let i := (a - r.base) / 16
  let (s, cs, ok) := s.metaRead (r.ctrLine i) [] checks w
  if r.crypto = 2 && withTag then
    let (s, ts, tok) := s.metaRead (r.tagLine i) [r.ctrLine i] checks w
    let t0 := (ts.getD (2 * (i % 8)) 0).toNat
    let t1 := (ts.getD (2 * (i % 8) + 1) 0).toNat
    ⟨s, cs.getD (i % 16) 0, t0 + 2 ^ 48 * (t1 % 2 ^ 16), bitOf 16 t1, ok, tok⟩
  else ⟨s, cs.getD (i % 16) 0, 0, false, ok, true⟩
/-- Counter and tag of a line are stored. -/
def State.writeMeta (s : State) (r : LineRgn) (a : Nat) (ctr : Word) (tag : Option (Nat × Bool)) : State :=
  let i := (a - r.base) / 16
  let s := s.metaWrite (r.ctrLine i) (i % 16) ctr
  match tag with
  | none => s
  | some (t, p) =>
    (s.metaWrite (r.tagLine i) (2 * (i % 8)) (BitVec.ofNat 48 t)).metaWrite (r.tagLine i) (2 * (i % 8) + 1)
      (BitVec.ofNat 48 (t / 2 ^ 48 % 2 ^ 16 + 2 ^ 16 * bit p))

/-- R373: a tag failed: POISON is set, counted, posted and logged. -/
def State.tagFail (s : State) (c : Nat) (r : LineRgn) (a : Nat) (m : MetaOut) (arg : Nat) : State :=
  ((s.writeMeta r a m.ctr (some (m.tag, true))).bump F.CRY_CNT_TAGFAIL 1).postLog 0x0D8 (drcSrc c) arg

/-! ## One line of a read -/

/-- A line as a request reads it: the STATUS of Table 15-3 for the words a mask enables, and the words. -/
structure ReadRes where
  state : State
  status : Nat
  words : List Word
def zeroWords : List Word := List.replicate 16 0
def readStatus (d : LineOut) (mask : BitVec 16) : Nat :=
  if d.lost &&& mask ≠ 0 then stUncorr else if d.fixed &&& mask ≠ 0 then stCorrected else stOk
/-- R351, R373, Table 15-3. -/
def State.readData (s : State) (c l a : Nat) (r : LineRgn) (raw : Bool) (mask : BitVec 16) (checks : List LineCheck)
    (w : DramWho) : ReadRes :=
  let d := s.readLine c l r.nested true checks w
  if r.crypto = 0 || raw then ⟨d.state, readStatus d mask, d.words⟩
  else
    let m := d.state.readMeta r a true checks w
    let ctr := ctrOf m.ctr
    let key := m.state.keyOf (m.state.lineKey r a (bitOf 32 m.ctr.toNat))
    if !m.ctrOk || bitOf 33 m.ctr.toNat then ⟨m.state, stUncorr, zeroWords⟩
    else if r.crypto = 2 then
      if m.poison then ⟨m.state, stPoisoned, zeroWords⟩
      else if d.lost ≠ 0 || !m.tagOk then ⟨m.state, stUncorr, zeroWords⟩
      else if lineTag key ctr (a / 16) d.words ≠ m.tag then ⟨m.state.tagFail c r a m 0, stTagFail, zeroWords⟩
      else ⟨m.state, readStatus d mask, cryptLine key ctr (a / 16) d.words⟩
    else ⟨m.state, readStatus d mask, dropBeats (cryptLine key ctr (a / 16) d.words) d.lost⟩

/-! ## One line of a write -/

/-- What became of a line write: done or not, its STATUS, the plain words that stood there, and whether it must be held
(R383). -/
structure WriteRes where
  state : State
  status : Nat
  old : List Word
  held : Bool

def State.notWritten (s : State) (c st : Nat) : WriteRes := ⟨s.rmwFail c st, st, zeroWords, false⟩

/-- R380: a counter has reached the threshold. -/
def State.noteCounter (s : State) (r ctr : Nat) : State :=
  if decide (s.get F.CRY_RENEW_THRESH_THRESH ≤ ctr) && !bitOf r (s.reg R.CRY_RNREQ) then
    (s.put ⟨R.CRY_RNREQ, r, 1⟩ 1).postLog 0x0D9 72 r
  else s

/-- R353, R370: the new plain words are stored: encrypted under the next counter, with tag and parity, or not at all. -/
def State.storeData (s : State) (c l a : Nat) (r : LineRgn) (full : Bool) (m : MetaOut) (x : LineOut) (y : List Word)
    (ok : Nat) (checks : List LineCheck) (w : DramWho) (old : List Word) : WriteRes :=
  let early := bitOf 32 m.ctr.toNat
  let ctr := ctrOf m.ctr + 1
  let key := s.keyOf (s.lineKey r a early)
  let y' := if r.crypto = 0 then y else cryptLine key ctr (a / 16) y
  match s.replaceLine c l r.nested x.words x.lost y' checks w with
  | (t, false, _) => t.notWritten c stUncorr
  | (t, true, f) =>
    let t := if full then t.clearLost c l else t
    let st := if f then stCorrected else ok
    if r.crypto = 0 then ⟨t, st, old, false⟩
    else
      let tag := if r.crypto = 2 then some (lineTag key ctr (a / 16) y', false) else none
      ⟨(t.writeMeta r a (ctrWord ctr early false) tag).noteCounter r.region ctr, st, old, false⟩

/-- A write of part of the line just read as x: the line is checked, and written back with the words in place. -/
def State.mergeLine (s : State) (c l a : Nat) (r : LineRgn) (m : MetaOut) (x : LineOut) (needs : BitVec 16)
    (upd : List Word → Option (List Word)) (checks : List LineCheck) (w : DramWho) : WriteRes :=
  let key := s.keyOf (s.lineKey r a (bitOf 32 m.ctr.toNat))
  if bitOf 33 m.ctr.toNat then s.notWritten c stUncorr
  else if m.poison then s.notWritten c stPoisoned
  else if r.crypto = 2 && (!m.tagOk || x.lost != 0) then s.notWritten c stUncorr
  else if r.crypto == 2 && lineTag key (ctrOf m.ctr) (a / 16) x.words != m.tag then (s.tagFail c r a m 1).notWritten c stTagFail
  else if x.lost &&& needs ≠ 0 then s.notWritten c stUncorr
  else
    let old := if r.crypto = 0 then x.words else cryptLine key (ctrOf m.ctr) (a / 16) x.words
    match upd old with
    | none => ⟨s, stOk, old, false⟩
    | some y =>
      s.storeData c l a r false m x y (if x.lost ≠ 0 then stOk else if x.fixed ≠ 0 then stCorrected else stOk) checks w old
def State.writePart (s : State) (c l a : Nat) (r : LineRgn) (m : MetaOut) (needs : BitVec 16)
    (upd : List Word → Option (List Word)) (checks : List LineCheck) (w : DramWho) : WriteRes :=
  let x := s.readLine c l r.nested true checks w
  x.state.mergeLine c l a r m x needs upd checks w
/-- R352 to R354, Table 15-4: a line write of the words of `mask`; `needs` are the beats that must be known, and `upd` gives the
merged line, or none where nothing is written (a CAS that fails). -/
def State.writeData (s : State) (c l a : Nat) (r : LineRgn) (full : Bool) (needs : BitVec 16)
    (upd : List Word → Option (List Word)) (checks : List LineCheck) (w : DramWho) : WriteRes :=
  let m : MetaOut := if r.crypto = 0 then ⟨s, 0, 0, false, true, true⟩ else s.readMeta r a true checks w
  let s := m.state
  if !m.ctrOk then s.notWritten c stUncorr
  else if r.crypto ≠ 0 ∧ ctrOf m.ctr = 2 ^ 32 - 1 then ⟨s, stOk, zeroWords, true⟩
  else if full then
    let x : LineOut := if r.nested then s.decodeLine c l checks w else ⟨s, zeroWords, 0, 0, 0⟩
    match upd zeroWords with
    | some y => x.state.storeData c l a r true m x y stOk checks w zeroWords
    | none => ⟨s, stOk, zeroWords, false⟩
  else s.writePart c l a r m needs upd checks w

end Sys2Proof.Machine
end

