-- ==== Sys2Proof/Machine/DramOps.lean ====
section
/-! DEFINITION. The queues of a DRAM channel: what admits a request (R328, R349, R361, R369, R378), ports and urgency (R329, R330),
group buffers (R350), the command slot (R330, R332), responses (R329, R333) and self-refresh (Table 14-6). -/
namespace Sys2Proof.Machine

/-! ## Admission -/

/-- R368: an area's line addresses, from its first to its last word. -/
def State.areaSpan (s : State) (r : Nat) : Nat × Nat :=
  let g := ((s.rgnLimit r + 1 - s.rgnBase r) / 16 + 15) / 16
  let m := if s.get (F.MIG_REGION_CTL_CRYPTO r) = 2 then 3 * g else g
  let b := s.ctrBase r
  (b, metaAddr b (m - 1) (s.rgnNested b) + 15)
def State.encrypted (s : State) (r : Nat) : Bool :=
  s.is (F.MIG_REGION_CTL_EN r) && (s.get (F.MIG_REGION_CTL_CRYPTO r) == 1 || s.get (F.MIG_REGION_CTL_CRYPTO r) == 2)
/-- R369: the area in effect that a line lies in. -/
def State.areaOf (s : State) (a : Nat) : Option Nat :=
  if s.is F.CRY_CTL_EN then
    (List.range 32).find? fun r => s.encrypted r && decide ((s.areaSpan r).1 ≤ a ∧ a ≤ (s.areaSpan r).2)
  else none
/-- R368: an area lies in enabled regions of CRYPTO NONE, PLAIN or NESTED with a granule of 16, and meets no other. Regions are
looked at where they begin and end and at the ends of the area: between those nothing changes. -/
def State.areaOk (s : State) (r : Nat) : Bool :=
  let (lo, hi) := s.areaSpan r
  let cuts := lo :: ((List.range 32).flatMap fun q => [s.rgnBase q, s.rgnLimit q + 1]).filter fun a => decide (lo < a ∧ a ≤ hi)
  cuts.all (fun a => match s.regionAt a with
    | none => false
    | some q => s.get (F.MIG_REGION_CTL_CRYPTO q) == 0 &&
        (s.is (F.MIG_REGION_CTL_CODE q) == s.rgnNested lo) && (!s.is (F.MIG_REGION_CTL_CODE q) || s.granule == 16)) &&
    (List.range 32).all fun q => q == r || !s.encrypted q ||
      let (a, b) := s.areaSpan q
      decide (b < lo ∨ hi < a)

/-- R368: requests to an encrypted region are served: its area keeps the rules, and has kept them since the last CRY commit. -/
def State.areaServes (s : State) (r : Nat) : Bool := s.areaOk r && !s.cry.barred.contains r

/-- Table 16-4: RIGHTS of a context. -/
def State.maskBit (s : State) (x k : Nat) : Bool :=
  k != 0 && (if k < 32 then bitOf k (s.reg (R.CRY_RIGHTS_MASK0 x)) else bitOf (k - 32) (s.reg (R.CRY_RIGHTS_MASK1 x)))
/-- R369, R378: whether a context may make a request of a line. -/
def State.rightsOk (s : State) (x typ : Nat) (a : Nat) : Bool :=
  let r := s.is (F.CRY_RIGHTS_CTL_R x)
  let w := s.is (F.CRY_RIGHTS_CTL_W x)
  let raw := s.is (F.CRY_RIGHTS_CTL_RAW x)
  let g := s.lineRgn a
  let dir := if isReadType typ then r else if typ == tAtomic then r && w else w
  match s.areaOf a with
  | some q => isReadType typ && r && raw && s.maskBit x (s.get (F.MIG_REGION_CTL_KEYID q))
  | none =>
    if g.crypto = 0 then dir && s.is (F.CRY_RIGHTS_CTL_PLAIN x)
    else
      s.is F.CRY_CTL_EN && dir && s.maskBit x g.key && s.areaServes g.region &&
        (isReadType typ || (!raw && s.keyState (s.lineKey g a false) != 5))

/-- The lines of a request. -/
def lineCount (c : Carriage) : Nat := if c.typ == tRdLine || c.typ == tWrLine then c.len + 1 else 1
/-- The word address, the global line and the channel-local line of line i of a request. -/
def Carriage.lineAt (c : Carriage) (i : Nat) : Nat := c.addr.toNat / 16 + i
def DramReq.head (r : DramReq) : Carriage := r.pkt.headD Carriage.zero
def State.reqLine (s : State) (r : DramReq) (i : Nat) : Nat := s.localLine (r.head.lineAt i)
def DramReq.carriage (r : DramReq) (i : Nat) : Carriage := r.pkt.getD i r.head

/-- R328: every line lies on channel c, within its capacity, and all in one granule. -/
def State.linesFit (s : State) (c : Nat) (k : Carriage) : Bool :=
  let l := k.lineAt 0
  let e := k.lineAt (lineCount k - 1)
  decide (e < s.nch * s.chanLines c) && s.channelOf l == c && l / s.granule == e / s.granule

/-- R329: the port of a context, and its latency target in ns; none is best effort. -/
def State.portOf (s : State) (c ctx : Nat) : Nat := bitsOf (4 * (ctx % 8)) 4 (s.reg (R.DRC_PORTMAP c (ctx / 8 % 16)))
def State.portTarget (s : State) (c p : Nat) : Option Nat :=
  let t := s.get (F.DRC_PORT_TARGET c p)
  if t = 0 then none else some (50 * min 400 (max 4 t))
/-- Age in ns: RAW counts ns. -/
def State.ageOf (s : State) (r : DramReq) : Nat := (s.time.raw + 2 ^ 48 - r.arrived) % 2 ^ 48
/-- R330. -/
def State.urgency (s : State) (c : Nat) (r : DramReq) : Nat :=
  let a := s.ageOf r
  match s.portTarget c r.port with
  | none => if 6000 ≤ a then 3 else 0
  | some t => if 9 * t ≤ 10 * a then 3 else if 3 * t ≤ 4 * a then 2 else if t ≤ 2 * a then 1 else 0

/-- Lines of writes still queued (R332). -/
def DramReq.isRead (r : DramReq) : Bool := isReadType r.head.typ
def ChSt.queuedLines (x : ChSt) : Nat := ((x.reqs.filter fun r => !r.isRead).map fun r => r.todo.length).foldl (· + ·) 0

/-- R361: the first hit of an exclusion entry in a tick posts. -/
def State.exclHit (s : State) (c e : Nat) : State :=
  let s := s.bump (F.MIG_CNT2_EXCLHIT c) 1
  let x := s.dram c
  if s.newTick (SMap.get x.exclTicks none e) then
    (s.setDram c { x with exclTicks := SMap.set x.exclTicks none e (some s.time.tick) }).post 0x0CE (drcSrc c) e
  else s

/-- Why a request is refused, in the order of Table 15-1, and the state after what the refusal records. -/
def State.dramRefusal (s : State) (c : Nat) (k : Carriage) : Option (Nat × State) :=
  let is := List.range (lineCount k)
  let ad (i : Nat) := 16 * k.lineAt i
  let wr := isWriteType k.typ || k.typ == tAtomic
  if !s.linesFit c k then some (stNoWindow, s)
  else
    match is.findSome? (fun i => s.exclOf c (s.localLine (k.lineAt i)) (ad i)) with
    | some e =>
      let s := s.exclHit c e
      some (stNoWindow, if wr then s.rmwFail c stNoWindow else s)
    | none =>
      if is.any (fun i => (s.lineRgn (ad i)).nested && s.localLine (k.lineAt i) % 16 == 15) then some (stNoWindow, s)
      else if k.typ == tAtomic && decide (6 ≤ bitsOf 0 3 (k.word 2).toNat) then some (stDenied, s)
      else if is.all (fun i => s.rightsOk k.ctx k.typ (ad i)) then none
      else
        let s := if wr && is.any (fun i => (s.areaOf (ad i)).isSome) then s.raise F.CRY_STAT_CTRWR else s
        let bad (i : Nat) : Bool := let g := s.lineRgn (ad i); g.crypto != 0 && s.is F.CRY_CTL_EN && !s.areaServes g.region
        some (stDenied, if is.any bad then s.raise F.CRY_STAT_CFGBAD else s)

/-! ## Group buffers -/

/-- The plain words of line i of a write. -/
def DramReq.lineWords (r : DramReq) (i : Nat) : List Word := (List.range 16).map (r.carriage i).word
/-- The words of a line that a write changes. -/
def DramReq.lineMask (r : DramReq) (i : Nat) : BitVec 16 :=
  let k := r.carriage i
  if r.head.typ == tAtomic then BitVec.ofNat 16 (2 ^ (k.addr.toNat % 16))
  else if r.head.typ == tWrLine then BitVec.allOnes 16 else k.mask
/-- R147, R354: the line after a write, or none where a CAS fails. -/
def DramReq.merge (r : DramReq) (i : Nat) (old : List Word) : Option (List Word) :=
  let k := r.carriage i
  if r.head.typ == tAtomic then
    let w := k.addr.toNat % 16
    let v := old.getD w 0
    let aop := bitsOf 0 3 (k.word 2).toNat
    if aop = 5 then (if v = k.word 1 then some (old.set w (k.word 0)) else none)
    else some (old.set w (atomicNew aop v (k.word 0)))
  else some (mixBeats (r.lineMask i) (r.lineWords i) old)
/-- The old word an atomic returns. -/
def DramReq.noteOld (r : DramReq) (old : List Word) : DramReq :=
  if r.head.typ == tAtomic then { r with got := [(0, old.getD (r.head.addr.toNat % 16) 0)] } else r

/-- A request of the channel, and its update. -/
def ChSt.find (x : ChSt) (id : Nat) : Option DramReq := x.reqs.find? fun r => r.id == id
def ChSt.update (x : ChSt) (r : DramReq) : ChSt := { x with reqs := x.reqs.map fun e => if e.id = r.id then r else e }

/-- R350: a buffer is flushed: its lines wait as single writes again. -/
def State.flushGroup (s : State) (c g : Nat) : State :=
  let x := s.dram c
  match x.groups.find? (fun b => b.group == g) with
  | none => s
  | some b =>
    let owners := b.lines.flatMap fun e => e.2.2
    s.setDram c { x with
      groups := x.groups.filter (fun e => e.group != g),
      reqs := x.reqs.map fun r => { r with todo := r.todo ++ (owners.filter fun o => o.1 == r.id).map (·.2) } }
def State.flushGroups (s : State) (c : Nat) : State := s.forEach ((s.dram c).groups.map (·.group)) fun s g => s.flushGroup c g

/-- R350: line i of an accepted write enters its group's buffer: a full line, or a narrow write of a buffered line. -/
def State.bufferLine (s : State) (c : Nat) (r : DramReq) (i : Nat) : State :=
  let l := s.reqLine r i
  let x := s.dram c
  let g := l / 16
  match x.groups.find? (fun b => b.group == g) with
  | some b =>
    (match b.lines.find? (fun e => e.1 == l % 16) with
     | some e =>
       let y := (r.merge i e.2.1).getD e.2.1
       let ls := b.lines.map fun f => if f.1 = l % 16 then (f.1, y, f.2.2 ++ [(r.id, i)]) else f
       let x : ChSt := { x with groups := x.groups.map fun f => if f.group = g then ⟨g, ls⟩ else f }
       s.setDram c (x.update (r.noteOld e.2.1))
     | none =>
       let ls := b.lines ++ [(l % 16, r.lineWords i, [(r.id, i)])]
       s.setDram c { x with groups := x.groups.map fun f => if f.group = g then ⟨g, ls⟩ else f })
  | none =>
    let s := if 4 ≤ x.groups.length then s.flushGroup c ((x.groups.map (·.group)).headD 0) else s
    let x := s.dram c
    s.setDram c { x with groups := x.groups ++ [⟨g, [(l % 16, r.lineWords i, [(r.id, i)])]⟩] }

/-- Whether line i of a write combines: a line its buffer holds, or a full NESTED line with no earlier write of it queued. -/
def State.combines (s : State) (c : Nat) (r : DramReq) (i : Nat) : Bool :=
  let l := s.reqLine r i
  let x := s.dram c
  let held := x.groups.any fun b => b.group == l / 16 && b.lines.any fun e => e.1 == l % 16
  let queued := x.reqs.any fun q => decide (q.id < r.id) && !q.isRead && q.todo.any fun k => s.reqLine q k == l
  s.is F.MIG_CTL_GCOMB && !r.isRead &&
    (held || (((r.rgns.getD i ⟨32, false, 0, 0, 0, 0, false⟩).nested && r.lineMask i == BitVec.allOnes 16 &&
      r.head.typ != tAtomic) && !queued))

/-- A request joins the channel: its lines wait, or combine. A read of ciphertext needs what is written before it in DRAM (R332), so
the buffers of its lines are flushed. -/
def State.dramAccept (s : State) (c : Nat) (pkt : List Carriage) : State :=
  let k := pkt.headD Carriage.zero
  let raw := s.is (F.CRY_RIGHTS_CTL_RAW k.ctx)
  let s := if raw && isReadType k.typ then s.forEach (List.range (lineCount k)) fun s i => s.flushGroup c (s.localLine (k.lineAt i) / 16)
    else s
  let x := s.dram c
  let n := lineCount k
  let r : DramReq :=
  { id := x.nextId, pkt := pkt, arrived := lookupD (s.ni (72 + c)).came k.pid s.time.raw, port := s.portOf c k.ctx,
    rgns := (List.range n).map (fun i => s.lineRgn (16 * k.lineAt i)), raw := raw,
    todo := if k.typ == tFence then [] else List.range n, got := [], stats := [], held := false }
  let s := s.setDram c { x with reqs := x.reqs ++ [r], nextId := x.nextId + 1 }
  r.todo.foldl (fun s i =>
    if s.combines c r i then
      let x := s.dram c
      let left (e : DramReq) : DramReq := if e.id = r.id then { e with todo := e.todo.filter (· != i) } else e
      let s := s.setDram c { x with reqs := x.reqs.map left }
      s.bufferLine c ((s.dram c).find r.id |>.getD r) i
    else s) s

/-! ## Responses -/

/-- The STATUS of a write of several lines: the first that was not performed, else CORRECTED if one was. -/
def DramReq.status (r : DramReq) : Nat :=
  match r.stats.find? (fun e => e.2 != stOk && e.2 != stCorrected) with
  | some e => e.2
  | none => if r.stats.any (fun e => e.2 == stCorrected) then stCorrected else stOk
/-- The response of a request whose lines are all done (Tables 9-5, 15-3 and 15-4). -/
def DramReq.response (r : DramReq) : List Carriage :=
  let c := r.head
  if r.isRead then
    (List.range (lineCount c)).map fun i =>
      let m := if c.typ == tRdLine then BitVec.allOnes 16 else c.mask
      let ws := (List.range 16).map fun w => if m.getLsbD w then lookupD r.got (16 * i + w) 0 else 0
      { replyTo c tRdResp (lookupD r.stats i stOk) m ws with cidx := i, len := if c.typ == tRdLine then c.len else 0 }
  else if c.typ == tAtomic then
    let fine := r.status == stOk || r.status == stCorrected
    [{ replyTo c tAtomicResp r.status c.mask ((if fine then lookupD r.got 0 0 else 0) :: List.replicate 15 0) with
        len := 0, cidx := 0 }]
  else [{ replyTo c (if c.typ == tFence then tFenceAck else tWrAck) r.status c.mask [] with len := 0, cidx := 0 }]

/-- R329, R333: a completed request's latency counts at its port. -/
def State.portDone (s : State) (c : Nat) (r : DramReq) : State :=
  let a := s.ageOf r
  let s := s.peak (F.DRC_PORTCNT_MAXLAT c r.port) (a / 10)
  match s.portTarget c r.port with
  | none => s
  | some t =>
    if a ≤ t then s
    else
      let s := s.bump (F.DRC_PORTCNT_MISS c r.port) 1
      let x := s.dram c
      if s.newTick x.missTick then
        (s.setDram c { x with missTick := some s.time.tick }).post 0x0C5 (drcSrc c) r.port
      else s
/-- A request still has lines to issue, lines in a group buffer, or unconfirmed commands. -/
def ChSt.inFlight (x : ChSt) (r : DramReq) : Bool := x.retry.any fun k => k.who.reqs.contains r.id
def ChSt.combining (x : ChSt) (r : DramReq) : Bool := x.groups.any fun b => b.lines.any fun e => e.2.2.any fun o => o.1 == r.id
def ChSt.ready (x : ChSt) (r : DramReq) : Bool :=
  if r.head.typ == tFence then x.reqs.all fun q => q.isRead || decide (r.id ≤ q.id)
  else r.todo.isEmpty && !r.held && !x.inFlight r && !x.combining r
/-- Requests with nothing left to wait for are answered. -/
def State.answerReady (s : State) (c : Nat) : State :=
  (s.dram c).reqs.foldl (fun s r =>
    let x := s.dram c
    if x.ready r then
      let s := s.setDram c { x with reqs := x.reqs.filter (fun e => e.id != r.id) }
      (if r.head.typ == tFence then s else s.portDone c r).reply (72 + c) r.head r.response
    else s) s

/-! ## The command slot -/

/-- Whom the commands of a request serve. -/
def DramReq.who (r : DramReq) (others : List Nat) : DramWho := ⟨r.id :: others, r.head.ctx, r.head.src, r.port, r.head.seq⟩

/-- Words of a line that queued and buffered writes hold, youngest last (R332, R350). -/
def State.overlays (s : State) (c l : Nat) : List (BitVec 16 × List Word) :=
  let x := s.dram c
  (x.reqs.flatMap fun r =>
    if r.isRead || r.head.typ == tAtomic then []
    else (r.todo.filter fun i => s.reqLine r i == l).map fun i => (r.lineMask i, r.lineWords i)) ++
    x.groups.flatMap fun (b : GroupBuf) => if b.group = l / 16 then
      (b.lines.filter fun e => e.1 == l % 16).map fun e => (BitVec.allOnes 16, e.2.1) else []

/-- A line of a read: from the queued writes where they hold every word asked for, else from the line, with the queued
words over it. A ciphertext read sees the stored line. -/
def State.serveRead (s : State) (c : Nat) (r : DramReq) (i : Nat) (checks : List LineCheck) : State :=
  let l := s.reqLine r i
  let mask := if r.head.typ == tRdLine then BitVec.allOnes 16 else r.head.mask
  let ov := if r.raw && (r.rgns.getD i ⟨32, false, 0, 0, 0, 0, false⟩).crypto != 0 then [] else s.overlays c l
  let have_ := ov.foldl (fun m o => m ||| o.1) 0
  let mixIn (ws : List Word) := ov.foldl (fun ws o => mixBeats o.1 o.2 ws) ws
  let d : ReadRes := if mask &&& ~~~have_ = 0 then ⟨s, stOk, zeroWords⟩
    else s.readData c l (16 * r.head.lineAt i) (r.rgns.getD i ⟨32, false, 0, 0, 0, 0, false⟩) r.raw (mask &&& ~~~have_)
      checks (r.who [])
  let ws := mixIn d.words
  let x := d.state.dram c
  d.state.setDram c (x.update { r with
    todo := r.todo.filter (· != i), stats := r.stats ++ [(i, d.status)],
    got := r.got ++ (List.range 16).map fun w => (16 * i + w, ws.getD w 0) })

/-- A line of a write. -/
def State.serveWrite (s : State) (c : Nat) (r : DramReq) (i : Nat) (checks : List LineCheck) : State :=
  let m := r.lineMask i
  let full := m == BitVec.allOnes 16 && r.head.typ != tAtomic
  let g := r.rgns.getD i ⟨32, false, 0, 0, 0, 0, false⟩
  let d := s.writeData c (s.reqLine r i) (16 * r.head.lineAt i) g full
    (if r.head.typ == tAtomic then BitVec.allOnes 16 else ~~~m) (r.merge i) checks (r.who [])
  let x := d.state.dram c
  if d.held then (d.state.setDram c (x.update { r with held := true })).put ⟨R.CRY_RNURG, g.region, 1⟩ 1
  else
    d.state.setDram c (x.update { (r.noteOld d.old) with
      todo := r.todo.filter (· != i), stats := r.stats ++ [(i, d.status)] })
def State.serveLine (s : State) (c id i : Nat) (checks : List LineCheck) : State :=
  match (s.dram c).find id with
  | none => s
  | some r => if r.isRead then s.serveRead c r i checks else s.serveWrite c r i checks

/-- R350: a buffer that holds its 15 data lines writes all 16 without reading: encrypted lines each under their next counter,
and the parity of what is stored. Where a counter is unreadable or exhausted it is flushed instead. -/
def State.writeGroup (s : State) (c : Nat) (b : GroupBuf) (checks : List LineCheck) : State :=
  let x := s.dram c
  let owner (e : Nat × List Word × List (Nat × Nat)) : Option DramReq := (e.2.2.head?).bind fun o => x.find o.1
  let rgnOf (e : Nat × List Word × List (Nat × Nat)) : LineRgn :=
    match owner e, e.2.2.head? with
    | some r, some o => r.rgns.getD o.2 ⟨32, false, 0, 0, 0, 0, false⟩
    | _, _ => ⟨32, false, 0, 0, 0, 0, false⟩
  let ad (e : Nat × List Word × List (Nat × Nat)) : Nat := 16 * s.globalLine c (16 * b.group + e.1)
  let ms := b.lines.foldl (fun (p : State × List (Word × Bool)) e =>
    let g := rgnOf e
    if g.crypto = 0 then (p.1, p.2 ++ [(0, true)])
    else
      let m := p.1.readMeta g (ad e) true checks .none
      (m.state, p.2 ++ [(m.ctr, m.ctrOk && ctrOf m.ctr != 2 ^ 32 - 1)])) (s, [])
  if !(ms.2.all (·.2)) then ms.1.flushGroup c b.group
  else
    let step (p : State × List Word) (em : (Nat × List Word × List (Nat × Nat)) × (Word × Bool)) : State × List Word :=
      let e := em.1
      let g := rgnOf e
      let l := 16 * b.group + e.1
      let early := bitOf 32 em.2.1.toNat
      let ctr := ctrOf em.2.1 + 1
      let key := p.1.keyOf (p.1.lineKey g (ad e) early)
      let y := if g.crypto = 0 then e.2.1 else cryptLine key ctr (ad e / 16) e.2.1
      let w : DramWho := match owner e with
        | some r => r.who (e.2.2.map (·.1))
        | none => .none
      let t := (p.1.storeLine c l y w).clearLost c l
      let t := if g.crypto = 0 then t
        else (t.writeMeta g (ad e) (ctrWord ctr early false)
          (if g.crypto = 2 then some (lineTag key ctr (ad e / 16) y, false) else none)).noteCounter g.region ctr
      (t, xorLines p.2 y)
    let t := (b.lines.zip ms.2).foldl step (ms.1, zeroWords)
    let s := t.1.storeLine c (16 * b.group + 15) t.2 .none
    let owners := b.lines.flatMap fun e => e.2.2
    let y := s.dram c
    s.setDram c { y with
      groups := y.groups.filter (fun e => e.group != b.group),
      reqs := y.reqs.map fun r => { r with stats := r.stats ++ ((owners.filter fun o => o.1 == r.id).map fun o => (o.2, stOk)) } }

/-- What may issue at a slot: line i of a request, or a whole group (none for i). -/
structure DramCand where
  urgency : Nat
  hit : Bool
  id : Nat
  line : Option Nat
  group : Nat
  deriving DecidableEq, Repr
/-- R330: the higher urgency, then a row hit, then the older. -/
def DramCand.before (a b : DramCand) : Bool :=
  if a.urgency ≠ b.urgency then decide (b.urgency < a.urgency)
  else if a.hit ≠ b.hit then a.hit
  else decide (a.id < b.id)

/-- R353, R354: a write of a line waits for every earlier write of it, and so does a read for an earlier atomic; one of ciphertext
waits for every earlier write (R332). -/
def State.inOrder (s : State) (c : Nat) (r : DramReq) (i : Nat) : Bool :=
  let l := s.reqLine r i
  !(s.dram c).reqs.any fun q => decide (q.id < r.id) && !q.isRead && (!r.isRead || r.raw || q.head.typ == tAtomic) &&
    q.todo.any fun k => s.reqLine q k == l
def State.rowHit (s : State) (c l : Nat) : Bool :=
  SMap.get (s.dram c).rows none (s.bankOf c (s.physLine c l)) == some (s.rowOf c (s.physLine c l))
/-- The counter areas a line needs lie on channels that run. -/
def State.areaUp (s : State) (g : LineRgn) (a : Nat) : Bool :=
  g.crypto == 0 || s.get (F.DRC_STAT_STATE (s.channelOf (g.ctrLine ((a - g.base) / 16)))) == 2

/-- R362: the line is being copied to its spare. -/
def State.copying (s : State) (c l : Nat) : Bool :=
  (List.range 16).any fun k =>
    s.is (F.MIG_REMAP_FROM_VALID c k) && s.is (F.MIG_REMAP_TO_BUSY c k) && s.get (F.MIG_REMAP_FROM_LINE c k) == l
/-- Table 14-6: in HALT contexts 0 to 2 alone are served. -/
def State.ctxServed (s : State) (r : DramReq) : Bool := !s.mode.ov.halt || decide (r.head.ctx ≤ 2)

/-- The candidates of a slot, of reads or of writes. -/
def State.dramCands (s : State) (c : Nat) (reads : Bool) : List DramCand :=
  (s.dram c).reqs.flatMap fun r =>
    if r.isRead = reads && !r.held && s.ctxServed r then
      (match r.todo with
       | i :: _ =>
         let g := r.rgns.getD i ⟨32, false, 0, 0, 0, 0, false⟩
         if s.inOrder c r i && s.areaUp g (16 * r.head.lineAt i) && !s.copying c (s.reqLine r i) then
           [⟨s.urgency c r, s.rowHit c (s.reqLine r i), r.id, some i, 0⟩] else []
       | [] => [])
    else []
def State.groupCands (s : State) (c : Nat) : List DramCand :=
  ((s.dram c).groups.filter fun (b : GroupBuf) =>
      decide (15 ≤ b.lines.length) && !(List.range 16).any fun i => s.copying c (16 * b.group + i)).map fun (b : GroupBuf) =>
    let ids := b.lines.flatMap fun e => e.2.2.map (·.1)
    let rs := (s.dram c).reqs.filter fun r => ids.contains r.id
    ⟨(rs.map (s.urgency c)).foldl max 0, s.rowHit c (16 * b.group), ids.foldl min ((s.dram c).nextId), none, b.group⟩

/-- R332: whether a burst of writes runs at this slot. -/
def State.burstNow (s : State) (c : Nat) : Bool :=
  let x := s.dram c
  let n := x.queuedLines + 16 * (s.groupCands c).length
  let reads := x.reqs.any fun r => r.isRead && !r.todo.isEmpty
  let urgent := x.reqs.any fun r => !r.isRead && !r.todo.isEmpty && s.urgency c r == 3
  if n = 0 then false
  else if x.burst then !(decide (n ≤ 16) && reads) || urgent
  else decide (48 ≤ n) || urgent || !reads

/-- R330: the slot issues what the best candidate needs, if the retry buffer holds it; none while a replay runs (R338). -/
def State.dramSlot (s : State) (c : Nat) (checks : List LineCheck) : State :=
  if s.get (F.DRC_STAT_STATE c) ≠ 2 || s.is (F.MIG_INITCTL_BUSY c) || (s.dram c).replay ≠ 0 then s
  else
    let s0 := s
    let burst := s.burstNow c
    let s := s.setDram c { s.dram c with burst := burst }
    let cs := s.dramCands c true ++ (if burst then s.dramCands c false ++ s.groupCands c else [])
    match cs.foldl (fun (b : Option DramCand) k => match b with | none => some k | some m => if k.before m then some k else b) none with
    | none => s
    | some k =>
      let t := match k.line with
        | some i => s.serveLine c k.id i checks
        | none =>
          match (s.dram c).groups.find? (fun (b : GroupBuf) => b.group == k.group) with
          | some b => s.writeGroup c b checks
          | none => s
      if (List.range 8).any (fun d => decide (64 < (t.dram d).retry.length)) then s0 else t.answerReady c

/-! ## Confirmation and self-refresh -/

/-- R337: every issued command has passed its alert window. -/
def State.confirmAll (s : State) (c : Nat) : State :=
  let x := s.dram c
  (s.setDram c { x with retry := [], oldest := (x.oldest + x.retry.length) % 64, replay := 0 }).answerReady c
/-- R337: the oldest command is confirmed; after a replay every command is (R338). -/
def State.confirmOne (s : State) (c : Nat) : State :=
  let x := s.dram c
  if x.replay ≠ 0 then s.confirmAll c
  else
  match x.retry with
  | [] => s
  | _ :: rest => (s.setDram c { x with retry := rest, oldest := (x.oldest + 1) % 64, replay := 0 }).answerReady c

/-- R371: every dirty line is written. -/
def State.flushCache (s : State) : State :=
  s.forEach (s.cry.cache.map (·.1)) fun s ml => (s.spillMeta ml []).confirmAll (s.channelOf ml)

/-- Every line of some requests is issued, in arrival order, with commands confirmed as they go. -/
def State.serveAll (s : State) (c : Nat) (ids : List Nat) : State :=
  (s.dram c).reqs.foldl (fun s r =>
    if ids.contains r.id && !r.held then
      r.todo.foldl (fun s i => (s.serveLine c r.id i []).confirmAll c) s
    else s) s
/-- R350: the buffers are written before self-refresh. -/
def State.writeGroups (s : State) (c : Nat) : State :=
  let ids := (s.dram c).groups.flatMap fun b => b.lines.flatMap fun e => e.2.2.map (·.1)
  (s.flushGroups c).serveAll c ids

/-- Table 14-6: issued commands complete, buffers and (but in SAFE-HOLD) the counter cache are written, and the components enter
self-refresh. -/
def State.dramSleep (s : State) (c : Nat) : State :=
  if s.get (F.DRC_STAT_STATE c) ≠ 2 then s
  else
    let s := (s.confirmAll c).writeGroups c
    let s := if s.mode.ov.safeHold then s else s.forEach (s.cry.cache.map (·.1)) fun s ml =>
      if s.channelOf ml = c then (s.spillMeta ml []).confirmAll c else s
    let s := s.confirmAll c
    let s := s.setDram c { s.dram c with rows := [], burst := false }
    (s.put (F.DRC_STAT_STATE c) 3).raise (F.DRC_STAT_SRFOK c)
/-- R341: the components leave self-refresh and retrain; contents stay. -/
def State.dramWake (s : State) (c : Nat) : State :=
  if s.get (F.DRC_STAT_STATE c) ≠ 3 || !s.is (F.DRC_CTL_EN c) then s
  else
    let s := (s.put (F.DRC_STAT_STATE c) 2).clear (F.DRC_STAT_SRFOK c)
    s.setDram c { s.dram c with trainedAt := s.time.raw }
/-- Accepted requests complete, and then the channel enters self-refresh (R341, R388). -/
def State.drainChannel (s : State) (c : Nat) : State :=
  if s.get (F.DRC_STAT_STATE c) = 2 then
    let s := (s.confirmAll c).flushGroups c
    (s.serveAll c ((s.dram c).reqs.map (·.id))).dramSleep c
  else s

/-- R385: FREEZE ends a renewal; its new key is LOADED again unless a region names it (Table 16-3). -/
def State.endRenewal (s : State) : State :=
  if s.is F.CRY_RN_ACTIVE then
    let n := s.get F.CRY_RN_NEWKEY
    let named := (List.range 32).any fun r => s.encrypted r && s.get (F.MIG_REGION_CTL_KEYID r) == n
    let s := if named then s else s.setKeyState n 1
    { s.clear F.CRY_RN_ACTIVE with cry := { s.cry with renewFor := none } }
  else s

/-- Global lines `lo` to `hi` no longer hold what was written there: they read as open values until they are written again. -/
def State.openLines (s : State) (lo hi : Nat) : State :=
  s.forEach (List.range 8) fun s c =>
    let x := s.dram c
    let inside (l : Nat) : Bool := decide (lo ≤ s.globalLine c l ∧ s.globalLine c l ≤ hi)
    s.setDram c { x with lines := SMap.drop inside x.lines, filled := x.filled.map fun r => r ++ [(lo, hi)] }

end Sys2Proof.Machine
end

