-- ==== Sys2Proof/Machine/Matrix.lean ====
section
/-! DEFINITION. The trigger matrix (R260 to R263, R492, R493), the dispatcher and the timetable's actions but WAKE,
EVENT and RESHAPE_GO, and the closing of frames by the Pass. -/
namespace Sys2Proof.Machine

/-! ## The matrix -/

/-- The matrix lies in STW; an edge changes nothing while that domain is off. -/
def State.matrixOn (s : State) : Bool := s.domainOn 1
def State.inputLevel (s : State) (i : Nat) : Bool := SMap.get s.matrix.inputs false i
def State.setMatrix (s : State) (m : MatrixSt) : State := { s with matrix := m }
/-- R260, R262: the level of output `o`: its input as LEVEL mode passes it, or its running pulse; code 122 is
the input that stays 0, and codes that name no input drive 0. -/
def State.outputLevel (s : State) (o : Nat) : Bool :=
  let src := s.get (F.TRG_OUT_SRC o)
  if 122 < src then false
  else if s.get (F.TRG_OUT_MODE o) = 0 then s.inputLevel src != s.is (F.TRG_OUT_INV o)
  else (SMap.get s.matrix.pulses none o).isSome
/-- R266: the level of a TIME_OUT pin: as the matrix drives it, or as the timetable does. -/
def State.timeOut (s : State) (pin : Nat) : Bool :=
  if s.get (F.TRG_OUT_SRC (16 + pin)) = 126 then
    (SMap.get s.tt.levels PinLevel.zero pin).level ||
      s.tt.pulses.any fun p => p.1 == pin && decide (0 ≤ signed 48 (s.now - p.2.1).toNat) &&
        decide (signed 48 (s.now - p.2.1).toNat < (2048 * p.2.2 : Nat))
  else s.outputLevel (16 + pin)

/-- R262: an output from 24 up has changed: a notification or a remote edge waits for its carriage. -/
def State.settleOutput (s : State) (t : Word) (o : Nat) : State :=
  let v := s.outputLevel o
  if o < 24 ∨ v = SMap.get s.matrix.outs false o then s
  else
    s.setMatrix { s.matrix with outs := SMap.set s.matrix.outs false o v, waiting := s.matrix.waiting ++ [(o, t, v)] }

/-- R262: a selected edge of an output in PULSE mode drives it high for WIDTH ns; the width runs anew. -/
def State.outputEdge (s : State) (o : Nat) (level : Bool) : State :=
  let v := level != s.is (F.TRG_OUT_INV o)
  let hit := match s.get (F.TRG_OUT_MODE o) with | 0 => false | 1 => v | 2 => !v | _ => true
  let ends := (s.time.raw + max 1 (s.get (F.TRG_OUT_WIDTH o))) % 2 ^ 48
  if hit then s.setMatrix { s.matrix with pulses := SMap.set s.matrix.pulses none o (some ends) } else s

/-- R263: an edge at input `i` at time `t`: its event, its outputs, and the watchdog's fabric line (R425). -/
def State.matrixEdge (s : State) (i : Nat) (level : Bool) (t : Word) : State :=
  if !s.matrixOn || s.inputLevel i == level then s
  else
    let s := s.setMatrix { s.matrix with inputs := SMap.set s.matrix.inputs false i level }
    let s := if bitOf (i % 32) (s.reg (R.TRG_TSEN (i / 32))) then s.postAt t (if level then 0x030 else 0x031) 93 i else s
    let s := if level && i == 26 + s.get F.STW_WD_CTL_FLINE then s.wdKick 1 else s
    let os := (List.range 104).filter fun o => s.get (F.TRG_OUT_SRC o) == i
    (s.forEach os fun s o => s.outputEdge o level).forEach os fun s o => s.settleOutput t o

/-- R262: every output from 24 up is looked at again (after a commit of TRG). -/
def State.settleAll (s : State) : State := s.forEach ((List.range 80).map (· + 24)) fun s o => s.settleOutput s.now o

/-- R492: an edge acts at its time, or is held until it. -/
def State.edgeAt (s : State) (i : Nat) (level : Bool) (t : Word) : State :=
  if 0 < signed 48 (t - s.now).toNat then s.setMatrix { s.matrix with held := s.matrix.held ++ [(t, i, level)] }
  else s.matrixEdge i level t
/-- Held edges whose time has come act in the order of their times. -/
def State.releaseOne (s : State) : State :=
  let due := s.matrix.held.filter fun h => decide (signed 48 (h.1 - s.now).toNat ≤ 0)
  match due with
  | [] => s
  | h :: l =>
    let e := l.foldl (fun a b => if signed 48 (b.1 - a.1).toNat < 0 then b else a) h
    (s.setMatrix { s.matrix with held := s.matrix.held.erase e }).matrixEdge e.2.1 e.2.2 e.1
def State.releaseHeld (s : State) : State := s.matrix.held.foldl (fun s _ => s.releaseOne) s

/-- R493: an acknowledgement of an INJECT (`inj`) or notification write that is not OK or CORRECTED. -/
def State.ttWriteFail (s : State) (inj : Bool) (status addr : Nat) : State :=
  let s := s.raise (if inj then F.TT_ERR_INJFAIL else F.TT_ERR_NTFFAIL)
  let s := s.post 0x023 93 status
  if s.newTick s.tt.failTick then
    { s with tt := { s.tt with failTick := some s.time.tick } }.logEntry 0x023 93 (addr % 2 ^ 48) 0
  else s
/-- R493: what the answer to such a write says. -/
def State.ttWriteDone (s : State) (inj : Bool) (c : Carriage) (addr : Nat) : State :=
  if statusFine c.status then s else s.ttWriteFail inj c.status addr

/-- R262: notification line `l` is written, with its edge's time and level. -/
def State.notify (s : State) (l : Nat) (t : Word) (v : Bool) : State :=
  let a := (s.pair R.TRG_FABADDR_LO R.TRG_FABADDR_HI + 2 * l) % 2 ^ 48
  let q := s.request93 tWrWords a 3 [t, BitVec.ofNat 48 (bit v)]
  let r := s.niTake 93 q (.engine 93 1)
  match r.answer with
  | none => r.state
  | some c => r.state.ttWriteDone false c a

/-- R261, R262: the TRIGGER carriage of remote output `r`. -/
def State.triggerCarriage (s : State) (r : Nat) (t : Word) (v : Bool) : Carriage :=
  { Carriage.zero with
    typ := tTrigger, src := 93, dev := s.devid.toNat, seq := (s.ni 93).seq, mask := 3,
    ctx := s.get (F.NI_CTL_CTX 93),
    payload := [t, BitVec.ofNat 48 (r + 64 * bit v + 128 + 256)] ++ List.replicate 14 0 }
/-- R262: a remote output is sent to the NI of its port. DESIGN CHOICE (log 80): R262 gives no address, so no window; the carriage
takes the minimal legal route (R204). -/
def State.remoteEdge (s : State) (o : Nat) (t : Word) (v : Bool) : State :=
  let p := let p := s.get (F.TRG_OUT_PORT o); if 5 < p then 0 else p
  let c := { s.triggerCarriage (o - 88) t v with route := routeAlong (pathTo 93 (82 + p)) }
  let x := s.ni 93
  s.setNi 93 { x with seq := x.seq + 1, inj := x.inj ++ [⟨[c], 256, false, false, none⟩] }

/-- One waiting edge goes out, if NI 93 takes it. -/
def State.matrixSendOne (s : State) : State :=
  match s.matrix.waiting with
  | [] => s
  | (o, t, v) :: rest =>
    let s' := s.setMatrix { s.matrix with waiting := rest }
    if !s.txReady 93 (if 88 ≤ o then tTrigger else tWrWords) 0 then s
    else if 88 ≤ o then s'.remoteEdge o t v
    else s'.notify (o - 24) t v
def State.matrixSend (s : State) : State := s.matrix.waiting.foldl (fun s _ => s.matrixSendOne) s

/-- TRIG_EDGE: an edge at a pin input, at corrected time `t` at the ball. -/
def execTrigEdge (i : Fin 26) (level : Bool) (t : Word) (s : State) : Ans :=
  .next (s.matrixEdge i level t).matrixSend
/-- R262: a pulse of output `o` ends once its WIDTH has expired. -/
def State.pulseEnd (s : State) (o : Nat) : State :=
  match SMap.get s.matrix.pulses none o with
  | some t =>
    if 2 ^ 47 ≤ (s.time.raw + 2 ^ 48 - t) % 2 ^ 48 then s
    else ((s.setMatrix { s.matrix with pulses := SMap.set s.matrix.pulses none o none }).settleOutput s.now o).matrixSend
  | none => s
def execPulseEnd (o : Fin 104) (s : State) : Ans := .next (s.pulseEnd o)

/-! ## Dispatch -/

/-- Pulses of the timetable that have ended are forgotten. -/
def State.endPulses (s : State) : State :=
  let runs (p : Nat × Word × Nat) : Bool := decide (signed 48 (s.now - p.2.1).toNat < (2048 * p.2.2 : Nat))
  { s with tt := { s.tt with pulses := s.tt.pulses.filter runs } }

/-- R266: one examination of every column head; held edges whose time has come act. -/
def State.dispatch (s : State) : State :=
  ((s.forEach (List.range 64) State.dispatchColumn).releaseHeld).matrixSend.endPulses
def execDispatch (s : State) : Ans := .next s.dispatch

/-! ## Actions (Table 11-5) -/

/-- The TIME_OUT pin of an entry is given to the timetable. -/
def State.pinGiven (s : State) (pin : Nat) : Bool := s.get (F.TRG_OUT_SRC (16 + pin)) == 126
def State.actPulse (s : State) (t : TtTaken) : State :=
  let pin := t.entry.target % 8
  if s.pinGiven pin then
    { s with tt := { s.tt with pulses := s.tt.pulses ++ [(pin, s.ttWhen t, t.entry.arg.toNat % 2 ^ 24)] } }
  else s.raise F.TT_ERR_NOPIN
def execPulse (col : Fin 64) (s : State) : Ans := .next (s.ttPerform col 1 State.actPulse)

/-- R266: of two LEVEL actions with one TIME, the one from the higher column wins. -/
def State.actLevel (s : State) (t : TtTaken) : State :=
  let pin := t.entry.target % 8
  let old := SMap.get s.tt.levels PinLevel.zero pin
  if !s.pinGiven pin then s.raise F.TT_ERR_NOPIN
  else if old.time = t.entry.time ∧ t.col < old.col then s
  else
    let l : PinLevel := ⟨t.entry.arg.getLsbD 0, t.entry.time, t.col⟩
    { s with tt := { s.tt with levels := SMap.set s.tt.levels PinLevel.zero pin l } }
def execLevel (col : Fin 64) (s : State) : Ans := .next (s.ttPerform col 2 State.actLevel)

/-- R493: the word of an INJECT entry is handed to NI 93. -/
def State.actInject (s : State) (t : TtTaken) : State :=
  let a := (s.pair R.TT_INJBASE_LO R.TT_INJBASE_HI + t.entry.target) % 2 ^ 48
  let r := s.niTake 93 (s.request93 tWrWords a 1 [t.entry.arg]) (.column t.col)
  match r.answer with
  | none => r.state
  | some c => r.state.ttWriteDone true c a
/-- The entry stays taken until NI 93 takes the request. -/
def execInject (col : Fin 64) (s : State) : Ans :=
  .next (if s.txReady 93 tWrWords 0 then s.ttPerform col 3 State.actInject else s)

/-- A timetable trigger source changes: low, high, or high for 8 ns. -/
def State.actTrigger (s : State) (t : TtTaken) : State :=
  let i := 106 + t.entry.target % 16
  let w := s.ttWhen t
  match t.entry.arg.toNat % 4 with
  | 0 => s.matrixEdge i false w
  | 1 => s.matrixEdge i true w
  | _ =>
    let s := s.matrixEdge i true w
    s.setMatrix { s.matrix with held := s.matrix.held ++ [(w + BitVec.ofNat 48 (8 * 65536), i, false)] }
def execTtTrigger (col : Fin 64) (s : State) : Ans := .next (s.ttPerform col 4 State.actTrigger).matrixSend

/-- R168: each configured field of a map is asked for a snapshot at its next tick. -/
def State.askSnapshots (s : State) (map : Nat) : State :=
  s.forEach (allFields.filter fun f => bitOf f map && s.configured f) fun s f =>
    s.setFld f { s.fld f with snapWait := true }
def execTtSnap (col : Fin 64) (s : State) : Ans :=
  .next (s.ttPerform col 5 fun s t => s.askSnapshots (t.entry.arg.toNat % 2 ^ 24))
def execTtCommit (col : Fin 64) (s : State) : Ans :=
  .next (s.ttPerform col 6 fun s t => s.armTarget t.entry.target)
def execColClr (col : Fin 64) (s : State) : Ans := .next (s.colClr col)

/-- R269: VALLEY clears columns 0 to 62, the matrix and what timetable actions left on the pins. -/
def State.clearTimetable (s : State) : State :=
  let s := s.forEach (List.range 63) State.colClr
  { s with
    tt := { s.tt with taken := s.tt.taken.filter (fun t => t.col == 63), levels := [], pulses := [] },
    matrix := MatrixSt.zero }

def execFrameClose (s : State) : Ans := .next s.frameClose

end Sys2Proof.Machine
end

