-- ==== Sys2Proof/Machine/Host.lean ====
section
/-! DEFINITION. The commands of the host bridge (chapter 12) but CFGLOAD, KEYLOAD, RENEW and the bridge's resets: the
doorbell block, descriptors, completions, BAR2, and training of the link. -/
namespace Sys2Proof.Machine

/-! ## Fetching -/

/-- R285, R291, R301: pair q may fetch a descriptor now. -/
def State.mayFetch (s : State) (q : Nat) : Bool :=
  let x := s.pairSt q
  s.is F.HB_CTL_EN && s.is (F.RING_QP_CTL_EN q) && !x.stopped && !x.fetching && !s.mode.ov.valley &&
    decide (s.mode.drain ≠ some .valley) && decide (x.sqHead ≠ x.sqTail) && decide (x.inProgress < 16) &&
    decide (s.inProgress < 128)
/-- The read of the next descriptor is issued. -/
def State.fetchNext (s : State) (q : Nat) : State :=
  if s.mayFetch q then
    let x := s.pairSt q
    let base := s.pair (R.RING_QP_SQBASE_LO q) (R.RING_QP_SQBASE_HI q) / 64 * 64
    (s.setPairSt q { x with fetching := true }).hostRead (base + 64 * x.sqHead) 64
  else s
def State.fetchAll (s : State) : State := s.forEach (List.range 32) State.fetchNext

/-- R285: a descriptor arrives. -/
def State.takeDesc (s : State) (q : Nat) (raw : BitVec 512) : State :=
  let x := s.pairSt q
  if !x.fetching then s
  else
    let d : DescSt := ⟨x.count, raw, 0, 0, [], 0, none, false, 0, false⟩
    let x := { x with
      fetching := false, sqHead := (x.sqHead + 1) % s.sqSize q, count := x.count + 1, fetched := x.fetched ++ [d] }
    ((s.setPairSt q x).dropUnknown q).fetchNext q
/-- R294: the read of a descriptor fails. -/
def State.descFault (s : State) (q : Nat) : State :=
  let x := s.pairSt q
  if !x.fetching then s
  else ((s.setPairSt q { x with fetching := false, stopped := true }).raise (F.RING_QP_STAT_FAULT q)).post 0x0E1 80 q

/-- The slot of a pair has completed, or a place became free: the pair goes on fetching. -/
def State.finish (s : State) (q : Nat) (d : DescSt) (status : Nat) (result : Word) : State :=
  ((s.completeDesc q d status result).dropUnknown q).fetchAll

/-! ## Pieces of a transfer (R291) -/

/-- The next piece of a transfer of `n` words at spine word `a`: its length in words. R328: it stays within a granule of `g`
lines. -/
def pieceWords (g a n : Nat) : Nat :=
  if a % 16 = 0 ∧ 16 ≤ n then 16 * min (min 4 (n / 16)) (g - a / 16 % g) else min n (16 - a % 16)
/-- A piece of whole lines. -/
def pieceWhole (a n : Nat) : Bool := a % 16 == 0 && decide (16 ≤ n)
/-- MASK bits of a partial line. -/
def pieceMask (a k : Nat) : Nat := 2 ^ (a % 16) * (2 ^ k - 1)

/-- A request of a descriptor. -/
def State.descRequest (s : State) (q : Nat) (d : DescSt) (typ len addr mask : Nat) (ws : List (Nat × Word)) : Request :=
  { typ := typ, len := len, addr := BitVec.ofNat 48 addr, utag := BitVec.ofNat 16 (if d.op = 1 then d.bits 24 0 16 else 0),
    mask := BitVec.ofNat 16 mask, guar := false, fence := false, ord := d.ord, ctx := s.get (F.RING_QP_CTL_CTX q),
    dev := s.devid.toNat, words := ws }
/-- The read of a piece of `n` words left at `a`, and the write of one. -/
def State.readPiece (s : State) (q : Nat) (d : DescSt) (a n : Nat) : Request :=
  let k := pieceWords s.granule a n
  if pieceWhole a n then s.descRequest q d tRdLine (k / 16 - 1) a 0xFFFF []
  else s.descRequest q d tRdWords 0 (a / 16 * 16) (pieceMask a k) []
def State.writePiece (s : State) (q : Nat) (d : DescSt) (a n : Nat) (ws : List Word) : Request :=
  let k := pieceWords s.granule a n
  if pieceWhole a n then
    s.descRequest q d tWrLine (k / 16 - 1) a 0xFFFF ((List.range k).map fun i => (i, ws.getD i 0))
  else
    s.descRequest q d tWrWords 0 (a / 16 * 16) (pieceMask a k) ((List.range k).map fun i => (a % 16 + i, ws.getD i 0))

/-- The words a read response brings, in order. -/
def responseWords (resp : List Carriage) : List Word :=
  resp.flatMap fun c => ((List.range 16).filter c.enables).map c.word

/-! ## Progress of a descriptor -/

/-- The words gathered, in order. -/
def DescSt.gathered (d : DescSt) : List Word := (List.range d.len).map fun i => lookupD d.have_ i 0
/-- Every word has arrived. -/
def DescSt.allHere (d : DescSt) : Bool := decide (d.have_.length = d.len)

/-- R294, R295: nothing more will be issued and every answer is in: the descriptor completes. -/
def State.settleDesc (s : State) (q : Nat) (d : DescSt) : State :=
  if d.out ≠ 0 then s.keepDesc q d
  else
    match d.fail with
    | some (st, off) => s.finish q d st (BitVec.ofNat 48 (if d.op = 1 ∨ d.op = 2 then off else 0))
    | none =>
      if d.op = 1 ∨ d.op = 2 then (if d.wrOff = d.len then s.finish q d d.status 0 else s.keepDesc q d)
      else if d.op = 3 then
        (if d.ready && (s.pairSt q).isOldest d.slot then s.finish q d d.status 0 else s.keepDesc q d)
      else if d.op = 11 then (if d.ready then s.finish q d d.status d.result else s.keepDesc q d)
      else s.keepDesc q d

/-- R294: a STATUS that fails is the descriptor's, unless one came before. -/
def DescSt.note (d : DescSt) (status off : Nat) : DescSt :=
  if statusFine status then { d with corrected := d.corrected || status == stCorrected }
  else if d.fail.isSome then d else { d with fail := some (status, off) }

/-- A response to the request of a descriptor for the words from offset `off`: data goes to the host, or waits for the
write; ATOMIC_RESP brings the result; FENCE_ACK ends the remote fence. -/
def State.descAnswer (s : State) (q slot off : Nat) (resp : List Carriage) : State :=
  match (s.pairSt q).find slot with
  | none => s
  | some d =>
    let st := ((resp.map (·.status)).find? fun v => !statusFine v).getD
      (if resp.any fun c => c.status == stCorrected then stCorrected else stOk)
    let c := resp.headD Carriage.zero
    let d := { d.note st off with out := d.out - 1 }
    if !statusFine st then s.settleDesc q d
    else if c.typ = tRdResp then
      let ws := responseWords resp
      if d.op = 1 ∧ d.dstHost then
        let s := s.dataWrite (d.dst + 6 * off) (ws.flatMap packWord)
        s.settleDesc q { d with wrOff := d.wrOff + ws.length }
      else
        s.settleDesc q { d with have_ := d.have_ ++ (List.range ws.length).map fun i => (off + i, ws.getD i 0) }
    else if c.typ = tAtomicResp then s.settleDesc q { d with result := c.word 0, ready := true }
    else if c.typ = tFenceAck then s.settleDesc q { d with ready := true }
    else s.settleDesc q d

/-- A request of a descriptor is handed to the pair's NI; a local answer is a response (R221). -/
def State.descIssue (s : State) (q : Nat) (d : DescSt) (off : Nat) (r : Request) : State :=
  let n := pairNi q
  let t := (s.keepDesc q { d with out := d.out + 1 }).niTake n r (.desc q d.slot off)
  match t.answer with
  | none => t.state
  | some c => t.state.descAnswer q d.slot off [c]
/-- The NI takes a request of this type and length now. -/
def State.descReady (s : State) (q : Nat) (r : Request) : Bool := s.txReady (pairNi q) r.typ r.len

/-- The source of a descriptor: its host read is issued once, for the whole range; spine reads go piece by piece. -/
def State.readMore (s : State) (q slot : Nat) : State :=
  match (s.pairSt q).find slot with
  | none => s
  | some d =>
    if d.fail.isSome ∨ d.len ≤ d.rdOff then s
    else if d.srcHost then (s.keepDesc q { d with rdOff := d.len }).hostRead d.src (6 * d.len)
    else
      let a := d.src + d.rdOff
      let r := s.readPiece q d a (d.len - d.rdOff)
      if s.descReady q r then s.descIssue q { d with rdOff := d.rdOff + pieceWords s.granule a (d.len - d.rdOff) } d.rdOff r
      else s

/-- The spine destination of a MOVE or FILL: the next piece, once its words are here. -/
def State.writeMore (s : State) (q slot : Nat) : State :=
  match (s.pairSt q).find slot with
  | none => s
  | some d =>
    if d.fail.isSome ∨ d.dstHost ∨ d.len ≤ d.wrOff then s
    else
      let a := d.dst + d.wrOff
      let k := pieceWords s.granule a (d.len - d.wrOff)
      let here (i : Nat) : Option Word := (d.have_.find? fun e => e.1 == d.wrOff + i).map (·.2)
      let fill := BitVec.ofNat 48 (d.bits 24 0 48)
      let ws := (List.range k).filterMap fun i => if d.op = 2 then some fill else here i
      let r := s.writePiece q d a (d.len - d.wrOff) ws
      if ws.length = k ∧ s.descReady q r then
        s.descIssue q { d with wrOff := d.wrOff + k, have_ := d.have_.filter fun e => decide (d.wrOff + k ≤ e.1) } d.wrOff r
      else s

/-- R294: a host read for a descriptor brings words, or fails. -/
def State.hostData (s : State) (q slot off : Nat) (ws : List Word) : State :=
  match (s.pairSt q).find slot with
  | none => s
  | some d =>
    if d.srcHost then s.keepDesc q { d with have_ := d.have_ ++ (List.range ws.length).map fun i => (off + i, ws.getD i 0) }
    else s
def State.hostDataFail (s : State) (q slot : Nat) : State :=
  match (s.pairSt q).find slot with
  | none => s
  | some d => if d.srcHost then s.settleDesc q (d.note 0x11 0) else s

def State.hostMemoryRead (s : State) (q : Nat) (r : HostRead) : State :=
  match r with
  | .desc raw => s.takeDesc q raw
  | .descFail => s.descFault q
  | .data slot off ws => s.hostData q slot off ws
  | .dataFail slot => s.hostDataFail q slot
def execHostMemoryRead (q : Fin 32) (r : HostRead) (s : State) : Ans := .next (s.hostMemoryRead q r)

/-! ## Operations (Table 12-7) -/

/-- A command for a descriptor: it starts, or goes on, if it may. -/
def State.withDesc (s : State) (q slot op : Nat) (g : State → DescSt → State) : State :=
  let t := s.descFor q slot op
  match t.2 with
  | none => (t.1.dropUnknown q).fetchAll
  | some d => g (t.1.dropUnknown q) d

/-- MOVE: the next read of the source and the next write of the destination. -/
def execMove (q : Fin 32) (slot : Nat) (s : State) : Ans :=
  .next (s.withDesc q slot 1 fun s _ => ((s.readMore q slot).writeMore q slot).pump (pairNi q))
/-- FILL: the next write. -/
def execFill (q : Fin 32) (slot : Nat) (s : State) : Ans :=
  .next (s.withDesc q slot 2 fun s _ => (s.writeMore q slot).pump (pairNi q))

/-- R292: FENCE waits for every earlier descriptor; with REMOTE it then sends FENCE_REQ once. -/
def State.fenceDesc (s : State) (q : Nat) (d : DescSt) : State :=
  if !(s.pairSt q).isOldest d.slot then s.keepDesc q d
  else if d.bits 24 0 1 = 0 then s.settleDesc q { d with ready := true }
  else if d.rdOff ≠ 0 then s.settleDesc q d
  else
    let r := s.descRequest q d tFence 0 d.dst 0 []
    if s.descReady q r then s.descIssue q { d with rdOff := 1 } 0 r else s.keepDesc q d
def execFence (q : Fin 32) (slot : Nat) (s : State) : Ans :=
  .next (s.withDesc q slot 3 fun s d => s.fenceDesc q d)

/-- A descriptor that gathers words: more are read, and once all are here it acts. -/
def State.gatherDesc (s : State) (q slot : Nat) (g : State → DescSt → State) : State :=
  let s := s.readMore q slot
  match (s.pairSt q).find slot with
  | none => s
  | some d => if d.fail.isNone && d.allHere && d.out == 0 then g s d else s

/-- R265: the entries are appended, or the load is rejected and the descriptor ends DENIED. -/
def State.actTtload (s : State) (q : Nat) (d : DescSt) : State :=
  let t := s.ttLoad (d.bits 24 0 6) (s.get (F.RING_QP_CTL_CTX q)) (ttEntries d.gathered) true
  t.1.finish q d (if t.2 then d.status else stDenied) 0
def execTtload (q : Fin 32) (slot : Nat) (s : State) : Ans :=
  .next (s.withDesc q slot 4 fun s _ => s.gatherDesc q slot fun s d => s.actTtload q d)

/-- R227: 120 words into the inactive slot table. -/
def State.actSlotload (s : State) (q : Nat) (d : DescSt) : State :=
  let n := d.bits 24 0 8
  let s := (List.range 120).foldl (fun s i => s.bankWrite n 2 i (d.gathered.getD i 0)) s
  s.finish q d d.status 0
def execSlotload (q : Fin 32) (slot : Nat) (s : State) : Ans :=
  .next (s.withDesc q slot 7 fun s _ => s.gatherDesc q slot fun s d => s.actSlotload q d)
/-- R227: windows in words 0 to 255, routes in words 256 to 767. -/
def State.actRouteload (s : State) (q : Nat) (d : DescSt) : State :=
  let n := d.bits 24 0 8
  let ws := d.gathered
  let s := (List.range 256).foldl (fun s i => s.bankWrite n 0 i (ws.getD i 0)) s
  let s := (List.range 512).foldl (fun s i => s.bankWrite n 1 i (ws.getD (256 + i) 0)) s
  s.finish q d d.status 0
def execRouteload (q : Fin 32) (slot : Nat) (s : State) : Ans :=
  .next (s.withDesc q slot 8 fun s _ => s.gatherDesc q slot fun s d => s.actRouteload q d)

/-- R168: the configured fields a SNAP names. -/
def State.snapFields (s : State) (d : DescSt) : List Nat := allFields.filter fun f => bitOf f (d.bits 24 0 24) && s.configured f
/-- R168: SNAP asks for its snapshots when it starts, and completes when every drain is done with the tick counter of
the snapshot (the latest, where fields were late). -/
def State.snapDesc (s : State) (q : Nat) (d : DescSt) : State :=
  if !d.ready then
    (s.askSnapshots (d.bits 24 0 24)).keepDesc q { d with ready := true }
  else
    let fs := s.snapFields d
    if fs.all (fun f => !(s.fld f).snapWait && !s.is (F.FLD_SNAPSTAT_DRAIN f)) then
      s.finish q d stOk (BitVec.ofNat 48 (fs.foldl (fun m f => max m (s.fld f).snapTick) 0))
    else s
def execSnap (q : Fin 32) (slot : Nat) (s : State) : Ans :=
  .next (s.withDesc q slot 6 fun s d => s.snapDesc q d)

/-- ATOMIC: one ATOMIC carriage, once. -/
def State.atomicDesc (s : State) (q : Nat) (d : DescSt) : State :=
  if d.rdOff ≠ 0 then s.settleDesc q d
  else
    let w (b : Nat) : Word := BitVec.ofNat 48 (d.bits b 0 48)
    let r := s.descRequest q d tAtomic 0 d.dst 0 [(0, w 24), (1, w 30), (2, BitVec.ofNat 48 (d.bits 36 0 3))]
    if s.descReady q r then s.descIssue q { d with rdOff := 1 } 0 r else s.keepDesc q d
def execAtomicDesc (q : Fin 32) (slot : Nat) (s : State) : Ans :=
  .next (s.withDesc q slot 11 fun s d => (s.atomicDesc q d).pump (pairNi q))

/-- MARK: its event, whose time is the result. -/
def State.markDesc (s : State) (q : Nat) (d : DescSt) : State :=
  (s.post 0x0E0 80 (d.bits 24 0 8)).finish q d stOk s.now
def execMark (q : Fin 32) (slot : Nat) (s : State) : Ans :=
  .next (s.withDesc q slot 12 fun s d => s.markDesc q d)

/-! ## Completions (R285, R286, R296 to R298) -/

/-- Room for one completion. -/
def State.cqRoom (s : State) (q : Nat) : Bool := (s.pairSt q).cqHead != ((s.pairSt q).cqTail + 1) % s.cqSize q
/-- The oldest waiting completion of a pair is written. -/
def State.completionWrite (s : State) (q : Nat) : State :=
  let x := s.pairSt q
  match x.waiting with
  | [] => s
  | c :: rest =>
    if !s.cqRoom q then s
    else
      let base := s.pair (R.RING_QP_CQBASE_LO q) (R.RING_QP_CQBASE_HI q) / 16 * 16
      let s := s.hostWrite (base + 16 * x.cqTail) (c.bytes x.phase x.sqHead)
      let t := (x.cqTail + 1) % s.cqSize q
      let s := s.setPairSt q { x with waiting := rest, cqTail := t, phase := if t = 0 then !x.phase else x.phase }
      let s := if c.irq then s.interrupt q else s
      s.fetchAll
def execCompletionWrite (q : Fin 32) (s : State) : Ans := .next (s.completionWrite q)

/-! ## Doorbells (R284, R287, R288) -/

/-- R287, R301: the bridge polls: EN is 1, and neither VALLEY nor a request for it has come. -/
def State.polls (s : State) : Bool := s.is F.HB_CTL_EN && !s.mode.ov.valley && decide (s.mode.drain ≠ some .valley)
/-- The read of the doorbell block is issued. -/
def State.readDoorbells (s : State) : State :=
  { s with host := { s.host with polling := true, deferred := false } }.hostRead
    (s.pair R.HB_DBLK_BASE_LO R.HB_DBLK_BASE_HI / 64 * 64) 144
/-- DOORBELL_POLL: a read falls due, with the function's Bus Master Enable; one not yet answered defers it (R287). -/
def State.doorbellPoll (s : State) (bme : Bool) : State :=
  if !s.polls then s
  else if !bme then s.hbError F.HB_ERR_NOBME
  else if s.host.polling then { s with host := { s.host with deferred := true } }
  else s.readDoorbells
def execDoorbellPoll (bme : Bool) (s : State) : Ans := .next (s.doorbellPoll bme)

/-- A 16-bit value of the doorbell block. -/
def dbHalf (b : BitVec 1152) (off : Nat) : Nat := bitsOf (8 * off) 16 b.toNat
/-- Table 12-4: the byte of a completion head. -/
def cqHeadByte (q : Nat) : Nat := if q < 30 then 64 + 2 * q else 128 + 2 * (q - 30)
/-- R284: tail and completion head of a pair. -/
def State.takeTails (s : State) (b : BitVec 1152) (q : Nat) : State :=
  let t := dbHalf b (2 * q)
  let h := dbHalf b (cqHeadByte q)
  let bad (s : State) : State := (s.raise (F.RING_QP_STAT_BADTAIL q)).post 0x0E3 80 q
  let s := if t < s.sqSize q then s.setPairSt q { s.pairSt q with sqTail := t } else bad s
  if h < s.cqSize q then s.setPairSt q { s.pairSt q with cqHead := h } else bad s
/-- R284: heads of the event and log rings. -/
def State.takeHeads (s : State) (b : BitVec 1152) : State :=
  let e := dbHalf b 132
  let l := dbHalf b 134
  let bad (s : State) (arg : Nat) : State := (s.hbError F.HB_ERR_BADTAIL).post 0x0E3 80 arg
  let s := if e < s.evSize then { s with host := { s.host with evHead := e } } else bad s 32
  if l < s.lgSize then { s with host := { s.host with lgHead := l } } else bad s 33
/-- R288: a heartbeat word that differs from the one before kicks the watchdog. -/
def State.heartbeat (s : State) (w : BitVec 32) : State :=
  let s' := { s with host := { s.host with heart := some w } }
  match s.host.heart with
  | some v => if v = w then s' else s'.wdKick 0
  | none => s'
/-- What the doorbell block brings, or what its failed read leaves. -/
def State.takeDoorbells (s : State) (blk : Option (BitVec 1152)) : State :=
  match blk with
  | none => (s.hbError F.HB_ERR_QFAULT).post 0x0E1 80 255
  | some b =>
    let s := (s.forEach (List.range 32) fun s q => s.takeTails b q).takeHeads b
    let s := s.heartbeat (BitVec.ofNat 32 (bitsOf (8 * 124) 32 b.toNat))
    (s.fetchAll.flushEvents).flushLog
/-- DOORBELL_READ: the block returns, or its read fails; a deferred read follows it (R287). -/
def State.doorbellRead (s : State) (blk : Option (BitVec 1152)) : State :=
  if !s.host.polling then s
  else
    let s := { s with host := { s.host with polling := false } }.takeDoorbells blk
    if s.host.deferred then (if s.polls then s.readDoorbells else { s with host := { s.host with deferred := false } }) else s
def execDoorbellRead (blk : Option (BitVec 1152)) (s : State) : Ans := .next (s.doorbellRead blk)

/-- R286: a 0-to-1 write of QP.CTL.EN. -/
def State.qpEnable (s : State) (q : Nat) : State :=
  if s.is (F.RING_QP_CTL_EN q) then s
  else
    let x := s.pairSt q
    (s.raise (F.RING_QP_CTL_EN q)).setPairSt q { x with
      sqHead := 0, cqTail := 0, sqTail := 0, cqHead := 0, phase := true, stopped := false, fetching := false }
def execQpEnable (q : Fin 32) (s : State) : Ans := .next (s.qpEnable q)

/-- R289: a 0-to-1 write of the EN of the event ring, or of the log ring. -/
def State.ringEnable (s : State) (event : Bool) : State :=
  if event then
    if s.is F.RING_EVR_CTL_EN then s
    else { s.raise F.RING_EVR_CTL_EN with host := { s.host with evTail := 0, evHead := 0 } }.flushEvents
  else
    if s.is F.RING_LGR_CTL_EN then s
    else { s.raise F.RING_LGR_CTL_EN with host := { s.host with lgTail := 0, lgHead := 0, dropped := 0 } }.flushLog
def execRingEnable (event : Bool) (s : State) : Ans := .next (s.ringEnable event)

/-! ## BAR2 (R280 to R282) -/

/-- WIN_BASE: bits 32:0 taken as 0. -/
def State.winBase (s : State) : Nat := s.pair R.HB_WIN_BASE_LO R.HB_WIN_BASE_HI / 2 ^ 33 * 2 ^ 33
/-- A request of BAR2. -/
def State.bar2Request (s : State) (typ len addr mask : Nat) (ord : Bool) (ws : List (Nat × Word)) : Request :=
  { typ := typ, len := len, addr := BitVec.ofNat 48 addr, utag := 0, mask := BitVec.ofNat 16 mask, guar := false,
    fence := false, ord := ord, ctx := s.get F.HB_WIN_CTX, dev := s.devid.toNat, words := ws }

/-- R281: a posted write of BAR2 was not acknowledged OK; the address is that of the first word of its carriage. -/
def State.bar2WriteFail (s : State) (c : Carriage) (status : Nat) : State :=
  let first := ((List.range 16).find? c.enables).getD 0
  (s.hbError F.HB_ERR_B2ERR).logEntry 0x0E5 81 (status % 256 + 65536 * ((c.addr.toNat + first) % 2 ^ 48)) 0
def State.bar2WriteDone (s : State) (c : Carriage) (status : Nat) : State :=
  if statusFine status then s else s.bar2WriteFail c status

/-- R282: the read has all its answers: its completion leaves. -/
def State.bar2Finish (s : State) (r : Bar2Read) : State :=
  let out (s : State) (d : Option (List Byte)) (ep : Bool) : State := { s with hostOut := s.hostOut ++ [.bar2 r.tag d ep] }
  let s := { s with host := { s.host with reads := s.host.reads.filter fun x => x.tag != r.tag } }
  match r.bad with
  | some st =>
    let s := s.hbError F.HB_ERR_B2ERR
    if st = stUncorr ∨ st = stPoisoned ∨ st = stTagFail then out s (some (List.replicate r.bytes 0xFF)) true
    else out s none false
  | none =>
    let bytes := (List.range r.count).flatMap fun i => packWord (lookupD r.got i 0) ++ [0, 0]
    out s (some ((bytes.drop r.skip).take r.bytes)) false
/-- A read's progress is kept, or it ends. -/
def State.bar2Keep (s : State) (r : Bar2Read) : State :=
  if r.out = 0 ∧ (r.issued = r.count ∨ r.bad.isSome) then s.bar2Finish r
  else { s with host := { s.host with reads := s.host.reads.map fun x => if x.tag = r.tag then r else x } }
/-- A response to a read of BAR2, for the words from offset `off`. -/
def State.bar2Answer (s : State) (tag off : Nat) (resp : List Carriage) : State :=
  match s.host.reads.find? fun r => r.tag == tag with
  | none => s
  | some r =>
    let st := (resp.map (·.status)).find? fun v => !statusFine v
    let ws := responseWords resp
    let r := { r with
      out := r.out - 1
      bad := r.bad.orElse fun _ => st
      got := if st.isSome then r.got else r.got ++ (List.range ws.length).map fun i => (off + i, ws.getD i 0) }
    s.bar2Keep r

/-- A piece of a read is issued. The tracker's use carries tag and word offset. -/
def State.bar2ReadPiece (s : State) (r : Bar2Read) : State :=
  let a := r.addr.toNat + r.issued
  let k := pieceWords s.granule a (r.count - r.issued)
  let q := if pieceWhole a (r.count - r.issued) then s.bar2Request tRdLine (k / 16 - 1) a 0xFFFF false []
    else s.bar2Request tRdWords 0 (a / 16 * 16) (pieceMask a k) false []
  if r.bad.isSome ∨ r.count ≤ r.issued ∨ ¬ s.txReady 81 q.typ q.len then s
  else
    let off := r.issued
    let r := { r with issued := off + k, out := r.out + 1 }
    let t := (s.bar2Keep r).niTake 81 q (.bar2 false (65536 * r.tag + off))
    match t.answer with
    | none => t.state
    | some c => t.state.bar2Answer r.tag off [c]

/-- Every earlier BAR2 write has been acknowledged. -/
def State.bar2Clear (s : State) : Bool :=
  (s.ni 81).trackers.all fun t => match t.use with | .bar2 true _ => false | _ => true

/-- The next access that waits is handed to NI 81. -/
def State.bar2One (s : State) : State :=
  match s.host.reads.find? fun r => decide (r.issued < r.count) && r.bad.isNone with
  | some r => s.bar2ReadPiece r
  | none =>
    match s.host.bar2 with
    | [] => s
    | .write a mask ws :: rest =>
      let q := s.bar2Request tWrWords 0 a.toNat mask.toNat true ws
      if !s.txReady 81 q.typ 0 then s
      else
        let t := { s with host := { s.host with bar2 := rest } }.niTake 81 q (.bar2 true 0)
        match t.answer with
        | none => t.state
        | some c => t.state.bar2WriteDone { Carriage.zero with addr := a, mask := mask } c.status
    | .read tag a count skip bytes :: rest =>
      if !s.bar2Clear then s
      else
        let r : Bar2Read := ⟨tag, a, count, skip, bytes, 0, [], 0, none⟩
        { s with host := { s.host with bar2 := rest, reads := s.host.reads ++ [r] } }
/-- BAR2 goes on as far as NI 81 takes what waits. -/
def State.bar2Pump (s : State) : State := (List.range 64).foldl (fun s _ => s.bar2One) s

/-- R281: the words of a write that are covered whole, by number from the window's base; and whether one is covered in
part. -/
def bar2Words (off : Nat) (bytes : List Byte) : List (Nat × Word) :=
  let hi := off + bytes.length
  ((List.range (bytes.length / 8 + 2)).map fun i => off / 8 + i).filterMap fun w =>
    if off ≤ 8 * w ∧ 8 * w + 6 ≤ hi then some (w, unpackWord (bytes.drop (8 * w - off))) else none
def bar2Partial (off : Nat) (bytes : List Byte) : Bool :=
  let hi := off + bytes.length
  ((List.range (bytes.length / 8 + 2)).map fun i => off / 8 + i).any fun w =>
    decide (max off (8 * w) < min hi (8 * w + 6)) && !(decide (off ≤ 8 * w) && decide (8 * w + 6 ≤ hi))

/-- R280, R281: a write of BAR2 at byte offset `off`. -/
def State.bar2Write (s : State) (off : Nat) (bytes : List Byte) : State :=
  if !s.is F.HB_WIN_EN then s.hbError F.HB_ERR_B2ERR
  else
    let s := if bar2Partial off bytes then s.hbError F.HB_ERR_PARTIAL else s
    let ws := bar2Words off bytes
    let base := s.winBase
    let lines := (ws.map fun e => (base + e.1) / 16).eraseDups
    let items := lines.map fun l =>
      let here := (ws.filter fun e => (base + e.1) / 16 == l).map fun e => ((base + e.1) % 16, e.2)
      Bar2Item.write (BitVec.ofNat 48 (16 * l)) (BitVec.ofNat 16 (here.foldl (fun m e => m + 2 ^ e.1) 0)) here
    { s with host := { s.host with bar2 := s.host.bar2 ++ items } }.bar2Pump
/-- R301: a wake runs. -/
def State.waking (s : State) : Bool := s.get F.PWR_VALLEY_STATE == 3
/-- R301: an access waits for the end of the wake. -/
def State.holdAccess (s : State) (a : LateAccess) : State := { s with host := { s.host with late := s.host.late ++ [a] } }
def execBar2Write (off : BitVec 36) (bytes : List Byte) (s : State) : Ans :=
  .next (if s.waking then s.holdAccess (.bar2Write off.toNat bytes) else s.bar2Write off.toNat bytes)

/-- R280, R282: a read of BAR2, with the tag of its completion. -/
def State.bar2Read (s : State) (off n tag : Nat) : State :=
  if !s.is F.HB_WIN_EN then
    let s := s.hbError F.HB_ERR_B2ERR
    { s with hostOut := s.hostOut ++ [.bar2 tag none false] }
  else
    let w := off / 8
    let count := (off + n + 7) / 8 - w
    let i := Bar2Item.read tag (BitVec.ofNat 48 (s.winBase + w)) count (off % 8) n
    { s with host := { s.host with bar2 := s.host.bar2 ++ [i] } }.bar2Pump
def execBar2Read (off : BitVec 36) (n tag : Nat) (s : State) : Ans :=
  .next (if s.waking then s.holdAccess (.bar2Read off.toNat n tag) else s.bar2Read off.toNat n tag)

/-! ## The link (R278) -/

/-- MAXGEN: 4 or 5; other values act as 4. -/
def State.maxGen (s : State) : Nat := if s.get F.HB_LINK_MAXGEN = 5 then 5 else 4
/-- The link trains: the rate the partner and the channel allow is capped by MAXGEN. R305, R308: the lanes take their INIT steps,
and LAT those of the lanes in use. -/
def State.linkTrained (s : State) (rate width : Nat) : State :=
  let s := s.forEach (List.range 16) fun s l => s.put (F.LANE_CTLE_STEP l) (s.get (F.LANE_CTLE_INIT l))
  let s := s.forEach (List.range (2 ^ width)) State.noteLat
  (s.put F.HB_LINK_SPEED (min rate s.maxGen)).put F.HB_LINK_WIDTH width
def execLinkTraining (rate : Fin 6) (width : Fin 5) (s : State) : Ans := .next (s.linkTrained rate width)
/-- A retraining posts HB_LINK with the new rate. -/
def execLinkRetrain (rate : Fin 6) (width : Fin 5) (s : State) : Ans :=
  let t := s.linkTrained rate width
  .next (t.post 0x0E4 80 (t.get F.HB_LINK_SPEED))

end Sys2Proof.Machine
end

