-- ==== Sys2Proof/Machine/Cells.lean ====
section
/-! DEFINITION. Word cells: one command for each operation of Table 3-5, LUT-only cells (R81) and the wire operations of
Table 3-6. -/
namespace Sys2Proof.Machine

/-- R70: a saturated value was written in this cycle: SATCYC counts each cycle once. -/
def State.countSat (s : State) (f : Nat) (st : Nat × Nat) (sat : Bool) : State :=
  if sat && (s.fld f).satAt != st then
    (s.setFld f { s.fld f with satAt := st }).bump (F.FLD_SATCYC_COUNT f) 1
  else s

/-- The turn of a cell in a cycle: its field comes to the cycle, and the cell runs on its configuration as it now stands
(R61, R87). -/
def State.cellTurn (s : State) (o : CellOp) : State :=
  let k := cellKey o.field o.cluster o.cell
  let s := s.comeTo o.field ((s.fld o.field).base + o.cycle)
  s.setCell k { s.cell k with alt := o.alt }

/-- What the cell takes at the end of the cycle: its registers, COUT and the cycle it executed. -/
def State.cellDone (s : State) (o : CellOp) (st : Nat × Nat) (r : CellRegs) (cout : Bool) : State :=
  let k := cellKey o.field o.cluster o.cell
  let x := s.cell k
  s.setCell k { x with now := r, prev := x.now, stamp := st, cout := cout }

/-- The registers after an executed operation: DST codes 0 to 3 name a fabric-clocked register that takes the value,
4 to 7 the latch alone (Table 3-3, R82, R87). -/
def CellRegs.write (r : CellRegs) (c : CellCfg) (dst : Nat) (a : AluOut) : CellRegs :=
  let r := if a.toReg && decide (dst < 4) && !c.wired dst then r.set dst a.value else r
  { r with latch := if a.toLatch then a.value else r.latch, fl := a.fl }

/-- The number of a command's cell in its field. -/
def CellOp.place (o : CellOp) : Nat := 64 * o.cluster.val + o.cell.val

/-- What the cell reads in the cycle (R61). -/
def State.cellIn (s : State) (i : FieldImage) (o : CellOp) (st : Nat × Nat) (e : EntryFields) : AluIn :=
  let k := o.place
  let c := s.cellCfg i o.field k
  let x := s.cell (cellKey o.field o.cluster o.cell)
  let r := x.now
  let inp := s.input i o.field k st
  let src := sourceOf c r x.sync (inp c.selX) (inp c.selY) (inp c.selZ) e.imm
  { a := src e.srca, b := src e.srcb, c := src e.srcc, shift := e.shift, imm := e.imm, sat := e.sat, fl := r.fl,
    cin := s.cinOf i o.field k o.cycle st, cond := condHolds e.cond r.fl (decide (o.cycle < i.len o.cluster)),
    tables := [c.entry 4, c.entry 5, c.entry 6, c.entry 7] }

/-- Whether the cell has a cycle to execute: its field executes, and this cycle of the cell has not passed. -/
def State.cellReady (s : State) (o : CellOp) : Bool :=
  s.executes o.field o.cycle &&
    (s.cell (cellKey o.field o.cluster o.cell)).stamp != (s.fld o.field).stamp o.cycle

/-- R61, R63, R67: one cell executes operation `op` in one work cycle. A forbidden field executes as NOP (R87); an
instruction whose COND is false writes nothing and drives COUT at 0. `always` is SEL's exception. -/
def State.runCell (s : State) (op : Nat) (o : CellOp) (alu : AluIn → AluOut) (always : Bool) : State :=
  match s.image o.field with
  | none => s
  | some i =>
    if !s.cellReady o then s
    else
      let s' := s.cellTurn o
      let c := s'.cellCfg i o.field o.place
      let len := i.len o.cluster
      let st := (s.fld o.field).stamp o.cycle
      match entryFor cellOps op (c.entry (o.cycle % len)) with
      | none => s
      | some e =>
        let x := s'.cellIn i o st e
        let r := (s'.cell (cellKey o.field o.cluster o.cell)).now
        if c.lutOnly then s
        else if cellForbidden op e len || (!x.cond && !always) then s'.cellDone o st r false
        else
          let a := alu x
          (s'.cellDone o st (r.write c e.dst a) a.cout).countSat o.field st a.saturated

def execNop (o : CellOp) (s : State) : Ans := .next (s.runCell 0x00 o aluNop false)
def execAdd (o : CellOp) (s : State) : Ans := .next (s.runCell 0x01 o aluAdd false)
def execAdc (o : CellOp) (s : State) : Ans := .next (s.runCell 0x02 o aluAdc false)
def execAddw (o : CellOp) (s : State) : Ans := .next (s.runCell 0x03 o aluAddw false)
def execSub (o : CellOp) (s : State) : Ans := .next (s.runCell 0x04 o aluSub false)
def execSbc (o : CellOp) (s : State) : Ans := .next (s.runCell 0x05 o aluSbc false)
def execSubw (o : CellOp) (s : State) : Ans := .next (s.runCell 0x06 o aluSubw false)
def execNeg (o : CellOp) (s : State) : Ans := .next (s.runCell 0x07 o aluNeg false)
def execAbs (o : CellOp) (s : State) : Ans := .next (s.runCell 0x08 o aluAbs false)
def execAddsh (o : CellOp) (s : State) : Ans := .next (s.runCell 0x09 o aluAddsh false)
def execCmp (o : CellOp) (s : State) : Ans := .next (s.runCell 0x0A o aluCmp false)
def execCmpw (o : CellOp) (s : State) : Ans := .next (s.runCell 0x0B o aluCmpw false)
def execAnd (o : CellOp) (s : State) : Ans := .next (s.runCell 0x10 o aluAnd false)
def execOr (o : CellOp) (s : State) : Ans := .next (s.runCell 0x11 o aluOr false)
def execXor (o : CellOp) (s : State) : Ans := .next (s.runCell 0x12 o aluXor false)
def execAndn (o : CellOp) (s : State) : Ans := .next (s.runCell 0x13 o aluAndn false)
def execOrn (o : CellOp) (s : State) : Ans := .next (s.runCell 0x14 o aluOrn false)
def execXnor (o : CellOp) (s : State) : Ans := .next (s.runCell 0x15 o aluXnor false)
def execNot (o : CellOp) (s : State) : Ans := .next (s.runCell 0x16 o aluNot false)
def execBsel (o : CellOp) (s : State) : Ans := .next (s.runCell 0x17 o aluBsel false)
def execTest (o : CellOp) (s : State) : Ans := .next (s.runCell 0x18 o aluTest false)
def execXorshr (o : CellOp) (s : State) : Ans := .next (s.runCell 0x19 o aluXorshr false)
def execShl (o : CellOp) (s : State) : Ans := .next (s.runCell 0x20 o aluShl false)
def execShr (o : CellOp) (s : State) : Ans := .next (s.runCell 0x21 o aluShr false)
def execSar (o : CellOp) (s : State) : Ans := .next (s.runCell 0x22 o aluSar false)
def execRol (o : CellOp) (s : State) : Ans := .next (s.runCell 0x23 o aluRol false)
def execRor (o : CellOp) (s : State) : Ans := .next (s.runCell 0x24 o aluRor false)
def execShlv (o : CellOp) (s : State) : Ans := .next (s.runCell 0x25 o aluShlv false)
def execShrv (o : CellOp) (s : State) : Ans := .next (s.runCell 0x26 o aluShrv false)
def execSarv (o : CellOp) (s : State) : Ans := .next (s.runCell 0x27 o aluSarv false)
def execFshr (o : CellOp) (s : State) : Ans := .next (s.runCell 0x28 o aluFshr false)
def execExtu (o : CellOp) (s : State) : Ans := .next (s.runCell 0x30 o aluExtu false)
def execExts (o : CellOp) (s : State) : Ans := .next (s.runCell 0x31 o aluExts false)
def execIns (o : CellOp) (s : State) : Ans := .next (s.runCell 0x32 o aluIns false)
def execBrev (o : CellOp) (s : State) : Ans := .next (s.runCell 0x33 o aluBrev false)
def execBswap (o : CellOp) (s : State) : Ans := .next (s.runCell 0x34 o aluBswap false)
def execPopc (o : CellOp) (s : State) : Ans := .next (s.runCell 0x38 o aluPopc false)
def execClz (o : CellOp) (s : State) : Ans := .next (s.runCell 0x39 o aluClz false)
def execCtz (o : CellOp) (s : State) : Ans := .next (s.runCell 0x3A o aluCtz false)
def execCls (o : CellOp) (s : State) : Ans := .next (s.runCell 0x3B o aluCls false)
def execMins (o : CellOp) (s : State) : Ans := .next (s.runCell 0x3C o aluMins false)
def execMaxs (o : CellOp) (s : State) : Ans := .next (s.runCell 0x3D o aluMaxs false)
def execMinu (o : CellOp) (s : State) : Ans := .next (s.runCell 0x3E o aluMinu false)
def execMaxu (o : CellOp) (s : State) : Ans := .next (s.runCell 0x3F o aluMaxu false)
def execSel (o : CellOp) (s : State) : Ans := .next (s.runCell 0x40 o aluSel true)
def execSelz (o : CellOp) (s : State) : Ans := .next (s.runCell 0x41 o aluSelz false)
def execMov (o : CellOp) (s : State) : Ans := .next (s.runCell 0x44 o aluMov false)
def execLdi (o : CellOp) (s : State) : Ans := .next (s.runCell 0x45 o aluLdi false)
def execLdim (o : CellOp) (s : State) : Ans := .next (s.runCell 0x46 o aluLdim false)
def execLdih (o : CellOp) (s : State) : Ans := .next (s.runCell 0x47 o aluLdih false)
def execGetf (o : CellOp) (s : State) : Ans := .next (s.runCell 0x48 o aluGetf false)
def execSetf (o : CellOp) (s : State) : Ans := .next (s.runCell 0x49 o aluSetf false)
def execVadd (o : CellOp) (s : State) : Ans := .next (s.runCell 0x50 o aluVadd false)
def execVsub (o : CellOp) (s : State) : Ans := .next (s.runCell 0x51 o aluVsub false)
def execVabs (o : CellOp) (s : State) : Ans := .next (s.runCell 0x52 o aluVabs false)
def execVmins (o : CellOp) (s : State) : Ans := .next (s.runCell 0x53 o aluVmins false)
def execVmaxs (o : CellOp) (s : State) : Ans := .next (s.runCell 0x54 o aluVmaxs false)
def execVminu (o : CellOp) (s : State) : Ans := .next (s.runCell 0x55 o aluVminu false)
def execVmaxu (o : CellOp) (s : State) : Ans := .next (s.runCell 0x56 o aluVmaxu false)
def execVcmpeq (o : CellOp) (s : State) : Ans := .next (s.runCell 0x57 o aluVcmpeq false)
def execVcmpgt (o : CellOp) (s : State) : Ans := .next (s.runCell 0x58 o aluVcmpgt false)
def execVshl (o : CellOp) (s : State) : Ans := .next (s.runCell 0x59 o aluVshl false)
def execVshr (o : CellOp) (s : State) : Ans := .next (s.runCell 0x5A o aluVshr false)
def execVsar (o : CellOp) (s : State) : Ans := .next (s.runCell 0x5B o aluVsar false)
def execVavg (o : CellOp) (s : State) : Ans := .next (s.runCell 0x5C o aluVavg false)
def execLut12 (o : CellOp) (s : State) : Ans := .next (s.runCell 0x70 o aluLut12 false)

/-- R81: a LUT-only cell performs LUT12 on X with e₀ = 0 in every cycle in which it would execute, whatever its entry;
the flags, B, C and D hold. With A wire-clocked, A is not written (R87). -/
def State.runLutOnly (s : State) (o : CellOp) : State :=
  match s.image o.field with
  | none => s
  | some i =>
    let s' := s.cellTurn o
    let c := s'.cellCfg i o.field o.place
    let st := (s.fld o.field).stamp o.cycle
    if !s.cellReady o || !c.lutOnly then s
    else
      let r := (s'.cell (cellKey o.field o.cluster o.cell)).now
      let v := lut12 [c.entry 0, c.entry 1, c.entry 2, c.entry 3] (s'.input i o.field o.place st c.selX)
      s'.cellDone o st { r with a := if c.wired 0 then r.a else v, latch := v } false

def execLutonly (o : CellOp) (s : State) : Ans := .next (s.runLutOnly o)

/-! ## Wire clocks -/

/-- The binary number whose reflected Gray code is the word's low bits, from bit `k` down, given the parity above. -/
def grayBinary (g : Nat) : Nat → Bool → Nat → Nat
  | 0, _, acc => acc
  | k + 1, p, acc => let b := bitOf k g != p; grayBinary g k b (2 * acc + bit b)
/-- Table 3-6: the next value of the 48-bit reflected Gray sequence. -/
def grayNext (w : Word) : Word :=
  let b : Word := BitVec.ofNat 48 (grayBinary w.toNat 48 false 0) + 1
  b ^^^ (b >>> 1)

/-- R85: edges count through guard cycles, IDLEGATE and overrun, and are lost while the field is halted, STUCK or not
running. -/
def State.edgesCount (s : State) (f : Nat) : Bool :=
  s.mode.running && s.configured f &&
    (match (s.fld f).phase with | .frame | .late | .lateDone => true | _ => false)

/-- R82: one rising edge updates a wire-clocked register by its wire operation, given what the inputs X and Y and the
register show in the field's cycle. A WCBIT above 47 receives no edges (R87), and an edge of another operation's register
is none of this command's. -/
def State.wireEdge (s : State) (e : WireEdge) (wop : Nat) (g : Word → Word → Word → Word) : State :=
  match s.image e.field with
  | none => s
  | some i =>
    let k := cellKey e.field e.cluster e.cell
    let n := 64 * e.cluster.val + e.cell.val
    let c := e.alt.getD (i.cell n)
    if s.edgesCount e.field && c.wired e.reg && c.wop e.reg == wop && decide (c.wcBit e.reg ≤ 47) then
      let x := s.cell k
      let inp := s.input i e.field n (s.fld e.field).here
      s.setCell k { x with now := x.now.set e.reg (g (inp c.selX) (inp c.selY) (x.now.get e.reg)), alt := e.alt }
    else s

def execLoadx (e : WireEdge) (s : State) : Ans := .next (s.wireEdge e 0 fun x _ _ => x)
def execLoady (e : WireEdge) (s : State) : Ans := .next (s.wireEdge e 1 fun _ y _ => y)
def execInc (e : WireEdge) (s : State) : Ans := .next (s.wireEdge e 2 fun _ _ v => v + 1)
def execIncg (e : WireEdge) (s : State) : Ans := .next (s.wireEdge e 3 fun _ _ v => grayNext v)

end Sys2Proof.Machine
end

