-- ==== Sys2Proof/Machine/Slices.lean ====
section
/-! DEFINITION. Arithmetic slices: their operands, products, accumulators, rounding and the operations of Table 5-6. -/
namespace Sys2Proof.Machine

/-- The OP codes of Table 5-6. -/
def sliceOps : List Nat :=
  [0x00, 0x01, 0x02, 0x03, 0x08, 0x09, 0x0A, 0x10, 0x11, 0x12, 0x13, 0x20, 0x21, 0x22, 0x23, 0x24, 0x25]

/-- Table 5-1: the multiply modes. -/
inductive MulMode where
  | full48 | cplx | dual | quad
  deriving DecidableEq, Repr

/-- The subfields of SHIFT and IMM16 (Table 5-4). -/
def EntryFields.mode (e : EntryFields) : MulMode :=
  match e.shift.toNat / 64 with | 0 => .full48 | 1 => .cplx | 2 => .dual | _ => .quad
def EntryFields.au (e : EntryFields) : Bool := e.shift.getLsbD 5
def EntryFields.bu (e : EntryFields) : Bool := e.shift.getLsbD 4
def EntryFields.rnd (e : EntryFields) : Nat := bitsOf 2 2 e.shift.toNat
def EntryFields.count (e : EntryFields) : Nat := e.imm.toNat % 128

/-- R115, Table 5-1: the width of an accumulator lane and of an output lane. -/
def MulMode.accWidth : MulMode → Nat | .quad => 56 | _ => 112
def MulMode.outWidth : MulMode → Nat | .full48 => 48 | .quad => 12 | _ => 24
/-- The accumulator lanes, lane 0 first, as accumulator and lowest bit; in FULL48 the accumulator that `code` names. -/
def MulMode.lanes (m : MulMode) (code : Nat) : List (Nat × Nat) :=
  match m with
  | .full48 => [(code - 4, 0)]
  | .quad => [(0, 0), (0, 56), (1, 0), (1, 56)]
  | _ => [(0, 0), (1, 0)]

/-- Classes of slice operations that Table 5-10 names. -/
def isMulOp (op : Nat) : Bool := op == 0x01 || op == 0x02 || op == 0x03
def isTapOp (op : Nat) : Bool := op == 0x08 || op == 0x09 || op == 0x0A
def isAccOp (op : Nat) : Bool := op == 0x11 || op == 0x12 || op == 0x13
def isSliceWordOp (op : Nat) : Bool := decide (0x20 ≤ op)

/-- R122, R123: a field that Table 5-10 forbids makes the entry execute as NOP. Only the sources the operation reads count: 7 in one
that it ignores (SRCA of a TAP, SRCB of LDACC or ADDACC) names no IMM, which R122 leaves open: DESIGN CHOICE (log entry 79). -/
def sliceForbidden (op : Nat) (e : EntryFields) : Bool :=
  let dst := e.dst.val
  let full := decide (e.mode = .full48)
  let extracts := isMulOp op || isTapOp op || op == 0x10
  e.rnd == 3 || e.shift.toNat % 4 != 0 || e.srcc.val != 0 ||
  ((isMulOp op || isTapOp op || isAccOp op) && (if full then dst != 4 && dst != 5 else dst != 6)) ||
  (op == 0x10 && ((if full then e.srca.val != 4 && e.srca.val != 5 else e.srca.val != 6) ||
    decide (4 ≤ dst ∧ dst ≤ 6))) ||
  (isSliceWordOp op && (decide (4 ≤ dst ∧ dst ≤ 6) || e.shift.toNat / 4 != 0)) ||
  (isMulOp op && (e.srca.val == 7 || e.srcb.val == 7)) || (isTapOp op && e.srcb.val == 7) ||
  ((op == 0x11 || op == 0x12) && e.srca.val == 7) ||
  ((extracts || op == 0x11 || op == 0x12) && decide (128 ≤ e.imm.toNat)) ||
  (extracts && decide (e.mode.accWidth - 1 < e.count)) ||
  ((op == 0x11 || op == 0x12) && decide (e.mode.accWidth - e.mode.outWidth < e.count)) ||
  (decide (e.mode = .cplx) && (e.au || e.bu))

/-! ## Products, accumulators, rounding -/

/-- R107: the halves of an operand, signed unless `u`. -/
def highHalf (u : Bool) (w : Word) : Int := if u then (w.toNat / 2 ^ 24 : Nat) else signed 24 (w.toNat / 2 ^ 24)
def lowHalf (u : Bool) (w : Word) : Int := if u then (w.toNat % 2 ^ 24 : Nat) else signed 24 w.toNat
def whole (u : Bool) (w : Word) : Int := if u then (w.toNat : Nat) else w.toInt

/-- Table 5-1: the products, lane 0 first. -/
def products (m : MulMode) (au bu : Bool) (a b : Word) : List Int :=
  let ah := highHalf au a
  let al := lowHalf au a
  let bh := highHalf bu b
  let bl := lowHalf bu b
  match m with
  | .full48 => [whole au a * whole bu b]
  | .cplx => [ah * bl + al * bh, ah * bh - al * bl]
  | .dual => [al * bl, ah * bh]
  | .quad => [al * bl, al * bh, ah * bl, ah * bh]

def SliceRegs.acc (r : SliceRegs) (k : Nat) : BitVec 112 := if k = 0 then r.acc0 else r.acc1
def SliceRegs.setAcc (r : SliceRegs) (k : Nat) (v : BitVec 112) : SliceRegs :=
  if k = 0 then { r with acc0 := v } else { r with acc1 := v }
/-- The signed value of an accumulator lane, and an accumulator lane taking one. -/
def SliceRegs.lane (r : SliceRegs) (w : Nat) (p : Nat × Nat) : Int := signed w (bitsOf p.2 w (r.acc p.1).toNat)
def SliceRegs.setLane (r : SliceRegs) (w : Nat) (p : Nat × Nat) (v : Nat) : SliceRegs :=
  r.setAcc p.1 (BitVec.ofNat 112 (setBitsOf p.2 w (r.acc p.1).toNat v))

/-- Whether an exact value lies outside the signed range of `w` bits. -/
def outside (w : Nat) (x : Int) : Bool := decide (x < -(2 ^ (w - 1) : Int)) || decide ((2 ^ (w - 1) : Int) ≤ x)
/-- The value of `w` bits taken for an exact one: the nearer bound under SAT, else the low bits. -/
def clampTo (w : Nat) (sat : Bool) (x : Int) : Nat :=
  if outside w x && sat then (if 0 < x then 2 ^ (w - 1) - 1 else 2 ^ (w - 1)) else wrap w x

/-- Table 5-8: v ÷ 2^S rounded. -/
def roundTo (rnd sh : Nat) (v : Int) : Int :=
  let d : Int := (2 ^ sh : Nat)
  let fl := v / d
  let f2 := 2 * (v % d)
  match rnd with
  | 0 => fl
  | 1 => if f2 < d then fl else if d < f2 then fl + 1 else if fl % 2 = 0 then fl else fl + 1
  | _ => if f2 < d then fl else fl + 1

/-- What a slice's cycle comes to: its registers, whether it wrote a saturated value (R119), whether an accumulator
lane overflowed. -/
structure SliceOut where
  regs : SliceRegs
  saturated : Bool
  accOvf : Bool
  deriving DecidableEq, Repr

/-- What an executing slice reads: a, b, its registers, ACCIN, XDEPTH, and the entry. -/
structure SliceIn where
  a : Word
  b : Word
  regs : SliceRegs
  accin : SliceRegs
  xdepth : Bool
  e : EntryFields
  deriving DecidableEq, Repr

/-- R115, R116: the accumulator lanes take their exact new values. -/
def accumulate (x : SliceIn) (exact : List Int) : SliceRegs × Bool :=
  let w := x.e.mode.accWidth
  let ls := x.e.mode.lanes x.e.dst.val
  ((ls.zip exact).foldl (fun r le => r.setLane w le.1 (clampTo w x.e.sat le.2)) x.regs, exact.any (outside w))

/-- R117: the value of the output word and whether a lane lay outside its range. -/
def extract (r : SliceRegs) (e : EntryFields) (code : Nat) : Word × Bool :=
  let qs := (e.mode.lanes code).map fun p => roundTo e.rnd e.count (r.lane e.mode.accWidth p)
  let w := e.mode.outWidth
  (joinLanes w (qs.map (clampTo w e.sat)), qs.any (outside w))

/-- R118: the flags of an operation that loads `v` into the latch. -/
def sliceFlags (v : Word) (ovf : Bool) : Flags := ⟨v.getLsbD 47, v == 0, false, ovf⟩

/-- R120: the tap registers move. -/
def SliceRegs.moveTap (r : SliceRegs) (xdepth : Bool) (b : Word) : SliceRegs :=
  if xdepth then { r with x := r.xd, xd := b } else { r with x := b }

/-- R114: an accumulating operation: the lanes, then extract into the latch, and the flags. -/
def accOut (x : SliceIn) (exact : List Int) (tap : Bool) : SliceOut :=
  let p := accumulate x exact
  let v := extract p.1 x.e x.e.dst.val
  let r := if tap then p.1.moveTap x.xdepth x.b else p.1
  ⟨{ r with latch := v.1, fl := sliceFlags v.1 (p.2 || v.2) }, (p.2 || v.2) && x.e.sat, p.2⟩

/-- The lanes' old values, and ACCIN's same-named lanes (R121). -/
def SliceIn.olds (x : SliceIn) (from_ : SliceRegs) : List Int :=
  (x.e.mode.lanes x.e.dst.val).map (from_.lane x.e.mode.accWidth)
/-- The products of the operands, and of C and X. -/
def SliceIn.prods (x : SliceIn) : List Int := products x.e.mode x.e.au x.e.bu x.a x.b
def SliceIn.tapProds (x : SliceIn) : List Int := products x.e.mode x.e.au x.e.bu x.regs.c x.regs.x

def sliceMul (x : SliceIn) : SliceOut := accOut x x.prods false
def sliceMac (x : SliceIn) : SliceOut := accOut x (List.zipWith (· + ·) (x.olds x.regs) x.prods) false
def sliceMsu (x : SliceIn) : SliceOut := accOut x (List.zipWith (· - ·) (x.olds x.regs) x.prods) false
def sliceTapm (x : SliceIn) : SliceOut := accOut x (List.zipWith (· + ·) (x.olds x.regs) x.tapProds) true
def sliceTapc (x : SliceIn) : SliceOut := accOut x (List.zipWith (· + ·) (x.olds x.accin) x.tapProds) true
def sliceTapz (x : SliceIn) : SliceOut := accOut x x.tapProds true

/-- Destination of a word operation: 0 to 3 name A, B, C, X; 7 the latch alone. -/
def SliceRegs.writeDst (r : SliceRegs) (dst : Nat) (v : Word) : SliceRegs :=
  match dst with
  | 0 => { r with a := v, latch := v }
  | 1 => { r with b := v, latch := v }
  | 2 => { r with c := v, latch := v }
  | 3 => { r with x := v, latch := v }
  | _ => { r with latch := v }

def sliceRdacc (x : SliceIn) : SliceOut :=
  let v := extract x.regs x.e x.e.srca.val
  ⟨{ (x.regs.writeDst x.e.dst.val v.1) with fl := sliceFlags v.1 v.2 }, v.2 && x.e.sat, false⟩

/-- a′ of LDACC and ADDACC: each output-layout lane of a, sign-extended and shifted left by S. -/
def SliceIn.loads (x : SliceIn) : List Int :=
  let w := x.e.mode.outWidth
  (List.range (48 / w)).map fun i => signed w (bitsOf (w * i) w x.a.toNat) * (2 ^ x.e.count : Nat)
/-- LDACC and ADDACC write V, with C 0 as after every flag-writing operation (R118), and leave the latch. -/
def loadOut (x : SliceIn) (exact : List Int) : SliceOut :=
  let p := accumulate x exact
  ⟨{ p.1 with fl := { p.1.fl with c := false, v := p.2 } }, p.2 && x.e.sat, p.2⟩
def sliceLdacc (x : SliceIn) : SliceOut := loadOut x x.loads
def sliceAddacc (x : SliceIn) : SliceOut := loadOut x (List.zipWith (· + ·) (x.olds x.regs) x.loads)
def sliceClracc (x : SliceIn) : SliceOut :=
  ⟨(accumulate x ((x.e.mode.lanes x.e.dst.val).map fun _ => 0)).1, false, false⟩

def wordOut (x : SliceIn) (v : Word) : SliceOut := ⟨x.regs.writeDst x.e.dst.val v, false, false⟩
def sliceMov (x : SliceIn) : SliceOut := wordOut x x.a
def sliceLdi (x : SliceIn) : SliceOut := wordOut x (immWord x.e.imm)
def sliceLdim (x : SliceIn) : SliceOut := wordOut x (x.a.extractLsb' 32 16 ++ x.e.imm ++ x.a.extractLsb' 0 16)
def sliceLdih (x : SliceIn) : SliceOut := wordOut x (x.e.imm ++ x.a.extractLsb' 0 32)
def sliceSwaph (x : SliceIn) : SliceOut := wordOut x (x.a.extractLsb' 0 24 ++ x.a.extractLsb' 24 24)
/-- CONJ negates the low half; the negation of −2²³ sets V and saturates under SAT. The saturated half counts in SATCYC, which R119
leaves open, since it names accumulator and output lanes: DESIGN CHOICE (log entry 79). -/
def sliceConj (x : SliceIn) : SliceOut :=
  let n := -(signed 24 x.a.toNat)
  let v := outside 24 n
  let r : Word := x.a.extractLsb' 24 24 ++ BitVec.ofNat 24 (clampTo 24 x.e.sat n)
  ⟨{ (x.regs.writeDst x.e.dst.val r) with fl := sliceFlags r v }, v && x.e.sat, false⟩
def sliceNop (x : SliceIn) : SliceOut := ⟨x.regs, false, false⟩

/-! ## The cycle of a slice -/

/-- The turn of a slice in a cycle: its field comes to the cycle, and the slice runs on its configuration as it now stands
(R123). -/
def State.sliceTurn (s : State) (o : SliceOp) : State :=
  let k := sliceKey o.field o.slice
  let s := s.comeTo o.field ((s.fld o.field).base + o.cycle)
  s.setSlice k { s.slice k with alt := o.alt }

/-- What an executing slice reads (R110 to R112, R123): PSEL and QSEL codes from 16 bring 0. -/
def State.sliceIn (s : State) (i : FieldImage) (o : SliceOp) (st : Nat × Nat) (e : EntryFields) : SliceIn :=
  let k := o.slice.val
  let c := s.sliceCfg i o.field k
  let r := (s.slice (sliceKey o.field k)).now
  let left := if k = 0 then SliceRegs.zero else (s.slice (sliceKey o.field (k - 1))).seen st
  let xin := if c.word.getLsbD 10 then left.x else 0
  let port (lo : Nat) : Word := s.port16 i o.field (k / 2) st (bitsOf lo 5 c.word.toNat)
  let src (n : Nat) : Word :=
    match n with
    | 0 => r.a | 1 => r.b | 2 => r.c | 3 => r.x | 4 => port 0 | 5 => port 5 | 6 => xin | _ => immWord e.imm
  { a := src e.srca, b := src e.srcb, regs := r, accin := if c.word.getLsbD 11 then left else SliceRegs.zero,
    xdepth := c.word.getLsbD 12, e := e }

def State.sliceReady (s : State) (o : SliceOp) : Bool :=
  s.executes o.field o.cycle && (s.slice (sliceKey o.field o.slice)).stamp != (s.fld o.field).stamp o.cycle

/-- R119: a cycle with an accumulator overflow in the field counts once. -/
def State.countOvf (s : State) (f : Nat) (st : Nat × Nat) (ovf : Bool) : State :=
  if ovf && (s.fld f).ovfAt != st then
    (s.setFld f { s.fld f with ovfAt := st }).bump (F.FLD_ACCOVF_COUNT f) 1
  else s

def State.sliceDone (s : State) (o : SliceOp) (st : Nat × Nat) (r : SliceRegs) : State :=
  let k := sliceKey o.field o.slice
  let x := s.slice k
  s.setSlice k { x with now := r, prev := x.now, stamp := st }

/-- R109, R110: one slice executes operation `op` in one work cycle. -/
def State.runSlice (s : State) (op : Nat) (o : SliceOp) (g : SliceIn → SliceOut) : State :=
  match s.image o.field with
  | none => s
  | some i =>
    if !s.sliceReady o then s
    else
      let s' := s.sliceTurn o
      let len := i.len (o.slice.val / 2)
      let st := (s.fld o.field).stamp o.cycle
      match entryFor sliceOps op ((s'.sliceCfg i o.field o.slice).entry (o.cycle % len)) with
      | none => s
      | some e =>
        let x := s'.sliceIn i o st e
        if sliceForbidden op e || !condHolds e.cond x.regs.fl (decide (o.cycle < len)) then s'.sliceDone o st x.regs
        else
          let r := g x
          ((s'.sliceDone o st r.regs).countSat o.field st r.saturated).countOvf o.field st r.accOvf

def execSliceNop (o : SliceOp) (s : State) : Ans := .next (s.runSlice 0x00 o sliceNop)
def execMul (o : SliceOp) (s : State) : Ans := .next (s.runSlice 0x01 o sliceMul)
def execMac (o : SliceOp) (s : State) : Ans := .next (s.runSlice 0x02 o sliceMac)
def execMsu (o : SliceOp) (s : State) : Ans := .next (s.runSlice 0x03 o sliceMsu)
def execTapm (o : SliceOp) (s : State) : Ans := .next (s.runSlice 0x08 o sliceTapm)
def execTapc (o : SliceOp) (s : State) : Ans := .next (s.runSlice 0x09 o sliceTapc)
def execTapz (o : SliceOp) (s : State) : Ans := .next (s.runSlice 0x0A o sliceTapz)
def execRdacc (o : SliceOp) (s : State) : Ans := .next (s.runSlice 0x10 o sliceRdacc)
def execLdacc (o : SliceOp) (s : State) : Ans := .next (s.runSlice 0x11 o sliceLdacc)
def execAddacc (o : SliceOp) (s : State) : Ans := .next (s.runSlice 0x12 o sliceAddacc)
def execClracc (o : SliceOp) (s : State) : Ans := .next (s.runSlice 0x13 o sliceClracc)
def execSliceMov (o : SliceOp) (s : State) : Ans := .next (s.runSlice 0x20 o sliceMov)
def execSliceLdi (o : SliceOp) (s : State) : Ans := .next (s.runSlice 0x21 o sliceLdi)
def execSliceLdim (o : SliceOp) (s : State) : Ans := .next (s.runSlice 0x22 o sliceLdim)
def execSliceLdih (o : SliceOp) (s : State) : Ans := .next (s.runSlice 0x23 o sliceLdih)
def execSwaph (o : SliceOp) (s : State) : Ans := .next (s.runSlice 0x24 o sliceSwaph)
def execConj (o : SliceOp) (s : State) : Ans := .next (s.runSlice 0x25 o sliceConj)

end Sys2Proof.Machine
end

