-- ==== Sys2Proof/Machine/ImageCheck.lean ====
section
/-! DEFINITION. What the configuration engine checks of an image (chapter 8): its header (R172), its device section (R460)
and the device checks of Table 8-6. -/
namespace Sys2Proof.Machine

/-! ## Work limits against the tick -/

/-- Table 2-1: fabric cycles in 80 ns at an operating point, and its fabric clock in MHz (R34). -/
def cyclesPerBeat (op : Nat) : Nat := match op with | 0 => 40 | 1 => 50 | 2 => 64 | _ => 80
def fabricMhz (op : Nat) : Nat := match op with | 0 => 500 | 1 => 625 | 2 => 800 | _ => 1000
/-- R34: the budget of a frame of `p` beats. -/
def budgetOf (p op : Nat) : Nat := p * cyclesPerBeat op - 2
/-- R154: the work limit of a protected field. -/
def workLimit (p op : Nat) : Int := (80 * (p : Int) - 3000) * (fabricMhz op : Nat) / 2000 - 2
/-- R42, R155: a need that a frame of `p` beats does not leave at operating point `op`. -/
def needBroken (need : Nat) (prot : Bool) (p op : Nat) : Bool :=
  decide (budgetOf p op < need) || (prot && decide (workLimit p op < (need : Int)))

/-! ## Header, Table 8-3 -/

/-- Bits `lo + w - 1 : lo` of header word k. -/
def hdr (ws : List Word) (k lo w : Nat) : Nat := bitsOf lo w (ws.getD k 0).toNat
/-- The header bits that Table 8-3 reserves, by word: those at or above the width given, and the gaps. -/
def headerReserved (ws : List Word) : Bool :=
  let above (k w : Nat) : Bool := hdr ws k w (48 - w) != 0
  above 1 32 || above 2 29 || above 4 16 || above 5 24 || above 6 24 || above 7 11 || hdr ws 7 2 6 != 0 || above 10 12 ||
    above 11 24 || (List.range 24).any (fun f => above (12 + f) 24) || (List.range 60).any fun k => above (68 + k) 0
/-- R172: whether a header fails with FORMAT, whatever the rest holds. -/
def headerBad (ws : List Word) (flash : Bool) : Bool :=
  ws.length != 128 || hdr ws 0 16 32 != 0x50434647 || hdr ws 0 8 8 != 1 || decide (1 < hdr ws 0 0 8) ||
    headerReserved ws || hdr ws 2 24 2 == 3 || hdr ws 2 26 2 == 3 ||
    (hdr ws 6 0 24 &&& (2 ^ 24 - 1 - hdr ws 5 0 24)) != 0 || (hdr ws 0 0 8 == 1 && hdr ws 5 0 24 == 0) ||
    decide (33554431 < hdr ws 1 0 32) || (flash && hdr ws 7 9 1 == 1)
/-- What a header says that is used after it is read. -/
def headerInfo (ws : List Word) : ImageInfo :=
  { full := hdr ws 0 0 8 == 0, length := hdr ws 1 0 32, fieldMap := BitVec.ofNat 24 (hdr ws 5 0 24),
    protMap := BitVec.ofNat 24 (hdr ws 6 0 24), opMin := hdr ws 7 0 2, enc := hdr ws 7 8 1 == 1,
    keySrc := hdr ws 7 9 1 == 1, iv := ws.getD 8 0 ++ ws.getD 9 0, patch := hdr ws 7 10 1 == 1,
    spiClk := if 25 ≤ hdr ws 10 0 8 ∧ hdr ws 10 0 8 ≤ 100 then hdr ws 10 0 8 else 25, dummy := hdr ws 10 8 4,
    wcCount := hdr ws 11 0 24 }
/-- The reshape or safe state of pin p in the header words from `base` (36 RSTATE, 52 SAFE). -/
def hdrPin (ws : List Word) (base p : Nat) : Nat := hdr ws (base + p / 24) (2 * (p % 24)) 2
/-- Speed grade, temperature grade and unit that a header asks for (Table 8-6, details 1 to 4). -/
def identityDetail (ws : List Word) (x : FuseSt) : Option Nat :=
  if hdr ws 2 0 16 != 0x4824 then some 1
  else if decide (x.rev < hdr ws 2 16 4) || decide (hdr ws 2 20 4 < x.rev) then some 2
  else if (hdr ws 2 24 2 != 0 && hdr ws 2 24 2 != x.speed) || (hdr ws 2 26 2 != 0 && hdr ws 2 26 2 != x.temp) then some 3
  else if hdr ws 2 28 1 == 1 && hdr ws 3 0 48 + 2 ^ 48 * hdr ws 4 0 16 != x.unit then some 4
  else none
/-- Detail 0x0E: the first pin of the image's fields with an undefined state: SAFE 1 (Table 8-3). RSTATE defines all four. -/
def badSafe (ws : List Word) (fields : List Nat) : Option Nat :=
  (List.range 384).find? fun p => fields.contains (pinField p) && hdrPin ws 52 p == 1
/-- A field section with what the header says of its field: NEED, PROT, OPMIN, RSTATE and SAFE. -/
def withHeader (ws : List Word) (f : Nat) (i : FieldImage) : FieldImage :=
  { i with need := hdr ws (12 + f) 0 24, prot := hdr ws 6 f 1 == 1, opMin := hdr ws 7 0 2,
           rstate := (fieldPins f).map fun p => (p, hdrPin ws 36 p),
           safe := (fieldPins f).map fun p => (p, hdrPin ws 52 p) }

/-! ## Device section, R460 and Table 21-5 -/

/-- Table 21-2: drive codes allowed for LVCMOS at a bank voltage. -/
def driveAllowed (vccio drive : Nat) : Bool :=
  match vccio with
  | 0 => decide (drive ≤ 1)
  | 1 => decide (drive ≤ 2)
  | 2 => decide (drive ≤ 3)
  | _ => decide (1 ≤ drive ∧ drive ≤ 4)
/-- A pin word with its bank's voltage and the word of the other pin of its pair. -/
def pinWordBad (vccio i : Nat) (w other : Nat) : Bool :=
  let std := bitsOf 0 3 w
  let differential := std == 2 || std == 3
  bitsOf 12 36 w != 0 || bitsOf 4 2 w != 0 || decide (4 < bitsOf 6 3 w) || decide (3 < std) ||
    (differential && (vccio != 2 || bitsOf 9 1 w == 1)) ||
    ((differential || bitsOf 0 3 other == 2 || bitsOf 0 3 other == 3) && std != bitsOf 0 3 other) ||
    (bitsOf 3 1 w == 1 && (!differential || i % 2 == 1)) || (std == 1 && !driveAllowed vccio (bitsOf 6 3 w))
/-- R460: whether a device section (with its length word) is malformed. -/
def deviceBad (ws : List Word) (patch : Bool) : Bool :=
  let l := (ws.getD 0 0).toNat
  let v (b : Nat) : Nat := (ws.getD (1 + b) 0).toNat
  let pin (p : Nat) : Nat := (ws.getD (9 + p) 0).toNat
  ws.length != l + 1 || decide (l < 392) || (!patch && l != 392) || (List.range 8).any (fun b => decide (4 < v b)) ||
    (List.range 384).any fun p => pinWordBad (v (p / 48)) (p % 48) (pin p) (pin (if p % 2 = 0 then p + 1 else p - 1))
/-- R460: a partial image changes only the pin words of its fields. -/
def deviceDiffers (inEffect : SMap Word) (ws : List Word) (fields : List Nat) : Bool :=
  (List.range 392).any fun k =>
    let other := decide (k < 8) || !fields.contains (pinField (k - 8))
    other && SMap.get inEffect 0 (k + 1) != ws.getD (k + 1) 0

/-! ## Cells, Table 3-8 -/

/-- Whether an executed entry of a cell is in error. -/
def cellEntryBad (i : FieldImage) (k e : Nat) : Bool :=
  let c := i.cell k
  let len := i.len (k / 64)
  let w := c.entry e
  let op := opOf w
  let x := entryOf w
  !cellOps.contains op || decide (5 ≤ x.dst.val) || cellForbidden op x len || (op == 0x70 && decide (4 ≤ e))
/-- R77: a chain through cell k at entry e is longer than 4 cells, or crosses into a cluster of another L. -/
def chainBad (i : FieldImage) (k e : Nat) : Bool :=
  let links (k : Nat) : Bool := (i.cell k).links (i.len (k / 64)) e
  links k && decide (1 ≤ k) &&
    ((decide (4 ≤ k) && (List.range 4).all (fun d => links (k - d))) || i.len (k / 64) != i.len ((k - 1) / 64))
/-- R86: whether a cell is in error. -/
def cellBad (i : FieldImage) (k : Nat) : Bool :=
  let c := i.cell k
  (List.range (i.len (k / 64))).any (fun e => (!c.lutOnly && cellEntryBad i k e) || chainBad i k e) ||
    (List.range 4).any (fun r => c.wired r && decide (47 < c.wcBit r)) || (c.lutOnly && c.wired 0) ||
    bitsOf 40 8 c.word.toNat != 0

/-! ## Slices, memories, routing -/

/-- R122: whether a slice is in error; an executed entry's slice runs the sequence of its cluster's L. -/
def sliceBad (i : FieldImage) (k : Nat) (c : SliceCfg) : Bool :=
  let len := i.len (k / 2)
  let sel (lo : Nat) : Nat := bitsOf lo 5 c.word.toNat
  (List.range len).any (fun e =>
    let w := c.entries.getD e 0
    !sliceOps.contains (opOf w) || sliceForbidden (opOf w) (entryOf w)) ||
    decide (16 < sel 0) || decide (16 < sel 5) || bitsOf 15 33 c.word.toNat != 0
/-- R152 and Table 7-12: whether memory j is in error. -/
def memoryBad (i : FieldImage) (j : Nat) : Bool :=
  let w := (lookupD i.bmWords j 0x84210).toNat
  let c := (lookupD i.bmCfg j 0).toNat
  let sel (lo : Nat) : Nat := bitsOf lo 5 w
  let size := 16 * 2 ^ bitsOf 26 3 c
  let stamp := bitsOf 13 2 c
  let mailbox := bitsOf 30 2 c == 3
  let words := bitsOf 7 4 c + 1 + (if stamp = 0 then 0 else 1)
  decide (16 < sel 0) || decide (16 < sel 5) || decide (16 < sel 10) || decide (16 < sel 15) || bitsOf 20 28 w != 0 ||
    stamp == 3 || bitsOf 15 11 c % size != 0 || (mailbox && decide (size < words)) ||
    (mailbox && bitsOf 6 1 c == 0 && decide (15 < sel 0) && decide (15 < sel 10)) ||
    (i.prot && mailbox && bitsOf 6 1 c == 1 && bitOf (j % 32) (lookupD i.pqout (j / 32) 0).toNat)
/-- R94: a wire clock comes through local and cluster routing only: no relay, no global segment. -/
def clockPath (i : FieldImage) (f k : Nat) (c : CellCfg) : Bool :=
  let z := c.selZ.toNat
  decide (z < 128) || decide (160 ≤ z) ||
    (match i.track f (k / 64) (z - 128) with | some (.relay _) => false | some (.global _) => false | _ => true)
/-- R98: the first routing error of a field: a selector code above 160, a wire clock routed against R94, a path of more than
4 cluster-level segments or a loop of them without a relay, or a fence code 3. -/
def routingBad (i : FieldImage) (f : Nat) : Option Nat :=
  let code (c : CellCfg) : Bool := decide (160 < c.selX.toNat) || decide (160 < c.selY.toNat) || decide (160 < c.selZ.toNat)
  match i.cells.find? fun e => code e.2 || ((List.range 4).any e.2.wired && !clockPath i f e.1 e.2) with
  | some e => some e.1
  | none =>
    match i.hops.find? fun e => i.tooLong 4 (.hop e.1) with
    | some e => some e.1
    | none => (i.fences.find? fun e => e.2 == 3).map fun e => e.1 % 128
/-- R95: drivers enabled on track t of field g, given what each field is configured as. -/
def driversOn (cfg : Nat → Option FieldImage) (g t : Nat) : Nat :=
  let on (f d : Nat) : Nat := bit ((cfg f).any fun i => i.drivers.contains (10 * t + d))
  let lo := if t < 64 then 3 else 0
  let hi := if t < 64 then 1 else 2
  ((List.range 8).map (on g)).foldl (· + ·) 0 +
    ((fieldBeyond g lo).map fun f => on f 8).getD 0 + ((fieldBeyond g hi).map fun f => on f 9).getD 0
/-- R97: the first segment (field, track) of the fields `fs` and their neighbours with more than one driver. -/
def twoDrivers (cfg : Nat → Option FieldImage) (fs : List Nat) : Option (Nat × Nat) :=
  let touched := fs.flatMap fun f => f :: (List.range 4).filterMap (fieldBeyond f)
  (touched.flatMap fun g => (List.range 128).map fun t => (g, t)).find? fun e => decide (1 < driversOn cfg e.1 e.2)

/-! ## Wire clocks, R174 -/

/-- The registers of an image's fields with CLKSEL 1, as map entries. -/
def wiredRegs (sections : List (Nat × FieldImage)) : List Nat :=
  sections.flatMap fun e => e.2.cells.flatMap fun c =>
    ((List.range 4).filter c.2.wired).map fun r => e.1 + 32 * (c.1 / 64) + 2 ^ 13 * (c.1 % 64) + 2 ^ 19 * r

/-! ## The device checks of one section, Table 8-6 -/

/-- The first check that a field section fails alone: detail and item. -/
def sectionDetail (f : Nat) (i : FieldImage) : Option (Nat × Nat) :=
  match i.cells.find? fun e => cellBad i e.1 with
  | some e => some (0x07, e.1)
  | none =>
    match i.slices.find? fun e => sliceBad i e.1 e.2 with
    | some e => some (0x08, e.1)
    | none =>
      match (List.range 192).find? fun j => memoryBad i j with
      | some j => some (0x09, j)
      | none =>
        match routingBad i f with
        | some t => some (0x0A, t)
        | none => if i.prot && !i.directs.isEmpty then some (0x0C, 0) else none

end Sys2Proof.Machine
end

