-- ==== Sys2Proof/Machine/Frames.lean ====
section
/-! DEFINITION. Frames (R33 to R47): the initial and shadowed state of a field, DONE, the guard cycles, overrun, STUCK
and restart. -/
namespace Sys2Proof.Machine

/-! ## Initial state, shadows -/

/-- R65: the registers a configured cell starts with: A to D as the image gives them, the rest 0. The synchronisers of
wire-clocked registers start at the same values (log entry 78). -/
def CellCfg.initial (c : CellCfg) : CellSt :=
  let r : CellRegs := { CellRegs.zero with a := c.initA, b := c.initB, c := c.initC, d := c.initD }
  let y : Vector Word 4 := #v[c.initA, c.initB, c.initC, c.initD]
  captureCell c { CellSt.zero with now := r, prev := r, sync := ⟨y, y, y⟩ }

/-- R108: the registers a configured slice starts with. -/
def SliceCfg.initial (c : SliceCfg) : SliceSt :=
  let r : SliceRegs := { SliceRegs.zero with a := c.initA, b := c.initB, c := c.initC }
  ⟨r, r, r, (0, 0), none⟩

/-- R146: queue pointers, STOP, counts and port outputs at their initial value 0, with CRP and CWP; pending
write-backs and spine requests stay. -/
def State.resetQueues (s : State) (f : Nat) : State :=
  { s with
    queues := SMap.mapIn QCtl.zero (192 * f) (192 * (f + 1))
      (fun _ q => { QCtl.zero with backs := q.backs, jobs := q.jobs }) s.queues }

/-- R47, R65, R93, R108, R146: the cells, slices, relays, segments and queues of a field take their initial values.
Contention holds stay (R99). -/
def State.initFabric (s : State) (f : Nat) : State :=
  let i := s.image f
  let s : State := { s with
    cells := SMap.drop (fun k => k / 16384 == f) s.cells,
    slices := SMap.drop (fun k => k / 512 == f) s.slices,
    segs := SMap.mapIn SegSt.zero (2048 * f) (2048 * (f + 1)) (fun _ x => { x with value := 0, prev := 0, shadow := 0, trip := none }) s.segs }
  let s := s.resetQueues f
  match i with
  | none => s
  | some i =>
    let s := i.cells.foldl (fun s e => s.setCell (16384 * f + e.1 % 16384) e.2.initial) s
    i.slices.foldl (fun s e => s.setSlice (512 * f + e.1 % 512) e.2.initial) s

/-- R36, Table 7-3: the tick shadows of a field are captured; not while a snapshot drains (R168), nor in a failed frame,
which is rewound to the shadows it began with (R165). -/
def State.captureShadows (s : State) (f : Nat) : State :=
  if s.is (F.FLD_SNAPSTAT_DRAIN f) || (s.fld f).failed then s
  else
    let cfg (k : Nat) : CellCfg := ((s.image f).map fun i => i.cell (k - 16384 * f)).getD CellCfg.unused
    { s with
      cells := SMap.mapIn CellSt.zero (16384 * f) (16384 * (f + 1)) (fun k x => captureCell (cfg k) x) s.cells,
      slices := SMap.mapIn SliceSt.zero (512 * f) (512 * (f + 1)) (fun _ x => { x with shadow := x.now }) s.slices,
      segs := SMap.mapIn SegSt.zero (2048 * f) (2048 * (f + 1)) (fun _ x => { x with shadow := x.value }) s.segs,
      queues := SMap.mapIn QCtl.zero (192 * f) (192 * (f + 1)) (fun _ q => { q with shadow := q.q }) s.queues }

/-! ## DONE -/

/-- R41: the cycle of a completed frame's DONE. -/
def State.noteDone (s : State) (f c : Nat) : State :=
  (s.put (F.FLD_LASTDONE_CYC f) (min c (2 ^ 24 - 1))).peak (F.FLD_MAXDONE_CYC f) c

/-- R156: a protected frame whose DONE came after W_max is released without verification. -/
def State.unverified (s : State) (f : Nat) : State :=
  ((s.raise (F.FLD_PROTSTAT_UNVER f)).bump (F.FLD_PCNT_UNVER f) 1).post 0x087 (fieldSrc f) 0

/-- R39: the word that feeds the field control in cycle `st`: bit 0 is the DONE port and bit 1 the CHKFAIL port. -/
def State.controlWord (s : State) (f : Nat) (st : Nat × Nat) : Word :=
  match s.image f with
  | some i => (i.doneTrack.map (s.outTrack i f st)).getD 0
  | none => 0

/-- R39: DONE is sampled in work cycle `cyc`: the field executes it, no DONE is held, and the DONE port is 1 or, with
DONESRC 1, the cycle is DONEAT.CYC. -/
def State.doneSampled (s : State) (f cyc : Nat) : Bool :=
  let x := s.fld f
  s.executes f cyc && x.doneAt.isNone &&
    (if s.is (F.FLD_CTL_DONESRC f) then s.get (F.FLD_DONEAT_CYC f) == cyc
     else ((s.comeTo f (x.base + cyc)).controlWord f (x.stamp cyc)).getLsbD 0)

/-- DONE of a frame in time, at the end of its cycle `c`: with IDLEGATE the values present are those released (R37). A DONE
after W_max leaves the frame unverified (R156), but not in a replay, which is not verified: DESIGN CHOICE (log entry 79). -/
def State.doneInTime (s : State) (f c : Nat) : State :=
  let x := { s.fld f with doneAt := some c }
  let x := if s.is (F.FLD_CTL_IDLEGATE f) then { x with release := s.framed f, captured := true } else x
  let s := s.setFld f x
  if s.isProtected f && !s.is (F.FLD_PROTSTAT_REPLAYING f) && decide (s.get (F.FLD_WMAX_CYC f) < c) then s.unverified f
  else s

/-- DONE of a late frame: the field idles until the next tick (R44); under RELEASE_LATE its outputs are captured and driven
from the next cycle, or at that tick in a protected field (R45). -/
def State.doneLate (s : State) (f c : Nat) : State :=
  let outs := s.framed f
  let x := { s.fld f with doneAt := some c, phase := .lateDone }
  let x := if !s.is (F.FLD_CTL_LATE_POLICY f) then x
    else if s.isProtected f then { x with release := outs, captured := true }
    else { x with release := outs, driven := outs }
  s.setFld f x

/-- R39: DONE in work cycle `cyc`; the cycle ends with it. -/
def State.done (s : State) (f cyc : Nat) : State :=
  if s.doneSampled f cyc then
    let c := (s.fld f).base + cyc
    let s := s.comeTo f (c + 1)
    let t := if (s.fld f).phase = .frame then s.doneInTime f c else s.doneLate f c
    t.noteDone f c
  else s
def execDone (f : FieldNo) (cyc : Nat) (s : State) : Ans := .next (s.done f cyc)

/-! ## Guard cycles -/

/-- R43: the field overruns. -/
def State.overrun (s : State) (f : Nat) : State :=
  let s := if s.is (F.FLD_FSTAT_OVERRUN f) then s else s.logEntry 0x080 (fieldSrc f) f 0
  let s := s.setFld f { s.fld f with phase := .late, crossed := 0 }
  ((s.raise (F.FLD_FSTAT_OVERRUN f)).bump (F.FLD_OVRCNT_OVR f) 1).post 0x080 (fieldSrc f) f

/-- R36: cycle B: DONE is decided, and the framed outputs are captured. -/
def State.guard1 (s : State) (f : Nat) : State :=
  let b := s.budget f
  if s.mode.running && decide ((s.fld f).phase = .frame) && decide ((s.fld f).cycle ≤ b) then
    let s := s.comeTo f b
    let x := s.fld f
    match x.doneAt with
    | none => s.overrun f
    | some _ => if x.captured then s else s.setFld f { x with release := s.framed f, captured := true }
  else s
def execGuard1 (f : FieldNo) (s : State) : Ans := .next (s.guard1 f)

/-- R36: cycle B + 1: the tick shadows are captured. -/
def State.guard2 (s : State) (f : Nat) : State :=
  let x := s.fld f
  if s.mode.running && decide (x.phase = .frame) && decide (x.cycle = s.budget f) && x.captured then
    (s.comeTo f (s.budget f + 1)).captureShadows f
  else s
def execGuard2 (f : FieldNo) (s : State) : Ans := .next (s.guard2 f)

/-! ## STUCK and restart -/

/-- The NIs of a field take or lose the cause STUCK (R46, R47). -/
def State.stuckNis (s : State) (f : Nat) (b : Bool) : State :=
  s.forEach (fieldNis f) fun s n =>
    let x := s.ni n
    s.setNi n { x with causes := { x.causes with stuck := b } }

/-- R46: the field becomes STUCK; the late frame is abandoned, and with it a replay. Carriages that a protected field holds
for it stay in the release queue and go out at the field's next commit: DESIGN CHOICE (log entry 79). -/
def State.becomeStuck (s : State) (f : Nat) : State :=
  let s := s.setFld f { s.fld f with phase := .stuck, captured := false, restart := false, rewound := false }
  (((s.clear (F.FLD_PROTSTAT_REPLAYING f)).stuckNis f true).logEntry 0x081 (fieldSrc f) f 0).post 0x081 (fieldSrc f) f
def State.fieldStuck (s : State) (f : Nat) : State :=
  let x := s.fld f
  if decide (x.phase = .late) && x.doneAt.isNone && s.spent f then s.becomeStuck f
  else s
def execFieldStuck (f : FieldNo) (s : State) : Ans := .next (s.fieldStuck f)

/-- R47, R196: the write of CTL.RESTART: ignored while STUCK is 0 and for a field an uncorrectable frame stopped, taken at the
next tick otherwise. -/
def State.restart (s : State) (f : Nat) : State :=
  if (s.fld f).phase = .stuck ∧ bitOf f (s.reg R.SCR_UNCFG) = false then s.setFld f { s.fld f with restart := true } else s
def execRestart (f : FieldNo) (s : State) : Ans := .next (s.restart f)

/-! ## Contention -/

/-- R99, R101: drivers meet on a segment in absolute cycle `cyc` of the frame: the segment is held, its register captures an
open value at the end of that cycle if the field executes it, and it reads 0 afterwards. -/
def State.contention (s : State) (f track cyc : Nat) : State :=
  let k := segKey f track
  if (s.seg k).held then s
  else
    let runs := s.executes f (cyc - (s.fld f).base)
    let s := if runs then s.comeTo f cyc else s
    let x := s.seg k
    let again := match x.autoAt with
      | some t => decide ((s.time.tick + 2 ^ 48 - t) % 2 ^ 48 ≤ 16)
      | none => false
    let w := s.freeWord
    let s := if runs then w.2.setSeg k { x with held := true, clrOnly := again, trip := some w.1, autoAt := none }
      else s.setSeg k { x with held := true, clrOnly := again, value := 0, trip := none, autoAt := none }
    let s := if again then s.logOpen (fieldSrc f) (128 * f + track) else s
    let s := (s.bump (F.FLD_CONTSTAT_TRIPS f) 1).put (F.FLD_CONTSTAT_LASTSEG f) track
    let s := (s.logEntry 0x082 (fieldSrc f) (128 * f + track) 0).post 0x082 (fieldSrc f) track
    s.detectBeforeDone f .contention cyc
def execContention (f : FieldNo) (track : Fin 128) (cyc : Nat) (s : State) : Ans := .next (s.contention f track cyc)

/-- R100: held segments of a field are re-enabled; they read what drives them again. -/
def State.contClr (s : State) (f : Nat) : State :=
  { s with
    segs := SMap.mapIn SegSt.zero (2048 * f) (2048 * f + 128)
      (fun _ x => { x with held := false, clrOnly := false, autoAt := none, trip := none }) s.segs }
def execContClr (f : FieldNo) (s : State) : Ans := .next (s.contClr f)

end Sys2Proof.Machine
end

