-- ==== Sys2Proof/Machine/Protected.lean ====
section
/-! DEFINITION. Protected execution: CHKFAIL, the start of a replay, the verification window and the end of a snapshot
(R153 to R168). -/
namespace Sys2Proof.Machine

/-- Table 7-2: the CHKFAIL port, bit 1 of the word that feeds the field control (R39), is sampled at 1 in work cycle `cyc`,
with CHKEN, before DONE. -/
def State.chkfail (s : State) (f cyc : Nat) : State :=
  let x := s.fld f
  let t := s.comeTo f (x.base + cyc)
  if s.isProtected f && s.is (F.FLD_PROT_CHKEN f) && s.executes f cyc && (t.controlWord f (x.stamp cyc)).getLsbD 1 then
    t.detectBeforeDone f .chkfail (x.base + cyc)
  else s
def execChkfail (f : FieldNo) (cyc : Nat) (s : State) : Ans := .next (s.chkfail f cyc)

/-- No repair of a frame of the field is pending. -/
def State.repaired (s : State) (f : Nat) : Bool := s.cfg.repairs.all fun r => r.field != f

/-- R164, R167: the replay starts in absolute cycle `cyc`, once every pending repair of the field is complete. -/
def State.replayStart (s : State) (f cyc : Nat) : State :=
  let x := s.fld f
  if x.rewound && s.repaired f && decide (x.cycle ≤ cyc) then
    (s.setFld f { x with rewound := false, base := cyc, cycle := cyc }).raise (F.FLD_PROTSTAT_REPLAYING f)
  else s
def execReplayStart (f : FieldNo) (cyc : Nat) (s : State) : Ans := .next (s.replayStart f cyc)

/-- Table 7-8: 2 µs after a verifiable DONE without a detection, the window closes. -/
def State.windowClose (s : State) (f : Nat) : State :=
  let x := s.fld f
  match x.doneAt with
  | some d =>
    if s.isProtected f && decide (x.phase = .frame) && decide (d ≤ s.get (F.FLD_WMAX_CYC f)) && !x.rewound && !x.failed
    then s.raise (F.FLD_PROTSTAT_VERIFIED f) else s
  | none => s
def execVerificationWindowClose (f : FieldNo) (s : State) : Ans := .next (s.windowClose f)

/-- R168: the last acknowledgement of the drain has returned. -/
def State.snapDone (s : State) (f : Nat) : State :=
  if s.is (F.FLD_SNAPSTAT_DRAIN f) && decide ((s.fld f).snapLeft = 0) then
    ((s.clear (F.FLD_SNAPSTAT_DRAIN f)).raise (F.FLD_SNAPSTAT_DONE f)).post 0x089 (fieldSrc f) f
  else s
def execSnapDone (f : FieldNo) (s : State) : Ans := .next (s.snapDone f)

end Sys2Proof.Machine
end

