-- ==== Sys2Proof/Machine/Modes.lean ====
section
/-! DEFINITION. The mode machine (R23 to R30): what FREEZE, SAFE-HOLD and a failed load do, LOCKING, the requests RUN, STOP and
VALLEY, and clock events (R396 to R401). -/
namespace Sys2Proof.Machine

/-! ## Configuration in effect -/

/-- R184: the OPMIN each configured field keeps, and from acceptance those of the image being loaded. -/
def State.opMins (s : State) : List Nat :=
  (s.images.filterMap fun e => e.2.map (·.opMin)) ++ s.accepted.map (·.2.opMin)
/-- CFG.FIELDS.MAP and CFG.OPMIN follow the images. -/
def State.syncConfig (s : State) : State :=
  let map := allFields.foldl (fun m f => m + 2 ^ f * bit (s.configured f)) 0
  (s.put F.CFG_FIELDS_MAP map).put F.CFG_OPMIN_DEV (s.opMins.foldl max 0)

/-- A field loses its image: its fabric, its memories' contents and what the image set in its registers. -/
def State.unconfigure (s : State) (f : Nat) : State :=
  let s := ((s.setImage f none).initFabric f).dropImageBits f
  let s : State := { s with bmem := s.bmem.filter fun e => e.1 / (2048 * 192) != f }
  { s with cfg := { s.cfg with encrypted := SMap.set s.cfg.encrypted false f false } }
/-- Configuration memory is cleared. -/
def State.clearConfig (s : State) : State :=
  let s := s.forEach allFields fun s f => (s.unconfigure f).setFld f FieldSt.zero
  ({ s with pins := { s.pins with device := [] } }.put F.CFG_FIELDS_DEV 0).syncConfig

/-- R180: the descriptor that holds the last word of the load completes. -/
def State.loadReply (s : State) (l : LoadSt) (status code : Nat) : State :=
  match l.pair, l.last with
  | some q, some slot =>
    (match (s.pairSt q).find slot with
     | some d => s.finish q d status (BitVec.ofNat 48 code)
     | none => s)
  | _, _ => s

/-- Table 8-5, Table 8-12, Table 8-13: the result of a load that ended in error. -/
def State.noteLoadFail (s : State) (f : LoadFail) : State :=
  let s := (s.put F.CFG_ERR_CODE f.code).put F.CFG_ERR_DETAIL f.detail
  (s.put F.CFG_ERRLOC_FIELD f.field).put F.CFG_ERRLOC_ITEM f.item
/-! ## Operating points (R57 to R59, R403, R404) -/

/-- Nominal VCORE of a point in mV, with PWR.VTRIM. -/
def State.vcoreOf (s : State) (j : Nat) : Int :=
  (match j with | 0 => 660 | 1 => 720 | 2 => 780 | _ => 850) + signed 6 (s.get F.PWR_VTRIM_MV)
/-- R2: the highest point of the speed grade. -/
def State.topPoint (s : State) : Nat := if s.fuses.speed = 1 then 2 else 3
/-- OPCUR is the lower of OPV and OPF. -/
def State.setPoints (s : State) (v f : Nat) : State :=
  ((s.put F.PWR_OPSTAT_OPV v).put F.PWR_OPSTAT_OPF f).put F.PWR_OPSTAT_OPCUR (min v f)
/-- The sequencer commands the voltage of a point. -/
def State.command (s : State) (v : Nat) : State :=
  { (s.setPoints v (s.get F.PWR_OPSTAT_OPF)) with power := { s.power with target := s.vcoreOf v, fails := 0 } }
/-- A change begins from the point in effect. -/
def State.opBegin (s : State) (j : Nat) : State :=
  let opf := s.get F.PWR_OPSTAT_OPF
  let opv := s.get F.PWR_OPSTAT_OPV
  let old := s.get F.PWR_OPSTAT_OPCUR
  let s : State := { s with power := { s.power with old := opv } }
  if opf < j then
    let s := (s.raise F.PWR_OPSTAT_BUSY).command j
    { s with power := { s.power with raising := some j, good := false } }
  else if j < opf ∨ opv ≠ j then
    let s := ((s.raise F.PWR_OPSTAT_BUSY).setPoints opv j).command j
    let s : State := { s with power := { s.power with lowering := true } }
    if j < opf then s.post 0x0F2 92 (16 * old + j) else s
  else s
/-- R407: modes in which a request is held. -/
def ModeSt.opHeld (m : ModeSt) : Bool := m.ov.valley || m.ov.safeHold || m.ov.freeze
/-- R2, R42, R403: a point that may be requested. -/
def State.opAllowed (s : State) (j : Nat) : Bool :=
  s.is F.PWR_OPSTAT_VMOK && decide (s.get F.CFG_OPMIN_DEV ≤ j) && decide (j ≤ s.topPoint)
/-- R42, R57, R58, R59: a request for point j taken in at a PWR commit. -/
def State.opRequest (s : State) (j : Nat) : State :=
  if !s.opAllowed j then s.raise F.PWR_ERR_OPREJ
  else if s.is F.PWR_OPSTAT_BUSY || s.mode.opHeld then (s.raise F.PWR_OPSTAT_HELD).put F.PWR_OPSTAT_HELDOP j
  else s.opBegin j
/-- R59: at a PWR commit point the held request is taken in, once the running change is complete. -/
def State.opHeldRequest (s : State) : State :=
  if s.is F.PWR_OPSTAT_HELD && !s.is F.PWR_OPSTAT_BUSY && !s.mode.opHeld then
    let j := s.get F.PWR_OPSTAT_HELDOP
    ((s.clear F.PWR_OPSTAT_HELD).clear F.PWR_OPSTAT_HELDOP).opRequest j
  else s
/-- R184: in LOCKING, PWR raises a point that lies below the device's OPmin, as soon as no change runs. -/
def State.lockRaise (s : State) : State :=
  let m := s.get F.CFG_OPMIN_DEV
  if s.mode.base = .locking ∧ s.get F.PWR_OPSTAT_OPCUR < m ∧ ¬ s.is F.PWR_OPSTAT_BUSY then s.opRequest m else s
/-- R184, R251: LOCKING begins. -/
def State.enterLocking (s : State) (c : Cause) : State :=
  (s.enterMode { s.mode with base := .locking } c).lockRaise.lockBegin

/-! ## A load that fails -/

/-- A load ends in error: the mode before LOADING returns (AUTORUN takes STAGED on, Table 1-12), and a direct load leaves no configuration (R182). -/
def State.failLoad (s : State) (f : LoadFail) : State :=
  match s.cfg.load with
  | none => s
  | some l =>
    let s : State := { s with cfg := { s.cfg with load := none } }
    let s := (s.noteLoadFail f).raise F.GLB_ERR_LOADFAIL
    let s := if l.direct then s.clearConfig else s.syncConfig
    if s.mode.base = .loading then
      let s := (s.enterMode { s.mode with base := s.mode.before } .load).loadReply l 0x13 f.code
      if s.mode.before = .staged ∧ s.is F.GLB_LOCKCFG_AUTORUN then s.enterLocking .load else s
    else s.loadReply l 0x13 f.code

/-! ## FREEZE and SAFE-HOLD -/

/-- A field stays fenced until a new image is loaded into it (R27, R431). -/
def State.keepFenced (s : State) (f : Nat) : State :=
  { s with cfg := { s.cfg with fenced := s.cfg.fenced.filter (· != f) ++ [f] } }
/-- A new image stands in a field. -/
def State.endFenced (s : State) (f : Nat) : State :=
  { s with cfg := { s.cfg with fenced := s.cfg.fenced.filter (· != f) } }
/-- R27, R190: an accepted reshape is void: its fields lose their configuration and stay fenced; a load that was not yet
accepted ends with the code MODE. The cause RESHAPING of the fields' NIs stays until a new image comes (DESIGN CHOICE, log
entry 79: the rule names slots, fences and CFG.FIELDS only). -/
def State.voidLoad (s : State) : State :=
  match s.cfg.load with
  | none => s
  | some l =>
    if s.mode.ov.reshape then
      let s := s.forEach (l.sections.map (·.1)) fun s f =>
        ((s.unconfigure f).setFld f { (s.fld f) with phase := .idle }).keepFenced f
      let s : State := { s with cfg := { s.cfg with load := none } }
      (s.put F.CFG_RESHAPE_MAP 0).syncConfig
    else s.failLoad ⟨8, 0, 31, 0⟩

/-- What cuts every transition short: no drain, no LOCKING, no reshape. -/
def ModeSt.cut (m : ModeSt) : ModeSt :=
  { m with busy := false, drain := none, runNext := false, backNext := false, ov := { m.ov with reshape := false } }
/-- R25: a STOP or VALLEY that waits for its tick loses to a mode of higher precedence and is rejected. -/
def State.rejectDrain (s : State) : State :=
  match s.mode.drain with
  | some d =>
    ({ s with mode := { s.mode with drain := none, busy := false } } : State).rejectRequest (match d with | .stop => 2 | .valley => 3)
  | none => s
/-- LOCKING is abandoned. -/
def State.stopLock (s : State) : State := { s with time := { s.time with lock := .none, good := 0, placed := none } }

/-- Table 1-5: a fatal error with FREEZE policy; under SAFE-HOLD it stays pending (R25). -/
def State.enterFreeze (s : State) : State :=
  if s.mode.ov.freeze then s
  else if s.mode.ov.safeHold then s.pendCause .freeze
  else
    let s := s.rejectDrain.voidLoad.stopLock
    let m := s.mode.cut
    let s := s.enterMode { m with ov := { m.ov with freeze := true } } .fatal
    (s.linksFrozen.forEach (List.range 8) State.dramSleep).endRenewal

/-- R19, R400: SAFE-HOLD: ticks stop, time is not valid, links are silent, DRAM refreshes itself. -/
def State.enterSafeHold (s : State) (c : Cause) : State :=
  if s.mode.ov.safeHold then s
  else
    let s := s.rejectDrain.voidLoad.stopLock
    let m := s.mode.cut
    let s := s.enterMode { m with ov := { m.ov with safeHold := true } } c
    let s := if s.time.ticks then s.wdLoad else s
    let s : State := { s with time := { s.time with nextTick := none, ticks := false } }
    let s := (s.clear F.TIME_STATUS_VALID).clear F.TIME_STATUS_TICKS
    s.linksSafe.forEach (List.range 8) State.dramSleep

/-! ## The power sequencer (R57, R58, R403 to R406) -/

/-- R57 step 3: a raise is abandoned: VCORE returns. -/
def State.abandonRaise (s : State) (j : Nat) : State :=
  let s := (s.command s.power.old).clear F.PWR_OPSTAT_BUSY
  let s : State := { s with power := { s.power with raising := none, good := false } }
  (s.raise F.PWR_ERR_PGTMO).postLog 0x0F3 92 j
/-- R57 step 4: at a tick after power-good the fabric clock switches. -/
def State.opSwitch (s : State) : State :=
  match s.power.raising with
  | some j =>
    if s.power.good then
      let old := s.get F.PWR_OPSTAT_OPCUR
      let s := (s.setPoints (s.get F.PWR_OPSTAT_OPV) j).clear F.PWR_OPSTAT_BUSY
      let s : State := { s with power := { s.power with raising := none, good := false } }
      (s.post 0x0F2 92 (16 * old + j)).lockRaised.lockRaise
    else s
  | none => s

/-- POWER_GOOD, R57. -/
def execPowerGood (s : State) : Ans :=
  .next (if s.power.raising.isSome then { s with power := { s.power with good := true } } else s)
/-- PGTMO, R57: power-good still absent 150 µs after the command. -/
def execPgtmo (s : State) : Ans :=
  .next (match s.power.raising with
    | some j => if s.power.good then s else s.abandonRaise j
    | none => s)
/-- R58 step 3: the lowered voltage has settled. -/
def State.settled (s : State) : State :=
  if s.power.lowering then
    State.lockRaise { (s.clear F.PWR_OPSTAT_BUSY) with power := { s.power with lowering := false } }
  else s
def execVcoreSettled (s : State) : Ans := .next s.settled

/-- VOUT_MODE_READ, R403: the answer is the linear mode, another mode, or none, which is the third failure in a row (R405). -/
def State.voutMode (s : State) (answer : Option Bool) : State :=
  if !s.power.powered then s
  else match answer with
    | some true => (s.raise F.PWR_OPSTAT_VMOK).command (s.get F.PWR_OPSTAT_OPV)
    | some false => (s.clear F.PWR_OPSTAT_VMOK).raise F.PWR_ERR_VMODE
    | none =>
      (((s.clear F.PWR_OPSTAT_VMOK).raise F.PWR_ERR_VMODE).raise F.PWR_ERR_PMBUS).postLog 0x0F3 92 (s.get F.PWR_OPSTAT_OPV)
def execVoutModeRead (answer : Option Bool) (s : State) : Ans := .next (s.voutMode answer)

/-- R405: the third failure in a row of a transaction. -/
def State.pmbusFail (s : State) : State :=
  let s : State := { s with power := { s.power with fails := s.power.fails + 1 } }
  if s.power.fails < 3 then s
  else
    let s : State := { (s.raise F.PWR_ERR_PMBUS) with power := { s.power with fails := 0 } }
    match s.power.raising with
    | some j => s.abandonRaise j
    | none =>
      let asked := s.get F.PWR_OPSTAT_OPV
      let s := if s.power.lowering then (s.command s.power.old).settled else s
      s.postLog 0x0F3 92 asked
/-- PMBUS_POLL, R404: STATUS_WORD and READ_VOUT. -/
def State.pmbusPoll (s : State) (a : PmbusAnswer) : State :=
  if !s.is F.PWR_OPSTAT_VMOK then s
  else
    match a with
    | .failed => s.pmbusFail
    | .status pg mv =>
      let s : State := { s with power := { s.power with fails := 0 } }
      if pg && decide ((mv - s.power.target).natAbs ≤ 15) then
        if s.power.raising.isSome then { s with power := { s.power with good := true } } else s.settled
      else s
def execPmbusPoll (a : PmbusAnswer) (s : State) : Ans := .next (s.pmbusPoll a)

/-- UNDERVOLTAGE, R406. -/
def State.undervoltage (s : State) : State :=
  let s := (s.raise F.PWR_ERR_UV).post 0x0F4 92 (s.get F.PWR_OPSTAT_OPCUR)
  if s.is F.PWR_CTL_UVPOL then s.logEntry 0x0F4 92 (s.get F.PWR_OPSTAT_OPCUR) 0 else s.enterFreeze
def execUndervoltage (s : State) : Ans := .next s.undervoltage

/-! ## Requests (Table 1-5) -/

/-- R26: whether a request is refused here: a transition runs, or Table 1-5 does not allow it. -/
def State.refuses (s : State) (allowed : List Mode) : Bool :=
  s.mode.busy || !allowed.contains s.mode.top || s.mode.ov.reshape

/-- REQ_RUN. -/
def State.reqRun (s : State) : State :=
  if s.refuses [.staged] then s.rejectRequest 1 else s.enterLocking .host
def execReqRun (s : State) : Ans := .next s.reqRun

/-- A transition waits for the first tick at which no field that runs frames is late. -/
def State.beginDrain (s : State) (d : Drain) : State := { s with mode := { s.mode with busy := true, drain := some d } }
def State.reqStop (s : State) : State :=
  if s.refuses [.run, .holdover] then s.rejectRequest 2 else s.beginDrain .stop

/-- The NIs of the blocks of a domain (Table 10-1); the router side of every NI is in SPN. -/
def domainNis (d : Nat) : List Nat :=
  if d = 1 then [92, 94, 95]
  else if 4 ≤ d ∧ d < 28 then fieldNis (d - 4)
  else if 28 ≤ d ∧ d < 36 then [72 + (d - 28)]
  else if 36 ≤ d ∧ d < 40 then
    ((List.range 6).filter fun p => portDomain p == d).map (82 + ·) ++ [88 + (d - 36)]
  else []
/-- A cause of an NI's state. -/
def State.niCauses (s : State) (n : Nat) (g : NiCauses → NiCauses) : State :=
  s.setNi n { s.ni n with causes := g (s.ni n).causes }
def State.nisClosing (s : State) (d : Nat) : State :=
  s.forEach (domainNis d) fun s n => s.niCauses n fun c => { c with closing := true }
/-- R388 step 1 for one domain: its NIs close; a field's frame that ends now was its last. -/
def State.beginOff (s : State) (d : Nat) : State :=
  let s := s.nisClosing d
  let s := if 4 ≤ d ∧ d < 28 then s.setFld (d - 4) { s.fld (d - 4) with phase := .idle } else s
  { s with power := { s.power with steps := SMap.set s.power.steps 0 d 1 } }

/-- The domains that are switched: FLD, DRC, LNG and CRY. -/
def switchable : List Nat := (List.range 37).map (· + 4)
/-- The domains that VALLEY switches off: every one but AO and HBR (R392). -/
def valleyDomains : List Nat := 1 :: 2 :: switchable
/-- R392: VALLEY entry starts: MODE reads VALLEY, polling stops, the timetable is cleared, and the drains begin. -/
def State.enterValley (s : State) : State :=
  let s := s.enterMode { s.mode with busy := true, drain := none, ov := { s.mode.ov with valley := true } } .host
  let s := (s.put F.PWR_VALLEY_STATE 1).put F.PWR_VALLEY_SRC 0
  s.clearTimetable.forEach (valleyDomains.filter s.domainOn) State.beginOff
def State.reqValley (s : State) : State :=
  if s.refuses [.bare, .staged, .run, .holdover] then s.rejectRequest 3
  else if s.mode.base = .run ∨ s.mode.base = .holdover then s.beginDrain .valley
  else s.enterValley
def execReqValley (s : State) : Ans := .next s.reqValley

/-- UNLOAD clears configuration memory. -/
def State.reqUnload (s : State) : State :=
  if s.refuses [.staged] || s.cfg.load.isSome then s.rejectRequest 6
  else (s.clearConfig).enterMode { s.mode with base := .bare } .host

/-- LOCK_TIMEOUT. -/
def State.lockTimeout (s : State) : State :=
  if s.mode.top = .locking then
    (s.stopLock.raise F.GLB_ERR_LOCKTO).enterMode { s.mode with base := .staged, busy := false, runNext := false } .lock
  else s

/-! ## Clocks (R396 to R401) -/

/-- The synthesizers follow REFCLK_CH. -/
def State.onCh (s : State) : Bool := !s.is F.CLK_STAT_ONLOC && !s.is F.CLK_CTL_PRIM
/-- REFCLK_LOC is enabled (R397). -/
def State.locEnabled (s : State) : Bool := s.is F.CLK_CTL_PRIM || s.is F.CLK_CTL_FAILOVER
/-- Some synthesizer is locked. -/
def State.anyLock (s : State) : Bool := s.synthsLocked || s.is F.CLK_STAT_TBLOCK
/-- The synthesizers marked SAFE-HOLD lose lock; RAW runs on the backup oscillator. -/
def State.unlockAll (s : State) : State :=
  ((((s.clear F.CLK_STAT_TBLOCK).clear F.CLK_STAT_STWLOCK).clear F.CLK_STAT_SPNLOCK).clear F.CLK_STAT_FABLOCK).clear
    F.TIME_STATUS_HOLD

/-- R254: HOLDOVER begins; HOLD reads 1 while RAW runs from REFCLK_LOC. -/
def State.startHoldover (s : State) : State :=
  let s := s.raise F.TIME_STATUS_HOLD
  { s with time := { s.time with requalified := false, good := 0 }, mode := { s.mode with backNext := false } }
/-- R25, R28, R398: the failover's HOLDOVER: taken over RUN, pending under an overlay that may return to RUN. -/
def State.failover (s : State) : State :=
  let s := s.startHoldover
  if s.mode.base ≠ .run then s
  else if s.mode.suspended then s.pendCause .holdover
  else s.enterMode { s.mode with base := .holdover } .clock

/-- REFCLK_CH_LOSS. -/
def State.chLoss (s : State) : State :=
  let ok := s.is F.CLK_CTL_FAILOVER && s.is F.CLK_STAT_LOCOK && s.is F.CLK_STAT_RATIOV
  let s := s.clear F.CLK_STAT_CHOK
  if !s.power.powered then s
  else
    let s := s.raise F.CLK_ERR_CHLOSS
    if !s.onCh || !s.anyLock then s
    else if ok then
      (((s.raise F.CLK_STAT_ONLOC).raise F.CLK_ERR_FOVER).post 0x0F5 92 0).failover
    else (s.unlockAll.post 0x0F5 92 0).enterSafeHold .clock
def execRefclkChLoss (s : State) : Ans := .next s.chLoss

/-- REFCLK_LOC_LOSS. -/
def State.locLoss (s : State) : State :=
  if !s.power.powered || !s.locEnabled then s
  else
    let s := ((s.clear F.CLK_STAT_LOCOK).clear F.CLK_STAT_RATIOV).raise F.CLK_ERR_LOCLOSS
    if s.onCh || !s.anyLock then s
    else (s.unlockAll.post 0x0F5 92 1).enterSafeHold .clock
def execRefclkLocLoss (s : State) : Ans := .next s.locLoss

/-- RATIO_VALID: both references have been qualified together for 1 s; the ratio as measured, in 16.32 format. -/
def State.ratioValid (s : State) (ratio : Word) : State :=
  if !s.locEnabled then s
  else
    let s := ((s.raise F.CLK_STAT_CHOK).raise F.CLK_STAT_LOCOK).raise F.CLK_STAT_RATIOV
    s.setPair R.CLK_RATIO_LO R.CLK_RATIO_HI ratio.toNat
def execRatioValid (ratio : Word) (s : State) : Ans := .next (s.ratioValid ratio)

/-- REQUALIFY, R399: CHOK has held for CLK.REQUAL; in FREE mode HOLDOVER returns at the next tick (R254). -/
def State.requalify (s : State) : State :=
  let s := s.raise F.CLK_STAT_CHOK
  if !s.is F.CLK_STAT_ONLOC || s.is F.CLK_CTL_PRIM then s
  else
    let s := (((s.clear F.CLK_STAT_ONLOC).clear F.TIME_STATUS_HOLD).raise F.CLK_ERR_REQUAL).post 0x0F6 92 0
    let drop := s.mode.pending.filter (· ≠ .holdover)
    { s with time := { s.time with requalified := true, good := 0 },
             mode := { s.mode with pending := drop,
                                   backNext := s.mode.backNext || (s.mode.base == .holdover && s.timeMode == 2) } }
def execRequalify (s : State) : Ans := .next s.requalify

/-- A clock of measured frequency m kHz, nominal n, is within ±200 ppm where the other is near enough to measure by, and
within ±5 % otherwise (R397). -/
def refNear (m n : Nat) : Bool := decide (20 * ((m : Int) - (n : Int)).natAbs ≤ n)
def refOk (m n : Nat) (other : Bool) : Bool :=
  if other then decide (5000 * ((m : Int) - (n : Int)).natAbs ≤ n) else refNear m n
/-- What the reference monitors show: frequencies in kHz where edges arrive. -/
def State.measureRefs (s : State) (ch loc : Option Nat) : State :=
  let n := s.get F.CLK_LOCFREQ_KHZ
  let locOn := s.locEnabled && decide (10000 ≤ n ∧ n ≤ 100000)
  let chNear := match ch with | some m => refNear m 100000 | none => false
  let locNear := locOn && (match loc with | some m => refNear m n | none => false)
  let chOk := match ch with | some m => refOk m 100000 locNear | none => false
  let locOk := locOn && (match loc with | some m => refOk m n chNear | none => false)
  let s := (s.put F.CLK_STAT_CHOK (bit chOk)).put F.CLK_STAT_LOCOK (bit locOk)
  let s := if locOk then s else s.clear F.CLK_STAT_RATIOV
  (s.put F.CLK_CHMEAS_KHZ (ch.getD 0)).put F.CLK_LOCMEAS_KHZ (loc.getD 0)
/-- R401: the reference the synthesizers lock to: false REFCLK_CH, true REFCLK_LOC. -/
def State.lockTarget (s : State) : Option Bool :=
  if s.is F.CLK_CTL_PRIM then (if s.is F.CLK_STAT_LOCOK then some true else none)
  else if s.is F.CLK_STAT_CHOK then some false
  else if s.is F.CLK_CTL_FAILOVER && s.is F.CLK_STAT_LOCOK then some true
  else none

/-- Every synthesizer is locked. -/
def State.lockAll (s : State) : State :=
  let s := (((s.raise F.CLK_STAT_TBLOCK).raise F.CLK_STAT_STWLOCK).raise F.CLK_STAT_SPNLOCK).raise F.CLK_STAT_FABLOCK
  ((s.raise F.CLK_STAT_HBRLOCK).raise F.CLK_STAT_LNGLOCK).raise F.CLK_STAT_DRCLOCK
/-- SYNTH_LOCK, R243, R257, R401: the synthesizers lock, to the primary reference if it is qualified; the first lock after a
device reset starts RAW and the free-running ticks. In SAFE-HOLD no tick comes and LOCKING does not go on (R19). -/
def State.synthLock (s : State) (ch loc : Option Nat) : State :=
  if !s.power.powered || s.synthsLocked then s
  else
    let s := s.measureRefs ch loc
    match s.lockTarget with
    | none => s
    | some onLoc =>
      let s := s.lockAll.put F.CLK_STAT_ONLOC (bit (onLoc && !s.is F.CLK_CTL_PRIM))
      let s := s.put F.TIME_STATUS_HOLD (s.get F.CLK_STAT_ONLOC)
      if s.time.running then s.lockBegin
      else
        let s : State := { s with time := { s.time with running := true, raw := 0, anchor := 0 } }
        if s.mode.ov.safeHold then s else s.startTicks.lockBegin
def execSynthLock (ch loc : Option Nat) (s : State) : Ans := .next (s.synthLock ch loc)

/-- The lock bit of a synthesizer of CLK.STAT.LASTUNL. -/
def lockBit (k : Nat) : Fld :=
  match k with
  | 0 => F.CLK_STAT_TBLOCK | 1 => F.CLK_STAT_STWLOCK | 2 => F.CLK_STAT_SPNLOCK | 3 => F.CLK_STAT_FABLOCK
  | 4 => F.CLK_STAT_HBRLOCK | 9 => F.CLK_STAT_DRCLOCK | _ => F.CLK_STAT_LNGLOCK
/-- SYNTH_UNLOCK, Table 17-3: time base, steward, spine and fabric (0 to 3) lead to SAFE-HOLD; a lane group's lanes lose lock. -/
def State.synthUnlock (s : State) (k : Nat) : State :=
  if !s.is (lockBit k) then s
  else
    let s := ((s.clear (lockBit k)).raise F.CLK_ERR_UNLOCK).put F.CLK_STAT_LASTUNL k
    let s := s.post 0x0F7 92 k
    let s := if k = 0 then s.clear F.TIME_STATUS_HOLD else s
    if k < 4 then s.enterSafeHold .clock
    else if 5 ≤ k ∧ k ≤ 8 then
      s.forEach ((List.range 12).map fun i => 16 + 12 * (k - 5) + i) State.laneLoss
    else s
def execSynthUnlock (k : Fin 10) (s : State) : Ans := .next (s.synthUnlock k)

/-- SAFE_N, R400: the level held at the ball. -/
def State.safeLevel (s : State) (low : Bool) : State :=
  let s : State := { s with power := { s.power with safeN := !low } }
  if low && s.power.powered && !s.mode.ov.safeHold then (s.raise F.CLK_ERR_SAFEN).enterSafeHold .safeN else s
def execSafeN (low : Bool) (s : State) : Ans := .next (s.safeLevel low)

end Sys2Proof.Machine
end

