-- ==== Sys2Proof/Machine/StewardOps.lean ====
section
/-! DEFINITION. What the steward's loops share (R22, R415, R416, R420, R421): envelopes, counts by cadence, the log-ring entry
of an action (Table 18-4), a staged SHADOW write, and the RETRAIN loop. -/
namespace Sys2Proof.Machine

/-! ## Envelopes -/

def State.loopThr (s : State) (k : Nat) : Nat := s.get (F.STW_ENV_CTL_THR k)
def State.loopMin (s : State) (k : Nat) : Nat := s.get (F.STW_ENV_LIM_MIN k)
def State.loopMax (s : State) (k : Nat) : Nat := s.get (F.STW_ENV_LIM_MAX k)
/-- The nearest value of a `w`-bit setting inside the envelope of loop k. -/
def State.withinEnv (s : State) (k w v : Nat) : Nat := min (2 ^ w - 1) (max (s.loopMin k) (min (s.loopMax k) v))
/-- The steward runs, and its loops act (R421). -/
def State.stewardOn (s : State) : Bool := s.power.powered && s.domainOn 1 && !s.mode.ov.valley
def State.loopsAct (s : State) : Bool := s.stewardOn && !s.mode.ov.safeHold && !s.mode.ov.freeze
/-- Loop k acts now: in HALT loops 1 to 4, 8 and 9 hold. -/
def State.loopRuns (s : State) (k : Nat) : Bool :=
  s.loopsAct && s.is (F.STW_ENV_CTL_EN k) && !(s.mode.ov.halt && [1, 2, 3, 4, 8, 9].contains k)

/-! ## Counts -/

/-- Detections of loop k for instance i since its last cadence, and cadences the loop counts. -/
def State.seenBy (s : State) (k i : Nat) : Nat := SMap.get s.stw.seen 0 (1024 * k + i)
def State.clearSeen (s : State) (k i : Nat) : State := { s with stw := { s.stw with seen := SMap.set s.stw.seen 0 (1024 * k + i) 0 } }
def State.quietFor (s : State) (k i : Nat) : Nat := SMap.get s.stw.quiet 0 (1024 * k + i)
def State.setQuiet (s : State) (k i n : Nat) : State :=
  { s with stw := { s.stw with quiet := SMap.set s.stw.quiet 0 (1024 * k + i) n } }

/-! ## Acting -/

/-- An instance that stands for the whole device. -/
def deviceWide : Nat := 0xFFFF
/-- Table 18-4: the entry of an action. -/
def State.stwLog (s : State) (k flags inst old new meas thr : Nat) : State :=
  s.logEntry 0x0F8 92 (k + 256 * flags + 2 ^ 16 * (inst % 2 ^ 16) + 2 ^ 32 * (old % 2 ^ 16) + 2 ^ 48 * (new % 2 ^ 16))
    (meas % 2 ^ 32 + 2 ^ 32 * (thr % 2 ^ 32))
/-- R22, R416, R420: the log entry of an action, then the action and its event; with OBS the entry alone. `clamp` marks a
move to a bound (R415). -/
def State.stwAct (s : State) (k : Nat) (clamp : Bool) (inst old new meas : Nat) (write : State → State) : State :=
  if s.is F.STW_CTL_OBS then s.stwLog k (1 + 2 * bit clamp) inst old new meas (s.loopThr k)
  else write ((s.stwLog k (2 * bit clamp) inst old new meas (s.loopThr k)).post 0x0F8 92 k)
/-- The steward stages a value of a SHADOW field (R52). -/
def State.stageStw (s : State) (f : Fld) (v : Nat) : State :=
  let x := SMap.get s.staged Staged.none f.reg.off
  let x := { x with
    stwMask := BitVec.ofNat 32 (setBitsOf f.lo f.w x.stwMask.toNat (2 ^ f.w - 1)),
    stwVal := BitVec.ofNat 32 (setBitsOf f.lo f.w x.stwVal.toNat v) }
  { s with staged := SMap.set s.staged Staged.none f.reg.off x }
/-- A setting of loop k is moved by one step: halved, doubled, or moved to `v`, inside the envelope; a step that would not move it is
not taken. -/
def State.moveSetting (s : State) (k inst w cur v meas : Nat) (write : State → Nat → State) : State :=
  let v := s.withinEnv k w v
  if v = cur then s else s.stwAct k false inst cur v meas fun s => write s v
/-- Table 18-1, SCAN and the loops like it: halve at `n` detections or more, double after `limit` cadences without one. -/
def State.scanLoop (s : State) (k i inst w cur : Nat) (write : State → Nat → State) : State :=
  let n := s.seenBy k i
  let s := s.clearSeen k i
  if !s.loopRuns k then s
  else
    let q := if n = 0 then s.quietFor k i + 1 else 0
    if s.loopThr k ≤ n then (s.setQuiet k i 0).moveSetting k inst w cur (cur / 2) n write
    else if 60 ≤ q then (s.setQuiet k i 0).moveSetting k inst w cur (2 * cur) n write
    else s.setQuiet k i q
/-- RETRAIN, after a retraining of channel c that found this drift in 1/64 UI. -/
def State.retrainLoop (s : State) (c drift : Nat) : State :=
  if !s.loopRuns 4 then s
  else
    let cur := s.get (F.DRC_RETRAIN_INTERVAL c)
    let write (s : State) (v : Nat) : State := s.stageStw (F.DRC_RETRAIN_INTERVAL c) v
    let q := if 4 * drift < s.loopThr 4 then s.quietFor 4 c + 1 else 0
    if s.loopThr 4 ≤ drift then (s.setQuiet 4 c 0).moveSetting 4 c 7 cur (cur / 2) drift write
    else if 8 ≤ q then (s.setQuiet 4 c 0).moveSetting 4 c 7 cur (2 * cur) drift write
    else s.setQuiet 4 c q

end Sys2Proof.Machine
end

