-- ==== Sys2Proof/Machine/Dram.lean ====
section
/-! DEFINITION. The commands of DRAM channels, memory integrity and encryption (chapters 14 to 16). -/
namespace Sys2Proof.Machine

/-! ## Slots, confirmation, refresh -/

/-- COMMAND_SLOT, R330. The operand says what the inner code finds in the lines read; a line not listed is clean. -/
def execCommandSlot (c : Fin 8) (checks : List LineCheck) (s : State) : Ans := .next (s.dramSlot c checks)
/-- COMMAND_CONFIRM, R337. -/
def execCommandConfirm (c : Fin 8) (s : State) : Ans := .next (if s.get (F.DRC_STAT_STATE c) = 2 then s.confirmOne c else s)

/-- Room in the retry buffer for n commands, while no replay runs (R338). -/
def State.retryRoom (s : State) (c n : Nat) : Bool :=
  decide ((s.dram c).retry.length + n ≤ 64) && (s.dram c).replay == 0
/-- The banks of a list have their rows closed. -/
def State.closeRows (s : State) (c : Nat) (p : Nat → Bool) : State :=
  let x := s.dram c
  s.setDram c { x with rows := SMap.drop p x.rows }

/-- REFSB, R334: bank number `bank` of every bank group of a rank; postponed while an urgency-3 request waits (R330). -/
def State.refSb (s : State) (c rank bank : Nat) : State :=
  if s.get (F.DRC_STAT_STATE c) ≠ 2 || (s.dram c).reqs.any (fun r => !r.todo.isEmpty && s.urgency c r == 3) ||
      !s.retryRoom c 1 then s
  else (s.closeRows c fun b => b / 32 == rank && b % 4 == bank).dramCmd c 4 (32 * rank + bank) 0 0 .none
def execRefsb (c : Fin 8) (rank : Bool) (bank : Fin 4) (s : State) : Ans := .next (s.refSb c (bit rank) bank)

/-- ROW_IDLE_CLOSE, R331. -/
def State.rowIdle (s : State) (c b : Nat) : State :=
  match SMap.get (s.dram c).rows none b with
  | some r => if s.retryRoom c 1 then (s.closeRows c (· == b)).dramCmd c 3 b r 0 .none else s
  | none => s
def execRowIdleClose (c : Fin 8) (bank : Fin 64) (s : State) : Ans := .next (s.rowIdle c bank)

/-- R334: the multiplier in effect is the larger of the written and the demanded one. -/
def State.refEff (s : State) (c : Nat) : State :=
  s.put (F.DRC_REF_EFF c) (max (min 2 (s.get (F.DRC_REF_MULT c))) (s.dram c).hot)
/-- TEMP_STATUS_POLL. -/
def execTempStatusPoll (c : Fin 8) (demand : Fin 3) (s : State) : Ans :=
  .next (if s.get (F.DRC_STAT_STATE c) = 2 then (s.setDram c { s.dram c with hot := demand }).refEff c else s)

/-! ## Retraining (R335, R336) -/

/-- A retraining pause: banks are precharged, delays follow the oscillators, and DQS shows the component of largest drift. -/
def State.retrain (s : State) (c comp : Nat) (drift : BitVec 8) : State :=
  let s := if s.retryRoom c 2 then (s.dramCmd c 3 0 0 0 .none).dramCmd c 6 0 0 0 .none else s
  let s := s.closeRows c fun _ => true
  let s := s.setDram c { s.dram c with trainedAt := s.time.raw }
  let s := (s.put (F.DRC_DQS_COMP c) comp).put (F.DRC_DQS_DRIFT c) drift.toNat
  let s := s.retrainLoop c drift.toInt.natAbs
  if 4 * s.get (F.DRC_RETRAIN_DRIFTTHR c) < drift.toInt.natAbs then
    (s.raise (F.DRC_ERR_DRIFT c)).post 0x0C4 (drcSrc c) comp
  else s
/-- RETRAIN_NOW. -/
def execRetrainNow (c : Fin 8) (comp : Fin 32) (drift : BitVec 8) (s : State) : Ans :=
  .next (if s.get (F.DRC_STAT_STATE c) = 2 then s.retrain c comp drift else s)
/-- RAW counts since one. -/
def State.since (s : State) (t : Nat) : Nat := (s.time.raw + 2 ^ 48 - t) % 2 ^ 48
/-- RETRAIN.INTERVAL in ns: 0 acts as 1, above 64 as 64. -/
def State.retrainNs (s : State) (c : Nat) : Nat := 1000000 * min 64 (max 1 (s.get (F.DRC_RETRAIN_INTERVAL c)))
/-- FORCED_RETRAIN, once 2 × INTERVAL have passed since the last retraining. -/
def State.forcedRetrain (s : State) (c comp : Nat) (drift : BitVec 8) : State :=
  if s.get (F.DRC_STAT_STATE c) ≠ 2 || decide (s.since (s.dram c).trainedAt < 2 * s.retrainNs c) then s
  else ((s.retrain c comp drift).raise (F.DRC_ERR_FORCEDRT c)).postLog 0x0C3 (drcSrc c) 0
def execForcedRetrain (c : Fin 8) (comp : Fin 32) (drift : BitVec 8) (s : State) : Ans :=
  .next (s.forcedRetrain c comp drift)
/-- R335: what is due in a maintenance window; a pause of 320 ns must fit it, and the drift a retraining finds is an open value. -/
def State.maintWindow (s : State) (c : Nat) : State :=
  if s.get (F.DRC_STAT_STATE c) ≠ 2 then s
  else
    let x := s.dram c
    let s := if 128000000 ≤ s.since x.zqAt then
        let s := s.setDram c { x with zqAt := s.time.raw }
        if s.retryRoom c 2 then (s.dramCmd c 6 0 0 0 .none).dramCmd c 6 0 0 0 .none else s
      else s
    if s.retrainNs c ≤ s.since x.trainedAt ∧ 32 ≤ s.get (F.DRC_MAINT_WLEN c) then
      let a := s.freeNat
      let b := a.2.freeNat
      b.2.retrain c (a.1 % 32) (BitVec.ofNat 8 b.1)
    else s

/-! ## Alerts and freezing (R337 to R340) -/

/-- R339: the channel freezes; `asleep` says whether its one self-refresh entry is confirmed. -/
def State.freezeChannel (s : State) (c : Nat) (crc asleep : Bool) : State :=
  let pol := s.is (F.DRC_CTL_FREEZEPOL c)
  let x := s.dram c
  let s := s.setDram c { x with frozen := some (s.now, crc), rows := [], burst := false, groups := [] }
  let s := s.dropCache c
  let s := (((s.raise (F.DRC_ERR_FROZE c)).put (F.DRC_STAT_STATE c) (if pol then 4 else 5)).put
    (F.DRC_STAT_SRFOK c) (bit asleep)).postLog 0x0C2 (drcSrc c) (bit pol)
  if pol then s.enterFreeze
  else
    let s := s.setDram c { s.dram c with reqs := [] }
    x.reqs.foldl (fun s r => s.replyFail (72 + c) r.pkt (if x.inFlight r then stTimeout else stDomainOff)) s
/-- R338: the rows that stand open once the unconfirmed commands have been reissued, all banks having been precharged. -/
def replayRows (l : List DramCmd) : SMap (Option Nat) :=
  l.foldl (fun m k =>
    if k.code ≤ 2 then SMap.set m none k.bank (some k.row)
    else if k.code = 3 then SMap.set m none k.bank none
    else if k.code = 4 then SMap.drop (fun b => b / 32 == k.bank / 32 && b % 4 == k.bank % 4) m
    else m) []
/-- ALERT, R338: the next replay, or the freeze after an alert during the fourth. -/
def State.dramAlert (s : State) (c : Nat) (crc asleep : Bool) : State :=
  let x := s.dram c
  let used := if crc then s.is (F.DRC_CTL_WRCRC c) else s.is (F.DRC_CTL_CAPAR c)
  if s.get (F.DRC_STAT_STATE c) ≠ 2 || x.retry.isEmpty || !used then s
  else
    let s := if crc then (s.bump (F.DRC_CNT_WRCRC c) 1).raise (F.DRC_ERR_WRCRC c)
      else (s.bump (F.DRC_CNT_CAPAR c) 1).raise (F.DRC_ERR_CAPAR c)
    if 4 ≤ x.replay then s.freezeChannel c crc asleep
    else
      let n := x.replay + 1
      let s := (s.setDram c { x with replay := n, rows := replayRows x.retry }).bump (F.DRC_CNT_REPLAY c) 1
      s.postLog (if crc then 0x0C1 else 0x0C0) (drcSrc c) n
def execAlert (c : Fin 8) (crc asleep : Bool) (s : State) : Ans := .next (s.dramAlert c crc asleep)
/-- DRAM_PHY_UNLOCK: the channel freezes without replay. -/
def execDramPhyUnlock (c : Fin 8) (asleep : Bool) (s : State) : Ans :=
  .next (if s.get (F.DRC_STAT_STATE c) = 2 then s.freezeChannel c false asleep else s)

/-! ## Initialisation (R340, R341, R356) -/

/-- Contents are unwritten. -/
def State.loseContents (s : State) (c : Nat) : State :=
  let x := s.dram c
  s.setDram c { x with filled := none, lines := [], retry := [], rows := [], frozen := none, replay := 0, oldest := 0 }
/-- CHANNEL_ENABLE: a write of 1 to EN while it reads 0. -/
def State.channelEnable (s : State) (c : Nat) : State :=
  let st := s.get (F.DRC_STAT_STATE c)
  if !s.domainOn (28 + c) || s.is (F.DRC_CTL_EN c) || st = 4 || st = 5 then s
  else
    let s := (s.raise (F.DRC_CTL_EN c)).clear (F.DRC_STAT_INITERR c)
    if s.is (F.DRC_STAT_SRFOK c) then s.put (F.DRC_STAT_STATE c) 6
    else
      let s := (s.put (F.DRC_STAT_STATE c) 1).loseContents c
      s.setDram c { s.dram c with fillNext := s.is (F.MIG_INITCTL_AUTO c) }
def execChannelEnable (c : Fin 8) (s : State) : Ans := .next (s.channelEnable c)
/-- R341, Table 14-9: settings that fail initialisation. -/
def State.badTiming (s : State) (c : Nat) : Bool :=
  decide (6 ≤ s.get (F.DRC_CFG_RATE c)) || decide (2 ≤ s.get (F.DRC_CFG_DENS c)) ||
    [F.DRC_TIMING0_CL, F.DRC_TIMING0_CWL, F.DRC_TIMING0_TRCD, F.DRC_TIMING0_TRP, F.DRC_TIMING1_TWR, F.DRC_TIMING1_TRTP,
     F.DRC_TIMING1_TRC, F.DRC_TIMING1_TRAS, F.DRC_TIMING2_TRFCSB, F.DRC_TIMING2_TRFC, F.DRC_TIMING3_TXS,
     F.DRC_TIMING3_TREFI, F.DRC_TIMING4_TCCDL, F.DRC_TIMING4_TCCDS, F.DRC_TIMING4_TRRDL, F.DRC_TIMING4_TRRDS,
     F.DRC_TIMING5_TWTRL, F.DRC_TIMING5_TWTRS, F.DRC_TIMING5_TFAW, F.DRC_TIMING5_TCCDLWR, F.DRC_TIMING6_TXP,
     F.DRC_TIMING6_TALERT].any fun f => s.get (f c) == 0
/-- CHANNEL_INIT_DONE: training ends well (0) or with an INITERR code. -/
def State.channelInitDone (s : State) (c err : Nat) : State :=
  let st := s.get (F.DRC_STAT_STATE c)
  if st ≠ 1 ∧ st ≠ 6 then s
  else
    let e := if st = 1 && s.badTiming c then 1 else err
    let x := s.dram c
    if e ≠ 0 then
      let s := ((s.put (F.DRC_STAT_INITERR c) e).raise (F.DRC_ERR_TRAINFAIL c)).clear (F.DRC_CTL_EN c)
      (s.put (F.DRC_STAT_STATE c) 0).setDram c { x with fillNext := false }
    else
      let s := (s.put (F.DRC_STAT_STATE c) 2).clear (F.DRC_STAT_SRFOK c)
      let s := if x.fillNext then s.raise (F.MIG_INITCTL_BUSY c) else s
      s.setDram c { x with fillNext := false, trainedAt := s.time.raw, zqAt := if st = 1 then s.time.raw else x.zqAt }
def execChannelInitDone (c : Fin 8) (err : Fin 6) (s : State) : Ans := .next (s.channelInitDone c err)
/-- CHANNEL_DISABLE: a write of 0 to EN. -/
def State.channelDisable (s : State) (c : Nat) : State :=
  if !s.domainOn (28 + c) || !s.is (F.DRC_CTL_EN c) then s
  else
    let s := (s.drainChannel c).clear (F.DRC_CTL_EN c)
    if s.get (F.DRC_STAT_STATE c) = 1 then s.put (F.DRC_STAT_STATE c) 0
    else if s.get (F.DRC_STAT_STATE c) = 6 then s.put (F.DRC_STAT_STATE c) 3 else s
/-- UNFREEZE: on an ISOLATED channel. -/
def State.unfreeze (s : State) (c : Nat) : State :=
  if s.domainOn (28 + c) && s.get (F.DRC_STAT_STATE c) == 5 then
    (((s.put (F.DRC_STAT_STATE c) 1).clear (F.DRC_STAT_SRFOK c)).raise (F.DRC_CTL_EN c)).loseContents c
  else s
def execUnfreeze (c : Fin 8) (s : State) : Ans := .next (s.unfreeze c)
/-- ZERO_FILL_DONE. -/
def State.zeroFillDone (s : State) (c : Nat) : State :=
  if s.is (F.MIG_INITCTL_BUSY c) then
    ((s.clear (F.MIG_INITCTL_BUSY c)).raise (F.MIG_INITCTL_DONE c)).setDram c { s.dram c with filled := some [], lines := [] }
  else s
def execZeroFillDone (c : Fin 8) (s : State) : Ans := .next (s.zeroFillDone c)
/-- SELF_REFRESH_IDLE, Table 14-6. -/
def execSelfRefreshIdle (c : Fin 8) (s : State) : Ans :=
  .next (if s.mode.ov.halt && !(s.dram c).reqs.any (fun r => s.ctxServed r) then s.dramSleep c else s)
/-- GROUP_FLUSH, R350. -/
def execGroupFlush (c : Fin 8) (group : Nat) (s : State) : Ans := .next (s.flushGroup c group)

/-! ## Patrol and remap (R358, R362, R363) -/

/-- DRAM_PATROL_VISIT. -/
def State.patrolLine (s : State) (c : Nat) (checks : List LineCheck) : State :=
  if !s.is (F.MIG_PATROL_EN c) || s.get (F.DRC_STAT_STATE c) ≠ 2 || s.is (F.MIG_INITCTL_BUSY c) then s
  else
    let l := s.get (F.MIG_PATPOS_LINE c) % s.chanLines c
    let a := 16 * s.globalLine c l
    let s := s.put (F.MIG_PATPOS_LINE c) ((l + 1) % s.chanLines c)
    let due := match s.regionAt a with | some r => s.is (F.MIG_REGION_CTL_PATROL r) | none => false
    if !due || (s.exclOf c l a).isSome || s.writeWaits c l || s.copying c l then s
    else
      let d := s.readLine c l (s.rgnNested a) false checks .none
      let t := d.state
      if 64 < (t.dram c).retry.length then s
      else
        let y := d.syms &&& ~~~(t.erased c (t.rankOf c l))
        let x := t.dram c
        let again := d.lost = 0 && y &&& SMap.get x.weak 0 l != 0
        t.setDram c { x with
          weak := SMap.set x.weak 0 l y,
          suspects := if again then x.suspects.filter (· != l) ++ [l] else x.suspects }
def execDramPatrolVisit (c : Fin 8) (checks : List LineCheck) (s : State) : Ans := .next (s.patrolLine c checks)

/-- R362: a spare line lies in an enabled SPARE entry of KIND 0. -/
def State.spareLine (s : State) (c l : Nat) : Bool :=
  let a := 16 * s.globalLine c l
  decide (l < s.chanLines c) && (List.range 64).any fun e =>
    s.is (F.MIG_EXCL_CTL_SPARE e) && !s.is (F.MIG_EXCL_CTL_KIND e) && s.exclCovers c l a e
/-- REMAP_VALID: a write of 1 to VALID starts the copy. -/
def State.remapStart (s : State) (c k : Nat) : State :=
  if s.is (F.MIG_REMAP_FROM_VALID c k) then s
  else if !s.spareLine c (s.get (F.MIG_REMAP_TO_LINE c k)) then s.raise F.MIG_STAT_EXCLBAD
  else ((s.raise (F.MIG_REMAP_FROM_VALID c k)).clear (F.MIG_REMAP_FROM_LOST c k)).raise (F.MIG_REMAP_TO_BUSY c k)
def execRemapValid (c : Fin 8) (k : Fin 16) (s : State) : Ans :=
  .next (if s.domainOn (28 + c) then (s.clear (F.MIG_REMAP_TO_AUTO c k)).remapStart c k else s)
/-- REMAP_DONE: the line has been read, corrected or rebuilt, and its stored bits written to the spare line. -/
def State.remapDone (s : State) (c k : Nat) (checks : List LineCheck) : State :=
  if !s.is (F.MIG_REMAP_FROM_VALID c k) || !s.is (F.MIG_REMAP_TO_BUSY c k) || s.get (F.DRC_STAT_STATE c) ≠ 2 then s
  else
    let l := s.get (F.MIG_REMAP_FROM_LINE c k)
    let d := s.readLine c l (s.rgnNested (16 * s.globalLine c l)) false checks .none
    let t := d.state.clear (F.MIG_REMAP_TO_BUSY c k)
    let t := if d.lost = 0 then t.storeLine c l d.words .none
      else (t.storeLine c l zeroWords .none).raise (F.MIG_REMAP_FROM_LOST c k)
    let x := t.dram c
    t.setDram c { x with suspects := x.suspects.filter (· != l) }
def execRemapDone (c : Fin 8) (k : Fin 16) (checks : List LineCheck) (s : State) : Ans := .next (s.remapDone c k checks)

/-! ## Keys (R374 to R377) -/

/-- KEYCTL: the ID is zeroized, offered, or taken back; any other case sets KEYREJ. -/
def State.keyCtl (s : State) (op k : Nat) : State :=
  let st := s.keyState k
  if !s.domainOn 40 then s
  else if k ≠ 0 ∧ op = 1 ∧ (st = 1 ∨ st = 2 ∨ st = 5) then
    { (s.setKeyState k 0) with cry := { s.cry with keys := SMap.erase s.cry.keys k } }
  else if k ≠ 0 ∧ op = 2 ∧ st = 1 then s.setKeyState k 2
  else if k ≠ 0 ∧ op = 3 ∧ st = 2 then s.setKeyState k 1
  else s.raise F.CRY_STAT_KEYREJ
def execZero (key : Fin 64) (s : State) : Ans := .next (s.keyCtl 1 key)
def execSpare (key : Fin 64) (s : State) : Ans := .next (s.keyCtl 2 key)
def execUnspare (key : Fin 64) (s : State) : Ans := .next (s.keyCtl 3 key)
/-- FLUSH. -/
def execFlush (s : State) : Ans := .next (if s.domainOn 40 then s.flushCache else s)

/-- R375: a wrapped key is refused. -/
def State.keyLoadFail (s : State) (q : Nat) (d : DescSt) : State :=
  ((s.raise F.CRY_STAT_KEYFAIL).postLog 0x0DC 72 (d.bits 24 0 8)).finish q d stDenied 0
/-- R375: the key is unwrapped and installed, or refused; after scan entry the fuse root cannot be read (R436). -/
def State.actKeyload (s : State) (q : Nat) (d : DescSt) : State :=
  let bytes := d.gathered.flatMap packWord
  let id := d.bits 24 0 8
  let slot := d.bits 25 0 1
  let b41 := (bytes.getD 41 0).toNat
  let busy := slot = 0 ∧ (s.keyState id = 3 ∨ s.keyState id = 4)
  match if s.bist.scanned then none else s.fuses.root with
  | none => s.keyLoadFail q d
  | some root =>
    match Config.unwrap (Config.wrapKey root s.fuses.unit) (bytes.take 40) with
    | none => s.keyLoadFail q d
    | some key =>
      if (bytes.getD 40 0).toNat ≠ id ∨ b41 % 2 ≠ slot ∨ busy then s.keyLoadFail q d
      else if slot = 1 then
        ({ s with cry := { s.cry with cfgKey := some key } }.raise F.CRY_CFGKEY_LOADED).finish q d d.status 0
      else
        ({ s with cry := { s.cry with keys := SMap.insert s.cry.keys id (some key) } }.setKeyState id
          (if b41 / 2 % 2 = 1 then 5 else 1)).finish q d d.status 0
def execKeyload (q : Fin 32) (slot : Nat) (s : State) : Ans :=
  .next (s.withDesc q slot 9 fun s _ => s.gatherDesc q slot fun s d => s.actKeyload q d)

/-! ## Renewal (R381 to R385) -/

/-- R381: a renewal of region r to key n may start, and starts. -/
def State.renewStart (s : State) (r n rate : Nat) (stw : Bool) : Option State :=
  let old := s.get (F.MIG_REGION_CTL_KEYID r)
  if s.encrypted r && (s.keyState n == 1 || s.keyState n == 2) && n != old && !s.is F.CRY_RN_ACTIVE && s.domainOn 40 then
    let s := (s.setKeyState n 3).setReg R.CRY_RN (2 ^ 31 + 2 ^ 30 * bit stw + 2 ^ 18 * r + 2 ^ 6 * n + old)
    let s := s.setPair R.CRY_RPTR_LO R.CRY_RPTR_HI (s.rgnBase r)
    some { s with cry := { s.cry with renewFor := none, renewed := 0, rate := rate } }
  else none
/-- RENEW. -/
def State.renewDesc (s : State) (q slot : Nat) (d : DescSt) : State :=
  if d.ready then s
  else
    match s.renewStart (d.bits 24 0 8) (d.bits 25 0 8) (d.bits 26 0 16) false with
    | none => s.finish q d stDenied 0
    | some t => { t with cry := { t.cry with renewFor := some (q, slot) } }.keepDesc q { d with ready := true }
def execRenew (q : Fin 32) (slot : Nat) (s : State) : Ans :=
  .next (s.withDesc q slot 10 fun s d => s.renewDesc q slot d)

/-- Writes held in a region. -/
def State.heldIn (s : State) (r : Nat) : List (Nat × DramReq) :=
  (List.range 8).flatMap fun c => ((s.dram c).reqs.filter fun q =>
    q.held && (match q.todo with | i :: _ => (q.rgns.getD i ⟨32, false, 0, 0, 0, 0, false⟩).region == r | [] => false)).map fun q => (c, q)
/-- RNURG bit r shows whether one is held. -/
def State.syncUrgent (s : State) (r : Nat) : State := s.put ⟨R.CRY_RNURG, r, 1⟩ (bit !(s.heldIn r).isEmpty)
/-- The word address of the line a held write waits for. -/
def DramReq.heldAt (q : DramReq) : Nat := 16 * q.head.lineAt (q.todo.headD 0)

/-- R382: one line of the region: left unwritten, freed of EARLY, or written under the new key with counter 1. -/
def State.renewLine (s : State) (a : Nat) (g : LineRgn) (early : Bool) (checks : List LineCheck) : State :=
  let c := s.channelOf (a / 16)
  let l := s.localLine (a / 16)
  let m := s.readMeta g a true checks .none
  let s := m.state
  let n := s.get F.CRY_RN_NEWKEY
  if m.ctrOk && ctrOf m.ctr = 0 then s
  else if m.ctrOk && bitOf 32 m.ctr.toNat then
    s.writeMeta g a (ctrWord (ctrOf m.ctr) false (bitOf 33 m.ctr.toNat)) none
  else
    let d := s.readData c l a g false (BitVec.allOnes 16) checks .none
    let s := d.state
    let bad := d.status != stOk && d.status != stCorrected
    let poison := d.status = stPoisoned || d.status = stTagFail
    let y := cryptLine (s.keyOf n) 1 (a / 16) (if bad then zeroWords else d.words)
    let x : LineOut := if g.nested then s.decodeLine c l checks .none else ⟨s, zeroWords, 0, 0, 0⟩
    let p := x.state.replaceLine c l g.nested x.words x.lost y checks .none
    let t := p.1
    let bad := bad || !p.2.1
    let tag := if g.crypto = 2 then some (lineTag (s.keyOf n) 1 (a / 16) y, poison) else none
    let t := t.writeMeta g a (ctrWord 1 early bad) tag
    let t := if bad then (t.bump F.CRY_RNCNT_LOST 1).logOpen (drcSrc c) 0 else t
    let t := if early then t.bump F.CRY_RNCNT_EARLY 1 else t
    { t with cry := { t.cry with renewed := t.cry.renewed + 1 } }
/-- R384: the renewal of region r completes. -/
def State.renewEnd (s : State) (r : Nat) : State :=
  let n := s.get F.CRY_RN_NEWKEY
  let old := s.get F.CRY_RN_OLDKEY
  let s := (s.put (F.MIG_REGION_CTL_KEYID r) n).flushCache
  let s := { (s.setKeyState old 0) with cry := { s.cry with keys := SMap.erase s.cry.keys old } }
  let s := (s.put ⟨R.CRY_RNREQ, r, 1⟩ 0).clear F.CRY_RN_ACTIVE
  let s := s.forEach (List.range 8) fun s c =>
    let x := s.dram c
    let fix (g : LineRgn) : LineRgn := if g.region = r then { g with key := n } else g
    s.setDram c { x with reqs := x.reqs.map fun q => { q with rgns := q.rgns.map fix } }
  let s := (s.syncUrgent r).post 0x0DA 72 r
  match s.cry.renewFor with
  | some (q, slot) =>
    let t : State := { s with cry := { s.cry with renewFor := none } }
    (match (t.pairSt q).find slot with
     | some d => t.finish q d stOk (BitVec.ofNat 48 t.cry.renewed)
     | none => t)
  | none => s
/-- R385: renewal waits in HALT, VALLEY and SAFE-HOLD, and while a channel of the region is not running. -/
def State.renewWaits (s : State) (r : Nat) : Bool :=
  s.mode.ov.halt || s.mode.ov.valley || s.mode.ov.safeHold || s.mode.ov.freeze || !s.domainOn 40 ||
    let g0 := s.rgnBase r / 16 / s.granule
    let g1 := s.rgnLimit r / 16 / s.granule
    (List.range s.nch).any fun i => decide (g0 + i ≤ g1) && s.get (F.DRC_STAT_STATE ((g0 + i) % s.nch)) != 2
/-- RENEW_VISIT: a line that a held write waits for comes first, out of order; then the line at RPTR. -/
def State.renewVisit (s : State) (checks : List LineCheck) : State :=
  let r := s.get F.CRY_RN_REGION
  if !s.is F.CRY_RN_ACTIVE || s.renewWaits r then s
  else
    let p := s.rptr
    match (s.heldIn r).find? (fun e => decide (p ≤ e.2.heldAt)) with
    | some (_, q) =>
      let a := q.heldAt
      let t := s.renewLine a (s.lineRgn a) true checks
      let free (e : DramReq) : DramReq := if e.held && e.heldAt == a then { e with held := false } else e
      (t.forEach (List.range 8) fun s c =>
        let x := s.dram c
        s.setDram c { x with reqs := x.reqs.map free }).syncUrgent r
    | none =>
      let t := s.renewLine p (s.lineRgn p) false checks
      let t := t.setPair R.CRY_RPTR_LO R.CRY_RPTR_HI ((p + 16) % 2 ^ 48)
      if s.rgnLimit r < p + 16 then t.renewEnd r else t
def execRenewVisit (checks : List LineCheck) (s : State) : Ans := .next (s.renewVisit checks)

/-- HOLD_TIMEOUT, R383: the held write of request `id` is not performed. -/
def State.holdTimeout (s : State) (c id : Nat) : State :=
  let x := s.dram c
  match x.find id with
  | some r =>
    (match r.todo with
     | i :: rest =>
       if r.held then
         let g := r.rgns.getD i ⟨32, false, 0, 0, 0, 0, false⟩
         let s := s.setDram c (x.update { r with todo := rest, held := false, stats := r.stats ++ [(i, stTimeout)] })
         (((s.syncUrgent g.region).raise F.CRY_STAT_HOLDTMO).post 0x0DB (drcSrc c) g.region).answerReady c
       else s
     | [] => s)
  | none => s
def execHoldTimeout (c : Fin 8) (id : Nat) (s : State) : Ans := .next (s.holdTimeout c id)

/-! ## Requests at NI 72 + c -/

/-- A data request or a fence reaches the channel: refused, accepted, or left waiting in the NI (none) while the channel
initialises, fills or has no room. -/
def State.dramAdmit (s : State) (c : Nat) (pkt : List Carriage) : Option State :=
  let k := pkt.headD Carriage.zero
  let st := s.get (F.DRC_STAT_STATE c)
  if s.is (F.MIG_INITCTL_BUSY c) || (st ≠ 2 && !(st == 3 && s.mode.ov.halt && decide (k.ctx ≤ 2))) then none
  else
    let s := if st = 3 then s.dramWake c else s
    if k.typ == tFence then some (((s.flushGroups c).dramAccept c pkt).answerReady c)
    else
      match s.dramRefusal c k with
      | some (status, t) => some (t.replyFail (72 + c) pkt status)
      | none =>
        if !isReadType k.typ && decide (64 < (s.dram c).queuedLines + lineCount k) then none
        else some ((s.dramAccept c pkt).answerReady c)

end Sys2Proof.Machine
end

