-- ==== Sys2Proof/Machine/Store.lean ====
section
/-! DEFINITION. The configuration store (R178, R179): its place, its layout, and the DRAM lines that the configuration engine and
a field test read and write there. -/
namespace Sys2Proof.Machine

/-! ## A line through the engine's port -/

/-- A request of one line by NI `src` under context `ctx`. -/
def enginePkt (src ctx typ g : Nat) : Carriage :=
  { Carriage.zero with src := src, ctx := ctx, typ := typ, addr := BitVec.ofNat 48 (16 * g) }
/-- The channel of a line serves the request: it runs (self-refresh in HALT ends for it, Table 14-6), and refuses nothing. A
channel that initialises, fills or is off serves none, where the spec lets a request wait or names no outcome: it counts as a
failed access (log entry 82). -/
def State.engineAdmit (s : State) (k : Carriage) (g : Nat) : State × Bool :=
  let c := s.channelOf g
  let st := s.get (F.DRC_STAT_STATE c)
  if !s.domainOn (28 + c) || s.is (F.MIG_INITCTL_BUSY c) || (st ≠ 2 && !(st == 3 && s.mode.ov.halt)) then (s, false)
  else
    let s := if st = 3 then s.dramWake c else s
    match s.dramRefusal c k with
    | some e => (e.2, false)
    | none => (s, true)
/-- The line with the words of a mask written; whether it was performed. -/
def State.engineWrite (s : State) (src ctx g : Nat) (m : BitVec 16) (ws : List Word) (checks : List LineCheck) : State × Bool :=
  let a := s.engineAdmit (enginePkt src ctx tWrLine g) g
  if !a.2 then a
  else
    let d := a.1.writeData (s.channelOf g) (s.localLine g) (16 * g) (s.lineRgn (16 * g)) (m == BitVec.allOnes 16) (~~~m)
      (fun old => some (mixBeats m ws old)) checks .none
    (d.state, !d.held && statusFine d.status)
/-- The line's words, if it was read. -/
def State.engineRead (s : State) (src ctx g : Nat) (checks : List LineCheck) : State × Option (List Word) :=
  let a := s.engineAdmit (enginePkt src ctx tRdLine g) g
  if !a.2 then (a.1, none)
  else
    let d := a.1.readData (s.channelOf g) (s.localLine g) (16 * g) (s.lineRgn (16 * g)) false (BitVec.allOnes 16) checks .none
    (d.state, if statusFine d.status then some d.words else none)
/-- The commands of one whole transfer are confirmed as they go and leave no row open: what other requests' commands left stands
(log entry 82). -/
def State.confirmed (s t : State) : State :=
  t.forEach (List.range 8) fun t c => t.setDram c { t.dram c with retry := (s.dram c).retry, rows := (s.dram c).rows }

/-! ## Words of an area -/

/-- The m-th line of an area of 2^16 lines from line `g` on. The parity lines of a NESTED region are no data lines (R349), so
the area's offsets pass over them, as those of R367 do (log entry 82). -/
def State.dataLine (s : State) (g m : Nat) : Nat :=
  if s.rgnNested (16 * g) then
    g + (((List.range 65536).filter fun k => s.localLine (g + k) % 16 != 15)[m]?).getD 65536
  else g + m
/-- The words of line `m` of an area that a transfer of `n` words from offset `o` covers. -/
def areaMask (o n m : Nat) : BitVec 16 :=
  BitVec.ofNat 16 ((List.range 16).foldl (fun v k => v + 2 ^ k * bit (decide (o ≤ 16 * m + k ∧ 16 * m + k < o + n))) 0)
/-- The lines of an area that a transfer touches. -/
def areaLines (o n : Nat) : List Nat := (List.range ((o + n + 15) / 16 - o / 16)).map (o / 16 + ·)
/-- Words are written from offset `o` of the area at word `b`; false where a line was not performed. -/
def State.putWords (s : State) (src ctx b o : Nat) (ws : List Word) (checks : List LineCheck) : State × Bool :=
  let r := (areaLines o ws.length).foldl (fun (p : State × Bool) m =>
    let line := (List.range 16).map fun k => ws.getD (16 * m + k - o) 0
    let w := p.1.engineWrite src ctx (s.dataLine (b / 16) m) (areaMask o ws.length m) line checks
    (w.1, p.2 && w.2)) (s, true)
  (s.confirmed r.1, r.2)
/-- `n` words from offset `o`, if every line was read. -/
def State.getWords (s : State) (src ctx b o n : Nat) (checks : List LineCheck) : State × Option (List Word) :=
  let r := (areaLines o n).foldl (fun (p : State × Option (List Word)) m =>
    let d := p.1.engineRead src ctx (s.dataLine (b / 16) m) checks
    (d.1, match p.2, d.2 with | some ws, some l => some (ws ++ l) | _, _ => none)) (s, some [])
  (s.confirmed r.1, r.2.map fun ws => (ws.drop (o % 16)).take n)

/-! ## The store -/

/-- CFG.STORE: bits 19:0 are ignored. -/
def State.storeBase (s : State) : Nat := s.pair R.CFG_STORE_LO R.CFG_STORE_HI / 2 ^ 20 * 2 ^ 20
/-- R178: the store lies in NESTED, SEALED regions, on whose key IDs context 1 holds R and W. Regions are looked at where they
begin and end: between those nothing changes. -/
def State.storeOk (s : State) : Bool :=
  let lo := s.storeBase
  let hi := lo + 50462720
  let cuts := lo :: ((List.range 32).flatMap fun q => [s.rgnBase q, s.rgnLimit q + 1]).filter fun a => decide (lo < a ∧ a < hi)
  s.is (F.CRY_RIGHTS_CTL_R 1) && s.is (F.CRY_RIGHTS_CTL_W 1) && cuts.all fun a =>
    match s.regionAt a with
    | none => false
    | some r => s.is (F.MIG_REGION_CTL_CODE r) && s.get (F.MIG_REGION_CTL_CRYPTO r) == 2 &&
        s.maskBit 1 (s.get (F.MIG_REGION_CTL_KEYID r))
/-- The check, shown in STOREOK. -/
def State.checkStore (s : State) : State := s.put F.CFG_STATUS_STOREOK (bit s.storeOk)
/-- The word at which slot k of a field begins; field code 31 (or the device bit 24) is the device section's. -/
def State.slotAt (s : State) (f k : Nat) : Nat :=
  s.storeBase + (if f < 24 then (2 * f + k) * 2 ^ 20 else 48 * 2 ^ 20 + k * 2 ^ 16)
/-- The slot that holds the image a field runs, and the other one. -/
def slotBit (f : Nat) : Fld := ⟨R.CFG_SLOT, min f 24, 1⟩
def State.activeSlot (s : State) (f : Nat) : Nat := s.get (slotBit f)
def State.spareSlot (s : State) (f : Nat) : Nat := 1 - s.activeSlot f
/-- A bit of CFG.GVALID; bit 24 is the device section's. -/
def gvalidBit (f : Nat) : Fld := ⟨R.CFG_GVALID, min f 24, 1⟩
/-- R178: words of slot k of a field, by the engine under context 1. -/
def State.putSlot (s : State) (f k o : Nat) (ws : List Word) (checks : List LineCheck) : State × Bool :=
  s.putWords 94 1 (s.slotAt f k) o ws checks
def State.getSlot (s : State) (f k o n : Nat) (checks : List LineCheck) : State × Option (List Word) :=
  s.getWords 94 1 (s.slotAt f k) o n checks
/-- R178: where memory image j and the section's opening words lie in a field slot. -/
def slotMem (j : Nat) : Nat := 458752 + 2219 * j
def slotOpening : Nat := 884800

/-! ## A field section's words (R173) -/

/-- The words of a section that initialises m memories. -/
def fieldWords (m : Nat) : Nat := 458757 + 2219 * m
/-- The memories that the opening words' INIT bitmap names. -/
def initOf (opening : List Word) : List Nat :=
  (List.range 192).filter fun j => bitOf (j % 48) (opening.getD (1 + j / 48) 0).toNat
/-- Memory image j: 2,048 data words and 171 tag words. -/
def memoryOf (j : Nat) (ws : List Word) : List (Nat × (Word × BitVec 4)) :=
  (List.range 2048).map fun k =>
    (2048 * j + k, ws.getD k 0, BitVec.ofNat 4 (bitsOf (4 * (k % 12)) 4 (ws.getD (2048 + k / 12) 0).toNat))
/-- A field section: its opening words, its frames, and the images of the memories it initialises, by memory. -/
def fieldOf (opening frames : List Word) (mems : List (Nat × List Word)) : FieldImage :=
  { Config.bynath frames with
    frames := frames, initMem := initOf opening, memData := mems.flatMap fun e => memoryOf e.1 e.2 }
/-- A section as it comes: memory images in ascending order. -/
def sectionOf (ws : List Word) : FieldImage :=
  let body := ws.drop 458757
  fieldOf (ws.take 5) ((ws.drop 5).take 458752)
    ((initOf (ws.take 5)).zipIdx.map fun e => (e.1, (body.drop (2219 * e.2)).take 2219))

/-- R181: a section is written into a slot. -/
def State.putSection (s : State) (f k : Nat) (ws : List Word) (checks : List LineCheck) : State × Bool :=
  let frames := s.putSlot f k 0 ((ws.drop 5).take 458752) checks
  let opened := frames.1.putSlot f k slotOpening (ws.take 5) checks
  (initOf (ws.take 5)).zipIdx.foldl (fun (p : State × Bool) e =>
    let w := p.1.putSlot f k (slotMem e.1) ((ws.drop (458757 + 2219 * e.2)).take 2219) checks
    (w.1, p.2 && w.2)) (opened.1, frames.2 && opened.2)
/-- A section is read back; none where a read fails. -/
def State.getSection (s : State) (f k : Nat) (checks : List LineCheck) : State × Option FieldImage :=
  let o := s.getSlot f k slotOpening 5 checks
  let r := o.1.getSlot f k 0 458752 checks
  match o.2, r.2 with
  | some opening, some frames =>
    let m := (initOf opening).foldl (fun (p : State × Option (List (Nat × List Word))) j =>
      let d := p.1.getSlot f k (slotMem j) 2219 checks
      (d.1, match p.2, d.2 with | some l, some ws => some (l ++ [(j, ws)]) | _, _ => none)) (r.1, some [])
    (m.1, m.2.map (fieldOf opening frames))
  | _, _ => (r.1, none)

/-! ## Configuration frames (R191) -/

/-- The words of a configuration frame as they were written: of a field, or of the device section (code 31), whose words
fill its frames in order from its length word on, with 0 after the last (log entry 82). -/
def State.frameWords (s : State) (code n : Nat) : List Word :=
  if code = 31 then (List.range 128).map fun k => SMap.get s.pins.device 0 (128 * n + k)
  else match s.image code with
    | some x => (x.frames.drop (128 * n)).take 128
    | none => []
/-- R194: a frame rewritten: what its words set changes with them. -/
def State.setFrame (s : State) (code n : Nat) (ws : List Word) : State :=
  if ws = s.frameWords code n then s
  else if code = 31 then
    { s with pins := { s.pins with
        device := (List.range 128).foldl (fun m k => SMap.set m 0 (128 * n + k) (ws.getD k 0)) s.pins.device } }
  else
    match s.image code with
    | none => s
    | some x =>
      let frames := x.frames.take (128 * n) ++ ws ++ x.frames.drop (128 * (n + 1))
      let y := Config.bynath frames
      s.setImage code (some { y with
        frames := frames, initMem := x.initMem, memData := x.memData, need := x.need, prot := x.prot, opMin := x.opMin,
        rstate := x.rstate, safe := x.safe })
/-- The configuration frames of a field code. -/
def framesOf (code : Nat) : Nat := if code < 24 then 3584 else if code = 31 then 64 else 0
/-- The errors of interleave i: of its data bits (bit k of a word lies in interleave k mod 6) and of its check bits. -/
def FrameErrors.ilv (e : FrameErrors) (i : Nat) : Nat :=
  (e.bits.filter fun b => b.2.val % 6 == i).length + (e.checks.filter fun k => k.val == i).length
/-- What the frame code finds: no error, correctable, or not. -/
inductive FrameCheck where
  | clean | correctable | uncorrectable
  deriving DecidableEq, Repr
/-- R191: an interleave's code corrects 2 errors and detects 3; what it makes of more is open, but 4 and 5 cannot look clean. -/
def State.ilvCheck (s : State) (n : Nat) : FrameCheck × State :=
  if n = 0 then (.clean, s) else if n ≤ 2 then (.correctable, s) else if n = 3 then (.uncorrectable, s)
  else
    let v := s.freeNat
    (if v.1 % 3 = 0 && decide (6 ≤ n) then .clean else if v.1 % 3 = 1 then .correctable else .uncorrectable, v.2)
/-- A frame is correctable when every interleave is; with its interleaves in error. -/
def State.frameCheck (s : State) (e : FrameErrors) : FrameCheck × BitVec 6 × State :=
  (List.range 6).foldl (fun (p : FrameCheck × BitVec 6 × State) i =>
    let r := p.2.2.ilvCheck (e.ilv i)
    match r.1 with
    | .clean => (p.1, p.2.1, r.2)
    | .correctable => (if p.1 = .uncorrectable then .uncorrectable else .correctable, p.2.1 ||| BitVec.ofNat 6 (2 ^ i), r.2)
    | .uncorrectable => (.uncorrectable, p.2.1 ||| BitVec.ofNat 6 (2 ^ i), r.2)) (.clean, 0, s)
/-- The words of a frame with its data errors. -/
def FrameErrors.on (e : FrameErrors) (ws : List Word) : List Word :=
  e.bits.foldl (fun ws b => ws.set b.1.val (ws.getD b.1.val 0 ^^^ BitVec.ofNat 48 (2 ^ b.2.val))) ws

end Sys2Proof.Machine
end

