-- ==== Sys2Proof/Machine/SaveArea.lean ====
section
/-! DEFINITION. The save area of a field test (R430, R431): what is written there before the patterns, and what comes back from
it. -/
namespace Sys2Proof.Machine

/-- The save area of a field: its first word. -/
def State.saveArea (s : State) (f : Nat) : Nat :=
  (s.pair R.BIST_SAVE_LO R.BIST_SAVE_HI / 2 ^ 21 + f) * 2 ^ 21
/-- R430: transfers of a save area go through NI 95 under context 2. -/
def State.putSave (s : State) (b o : Nat) (ws : List Word) (checks : List LineCheck) : State := (s.putWords 95 2 b o ws checks).1
def State.getSave (s : State) (b o n : Nat) (checks : List LineCheck) : State × Option (List Word) := s.getWords 95 2 b o n checks

/-! ## Saving -/

/-- A stored word as the engine reads it; one that was never written is open (R148). -/
def State.savedCell (s : State) (m w : Nat) : (Word × BitVec 4) × State :=
  match s.word m w with
  | some c => ((c.data, c.tag), s)
  | none => let v := s.freeNat; ((BitVec.ofNat 48 v.1, BitVec.ofNat 4 (v.1 / 2 ^ 48)), v.2)
/-- A memory image: 2,048 data words, then tags, twelve to a word (R173). -/
def State.savedMemory (s : State) (m : Nat) : List Word × State :=
  let r : List (Word × BitVec 4) × State := (List.range 2048).foldl (fun (p : List (Word × BitVec 4) × State) w =>
    let c := p.2.savedCell m w
    (p.1 ++ [c.1], c.2)) ([], s)
  let tag (k : Nat) : Nat := (r.1.getD k (0, 0)).2.toNat
  (r.1.map Prod.fst ++ (List.range 171).map fun g =>
    BitVec.ofNat 48 ((List.range 12).foldl (fun v i => v + 16 ^ i * tag (12 * g + i)) 0), r.2)
/-- Line l of the second part: the layout of a snapshot, with the queues as they stand. -/
def State.saveLine (s : State) (f l : Nat) : List Word :=
  let ws :=
    if l = 0 then
      [BitVec.ofNat 48 s.time.tick, s.time.lastT, BitVec.ofNat 48 f, BitVec.ofNat 48 (s.snapLines f),
        BitVec.ofNat 48 (s.get F.PWR_OPSTAT_OPCUR)]
    else if 6657 ≤ l ∧ l < 6849 then
      let q := s.queue (memKey f (l - 6657))
      snapQueue q.q (s.crpOf f q, s.cwpOf f q)
    else s.snapLine f l
  (List.range 16).map fun i => ws.getD i 0
/-- R430: a configured field is saved: frames, memories and tags, then shadows and queues. -/
def State.saveField (s : State) (f : Nat) (checks : List LineCheck) : State :=
  let b := s.saveArea f
  let frames := (s.image f).elim [] (·.frames)
  let s := s.putSave b 0 frames checks
  let s := s.forEach (List.range 192) fun s j =>
    let m := s.savedMemory (memKey f j)
    m.2.putSave b (slotMem j) m.1 checks
  s.putSave (b + 2 ^ 20) 0 ((List.range (s.snapLines f)).flatMap (s.saveLine f)) checks

/-! ## Restoring (R431) -/

/-- Memory contents and tags come back; words that were never written stay so. -/
def State.restoreMemory (s : State) (f j : Nat) (ws : List Word) : State :=
  (memoryOf j ws).foldl (fun s e =>
    let m := memKey f j
    let w := e.1 % 2048
    if (s.word m w).isNone then s else s.setWord m w (some (s.bmCell f j e.2.1 e.2.2))) s
/-- Six words of a cell as registers, and the words of a slice. -/
def cellFromWords (ws : List Word) : CellRegs :=
  ⟨ws.getD 0 0, ws.getD 1 0, ws.getD 2 0, ws.getD 3 0, ws.getD 4 0, flagsOfWord (ws.getD 5 0)⟩
def sliceFromWords (ws : List Word) : SliceRegs :=
  let w (k : Nat) : Word := ws.getD k 0
  let acc (k : Nat) : BitVec 112 := (w (k + 2)).extractLsb' 0 16 ++ w (k + 1) ++ w k
  ⟨w 0, w 1, w 2, w 3, w 4, acc 7, acc 10, w 5, flagsOfWord (w 6)⟩
/-- The flip-flops and their shadows return to the saved shadows; a queue's pointers and ports to the saved ones. -/
def State.restoreFlops (s : State) (f : Nat) (ws : List Word) : State :=
  let words (o n : Nat) : List Word := (ws.drop o).take n
  let s := s.forEach (List.range 16384) fun s i =>
    let r := cellFromWords (words (16 + 6 * i) 6)
    s.setCell (16384 * f + i) { s.cell (16384 * f + i) with now := r, prev := r, shadow := r }
  let s := s.forEach (List.range 512) fun s i =>
    let r := sliceFromWords (words (16 * (6145 + i)) 16)
    s.setSlice (sliceKey f i) { s.slice (sliceKey f i) with now := r, prev := r, shadow := r }
  let s := s.forEach (List.range 192) fun s j =>
    let w (k : Nat) : Word := ws.getD (16 * (6657 + j) + k) 0
    let q := s.queue (memKey f j)
    let r : QRegs := { q.q with
      wp := (w 0).toNat, rp := (w 1).toNat, stop := (w 4).getLsbD 0, post := q.q.post.map fun _ => (w 5).toNat,
      opened := (w 6).toNat, ra := w 7, rb := w 8, st := w 9 }
    s.setQueue (memKey f j) { q with q := r, crp := if s.isProtected f then (w 2).toNat else q.crp,
                                     cwp := if s.isProtected f then (w 3).toNat else q.cwp }
  s.forEach (List.range (128 + s.relays f)) fun s r =>
    let w := ws.getD (16 * 6849 + r) 0
    let x := s.seg (segKey f r)
    s.setSeg (segKey f r) { x with value := w, prev := w, shadow := w }
/-- The saved copy of a field, if every read of it is answered. -/
def State.readSave (s : State) (f : Nat) (checks : List LineCheck) :
    State × Option (List Word × List (Nat × List Word) × List Word) :=
  let b := s.saveArea f
  let r := s.getSave b 0 458752 checks
  let m := (List.range 192).foldl (fun (p : State × Option (List (Nat × List Word))) j =>
    let d := p.1.getSave b (slotMem j) 2219 checks
    (d.1, match p.2, d.2 with | some l, some ws => some (l ++ [(j, ws)]) | _, _ => none)) (r.1, some [])
  let q := m.1.getSave (b + 2 ^ 20) 0 (16 * s.snapLines f) checks
  (q.1, match r.2, m.2, q.2 with | some a, some b, some c => some (a, b, c) | _, _, _ => none)
/-- R431: a tested field is restored from what was read and waits for one sweep; false where a read failed, and then the field
loses its configuration and stays fenced. -/
def State.restoreFrom (s : State) (f : Nat) : Option (List Word × List (Nat × List Word) × List Word) → State × Bool
  | some (frames, mems, flops) =>
    let s := s.forEach (List.range 3584) fun s n => s.setFrame f n ((frames.drop (128 * n)).take 128)
    let s := mems.foldl (fun s e => s.restoreMemory f e.1 e.2) s
    ((s.restoreFlops f flops).awaitSweep f 1792, true)
  | none => ((((s.unconfigure f).setFld f FieldSt.zero).keepFenced f).syncConfig, false)
/-- R431: the save area is read, and the field restored from it. -/
def State.restoreField (s : State) (f : Nat) (checks : List LineCheck) : State × Bool :=
  let r := s.readSave f checks
  r.1.restoreFrom f r.2

end Sys2Proof.Machine
end

