-- ==== Sys2Proof/Machine/Power.lean ====
section
/-! DEFINITION. Power domains (R386 to R391), VALLEY (R392 to R395), RELEASE (R401) and resets (R300, R408, R409). -/
namespace Sys2Proof.Machine

/-! ## What a domain loses -/

/-- The registers that MIG holds for one channel lie in the channel's stage (chapter 15). -/
def migOfChannel (c off : Nat) : Bool :=
  [0x120010, 0x120030, 0x120050, 0x120070, 0x120090, 0x1200B0, 0x1200D0, 0x120100].any (fun b => off == b + 4 * c) ||
    decide (0x121000 + 0x100 * c ≤ off ∧ off < 0x121100 + 0x100 * c)
/-- What an NI loses when the block behind it is off. Its tables, its SEQ and what stands on the router's side (arrivals, which are
bounced or orphaned, and responses formed) lie in SPN. -/
def State.dropNi (s : State) (n : Nat) : State :=
  let x := s.ni n
  s.setNi n { x with stAddr := 0, stHead := 0, stWords := [], trackers := [], inj := [], release := [], rx := [],
                     rxNow := none, badWrite := false, accepted := 0 }
/-- R386: a domain loses everything but its configuration (and what lies in AO). -/
def State.dropDomain (s : State) (d : Nat) : State :=
  let s := (s.resetRegs d).forEach (domainNis d) State.dropNi
  if 4 ≤ d ∧ d < 28 then
    let f := d - 4
    { s with
      cells := SMap.drop (fun k => k / 16384 == f) s.cells, slices := SMap.drop (fun k => k / 512 == f) s.slices,
      segs := SMap.drop (fun k => k / 2048 == f) s.segs, queues := SMap.drop (fun k => k / 192 == f) s.queues,
      bmem := s.bmem.filter (fun e => e.1 / (2048 * 192) != f),
      fields := SMap.set s.fields FieldSt.zero f { FieldSt.zero with missed := (s.fld f).missed, fenceHold := (s.fld f).fenceHold } }
  else if 28 ≤ d ∧ d < 36 then
    let c := d - 28
    let x := s.dram c
    let s := s.setDram c { ChSt.zero with filled := x.filled, lines := x.lines, nextId := x.nextId }
    { s with regs := s.regs.filter fun e => !migOfChannel c e.1 }
  else if 36 ≤ d ∧ d < 40 then
    { s with lanes := SMap.drop (fun l => laneDomain l == d) s.lanes, ports := SMap.drop (fun p => portDomain p == d) s.ports }
  else if d = 40 then { s with cry := { s.cry with cache := [], misses := 0 } }
  else s

/-- A domain's bit of DOMSTAT. -/
def State.putDomain (s : State) (d : Nat) (on : Bool) : State :=
  if d < 32 then s.put ⟨R.PWR_DOMSTAT0, d, 1⟩ (bit on) else s.put ⟨R.PWR_DOMSTAT1, d - 32, 1⟩ (bit on)
/-- DOMCTL in effect. -/
def State.domainWanted (s : State) (d : Nat) : Bool :=
  if d < 4 then true else if d < 32 then bitOf d (s.reg R.PWR_DOMCTL0) else bitOf (d - 32) (s.reg R.PWR_DOMCTL1)
def State.domStep (s : State) (d : Nat) : Nat := SMap.get s.power.steps 0 d
def State.setStep (s : State) (d k : Nat) : State := { s with power := { s.power with steps := SMap.set s.power.steps 0 d k } }

/-! ## Switching off (R388) -/

/-- R102: the boundary switch of field g that drives track t across edge `e` of field f (N, E, S, W as 0 to 3) is enabled. -/
def FieldImage.drives (i : FieldImage) (e t : Nat) : Bool :=
  decide ((t < 64) ↔ (e = 1 ∨ e = 3)) && i.drivers.contains (10 * t + (if e = 0 ∨ e = 3 then 8 else 9))
/-- R102, Table 4-3: as a fence of field g begins, each neighbour keeps which of g's switches were enabled, and what each
passed in the last cycle. -/
def State.fenceBegin (s : State) (g : Nat) : State :=
  s.forEach allFields fun s f =>
    (List.range 4).foldl (fun s e =>
      if fieldBeyond f e ≠ some g then s
      else
        match s.image g with
        | some j =>
          let old := (s.fld f).fenceHold.filter fun x => x.1 / 128 != e
          let now := (List.range 128).filterMap fun t =>
            if j.drives e t then some (128 * e + t, s.shown g (10 * t + (if e = 0 ∨ e = 3 then 8 else 9))) else none
          s.setFld f { s.fld f with fenceHold := old ++ now }
        | none => s) s

/-- Step 4: isolated and off; the NIs enter CLOSED. -/
def State.isolate (s : State) (d : Nat) : State :=
  let s := if 4 ≤ d ∧ d < 28 then s.fenceBegin (d - 4) else if 36 ≤ d ∧ d < 40 then s.portsOff d else s
  let s := s.forEach (domainNis d) fun s n => s.niCauses n fun c => { c with off := true, closing := false }
  (((s.putDomain d false).dropDomain d).setStep d 0).post 0x0F0 92 d
/-- Some of these domains are in steps 1 to 3. -/
def State.draining (s : State) (ds : List Nat) : Bool := ds.any fun d => decide (1 ≤ s.domStep d ∧ s.domStep d ≤ 3)
/-- R389: once no domain is in steps 1 to 3, those that are through are isolated in ascending code. -/
def State.isolateReady (s : State) : State :=
  if s.draining switchable then s
  else s.forEach (switchable.filter fun d => s.domStep d == 4) State.isolate

/-- Step 2 has ended: requests accepted by the domain are answered (those that a link port forwarded included), and no block
memory of a field serves one. -/
def State.servedAll (s : State) (d : Nat) : Bool :=
  (!(decide (4 ≤ d ∧ d < 28)) || s.queues.all fun e => decide (e.1 / 192 ≠ d - 4) || e.2.jobs.isEmpty) &&
  ((List.range 6).all fun p => portDomain p != d || (s.portSt p).fwd.isEmpty) &&
  (domainNis d).all fun n =>
    let x := s.ni n
    (firstWhole x.inReq).isNone && x.replies.isEmpty && x.accepted == 0 && (!(decide (28 ≤ d ∧ d < 36)) || (s.dram (d - 28)).reqs.isEmpty)
/-- Step 3 has ended: nothing the domain issued is outstanding. -/
def State.awaitsNothing (s : State) (d : Nat) : Bool := (domainNis d).all fun n => (s.ni n).trackers.isEmpty
/-- Steps 2 and 3 as far as they go. -/
def State.drainStep (s : State) (d : Nat) : State :=
  let s := if s.domStep d = 1 then s.setStep d 2 else s
  let s := if s.domStep d = 2 ∧ 28 ≤ d ∧ d < 36 then s.drainChannel (d - 28)
    else if s.domStep d = 2 ∧ d = 40 then s.flushCache else s
  let s := if s.domStep d = 2 && s.servedAll d then
      let s := if 4 ≤ d ∧ d < 28 then s.setFld (d - 4) { s.fld (d - 4) with drained := true } else s
      s.setStep d 3
    else s
  if s.domStep d = 3 && s.awaitsNothing d then s.setStep d 4 else s
/-- A change stands still in FREEZE and SAFE-HOLD; VALLEY entry isolates on its own. In HALT one that has begun goes on. -/
def State.domainsMove (s : State) : Bool := !s.mode.ov.freeze && !s.mode.ov.safeHold && !s.mode.ov.valley
/-- DOMAIN_DRAIN. -/
def State.domainDrain (s : State) (d : Nat) : State :=
  if s.mode.ov.freeze || s.mode.ov.safeHold then s
  else
    let s := s.drainStep d
    if s.mode.ov.valley then s else s.isolateReady
/-- Step 3 times out: what is outstanding is given up. -/
def State.drainTimeout (s : State) (d : Nat) : State :=
  if s.domStep d = 3 && !s.awaitsNothing d then
    let s := (s.raise F.PWR_ERR_DOMTMO).post 0x0F1 92 d
    (s.forEach (domainNis d) fun s n => s.setNi n { s.ni n with trackers := [] }).setStep d 4
  else s

/-! ## Switching on (R390, R391) -/

/-- Words of memory contents, by 2048 j + w, are written. -/
def State.loadWords (s : State) (f : Nat) (ws : List (Nat × (Word × BitVec 4))) : State :=
  ws.foldl (fun s e => s.setWord (memKey f (e.1 / 2048)) (e.1 % 2048) (some (s.bmCell f (e.1 / 2048) e.2.1 e.2.2))) s
/-- R148, R173: the memories an image initialises take their contents; words it does not list are 0. -/
def State.loadMemories (s : State) (f : Nat) (i : FieldImage) : State :=
  (i.initMem.foldl (fun s j => s.zeroMemory f j) s).loadWords f i.memData
/-- R391: one memory is rewritten from the field's active slot; where that cannot be read its words stay unwritten (log entry
82). -/
def State.reloadMemory (s : State) (f j : Nat) (checks : List LineCheck) : State :=
  let r := s.getSlot f (s.activeSlot f) (slotMem j) 2219 checks
  match r.2 with
  | some ws => (r.1.zeroMemory f j).loadWords f (memoryOf j ws)
  | none => r.1
/-- R391: the memories that the image initialises, when GVALID marks the field. -/
def State.reloadMemories (s : State) (f : Nat) (checks : List LineCheck) : State :=
  match s.image f with
  | some i => if s.is (gvalidBit f) then i.initMem.foldl (fun s j => s.reloadMemory f j checks) s else s
  | none => s
/-- DOMAIN_ON: power, reset values, and the effects of the domain's kind; then its NIs open. A field's frames wait for one full
sweep (R391). -/
def State.powerUp (s : State) (d : Nat) (checks : List LineCheck) : State :=
  let skip := if 4 ≤ d ∧ d < 28 then (s.fld (d - 4)).missed else 0
  let s := s.dropDomain d
  let s := s.putDomain d true
  let s := if 4 ≤ d ∧ d < 28 then
      let f := d - 4
      let s := (s.initFabric f).setFld f { s.fld f with missed := 0 }
      ((s.reloadMemories f checks).bump (F.FLD_OVRCNT_SKIP f) skip).awaitSweep f 1792
    else s
  let s := s.forEach (domainNis d) fun s n => s.niCauses n fun c => { c with off := false, closing := false }
  s.post 0x0F0 92 d
def State.domainUp (s : State) (d : Nat) (checks : List LineCheck) : State :=
  if s.domainsMove && !s.power.waiting && s.domainWanted d && !s.domainOn d &&
      switchable.all (fun k => s.domStep k == 0) then s.powerUp d checks
  else s
def execDomainOn (d : Fin 41) (checks : List LineCheck) (s : State) : Ans := .next (s.domainUp d checks)

/-- R389: a committed change of DOMCTL starts, or waits for the release tick of a halt. -/
def State.powerChange (s : State) : State :=
  let offs := switchable.filter fun d => !s.domainWanted d && s.domainOn d && s.domStep d == 0
  if s.mode.ov.freeze || s.mode.ov.safeHold || s.mode.ov.valley then s
  else if s.mode.ov.halt then
    if offs.isEmpty && switchable.all (fun d => s.domainWanted d == s.domainOn d) then s
    else { s with power := { s.power with waiting := true } }
  else { (s.forEach offs State.beginOff) with power := { (s.forEach offs State.beginOff).power with waiting := false } }

/-! ## VALLEY -/

/-- DRC registers that a wake retrains by (Table 14-6): CTL, CFG, AMAP and TIMING stay through VALLEY. -/
def drcKept (off : Nat) : Bool :=
  decide (0x100000 ≤ off ∧ off < 0x110000) &&
    (let l := off % 8192; l == 0 || l == 4 || l == 8 || l == 0x18 || decide (0x20 ≤ l ∧ l < 0x40))
/-- R392 step 6: a domain goes off. -/
def State.valleyOff (s : State) (d : Nat) : State :=
  if !s.domainOn d then s
  else
    let kept := s.regs.filter fun e => drcKept e.1
    let s := s.isolate d
    let s := if 28 ≤ d ∧ d < 36 then
        { s with regs := kept.foldl (fun m e => SMap.insert m e.1 e.2) s.regs }
      else s
    if d = 1 then
      State.clearTimetable { s with
        stw := .zero, dbg := .zero, cfg := { CfgSt.zero with encrypted := s.cfg.encrypted, fenced := s.cfg.fenced } }
    else if d = 2 then
      let s : State := { s with routers := [] }
      s.forEach (List.range 96) fun s n =>
        let c := (s.ni n).causes
        s.setNi n { NiSt.zero with seq := (s.ni n).seq, causes := { c with off := true } }
    else s
/-- A wake source: the first is recorded, and the wake starts once entry is complete. -/
def State.wakeFrom (s : State) (k : Nat) : State :=
  if !s.mode.ov.valley || s.mode.ov.safeHold || s.mode.ov.freeze then s
  else
    let s := if s.get F.PWR_VALLEY_SRC = 0 then s.put F.PWR_VALLEY_SRC k else s
    if s.get F.PWR_VALLEY_STATE = 2 then s.put F.PWR_VALLEY_STATE 3 else s
/-- VALLEY_ENTRY: steps 2 to 6 of R392 end. -/
def State.valleyEntry (s : State) : State :=
  if !s.mode.ov.valley || s.mode.ov.safeHold || s.mode.ov.freeze || s.get F.PWR_VALLEY_STATE ≠ 1 || s.inProgress ≠ 0 ||
      s.is F.PWR_OPSTAT_BUSY then s
  else
    let s := s.forEach valleyDomains State.drainStep
    if s.draining valleyDomains then s
    else
      let s := s.forEach ((List.range 37).map (40 - ·)) State.valleyOff
      let s := ((s.valleyOff 2).valleyOff 1).syncConfig
      let s := s.put F.PWR_VALLEY_STATE 2
      let s : State := { s with mode := { s.mode with busy := false } }
      if s.get F.PWR_VALLEY_SRC = 0 then s else s.put F.PWR_VALLEY_STATE 3
/-- WAKE_N and L1_EXIT, R394. -/
def execWakeN (s : State) : Ans := .next (if s.is F.PWR_VALLEY_WNEN then s.wakeFrom 1 else s)
def execL1Exit (s : State) : Ans := .next (if s.is F.PWR_VALLEY_L1EN then s.wakeFrom 2 else s)

/-- Table 17-2: STW and SPN are on, with their NIs. -/
def State.baseOn (s : State) : State :=
  let s := (s.putDomain 1 true).putDomain 2 true
  s.forEach (List.range 96) fun s n => s.niCauses n fun c => { c with off := switchable.any fun d => (domainNis d).contains n && !s.domainOn d }
/-- Modes that a wake or a release leaves with a pending failover take it (R25, R28). -/
def ModeSt.withPending (m : ModeSt) : ModeSt :=
  if m.base = .run ∧ HwCause.holdover ∈ m.pending then
    { m with base := .holdover, pending := m.pending.filter (· ≠ .holdover) }
  else { m with pending := m.pending.filter (· ≠ .holdover) }
/-- A halt's release tick takes a return to RUN that waited for it (R25, R254). -/
def ModeSt.withBack (m : ModeSt) : ModeSt :=
  if m.base = .holdover && m.backNext then { m with base := .run, backNext := false } else m
/-- WAKE_COMPLETE: the wake has swept the frames (R192), so they wait for repairs only. GVALID was lost with STW, so no memory is
rewritten from the store (R28, R391). -/
def State.wakeComplete (s : State) : State :=
  if !s.mode.ov.valley || s.mode.ov.safeHold || s.mode.ov.freeze || s.get F.PWR_VALLEY_STATE ≠ 3 then s
  else
    let s := s.baseOn
    let wanted := switchable.filter fun d => s.domainWanted d
    let s := s.forEach (wanted.filter (28 ≤ ·)) fun s d =>
      let kept := s.regs.filter fun e => drcKept e.1
      let s := s.powerUp d []
      if d < 36 then { s with regs := kept.foldl (fun m e => SMap.insert m e.1 e.2) s.regs } else s
    let s := s.forEach (List.range 8) fun s c => if s.domainOn (28 + c) then s.dramWake c else s
    let s := s.forEach (wanted.filter (· < 28)) fun s d => (s.powerUp d []).awaitSweep (d - 4) 0
    let s := (s.put F.PWR_VALLEY_STATE 0).syncConfig
    let m : ModeSt := { s.mode with ov := { s.mode.ov with valley := false } }
    let m := m.withPending
    let s := if m.base = .run ∨ m.base = .holdover then s.resumeMode m .wake
      else s.enterMode m .wake
    s.wdLoad

/-! ## Release from SAFE-HOLD (R401, R433) -/

/-- A field whose test SAFE-HOLD cut is restored, unless the device enters FREEZE, and fails with ITEM 6. -/
def State.endCutTest (s : State) (frozen : Bool) (checks : List LineCheck) : State :=
  let f := s.bist.saved
  let s := match f with | some f => if frozen then s else (s.restoreField f checks).1 | none => s
  let s : State := { s with bist := { s.bist with saved := none, todo := [], ended := true, aborted := false, failed := false } }
  let s := ((s.clear F.BIST_STAT_BUSY).clear F.BIST_STAT_PHASE).clear F.BIST_STAT_CUR
  match f with
  | some f => ((s.put (F.BIST_FRES_RESULT f) 3).put (F.BIST_FRES_ITEM f) 6).postLog 0x0E9 95 f
  | none => s
def State.reqRelease (s : State) (checks : List LineCheck) : State :=
  if !s.mode.ov.safeHold || s.mode.busy || !s.synthsLocked || !s.power.safeN then s.rejectRequest 5
  else
    let frozen := s.mode.ov.freeze || s.mode.pending.contains .freeze
    let s := if frozen then s else s.flushCache.forEach (List.range 8) State.dramWake
    let s := if s.mode.ov.selfTest then s.endCutTest frozen checks else s
    let m : ModeSt := { s.mode with
      base := if s.anyConfigured then .staged else .bare, ov := ⟨false, false, false, false, frozen, false⟩, busy := false, pending := [], lost := 0 }
    let s := if s.domainOn 1 then s else s.baseOn
    let s := (s.put F.PWR_VALLEY_STATE 0).enterMode m .host
    let s := s.startTicks.wdLoad.linksRelease
    let s : State := { s with dbg := { s.dbg with halt := none, resume := none, prepared := false } }
    if frozen then s
    else
      let s : State := { s with power := { s.power with steps := [], waiting := false } }
      let s := s.forEach valleyDomains fun s d => if s.domainOn d then
          s.forEach (domainNis d) fun s n => s.niCauses n fun c => { c with closing := false } else s
      let s := s.forEach allFields fun s f =>
        let s := s.setFld f { s.fld f with phase := .idle, drained := (s.fld f).drained && s.cfg.fenced.contains f }
        if s.configured f then s.awaitSweep f 1792 else s
      s.powerChange

/-! ## Resets -/

/-- R408: a device reset, with its cause (0 power-on, 1 PERST_N, 2 software). What lies outside the block stays: the commands
that wait, fuses, straps and balls, and what the block has already sent. -/
def State.deviceReset (s : State) (cause : Nat) : State :=
  let z := State.reset
  let z : State := { z with
    pending := s.pending, readOut := s.readOut, hostOut := s.hostOut, linkOut := s.linkOut, laneOut := s.laneOut,
    straps := s.straps, fuses := s.fuses, atReset := s.fuses, free := s.free,
    power := { z.power with powered := s.power.powered, safeN := s.power.safeN } }
  let z := (z.put F.PWR_RSTCAUSE_CAUSE cause).put F.CFG_STATUS_BOOT s.straps.mode
  let z := if s.straps.mode = 3 then z.raise F.CFG_STATUS_BADSTRAP else z
  if s.straps.mode = 1 ∨ s.straps.mode = 2 then
    let z := z.raise F.GLB_LOCKCFG_AUTORUN
    let z : State := { z with cfg := { z.cfg with load := some (LoadSt.start none true) } }
    z.enterMode { z.mode with base := .loading } .reset
  else z
/-- POWER_ON, R469. -/
def execPowerOn (s : State) : Ans :=
  .next (if s.power.powered then s else { s with power := { s.power with powered := true } }.deviceReset 0)
/-- SUPPLY_LOSS, R471: power-on reset holds until the supplies are valid again. -/
def execSupplyLoss (s : State) : Ans :=
  .next { State.reset with
    pending := s.pending, readOut := s.readOut, hostOut := s.hostOut, linkOut := s.linkOut, laneOut := s.laneOut,
    straps := s.straps, fuses := s.fuses, atReset := s.fuses, free := s.free,
    power := { State.reset.power with powered := false, safeN := s.power.safeN } }
/-- PERST_N, R300, R408. -/
def execPerstN (s : State) : Ans := .next (if s.power.powered then s.deviceReset 1 else s)
/-- DEVICE_RESET, R408. -/
def execDeviceReset (cause : Fin 3) (s : State) : Ans := .next (if s.power.powered then s.deviceReset cause else s)

/-- A key sequence: two writes of the right values by the right path within 1,024 steward cycles (R409, R439, R441). -/
def keyOk (path wanted : Path) (first second a b : BitVec 16) (cycles : Nat) : Bool :=
  path == wanted && first == a && second == b && decide (cycles ≤ 1024)
/-- SOFTWARE_RESET: two writes of PWR.RSTCTL.KEY, `cycles` steward cycles apart. -/
def execSoftwareReset (path : Path) (first second : BitVec 16) (cycles : Nat) (s : State) : Ans :=
  .next (if s.power.powered && keyOk path .host first second 0x5245 0x5354 cycles then s.deviceReset 2 else s)

/-- HOST_BRIDGE_RESET, R300, R442: kinds 0 FLR, 1 hot reset, 2 link down. -/
def State.hostBridgeReset (s : State) (kind : Nat) : State :=
  if !s.power.powered then s
  else
    let mine (off : Nat) : Bool := decide (0x60000 ≤ off ∧ off < 0x80000)
    let s : State := { s with
      regs := s.regs.filter (fun e => !mine e.1), staged := s.staged.filter (fun e => !mine e.1), host := .zero,
      hostPath := .zero, dbg := { s.dbg with rsvHost := none } }
    let s := s.dbgUnlocked false
    let s := s.forEach [80, 81] fun s n => s.setNi n { s.ni n with trackers := [], inj := [] }
    let s := match s.cfg.load with
      | some l =>
        (match l.pair, l.phase with
         | some _, .ingest => s.failLoad ⟨0xA, 0, 31, 0⟩
         | some _, .verify => s.failLoad ⟨0xA, 0, 31, 0⟩
         | _, _ => s)
      | none => s
    (s.raise F.HB_ERR_RESET).post 0x0E2 80 kind
def execHostBridgeReset (kind : Fin 3) (s : State) : Ans := .next (s.hostBridgeReset kind)

end Sys2Proof.Machine
end

