-- ==== Sys2Proof/Machine/Loading.lean ====
section
/-! DEFINITION. Loading an image (R169 to R190): ingest, verify, the write phase and a reshape's steps. -/
namespace Sys2Proof.Machine

/-! ## What an image says -/

/-- The fields of an image, and the words of its tag and signature. -/
def ImageInfo.fields (i : ImageInfo) : List Nat := allFields.filter fun f => i.fieldMap.getLsbD f
def ImageInfo.tailWords (i : ImageInfo) : Nat := if i.enc then 35 else 32

def State.setLoad (s : State) (l : LoadSt) : State := { s with cfg := { s.cfg with load := some l } }
/-- A check that fails for the whole image. -/
def LoadFail.ofCode (c : Nat) : LoadFail := ⟨c, 0, 31, 0⟩

/-! ## Deciphering (R176) -/

/-- A block of a byte string, its first byte uppermost (NIST SP 800-38D); missing bytes are 0. -/
def gcmBlock (bs : List Byte) : BitVec 128 :=
  BitVec.ofNat 128 ((List.range 16).foldl (fun n k => 256 * n + (bs.getD k 0).toNat) 0)
/-- The blocks of a byte string, the last padded with 0. -/
def gcmBlocks (bs : List Byte) : List (BitVec 128) :=
  (List.range ((bs.length + 15) / 16)).map fun b => gcmBlock ((bs.drop (16 * b)).take 16)
/-- The counter block of block b of the ciphertext; block 0 covers the tag. -/
def gcmCounter (iv : BitVec 96) (b : Nat) : BitVec 128 := iv ++ BitVec.ofNat 32 (b + 1)
/-- Byte n of the keystream. -/
def gcmByte (key : Nat) (iv : BitVec 96) (n : Nat) : Byte :=
  BitVec.ofNat 8 ((Config.aes key (gcmCounter iv (n / 16 + 1))).toNat / 256 ^ (15 - n % 16))
/-- The tag over additional data and ciphertext. -/
def gcmTag (key : Nat) (iv : BitVec 96) (aad text : List Byte) : BitVec 128 :=
  let sizes := BitVec.ofNat 128 (2 ^ 64 * (8 * aad.length) + 8 * text.length)
  Config.ghash (Config.aes key 0) (gcmBlocks aad ++ gcmBlocks text ++ [sizes]) ^^^ Config.aes key (gcmCounter iv 0)
/-- Word n of an image's words in plain: what stands between the header and the GCM tag is encrypted where ENC is 1. -/
def LoadSt.plainWord (l : LoadSt) (n : Nat) : Word :=
  let w := l.got.getD n 0
  match l.info, l.key with
  | some i, some key =>
    if i.enc && decide (128 ≤ n ∧ n + 35 < i.length) then
      w ^^^ unpackWord ((List.range 6).map fun b => gcmByte key i.iv (6 * (n - 128) + b))
    else w
  | _, _ => w
/-- The words from n on, in plain, up to m of them; and how many have come and are in no part yet. -/
def LoadSt.plain (l : LoadSt) (n m : Nat) : List Word := (List.range m).map fun k => l.plainWord (n + k)
def LoadSt.fresh (l : LoadSt) : Nat := l.got.length - l.taken
/-- Words in the order of their packed bytes. -/
def packed (ws : List Word) : List Byte := ws.flatMap packWord
/-- R176: the tag of the image's last words is that of its ciphertext under the header. -/
def LoadSt.tagGood (l : LoadSt) (i : ImageInfo) : Bool :=
  match l.key with
  | none => false
  | some key =>
    let tag : Nat := (l.tail.getD 0 0).toNat * 2 ^ 80 + (l.tail.getD 1 0).toNat * 2 ^ 32 + (l.tail.getD 2 0).toNat % 2 ^ 32
    (gcmTag key i.iv (packed (l.got.take 128)) (packed ((l.got.drop 128).take (i.length - 163)))).toNat == tag
/-- R175: 8 words of the signature block as a big-endian integer: Qx, Qy, r, s for k = 0 to 3. -/
def LoadSt.sigInt (l : LoadSt) (k : Nat) : Nat :=
  (packed ((l.tail.drop (l.tail.length - 32 + 8 * k)).take 8)).foldl (fun n b => 256 * n + b.toNat) 0
/-- The signature stands over the header and the plaintext of every part before the tag. -/
def LoadSt.sigGood (l : LoadSt) (i : ImageInfo) : Bool :=
  Config.ecdsa (l.sigInt 0) (l.sigInt 1) (l.sigInt 2) (l.sigInt 3)
    (Config.sha384 (packed (l.plain 0 (i.length - i.tailWords))))
/-- SHA-384 of Qx followed by Qy. -/
def LoadSt.keyDigest (l : LoadSt) : List (BitVec 32) :=
  Config.sha384 (packed ((l.tail.drop (l.tail.length - 32)).take 16))

/-! ## The store (R178, R179) -/

/-- A load uses the store now. -/
def State.storeLoad (s : State) : Bool := match s.cfg.load with | some l => !l.direct | none => false
/-- STOREEN: a write of CFG.CTL.STOREEN. -/
def State.storeEn (s : State) (on : Bool) : State :=
  if on then (s.raise F.CFG_CTL_STOREEN).checkStore
  else if s.storeLoad || s.is F.CFG_STATUS_GBUSY then s
  else (s.clear F.CFG_CTL_STOREEN).clear F.CFG_STATUS_STOREOK
def execStoreen (on : Bool) (s : State) : Ans := .next (s.storeEn on)

/-- GOLDBUILD: refused while a load runs or STOREOK is 0. -/
def State.goldBuild (s : State) : State :=
  if s.cfg.load.isSome || !s.is F.CFG_STATUS_STOREOK then s else s.raise F.CFG_STATUS_GBUSY
def execGoldbuild (s : State) : Ans := .next s.goldBuild

/-- R181: the slots change places and the new one holds a golden copy. -/
def State.swapSlot (s : State) (f : Nat) : State :=
  (s.put (slotBit f) (1 - s.get (slotBit f))).raise (gvalidBit f)

/-! ## Ingest -/

/-- What taking in words leads to: the state, the load and the check that failed. -/
structure Ingest where
  state : State
  load : LoadSt
  fail : Option LoadFail

/-- R182: a load that needs the store may use it: the check of this moment passes, with the store enabled. -/
def State.storeReady (s : State) : Bool := s.is F.CFG_CTL_STOREEN && s.storeOk
/-- R182, R185, R186: the load result with which an image of this kind fails in the present mode, if it does. -/
def State.kindFails (s : State) (l : LoadSt) (i : ImageInfo) : Option Nat :=
  if l.pair.isNone then (if i.full then none else some 8)
  else if i.full then
    if s.mode.busy || !(decide (s.mode.top = .bare) || decide (s.mode.top = .staged)) then some 8
    else if s.mode.base = .bare && !s.is F.CFG_CTL_STOREEN then none
    else if s.storeReady then none else some 7
  else if !(decide (s.mode.top = .run) || decide (s.mode.top = .holdover)) then some 8
  else if s.storeReady then none else some 7
/-- R172, R184: the device checks of the header. -/
def State.headerFails (s : State) (i : ImageInfo) (ws : List Word) : Option LoadFail :=
  match identityDetail ws s.fuses with
  | some d => some ⟨2, d, 31, 0⟩
  | none =>
    let top := if i.full then s.topPoint else s.get F.PWR_OPSTAT_OPCUR
    if top < i.opMin then some ⟨2, 5, 31, 0⟩
    else (badSafe ws i.fields).map fun p => ⟨2, 0xE, 31, p⟩
/-- A full image takes the device into LOADING: the host asked for it. -/
def State.enterLoading (s : State) : State :=
  if s.mode.base = .loading then s
  else s.enterMode { s.mode with base := .loading, before := s.mode.base } .host
/-- R176: the key of an encrypted image; after scan entry the fuse root cannot be read (R436). -/
def State.imageKey (s : State) (i : ImageInfo) : Option Nat :=
  if i.keySrc then s.cry.cfgKey
  else (if s.bist.scanned then none else s.fuses.root).map fun root => Config.imageKey root s.fuses.unit
/-- The header has come. An encrypted image whose key the part does not hold cannot be deciphered and fails with DECRYPT
(log entry 81). -/
def State.takeHeader (s : State) (l : LoadSt) (ws : List Word) : Ingest :=
  let i := headerInfo ws
  if headerBad ws l.pair.isNone then ⟨s, l, some (.ofCode 1)⟩
  else
    let s := s.put F.CFG_STATUS_KIND (bit !i.full)
    let s := if l.pair.isSome then s.checkStore else s
    match s.kindFails l i with
    | some c => ⟨s, l, some (.ofCode c)⟩
    | none =>
      let direct := l.direct || (i.full && decide (s.mode.base = .bare) && !s.is F.CFG_CTL_STOREEN)
      let key := if i.enc then s.imageKey i else none
      let flash : FlashSt := { l.flash with mhz := i.spiClk, dummy := i.dummy }
      let l := { l with header := ws, info := some i, direct := direct, key := key, flash := flash }
      let s := s.put F.CFG_STATUS_DIRECT (bit direct)
      let s := if direct then s.setReg R.CFG_GVALID 0 else s
      let s := if i.full then s.enterLoading else s
      ⟨s, l, match s.headerFails i ws with
        | some f => some f
        | none => if i.enc && key.isNone then some (.ofCode 5) else none⟩

/-- R174: the first map entry that names no register of a field of the image. -/
def wiresOutside (ws : List Word) (fields : List Nat) : Option LoadFail :=
  (ws.find? fun w => bitsOf 21 27 w.toNat != 0 || !fields.contains (bitsOf 0 5 w.toNat)).map fun w =>
    ⟨2, 0xD, bitsOf 0 5 w.toNat, bitsOf 5 14 w.toNat⟩
/-- Cell 64 m + k of a map entry. -/
def wireCell (w : Nat) : Nat := 64 * bitsOf 5 8 w + bitsOf 13 6 w
/-- R174: the map's entries of one field against its section: the first cell at which they differ. -/
def wiresDiffer (ws : List Word) (f : Nat) (x : FieldImage) : Option LoadFail :=
  let ms := (ws.map (·.toNat)).filter fun w => bitsOf 0 5 w == f
  let rs := wiredRegs [(f, x)]
  match (ms.find? fun w => !rs.contains w) <|> (rs.find? fun w => !ms.contains w) <|>
      (ms.find? fun w => decide (1 < (ms.filter (· == w)).length)) with
  | some w => some ⟨2, 0xD, f, wireCell w⟩
  | none => none

/-- R173, R181, R182: a field section has come: it goes into configuration memory, or into the inactive slot of its field. -/
def State.takeField (s : State) (l : LoadSt) (n : Nat) (ws : List Word) (checks : List LineCheck) : Ingest :=
  let x := withHeader l.header n (sectionOf ws)
  let w := if l.direct then (s.setImage n (some x), true) else s.putSection n (s.spareSlot n) ws checks
  let l := { l with sections := l.sections ++ [(n, x)] }
  if !w.2 then ⟨w.1, l, some (.ofCode 7)⟩
  else
    match sectionDetail n x with
    | some d => ⟨w.1, l, some ⟨2, d.1, n, d.2⟩⟩
    | none => ⟨w.1, l, wiresDiffer l.wires n x⟩
/-- The device section has come; a store load writes it into the inactive device slot. -/
def State.takeDevice (s : State) (l : LoadSt) (i : ImageInfo) (ws : List Word) (checks : List LineCheck) : Ingest :=
  if deviceBad ws i.patch || (!i.full && deviceDiffers s.pins.device ws i.fields) then ⟨s, l, some (.ofCode 1)⟩
  else
    let w := if l.direct then (s, true) else s.putSlot 31 (s.spareSlot 31) 0 ws checks
    ⟨w.1, { l with device := ws }, if w.2 then none else some (.ofCode 7)⟩

/-- The words that the next part takes, once enough have come to tell (Table 8-2): none when the image is complete; and
whether those that have come already break the format. -/
def LoadSt.nextWords (l : LoadSt) (i : ImageInfo) : Option Nat × Bool :=
  if l.wires.isEmpty && i.wcCount ≠ 0 then (some i.wcCount, false)
  else if l.device.isEmpty then
    if l.fresh = 0 then (some 1, false)
    else
      let n := (l.plainWord l.taken).toNat
      (some (n + 1), decide (n < 392) || (!i.patch && n != 392))
  else
    match i.fields[l.sections.length]? with
    | some f =>
      if l.fresh < 5 then (some 5, false)
      else (some (fieldWords (initOf (l.plain l.taken 5)).length), bitsOf 0 5 (l.plainWord l.taken).toNat != f)
    | none => if l.complete then (none, false) else (some i.tailWords, l.taken + i.tailWords != i.length)
/-- A part that has come whole is taken. -/
def State.takePart (s : State) (l : LoadSt) (i : ImageInfo) (n : Nat) (checks : List LineCheck) : Ingest :=
  let ws := l.plain l.taken n
  let m := { l with taken := l.taken + n }
  if l.wires.isEmpty && i.wcCount ≠ 0 then ⟨s, { m with wires := ws }, wiresOutside ws i.fields⟩
  else if l.device.isEmpty then s.takeDevice m i ws checks
  else
    match i.fields[l.sections.length]? with
    | some f => s.takeField m f ws checks
    | none => ⟨s, { m with tail := ws, complete := true }, none⟩
/-- The parts come in the order of Table 8-2. -/
def State.takeParts (s : State) (l : LoadSt) (checks : List LineCheck) : Nat → Ingest
  | 0 => ⟨s, l, none⟩
  | fuel + 1 =>
    match l.info with
    | none =>
      if l.got.length < 128 then
        ⟨s, l, match l.got with
          | w :: _ => if bitsOf 16 32 w.toNat = 0x50434647 then none else some (.ofCode 1)
          | [] => none⟩
      else
        let r := s.takeHeader { l with taken := 128 } (l.got.take 128)
        if r.fail.isSome then r else r.state.takeParts r.load checks fuel
    | some i =>
      match l.nextWords i with
      | (_, true) => ⟨s, l, some (.ofCode 1)⟩
      | (none, _) => ⟨s, l, none⟩
      | (some n, _) =>
        if l.fresh < n then ⟨s, l, none⟩
        else
          let r := s.takePart l i n checks
          if r.fail.isSome then r else r.state.takeParts r.load checks fuel

/-- R172, R180: the words received disagree with LENGTH, or with the parts. -/
def LoadSt.lengthBad (l : LoadSt) : Bool :=
  match l.info with
  | none => false
  | some i => decide (i.length < l.got.length) || (l.complete != decide (l.got.length = i.length))

/-- R180, R181: further words arrive; `checks` is what the inner code finds in the store lines that are read for them. The
image has at most a header, a map, a device section, 24 fields and a tail, which is what is taken in one go. -/
def State.ingest (s : State) (l : LoadSt) (ws : List Word) (checks : List LineCheck) : Ingest :=
  let l := { l with got := l.got ++ ws }
  let s := (s.setLoad l).put F.CFG_WORDS_COUNT (min l.got.length (2 ^ 25 - 1))
  let r := s.takeParts l checks 29
  let r := { r with state := r.state.setLoad r.load }
  if r.fail.isSome then r
  else if r.load.lengthBad then { r with fail := some (.ofCode 1) }
  else if r.load.complete then
    let l := { r.load with phase := .verify }
    ⟨r.state.setLoad l, l, none⟩
  else r

/-- CFGLOAD: the descriptor's words have come. -/
def State.actCfgload (s : State) (q : Nat) (d : DescSt) (checks : List LineCheck) : State :=
  let go (l : LoadSt) : State :=
    let r := s.ingest { l with last := some d.slot } d.gathered checks
    match r.fail with
    | some f => r.state.failLoad f
    | none => if r.load.complete then r.state else r.state.finish q d d.status 0
  match s.cfg.load with
  | none => go (LoadSt.start (some q) false)
  | some l =>
    if l.pair ≠ some q then s.finish q d 0x12 9
    else
      match l.phase with
      | .ingest => go l
      | .verify => (s.failLoad (.ofCode 1)).finish q d 0x13 1
      | _ => s.finish q d 0x12 9
def execCfgload (q : Fin 32) (slot : Nat) (checks : List LineCheck) (s : State) : Ans :=
  .next (s.withDesc q slot 5 fun s _ => s.gatherDesc q slot fun s d => s.actCfgload q d checks)

/-- LOAD_SOURCE_TIMEOUT: 1 s without a word. -/
def State.loadTimeout (s : State) : State :=
  match s.cfg.load with
  | some l => if l.phase = .ingest then s.failLoad (.ofCode 0xB) else s
  | none => s
def execLoadSourceTimeout (s : State) : Ans := .next s.loadTimeout
/-- ABORT, R183. -/
def State.abortLoad (s : State) : State :=
  match s.cfg.load with
  | none => s
  | some l =>
    match l.phase with
    | .ingest | .verify => s.failLoad (.ofCode 0xA)
    | .write => s.raise F.CFG_ERR_ABORTLATE
    | _ => s
def execAbort (s : State) : Ans := .next s.abortLoad

/-! ## Placing an image -/

/-- The NIs of a field take or lose the cause RESHAPING. -/
def State.reshapeNis (s : State) (f : Nat) (b : Bool) : State :=
  s.forEach (fieldNis f) fun s n => s.niCauses n fun c => { c with reshaping := b }
/-- R185: the end of the write phase: the field's image, the registers it sets, and its memories; the fabric takes the new
initial values. -/
def State.placeField (s : State) (f : Nat) (x : FieldImage) (enc : Bool) : State :=
  let old := s.fld f
  let s := (s.unconfigure f).setImage f (some x)
  let s := (s.put (F.FLD_NEED_CYC f) x.need).put (F.FLD_PROT_EN f) (bit x.prot)
  let s := x.pqout.foldl (fun s e => s.setReg (R.FLD_PQOUT f (e.1 % 6)) e.2.toNat) s
  let s := x.bmCfg.foldl (fun s e => s.setReg (R.FLD_BM_CFG f (e.1 % 192)) (setBitsOf 5 1 e.2.toNat 0)) s
  let s := x.initMem.foldl (fun s j => s.raise (F.FLD_BM_CFG_INITD f (j % 192))) s
  let s := ((s.loadMemories f x).initFabric f).stuckNis f false
  let s := s.setFld f { FieldSt.zero with
    missed := old.missed, drained := old.drained && s.reshaping f, fenceHold := old.fenceHold, driven := old.driven }
  let s := (s.put ⟨R.SCR_UNCFG, f, 1⟩ 0).endFenced f
  { s with cfg := { s.cfg with encrypted := SMap.set s.cfg.encrypted false f enc } }
/-- The words of a device section take effect: all of them, or the pin words of some fields (R460). -/
def State.placeDevice (s : State) (ws : List Word) (mine : Nat → Bool) : State :=
  (List.range ws.length).foldl (fun s k =>
    if mine k then { s with pins := { s.pins with device := SMap.set s.pins.device 0 k (ws.getD k 0) } } else s) s
/-- R177: an accepted steward patch takes effect. -/
def State.placePatch (s : State) (p : Option (Nat × Nat)) : State :=
  match p with
  | some p => ((s.put F.STW_FW_PATCHREV p.1).put F.STW_FW_PATCHID p.2).postLog 0x0FD 92 (p.1 % 256)
  | none => s
/-- The result OK of a load. -/
def State.noteLoadOk (s : State) : State := s.noteLoadFail ⟨0, 0, 0, 0⟩

/-- A full image is written: the fields it leaves out are unconfigured, STAGED follows, and LOCKING where AUTORUN is 1. -/
def State.fullWritten (s : State) (l : LoadSt) (i : ImageInfo) : State :=
  let s := s.forEach allFields fun s f =>
    match l.sections.find? fun e => e.1 == f with
    | some e => ((s.placeField f e.2 i.enc).setFld f FieldSt.zero).reshapeNis f false
    | none => ((s.unconfigure f).setFld f FieldSt.zero).put (gvalidBit f) 0
  let s := if l.direct then s
    else s.forEach (24 :: l.sections.map (·.1)) State.swapSlot
  let s := (s.placeDevice l.device fun _ => true).setReg R.SCR_UNCFG 0
  let s := (({ s with cfg := { s.cfg with load := none } } : State).syncConfig).noteLoadOk
  let s := s.enterMode { s.mode with base := .staged } .load
  let s := s.loadReply l stOk 0
  if s.is F.GLB_LOCKCFG_AUTORUN then s.enterLocking .load else s

/-! ## Verify (R175 to R177, R181) -/

/-- R175: the owner-key slots. -/
def State.ownerDigest (s : State) (k : Nat) : List (BitVec 32) := SMap.get s.fuses.owners [] k
def State.noOwner (s : State) : Bool := (List.range 4).all fun k => s.ownerDigest k == []
def State.ownerSlot (s : State) (digest : List (BitVec 32)) : Option Nat :=
  (List.range 4).find? fun k => s.ownerDigest k != [] && !bitOf k s.fuses.revoked && s.ownerDigest k == digest
/-- CFG.OWNERSTAT and OPEN after a load's key has been looked at. -/
def State.noteOwner (s : State) (digest : List (BitVec 32)) : State :=
  let m := s.ownerSlot digest
  (s.put F.CFG_OWNERSTAT_MATCHV (bit m.isSome)).put F.CFG_OWNERSTAT_MATCH (m.getD 0)

/-- What every field is configured as once a load has been written. -/
def State.cfgAfter (s : State) (l : LoadSt) (i : ImageInfo) (f : Nat) : Option FieldImage :=
  match l.sections.find? fun e => e.1 == f with
  | some e => some e.2
  | none => if i.full then none else s.image f
/-- R42, R155: the first field whose need the tick would not leave room for. -/
def State.needFails (s : State) (l : LoadSt) (i : ImageInfo) : Option Nat :=
  let op := (allFields.filterMap fun f => (s.cfgAfter l i f).map (·.opMin)).foldl max 0
  allFields.find? fun f => (s.cfgAfter l i f).any fun x => needBroken x.need x.prot s.period op
/-- R177: the steward patch of an image follows the 392 words of the device section, and what the steward finds of it. -/
def LoadSt.patchFound (l : LoadSt) (i : ImageInfo) : Option (Nat × Nat) :=
  if i.patch then Config.patch (l.device.drop 393) else none
/-- The first check of verify that fails. -/
def State.verifyFails (s : State) (l : LoadSt) (i : ImageInfo) : Option LoadFail :=
  if i.enc && !l.tagGood i then some (.ofCode 5)
  else if !l.sigGood i then some (.ofCode 3)
  else if !s.noOwner && (s.ownerSlot l.keyDigest).isNone then some (.ofCode 4)
  else
    match s.needFails l i with
    | some f => some ⟨2, 6, f, 0⟩
    | none =>
      match twoDrivers (s.cfgAfter l i) i.fields with
      | some e => some ⟨2, 0xB, e.1, e.2⟩
      | none =>
        if i.patch && (l.patchFound i).isNone then some (.ofCode 6)
        else if !i.full && (s.mode.busy || !(decide (s.mode.top = .run) || decide (s.mode.top = .holdover))) then some (.ofCode 8)
        else none

/-- R186: an accepted partial image starts the RESHAPE overlay, and its descriptor completes. -/
def State.acceptPartial (s : State) (l : LoadSt) (i : ImageInfo) : State :=
  let s := s.setLoad { l with phase := .waitStop, gosrc := s.is F.CFG_CTL_GOSRC }
  let s := (s.put F.CFG_RESHAPE_MAP i.fieldMap.toNat).syncConfig.noteLoadOk
  let s := s.enterMode { s.mode with ov := { s.mode.ov with reshape := true } } .load
  s.loadReply l stOk 0
/-- Acceptance. -/
def State.acceptLoad (s : State) (l : LoadSt) (i : ImageInfo) : State :=
  let s := s.placePatch (l.patchFound i)
  if !i.full then s.acceptPartial l i
  else if l.direct then s.fullWritten l i
  else s.setLoad { l with phase := .write }
/-- Verify: what fails is put to `fail`. -/
def State.verifyWith (s : State) (l : LoadSt) (i : ImageInfo) (fail : State → LoadFail → State) : State :=
  let s := s.noteOwner l.keyDigest
  match s.verifyFails l i with
  | some f => fail s f
  | none => s.acceptLoad l i
/-- VERIFY: the steps after the last word. -/
def State.verifyLoad (s : State) : State :=
  match s.cfg.load with
  | some l =>
    (match l.phase, l.info with
     | .verify, some i => s.verifyWith l i State.failLoad
     | _, _ => s)
  | none => s
def execVerify (s : State) : Ans := .next s.verifyLoad

/-! ## Flash (R169, R170) -/

/-- The command that reads a flash slot. -/
def flashCommand : Nat := 0xEC
/-- A flash slot fails: slot 1 follows slot 0 where the mode is FLASH. -/
def State.flashFail (s : State) (f : LoadFail) : State :=
  if s.straps.mode = 1 ∧ ¬ s.is F.CFG_STATUS_FLASHSLOT then
    let s := ((s.clearConfig.noteLoadFail f).raise F.GLB_ERR_LOADFAIL).raise F.CFG_STATUS_FLASHSLOT
    s.setLoad { LoadSt.start none true with flash := .start true }
  else s.failLoad f
/-- FLASH_LOAD: the words read from the slot as far as its image goes, or a read that failed; fewer than the header's LENGTH is a read
that did not come to its end. -/
def State.flashLoad (s : State) (words : Option (List Word)) : State :=
  match s.cfg.load with
  | some l =>
    if l.pair.isSome || l.phase != .ingest then s
    else
      match words with
      | none => s.flashFail (.ofCode 0xB)
      | some ws =>
        let ws := if 128 ≤ ws.length then ws.take (max 128 (headerInfo ws).length) else ws
        let r := s.ingest l ws []
        match r.fail, r.load.info with
        | some f, _ => r.state.flashFail f
        | none, none => r.state.flashFail (.ofCode 0xB)
        | none, some i =>
          if !r.load.complete then r.state.flashFail (.ofCode 0xB)
          else r.state.verifyWith r.load i State.flashFail
  | none => s
def execFlashLoad (words : Option (List Word)) (s : State) : Ans := .next (s.flashLoad words)

/-! ## The write phase -/

/-- R183: a store read of the write phase fails: FREEZE. -/
def State.writeFail (s : State) (l : LoadSt) (i : ImageInfo) : State :=
  let s := s.noteLoadFail (.ofCode 0xC)
  if i.full then
    (({ s with cfg := { s.cfg with load := none } } : State).syncConfig.enterFreeze).loadReply l 0x13 0xC
  else s.enterFreeze
/-- R188: the write phase of a reshape ends: the new images stand, stopped; the sweep begins. -/
def State.partialWritten (s : State) (l : LoadSt) (i : ImageInfo) : State :=
  let s := s.forEach (l.sections.map (·.1)) fun s f =>
    match l.sections.find? fun e => e.1 == f with
    | some e => s.placeField f e.2 i.enc
    | none => s
  let s := s.forEach (24 :: l.sections.map (·.1)) State.swapSlot
  (s.setLoad { l with phase := .sweep, sweepEnd := s.time.raw + 1792, dirty := false }).syncConfig
/-- The images as they stand in the inactive slots; none where a read fails. -/
def State.readSlots (s : State) (l : LoadSt) (checks : List LineCheck) : State × Option (List (Nat × FieldImage)) :=
  l.sections.foldl (fun (p : State × Option (List (Nat × FieldImage))) e =>
    let d := p.1.getSection e.1 (s.spareSlot e.1) checks
    (d.1, match p.2, d.2 with
      | some xs, some x => some (xs ++ [(e.1, withHeader l.header e.1 x)])
      | _, _ => none)) (s, some [])
/-- R181, R183: the accepted slots are copied into configuration memory. -/
def State.copySlots (s : State) (l : LoadSt) (i : ImageInfo) (checks : List LineCheck) : State :=
  let r := s.readSlots l checks
  let d := r.1.getSlot 31 (s.spareSlot 31) 0 l.device.length checks
  match r.2, d.2 with
  | some xs, some ws =>
    let l := { l with sections := xs, device := ws }
    if i.full then d.1.fullWritten l i else d.1.partialWritten l i
  | _, _ => d.1.writeFail l i
/-- WRITE_PHASE; it pauses in HALT (R190). `checks` is what the inner code finds in the store lines read. -/
def State.writePhase (s : State) (checks : List LineCheck) : State :=
  match s.cfg.load with
  | some l =>
    (match l.phase, l.info with
     | .write, some i => if s.mode.ov.halt then s else s.copySlots l i checks
     | _, _ => s)
  | none => s
def execWritePhase (checks : List LineCheck) (s : State) : Ans := .next (s.writePhase checks)

/-! ## A reshape's ticks (R187 to R189) -/

/-- R187: the tick is, or follows, a guard band in which the field's frame had no DONE. -/
def FieldSt.overruns (x : FieldSt) : Bool :=
  match x.phase with | .late => true | .frame => x.doneAt.isNone && !x.failed | _ => false
/-- The stop tick of field f: its frame is not released and what its outputs drive stays for HOLD (Table 8-7), fences begin, its
flip-flops, relays and queue pointers take their initial values, queued repairs of it are dropped (R190). -/
def State.reshapeStop (s : State) (f : Nat) : State :=
  let s := (s.fenceBegin f).discardHeld f
  let last := match s.image f with | some i => i.outputs.map fun o => (o, s.shown f o) | none => []
  let s := (s.initFabric f).setFld f { s.fld f with phase := .idle, driven := last, release := [], captured := false, missed := 0, rewound := false, failed := false }
  let s : State := { s with cfg := { s.cfg with repairs := s.cfg.repairs.filter fun r => r.field != f } }
  (s.reshapeNis f true).post 0x08A (fieldSrc f) f
/-- The stop tick of an image's fields that may stop: a late field goes on until its next frame start. -/
def State.reshapeStops (s : State) : State :=
  match s.cfg.load with
  | some l =>
    if (l.phase = .waitStop ∧ (l.gosrc = true → l.fired = true)) ∨ l.phase = .draining then
      let now := (l.sections.map (·.1)).filter fun f =>
        !(l.stopped.any fun e => e.1 == f) && !(s.fld f).overruns
      let s := s.setLoad { l with phase := .draining, stopped := l.stopped ++ now.map fun f => (f, s.time.tick) }
      s.forEach now State.reshapeStop
    else s
  | none => s
/-- RESHAPE_WRITE, R188: no accepted request of field f remains: its clocks stop; with the last field the write phase begins. -/
def State.reshapeDrained (s : State) (f : Nat) : State :=
  match s.cfg.load with
  | some l =>
    if l.phase = .draining && !s.mode.ov.halt && l.stopped.any (fun e => e.1 == f) && !l.drained.contains f &&
        s.servedAll (4 + f) then
      let s := s.setFld f { s.fld f with drained := true }
      let l := { l with drained := l.drained ++ [f] }
      let all := l.sections.all fun e => l.drained.contains e.1
      s.setLoad (if all then { l with phase := .write } else l)
    else s
  | none => s

/-- R189: field f commits at this tick; `n` frames were not begun. -/
def State.reshapeCommit (s : State) (f n : Nat) : State :=
  let s := (s.initFabric f).setFld f { s.fld f with drained := false, missed := 0, driven := [] }
  let s := (s.reshapeNis f false).put ⟨R.CFG_RESHAPE, f, 1⟩ 0
  (s.logEntry 0x08B (fieldSrc f) n 0).post 0x08B (fieldSrc f) f
/-- R189: the commit tick, if this tick is it; a sweep needs sensing, and one that found an uncorrectable frame is made again. -/
def State.reshapeCommits (s : State) : State :=
  match s.cfg.load with
  | some l =>
    let swept := (l.phase = .sweep : Bool) && s.is F.SCR_CTL_EN && s.rawPast l.sweepEnd
    if swept && l.dirty then s.setLoad { l with sweepEnd := s.time.raw + 1792, dirty := false }
    else if !(swept || l.phase = .waitCommit) then s
    else if s.is F.CFG_COMMIT_HOLD && !s.is F.CFG_COMMIT_ARMED then s.setLoad { l with phase := .waitCommit }
    else
      let s := s.clear F.CFG_COMMIT_ARMED
      let mine (k : Nat) : Bool := decide (9 ≤ k ∧ k < 393) && (l.sections.any fun e => e.1 == pinField (k - 9))
      let s := s.placeDevice l.device mine
      let s := s.forEach (l.sections.map (·.1)) fun s f =>
        s.reshapeCommit f ((s.time.tick + 2 ^ 48 - lookupD l.stopped f s.time.tick) % 2 ^ 48)
      let s := (({ s with cfg := { s.cfg with load := none } } : State).syncConfig)
      s.enterMode { s.mode with ov := { s.mode.ov with reshape := false } } .reshape
  | none => s

end Sys2Proof.Machine
end

