-- ==== Sys2Proof/Machine/Scrub.lean ====
section
/-! DEFINITION. Sensing, repair and the golden scan of configuration memory, and the end of a golden build (R179, R191 to
R197). Field code 31 is the device section. -/
namespace Sys2Proof.Machine

/-- R192: a field that is being written, from its stop tick or the start of a full load on. -/
def State.beingWritten (s : State) (f : Nat) : Bool :=
  decide (s.mode.base = .loading) ||
    (match s.cfg.load with
     | some l => l.stopped.any (fun e => e.1 == f) && (match l.phase with | .draining | .write => true | _ => false)
     | none => false)
/-- R192: the frames of a field code are sensed now. -/
def State.senses (s : State) (code : Nat) : Bool :=
  s.power.powered && s.is F.SCR_CTL_EN && s.domainOn 1 && !s.mode.ov.valley && !s.mode.ov.safeHold &&
    (if code < 24 then s.configured code && s.domainOn (4 + code) && !s.beingWritten code && s.bist.saved != some code
     else code == 31 && s.anyConfigured && s.mode.base != .loading)
/-- R194: the golden copy of a frame may be used. -/
def State.goldenHas (s : State) (code : Nat) : Bool := s.is (gvalidBit code)
/-- R194: the frame's 8 lines of the active slot. -/
def State.goldenFrame (s : State) (code n : Nat) (checks : List LineCheck) : State × Option (List Word) :=
  s.getSlot code (s.activeSlot code) (128 * n) 128 checks

/-- SCR.LAST. -/
def State.noteLast (s : State) (kind : Nat) (esc : Bool) (code frame : Nat) (ilv : BitVec 6) : State :=
  let s := ((s.put F.SCR_LAST_KIND kind).put F.SCR_LAST_ESC (bit esc)).put F.SCR_LAST_FIELD code
  (s.put F.SCR_LAST_FRAME frame).put F.SCR_LAST_ILV ilv.toNat
/-- R197: a detection: its event, its log entry (the first in a tick, and every uncorrectable frame) and its loop. -/
def State.noteUpset (s : State) (code : Nat) (always : Bool) : State :=
  let s := s.post 0x0A0 94 code
  let first := s.newTick s.cfg.upsetLogTick
  let s := if first || always then s.logEntry 0x0A0 94 code 0 else s
  let s : State := { s with cfg := { s.cfg with upsetLogTick := some s.time.tick } }
  s.see 0 0
/-- R196: an uncorrectable frame. -/
def State.uncorrectable (s : State) (code : Nat) : State :=
  let s := s.bump F.SCR_CNT_UNC 1
  let s := match s.cfg.load with
    | some l => if l.phase = LoadPhase.sweep ∧ l.stopped.any (fun e => e.1 == code) then s.setLoad { l with dirty := true } else s
    | none => s
  if code = 31 || s.is F.SCR_CTL_UNCPOL then s.enterFreeze
  else
    let s := s.put ⟨R.SCR_UNCFG, code, 1⟩ 1
    if (s.fld code).phase = .stuck then s else s.becomeStuck code

/-- A detected frame joins the repair queue. -/
def State.queueRepair (s : State) (r : RepairReq) : State := { s with cfg := { s.cfg with repairs := s.cfg.repairs ++ [r] } }
/-- R166: a detection within 2 µs after the tick that released a replay of field f. -/
def State.postRelease (s : State) (f cyc : Nat) : State :=
  let x := s.fld f
  if s.isProtected f && x.wasReplay && decide (cyc ≤ 2 * x.mhz) then
    (s.raise (F.FLD_PROTSTAT_POSTREL f)).post 0x088 (fieldSrc f) 0
  else s
/-- A detection of frame `frame` in absolute cycle `cyc` of its field's frame. -/
def State.upset (s : State) (code frame : Nat) (ilv : BitVec 6) (esc unc : Bool) (cyc : Nat) : State :=
  if s.cfg.repairs.any fun r => r.field == code && r.frame == frame then s
  else
    let lost := unc && !esc && !(s.is F.SCR_CTL_GOLDEN && s.goldenHas code)
    if !lost && decide (16 ≤ s.cfg.repairs.length) then s.raise F.SCR_STAT_QOVF
    else
      let s := s.noteUpset code lost
      let s := s.noteLast (if lost then 3 else if unc || esc then 2 else 1) esc code frame ilv
      let s := if esc then s.bump F.SCR_CNT2_ESCAPE 1 else if unc then s else s.bump F.SCR_CNT_CORR 1
      let s := if lost then s else s.queueRepair ⟨code, frame, ilv, esc, unc⟩
      let s := if code < 24 then (s.postRelease code cyc).detect code .config cyc else s
      if lost then s.uncorrectable code else s
/-- SENSE: a sense chain reads one frame with the errors in it, `ns` after its last read, report delay included. -/
def State.sense (s : State) (code frame : Nat) (errs : FrameErrors) (ns cyc : Nat) : State :=
  if !s.senses code || decide (framesOf code ≤ frame) then s
  else
    let r := (s.peak F.SCR_SWEEP_MAXNS ns).frameCheck errs
    match r.1 with
    | .clean => r.2.2
    | .correctable => r.2.2.upset code frame r.2.1 false false cyc
    | .uncorrectable => r.2.2.upset code frame r.2.1 false true cyc
def execSense (code : Fin 32) (frame : Fin 3584) (errs : FrameErrors) (ns cyc : Nat) (s : State) : Ans :=
  .next (s.sense code frame errs ns cyc)

/-! ## Repair -/

/-- R100: a repaired frame held an enable of a driver of this segment. -/
def State.reenable (s : State) (f track : Nat) : State :=
  let x := s.seg (segKey f track)
  if s.is (F.FLD_CONTCTL_AUTO f) && x.held && !x.clrOnly then
    s.setSeg (segKey f track) { x with held := false, autoAt := some s.time.tick }
  else s
/-- Repair goes on (R190, R192). -/
def State.repairs (s : State) : Bool :=
  s.power.powered && s.is F.SCR_CTL_EN && s.domainOn 1 && !s.mode.ov.valley && !s.mode.ov.safeHold && !s.mode.ov.freeze
/-- A frame is rewritten from its golden copy, if that can be read. -/
def State.goldenRepair (s : State) (code n : Nat) (checks : List LineCheck) : State × Bool :=
  let r := s.goldenFrame code n checks
  match r.2 with
  | some ws => (r.1.setFrame code n ws, true)
  | none => (r.1, false)
/-- REPAIR: the oldest frame of the queue is corrected and rewritten; `checks` is what the inner code finds in the lines of its
golden copy, where it needs one; `segs` lists the segments, by field and track, one of whose drivers' enables it holds. -/
def State.repair (s : State) (checks : List LineCheck) (segs : List (FieldNo × Fin 128)) : State :=
  if !s.repairs then s
  else
    match s.cfg.repairs with
    | [] => s
    | r :: rest =>
      let s : State := { s with cfg := { s.cfg with repairs := rest } }
      let done (s : State) : State := segs.foldl (fun s e => s.reenable e.1.val e.2.val) s
      if !r.esc && !r.golden then done s
      else
        let p := if r.esc || (s.is F.SCR_CTL_GOLDEN && s.goldenHas r.field) then s.goldenRepair r.field r.frame checks else (s, false)
        let s := p.1
        if p.2 then done (if r.esc then s else s.bump F.SCR_CNT_GOLD 1)
        else if r.esc then s
        else ((s.noteLast 3 false r.field r.frame r.ilv).logEntry 0x0A0 94 r.field 0).uncorrectable r.field
def execRepair (checks : List LineCheck) (segs : List (FieldNo × Fin 128)) (s : State) : Ans := .next (s.repair checks segs)

/-! ## The golden scan (R195) -/

/-- The codes whose frames GVALID marks, and the frame the scan compares next, as 4096 × code + frame. -/
def State.scanCodes (s : State) : List Nat := (allFields ++ [31]).filter s.goldenHas
def State.scanNext (s : State) : Option Nat :=
  let c := s.cfg.scanAt / 4096
  if s.scanCodes.contains c && decide (s.cfg.scanAt % 4096 < framesOf c) then some s.cfg.scanAt
  else
    match s.scanCodes.find? fun k => decide (c < k) with
    | some k => some (4096 * k)
    | none => s.scanCodes.head?.map (4096 * ·)
/-- GOLDEN_SCAN: one frame, with the errors in it, is compared with its golden copy: a difference under a zero syndrome is an escaped
error. -/
def State.goldenScan (s : State) (errs : FrameErrors) (checks : List LineCheck) (cyc : Nat) : State :=
  if !s.repairs || !s.is F.SCR_CTL_SCANEN then s
  else
    match s.scanNext with
    | none => s
    | some p =>
      let s : State := { s with cfg := { s.cfg with scanAt := p + 1 } }
      if !s.senses (p / 4096) then s
      else
        let g := s.goldenFrame (p / 4096) (p % 4096) checks
        let r := g.1.frameCheck errs
        match g.2 with
        | some ws =>
          if decide (r.1 = .clean) && ws != errs.on (s.frameWords (p / 4096) (p % 4096)) then
            r.2.2.upset (p / 4096) (p % 4096) 0 true false cyc
          else r.2.2
        | none => r.2.2
def execGoldenScan (errs : FrameErrors) (checks : List LineCheck) (cyc : Nat) (s : State) : Ans :=
  .next (s.goldenScan errs checks cyc)

/-! ## The end of a golden build (R179) -/

/-- One frame of a build with the errors found in it: corrected by its code and written, or marked as not correctable. A write
that fails leaves the slot unmarked too (log entry 82). -/
structure BuildSt where
  state : State
  /-- The frame codes that cannot be corrected, with their interleaves, and the field codes whose slot is not marked. -/
  lost : List (Nat × Nat × BitVec 6)
  unmarked : List Nat
def BuildSt.frame (b : BuildSt) (code n : Nat) (errs : List (Fin 32 × Fin 3584 × FrameErrors)) (checks : List LineCheck) : BuildSt :=
  let r := match errs.find? fun e => e.1.val == code && e.2.1.val == n with
    | some e => b.state.frameCheck e.2.2
    | none => (.clean, 0, b.state)
  match r.1 with
  | .uncorrectable => { state := r.2.2, lost := b.lost ++ [(code, n, r.2.1)], unmarked := b.unmarked ++ [code] }
  | _ =>
    let w := r.2.2.putSlot code (r.2.2.activeSlot code) (128 * n) (r.2.2.frameWords code n) checks
    { b with state := w.1, unmarked := if w.2 then b.unmarked else b.unmarked ++ [code] }
/-- R179: every frame of the configured fields and of the device section. -/
def State.buildAll (s : State) (errs : List (Fin 32 × Fin 3584 × FrameErrors)) (checks : List LineCheck) : BuildSt :=
  ((allFields.filter s.configured) ++ [31]).foldl (fun b c =>
    (List.range (framesOf c)).foldl (fun b n => b.frame c n errs checks) b) ⟨s, [], []⟩
/-- GOLDBUILD_DONE: every frame has been copied but those that could not be corrected: each of these is an uncorrectable frame,
and leaves its slot unmarked. `errs` lists the frames that hold errors. -/
def State.goldBuilt (s : State) (errs : List (Fin 32 × Fin 3584 × FrameErrors)) (checks : List LineCheck) : State :=
  if !s.is F.CFG_STATUS_GBUSY || s.mode.ov.valley || s.mode.ov.safeHold || s.mode.ov.freeze then s
  else
    let b := (s.clear F.CFG_STATUS_GBUSY).buildAll errs checks
    let marked := ((allFields.filter s.configured) ++ (if s.anyConfigured then [31] else [])).filter (!b.unmarked.contains ·)
    let s := b.state.forEach marked fun s c => s.raise (gvalidBit c)
    b.lost.foldl (fun s e =>
      if s.senses e.1 then ((s.noteUpset e.1 true).noteLast 3 false e.1 e.2.1 e.2.2).uncorrectable e.1 else s) s
def execGoldbuildDone (errs : List (Fin 32 × Fin 3584 × FrameErrors)) (checks : List LineCheck) (s : State) : Ans :=
  .next (s.goldBuilt errs checks)

end Sys2Proof.Machine
end

