-- ==== Sys2Proof/Machine/Steward.lean ====
section
/-! DEFINITION. The steward's commands (chapter 18): sensors, loops, maintenance windows, limit ratios, restarts, watchdog. -/
namespace Sys2Proof.Machine

/-! ## Sensors (R414, R418) -/

/-- The domain a thermal sensor lies in. -/
def thermalDomain (i : Nat) : Nat :=
  if i < 48 then 4 + i / 2 else if i < 56 then 28 + (i - 48) else if i < 60 then 36 + (i - 56)
  else match i with | 60 => 2 | 61 => 3 | 62 => 40 | _ => 0
/-- The domain a voltage monitor lies in; those of the banks' supplies lie in none. -/
def voltageDomain (i : Nat) : Nat :=
  if i < 24 then 4 + i else if i < 32 then 28 + (i - 24) else if i < 36 then 36 + (i - 32)
  else match i with | 36 => 2 | 46 => 3 | 47 => 40 | _ => 0
/-- What monitor i reads: 0x8000 where its domain is off. -/
def State.voltageValue (s : State) (vs : List (BitVec 16)) (i : Nat) : Nat :=
  if s.domainOn (voltageDomain i) then (vs.getD i 0).toNat else 0x8000
/-- What sensor i reads: 0x8000 where its domain is off. -/
def State.thermalValue (s : State) (vs : List (BitVec 16)) (i : Nat) : Nat :=
  if s.domainOn (thermalDomain i) then (vs.getD i 0x8000).toNat else 0x8000
/-- The hottest sensor of those in domains that are on, the lowest of equals, and its value. -/
def State.hottest (s : State) (vs : List (BitVec 16)) : Nat × Nat :=
  ((List.range 64).filter fun i => s.domainOn (thermalDomain i)).foldl (fun (m : Nat × Nat) i =>
    let v := s.thermalValue vs i
    if signed 16 m.2 < signed 16 v then (i, v) else m) (0, 0x8000)
/-- R418, loop 7: two consecutive samples at the critical limit. -/
def State.critLoop (s : State) : State :=
  let hot := decide (signed 16 (s.loopThr 7) ≤ signed 16 (s.get F.STW_TMAX_TEMP))
  if !s.loopRuns 7 || !hot then { s with stw := { s.stw with critical := 0 } }
  else
    let n := s.stw.critical + 1
    let s : State := { s with stw := { s.stw with critical := n } }
    if n ≠ 2 then s
    else
      let s := s.postLog 0x0FB 92 (s.get F.STW_TMAX_SENSOR)
      if s.is F.STW_CTL_OBS then s else s.enterFreeze
/-- SENSOR_SAMPLE: the 64 thermal sensors in 1/16 °C, or the 48 voltage monitors in 0.5 mV. -/
def State.sampleThermal (s : State) (vs : List (BitVec 16)) : State :=
  let s' := s.forEach (List.range 32) fun t i =>
    (t.put (F.STW_TEMP_EVEN i) (s.thermalValue vs (2 * i))).put (F.STW_TEMP_ODD i) (s.thermalValue vs (2 * i + 1))
  let h := s.hottest vs
  ((s'.put F.STW_TMAX_SENSOR h.1).put F.STW_TMAX_TEMP h.2).critLoop
def State.sampleVoltage (s : State) (vs : List (BitVec 16)) : State :=
  s.forEach (List.range 24) fun t i =>
    (t.put (F.STW_VMON_EVEN i) (s.voltageValue vs (2 * i))).put (F.STW_VMON_ODD i) (s.voltageValue vs (2 * i + 1))
def execSensorSample (thermal : Bool) (vs : List (BitVec 16)) (s : State) : Ans :=
  .next (if !s.stewardOn then s else if thermal then s.sampleThermal vs else s.sampleVoltage vs)

/-! ## Loops of Table 18-1 -/

/-- SCAN, BMPAT and DPATROL, each second. -/
def execScan (s : State) : Ans :=
  .next (s.scanLoop 0 0 deviceWide 16 (s.get F.SCR_SCAN_INTERVAL) fun s v => s.stageStw F.SCR_SCAN_INTERVAL v)
def execBmpat (f : FieldNo) (s : State) : Ans :=
  .next (if s.configured f && s.domainOn (4 + f) then
      s.scanLoop 1 f f 16 (s.get (F.FLD_BMPAT_INTERVAL f)) fun s v => s.put (F.FLD_BMPAT_INTERVAL f) v
    else s)
def execDpatrol (c : Fin 8) (s : State) : Ans :=
  .next (if s.domainOn (28 + c) then
      s.scanLoop 2 c c 16 (s.get (F.MIG_PATROL_INTERVAL c)) fun s v => s.put (F.MIG_PATROL_INTERVAL c) v
    else s)
/-- REFRESH, each second: up at the threshold, down after 600 s below a quarter of it. -/
def State.setMult (s : State) (c v : Nat) : State := (s.put (F.DRC_REF_MULT c) v).refEff c
def State.refreshLoop (s : State) (c : Nat) : State :=
  let n := s.seenBy 3 c
  let s := s.clearSeen 3 c
  if !s.loopRuns 3 || !s.domainOn (28 + c) then s
  else
    let cur := s.get (F.DRC_REF_MULT c)
    let q := if 4 * n < s.loopThr 3 then s.quietFor 3 c + 1 else 0
    if s.loopThr 3 ≤ n then (s.setQuiet 3 c 0).moveSetting 3 c 2 cur (min 2 (cur + 1)) n fun s v => s.setMult c v
    else if 600 ≤ q then (s.setQuiet 3 c 0).moveSetting 3 c 2 cur (cur - 1) n fun s v => s.setMult c v
    else s.setQuiet 3 c q
def execRefresh (c : Fin 8) (s : State) : Ans := .next (s.refreshLoop c)

/-- R306: a lane whose receive times are used. -/
def State.timingLane (s : State) (l : Nat) : Bool :=
  ((List.range 8).any fun i => s.is (F.TIME_TSP_CTL_EN i) && s.get (F.TIME_TSP_CTL_LANE i) == l) ||
    (s.timeMode == 1 && portLane s.linkPort == l)
/-- CTLE, each 10 ms, with what the lane's eye monitor shows: one step in the direction that last widened the eye, upward at
first; a timing lane's step waits for a lane window. -/
def State.ctleLoop (s : State) (l : Nat) (valid : Bool) (width height : Nat) : State :=
  if !s.domainOn (laneDomain l) then s
  else
    let s := ((s.put (F.LANE_EYE_VALID l) (bit valid)).put (F.LANE_EYE_WIDTH l) width).put (F.LANE_EYE_HEIGHT l) height
    if !s.loopRuns 5 || !valid || s.is (F.LANE_CTLE_HOLD l) || s.loopThr 5 ≤ width ||
        (SMap.get s.stw.pending none l).isSome then s
    else
      let cur := s.get (F.LANE_CTLE_STEP l)
      let up := SMap.get s.stw.up true l != decide (width < SMap.get s.stw.eye 0 l)
      let v := s.withinEnv 5 5 (if up then min 31 (cur + 1) else cur - 1)
      if v = cur then s
      else if s.is F.STW_CTL_OBS then s.stwLog 5 1 l cur v width (s.loopThr 5)
      else
        let s : State := { s with stw := { s.stw with up := SMap.set s.stw.up true l up, eye := SMap.set s.stw.eye 0 l width } }
        if s.timingLane l then { s with stw := { s.stw with pending := SMap.set s.stw.pending none l (some v) } }
        else s.stwAct 5 false l cur v width fun s => s.ctleStep l v
def execCtle (l : Fin 64) (valid : Bool) (width : Fin 128) (height : Fin 256) (s : State) : Ans :=
  .next (s.ctleLoop l valid width height)
/-- R422: in a lane window every pending step is applied, inside the envelope of that moment (R22). -/
def State.laneWindow (s : State) : State :=
  let todo := s.stw.pending
  let s : State := { s with stw := { s.stw with pending := [] } }
  todo.foldl (fun s e =>
    match e.2 with
    | some w =>
      let v := s.withinEnv 5 5 w
      if s.loopRuns 5 && !s.is (F.LANE_CTLE_HOLD e.1) then
        s.stwAct 5 false e.1 (s.get (F.LANE_CTLE_STEP e.1)) v (s.get (F.LANE_EYE_WIDTH e.1)) fun s => s.ctleStep e.1 v else s
    | none => s) s

/-- R417: the lowest and highest points the OP loop requests. -/
def State.opFloor (s : State) : Nat := max (s.loopMin 6) (s.get F.CFG_OPMIN_DEV)
def State.opCeiling (s : State) : Nat := min (s.loopMax 6) s.topPoint
/-- TMAX at or above the hot limit, and more than 5 °C below it. -/
def State.hot (s : State) : Bool := decide (signed 16 (s.loopThr 6) ≤ signed 16 (s.get F.STW_TMAX_TEMP))
def State.cool (s : State) : Bool := decide (signed 16 (s.get F.STW_TMAX_TEMP) < signed 16 (s.loopThr 6) - 80)
/-- OP, each 1 ms. It also counts what the SHED loop waits for (R419): ms at the lower bound and hot as instance 0, cool ms as
instance 1 of loop 11. -/
def State.opLoop (s : State) : State :=
  let cur := s.get F.PWR_OPSTAT_OPCUR
  let runs := s.loopRuns 6
  let s := s.setQuiet 11 0 (if runs && s.hot && decide (cur ≤ s.opFloor) then s.quietFor 11 0 + 1 else 0)
  let s := s.setQuiet 11 1 (if s.cool then s.quietFor 11 1 + 1 else 0)
  if !runs then s
  else
    let q := if s.cool then s.quietFor 6 0 + 1 else 0
    let t := s.get F.STW_TMAX_TEMP
    let free := !s.is F.PWR_OPSTAT_BUSY && !s.is F.PWR_OPSTAT_HELD
    let down := min (cur - 1) s.opCeiling
    if s.hot && free && decide (s.opFloor ≤ down ∧ down < cur) then
      (s.setQuiet 6 0 0).stwAct 6 false deviceWide cur down t fun s => s.stageStw F.PWR_OPREQ_OP down
    else if 100 ≤ q && free && decide (cur < s.opCeiling) && decide (s.opFloor ≤ cur + 1) then
      (s.setQuiet 6 0 0).stwAct 6 false deviceWide cur (cur + 1) t fun s => s.stageStw F.PWR_OPREQ_OP (cur + 1)
    else s.setQuiet 6 0 q

/-- ERASE, each second: the first component at the threshold whose rank has no mark (R346). -/
def eraseEn (c rank : Nat) : Fld := if rank = 0 then F.MIG_ERASE_EN0 c else F.MIG_ERASE_EN1 c
def eraseComp (c rank : Nat) : Fld := if rank = 0 then F.MIG_ERASE_COMP0 c else F.MIG_ERASE_COMP1 c
def State.eraseLoop (s : State) (c : Nat) : State :=
  let due := (List.range 32).find? fun i => decide (s.loopThr 8 ≤ s.seenBy 8 (32 * c + i)) && !s.is (eraseEn c (i / 16))
  let n := s.seenBy 8 (32 * c + due.getD 0)
  let s := s.forEach (List.range 32) fun s i => s.clearSeen 8 (32 * c + i)
  if !s.loopRuns 8 || !s.domainOn (28 + c) then s
  else
    match due with
    | none => s
    | some i =>
      s.stwAct 8 false c 0 (128 + i % 16) n fun s =>
        ((s.put (eraseComp c (i / 16)) (i % 16)).raise (eraseEn c (i / 16))).postLog 0x0CB (drcSrc c) i
def execErase (c : Fin 8) (s : State) : Ans := .next (s.eraseLoop c)

/-- The first line of channel c at or after local line l that lies in its own order; lines of one channel are numbered in address
order (R327). -/
def State.firstSpare (s : State) (c : Nat) : Option Nat :=
  let used := (List.range 16).filterMap fun k =>
    if s.is (F.MIG_REMAP_FROM_VALID c k) then some (s.get (F.MIG_REMAP_TO_LINE c k)) else none
  let starts := (List.range 64).filterMap fun e =>
    if s.is (F.MIG_EXCL_CTL_SPARE e) && s.is (F.MIG_EXCL_CTL_EN e) && !s.is (F.MIG_EXCL_CTL_KIND e) then
      let g := s.pair (R.MIG_EXCL_A_LO e) (R.MIG_EXCL_A_HI e) / 16
      let b := g / s.granule
      let d := (c + s.nch - b % s.nch) % s.nch
      some (if d = 0 then s.localLine g else s.localLine ((b + d) * s.granule))
    else none
  let all := (starts.flatMap fun l => (List.range 17).map (l + ·)).filter fun l => s.spareLine c l && !used.contains l
  all.foldl (fun (m : Option Nat) l => match m with | none => some l | some x => some (min x l)) none
/-- REMAP, R363: a free entry takes the oldest failing line. -/
def State.remapLoop (s : State) (c : Nat) : State :=
  match (s.dram c).suspects with
  | [] => s
  | l :: rest =>
    if !s.loopRuns 9 || s.get (F.DRC_STAT_STATE c) ≠ 2 then s
    else
      let s := s.setDram c { s.dram c with suspects := rest }
      let free := (List.range 16).find? fun k => !s.is (F.MIG_REMAP_FROM_VALID c k)
      match free, s.firstSpare c with
      | some k, some t =>
        s.stwAct 9 false c 0 k l fun s =>
          let s := ((s.put (F.MIG_REMAP_FROM_LINE c k) l).put (F.MIG_REMAP_TO_LINE c k) t).raise (F.MIG_REMAP_TO_AUTO c k)
          (s.remapStart c k).postLog 0x0CC (drcSrc c) k
      | _, _ => if s.is F.STW_CTL_OBS then s.stwLog 9 1 c 0 0xFFFF l 0
          else (s.raise F.MIG_STAT_REMAPFULL).postLog 0x0CD (drcSrc c) 0
def execRemap (c : Fin 8) (s : State) : Ans := .next (s.remapLoop c)

/-- RENEW_LOOP: the lowest requesting region, to the lowest SPARE key. -/
def State.renewLoop (s : State) : State :=
  if !s.loopRuns 10 then s
  else
    let r := (List.range 32).find? fun r => bitOf r (s.reg R.CRY_RNREQ)
    let n := (List.range 64).find? fun k => k != 0 && s.keyState k == 2
    match r, n with
    | some r, some n =>
      (match s.renewStart r n (s.loopMax 10) true with
       | none => s
       | some _ => s.stwAct 10 false r (s.get (F.MIG_REGION_CTL_KEYID r)) n 0 fun s => (s.renewStart r n (s.loopMax 10) true).getD s)
    | _, _ => s
def execRenewLoop (s : State) : Ans := .next s.renewLoop

/-- R419: domains the host lets the steward shed. -/
def State.mayShed (s : State) (d : Nat) : Bool :=
  if 4 ≤ d ∧ d < 28 then bitOf (d - 4) (s.reg R.STW_SHED)
  else if 36 ≤ d ∧ d < 40 then bitOf (d - 36) (s.reg R.STW_SHED2) else false
/-- The steward stages one bit of DOMCTL. -/
def State.stageDomain (s : State) (d : Nat) (on : Bool) : State :=
  let f := if d < 32 then F.PWR_DOMCTL0_ON else F.PWR_DOMCTL1_ON
  let x := SMap.get s.staged Staged.none f.reg.off
  let cur := if x.stwMask = 0 then s.reg f.reg else x.stwVal.toNat
  s.stageStw f (bitsOf f.lo f.w (setBitsOf (if d < 32 then d else d - 32) 1 cur (bit on)))
/-- SHED: off one named domain per 100 ms at the lower bound, on again one per second when cool. -/
def State.shedLoop (s : State) : State :=
  if !s.loopRuns 11 then s
  else
    let t := s.get F.STW_TMAX_TEMP
    let off := ((List.range 40).reverse).find? fun d => s.mayShed d && s.domainOn d && s.domainWanted d && !s.stw.shed.contains d
    let on := (List.range 41).find? fun d => s.stw.shed.contains d
    if 100 ≤ s.quietFor 11 0 then
      match off with
      | none => s
      | some d =>
        (s.setQuiet 11 0 0).stwAct 11 false d 1 0 t fun s =>
          let s : State := { s with stw := { s.stw with shed := s.stw.shed ++ [d] } }
          s.stageDomain d false
    else if 1000 ≤ s.quietFor 11 1 then
      match on with
      | none => s
      | some d =>
        (s.setQuiet 11 1 0).stwAct 11 false d 0 1 t fun s =>
          let s : State := { s with stw := { s.stw with shed := s.stw.shed.filter (· != d) } }
          s.stageDomain d true
    else s

/-! ## Committed envelopes (R415) -/

/-- A setting outside its committed bounds moves to the nearer one. -/
def State.clampOne (s : State) (k inst w cur : Nat) (write : State → Nat → State) : State :=
  let v := s.withinEnv k w cur
  if v = cur then s else s.stwAct k true inst cur v cur fun s => write s v
/-- The settings of loop k, at the commit tick of its envelope. -/
def State.clampLoop (s : State) (k : Nat) : State :=
  let chans := (List.range 8).filter fun c => s.domainOn (28 + c)
  if !s.loopRuns k then s
  else
    match k with
    | 0 => s.clampOne 0 deviceWide 16 (s.get F.SCR_SCAN_INTERVAL) fun s v => s.stageStw F.SCR_SCAN_INTERVAL v
    | 1 => s.forEach (allFields.filter fun f => s.configured f && s.domainOn (4 + f)) fun s f =>
        s.clampOne 1 f 16 (s.get (F.FLD_BMPAT_INTERVAL f)) fun s v => s.put (F.FLD_BMPAT_INTERVAL f) v
    | 2 => s.forEach chans fun s c => s.clampOne 2 c 16 (s.get (F.MIG_PATROL_INTERVAL c)) fun s v => s.put (F.MIG_PATROL_INTERVAL c) v
    | 3 => s.forEach chans fun s c => s.clampOne 3 c 2 (s.get (F.DRC_REF_MULT c)) fun s v => s.setMult c v
    | 4 => s.forEach chans fun s c =>
        s.clampOne 4 c 7 (s.get (F.DRC_RETRAIN_INTERVAL c)) fun s v => s.stageStw (F.DRC_RETRAIN_INTERVAL c) v
    | 5 => s.forEach ((List.range 64).filter fun l => s.domainOn (laneDomain l) && !s.is (F.LANE_CTLE_HOLD l)) fun s l =>
        s.clampOne 5 l 5 (s.get (F.LANE_CTLE_STEP l)) fun s v =>
          if s.timingLane l then { s with stw := { s.stw with pending := SMap.set s.stw.pending none l (some v) } } else s.ctleStep l v
    | 6 =>
      let cur := s.get F.PWR_OPSTAT_OPCUR
      let v := max s.opFloor (min s.opCeiling cur)
      if v = cur || s.is F.PWR_OPSTAT_BUSY || s.is F.PWR_OPSTAT_HELD then s
      else s.stwAct 6 true deviceWide cur v cur fun s => s.stageStw F.PWR_OPREQ_OP v
    | _ => s

/-! ## Restart, ratios, windows -/

/-- STW_RESTART, R412: the counts of the firmware are lost, the settings stay. -/
def State.stewardRestart (s : State) : State :=
  if !s.stewardOn then s
  else ({ s with stw := { StwSt.zero with shed := s.stw.shed } }.bump F.STW_STAT_RESTARTS 1).postLog 0x0FC 92 0
def execStwRestart (s : State) : Ans := .next s.stewardRestart

/-- Table 18-3: a ratio with 12 fraction bits, saturating; 0 where nothing was measured. -/
def ratioOf (num den : Nat) : Nat := if den = 0 then 0 else min 0xFFFF (4096 * num / den)
/-- LIMIT_RATIO: ratio i from what was measured over the last 1 ms: `num` over `den` for 0 and 4 to 9, and `meas`. -/
def State.limitRatio (s : State) (i num den meas : Nat) : State :=
  if !s.loopsAct then s
  else
    let m := if i = 3 then s.get F.SCR_SWEEP_MAXNS else min 0xFFFF meas
    let r := match i with
      | 1 => if den = 0 then 0 else 0x1000
      | 2 => ratioOf m (s.get F.STW_LRFLOOR_F)
      | 3 => if s.is F.SCR_CTL_EN then ratioOf m 2000 else 0
      | _ => ratioOf num den
    (s.put (F.STW_LR_RATIO i) r).put (F.STW_LR_MEAS i) m
def execLimitRatio (i : Fin 10) (num den meas : Nat) (s : State) : Ans := .next (s.limitRatio i num den meas)

/-- R422: the tick time at or after `t`: ticks lie a period apart. -/
def State.tickAtOrAfter (s : State) (t : Word) : Word :=
  let p := s.period * beatUnits
  let d := (t - s.time.lastT).toNat
  s.time.lastT + BitVec.ofNat 48 ((d + p - 1) / p * p)
/-- The time of the next window of channel k (8: the timing lanes): an interval after the last, 1 ms or more ahead. -/
def State.nextWindow (s : State) (k : Nat) : Word :=
  let ms := if k = 8 then 10 else min 64 (max 1 (s.get (F.DRC_RETRAIN_INTERVAL k)))
  let offs := BitVec.ofNat 48 (s.get F.STW_MWIN_OFFS % s.period * beatUnits)
  let stag := BitVec.ofNat 48 (if k < 8 && s.is F.STW_MWIN_STAGGER then k * (s.period * beatUnits) else 0)
  let soon := s.now + BitVec.ofNat 48 (nsUnits 1000000)
  let first := s.tickAtOrAfter soon + stag + offs
  match SMap.get s.stw.windows none k with
  | none => first
  | some t =>
    let n := s.tickAtOrAfter (t - offs + BitVec.ofNat 48 (nsUnits (1000000 * ms))) + offs
    if signed 48 (n - soon).toNat < 0 then first else n
/-- The windows wanted: of each channel that runs, and of the timing lanes while a step is pending. -/
def State.windowsWanted (s : State) : List Nat :=
  (List.range 8).filter (fun c => s.get (F.DRC_STAT_STATE c) == 2) ++ (if s.stw.pending.isEmpty then [] else [8])
/-- Table 18-2. -/
def windowEntry (t : Word) (k : Nat) : TtEntry :=
  ⟨t, 0, 0x000000020008, BitVec.ofNat 48 (if k = 8 then 0x90 else 0x80 + k)⟩
/-- MWIN_PLACE: the earliest window wanted is appended to column 62. -/
def State.placeWindow (s : State) : State :=
  if !s.loopsAct || !s.is F.STW_MWIN_EN || !s.time.ticks then s
  else
    let best := s.windowsWanted.foldl (fun (m : Option (Nat × Word)) k =>
      let t := s.nextWindow k
      match m with
      | none => some (k, t)
      | some e => if signed 48 (t - e.2).toNat < 0 then some (k, t) else m) none
    match best with
    | none => s
    | some e =>
      let x := s.column 62
      let late := match x.entries.getLast? with | some y => decide (signed 48 (e.2 - y.time).toNat < 0) | none => false
      if 512 ≤ x.entries.length || late then s
      else
        { s.setColumn 62 { x with entries := x.entries ++ [windowEntry e.2 e.1] } with
          stw := { s.stw with windows := SMap.set s.stw.windows none e.1 (some e.2) } }
def execMwinPlace (s : State) : Ans := .next s.placeWindow

/-! ## Watchdog (R426) -/

/-- WD_EXPIRE: the count has reached 0; without ticks it counts µs. -/
def State.wdExpire (s : State) : State :=
  if !s.stewardOn || !s.is F.STW_WD_CTL_EN || s.mode.wdFrozen || s.is F.STW_WD_STAT_SAFEOUT ||
      (s.time.ticks && decide (s.get F.STW_WD_STAT_REMAIN ≠ 0)) then s
  else
    let a := s.get F.STW_WD_CTL_ACTION
    let s := ((s.put F.STW_WD_STAT_REMAIN 0).raise F.STW_WD_STAT_EXPIRED).bump F.STW_WD_STAT_EXPCNT 1
    let s := s.postLog 0x0FA 92 a
    if a = 0 then s.wdLoad
    else if a = 1 then s.raise F.STW_WD_STAT_SAFEOUT
    else s.enterFreeze
def execWdExpire (s : State) : Ans := .next s.wdExpire
/-- WD_EXPIRED_CLEAR; the pins return at the next tick. -/
def State.wdClear (s : State) : State :=
  if s.stewardOn && s.is F.STW_WD_STAT_EXPIRED then (s.clear F.STW_WD_STAT_EXPIRED).wdLoad else s
def execWdExpiredClear (s : State) : Ans := .next s.wdClear

end Sys2Proof.Machine
end

