-- ==== Sys2Proof/Machine/Pins.lean ====
section
/-! DEFINITION. Pins and the test access port (chapter 21): what each user pin shows, bank supplies, FAULT_N, PROBE pins, and
the TAP instructions of Table 21-6. -/
namespace Sys2Proof.Machine

/-! ## The test access port (R467) -/

/-- Instructions that take the pins are accepted in BARE and SELF-TEST alone. -/
def State.scanAllowed (s : State) : Bool := decide (s.mode.top = .bare) || decide (s.mode.top = .selfTest)
/-- The instruction in effect: one that is not accepted acts as BYPASS. -/
def State.tapEffect (s : State) : TapInstr :=
  match s.tap.instr with
  | .extest => if s.scanAllowed then .extest else .bypass
  | .clamp => if s.scanAllowed then .clamp else .bypass
  | .highz => if s.scanAllowed then .highz else .bypass
  | i => i
/-- A port without supplies does nothing (R469). -/
def State.tapDo (s : State) (g : TapSt → TapSt) : State := if s.power.powered then { s with tap := g s.tap } else s
/-- A shift of the one-bit bypass register: it captures 0 and ends with the last bit shifted in. -/
def TapSt.viaBypass (t : TapSt) (i : TapInstr) (bits : List Bool) : TapSt :=
  { t with instr := i, bypass := bits.getLastD false }
/-- A scan of the boundary register: it captures the pins, nearest TDI first, and `bits` are shifted in behind them. -/
def TapSt.viaCells (t : TapSt) (i : TapInstr) (pins bits : List Bool) : TapSt :=
  { t with instr := i, cells := (bits.reverse ++ pins).take pins.length }
def execBypass (bits : List Bool) (s : State) : Ans := .next (s.tapDo fun t => t.viaBypass .bypass bits)
def execSamplePreload (pins bits : List Bool) (s : State) : Ans :=
  .next (s.tapDo fun t => t.viaCells .samplePreload pins bits)
def execExtest (pins bits : List Bool) (s : State) : Ans :=
  .next (s.tapDo fun t => if s.scanAllowed then t.viaCells .extest pins bits else t.viaBypass .bypass bits)
def execClamp (bits : List Bool) (s : State) : Ans :=
  .next (s.tapDo fun t => t.viaBypass (if s.scanAllowed then .clamp else .bypass) bits)
def execHighz (bits : List Bool) (s : State) : Ans :=
  .next (s.tapDo fun t => t.viaBypass (if s.scanAllowed then .highz else .bypass) bits)
/-- Table 21-6: the identification code. -/
def State.idcode (s : State) : BitVec 32 :=
  BitVec.ofNat 32 (s.fuses.rev % 16 * 2 ^ 28 + 0x4824 * 2 ^ 12 + Config.jep106.toNat * 2 + 1)
def execIdcode (s : State) : Ans := .next (s.tapDo fun t => { t with instr := .idcode, idreg := s.idcode })
/-- TAP_RESET, R441: the controller and DBG_REG, the debug path's latches and its reservation. -/
def execTapReset (s : State) : Ans :=
  .next { (s.tapDo fun t => { t with instr := .idcode, capture := 0, busy := false }) with
    debugPath := .zero, dbg := { s.dbg with rsvDebug := none } }

/-! ## Bank supplies (R462) -/

/-- VCCIO_FAULT: bank b leaves its range, as the steward sees it. -/
def State.vccioFault (s : State) (b : Nat) : State :=
  if !s.power.powered || !s.domainOn 1 || (SMap.get s.pins.off false b && !SMap.get s.pins.back false b) then s
  else
    let s : State := { s with pins := { s.pins with
      off := SMap.set s.pins.off false b true, back := SMap.set s.pins.back false b false } }
    s.postLog 0x0FE 92 b
def execVccioFault (b : Fin 8) (s : State) : Ans := .next (s.vccioFault b)
/-- VCCIO_RETURN: the outputs resume at the next tick. -/
def State.vccioReturn (s : State) (b : Nat) : State :=
  if !s.power.powered || !s.domainOn 1 || !SMap.get s.pins.off false b then s
  else { s with pins := { s.pins with back := SMap.set s.pins.back false b true } }
def execVccioReturn (b : Fin 8) (s : State) : Ans := .next (s.vccioReturn b)
/-- A tick: banks back in range drive again. -/
def State.banksBack (s : State) : State :=
  { s with pins := { s.pins with off := s.pins.off.filter (fun e => !SMap.get s.pins.back false e.1), back := [] } }

/-! ## What pins show -/

/-- What drives a user pin: nothing, its pull (up or down), a level, or the boundary-scan register. -/
inductive PinDrive where
  | off
  | pull (up : Bool)
  | level (high : Bool)
  | scan
  deriving DecidableEq, Repr

/-- R461, Table 21-5: what a pin shows while its output is disabled: the pull its pin word sets. -/
def State.pinPull (s : State) (p : Nat) : PinDrive :=
  match bitsOf 10 2 (s.pinCfg p) with
  | 0 => .pull s.straps.pullUp
  | 1 => .off
  | 2 => .pull false
  | _ => .pull true
/-- R459: a pin driven to a level; the odd pin of a pair to the reverse, and an unused pin not at all. -/
def State.pinLevel (s : State) (p : Nat) (high : Bool) : PinDrive :=
  if s.pinStd p = 0 then s.pinPull p else .level (high != (s.pinPaired p && p % 2 == 1))
/-- R103, R459: pin p as its field's pin output word drives it: values in bits 23:0, enables in bits 47:24, a pair by its even
pin's. -/
def State.wordPin (s : State) (w : Word) (p : Nat) : PinDrive :=
  let k := (if s.pinPaired p then p - p % 2 else p) % 24
  if w.getLsbD (24 + k) then s.pinLevel p (w.getLsbD k) else s.pinPull p
/-- R188: the image that a field stopped for a reshape waits for. -/
def State.reshapeImage (s : State) (f : Nat) : Option FieldImage :=
  match s.cfg.load with
  | some l => if s.reshaping f then (l.sections.find? fun e => e.1 == f).map (·.2) else none
  | none => none
/-- Table 8-7: a reshape state; the first keeps the value and enable the pin had. -/
def State.pinCode (s : State) (p : Nat) (held : PinDrive) : Nat → PinDrive
  | 0 => held | 1 => s.pinPull p | 2 => s.pinLevel p false | _ => s.pinLevel p true
/-- The safe state of pin p: that of its field's image; high-impedance with none. -/
def State.safePin (s : State) (p : Nat) : PinDrive :=
  match s.image (pinField p) with
  | none => s.pinPull p
  | some i => match lookupD i.safe p 0 with
    | 2 => s.pinLevel p false
    | 3 => s.pinLevel p true
    | _ => s.pinPull p
/-- Tables 1-4, 8-7 and 8-8, R188, R388, R426, R461, R462, R467, R470: what drives user pin p. -/
def State.pinDrive (s : State) (p : Nat) : PinDrive :=
  let f := pinField p
  if !s.power.powered then .pull s.straps.pullUp
  else if SMap.get s.pins.off false (p / 48) then .off
  else match s.tapEffect with
    | .extest => .scan
    | .clamp => .scan
    | .highz => .off
    | _ =>
      match s.mode.top with
      | .safeHold | .freeze | .selfTest => s.safePin p
      | .run | .holdover | .reshape | .halt =>
        if !s.domainOn (4 + f) || (s.configured f && s.is F.STW_WD_STAT_SAFEOUT) then s.safePin p
        else match s.reshapeImage f with
          | some i => s.pinCode p (s.wordPin (lookupD (s.fld f).driven 1280 0) p) (lookupD i.rstate p 0)
          | none => if s.configured f then s.wordPin (s.shown f 1280) p else s.pinPull p
      | _ => .pull s.straps.pullUp
/-- R400: FAULT_N is low exactly while SAFE-HOLD or FREEZE is active. -/
def State.faultN (s : State) : Bool := !(s.mode.ov.safeHold || s.mode.ov.freeze)

/-- R104: what probe word k of field f reads: 0 while the field's domain is off, the field is unconfigured or loading, or a
reshape has stopped it. -/
def State.probeWord (s : State) (f k : Nat) : Word :=
  if !s.domainOn (4 + f) || !s.configured f || decide (s.mode.base = .loading) || s.reshaping f then 0 else (s.fld f).probe[k]?.getD 0
/-- R105: PROBE pin 2b + j in LOW, BIT and HIGH modes; in TICK mode it is high for 40 ns from each tick edge. -/
def State.probePin (s : State) (b j : Nat) : Bool :=
  let f := s.get (F.GPB_SEL_FIELD b j)
  let i := s.get (F.GPB_SEL_BIT b j)
  let v := match s.get (F.GPB_SEL_MODE b j) with
    | 0 => false
    | 1 => decide (f < 24) && decide (i < 48) && (s.probeWord f (s.get (F.GPB_SEL_WORD b j))).getLsbD i
    | 2 => s.time.ticks && decide ((s.now - s.time.lastT).toNat < nsUnits 40)
    | _ => true
  v != s.is (F.GPB_SEL_INV b j)

end Sys2Proof.Machine
end

