-- ==== Sys2Proof/Machine/Debug.lean ====
section
/-! DEFINITION. Debug and run control (chapter 20): the lock, the access engine, linked conditions' windows, halt and release,
the trace buffer's start, and the virtual terminal. -/
namespace Sys2Proof.Machine

/-! ## The lock (R442, R443, R466) -/

/-- R442: who may write DBG: the debug port, and the host while DBG_EN is high and the block is unlocked. -/
def State.dbgMayWrite (s : State) (p : Path) : Bool :=
  s.domainOn 1 && (match p with
    | .debug => true
    | .host => s.straps.dbgEn && s.is F.DBG_STAT_UNLOCKED
    | .steward => false)
/-- A host write that may not take effect is ignored and sets LOCKED. -/
def State.dbgRefuse (s : State) (p : Path) : State :=
  if p = .host ∧ s.domainOn 1 then s.raise F.DBG_ERR_LOCKED else s
/-- A write to DBG on path p, with its effect. -/
def State.dbgWrite (s : State) (p : Path) (g : State → State) : State := if s.dbgMayWrite p then g s else s.dbgRefuse p

/-- UNLOCK: both writes of the key sequence, `cycles` steward cycles apart; time in HALT does not count (R443). -/
def State.dbgUnlock (s : State) (path : Path) (first second : BitVec 16) (cycles : Nat) : State :=
  if path ≠ .host ∨ s.domainOn 1 = false then s
  else if !s.straps.dbgEn then s.raise F.DBG_ERR_LOCKED
  else if keyOk path .host first second 0x4442 0x5547 cycles then s.dbgUnlocked true else s
def execUnlock (path : Path) (first second : BitVec 16) (cycles : Nat) (s : State) : Ans :=
  .next (s.dbgUnlock path first second cycles)
/-- LOCK: a write of 1 to CTL.LOCK. -/
def execLock (path : Path) (s : State) : Ans := .next (s.dbgWrite path fun s => s.dbgUnlocked false)
/-- DBG_EN_FALL: host writes are blocked from here on; UNLOCKED stays. -/
def execDbgEnFall (s : State) : Ans := .next { s with straps := { s.straps with dbgEn := false } }

/-! ## The access engine (R444, R445) -/

def State.reservation (s : State) : Path → Option (Word × Word)
  | .host => s.dbg.rsvHost
  | .debug => s.dbg.rsvDebug
  | .steward => none
def State.clearReservations (s : State) : State := { s with dbg := { s.dbg with rsvHost := none, rsvDebug := none } }
def State.accAddr (s : State) : Word := BitVec.ofNat 48 (s.pair R.DBG_ACC_ADDR_LO R.DBG_ACC_ADDR_HI)
def State.accData (s : State) : Word := BitVec.ofNat 48 (s.pair R.DBG_ACC_DATA_LO R.DBG_ACC_DATA_HI)
/-- R444: a word request of the debugger, context 2. -/
def State.accRequest (s : State) (typ : Nat) (words : List (Nat × Word)) : Request :=
  { typ := typ, len := 0, addr := s.accAddr, utag := 0, mask := 1, guar := false, fence := false, ord := false, ctx := 2,
    dev := s.devid.toNat, words := words }
/-- R462: LR leaves the reservation of its path. -/
def State.reserve (s : State) (p : Path) (r : Word × Word) : State :=
  match p with
  | .host => { s with dbg := { s.dbg with rsvHost := some r } }
  | .debug => { s with dbg := { s.dbg with rsvDebug := some r } }
  | .steward => s
/-- What the answer to access `op` (READ, WRITE, LR, SC) at address a leaves beside STATUS. -/
def State.accAnswer (s : State) (p : Path) (a : Word) (op : Nat) (old : Word) (ok : Bool) (w : Word) : State :=
  match op with
  | 0 => s.setPair R.DBG_ACC_DATA_LO R.DBG_ACC_DATA_HI w.toNat
  | 1 => s
  | 2 =>
    let s := s.setPair R.DBG_ACC_DATA_LO R.DBG_ACC_DATA_HI w.toNat
    if ok then s.reserve p (a, w) else s
  | _ => (s.put F.DBG_ACC_CTL_SCFAIL (bit (!(ok && w == old)))).clearReservations
/-- The response: STATUS, and the word read; LR records its reservation, SC compares with the
value it sent (R445). -/
def State.accDone (s : State) (status : Nat) (w : Word) : State :=
  match s.dbg.access with
  | none => s
  | some (p, a, op, old) =>
    let s : State := { s with dbg := { s.dbg with access := none } }
    ((s.clear F.DBG_ACC_CTL_BUSY).put F.DBG_ACC_CTL_STATUS status).accAnswer p a op old
      (status == stOk || status == stCorrected) w
/-- The request goes to NI 95. -/
def State.accIssue (s : State) (p : Path) (op : Nat) (old : Word) (q : Request) : State :=
  let s : State := { s with dbg := { s.dbg with access := some (p, s.accAddr, op, old) } }
  let t := (s.raise F.DBG_ACC_CTL_BUSY).niTake 95 q (.debug op)
  match t.answer with
  | some c => t.state.accDone c.status 0
  | none => t.state.pump 95
/-- A write of 1 to ACC_CTL.GO with OP `op`; ignored while BUSY is 1. -/
def State.accGo (s : State) (p : Path) (op : Nat) : State :=
  let s := s.put F.DBG_ACC_CTL_OP op
  if s.is F.DBG_ACC_CTL_BUSY then s
  else match op with
    | 0 => s.accIssue p 0 0 (s.accRequest tRdWords [])
    | 1 => s.accIssue p 1 0 (s.accRequest tWrWords [(0, s.accData)])
    | 2 => s.clearReservations.accIssue p 2 0 (s.accRequest tRdWords [])
    | _ =>
      match s.reservation p with
      | some (a, v) =>
        if a = s.accAddr then s.accIssue p 3 v (s.accRequest tAtomic [(0, s.accData), (1, v), (2, 5)])
        else (s.raise F.DBG_ACC_CTL_SCFAIL).clearReservations
      | none => (s.raise F.DBG_ACC_CTL_SCFAIL).clearReservations
/-- ACC_READ, ACC_WRITE, LR and SC on access path `path`. -/
def execAccRead (path : Path) (s : State) : Ans := .next (s.dbgWrite path fun s => s.accGo path 0)
def execAccWrite (path : Path) (s : State) : Ans := .next (s.dbgWrite path fun s => s.accGo path 1)
def execLr (path : Path) (s : State) : Ans := .next (s.dbgWrite path fun s => s.accGo path 2)
def execSc (path : Path) (s : State) : Ans := .next (s.dbgWrite path fun s => s.accGo path 3)

/-! ## Linked conditions and trace (R447, R454) -/

/-- LC_WINDOW: the WINDOW-th tick after the first stage's hit has come. -/
def State.lcWindow (s : State) (i : Nat) : State :=
  let w := s.get (F.DBG_LC_CTL_WINDOW i)
  match SMap.get s.dbg.firstHit none i with
  | some t =>
    if w ≠ 0 ∧ s.get (F.DBG_LC_STAT_CUR i) ≠ 0 ∧ w ≤ (s.time.tick + 2 ^ 48 - t) % 2 ^ 48 then s.put (F.DBG_LC_STAT_CUR i) 0 else s
  | none => s
def execLcWindow (i : Fin 4) (s : State) : Ans := .next (s.lcWindow i)

/-- TRACE_ENABLE: a write of 1 to TRC_CTL.EN; while EN reads 0 it clears the pointer and the marks. -/
def State.traceEnable (s : State) : State :=
  if s.is F.DBG_TRC_CTL_EN then s
  else
    let s := ((s.clear F.DBG_TRC_STAT_WPTR).clear F.DBG_TRC_STAT_WRAP).clear F.DBG_TRC_STAT_TRIGD
    let s := (s.clear F.DBG_TRC_STAT_STOPPED).raise F.DBG_TRC_CTL_EN
    { s with dbg := { s.dbg with lastTraced := none, postLeft := 0 } }
def execTraceEnable (path : Path) (s : State) : Ans := .next (s.dbgWrite path State.traceEnable)

/-! ## Halt (R449 to R453) -/

/-- R451: a field's frame is cut: a late one is late no longer, and a protected one is rewound (R167), unless its shadows
are frozen by a snapshot. What was captured is not released. -/
def State.cutField (s : State) (f : Nat) : State :=
  let x := s.fld f
  match x.phase with
  | .frame | .late | .lateDone =>
    let s := (s.clear (F.FLD_FSTAT_LATE f)).clear (F.FLD_PROTSTAT_REPLAYING f)
    let s := if s.isProtected f then
        let s := if s.is (F.FLD_SNAPSTAT_DRAIN f) then s else s.rewindFabric f
        s.rewindNis f
      else s
    s.setFld f { s.fld f with phase := .idle, captured := false, release := [], doneAt := none, rewound := false, failed := false }
  | _ => s
/-- HALT begins: its time, source and event; reservations are cleared. -/
def State.enterHalt (s : State) (now : Bool) (src : Nat) : State :=
  let s : State := { s with dbg := { s.dbg with halt := none, resume := none, prepared := false } }
  let s := s.enterMode { s.mode with ov := { s.mode.ov with halt := true } } .debug
  let s := s.setPair R.DBG_HALTT_LO R.DBG_HALTT_HI s.correctedNat
  let s := ((s.put F.DBG_STAT_SRC src).put F.DBG_STAT_CUT (bit now)).clearReservations
  s.post 0x0EE 95 (bit now)
/-- A halt now takes effect; a STOP or VALLEY that waits for its tick loses to it (R25). -/
def State.haltCut (s : State) (src : Nat) : State := (s.rejectDrain.forEach allFields State.cutField).enterHalt true src
/-- HALT_NOW: a write of CTL.HALT, or the request a condition left. -/
def State.haltNow (s : State) : State :=
  match s.dbg.halt, s.mode.top with
  | some (true, src), .run => s.haltCut src
  | some (true, src), .reshape => s.haltCut src
  | some (true, src), .holdover => s.haltCut src
  | _, _ => s
def execHaltNow (path : Option Path) (s : State) : Ans :=
  .next (match path with
    | some p => s.dbgWrite p fun s => (s.haltRequest true 1).haltNow
    | none => s.haltNow)
/-- HALT_FRAME_END: a write of CTL.HALT, which the first tick without a late field takes (R450). -/
def execHaltFrameEnd (path : Path) (s : State) : Ans := .next (s.dbgWrite path fun s => s.haltRequest false 1)

/-- RAW counts to the next tick of the grid. -/
def State.toTick (s : State) : Nat := (s.time.nextTick.getD s.time.raw + 2 ^ 48 - s.time.raw) % 2 ^ 48
/-- The release is due at the tick whose edge has just come. -/
def State.resumes (s : State) : Resume → Bool
  | .after r => s.rawPast r
  | .atTick k => decide ((s.time.tick + 2 ^ 48 - k) % 2 ^ 48 < 2 ^ 47)
/-- R453: a write of 1 to CTL.RELEASE, with CTL.RELAT. -/
def State.haltRelease (s : State) : State :=
  if !s.mode.ov.halt || s.dbg.resume.isSome then s
  else
    let set (s : State) (r : Resume) : State := { s with dbg := { s.dbg with resume := some r } }
    let soon := Resume.after ((s.time.raw + 2000) % 2 ^ 48)
    if !s.is F.DBG_CTL_RELAT then set s soon
    else
      let k := s.pair R.DBG_RELTICK_LO R.DBG_RELTICK_HI
      let d := (k + 2 ^ 48 - s.time.tick) % 2 ^ 48
      if d = 0 ∨ 2 ^ 47 ≤ d ∨ s.toTick + (d - 1) * (s.period * 80) < 2000 then set (s.raise F.DBG_ERR_RELLATE) soon
      else set s (.atTick k)
def execRelease (path : Path) (s : State) : Ans := .next (s.dbgWrite path State.haltRelease)
/-- RESUME_PREPARE: the channels leave self-refresh. -/
def State.resumePrepare (s : State) : State :=
  if !s.mode.ov.halt || s.dbg.resume.isNone || s.dbg.prepared then s
  else
    let s := s.forEach (List.range 8) fun s c => if s.domainOn (28 + c) then s.dramWake c else s
    { s with dbg := { s.dbg with prepared := true } }
def execResumePrepare (s : State) : Ans := .next s.resumePrepare

/-! ## The virtual terminal (R455) -/

/-- The fabric's side in cycle `cyc` of FLD0, if bit `b` of the command word is 1; `g` takes the data word. -/
def State.vtPort (s : State) (cyc b : Nat) (g : Word → State → State) : State :=
  match s.image 0 with
  | none => s
  | some i =>
    if !s.executes 0 cyc || !s.domainOn 1 then s
    else
      let st := (s.fld 0).stamp cyc
      let t := s.comeTo 0 ((s.fld 0).base + cyc)
      let c := i.vtTracks.getD (16, 16)
      if (t.port16 i 0 255 st c.1).getLsbD b then g (t.port16 i 0 255 st c.2) t else t
/-- SEND: VT_RX takes the data word, unless it is full. -/
def State.vtReceive (s : State) (data : Word) : State :=
  if s.is F.DBG_VT_STAT_RXFULL then s
  else (s.put F.DBG_VT_RX_DATA (data.toNat % 2 ^ 32)).raise F.DBG_VT_STAT_RXFULL
/-- VT_SEND and TAKE in work cycle `cyc` of FLD0. -/
def execVtSend (cyc : Nat) (s : State) : Ans := .next (s.vtPort cyc 0 fun w s => s.vtReceive w)
def execTake (cyc : Nat) (s : State) : Ans := .next (s.vtPort cyc 1 fun _ s => s.clear F.DBG_VT_STAT_TXFULL)
/-- VT_TX_WRITE: while TXFULL is 1 the write is discarded. -/
def State.vtTxWrite (s : State) (data : BitVec 32) : State :=
  if s.is F.DBG_VT_STAT_TXFULL then s.raise F.DBG_ERR_TXOVF
  else (s.put F.DBG_VT_TX_DATA data.toNat).raise F.DBG_VT_STAT_TXFULL
def execVtTxWrite (path : Path) (data : BitVec 32) (s : State) : Ans := .next (s.dbgWrite path fun s => s.vtTxWrite data)
/-- RXTAKE: a write of 1 to VT_STAT.RXTAKE. -/
def execRxtake (path : Path) (s : State) : Ans := .next (s.dbgWrite path fun s => s.clear F.DBG_VT_STAT_RXFULL)

end Sys2Proof.Machine
end

