-- ==== Sys2Proof/Machine/Requests.lean ====
section
/-! DEFINITION. Request carriages at their targets (R163, R201, R222, R233, R241, R261, R265, R272, R311, R328, R452, R489, R490):
what each NI does with the packet that reached it, and the hop of a carriage. -/
namespace Sys2Proof.Machine

/-- CARRIAGE_HOP. -/
def execCarriageHop (n : NodeNo) (out : Fin 5) (cyc : Nat) (link : LinkOutcome) (s : State) : Ans := .next (s.hop n out cyc link)

/-! ## The packet at an NI -/

/-- R201: a type the table does not have as a request, or a LEN it does not allow. -/
def badRequest (c : Carriage) : Bool := !isRequestType c.typ || !lenAllowed c.typ c.len || c.rsp
/-- The packet leaves the NI's arrivals. -/
def State.dropRequest (s : State) (n : Nat) (pkt : List Carriage) : State :=
  let x := s.ni n
  s.setNi n { x with inReq := pkt.foldl (fun l d => l.erase d) x.inReq }
/-- R239: a regulated NI's responses wait for tokens; another NI's go as far as room allows. -/
def isField (n : Nat) : Bool := decide (n < 72)
def isDram (n : Nat) : Bool := decide (72 ≤ n ∧ n < 80)

/-- R452: in HALT a field NI serves context 2: reads of the DATA and TAG apertures, and writes and atomics of DATA. -/
def haltServes (c : Carriage) : Bool :=
  let a := c.addr.toNat
  let ap := bitsOf 19 2 a
  decide (c.ctx = 2) && decide (a / 2 ^ 21 = 0) &&
    ((isReadType c.typ && (ap == 0 || ap == 2)) || ((isWriteType c.typ || c.typ == tAtomic) && ap == 0))
/-- Table 10-11, Table 14-6, R452: the NI takes a new request now. -/
def State.niServes (s : State) (n : Nat) (c : Carriage) : Bool :=
  match s.niState n with
  | .opened => true
  | .refusing =>
    s.mode.ov.halt && !(s.ni n).causes.stuck && (if isField n then haltServes c else decide (c.ctx ≤ 2))
  | _ => false

/-- A BCAST copy the NI refuses (R233). -/
def State.bcastRefused (s : State) (n : Nat) : State := s.bump (F.NI_CNT_BCREF n) 1
/-- A request the NI cannot accept: the response of its type, or a BOUNCE where none is expected (R21). -/
def State.decline (s : State) (n : Nat) (pkt : List Carriage) (status : Nat) : State :=
  let c := pkt.headD Carriage.zero
  if c.typ = tBcast then s.bcastRefused n
  else if expectsResponse c.typ then s.replyFail n pkt status
  else s.bounceBack n pkt status
/-- R237: FENCE_ACK once every accepted write is performed. -/
def State.fenceAck (s : State) (n : Nat) (c : Carriage) : Option State :=
  if (s.ni n).accepted = 0 then some (s.replyOne n c tFenceAck stOk []) else none

/-! ## Targets -/

/-- An inbound item of a field NI's receive port: 16 carriages of them fit (R219). -/
def State.rxportWrite (s : State) (n : Nat) (pkt : List Carriage) : Option State :=
  let c := pkt.headD Carriage.zero
  if 16 < (s.ni n).rxFill true + pkt.length then none
  else some ((s.rxItem n true pkt.length false pkt).replyOne n c tWrAck stOk [])
/-- R222, Table 10-8, R163: a field NI. -/
def State.fieldRequest (s : State) (n : Nat) (pkt : List Carriage) : Option State :=
  let c := pkt.headD Carriage.zero
  let a := c.addr.toNat
  let data := isReadType c.typ || isWriteType c.typ || c.typ == tAtomic
  if s.niProtected n && !(data && decide (a / 2 ^ 21 = 0)) then some (s.decline n pkt stDenied)
  else if c.typ = tBcast then
    if s.is (F.NI_CTL_BCACC n) && s.niState n = .opened then
      (if 16 < (s.ni n).rxFill true + pkt.length then none else some (s.rxItem n true pkt.length false pkt))
    else some (s.bcastRefused n)
  else if c.typ = tFence then s.fenceAck n c
  else if !data then some (s.decline n pkt stDenied)
  else if 2 ^ 24 ≤ a then some (s.replyFail n pkt stNoWindow)
  else if a / 2 ^ 21 = 0 then some (s.bmAdmit n pkt)
  else if a / 2 ^ 21 = 1 ∧ isWriteType c.typ then s.rxportWrite n pkt
  else some (s.replyFail n pkt stNoWindow)
/-- R328: a DRAM NI. -/
def State.dramRequest (s : State) (n : Nat) (pkt : List Carriage) : Option State :=
  let c := pkt.headD Carriage.zero
  if c.typ = tEvent ∨ c.typ = tTrigger ∨ c.typ = tCfg ∨ c.typ = tBcast then some (s.decline n pkt stDenied)
  else s.dramAdmit (n - 72) pkt
/-- R311: the NI of a raw group. -/
def State.rawRequest (s : State) (n : Nat) (pkt : List Carriage) : State :=
  let c := pkt.headD Carriage.zero
  let a := c.addr.toNat
  let i := bitsOf 4 4 a
  let l := 16 + 12 * (n - 88) + i
  if a / 256 ≠ 0 ∨ a % 16 ≠ 0 ∨ 12 ≤ i then s.decline n pkt stNoWindow
  else if c.typ ≠ tWrLine ∨ c.len ≠ 0 ∨ c.mask ≠ 0xFFFF ∨ !s.isRaw l ∨ !s.is (F.LANE_CTL_EN l) then s.decline n pkt stDenied
  else
    let r := s.rawAccept l ((List.range 16).map c.word)
    r.1.replyOne n c tWrAck r.2 []

/-- R265: whole entries from word 0, and 16 words in every carriage of a WR_LINE. -/
def ttMasks (pkt : List Carriage) : Bool :=
  pkt.all fun d =>
    if d.typ = tWrLine then d.mask == 0xFFFF else [0x000F, 0x00FF, 0x0FFF, 0xFFFF].contains d.mask.toNat
/-- R265: the load that a carriage brings to column `bits 5:0`. -/
def State.ttCarriage (s : State) (pkt : List Carriage) : State × Bool :=
  let c := pkt.headD Carriage.zero
  let ws := pkt.flatMap fun d => ((List.range 16).filter d.enables).map d.word
  s.ttLoad (c.addr.toNat % 64) c.ctx (ttEntries ws) (ttMasks pkt)
/-- R489, R265: a write to NI 93. -/
def State.ttRequest (s : State) (pkt : List Carriage) : State :=
  let c := pkt.headD Carriage.zero
  if c.addr.toNat / 64 ≠ 0 then s.replyFail 93 pkt stNoWindow
  else
    let r := s.ttCarriage pkt
    r.1.replyOne 93 c tWrAck (if r.2 then stOk else stDenied) []
/-- R272: the records of an EVENT carriage, or none of them when MASK enables half a record. -/
def State.eventRequest (s : State) (pkt : List Carriage) : State :=
  let c := pkt.headD Carriage.zero
  if (List.range 8).any fun k => c.enables (2 * k) != c.enables (2 * k + 1) then s.bounceBack 93 pkt stDenied
  else
    s.forEach ((List.range 8).filter fun k => c.enables (2 * k)) fun s k =>
      s.passTake { EvRec.ofWords (c.word (2 * k)) (c.word (2 * k + 1)) with
        src := BitVec.ofNat 7 c.src, dev := BitVec.ofNat 8 c.dev }
/-- R261: the edge a TRIGGER carriage brings. A remote line above 15 has no input. -/
def State.triggerRequest (s : State) (pkt : List Carriage) : State :=
  let c := pkt.headD Carriage.zero
  let w := (c.word 1).toNat
  let line := w % 64
  let remote := bitOf 8 w
  if c.mask ≠ 3 ∨ w / 512 ≠ 0 ∨ (remote ∧ 16 ≤ line) then s.bounceBack 93 pkt stDenied
  else
    (s.edgeAt (if remote then 90 + line else 26 + line) (bitOf 6 w) (if bitOf 7 w then c.word 0 else s.now)).matrixSend
/-- R489: NI 93. -/
def State.request93At (s : State) (pkt : List Carriage) : Option State :=
  let c := pkt.headD Carriage.zero
  if isWriteType c.typ then some (s.ttRequest pkt)
  else if c.typ = tEvent then some (s.eventRequest pkt)
  else if c.typ = tTrigger then some (s.triggerRequest pkt)
  else if c.typ = tFence then s.fenceAck 93 c
  else if c.typ = tBcast then
    some (if c.addr.toNat / 64 ≠ 0 then s.bcastRefused 93 else (s.ttCarriage pkt).1)
  else some (s.replyFail 93 pkt stDenied)

/-- NIs 80, 81, 92, 94 and 95: no rule gives them a target. An atomic at the host bridge is DENIED (R238), a fence is
acknowledged, and any other request is declined with one of the statuses of R21, which one is open; a BCAST copy counts as
refused. -/
def State.otherRequest (s : State) (n : Nat) (pkt : List Carriage) : Option State :=
  let c := pkt.headD Carriage.zero
  if c.typ = tFence then s.fenceAck n c
  else if c.typ = tAtomic ∧ n < 82 then some (s.replyFail n pkt stDenied)
  else
    let r := s.freeNat
    some (r.2.decline n pkt
      ([stDenied, stNoWindow, stTimeout, stRouteClosed, stDomainOff, stReshaping].getD (r.1 % 6) stDenied))

/-- The target of NI n acts on a whole, well-formed packet that it may take; none while the packet waits. -/
def State.atTarget (s : State) (n : Nat) (pkt : List Carriage) : Option State :=
  if 82 ≤ n && (pkt.headD Carriage.zero).typ == tBcast && !s.is (F.NI_CTL_BCACC n) then some (s.bcastRefused n)
  else if isField n then s.fieldRequest n pkt
  else if isDram n then s.dramRequest n pkt
  else if 82 ≤ n ∧ n < 88 then some (s.linkForward (n - 82) pkt)
  else if 88 ≤ n ∧ n < 92 then some (s.rawRequest n pkt)
  else if n = 93 then s.request93At pkt
  else s.otherRequest n pkt

/-- The packet that stands first at NI n, if a row's kind `k` says it is that row's; a packet that breaks Table 9-5 is bounced by
whichever row comes (R201). -/
def State.request (s : State) (n : Nat) (k : Carriage → Bool) (g : State → List Carriage → Option State) : State :=
  if !s.domainOn 2 then s
  else match firstWhole (s.ni n).inReq with
    | none => s
    | some pkt =>
      let c := pkt.headD Carriage.zero
      if badRequest c then (s.dropRequest n pkt).bounceBack n pkt stDenied
      else if !k c then s
      else if !s.niServes n c then
        let s := s.dropRequest n pkt
        if c.typ = tBcast then s.bcastRefused n else s.bounceBack n pkt (s.niRefusal n)
      else if pkt.any fun d => d.status != stOk then (s.dropRequest n pkt).decline n pkt stUncorr
      else
        match g (s.dropRequest n pkt) pkt with
        | some t => t
        | none => s

def execRdLine (n : NodeNo) (s : State) : Ans := .next (s.request n (fun c => c.typ == tRdLine) fun s p => s.atTarget n p)
def execRdWords (n : NodeNo) (s : State) : Ans := .next (s.request n (fun c => c.typ == tRdWords) fun s p => s.atTarget n p)
def execWrLine (n : NodeNo) (s : State) : Ans := .next (s.request n (fun c => c.typ == tWrLine) fun s p => s.atTarget n p)
def execWrWords (n : NodeNo) (s : State) : Ans := .next (s.request n (fun c => c.typ == tWrWords) fun s p => s.atTarget n p)
/-- ATOMIC with an AOP other than CAS, and CAS. -/
def isCas (c : Carriage) : Bool := bitsOf 0 3 (c.word 2).toNat == 5
def execAtomic (n : NodeNo) (s : State) : Ans :=
  .next (s.request n (fun c => c.typ == tAtomic && !isCas c) fun s p => s.atTarget n p)
def execCas (n : NodeNo) (s : State) : Ans :=
  .next (s.request n (fun c => c.typ == tAtomic && isCas c) fun s p => s.atTarget n p)
def execFenceReq (n : NodeNo) (s : State) : Ans := .next (s.request n (fun c => c.typ == tFence) fun s p => s.atTarget n p)
def execEvent (n : NodeNo) (s : State) : Ans := .next (s.request n (fun c => c.typ == tEvent) fun s p => s.atTarget n p)
def execTrigger (n : NodeNo) (s : State) : Ans := .next (s.request n (fun c => c.typ == tTrigger) fun s p => s.atTarget n p)
def execBcast (n : NodeNo) (s : State) : Ans := .next (s.request n (fun c => c.typ == tBcast) fun s p => s.atTarget n p)

end Sys2Proof.Machine
end

