-- ==== Sys2Proof/Machine/SelfTest.lean ====
section
/-! DEFINITION. Self-test, soft and fuse repair, and the zeroization of secrets (chapter 19). -/
namespace Sys2Proof.Machine

/-! ## The sequence (R428, R429) -/

def State.setBist (s : State) (b : BistSt) : State := { s with bist := b }
/-- BIST.STAT: BUSY with PHASE and CUR. -/
def State.bistPhase (s : State) (busy : Bool) (phase cur : Nat) : State :=
  ((s.put F.BIST_STAT_BUSY (bit busy)).put F.BIST_STAT_PHASE phase).put F.BIST_STAT_CUR cur
/-- R435: a failure of a field, or of an analog item as 32 + bit. -/
def State.bistFail (s : State) (arg : Nat) : State :=
  (s.setBist { s.bist with failures := s.bist.failures + 1 }).postLog 0x0E9 95 arg
/-- The device leaves SELF-TEST for the mode before it; the watchdog reloads (R427). -/
def State.leaveSelfTest (s : State) : State :=
  let s := (s.setBist { s.bist with todo := [], ended := true, aborted := false }).bistPhase false 0 0
  (s.enterMode { s.mode with ov := { s.mode.ov with selfTest := false } } .selfTest).wdLoad

/-- R436: secrets are zeroized, and the device stays in SELF-TEST until a device reset; refused while a renewal runs. -/
def State.scanEntry (s : State) : State :=
  if s.is F.CRY_RN_ACTIVE then s.raise F.BIST_ERR_RENEW
  else
    let s := if s.domainOn 40 then s.flushCache else s
    let s := s.forEach (List.range 64) fun s k => s.setKeyState k 0
    let s : State := { s.clear F.CRY_CFGKEY_LOADED with cry := { s.cry with keys := [], cfgKey := none, cache := [] } }
    let s := (s.setBist { s.bist with scanned := true, todo := [], ended := true }).bistPhase true 6 0
    (s.raise F.BIST_STAT_ZEROD).post 0x0EB 95 0
/-- The selected tests have ended: BIST_DONE; scan, if it is selected, comes last; else, and where scan is refused, the device
leaves, or stays. -/
def State.endTests (s : State) : State :=
  let aborted := s.bist.aborted
  let s := s.post 0x0E8 95 (min 255 s.bist.failures)
  let s := (s.setBist { s.bist with todo := [], ended := true }).bistPhase false 0 0
  let scan := s.is F.BIST_CTL_SCAN && !aborted
  let s := if scan then s.scanEntry else s
  if scan && s.bist.scanned then s
  else if aborted then (if s.bist.prog.isSome then s else s.leaveSelfTest)
  else if s.is F.BIST_CTL_STAY then s
  else s.leaveSelfTest
/-- The next field, or the end. -/
def State.nextTest (s : State) : State :=
  match s.bist.todo with
  | [] => s.endTests
  | f :: _ => s.bistPhase true 2 f

/-- R434: lane l is checked: its port or lane is disabled. -/
def State.laneFree (s : State) (l : Nat) : Bool :=
  decide (16 ≤ l) && s.domainOn (laneDomain l) &&
    (match s.laneUse l with | 2 => !s.is (F.STG_CTL_EN (lanePort l)) | 0 => true | _ => !s.is (F.LANE_CTL_EN l))
/-- R434: the analog checks: items checked and items that failed; delay lines are checked on enabled channels only,
lanes where one is disabled. -/
def State.analogChecks (s : State) (run fail : BitVec 13) : State :=
  let anyChannel := (List.range 8).any fun c => s.is (F.DRC_CTL_EN c)
  let run := if anyChannel then run else run &&& ~~~(0x200 : BitVec 13)
  let run := if (List.range 64).any s.laneFree then run else run &&& ~~~(0x400 : BitVec 13)
  let fail := fail &&& run
  let s := (s.put F.BIST_ARES_RUN run.toNat).put F.BIST_ARES_FAIL fail.toNat
  s.forEach ((List.range 13).filter fail.getLsbD) fun s b => s.bistFail (32 + b)
/-- REQ_SELF_TEST, R428: the analog checks run first. -/
def State.reqSelfTest (s : State) (run fail : BitVec 13) : State :=
  if s.refuses [.bare, .staged] then s.rejectRequest 4
  else
    let s := s.enterMode { s.mode with before := s.mode.base, ov := { s.mode.ov with selfTest := true } } .host
    let fs := if s.is F.BIST_CTL_FIELD then allFields.filter fun f => bitOf f (s.reg R.BIST_FMAP) else []
    let s := s.setBist { s.bist with todo := fs, ended := false, aborted := false, failures := 0, saved := none, failed := false }
    let s := (s.forEach allFields fun s f => s.setReg (R.BIST_FRES f) 0).setReg R.BIST_ARES 0
    let s := if s.is F.BIST_CTL_ANALOG then s.analogChecks run fail else s
    s.nextTest
def execReqSelfTest (run fail : BitVec 13) (s : State) : Ans := .next (s.reqSelfTest run fail)

/-! ## Repair records (R437, R438) -/

/-- Fields of a record, Table 19-5. -/
def recValid (r : Nat) : Bool := bitOf 31 r
def recField (r : Nat) : Nat := bitsOf 26 5 r
def recBlock (r : Nat) : Nat := bitsOf 18 8 r
def recSpare (r : Nat) : Nat := bitsOf 17 1 r
def recColumn (r : Nat) : Nat := bitsOf 11 6 r
def recOf (f j sp col : Nat) : Nat := 2 ^ 31 + 2 ^ 26 * f + 2 ^ 18 * j + 2 ^ 17 * sp + 2 ^ 11 * col
def recInRange (r : Nat) : Bool := decide (recField r ≤ 23 ∧ recBlock r ≤ 191 ∧ recColumn r ≤ 59)
def recSameSpare (a b : Nat) : Bool := recField a == recField b && recBlock a == recBlock b && recSpare a == recSpare b
def recSameColumn (a b : Nat) : Bool := recField a == recField b && recBlock a == recBlock b && recColumn a == recColumn b
/-- Fuse records in effect: those programmed at the last reset; a later one for a spare replaces an earlier. -/
def State.fuseRecords (s : State) : List Nat :=
  let rs := (s.atReset.records.map (·.toNat)).filter fun r => recValid r && recInRange r
  rs.foldl (fun acc r => acc.filter (fun a => !recSameSpare a r) ++ [r]) []
/-- Soft records in effect but record `skip`. -/
def State.softRecords (s : State) (skip : Nat) : List Nat :=
  ((List.range 64).filter (· != skip)).filterMap fun k => let r := s.reg (R.BIST_SREP k); if recValid r then some r else none
/-- A record may take effect beside the others. -/
def recFits (others : List Nat) (r : Nat) : Bool :=
  recInRange r && others.all fun o => !recSameSpare o r && !recSameColumn o r
/-- SREP_WRITE. -/
def State.srepWrite (s : State) (k : Nat) (r : BitVec 32) : State :=
  let v := r.toNat
  let off := decide (recField v ≤ 23) && !s.domainOn (4 + recField v)
  if !s.mode.ov.selfTest && !off then s.raise F.BIST_ERR_REPBUSY
  else if recValid v && !recFits (s.fuseRecords ++ s.softRecords k) v then s.raise F.BIST_ERR_SPAREUSED
  else
    let s := s.setReg (R.BIST_SREP k) v
    if recValid v then s.clear (F.FLD_BM_CFG_INITD (recField v) (recBlock v)) else s
def execSrepWrite (k : Fin 64) (r : BitVec 32) (s : State) : Ans := .next (s.srepWrite k r)

/-! ## Field test (R430 to R432) -/

/-- R430: a configured field may be saved. Regions are looked at where they begin and end. -/
def State.saveOk (s : State) (f : Nat) : Bool :=
  let lo := s.saveArea f
  let hi := lo + 2 ^ 21
  let cuts := lo :: ((List.range 32).flatMap fun q => [s.rgnBase q, s.rgnLimit q + 1]).filter fun a => decide (lo < a ∧ a < hi)
  let cuts := cuts ++ (((List.range 32).filter s.encrypted).flatMap fun q => [(s.areaSpan q).1, (s.areaSpan q).2 + 1]).filter
    fun a => decide (lo < a ∧ a < hi)
  (List.range s.nch).all (fun c => s.get (F.DRC_STAT_STATE c) == 2) && decide (hi ≤ 16 * s.nch * s.chanLines 0) &&
    cuts.all fun a =>
      s.rightsOk 2 tRdLine a && s.rightsOk 2 tWrLine a &&
        (!SMap.get s.cfg.encrypted false f || s.get (F.MIG_REGION_CTL_CRYPTO ((s.regionAt a).getD 0)) == 2 && (s.regionAt a).isSome)

/-- A field's result. -/
def State.fieldResult (s : State) (f result item loc : Nat) : State :=
  ((s.put (F.BIST_FRES_RESULT f) result).put (F.BIST_FRES_ITEM f) item).put (F.BIST_FRES_LOC f) loc
/-- A failing item of a field: the first in the order of Table 19-3 stays its result. -/
def State.fieldFails (s : State) (f item loc : Nat) : State :=
  let s := if s.bist.failed then s else s.bistFail f
  let worse := s.bist.failed && decide (s.get (F.BIST_FRES_ITEM f) ≤ item)
  let s := s.setBist { s.bist with failed := true }
  if worse then s else s.fieldResult f 3 item loc
/-- R432: a failing column of block j is replaced under AUTOREP, or fails the field. -/
def State.fixColumn (s : State) (f j col : Nat) : State :=
  let others := s.fuseRecords ++ s.softRecords 64
  let spare := [0, 1].find? fun sp => recFits others (recOf f j sp col)
  let slot := (List.range 64).find? fun k => !recValid (s.reg (R.BIST_SREP k))
  match spare, slot with
  | some sp, some k =>
    if s.is F.BIST_CTL_AUTOREP then
      let s := (s.setReg (R.BIST_SREP k) (recOf f j sp col)).post 0x0EA 95 f
      if s.bist.failed then s else s.fieldResult f 2 2 (256 * j + col)
    else s.fieldFails f 2 (256 * j + col)
  | _, _ => s.fieldFails f 2 (256 * j + col)
/-- FIELD_TEST: the next field of the sequence is saved and tested: the failing columns of its memories, the block that still
fails on its second test, and another item that fails with its place. -/
def State.fieldTest (s : State) (cols : List (Fin 192 × Fin 60)) (again : Option (Fin 192 × Fin 60))
    (other : Option (Fin 5 × Nat)) (checks : List LineCheck) : State :=
  match s.bist.todo with
  | [] => s
  | f :: rest =>
    if !s.mode.ov.selfTest || s.bist.saved.isSome then s
    else
      let configured := s.configured f
      if !s.domainOn (4 + f) then ((s.fieldResult f 4 0 0).setBist { s.bist with todo := rest }).nextTest
      else if configured && !s.saveOk f then
        (((s.raise F.BIST_ERR_SAVE).fieldResult f 4 0 0).setBist { s.bist with todo := rest }).nextTest
      else
        let s := if configured then s.saveField f checks else s
        let s := (s.setBist { s.bist with failed := false }).fieldResult f 1 0 0
        let s := match other with | some e => s.fieldFails f e.1.val e.2 | none => s
        let s := cols.foldl (fun s e => s.fixColumn f e.1.val e.2.val) s
        let s := match again with | some e => s.fieldFails f 2 (256 * e.1.val + e.2.val) | none => s
        if configured then (s.setBist { s.bist with saved := some f }).bistPhase true 4 f
        else (s.setBist { s.bist with todo := rest }).nextTest
def execFieldTest (cols : List (Fin 192 × Fin 60)) (again : Option (Fin 192 × Fin 60)) (other : Option (Fin 5 × Nat))
    (checks : List LineCheck) (s : State) : Ans :=
  .next (s.fieldTest cols again other checks)

/-- What follows a field's restoring: the saved copy is back and swept, or a read of it has failed. -/
def State.fieldRestored (s : State) (f : Nat) (ok : Bool) : State :=
  let s := if ok then s else (s.fieldFails f 5 0).put (F.BIST_FRES_ITEM f) 5
  let rest := s.bist.todo.filter (· != f)
  let s := s.setBist { s.bist with saved := none, failed := false, todo := rest }
  if s.bist.aborted then (s.setBist { s.bist with todo := [] }).endTests else s.nextTest
/-- FIELD_RESTORE: the saved copy of the field under test comes back (R431). -/
def State.fieldRestore (s : State) (checks : List LineCheck) : State :=
  match s.bist.saved with
  | none => s
  | some f =>
    if !s.mode.ov.selfTest || s.mode.ov.freeze || s.mode.ov.safeHold then s
    else
      let r := s.restoreField f checks
      r.1.fieldRestored f r.2
def execFieldRestore (checks : List LineCheck) (s : State) : Ans := .next (s.fieldRestore checks)

/-- BIST_ABORT, R429: a field under test is first restored, a fuse item first completed. -/
def State.bistAbort (s : State) : State :=
  if !s.mode.ov.selfTest || s.bist.scanned || s.mode.ov.freeze || s.mode.ov.safeHold then s
  else
    let s := s.setBist { s.bist with aborted := true }
    if s.bist.saved.isSome then s
    else if !s.bist.ended then s.endTests
    else if s.bist.prog.isSome then s
    else s.leaveSelfTest
def execBistAbort (s : State) : Ans := .next s.bistAbort

/-- SCAN_ENTER: the private TAP instruction; outside SELF-TEST it acts as BYPASS. -/
def State.scanTap (s : State) : State :=
  if !s.power.powered then s
  else if !s.mode.ov.selfTest || s.mode.ov.freeze || s.mode.ov.safeHold then
    { s with tap := { s.tap with instr := .bypass, bypass := false } }
  else
    let s : State := { s with tap := { s.tap with instr := .scanEnter } }
    if s.bist.scanned then s else s.scanEntry
def execScanEnter (s : State) : Ans := .next s.scanTap

/-! ## Fuses (R439) -/

/-- The words an item takes. -/
def fuseWords (item : Nat) : Nat := match item with | 0 => 1 | 1 => 12 | 2 => 0 | _ => 8
/-- The target of an item is used up. -/
def State.fuseFull (s : State) (item index : Nat) : Bool :=
  match item with
  | 0 => decide (512 ≤ s.fuses.records.length)
  | 1 => s.ownerDigest index != []
  | 2 => false
  | _ => s.fuses.root.isSome
/-- The open value that fuses which failed verification hold. -/
def State.openFuses (s : State) : Nat → List (BitVec 32) × State
  | 0 => ([], s)
  | n + 1 =>
    let p := s.freeNat
    let r := p.2.openFuses n
    (BitVec.ofNat 32 p.1 :: r.1, r.2)
/-- What item `item` holds once blown: a fuse record (bit 31 of a bad one stays 0), an owner digest, a revocation, the root key. -/
def State.fuseHold (s : State) (item index : Nat) (mask : BitVec 32) (ws : List (BitVec 32)) : State :=
  match item with
  | 0 => { s with fuses := { s.fuses with records := s.fuses.records ++ [ws.getD 0 0 &&& mask] } }
  | 1 => { s with fuses := { s.fuses with owners := SMap.set s.fuses.owners [] index ws } }
  | 2 => { s with fuses := { s.fuses with revoked := setBitsOf index 1 s.fuses.revoked 1 } }
  | _ => { s with fuses := { s.fuses with root := some ws } }
/-- An item has been programmed, well or not. -/
def State.fuseDone (s : State) (item index : Nat) : State :=
  let bad := s.bist.bad
  let words := (List.range (fuseWords item)).map fun i => s.bist.staged.getD i 0
  let p := if bad && (item == 1 || item == 3) then s.openFuses (fuseWords item) else (words, s)
  let s := p.2
  let s := s.fuseHold item index (if bad then 0x7FFFFFFF else 0xFFFFFFFF) p.1
  let s := if bad then s.raise F.BIST_ERR_FUSEFAIL else s
  let s := s.setBist { s.bist with staged := [], prog := none, blown := 0, bad := false }
  let s := s.post 0x0EC 95 item
  if s.bist.aborted && s.bist.ended && s.bist.saved.isNone then s.leaveSelfTest else s
/-- PROG after its key; `tj` is the junction temperature in 1/16 °C. One key opens one PROG. -/
def State.fuseBlow (s : State) (tj : Int) : State :=
  if s.bist.prog.isSome || !s.domainOn 1 then s
  else
    let s := s.setBist { s.bist with keyed := false }
    let item := s.get F.BIST_FUSECTL_ITEM
    let index := s.get F.BIST_FUSECTL_INDEX
    let refused (s : State) : State := s.setBist { s.bist with staged := [] }
    if !s.mode.ov.selfTest || s.bist.scanned || s.mode.ov.freeze || s.mode.ov.safeHold then refused (s.raise F.BIST_ERR_FUSEMODE)
    else if tj < 0 ∨ 85 * 16 < tj then refused (s.raise F.BIST_ERR_FUSETEMP)
    else if s.fuseFull item index then refused (s.raise F.BIST_ERR_FUSEFULL)
    else
      let s := s.setBist { s.bist with prog := some (item, index), blown := 0, bad := false }
      if fuseWords item = 0 then s.fuseDone item index else s
/-- PROG: with the key given by the host bridge path just before. -/
def State.fuseProg (s : State) (path : Path) (first second : BitVec 16) (cycles : Nat) (tj : Int) : State :=
  if keyOk path .host first second 0x4655 0x5345 cycles then s.fuseBlow tj else s
def execProg (path : Path) (first second : BitVec 16) (cycles : Nat) (tj : Int) (s : State) : Ans :=
  .next (s.fuseProg path first second cycles tj)
/-- FUSE_WORD: a word is blown and verified. -/
def State.fuseWord (s : State) (ok : Bool) : State :=
  match s.bist.prog with
  | none => s
  | some e =>
    let s := s.setBist { s.bist with blown := s.bist.blown + 1, bad := s.bist.bad || !ok }
    if s.bist.blown < fuseWords e.1 then s else s.fuseDone e.1 e.2
def execFuseWord (ok : Bool) (s : State) : Ans := .next (s.fuseWord ok)

end Sys2Proof.Machine
end

