-- ==== Sys2Proof/Machine/Views.lean ====
section
/-! DEFINITION. What a register of BAR0 reads (R8, R9, R13): the stored value, or what other state shows there; the Limty
table (R475 to R482) and the diagnostic windows (R484 to R487). -/
namespace Sys2Proof.Machine

/-! ## Finding a register -/

/-- The offset within the instance. -/
def BlockDesc.localOff (b : BlockDesc) (off : Nat) : Nat :=
  if b.stride = 0 then off - b.base else (off - b.base) % b.stride
/-- R480: an element of this register lies at the offset `l` of its instance. -/
def RegDesc.covers (r : RegDesc) (l : Nat) : Bool :=
  let d := l - r.off
  let e2 := if r.stride2 = 0 then 0 else d / r.stride2
  let d := d - e2 * r.stride2
  let e := if r.stride = 0 then 0 else d / r.stride
  decide (r.off ≤ l) && decide (e2 < r.count2) && decide (e < r.count) && d == e * r.stride
/-- A register as an access finds it: block, instance, offset in the instance, descriptor. -/
structure RegAt where
  block : BlockDesc
  inst : Nat
  loc : Nat
  desc : RegDesc
/-- The register at a BAR0 offset. -/
def regAt (off : Nat) : Option RegAt :=
  match blockAt off with
  | none => none
  | some (b, i) =>
    let l := b.localOff off
    if i < b.count then (b.regs.find? fun r => r.covers l).map fun r => ⟨b, i, l, r⟩ else none
/-- The value it takes at a device reset; where elements differ, by Table 10-1, 10-18, 12-19 and 18-1 (R481). -/
def RegAt.reset (x : RegAt) : Nat :=
  match x.block.block with
  | .ni => if x.loc = 0 then niCtlReset x.inst else if x.loc = 0x14 then niRegReset x.inst else x.desc.rst
  | .hb => if 0x40 ≤ x.loc ∧ x.loc < 0x64 then ivselReset ((x.loc - 0x40) / 4) else x.desc.rst
  | .stw =>
    if 0x400 ≤ x.loc ∧ x.loc < 0x460 then
      (if x.loc % 8 = 0 then envCtlReset ((x.loc - 0x400) / 8) else envLimReset ((x.loc - 0x400) / 8))
    else x.desc.rst
  | _ => x.desc.rst
/-- The stored register. -/
def RegAt.ref (x : RegAt) : RegRef := ⟨x.block.base + x.block.stride * x.inst + x.loc, x.reset⟩
/-- The bits of a field descriptor. -/
def FieldDesc.mask (f : FieldDesc) : Nat := (2 ^ f.w - 1) * 2 ^ f.lo
/-- The bits of a register's fields that `p` holds of. -/
def RegDesc.bitsWhere (r : RegDesc) (p : FieldDesc → Bool) : Nat := (r.fields.map fun f => if p f then f.mask else 0).foldl (· ||| ·) 0

/-! ## Values computed from other state -/

/-- Bits `lo + w - 1 : lo` show `v`; the others are stored. -/
def placed (v lo w x : Nat) : Nat := setBitsOf lo w v x

/-- A 48-bit value in a LO/HI pair: bits 31:0, or 47:32. -/
def halfOf (hi : Bool) (v : Nat) : Nat := if hi then v / 2 ^ 32 % 2 ^ 16 else v % 2 ^ 32

def State.viewTime (s : State) (l v : Nat) : Nat :=
  if l = 0x10 then halfOf false s.correctedNat else if l = 0x14 then halfOf true s.correctedNat
  else if l = 0x18 then s.time.nowx % 2 ^ 32
  else if l = 0x20 then halfOf false s.time.raw else if l = 0x24 then halfOf true s.time.raw
  else if l = 0x208 then halfOf false s.time.tick else if l = 0x20C then halfOf true s.time.tick
  else if l = 0x210 then halfOf false s.time.lastT.toNat else if l = 0x214 then halfOf true s.time.lastT.toNat
  else if 0x800 ≤ l ∧ l < 0xA00 then
    let i := (l - 0x800) / 64
    match (l - 0x800) % 64 with
    | 0x8 => s.txqidValue i
    | 0xC => halfOf false (s.tspSt i).popped.toNat
    | 0x10 => halfOf true (s.tspSt i).popped.toNat
    | 0x14 => placed v 0 5 (s.tspSt i).queue.length
    | _ => v
  else v

/-- R285: a completion queue has no room. -/
def State.cqFull (s : State) (q : Nat) : Bool :=
  let x := s.pairSt q
  !x.waiting.isEmpty && (x.cqTail + 1) % s.cqSize q == x.cqHead % s.cqSize q
/-- IDLE of a pair: no descriptor in progress or awaiting completion room. -/
def State.pairIdle (s : State) (q : Nat) : Bool :=
  (s.pairSt q).inProgress == 0
def State.viewRing (s : State) (l v : Nat) : Nat :=
  if 0x100 ≤ l ∧ l < 0x900 then
    let q := (l - 0x100) / 64
    let x := s.pairSt q
    match (l - 0x100) % 64 with
    | 0x14 => placed (placed (placed (placed v 31 1 (bit (s.pairIdle q))) 28 1 (bit (s.cqFull q))) 16 5 x.inProgress) 0 16 x.sqHead
    | 0x18 => x.cqTail % 2 ^ 16 + 2 ^ 16 * bit x.phase
    | _ => v
  else if l = 0x90C then
    placed (placed (placed v 31 1 (bit (s.is F.RING_EVR_CTL_EN && s.evRoom == 0))) 29 1 1) 0 16 s.host.evTail
  else if l = 0x92C then
    placed (placed (placed v 31 1 (bit (s.is F.RING_LGR_CTL_EN && s.lgRoom == 0))) 29 1 1) 0 16 s.host.lgTail
  else v

/-- R208: a packet that began before the state of port p changed still passes it. -/
def State.passing (s : State) (n p : Nat) : Bool :=
  (s.router n).begun.any fun e => e.1 == p && decide (PortState.ofCode e.2.2 ≠ s.portState n p)
def State.viewNoc (s : State) (n l v : Nat) : Nat :=
  if l = 4 then
    bitsOf 0 8 (s.reg (R.NOC_PORTCTL n)) +
      (List.range 4).foldl (fun a p => a + 2 ^ (8 + p) * bit (s.passing n p)) 0
  else v

def State.viewNi (s : State) (n l v : Nat) : Nat :=
  let x := s.ni n
  if l = 4 then (s.niState n).code + 4 * s.niCause n + 256 * (64 - min 64 x.reserved) + 65536 * min x.trackers.length 256
  else if l = 0x18 then
    if isRegulated n then wrap 16 (x.tokens / 120) + 65536 * min 255 (x.queued + (x.replies.map fun p => p.pkt.length).foldl (· + ·) 0)
    else 0
  else if l = 0x20 then halfOf false (s.tdataRead n).toNat
  else if l = 0x24 then halfOf true (s.tdataRead n).toNat
  else v

/-- R88: the item CSEL selects; a wire-clocked register is sampled through its synchroniser. -/
def State.cellItem (s : State) (f : Nat) : Word :=
  let m := s.get (F.FLD_CSEL_CLUSTER f)
  let k := s.get (F.FLD_CSEL_CELL f)
  let x := s.cell (cellKey f m k)
  let c := match s.image f with | some i => s.cellCfg i f (64 * m + k) | none => CellCfg.unused
  let len := match s.image f with | some i => i.len m | none => 1
  let reg (r : Nat) : Word := if c.wired r then x.sync.second[r]?.getD 0 else x.now.get r
  match s.get (F.FLD_CSEL_ITEM f) with
  | 0 => reg 0 | 1 => reg 1 | 2 => reg 2 | 3 => reg 3
  | 4 => x.now.latch
  | 5 => BitVec.ofNat 48 (flagsCode x.now.fl)
  | 6 => x.shadow.a | 7 => x.shadow.b | 8 => x.shadow.c | 9 => x.shadow.d
  | 10 => x.shadow.latch
  | 11 => BitVec.ofNat 48 (flagsCode x.shadow.fl)
  | 12 => c.entries.getD (s.get (F.FLD_CSEL_ENTRY f)) 0
  | 13 => c.word
  | 14 => BitVec.ofNat 48 (len - 1 + 16 * (((s.fld f).cycle - (s.fld f).base) % len))
  | _ => 0
/-- R124: the item SSEL selects, and the accumulator sampled whole if it is a low accumulator item; `wide` is the
path's wide latch, bits 111:48. -/
def State.sliceItem (s : State) (f : Nat) (wide : BitVec 64) : Word × Option (BitVec 112) :=
  let i := s.get (F.FLD_SSEL_SLICE f)
  let x := s.slice (sliceKey f i)
  let it := s.get (F.FLD_SSEL_ITEM f)
  let r := if it < 16 then x.now else x.shadow
  let c : SliceCfg := match s.image f with | some g => s.sliceCfg g f i | none => SliceCfg.unused
  let acc (a : BitVec 112) : Word × Option (BitVec 112) := (a.extractLsb' 0 48, some a)
  match it with
  | 0xD => (c.entries.getD (s.get (F.FLD_SSEL_ENTRY f)) 0, none)
  | 0xE => (c.word, none)
  | 0xF => (0, none)
  | _ =>
    match it % 16 with
    | 0 => (r.a, none) | 1 => (r.b, none) | 2 => (r.c, none) | 3 => (r.x, none) | 4 => (r.xd, none)
    | 5 => (r.latch, none)
    | 6 => (BitVec.ofNat 48 (flagsCode r.fl), none)
    | 7 => acc r.acc0
    | 8 => (wide.extractLsb' 0 48, none)
    | 9 => ((wide.extractLsb' 48 16).zeroExtend 48, none)
    | 10 => acc r.acc1
    | 11 => (wide.extractLsb' 0 48, none)
    | 12 => ((wide.extractLsb' 48 16).zeroExtend 48, none)
    | _ => (0, none)

/-- Table 4-7: the fences at the edges of field f; fields lie in four rows of six. -/
def State.fenceBits (s : State) (f : Nat) : Nat :=
  bit (decide (f % 6 ≠ 0) && s.fencedOff (f - 1)) + 2 * bit (decide (f / 6 < 3) && s.fencedOff (f + 6)) +
    4 * bit (decide (f % 6 < 5) && s.fencedOff (f + 1)) + 8 * bit (decide (6 ≤ f) && s.fencedOff (f - 6))
/-- Held segments of field f. -/
def State.heldSegs (s : State) (f : Nat) : Nat :=
  (s.segs.filter fun e => decide (2048 * f ≤ e.1 ∧ e.1 < 2048 * f + 128) && e.2.held).length

def State.viewFld (s : State) (f l v : Nat) : Nat :=
  let x := s.fld f
  if l = 4 then
    placed (placed v 2 1 (bit (decide (x.phase = .late ∨ x.phase = .lateDone)))) 1 1 (bit x.doneAt.isSome) +
      8 * bit (decide (x.phase = .stuck))
  else if l = 0x44 then halfOf false (s.cellItem f).toNat
  else if l = 0x48 then halfOf true (s.cellItem f).toNat
  else if l = 0x68 then
    let h := s.heldSegs f
    placed (placed v 15 1 (bit (decide (0 < h)))) 7 8 h
  else if l = 0x6C then s.fenceBits f
  else if l = 0xC4 then placed v 3 12 (x.snapTick % 4096)
  else if l = 0xC8 then
    let j := s.get (F.FLD_QCWP_BLOCK f)
    placed v 12 12 (if j < 192 then s.cwpOf f (s.queue (memKey f j)) else 0)
  else if 0x400 ≤ l ∧ l < 0x1000 then
    let j := (l - 0x400) / 16
    let q := s.queue (memKey f j)
    match (l - 0x400) % 16 with
    | 8 => placed (placed (placed v 27 1 (bit q.q.stop)) 12 12 q.q.rp) 0 12 q.q.wp
    | 12 => s.crpOf f q % 4096 + 4096 * ((q.q.wp + 4096 - q.q.rp) % 4096)
    | _ => v
  else v

def State.viewCfg (s : State) (l v : Nat) : Nat :=
  if l = 4 then
    placed (placed v 17 1 (bit s.noOwner)) 0 4
      (match s.cfg.load with | some p => p.phase.code | none => 0)
  else if l = 0x30 then
    placed (placed v 0 4 ((List.range 4).foldl (fun a k => a + 2 ^ k * bit (s.ownerDigest k != [])) 0)) 4 4 s.fuses.revoked
  else v

/-- Table 13-9, Table 13-10: lanes 0 to 15 belong to the host bridge; only CTLE, EYE, LAT and CNT apply to them. -/
def viewLane (i l v : Nat) : Nat :=
  if 16 ≤ i then v
  else match l with
    | 0 => 2 ^ 31
    | 4 => placed v 0 3 1
    | _ => v

/-- R438, R439: the fuse slots used, and whether the root is programmed. -/
def State.viewBist (s : State) (l v : Nat) : Nat :=
  if l = 0x208 then s.fuses.records.length % 1024 + 2 ^ 10 * bit s.fuses.root.isSome + 2 ^ 11 * bit s.bist.prog.isSome
  else if 0x400 ≤ l ∧ l < 0xC00 then (s.fuses.records.getD ((l - 0x400) / 4) 0).toNat
  else v

def State.viewDbg (s : State) (p : Path) (l v : Nat) : Nat :=
  if l = 4 then
    placed (placed (placed v 7 1 (bit s.straps.dbgEn)) 5 1 (bit s.mode.ov.halt)) 4 1 (bit (s.dbg.halt.isSome || s.dbg.resume.isSome))
  else if l = 0x30 then placed v 29 1 (bit (s.reservation p).isSome)
  else if l = 0x70C then halfOf false (SMap.get s.dbg.trace 0 (s.get F.DBG_TRC_RIDX_IDX)).toNat
  else if l = 0x710 then halfOf true (SMap.get s.dbg.trace 0 (s.get F.DBG_TRC_RIDX_IDX)).toNat
  else v

/-- Table 17-6: the domain in transition, the lowest of several. -/
def State.viewDombusy (s : State) : Nat :=
  let d := (List.find? (fun e => e.2 != 0) s.power.steps).getD (0, 0)
  2 ^ 31 * bit s.power.waiting + 256 * d.1 + d.2

/-- A staged value waits in this instance of a block (COMMIT.PEND); an NI's inactive bank counts (R227). -/
def State.stagedIn (s : State) (b : BlockDesc) (i : Nat) : Bool :=
  let lo := b.base + b.stride * i
  let hi := if b.stride = 0 then b.base + b.span else lo + b.stride
  (s.staged.any fun e => decide (lo ≤ e.1 ∧ e.1 < hi)) || (decide (b.block = .ni) && (s.ni i).written)

/-- The registers that stay readable while their domain is off: what CRY keeps in AO (R378) and the soft records (R438). -/
def alwaysRead (off : Nat) : Bool :=
  decide (off = 0x130018 ∨ off = 0x130020 ∨ off = 0x130024 ∨ (0x130040 ≤ off ∧ off ≤ 0x13005C) ∨
    (0x160100 ≤ off ∧ off < 0x160200))
/-- The channel a per-channel MIG register belongs to. -/
def migChannel (l : Nat) : Option Nat :=
  if 0x10 ≤ l ∧ l < 0xF0 then some ((l - 0x10) / 4 % 8)
  else if 0x100 ≤ l ∧ l < 0x120 then some ((l - 0x100) / 4)
  else if 0x1000 ≤ l ∧ l < 0x1800 then some ((l - 0x1000) / 256)
  else none
/-- The register's domain is on, that of its channel for a per-channel MIG register, or it stays readable. -/
def State.readable (s : State) (x : RegAt) : Bool :=
  alwaysRead x.ref.off ||
    (s.domainOn (x.block.domainAt x.inst) &&
      (match x.block.block with
       | .mig => (match migChannel x.loc with | some c => s.domainOn (28 + c) | none => true)
       | _ => true))

/-- What the register shows, before the access code masks what reads as 0. -/
def State.view (s : State) (p : Path) (x : RegAt) : Nat :=
  let v := s.reg x.ref
  let l := x.loc
  let i := x.inst
  if x.block.commit ≠ .none ∧ l = 0xFC then placed v 4 1 (bit (s.stagedIn x.block i))
  else match x.block.block with
    | .glb => if l = 0 then s.mode.top.code + 16 * s.mode.base.code + 256 * bit s.mode.busy else if l = 8 then s.mode.act else v
    | .pwr => if l = 0x20 then s.viewDombusy else v
    | .time => s.viewTime l v
    | .tt => if 0x100 ≤ l ∧ l < 0x200 then (s.column ((l - 0x100) / 4)).entries.length + 1024 * (s.column ((l - 0x100) / 4)).head else v
    | .ring => s.viewRing l v
    | .noc => s.viewNoc i l v
    | .ni => s.viewNi i l v
    | .fld => s.viewFld i l v
    | .cfg => s.viewCfg l v
    | .scr => if l = 8 then placed v 0 5 (min s.cfg.repairs.length 16) else v
    | .drc => if l = 0x18 then s.reg (R.DRC_AMAP 0) else v
    | .mig => if 0xC00 ≤ l ∧ l < 0x1000 ∧ l % 32 = 12 then v ||| 15 else v
    | .lane => viewLane i l v
    | .stg => if l = 4 then placed v 0 3 (s.portState13 i) else v
    | .stw => if l = 8 then placed v 24 8 ((Config.romValue 0x150008).toNat / 2 ^ 24) else v
    | .bist => s.viewBist l v
    | .dbg => s.viewDbg p l v
    | _ => v

/-- R9, R15: WO and KEY fields and reserved bits read 0. -/
def RegDesc.readMask (r : RegDesc) : Nat := r.bitsWhere fun f => f.access != .wo && f.access != .key
/-- R8 to R15: the value a read of a register returns. -/
def State.regValue (s : State) (p : Path) (x : RegAt) : Nat :=
  if s.readable x then s.view p x &&& x.desc.readMask else 0

/-! ## The diagnostic windows -/

/-- Table 22-4: an unconfirmed command, by its place in issue order. -/
def drcrbSlot (e : DramCmd) (w : Nat) : Nat :=
  match w with
  | 0 => 2 ^ 31 + 2 ^ 28 * (e.code % 8) + 2 ^ 22 * (e.bank % 64) + 32 * (e.row % 2 ^ 17)
  | 1 => 2 ^ 18 * (e.who.ctx % 128) + 2 ^ 11 * (e.who.src % 128) + 128 * (e.who.port % 16) + e.line % 128
  | 2 => e.time.toNat / 65536
  | _ => e.who.seq.toNat
/-- R485: a word of DRCRB[c], valid while the channel is FROZEN or ISOLATED. -/
def State.drcrbWord (s : State) (c o : Nat) : Nat :=
  let x := s.dram c
  let st := s.get (F.DRC_STAT_STATE c)
  if st ≠ 4 ∧ st ≠ 5 then 0
  else match x.frozen with
    | none => 0
    | some (t, byCrc) =>
      if o = 0 then 2 ^ 31 + 65536 * bit byCrc + 256 * x.retry.length + x.oldest % 64
      else if o = 8 then halfOf false t.toNat
      else if o = 12 then halfOf true t.toNat
      else if 0x100 ≤ o ∧ o < 0x500 then
        match x.retry[((o - 0x100) / 16 + 64 - x.oldest % 64) % 64]? with
        | some e => drcrbSlot e ((o - 0x100) / 4 % 4)
        | none => 0
      else 0
/-- R486: a 48-bit entry of TTW. -/
def State.ttwWord (s : State) (e : Nat) : Word :=
  let c := s.column (e / 2048)
  match c.entries[((e / 4) % 512 + 512 - c.head % 512) % 512]? with
  | some t => (match e % 4 with | 0 => t.time | 1 => t.period | 2 => t.w2 | _ => t.arg)
  | none => 0
/-- R487: a 48-bit entry of NIT[n]. -/
def State.nitWord (s : State) (n bank k : Nat) : Word :=
  let t := if bank = 0 then (s.ni n).inactive else (s.ni n).active
  if k < 256 then t.read 0 k else if k < 768 then t.read 1 (k - 256) else if k < 888 then t.read 2 (k - 768) else 0
/-- R484: the 48-bit entry a window offset lies in, where it holds one. -/
def State.windowEntry (s : State) (off : Nat) : Option Word :=
  if 0x500000 ≤ off ∧ off < 0x500000 + 32 * 512 * 64 then
    some (if s.domainOn 1 then s.ttwWord ((off - 0x500000) / 8) else 0)
  else if 0x600000 ≤ off ∧ off < 0x600000 + 0x4000 * 96 then
    let o := off - 0x600000
    some (if s.domainOn 2 then s.nitWord (o / 0x4000) (o / 0x2000 % 2) (o % 0x2000 / 8) else 0)
  else none
/-- A word of a window. -/
def State.windowWord (s : State) (off : Nat) : Nat :=
  if 0x400000 ≤ off ∧ off < 0x408000 then
    let c := (off - 0x400000) / 0x1000
    if s.domainOn (28 + c) then s.drcrbWord c (off % 0x1000) else 0
  else match s.windowEntry off with
    | some w => halfOf (decide (off % 8 = 4)) w.toNat
    | none => 0

/-- The MSI-X structure: the table's vector words (Table 12-13 and the PCI Express specification) and the pending bits. -/
def msixReg (off : Nat) : Option RegRef :=
  if 0x70000 ≤ off ∧ off < 0x70000 + 16 * 64 then some (if off % 16 = 12 then ⟨off, 1⟩ else ⟨off, 0⟩)
  else if off = 0x78000 ∨ off = 0x78004 then some ⟨off, 0⟩
  else none

end Sys2Proof.Machine
end

