-- ==== Sys2Proof/Machine/Commit.lean ====
section
/-! DEFINITION. Commit points (R13, R14, R48 to R53): what a block's staged values do when they commit, GO, DISCARD and HOLD. -/
namespace Sys2Proof.Machine

/-! ## Staged values -/

/-- The BAR0 range of an instance. -/
def BlockDesc.lo (b : BlockDesc) (i : Nat) : Nat := b.base + b.stride * i
def BlockDesc.hi (b : BlockDesc) (i : Nat) : Nat := if b.stride = 0 then b.base + b.span else b.lo i + b.stride
def BlockDesc.holds (b : BlockDesc) (i off : Nat) : Bool := decide (b.lo i ≤ off ∧ off < b.hi i)
/-- What waits in an instance, and the state without it. -/
def State.stagedOf (s : State) (b : BlockDesc) (i : Nat) : SMap Staged := List.filter (fun e => b.holds i e.1) s.staged
def State.unstage (s : State) (b : BlockDesc) (i : Nat) : State :=
  { s with staged := List.filter (fun e => !b.holds i e.1) s.staged }

/-- Bits of `val` where `mask` is 1, of `old` elsewhere. -/
def mergeBits (mask val old : Reg) : Reg := (val &&& mask) ||| (old &&& ~~~mask)
/-- R52: the value that takes effect: the host's bits win over the steward's. -/
def Staged.value (x : Staged) (old : Reg) : Reg := mergeBits x.hostMask x.hostVal (mergeBits x.stwMask x.stwVal old)
/-- R52: host and steward staged a field both. -/
def Staged.clash (x : Staged) : Bool := x.hostMask &&& x.stwMask != 0
/-- One staged register takes effect; a steward value that is dropped is logged. -/
def State.applyStaged (s : State) (e : Nat × Staged) : State :=
  match regAt e.1 with
  | none => s
  | some x =>
    let s := s.setReg x.ref (e.2.value (BitVec.ofNat 32 (s.reg x.ref))).toNat
    if e.2.clash then s.logEntry 0x0F9 92 0 0 else s
def State.applyAll (s : State) (es : SMap Staged) : State := es.foldl State.applyStaged s
/-- A register is among staged ones. -/
def hasReg (es : SMap Staged) (off : Nat) : Bool := es.any fun e => e.1 == off

/-! ## TIME and PWR -/

/-- R42, R155: the fields whose need the staged PERIOD would break. -/
def State.periodBreaks (s : State) (p : Nat) : List Nat :=
  let bad (x : FieldImage) : Bool := needBroken x.need x.prot (max 6 p) (s.get F.CFG_OPMIN_DEV)
  allFields.filter fun f => (s.image f).any bad || s.accepted.any fun e => e.1 == f && bad e.2
/-- A refused PERIOD. -/
def State.periodReject (s : State) (p : Nat) (bad : List Nat) : State :=
  let s := s.forEach bad fun s f => s.raise (F.FLD_FSTAT_NEEDREJ f)
  let s := s.post 0x08C 93 bad.length
  s.logEntry 0x08C 93 (bad.foldl (fun m f => m + 2 ^ f) 0 + 2 ^ 24 * (p % 2 ^ 24)) 0
def State.commitTime (s : State) (es : SMap Staged) : State :=
  match List.find? (fun e => e.1 == R.TIME_TICK_PERIOD.off) es with
  | none => s.applyAll es
  | some e =>
    let p := bitsOf 0 17 (e.2.value (BitVec.ofNat 32 (s.reg R.TIME_TICK_PERIOD))).toNat
    let bad := s.periodBreaks p
    if bad.isEmpty then s.applyAll es
    else (s.applyAll (List.filter (fun e => e.1 != R.TIME_TICK_PERIOD.off) es)).periodReject p bad

/-- A full load, or a partial load that names the domain's field, is running or accepted. -/
def State.loadHolds (s : State) (d : Nat) : Bool :=
  match s.cfg.load with
  | none => false
  | some l =>
    match l.info with
    | none => true
    | some i => i.full || (decide (4 ≤ d ∧ d < 28) && i.fieldMap.getLsbD (d - 4))
/-- R387: a request to switch domain d is refused. -/
def State.domainRefused (s : State) (d : Nat) (on : Bool) : Bool :=
  s.loadHolds d || s.mode.ov.selfTest ||
    (decide (28 ≤ d ∧ d < 28 + s.nch) && s.is F.CFG_CTL_STOREEN) ||
    (d == 40 && !on && (s.is F.CRY_CTL_EN || s.is F.CRY_RN_ACTIVE))
/-- The bit of a domain in DOMCTL. -/
def domctlBit (d : Nat) : Fld := if d < 32 then ⟨R.PWR_DOMCTL0, d, 1⟩ else ⟨R.PWR_DOMCTL1, d - 32, 1⟩
/-- A refused request: DOMCTL keeps its value, and a refused shed is logged and tried again (R419). -/
def State.domainReject (s : State) (d : Nat) (on bySteward : Bool) : State :=
  let s := (s.put (domctlBit d) (bit (!on))).raise F.PWR_ERR_DOMREJ
  if bySteward then
    let sh := if on then s.stw.shed ++ [d] else s.stw.shed.filter (· != d)
    ({ s with stw := { s.stw with shed := sh } } : State).logOpen 92 d
  else s
/-- The values of PWR take effect, and domains change. -/
def State.commitDomains (s : State) (es : SMap Staged) : State :=
  let old (d : Nat) : Bool := s.domainWanted d
  let stw (d : Nat) : Bool :=
    es.any fun e => e.1 == (domctlBit d).reg.off && e.2.hostMask == 0
  let t := s.applyAll es
  let t := t.forEach (switchable.filter fun d => t.domainWanted d != old d && s.domainRefused d (t.domainWanted d)) fun t d =>
    t.domainReject d (t.domainWanted d) (stw d)
  if hasReg es R.PWR_DOMCTL0.off || hasReg es R.PWR_DOMCTL1.off then t.powerChange else t
/-- A request for point j is taken in; a held one is kept no longer (R59). -/
def State.takeRequest (s : State) (j : Nat) : State :=
  let s : State := { s with power := { s.power with asked := none } }
  let s := if s.opAllowed j then (s.clear F.PWR_OPSTAT_HELD).clear F.PWR_OPSTAT_HELDOP else s
  s.opRequest j
/-- A commit point of PWR takes in what was asked for while PWR was disabled, and a held request (R59). -/
def State.takeAsked (s : State) : State :=
  (match s.power.asked with | some j => s.takeRequest j | none => s).opHeldRequest
/-- PWR commits: domains, and an operating-point request. -/
def State.commitPwr (s : State) (es : SMap Staged) : State :=
  let t := s.commitDomains es
  if hasReg es R.PWR_OPREQ.off then t.takeRequest (t.get F.PWR_OPREQ_OP) else t
/-- PWR is disabled: its values take effect at once, but a point changes only at a tick while ticks run (R18, R56). -/
def State.effectPwr (s : State) (es : SMap Staged) : State :=
  if hasReg es R.PWR_OPREQ.off && s.is F.TIME_STATUS_TICKS then
    let t := s.commitDomains es
    { t with power := { t.power with asked := some (t.get F.PWR_OPREQ_OP) } }
  else s.commitPwr es

/-! ## MIG and CRY -/

/-- R347: an enabled region entry passes. -/
def State.regionOk (s : State) (r : Nat) : Bool :=
  let b := s.rgnBase r
  let l := s.rgnLimit r
  let c := s.get (F.MIG_REGION_CTL_CRYPTO r)
  let k := s.get (F.MIG_REGION_CTL_KEYID r)
  let g := 16 * 16 * s.nch
  decide (b ≤ l) && (!s.is (F.MIG_REGION_CTL_CODE r) || (decide (b % g = 0) && decide ((l + 1) % g = 0))) &&
    decide (c ≠ 3) && (if c = 0 then k == 0 else k != 0)
def State.regionsOk (s : State) : Bool := (List.range 32).all fun r => !s.is (F.MIG_REGION_CTL_EN r) || s.regionOk r
/-- An enabled exclusion entry passes: its addresses or its rows are in order, and a row entry's other bits are 0 (DEDUCED). -/
def State.exclOk (s : State) (e : Nat) : Bool :=
  let a := s.pair (R.MIG_EXCL_A_LO e) (R.MIG_EXCL_A_HI e)
  let b := s.pair (R.MIG_EXCL_B_LO e) (R.MIG_EXCL_B_HI e)
  if s.is (F.MIG_EXCL_CTL_KIND e) then decide (a < 2 ^ 26) && decide (b < 2 ^ 17) && decide (bitsOf 9 17 a ≤ b) else decide (a ≤ b)
def State.exclsOk (s : State) : Bool := (List.range 64).all fun e => !s.is (F.MIG_EXCL_CTL_EN e) || s.exclOk e
/-- The region of the running renewal. -/
def State.renewing (s : State) : Option Nat := if s.is F.CRY_RN_ACTIVE then some (s.get F.CRY_RN_REGION) else none
/-- What a renewal's region must keep. -/
def State.regionEntry (s : State) (r : Nat) : List Nat :=
  [s.reg (R.MIG_REGION_CTL r), s.rgnBase r, s.rgnLimit r, s.ctrBase r]
/-- R377: a key ID that an enabled region may name. -/
def State.keysOk (s : State) : Bool :=
  (List.range 32).all fun r => !s.encrypted r ||
    (let k := s.keyState (s.get (F.MIG_REGION_CTL_KEYID r)); k != 0 && k != 4 && k != 5)
/-- The keys that enabled regions name, and a renewal's two. -/
def State.namedKeys (s : State) : List Nat :=
  ((List.range 32).filter s.encrypted).map (fun r => s.get (F.MIG_REGION_CTL_KEYID r)) ++
    (if s.is F.CRY_RN_ACTIVE then [s.get F.CRY_RN_NEWKEY, s.get F.CRY_RN_OLDKEY] else [])
/-- Table 16-3: a key is INUSE while it is named, and LOADED when it is named no longer. -/
def State.syncKeys (s : State) : State :=
  let named := s.namedKeys
  s.forEach ((List.range 63).map (· + 1)) fun s k =>
    let st := s.keyState k
    if named.contains k then (if st = 1 ∨ st = 2 then s.setKeyState k 3 else s)
    else if st = 3 then s.setKeyState k 1 else s

/-- The word addresses at which some enabled region begins or ends. -/
def State.regionCuts (s : State) : List Nat :=
  ((List.range 32).filter fun r => s.is (F.MIG_REGION_CTL_EN r)).flatMap fun r => [s.rgnBase r, s.rgnLimit r + 1]
/-- R348, R356: between the tables of `old` and those of `s`, lines whose CODE, CRYPTO or KEYID changes are unwritten. The
address space is looked at interval by interval from word `a`. -/
def State.openChanged (old s : State) (cuts : List Nat) : Nat → Nat → State
  | 0, _ => s
  | n + 1, a =>
    let next := (cuts.filter fun c => decide (a < c)).foldl min (2 ^ 48)
    let x := old.lineRgn a
    let y := s.lineRgn a
    let t := if x.nested = y.nested ∧ x.crypto = y.crypto ∧ x.key = y.key then s else s.openLines (a / 16) (next / 16 - 1)
    if 2 ^ 48 ≤ next then t else openChanged old t cuts n next
/-- A commit of MIG or CRY that a check refuses: its staged values stay. -/
def State.commitFails (s : State) (f : Fld) (es : SMap Staged) (src : Nat) : State :=
  let s := (s.raise f).logOpen src 0
  { s with staged := es.foldl (fun m e => SMap.insert m e.1 e.2) s.staged }
/-- Regions whose areas break R368 under the tables now in effect. -/
def State.barAreas (s : State) : State :=
  let bad := (List.range 32).filter fun r => s.encrypted r && !s.areaOk r
  if bad.isEmpty then s else { s.raise F.CRY_STAT_CFGBAD with cry := { s.cry with barred := bad } }
/-- MIG commits (R347, R348, R361, R371, R377, R381). -/
def State.commitMig (s : State) (es : SMap Staged) : State :=
  let t := s.applyAll es
  if !t.regionsOk then s.commitFails F.MIG_STAT_REGBAD es 72
  else if !t.exclsOk then s.commitFails F.MIG_STAT_EXCLBAD es 72
  else if !t.keysOk || (match s.renewing with | some r => t.regionEntry r != s.regionEntry r | none => false) then
    s.commitFails F.CRY_STAT_CFGBAD es 72
  else
    let s := s.flushCache
    let t := s.applyAll es
    let t := State.openChanged s t (s.regionCuts ++ t.regionCuts) 130 0
    t.syncKeys.barAreas
/-- CRY commits (R368, R371, R377, R381). -/
def State.commitCry (s : State) (es : SMap Staged) : State :=
  let t := s.applyAll es
  if !((List.range 32).all fun r => !t.encrypted r || t.areaOk r) || !t.keysOk ||
      (match s.renewing with | some r => t.regionEntry r != s.regionEntry r | none => false) then
    s.commitFails F.CRY_STAT_CFGBAD es 72
  else
    let t := s.flushCache.applyAll es
    { t with cry := { t.cry with barred := [] } }

/-! ## The commit of an instance -/

/-- STW commits: settings outside their new envelopes move (R415), and a committed PERIOD loads the watchdog (R425). -/
def State.commitStw (s : State) (es : SMap Staged) : State :=
  let s := s.applyAll es
  let s := s.forEach ((List.range 12).filter fun k => hasReg es (0x150400 + 8 * k) || hasReg es (0x150404 + 8 * k)) State.clampLoop
  if hasReg es R.STW_WD_CTL.off then s.wdLoad else s
/-- R239: a DEPTH below a regulated NI's level lowers it. -/
def State.niLower (s : State) (n : Nat) : State :=
  if isRegulated n then s.setNi n { s.ni n with tokens := min (s.ni n).tokens (1920 * s.niDepth n) } else s
/-- The staged values of an instance take effect. -/
def State.commitInst (s : State) (b : BlockDesc) (i : Nat) : State :=
  let es := s.stagedOf b i
  let s := s.unstage b i
  match b.block with
  | .time => s.commitTime es
  | .pwr => s.commitPwr es
  | .mig => s.commitMig es
  | .cry => s.commitCry es
  | .ni => ((s.applyAll es).niLower i).niSwap i
  | .trg => if es.isEmpty then s else (s.applyAll es).settleAll
  | .stw => s.commitStw es
  | _ => s.applyAll es

/-! ## The COMMIT register (Table 2-6) -/

/-- The COMMIT register of an instance. -/
def BlockDesc.commitReg (b : BlockDesc) (i : Nat) : RegRef := ⟨b.lo i + 0xFC, 0⟩
/-- R53, R54: no commit point occurs for the block now: its field's in SAFE-HOLD and FREEZE. -/
def State.mayCommit (s : State) (b : BlockDesc) (i : Nat) : Bool :=
  decide (b.block ≠ .fld) || !s.fldEnabled i || !(s.mode.ov.safeHold || s.mode.ov.freeze)
/-- R48, R49: a write of 1 to GO: it commits a GO-kind block, or a TICK-kind block when no tick runs, or arms. -/
def State.commitGo (s : State) (b : BlockDesc) (i : Nat) : State :=
  match b.commit with
  | .none => s
  | .go => s.commitInst b i
  | .tick =>
    if s.is F.TIME_STATUS_TICKS then s.arm (b.commitReg i)
    else if s.mayCommit b i then
      let s := s.commitInst b i
      if b.block = .pwr then s.takeAsked else s
    else s
/-- R50: a write of 1 to DISCARD. An NI's inactive bank takes back the active one. -/
def State.commitDiscard (s : State) (b : BlockDesc) (i : Nat) : State :=
  let s := s.unstage b i
  if b.block = .ni then s.setNi i { s.ni i with inactive := (s.ni i).active, written := false } else s
/-- A write of a COMMIT register. -/
def State.commitWrite (s : State) (b : BlockDesc) (i v : Nat) : State :=
  let s := if b.commit = .tick then s.put (cHold (b.commitReg i)) (bitsOf 3 1 v) else s
  if bitOf 1 v then s.commitDiscard b i else if bitOf 0 v then s.commitGo b i else s
/-- R49: a tick commits a TICK-kind instance, if it is armed or holds nothing back. -/
def State.commitTick (s : State) (b : BlockDesc) (i : Nat) : State :=
  let r := b.commitReg i
  let armed := s.is (cArmed r)
  let s := if armed then s.clear (cArmed r) else s
  if s.is (cHold r) && !armed then s else s.commitInst b i

/-- The COMMIT register a command names lies in this instance of a block that has one. -/
def commitAt (off : Nat) : Option (BlockDesc × Nat) :=
  match blockAt off with
  | some (b, i) => if b.commit ≠ .none ∧ i < b.count ∧ b.localOff off = 0xFC then some (b, i) else none
  | none => none

/-! ## Blocks that are disabled (R12, R14) -/

/-- The block of the table with this name. -/
def blockOf (k : Block) : Option BlockDesc := blockTable.find? fun b => b.block == k
/-- What waits in an instance takes effect at once. The table banks of an NI still swap at its commit points alone. -/
def State.effectNow (s : State) (b : BlockDesc) (i : Nat) : State :=
  match b.block with
  | .ni => ((s.unstage b i).applyAll (s.stagedOf b i)).niLower i
  | .pwr => (s.unstage b i).effectPwr (s.stagedOf b i)
  | _ => s.commitInst b i
/-- R12, R32, R54, R215, R277, R410 and the blocks' chapters: whether an instance of a block counts as enabled; `l` is the
offset in the instance of the register looked at. -/
def State.blockOn (s : State) (b : Block) (i l : Nat) : Bool :=
  match b with
  | .glb => decide (s.mode.top ≠ .bare)
  | .pwr => s.mode.timeEnabled
  | .clk => decide (s.mode.top ≠ .bare) && decide (s.mode.top ≠ .safeHold)
  | .time => s.mode.timeEnabled
  | .hb => s.is F.HB_CTL_EN
  | .ring =>
    if 0x900 ≤ l ∧ l < 0x920 then s.is F.RING_EVR_CTL_EN
    else if 0x920 ≤ l then s.is F.RING_LGR_CTL_EN
    else s.is (F.RING_QP_CTL_EN ((l - 0x100) / 64)) || !s.pairIdle ((l - 0x100) / 64)
  | .ni => s.niEnabled i
  | .fld => s.fldEnabled i
  | .cfg => s.is F.CFG_CTL_STOREEN
  | .drc => s.is (F.DRC_CTL_EN i)
  | .cry => s.is F.CRY_CTL_EN
  | .lane => decide (i < 16) || s.is (F.LANE_CTL_EN i) ||
      (s.laneUse i == 2 && decide (lanePort i < 6) && s.is (F.STG_CTL_EN (lanePort i)))
  | .stg => s.is (F.STG_CTL_EN i)
  | .bist => s.mode.ov.selfTest
  | .dbg => s.is F.DBG_CTL_EN
  | _ => true
/-- The domain of an instance, or the domain of an NI's block side, is switching off, in VALLEY entry too, or is off. -/
def State.goingOff (s : State) (b : BlockDesc) (i : Nat) : Bool :=
  let going (d : Nat) : Bool := decide (2 ≤ s.domStep d) || !s.domainOn d
  going (b.domainAt i) || (b.block == .ni && switchable.any fun d => (domainNis d).contains i && going d)
/-- R14: values staged in instances that are disabled take effect; those of a block whose domain switches off are discarded
(R53). -/
def State.flushDisabled (s : State) : State :=
  s.staged.foldl (fun s e =>
    if (SMap.find? s.staged e.1).isNone then s
    else match blockAt e.1 with
      | some (b, i) =>
        if s.blockOn b.block i (b.localOff e.1) then s else if s.goingOff b i then s.unstage b i else s.effectNow b i
      | none => s) s

end Sys2Proof.Machine
end

