-- ==== Sys2Proof/Machine/Limty.lean ====
section
/-! DEFINITION. The Limty table (chapter 22): its header, block records, descriptors, lists and names, and its CRC. -/
namespace Sys2Proof.Machine

/-! ## Block records (R479) -/

/-- TYPE of a block of Table 22-6, in its order, and its prefix. -/
def Block.code (b : Block) : Nat :=
  match b with
  | .lim => 1 | .glb => 2 | .pwr => 3 | .clk => 4 | .time => 5 | .tt => 6 | .trg => 7 | .hb => 8 | .ring => 9 | .msix => 10
  | .noc => 11 | .ni => 12 | .fld => 13 | .cfg => 14 | .scr => 15 | .drc => 16 | .mig => 17 | .cry => 18 | .lane => 19
  | .stg => 20 | .stw => 21 | .bist => 22 | .dbg => 23 | .gpb => 24
def Block.label (b : Block) : String :=
  match b with
  | .lim => "LIM" | .glb => "GLB" | .pwr => "PWR" | .clk => "CLK" | .time => "TIME" | .tt => "TT" | .trg => "TRG" | .hb => "HB"
  | .ring => "RING" | .msix => "MSIX" | .noc => "NOC" | .ni => "NI" | .fld => "FLD" | .cfg => "CFG" | .scr => "SCR"
  | .drc => "DRC" | .mig => "MIG" | .cry => "CRY" | .lane => "LANE" | .stg => "STG" | .stw => "STW" | .bist => "BIST"
  | .dbg => "DBG" | .gpb => "GPB"
/-- Descriptors of a block, and of the blocks before it. -/
def BlockDesc.ndesc (b : BlockDesc) : Nat := (b.regs.map fun r => 1 + r.fields.length).foldl (· + ·) 0
def descsBefore (k : Nat) : Nat := ((blockTable.take k).map BlockDesc.ndesc).foldl (· + ·) 0
def CommitKind.code : CommitKind → Nat | .none => 0 | .tick => 1 | .go => 2
/-- DINC, DVAR and DOMAIN of a block record. -/
def DomainOf.bits : DomainOf → Nat
  | .one d => 4 * d
  | .perInst d => 512 + 4 * d
  | .lane => 256 + 4 * 36
  | .stg => 256 + 4 * 36

/-! ## Names (R482) -/

/-- The names in the order of the block records, then of the descriptors, one for each (DESIGN CHOICE, log entry 6: no
rule gives the order of the table, or whether equal names share a place). -/
def limNames : List String :=
  blockTable.map (·.block.label) ++ ["DRCRB", "TTW", "NIT"] ++
    blockTable.flatMap fun b => b.regs.flatMap fun r => r.name :: r.fields.map (·.name)
/-- The NAME of the n-th: its byte offset. -/
def nameAt (n : Nat) : Nat := ((limNames.take n).map fun x => x.length + 1).foldl (· + ·) 0
/-- The string table: ASCII names, each ended by a 0 byte. -/
def limStrings : List Byte := limNames.flatMap fun x => x.toList.map (fun c => BitVec.ofNat 8 c.toNat) ++ [0]

/-- Word w of block record k (Table 22-2). -/
def limRecord (k w : Nat) : Nat :=
  match blockTable[k]? with
  | some b =>
    match w with
    | 0 => 65536 + b.block.code
    | 1 => b.base
    | 2 => b.stride
    | 3 => 65536 * b.regs.length + b.count
    | 4 => if b.regs.isEmpty then 0 else 0x200000 + 16 * descsBefore k
    | 5 => b.ndesc
    | 6 => nameAt k
    | _ => b.domain.bits + b.commit.code
  | none =>
    let win : Nat × Nat × Nat × Nat × Nat := match k - blockTable.length with
      | 0 => (0x100, 0x400000, 0x1000, 8, 512 + 4 * 28)
      | 1 => (0x101, 0x500000, 0, 1, 4 * 1)
      | _ => (0x102, 0x600000, 0x4000, 96, 4 * 2)
    match w with
    | 0 => 65536 + win.1 | 1 => win.2.1 | 2 => win.2.2.1 | 3 => win.2.2.2.1 | 4 => 0 | 5 => 0
    | 6 => nameAt k
    | _ => win.2.2.2.2

/-! ## Descriptors and lists (R480, R481) -/

def FieldClass.code : FieldClass → Nat | .static => 0 | .shadow => 1 | .live => 2
def Access.code : Access → Nat | .ro => 0 | .rw => 1 | .wo => 2 | .w1c => 3 | .w1s => 4 | .rc => 5 | .rp => 6 | .key => 7
def PairHalf.code : PairHalf → Nat | .single => 0 | .lo => 1 | .hi => 2

/-- A descriptor: of a register, or of one of its fields. -/
structure LimDesc where
  block : BlockDesc
  reg : RegDesc
  field : Option FieldDesc
/-- The descriptors in order. -/
def limDescs : List LimDesc :=
  blockTable.flatMap fun b => b.regs.flatMap fun r => ⟨b, r, none⟩ :: r.fields.map fun f => ⟨b, r, some f⟩
/-- The reset value of a register in instance i at element e. -/
def LimDesc.resetAt (d : LimDesc) (i e : Nat) : Nat :=
  match d.block.block with
  | .ni => if d.reg.off = 0 then niCtlReset i else if d.reg.off = 0x14 then niRegReset i
      else if d.reg.off = 0x18 then niRegstatReset i else d.reg.rst
  | .hb => if d.reg.off = 0x40 then ivselReset e else d.reg.rst
  | .stw => if d.reg.off = 0x400 then envCtlReset e else if d.reg.off = 0x404 then envLimReset e else d.reg.rst
  | _ => d.reg.rst
/-- A field's reset values, by instance, outer and inner index, the last varying fastest. -/
def LimDesc.values (d : LimDesc) (f : FieldDesc) : List Nat :=
  (List.range d.block.count).flatMap fun i => (List.range (max 1 d.reg.count2)).flatMap fun _ =>
    (List.range (max 1 d.reg.count)).map fun e => bitsOf f.lo f.w (d.resetAt i e)
/-- Whether a register has elements whose reset values can differ. -/
def LimDesc.listed (d : LimDesc) : Bool :=
  match d.block.block with
  | .ni => d.reg.off == 0 || d.reg.off == 0x14 || d.reg.off == 0x18
  | .hb => d.reg.off == 0x40
  | .stw => d.reg.off == 0x400 || d.reg.off == 0x404
  | _ => false
/-- A field whose reset value straps, fuses or ROM give: its table states no number. -/
def LimDesc.variable (d : LimDesc) (f : FieldDesc) : Bool :=
  match d.block.block with
  | .lim => (decide (0x40 ≤ d.reg.off) && !(d.reg.off == 0x40 && f.lo == 16)) || d.reg.off == 8 || d.reg.off == 0xC ||
      decide (0x1C ≤ d.reg.off ∧ d.reg.off ≤ 0x28)
  | .glb => d.reg.off == 0x18 && f.lo == 16
  | .cfg => (d.reg.off == 4 && f.lo == 13) || (d.reg.off == 0x30 && decide (f.lo ≤ 4))
  | .stw => d.reg.off == 8 && f.lo == 24
  | .bist => (d.reg.off == 0x208 && f.lo != 11) || d.reg.off == 0x400
  | .dbg => d.reg.off == 4 && f.lo == 7
  | _ => false
/-- R481: VAR of a field. -/
def LimDesc.varOf (d : LimDesc) (f : FieldDesc) : Nat :=
  if d.variable f then 2 else if d.listed && (d.values f).any (· != (d.values f).headD 0) then 1 else 0
/-- The list of a VAR 1 field. -/
def LimDesc.list (d : LimDesc) : List Nat :=
  match d.field with
  | some f => if d.varOf f = 1 then d.values f else []
  | none => []
/-- The lists, which follow the descriptors, and the place of the list of descriptor n. -/
def limLists : List Nat := limDescs.flatMap LimDesc.list
def listAt (n : Nat) : Nat :=
  0x200000 + 16 * limDescs.length + 4 * ((limDescs.take n).map fun d => d.list.length).foldl (· + ·) 0
/-- Word w of descriptor n (Table 22-3); `var2` gives what a VAR 2 field's RESET holds. -/
def LimDesc.word (var2 : LimDesc → FieldDesc → Nat) (d : LimDesc) (n w : Nat) : Nat :=
  match d.field with
  | none =>
    match w with
    | 0 => 2 ^ 31 + d.reg.off
    | 1 => 65536 * d.reg.stride + d.reg.count
    | 2 => 65536 * d.reg.stride2 + (if 1 < d.reg.count2 then 256 * d.reg.count2 else 0) + 64 * d.reg.pair.code + d.reg.fields.length
    | _ => nameAt (27 + n)
  | some f =>
    match w with
    | 0 => d.reg.off
    | 1 => 65536 * d.varOf f + 16384 * f.cls.code + 2048 * f.access.code + 32 * f.w + f.lo
    | 2 => if d.varOf f = 0 then (d.values f).headD 0 else if d.varOf f = 1 then listAt n else var2 d f
    | _ => nameAt (27 + n)

/-! ## The body and its CRC (R478, R484) -/

/-- The body: descriptors, lists, and the string table, which 0 bytes fill to a whole word. -/
def limBody (var2 : LimDesc → FieldDesc → Nat) : List Nat :=
  (limDescs.zipIdx.flatMap fun e => (List.range 4).map (e.1.word var2 e.2)) ++ limLists ++
    (List.range ((limStrings.length + 3) / 4)).map fun k =>
      (List.range 4).foldl (fun v b => v + 256 ^ b * (limStrings.getD (4 * k + b) 0).toNat) 0
/-- R476: the counts of the header; the length of the body and the place of the string table. -/
def limRegs : Nat := (blockTable.map fun b => b.regs.length * b.count).foldl (· + ·) 0
def limAddrs : Nat := (blockTable.map fun b => b.count * (b.regs.map fun r => r.count * r.count2).foldl (· + ·) 0).foldl (· + ·) 0
def limStrPtr : Nat := 0x200000 + 16 * limDescs.length + 4 * limLists.length
def limLength : Nat := limStrPtr - 0x200000 + (limStrings.length + 3) / 4 * 4
/-- A header word of Table 22-1 below the identity. -/
def limHeader (crc off : Nat) : Nat :=
  match off with
  | 0x00 => 0x4C494D54
  | 0x04 => 1
  | 0x08 => limLength
  | 0x0C => crc
  | 0x10 => 27
  | 0x14 => 0x100
  | 0x18 => 0x200000
  | 0x1C => limStrPtr
  | 0x20 => limRegs
  | 0x24 => limAddrs
  | 0x28 => descsBefore blockTable.length
  | _ => 0
/-- CRC-32 of IEEE 802.3, bit-reflected: one byte, and a string of bytes. -/
def crcByte (c : BitVec 32) (b : Byte) : BitVec 32 :=
  (List.range 8).foldl (fun c _ => if c.getLsbD 0 then (c >>> 1) ^^^ 0xEDB88320 else c >>> 1) (c ^^^ b.setWidth 32)
def crc32 (bs : List Byte) : BitVec 32 := (bs.foldl crcByte 0xFFFFFFFF) ^^^ 0xFFFFFFFF
/-- R478: header with the CRC word as 0, block records, and body with the RESET of VAR 2 fields as 0; the identity words lie
outside what is covered. -/
def limCrc : Nat :=
  let words := (List.range 16).map (fun k => limHeader 0 (4 * k)) ++
    ((List.range 27).flatMap fun k => (List.range 8).map (limRecord k)) ++ limBody fun _ _ => 0
  (crc32 (words.flatMap (bytesLE 4))).toNat

/-! ## What a read finds -/

/-- R477: an identity word. -/
def State.limIdentity (s : State) (off : Nat) : Nat :=
  let rom := (Config.romValue off).toNat
  match off with
  | 0x40 => 0x48240000 + 4096 * s.fuses.rev + 4 * s.fuses.temp + s.fuses.speed
  | 0x44 => rom
  | 0x48 => rom % 65536
  | 0x4C => rom % 2 ^ 19
  | 0x50 => s.fuses.unit % 2 ^ 32
  | 0x54 => s.fuses.unit / 2 ^ 32 % 2 ^ 32
  | _ => 0
/-- R481: the value that a VAR 2 field took at the last device reset; of an array, its first element's (log entry 6). -/
def State.limVariable (s : State) (d : LimDesc) (f : FieldDesc) : Nat :=
  match d.block.block with
  | .lim => bitsOf f.lo f.w (if d.reg.off < 0x40 then limHeader limCrc d.reg.off else s.limIdentity d.reg.off)
  | .glb => bit (decide (s.straps.mode = 1 ∨ s.straps.mode = 2))
  | .cfg =>
    if d.reg.off = 4 then s.straps.mode
    else if f.lo = 4 then s.atReset.revoked
    else (List.range 4).foldl (fun v k => v + 2 ^ k * bit (SMap.get s.atReset.owners [] k != [])) 0
  | .stw => bitsOf f.lo f.w (Config.romValue 0x150008).toNat
  | .bist =>
    if d.reg.off = 0x400 then (s.atReset.records.getD 0 0).toNat
    else if f.lo = 10 then bit s.atReset.root.isSome else min s.atReset.records.length 512
  | .dbg => bit s.straps.dbgEn
  | _ => 0
/-- R475 to R482: a word of the Limty table. -/
def State.limWord (s : State) (off : Nat) : Nat :=
  if 0x200000 ≤ off ∧ off < 0x400000 then (limBody s.limVariable).getD ((off - 0x200000) / 4) 0
  else if 0x100 ≤ off ∧ off < 0x100 + 32 * 27 then limRecord ((off - 0x100) / 32) ((off - 0x100) / 4 % 8)
  else if off < 0x40 then limHeader (if off = 0xC then limCrc else 0) off
  else s.limIdentity off

end Sys2Proof.Machine
end

