-- ==== Sys2Proof/Machine/Access.lean ====
section
/-! DEFINITION. Accesses to BAR0 (R8 to R16, R279, R483, R484): reads with their latches and effects, and writes by class and
access code, with what a written field sets off in its block. -/
namespace Sys2Proof.Machine

/-! ## Reads -/

/-- What an access path's latch holds under a key. -/
def State.latched (s : State) (p : Path) (k : Nat) : Nat := (SMap.get (s.path p).latch 0 k).toNat
/-- A latch of a path takes a value. -/
def State.latch (s : State) (p : Path) (k v : Nat) : State :=
  s.setPath p { s.path p with latch := SMap.set (s.path p).latch 0 k (BitVec.ofNat 32 v) }
/-- The register at +4, whose view a read of a LO register latches. -/
def RegAt.hi (x : RegAt) : Option RegAt := regAt (x.ref.off + 4)
/-- R10: a read of a LO register. R88 and R124 sample the item of a cell or slice; a path keeps one wide latch for each field,
which a sample in another field leaves alone (DESIGN CHOICE, log entry 79). -/
def State.readLo (s : State) (p : Path) (x : RegAt) : State × Nat :=
  if x.block.block = .fld ∧ x.loc = 0x54 then
    if !s.readable x then (s, 0)
    else
      let w := s.sliceItem x.inst (SMap.get (s.path p).wide 0 x.inst)
      let s := match w.2 with
        | some a => s.setPath p { s.path p with wide := SMap.set (s.path p).wide 0 x.inst (a.extractLsb' 48 64) }
        | none => s
      (s.latch p x.ref.off (halfOf true w.1.toNat), halfOf false w.1.toNat)
  else
    let v := s.regValue p x
    match x.hi with
    | some h => (s.latch p x.ref.off (s.regValue p h), v)
    | none => (s, v)
/-- R15, R16: a read of a register: RC fields return their counts and are cleared, and TXQID pops, except under peek. -/
def State.readReg (s : State) (p : Path) (x : RegAt) : State × Nat :=
  if x.ref.off = R.TIME_NOW_LO.off then
    let s := s.nowRead p
    (s, s.readOut.2.toNat)
  else if x.ref.off = R.TIME_NOWX.off then (s, s.latched p x.ref.off)
  else if x.block.block = .time ∧ 0x800 ≤ x.loc ∧ (x.loc - 0x800) % 64 = 8 then
    let i := (x.loc - 0x800) / 64
    (s.txqidPop i (p == .debug), s.txqidValue i)
  else match x.desc.pair with
    | .lo => s.readLo p x
    | .hi => (s, if s.readable x then s.latched p (x.ref.off - 4) else 0)
    | .single =>
      let v := s.regValue p x
      let m := x.desc.bitsWhere fun f => f.access == .rc
      if m = 0 ∨ p = .debug ∨ s.readable x = false then (s, v)
      else (s.setReg x.ref (s.reg x.ref &&& (2 ^ 32 - 1 - m)), v)
/-- A 4-byte read of BAR0 (R483: an offset that nothing covers reads 0). -/
def State.busRead (s : State) (p : Path) (off : Nat) : State × Nat :=
  if !s.power.powered || decide (2 ^ 24 ≤ off) then (s, 0)
  else if off < 0x10000 ∨ (0x200000 ≤ off ∧ off < 0x400000) then
    if off = R.LIM_LOT_LO.off then (s.latch p off (s.limWord (off + 4)), s.limWord off)
    else if off = R.LIM_LOT_HI.off then (s, s.latched p (off - 4))
    else (s, s.limWord off)
  else if 0x400000 ≤ off then
    match s.windowEntry off with
    | some w => if off % 8 = 0 then (s.latch p off (halfOf true w.toNat), halfOf false w.toNat) else (s, s.latched p (off - 4))
    | none => (s, s.windowWord off)
  else match msixReg off with
    | some r => (s, s.reg r)
    | none =>
      match regAt off with
      | some x => s.readReg p x
      | none => (s, 0)
/-- The register at an offset is a LO register, or the low half of a 48-bit entry of a window (R484). -/
def pairAt (off : Nat) : Bool :=
  if off = R.LIM_LOT_LO.off then true
  else match regAt off with
    | some x => x.desc.pair == .lo
    | none => decide (off % 8 = 0 ∧ (0x500000 ≤ off ∧ off < 0x600000 + 0x4000 * 96 ∨
        0x400000 ≤ off ∧ off < 0x408000 ∧ off % 0x1000 = 8))
/-- R279: the accesses BAR0 takes: aligned 4 bytes, and aligned 8 bytes of a LO/HI pair. -/
def sizeOk (off size : Nat) : Bool := (size == 4 && off % 4 == 0) || (size == 8 && off % 8 == 0 && pairAt off)
/-- R301: while a wake runs the host's accesses to GLB, PWR, CLK, TIME and LIM alone are answered at once. -/
def State.waits (s : State) (p : Path) (off : Nat) : Bool :=
  p == .host && s.waking && !(decide (off < 0x10000 ∨ (0x200000 ≤ off ∧ off < 0x400000))) &&
    (match regAt off with
     | some x => !([.glb, .pwr, .clk, .time].contains x.block.block)
     | none => true)
/-- A read of BAR0 on a path, with the value it returns, as it is answered. -/
def State.barReadNow (s : State) (p : Path) (off size : Nat) : State :=
  let r : State × Nat :=
    if !sizeOk off size then (s.hbError F.HB_ERR_B0SIZE, 0)
    else
      let a := s.busRead p off
      if size = 8 then
        let b := a.1.busRead p (off + 4)
        (b.1, a.2 + 2 ^ 32 * b.2)
      else a
  { r.1 with readOut := (p, BitVec.ofNat 64 r.2) }
/-- A read of BAR0, which may wait for the end of a wake. -/
def State.barRead (s : State) (p : Path) (off size : Nat) : State :=
  if s.waits p off then s.holdAccess (.bar0 off size none) else s.barReadNow p off size

/-! ## What a write stores -/

/-- Table 0-2: the STATICW bit of a block. -/
def State.staticW (s : State) (x : RegAt) : State :=
  let i := x.inst
  match x.block.block with
  | .glb => s.raise F.GLB_ERR_STATICW
  | .pwr => s.raise F.PWR_ERR_STATICW
  | .clk => s.raise F.CLK_ERR_STATICW
  | .time => s.raise F.TIME_ERR_STATICW
  | .tt => s.raise F.TT_ERR_STATICW
  | .hb => s.hbError F.HB_ERR_STATICW
  | .ring =>
    if 0x900 ≤ x.loc ∧ x.loc < 0x920 then s.raise F.RING_EVR_STAT_STATICW
    else if 0x920 ≤ x.loc then s.raise F.RING_LGR_STAT_STATICW
    else s.raise (F.RING_QP_STAT_STATICW ((x.loc - 0x100) / 64))
  | .ni => s.niError i (F.NI_STAT_STATICW i)
  | .fld => s.raise (F.FLD_FSTAT_STATICW i)
  | .cfg => s.raise F.CFG_ERR_STATICW
  | .drc => s.raise (F.DRC_ERR_STATICW i)
  | .cry => s.raise F.CRY_STAT_STATICW
  | .lane => s.raise (F.LANE_STAT_STATICW i)
  | .stg => s.raise (F.STG_ERR_STATICW i)
  | .bist => s.raise F.BIST_ERR_STATICW
  | _ => s
/-- R52: bits of a SHADOW field are staged. -/
def State.stage (s : State) (p : Path) (off mask v : Nat) : State :=
  let m := BitVec.ofNat 32 mask
  let v := BitVec.ofNat 32 v
  let x := SMap.get s.staged Staged.none off
  let x : Staged :=
    if p = .steward then { x with stwMask := x.stwMask ||| m, stwVal := mergeBits m v x.stwVal }
    else { x with hostMask := x.hostMask ||| m, hostVal := mergeBits m v x.hostVal }
  { s with staged := SMap.set s.staged Staged.none off x }
/-- The bits of a register that a write sets: RW fields of a class. -/
def RegDesc.rw (r : RegDesc) (c : FieldClass) : Nat := r.bitsWhere fun f => f.access == .rw && f.cls == c
/-- R216: the NIs whose CTX is read-only, and the bits of NI.CTL that are RO there. -/
def ctxFixed (n : Nat) : Bool := n == 80 || n == 81 || n == 92 || n == 94 || n == 95
def RegAt.fixedBits (x : RegAt) : Nat := if x.block.block = .ni ∧ x.loc = 0 ∧ ctxFixed x.inst = true then 0x7F00 else 0
/-- R12, R15: a write of `d` to a register takes effect under its fields' classes and access codes; a write that enables the
block counts as one while it is enabled (R14). -/
def State.storeReg (s : State) (p : Path) (x : RegAt) (d : Nat) : State :=
  let old := s.reg x.ref
  let st := x.desc.rw .static &&& (2 ^ 32 - 1 - x.fixedBits)
  let ones := x.desc.bitsWhere fun f => f.access == .w1s
  let clr := x.desc.bitsWhere fun f => f.access == .w1c
  let with' (take : Nat) : Nat :=
    (old &&& (2 ^ 32 - 1 - take) &&& (2 ^ 32 - 1 - (d &&& clr))) ||| (d &&& take) ||| (d &&& ones)
  let live := x.desc.rw .live
  let on := s.blockOn x.block.block x.inst x.loc || (s.setReg x.ref (with' live)).blockOn x.block.block x.inst x.loc
  let s := s.setReg x.ref (with' (live ||| (if on then 0 else st)))
  let s := if on && decide ((d &&& st) ≠ (old &&& st)) then s.staticW x else s
  let sh := x.desc.rw .shadow
  if sh = 0 then s else s.stage p x.ref.off sh d

/-! ## Keys (R409, R439, R442) -/

/-- 1,024 steward cycles of 400 MHz, in nanoseconds. -/
def keyWindow : Nat := 2560
/-- R15: a write of `d` to the KEY register at `off`, which takes the values `a` and then `b` from the host bridge path within
the window; whether it completes the sequence. Another value, a late one or another path's ends no sequence but its own. -/
def State.keyWrite (s : State) (p : Path) (off a b d : Nat) : State × Bool :=
  if p ≠ .host then (s, false)
  else
    let x := s.hostPath
    let key := d % 2 ^ 16
    let open' := match SMap.get x.keys none off with
      | some t => decide (s.time.unhalted - t ≤ keyWindow)
      | none => false
    let first : Option Nat := if key = a then some s.time.unhalted else none
    ({ s with hostPath := { x with keys := SMap.set x.keys none off first } }, open' && key == b)

/-! ## What a written field sets off

In each of these `old` is the register before the write and `d` the data written. A field whose change has an operation of
its own is put back first. -/

/-- GLB.MODEREQ (R26). The results of the analog checks are open here. -/
def State.hookGlb (s : State) (l d : Nat) : State :=
  if l = 4 then
    match d % 16 with
    | 0 => s
    | 1 => s.reqRun
    | 2 => s.reqStop
    | 3 => s.reqValley
    | 4 =>
      let a := s.freeNat
      let b := a.2.freeNat
      b.2.reqSelfTest (BitVec.ofNat 13 a.1) (BitVec.ofNat 13 b.1)
    | 5 => s.reqRelease []
    | 6 => s.reqUnload
    | k => s.rejectRequest k
  else s
/-- PWR: a host's request for a domain is no shed of the steward (R419); RSTCTL.KEY (R409). -/
def State.hookPwr (s : State) (p : Path) (l d : Nat) : State :=
  if p = .steward then s
  else if l = 0x34 then
    let k := s.keyWrite p R.PWR_RSTCTL.off 0x5245 0x5354 d
    if k.2 then k.1.deviceReset 2 else k.1
  else if l = 0x10 then { s with stw := { s.stw with shed := s.stw.shed.filter fun d => decide (32 ≤ d) } }
  else if l = 0x14 then { s with stw := { s.stw with shed := s.stw.shed.filter fun d => decide (d < 32) } }
  else s
/-- CLK: a changed LOCFREQ ends the validity of RATIO (R397). -/
def State.hookClk (s : State) (l old : Nat) : State :=
  if l = 4 ∧ s.reg R.CLK_LOCFREQ ≠ old then s.clear F.CLK_STAT_RATIOV else s
/-- TIME: in SYNC and LINK modes INCR is held at 1 (R245). -/
def State.hookTime (s : State) (l old : Nat) : State := if l = 0 ∧ s.reg R.TIME_CTL ≠ old then s.holdIncr else s
def State.hookTt (s : State) (l d : Nat) : State := if 0x100 ≤ l ∧ l < 0x200 ∧ bitOf 31 d then s.colClr ((l - 0x100) / 4) else s
/-- A context of 0 to 2 is discarded (Table 12-18, Table 12-21). -/
def State.keepCtx (s : State) (x : RegAt) (f : Fld) (old d : Nat) : State :=
  if d % 128 ≤ 2 then (s.put f (old % 128)).staticW x else s
def State.hookHb (s : State) (x : RegAt) (old d : Nat) : State := if x.loc = 0x20 then s.keepCtx x F.HB_WIN_CTX old d else s
/-- RING: enabling a pair or a ring (R286, R289). -/
def State.hookRing (s : State) (x : RegAt) (old d : Nat) : State :=
  let l := x.loc
  let rise := bitOf 31 d && !bitOf 31 old
  if 0x100 ≤ l ∧ l < 0x900 ∧ l % 64 = 0 then
    let q := (l - 0x100) / 64
    let s := s.keepCtx x (F.RING_QP_CTL_CTX q) old d
    if rise then (s.clear (F.RING_QP_CTL_EN q)).qpEnable q else s
  else if l = 0x900 ∧ rise then (s.clear F.RING_EVR_CTL_EN).ringEnable true
  else if l = 0x920 ∧ rise then (s.clear F.RING_LGR_CTL_EN).ringEnable false
  else s
/-- NI.CTL: a context below 4 is discarded where CTX is writable (R216); ORDCLR (R236). -/
def State.hookNi (s : State) (n l old d : Nat) : State :=
  if l = 0 then
    let f := F.NI_CTL_CTX n
    let s :=
      if !ctxFixed n && decide (bitsOf 8 7 d ≤ 3) then (s.put f (bitsOf 8 7 old)).niError n (F.NI_STAT_CTXREJ n)
      else s
    if bitOf 3 d then s.ordClr n else s
  else s
/-- A memory's words count as never written (R148). -/
def State.unwriteMemory (s : State) (m : Nat) : State := { s with bmem := s.bmem.filter fun e => e.1 / 2048 != m }
def State.hookFld (s : State) (f l old d : Nat) : State :=
  if l = 0 then (if bitOf 16 d then s.restart f else s)
  else if l = 0x64 then (if bitOf 1 d then s.contClr f else s)
  else if l = 0x84 then (if bitOf 8 d then s.bmInit f (d % 256) else s)
  else if 0x400 ≤ l ∧ l < 0x1000 ∧ l % 16 = 0 then
    let j := (l - 0x400) / 16
    if bitOf 29 old != s.is (F.FLD_BM_CFG_CODE f j) then
      (s.clear (F.FLD_BM_CFG_INITD f j)).unwriteMemory (memKey f j)
    else s
  else s
/-- SCR.CTL.EN starts sensing again. -/
def State.hookScr (s : State) (l old d : Nat) : State :=
  if l = 0 ∧ bitOf 0 d ∧ ¬ bitOf 0 old then s.restartSweeps else s
def State.hookCfg (s : State) (l old d : Nat) : State :=
  if l = 0 then
    let s := if d % 2 = old % 2 then s else (s.put F.CFG_CTL_STOREEN (old % 2)).storeEn (bitOf 0 d)
    let s := if bitOf 4 d then s.abortLoad else s
    if bitOf 5 d then s.goldBuild else s
  else s
/-- DRC: enabling, UNFREEZE, RETRAIN.NOW with an open drift, REF.MULT, and the device-wide AMAP (R343). -/
def State.hookDrc (s : State) (c l old d : Nat) : State :=
  if l = 0 then
    let s :=
      if bitOf 31 d && !bitOf 31 old then (s.clear (F.DRC_CTL_EN c)).channelEnable c
      else if !bitOf 31 d && bitOf 31 old then (s.raise (F.DRC_CTL_EN c)).channelDisable c
      else s
    if bitOf 30 d then s.unfreeze c else s
  else if l = 0x44 then s.refEff c
  else if l = 0x48 ∧ bitOf 31 d ∧ s.get (F.DRC_STAT_STATE c) = 2 then
    let a := s.freeNat
    let b := a.2.freeNat
    b.2.retrain c (a.1 % 32) (BitVec.ofNat 8 b.1)
  else s
/-- R362: FROM and TO of a remap entry stay while the entry is VALID. -/
def State.hookRemap (s : State) (x : RegAt) (old d : Nat) : State :=
  let k := (x.loc - 0x1000) / 8 % 16
  let c := (x.loc - 0x1000) / 256
  let line (v : Nat) : Nat := v % 2 ^ 30
  if x.loc % 8 = 0 then
    if bitOf 31 old then
      if !bitOf 31 d then
        let s := (s.setReg x.ref (line old)).clear (F.MIG_REMAP_TO_BUSY c k)
        if line d = line old then s else s.raise F.MIG_STAT_EXCLBAD
      else if line d = line old then s.setReg x.ref old
      else (s.setReg x.ref old).raise F.MIG_STAT_EXCLBAD
    else if bitOf 31 d then (s.clear (F.MIG_REMAP_FROM_VALID c k)).remapStart c k
    else s
  else if s.is (F.MIG_REMAP_FROM_VALID c k) && decide (line d ≠ line old) then (s.setReg x.ref old).raise F.MIG_STAT_EXCLBAD
  else s
def State.hookMig (s : State) (x : RegAt) (old d : Nat) : State :=
  if 0x1000 ≤ x.loc ∧ x.loc < 0x1800 then s.hookRemap x old d else s
def State.hookCry (s : State) (l d : Nat) : State :=
  if l = 0 then (if bitOf 1 d then s.flushCache else s)
  else if l = 0x60 then (if bitsOf 8 2 d = 0 then s else s.keyCtl (bitsOf 8 2 d) (d % 64))
  else s
/-- LANE.CTL: EN, EIDLE and SLIP; a checker that stops is not synchronised. A PCS66 lane with a rate Table 13-2 refuses stays disabled (R304). -/
def State.hookLane (s : State) (i l old d : Nat) : State :=
  if l = 0 then
    let bad := s.laneUse i == 4 && s.get (F.LANE_CFG_RATE i) != 1 && s.get (F.LANE_CFG_RATE i) != 3
    let s :=
      if bitOf 31 d && !bitOf 31 old then
        (if bad then (s.clear (F.LANE_CTL_EN i)).raise (F.LANE_STAT_STATICW i) else s.setLane i LaneSt.zero)
      else if !bitOf 31 d && bitOf 31 old then (s.laneUnlock i).setLane i LaneSt.zero
      else s
    let s := if bitOf 30 d = bitOf 30 old then s else (s.put (F.LANE_CTL_EIDLE i) (bitsOf 30 1 old)).laneEidle i (bitOf 30 d)
    if bitsOf 20 10 d = 0 then s else s.slipWrite i (bitsOf 20 10 d)
  else if l = 0x1C ∧ ¬ bitOf 30 d then s.clear (F.LANE_PRBS_SYNC i)
  else s
def State.hookStg (s : State) (p l old d : Nat) : State :=
  if l = 0 then
    let s := if bitOf 24 d = bitOf 24 old then s else (s.put (F.STG_CTL_EIDLE p) (bitsOf 24 1 old)).portEidle p (bitOf 24 d)
    if bitOf 31 d then s.portTrain p
    else if !bitOf 31 d && bitOf 31 old then s.portDown p 0
    else s
  else s
/-- STW: setting WD_CTL.EN loads the watchdog (R425), and clearing EXPIRED ends the expiry. -/
def State.hookStw (s : State) (l old d : Nat) : State :=
  if l = 0x10 then (if bitOf 31 d && !bitOf 31 old then s.wdLoad else s)
  else if l = 0x14 then (if bitOf 30 d && bitOf 30 old then (s.raise F.STW_WD_STAT_EXPIRED).wdClear else s)
  else s
/-- BIST: ABORT, the soft records, PROG after its key, FUSEDATA and FUSEKEY (R439). The junction temperature of a PROG is open
here. -/
def State.hookBist (s : State) (p : Path) (x : RegAt) (old d : Nat) : State :=
  let l := x.loc
  if l = 0 then (if bitOf 4 d then s.bistAbort else s)
  else if 0x100 ≤ l ∧ l < 0x200 then (s.setReg x.ref old).srepWrite ((l - 0x100) / 4) (BitVec.ofNat 32 d)
  else if l = 0x200 ∧ bitOf 31 d ∧ s.bist.keyed then
    let a := s.freeNat
    let b := a.2.freeNat
    b.2.fuseBlow ((a.1 : Int) - (b.1 : Int))
  else if l = 0x204 then s.setBist { s.bist with staged := s.bist.staged ++ [BitVec.ofNat 32 d] }
  else if l = 0x20C then
    let k := s.keyWrite p R.BIST_FUSEKEY.off 0x4655 0x5345 d
    if p = .host then k.1.setBist { k.1.bist with keyed := k.2 } else s
  else s
def State.hookDbg (s : State) (p : Path) (l old d : Nat) : State :=
  if l = 0 then
    let s := if bitsOf 1 2 d = 0 then s else (s.haltCode (bitsOf 1 2 d) 1).haltNow
    let s := if bitOf 3 d then s.haltRelease else s
    if bitOf 4 d then s.dbgUnlocked false else s
  else if l = 0x30 then (if bitOf 31 d then s.accGo p (d % 4) else s)
  else if l = 0x40 then (s.setReg R.DBG_VT_TX old).vtTxWrite (BitVec.ofNat 32 d)
  else if l = 0x48 then (if bitOf 2 d then s.clear F.DBG_VT_STAT_RXFULL else s)
  else if l = 0x700 then (if bitOf 31 d && !bitOf 31 old then (s.clear F.DBG_TRC_CTL_EN).traceEnable else s)
  else s
/-- What a write of `d` to a register sets off. -/
def State.hook (s : State) (p : Path) (x : RegAt) (old d : Nat) : State :=
  let l := x.loc
  let i := x.inst
  match x.block.block with
  | .glb => s.hookGlb l d
  | .pwr => s.hookPwr p l d
  | .clk => s.hookClk l old
  | .time => s.hookTime l old
  | .tt => s.hookTt l d
  | .hb => s.hookHb x old d
  | .ring => s.hookRing x old d
  | .ni => s.hookNi i l old d
  | .fld => s.hookFld i l old d
  | .cfg => s.hookCfg l old d
  | .scr => s.hookScr l old d
  | .drc => s.hookDrc i l old d
  | .mig => s.hookMig x old d
  | .cry => s.hookCry l d
  | .lane => s.hookLane i l old d
  | .stg => s.hookStg i l old d
  | .stw => s.hookStw l old d
  | .bist => s.hookBist p x old d
  | .dbg => s.hookDbg p l old d
  | _ => s

/-! ## Writes -/

/-- Registers that ignore writes although their fields are RW: AMAP of DRC1 to DRC7 (R343), and what does not apply to
lanes 0 to 15. -/
def RegAt.closed (x : RegAt) : Bool :=
  match x.block.block with
  | .drc => decide (x.loc = 0x18 ∧ x.inst ≠ 0)
  | .lane => decide (x.inst < 16 ∧ x.loc ≠ 0x0C)
  | _ => false
/-- R343: AMAP is written only while every EN reads 0. -/
def State.amapShut (s : State) (x : RegAt) : Bool :=
  decide (x.block.block = .drc ∧ x.loc = 0x18) && (List.range 8).any fun c => s.is (F.DRC_CTL_EN c)
/-- One register is written. -/
def State.writeReg (s : State) (p : Path) (x : RegAt) (d : Nat) : State :=
  if x.closed then s
  else if s.amapShut x then s.staticW x
  else
    let old := s.reg x.ref
    (s.storeReg p x d).hook p x old d
/-- R10: the pair whose LO register is `x` takes a 48-bit value under its class. -/
def State.writePair (s : State) (p : Path) (x : RegAt) (v : Nat) : State :=
  let off := x.ref.off
  if off = R.TIME_INCR_LO.off then s.incrWrite v
  else if off = R.TIME_STEP_LO.off then s.stepWrite (BitVec.ofNat 48 v)
  else if x.block.block = .ni ∧ x.loc = 0x20 then s.tdataWrite x.inst (BitVec.ofNat 48 v)
  else
    let s := s.writeReg p x (v % 2 ^ 32)
    let s := match x.hi with
      | some h => s.writeReg p h (v / 2 ^ 32 % 2 ^ 16)
      | none => s
    if off = R.DBG_ACC_ADDR_LO.off && s.dbgMayWrite p then s.clearReservations else s
/-- The current bits 31:0 of the pair whose LO register is `x`; TDATA shows the word TSEL selects (Table 10-21). -/
def State.current (s : State) (x : RegAt) : Nat :=
  if x.block.block = .ni ∧ x.loc = 0x20 then (s.tdataRead x.inst).toNat % 2 ^ 32 else s.reg x.ref
/-- R10: a write of the HI register of the pair at `x` ends the staging of its LO half; with none staged the current bits 31:0
stay. -/
def State.writeHi (s : State) (p : Path) (x : RegAt) (d : Nat) : State :=
  let k := x.ref.off
  let lo : Nat := match SMap.get (s.path p).staging none k with
    | some v => v.toNat
    | none => s.current x
  let s := s.setPath p { s.path p with staging := SMap.set (s.path p).staging none k none }
  s.writePair p x (lo + 2 ^ 32 * (d % 2 ^ 16))
/-- The domain of a register is on, so that it takes writes. -/
def State.writable (s : State) (x : RegAt) : Bool :=
  s.domainOn (x.block.domainAt x.inst) &&
    (match x.block.block with
     | .mig => (match migChannel x.loc with | some c => s.domainOn (28 + c) | none => true)
     | _ => true)
/-- R442: a write to DBG that may not take effect; UNLOCK and ERR alone are open to a host while the block is locked. -/
def State.dbgShut (s : State) (p : Path) (x : RegAt) : Bool :=
  decide (x.block.block = .dbg) && !(s.dbgMayWrite p) && !(decide (p = .host) && (x.loc == 8 || x.loc == 12))
/-- A write to the register found, of any half. -/
def State.writeAt (s : State) (p : Path) (x : RegAt) (d : Nat) : State :=
  if !s.writable x then s
  else if s.dbgShut p x then s.dbgRefuse p
  else if x.block.block = .dbg ∧ x.loc = 12 then
    (if p ≠ .host then s
     else if s.straps.dbgEn = false then s.raise F.DBG_ERR_LOCKED
     else
       let k := s.keyWrite p R.DBG_UNLOCK.off 0x4442 0x5547 d
       if k.2 then k.1.dbgUnlocked true else k.1)
  else if x.block.commit ≠ .none ∧ x.loc = 0xFC then s.commitWrite x.block x.inst d
  else
    let s := match x.desc.pair with
      | .single => s.writeReg p x d
      | .lo => s.setPath p { s.path p with staging := SMap.set (s.path p).staging none x.ref.off (some (BitVec.ofNat 32 d)) }
      | .hi => match regAt (x.ref.off - 4) with
        | some lo => s.writeHi p lo d
        | none => s
    s.flushDisabled
/-- The MSI-X table: a vector whose mask is taken away sends its pending message (R298). -/
def State.msixWrite (s : State) (off d : Nat) : State :=
  if 0x78000 ≤ off ∨ s.domainOn 3 = false then s
  else
    let s := s.setReg ⟨off, if off % 16 = 12 then 1 else 0⟩ (if off % 16 = 12 then d % 2 else if off % 16 = 0 then d / 4 * 4 else d)
    let v := (off - 0x70000) / 16
    if off % 16 = 12 ∧ d % 2 = 0 ∧ s.is ⟨msixPba v, v % 32, 1⟩ then
      let s := s.clear ⟨msixPba v, v % 32, 1⟩
      { s with hostOut := s.hostOut ++ [.msix v] }
    else s
/-- A 4-byte write of BAR0: read-only windows and offsets that nothing covers ignore it (R483, R484). -/
def State.busWrite (s : State) (p : Path) (off d : Nat) : State :=
  if !s.power.powered || decide (0x200000 ≤ off) || decide (off < 0x10000) then s
  else match msixReg off with
    | some _ => s.msixWrite off d
    | none =>
      match regAt off with
      | some x => s.writeAt p x d
      | none => s
/-- A write of BAR0 on a path (R279), as it takes effect. -/
def State.barWriteNow (s : State) (p : Path) (off size : Nat) (d : BitVec 64) : State :=
  if !sizeOk off size then s.hbError F.HB_ERR_B0SIZE
  else if size = 8 then (s.busWrite p off (d.toNat % 2 ^ 32)).busWrite p (off + 4) (d.toNat / 2 ^ 32)
  else s.busWrite p off (d.toNat % 2 ^ 32)
/-- A write of BAR0, which may wait for the end of a wake (R301). -/
def State.barWrite (s : State) (p : Path) (off size : Nat) (d : BitVec 64) : State :=
  if s.waits p off then s.holdAccess (.bar0 off size (some d)) else s.barWriteNow p off size d
/-- R301: the accesses that waited are answered in order, and BAR2 goes on. -/
def State.answerLate (s : State) : State :=
  (s.host.late.foldl (fun (s : State) a =>
    match a with
    | .bar0 off size none => s.barReadNow .host off size
    | .bar0 off size (some d) => s.barWriteNow .host off size d
    | .bar2Write off bs => s.bar2Write off bs
    | .bar2Read off n tag => s.bar2Read off n tag) { s with host := { s.host with late := [] } }).bar2Pump

/-! ## The commands -/

/-- REGISTER_WRITE, R12: a write of `size` bytes at a BAR0 offset on an access path. -/
def execRegisterWrite (p : Path) (off : BitVec 24) (size : Nat) (d : BitVec 64) (s : State) : Ans :=
  .next (s.barWrite p off.toNat size d)
/-- HI_WRITE, R10: a 4-byte write of a HI register. -/
def execHiWrite (p : Path) (off : BitVec 24) (d : BitVec 32) (s : State) : Ans := .next (s.barWrite p off.toNat 4 (d.zeroExtend 64))
/-- LO_READ, R10: a read of a LO register, or of a register with no row of its own. -/
def execLoRead (p : Path) (off : BitVec 24) (size : Nat) (s : State) : Ans := .next (s.barRead p off.toNat size)
/-- RC_READ, R15: a 4-byte read of a register with RC fields. -/
def execRcRead (p : Path) (off : BitVec 24) (s : State) : Ans := .next (s.barRead p off.toNat 4)
/-- A command that writes the COMMIT register at an offset. -/
def State.commitCmd (s : State) (p : Path) (off v : Nat) : State :=
  match commitAt off with
  | some _ => (s.barWrite p off 4 (BitVec.ofNat 64 v)).flushDisabled
  | none => s
/-- COMMIT_GO, R48 and R49: a write of 1 to GO, with HOLD. -/
def execCommitGo (p : Path) (off : BitVec 24) (hold : Bool) (s : State) : Ans := .next (s.commitCmd p off.toNat (1 + 8 * bit hold))
/-- COMMIT_DISCARD, R50: a write of 1 to DISCARD, with HOLD and GO. -/
def execCommitDiscard (p : Path) (off : BitVec 24) (hold go : Bool) (s : State) : Ans :=
  .next (s.commitCmd p off.toNat (2 + bit go + 8 * bit hold))
/-- DBG_REG, R440: Update-DR of a 58-bit word starts one access on the debug-port path, and the next Capture-DR takes DONE with
the read data or the data written. -/
def execDbgReg (w : BitVec 58) (s : State) : Ans :=
  .next
    (if !s.power.powered || s.tap.busy then s
     else
       let off := (w.extractLsb' 32 24).toNat
       let d := w.extractLsb' 0 32
       let wr := w.getLsbD 56
       let a : State × Nat :=
         if off % 4 ≠ 0 then (s, 0)
         else if wr then (s.busWrite .debug off d.toNat, d.toNat)
         else
           let r := s.busRead .debug off
           ({ r.1 with readOut := (.debug, BitVec.ofNat 64 r.2) }, r.2)
       { a.1 with tap := { a.1.tap with instr := .dbgReg, capture := BitVec.ofNat 58 (2 ^ 57 + 2 ^ 32 * bitsOf 32 25 w.toNat + a.2 % 2 ^ 32) } })

/-! ## Commands after which a block may be disabled, with the values staged in it (R14), and the two steward loops that
stage in PWR -/

def execReqStop (s : State) : Ans := .next s.reqStop.flushDisabled
def execReqUnload (s : State) : Ans := .next s.reqUnload.flushDisabled
def execReqRelease (checks : List LineCheck) (s : State) : Ans :=
  let t := s.reqRelease checks
  .next (if s.waking && !t.waking then t.flushDisabled.answerLate else t.flushDisabled)
/-- WAKE_COMPLETE; then what waited for it is answered (R301). -/
def execWakeComplete (s : State) : Ans :=
  let t := s.wakeComplete
  .next (if s.waking && !t.waking then t.answerLate else t)
def execLockTimeout (s : State) : Ans := .next s.lockTimeout.flushDisabled
def execValleyEntry (s : State) : Ans := .next s.valleyEntry.flushDisabled
/-- DOMAIN_DRAIN. -/
def execDomainDrain (d : Fin 41) (s : State) : Ans := .next (s.domainDrain d).flushDisabled
/-- DRAIN_TIMEOUT. -/
def execDrainTimeout (d : Fin 41) (s : State) : Ans :=
  .next (if s.domainsMove then (s.drainTimeout d).isolateReady
    else if s.mode.ov.valley && !s.mode.ov.freeze && !s.mode.ov.safeHold then s.drainTimeout d else s).flushDisabled
def execReshapeWrite (f : FieldNo) (s : State) : Ans := .next (s.reshapeDrained f).flushDisabled
/-- CHANNEL_DISABLE: a write of 0 to EN. -/
def execChannelDisable (c : Fin 8) (s : State) : Ans := .next (s.channelDisable c).flushDisabled
def execOp (s : State) : Ans := .next s.opLoop.flushDisabled
def execShed (s : State) : Ans := .next s.shedLoop.flushDisabled

end Sys2Proof.Machine
end

