-- ==== Sys2Proof/Machine/Responses.lean ====
section
/-! DEFINITION. CFG requests at their target (R201), and what reaches the NI that asked: responses, bounces, timeouts and
fences (R219, R223, R230 to R237). -/
namespace Sys2Proof.Machine

/-! ## CFG -/

/-- R201: the register access of a CFG carriage, on the steward's path for contexts 0 and 1 and the debugger's for 2. -/
def State.cfgAccess (s : State) (n : Nat) (pkt : List Carriage) : State :=
  let c := pkt.headD Carriage.zero
  let p : Path := if c.ctx = 2 then .debug else .steward
  let off := (c.word 0).toNat % 2 ^ 24
  if off % 4 ≠ 0 then s.replyFail n pkt stDenied
  else if c.cfgWrites then
    (s.busWrite p off ((c.word 1).toNat % 2 ^ 32)).replyOne n c tWrAck stOk (List.replicate 16 0)
  else
    let r := s.busRead p off
    r.1.reply n c [{ replyTo c tRdResp stOk 1 (BitVec.ofNat 48 r.2 :: List.replicate 15 0) with len := 0, cidx := 0 }]
/-- CFG at the NI of a block: the host bridge, the configuration engine, the steward and debug reach BAR0; a port forwards;
every other target answers DENIED. -/
def State.cfgAt (s : State) (n : Nat) (pkt : List Carriage) : Option State :=
  let c := pkt.headD Carriage.zero
  if n = 80 ∨ n = 81 ∨ n = 92 ∨ n = 94 ∨ n = 95 then
    some (if c.ctx ≤ 2 then s.cfgAccess n pkt else s.replyFail n pkt stDenied)
  else s.atTarget n pkt
/-- CFG. -/
def execCfg (n : NodeNo) (s : State) : Ans := .next (s.request n (fun c => c.typ == tCfg) fun s pkt => s.cfgAt n pkt)

/-! ## Trackers -/

def Tracker.head (t : Tracker) : Carriage := t.pkt.headD Carriage.zero
/-- R231: a response matches by SRC and SEQ. -/
def State.trackerOf (s : State) (n : Nat) (c : Carriage) : Option Tracker :=
  if c.src = n then (s.ni n).trackers.find? fun t => t.head.seq == c.seq else none
def State.freeTracker (s : State) (n : Nat) (seq : BitVec 16) : State :=
  s.setNi n { s.ni n with trackers := (s.ni n).trackers.filter fun t => t.head.seq != seq }
/-- The answer to an outstanding request goes to what issued it. -/
def State.hand (s : State) (n : Nat) (t : Tracker) (isLocal : Bool) (pkt : List Carriage) : State :=
  let c := pkt.headD Carriage.zero
  match t.use with
  | .fabric => s.rxItem n false t.room isLocal pkt
  | .desc q slot off => s.descAnswer q slot off pkt
  | .bar2 posted k => if posted then s.bar2WriteDone t.head c.status else s.bar2Answer (k / 65536) (k % 65536) pkt
  | .forward p _ => s.linkReturn p pkt
  | .snap f => s.snapAck f c.status
  | .column _ => s.ttWriteDone true c t.head.addr.toNat
  | .golden _ _ => s
  | .debug _ => s.accDone c.status (c.word 0)
  | .engine u k =>
    if u = 93 then (if k = 1 then s.ttWriteDone false c t.head.addr.toNat else s)
    else if statusFine c.status then s
    else s.bump (F.LANE_RAWCNT_RXWERR k) 1
/-- R237: a write that ended badly spoils the next fence. -/
def State.noteWrite (s : State) (n : Nat) (t : Tracker) (status : Nat) : State :=
  if isWriteType t.head.typ && !statusFine status then s.setNi n { s.ni n with badWrite := true } else s
/-- What the block behind NI n has waiting goes on, now that an answer has come or its queue has room. -/
def State.goOn (s : State) (n : Nat) : State :=
  let s :=
    if n < 72 then (if s.is (F.FLD_SNAPSTAT_DRAIN (n / 3)) then s.snapPump (n / 3) else s)
    else if n = 81 then s.bar2Pump
    else if 82 ≤ n ∧ n < 88 then s.drainPort (n - 82)
    else if 88 ≤ n ∧ n < 92 then s.groupDeliver (n - 88)
    else if n = 93 then s.matrixSend.forwardEvents
    else s
  s.pump n
/-- REGULATED_INJECT: room in the NI's queue lets its block go on (R239). -/
def execRegulatedInject (n : NodeNo) (elapsed : Nat) (s : State) : Ans :=
  .next (if isRegulated n && s.domainOn 2 then (s.regulated n elapsed).goOn n else s)
/-- R388 step 3: what comes to a domain on its way off is taken in and discarded. -/
def State.discards (s : State) (n : Nat) : Bool := valleyDomains.any fun d => s.domStep d == 3 && (domainNis d).contains n
/-- A tracked request ends with an answer: its tracker is free, and a read made stale by a rewind delivers nothing (R163). -/
def State.settle (s : State) (n : Nat) (t : Tracker) (isLocal : Bool) (pkt : List Carriage) : State :=
  let s := (s.freeTracker n t.head.seq).noteWrite n t (pkt.headD Carriage.zero).status
  (if t.stale || s.discards n then s else s.hand n t isLocal pkt).goOn n

/-! ## Responses -/

def isResponseType (t : Nat) : Bool := t == tRdResp || t == tWrAck || t == tAtomicResp || t == tFenceAck || t == tBounce
/-- The packet leaves the NI's arrivals. -/
def State.dropResponse (s : State) (n : Nat) (pkt : List Carriage) : State :=
  s.setNi n { s.ni n with inRsp := (s.ni n).inRsp.filter fun d => !pkt.contains d }
def State.orphans (s : State) (n : Nat) (pkt : List Carriage) : State := pkt.foldl (fun s c => s.orphan n c) s
/-- R241: responses go to the orphan sink at a CLOSED NI, and at one CLOSING for a reshape once every accepted request is
complete. -/
def State.sinksResponses (s : State) (n : Nat) : Bool :=
  decide (s.niState n = .closed) || ((s.ni n).causes.reshaping && (s.fld (n / 3)).drained)
/-- The packet that stands first among the responses of NI n, if it is of type `typ`. One that matches nothing, or that the NI takes
no more, goes to the orphan sink (R231); a request type that names itself a response is bounced (R201). -/
def State.response (s : State) (n typ : Nat) (g : State → List Carriage → State) : State :=
  if !s.domainOn 2 then s
  else match firstWhole (s.ni n).inRsp with
    | none => s
    | some pkt =>
      let c := pkt.headD Carriage.zero
      let t := s.dropResponse n pkt
      if isRequestType c.typ then t.bounceBack n pkt stDenied
      else if !isResponseType c.typ || s.sinksResponses n then t.orphans n pkt
      else if c.typ ≠ typ then s
      else g t pkt
/-- R219, R230: a response is matched and delivered. -/
def State.answered (s : State) (n : Nat) (pkt : List Carriage) : State :=
  match s.trackerOf n (pkt.headD Carriage.zero) with
  | some t => s.settle n t false pkt
  | none => s.orphans n pkt
def execRdResp (n : NodeNo) (s : State) : Ans := .next (s.response n tRdResp fun s pkt => s.answered n pkt)
def execWrAck (n : NodeNo) (s : State) : Ans := .next (s.response n tWrAck fun s pkt => s.answered n pkt)
def execAtomicResp (n : NodeNo) (s : State) : Ans := .next (s.response n tAtomicResp fun s pkt => s.answered n pkt)
def execFenceAck (n : NodeNo) (s : State) : Ans := .next (s.response n tFenceAck fun s pkt => s.answered n pkt)

/-! ## Bounces -/

/-- R223: the request is reissued once on ALT, in its old place before every later one. -/
def State.retryAlt (s : State) (n : Nat) (t : Tracker) : State :=
  let x := s.ni n
  let alt := BitVec.ofNat 30 (x.active.routeWord t.entry 1)
  let pkt := t.pkt.map fun c => { c with route := alt, hidx := 0 }
  let trackers := x.trackers.map fun u => if u.head.seq = t.head.seq then { u with retried := true } else u
  let s := s.setNi n { x with trackers := trackers, inj := ⟨pkt, t.entry, false, true, t.frame⟩ :: x.inj }
  (s.bump (F.NI_CNT2_RETRY n) 1).pump n
/-- R223: whether a bounce is retried. NI 93 retries none of its own writes (R493). -/
def State.mayRetry (s : State) (n : Nat) (t : Tracker) (c : Carriage) : Bool :=
  n != 93 && !t.head.ord && c.status == stRouteClosed && !t.retried && !t.stale && s.is (F.NI_CTL_RETRYALT n) &&
    bitOf 38 ((s.ni n).active.routeWord t.entry 0)
/-- R236: the ORD stream to a route entry is broken, and the requests of it that wait, of which nothing has been injected, are
answered ROUTE_CLOSED. -/
def State.breakStream (s : State) (n e : Nat) : State :=
  let x := s.ni n
  let mine (p : InjPkt) : Bool :=
    let c := p.pkt.headD Carriage.zero
    p.entry == e && c.ord && (c.cidx == 0 || c.typ == tRdLine)
  let s := s.setNi n { x with broken := x.broken ++ [e], inj := x.inj.filter fun p => !mine p }
  (x.inj.filter mine).foldl (fun s p =>
    let c := p.pkt.headD Carriage.zero
    match s.trackerOf n { c with src := n } with
    | some t =>
      (s.niError n (F.NI_STAT_ORDBRK n)).settle n t true
        [localAnswer (responseType c.typ c.cfgWrites) stRouteClosed c.utag c.seq c.addr n]
    | none => s.refuseOrd n p) s
/-- R223, R232, R236: a BOUNCE at its origin. -/
def State.bounced (s : State) (n : Nat) (pkt : List Carriage) : State :=
  let c := pkt.headD Carriage.zero
  let s := s.bump (F.NI_CNT2_BOUNCEIN n) 1
  if !expectsResponse c.otype then pkt.foldl (fun s d => s.absorb n d) s
  else match s.trackerOf n c with
    | none => s.orphans n pkt
    | some t =>
      if s.mayRetry n t c then s.retryAlt n t
      else
        let s := s.settle n t false pkt
        if t.head.ord && !(s.ni n).broken.contains t.entry then s.breakStream n t.entry else s
def execBounce (n : NodeNo) (s : State) : Ans := .next (s.response n tBounce fun s pkt => s.bounced n pkt)

/-! ## Timeouts and fences -/

/-- REQUEST_TIMEOUT, R231: CTL.TMO × 4 µs have passed since the request with this SEQ was injected. -/
def State.requestTimeout (s : State) (n : Nat) (seq : BitVec 16) : State :=
  if !s.domainOn 2 then s
  else match (s.ni n).trackers.find? fun t => t.injected && t.head.seq == seq with
    | none => s
    | some t =>
      let s := (s.niError n (F.NI_STAT_TMO n)).bump (F.NI_CNT_TMO n) 1
      s.settle n t true [localAnswer (responseType t.head.typ t.head.cfgWrites) stTimeout t.head.utag seq t.head.addr n]
def execRequestTimeout (n : NodeNo) (seq : BitVec 16) (s : State) : Ans := .next (s.requestTimeout n seq)
/-- R237: the request that waits behind its fence with every earlier write acknowledged. -/
def NiSt.fenced (x : NiSt) : Option InjPkt :=
  let head (p : InjPkt) : Carriage := p.pkt.headD Carriage.zero
  let before := x.inj.takeWhile fun p => !(head p).fence
  match (x.inj.dropWhile fun p => !(head p).fence).head? with
  | some p => if !p.cleared && x.openWrites.isEmpty && before.all (fun q => !isWriteType (head q).typ) then some p else none
  | none => none
/-- FENCE_RELEASE, R237: the fenced request may go, or is answered FENCE_ABORT. -/
def State.fenceRelease (s : State) (n : Nat) : State :=
  match (s.ni n).fenced with
  | none => s
  | some p =>
    let x := s.ni n
    let c := p.pkt.headD Carriage.zero
    if x.badWrite then
      let s := (s.setNi n { x with inj := x.inj.erase p, badWrite := false }).niError n (F.NI_STAT_FABORT n)
      let a := localAnswer (responseType c.typ c.cfgWrites) stFenceAbort c.utag c.seq c.addr n
      match (s.ni n).trackers.find? fun t => t.head.seq == c.seq with
      | some t =>
        let s := s.settle n t true [a]
        s.setNi n { s.ni n with badWrite := false }
      | none => (s.absorb n { a with typ := tBounce, otype := c.typ }).goOn n
    else
      (s.setNi n { x with inj := x.inj.map fun q => if q = p then { q with cleared := true } else q }).goOn n
def execFenceRelease (n : NodeNo) (s : State) : Ans := .next (if s.domainOn 2 then s.fenceRelease n else s)

end Sys2Proof.Machine
end

