-- ==== Sys2Proof/Machine/Tick.lean ====
section
/-! DEFINITION. The tick (R33 to R36, R44, R48, R257): frames end and release their outputs, staged values commit, modes that
wait for a tick change, and frames begin. -/
namespace Sys2Proof.Machine

/-! ## The edge -/

/-- R256, R257: the number of this tick: that of a placed grid, else one more than the last. -/
def TimeSt.nextNumber (x : TimeSt) : Nat :=
  match x.placed with
  | some k => k
  | none => if x.numbered then (x.tick + 1) % 2 ^ 48 else x.tick
/-- R243: RAW stands at the edge and the counter takes its number. -/
def State.tickNumber (s : State) (r : Nat) : State :=
  let s := s.advanceTo r
  { s with time := { s.time with tick := s.time.nextNumber, numbered := true, placed := none, ticks := true, lastT := s.now } }
/-- TIME.STATUS.TICKS reads 1 from the first tick on; that change loads the watchdog (R425). -/
def State.tickEdge (s : State) (r : Nat) : State :=
  let t := (s.tickNumber r).raise F.TIME_STATUS_TICKS
  if s.time.ticks then t else t.wdLoad

/-- R425: the watchdog counts a tick; what follows the count 0 is WD_EXPIRE. R426: pins held safe return once EXPIRED is 0. -/
def State.wdTick (s : State) : State :=
  let s := if s.is F.STW_WD_CTL_EN && !s.mode.wdFrozen && !s.is F.STW_WD_STAT_SAFEOUT then
      s.put F.STW_WD_STAT_REMAIN (s.get F.STW_WD_STAT_REMAIN - 1) else s
  if s.is F.STW_WD_STAT_EXPIRED then s else s.clear F.STW_WD_STAT_SAFEOUT

/-- R251, R254: RUN begins after LOCKING, and HOLDOVER returns to RUN. -/
def State.tickModes (s : State) : State :=
  if s.mode.runNext && decide (s.mode.top = .locking) then
    s.enterMode { s.mode with base := .run, busy := false, runNext := false } .lock
  else if s.mode.backNext && decide (s.mode.base = .holdover) && !s.mode.suspended then
    s.enterMode { s.mode with base := .run, backNext := false } .clock
  else s

/-! ## Frames end -/

/-- R158, R162, R167: a protected field commits a frame. -/
def State.commitProtected (s : State) (f : Nat) : State :=
  let s := s.releaseNis f
  let s : State := { s with
    queues := SMap.mapIn QCtl.zero (192 * f) (192 * (f + 1))
      (fun _ q => { q with crp := q.q.rp, cwp := q.q.wp, wbuf := [], overflow := false }) s.queues }
  let s := s.setFld f { s.fld f with wasReplay := s.is (F.FLD_PROTSTAT_REPLAYING f) }
  (s.clear (F.FLD_PROTSTAT_REPLAYING f)).clear (F.FLD_PROTSTAT_VERIFIED f)
/-- R165: a failed frame's outputs are not released and its carriages are discarded; the field is rewound without a replay,
unless a snapshot holds its shadows, where it keeps its state. -/
def State.dropFailed (s : State) (f : Nat) : State :=
  let s := if s.is (F.FLD_SNAPSTAT_DRAIN f) then (s.discardHeld f).commitProtected f
    else (s.rewindFabric f).rewindNis f
  let s := s.setFld f { s.fld f with phase := .frame, wasReplay := false }
  (s.clear (F.FLD_PROTSTAT_REPLAYING f)).clear (F.FLD_PROTSTAT_VERIFIED f)
/-- R36, R45: a frame that has completed releases what it captured. -/
def State.releaseFrame (s : State) (f : Nat) : State :=
  let x := s.fld f
  if x.failed then s.dropFailed f
  else
    let s := if x.captured then s.setFld f { x with driven := x.release } else s
    if s.isProtected f then s.commitProtected f else s
/-- R44: a late field crosses a tick. -/
def State.crossTick (s : State) (f : Nat) : State :=
  let x := s.fld f
  s.setFld f { x with crossed := x.crossed + 1, missed := x.missed + 1 }
/-- R36: the guard cycles of a frame that no command has brought have passed when its tick comes. -/
def State.guardsPass (s : State) (f : Nat) : State :=
  if (s.fld f).phase = .frame ∧ (s.fld f).rewound = false then (s.guard1 f).guard2 f else s
/-- The frame of a field ends at a tick at which frames run: in time, after a late DONE, or not yet; one that failed ends in
any case (R165). A late field that R46 leaves no further span, and that no FIELD_STUCK has stopped, becomes STUCK now. -/
def State.endFrame (s : State) (f : Nat) : State :=
  let x := s.fld f
  match x.phase with
  | .frame =>
    if x.failed then s.dropFailed f
    else if x.doneAt.isNone then (s.overrun f).crossTick f
    else (s.comeTo f (s.budget f + 2)).releaseFrame f
  | .lateDone => ((s.captureShadows f).bump (F.FLD_OVRCNT_SKIP f) x.missed).releaseFrame f
  | .late =>
    if x.failed then (s.bump (F.FLD_OVRCNT_SKIP f) x.missed).dropFailed f
    else if s.spent f then (s.crossTick f).becomeStuck f
    else s.crossTick f
  | .stuck => if x.restart then s else s.setFld f { x with missed := x.missed + 1 }
  | .idle => if s.configured f && !(s.domainOn (4 + f) && s.swept f) then s.setFld f { x with missed := x.missed + 1 } else s

/-- R46: a late frame that has crossed as many ticks as it may is about to be STUCK; nothing waits for it. -/
def State.waitsFor (s : State) (f : Nat) : Bool :=
  let x := s.fld f
  decide (x.phase = .late) && !s.spent f
/-- R450: a field that runs frames is late at this tick. -/
def State.anyLate (s : State) : Bool := allFields.any s.waitsFor
/-- Frames stop at this tick: none begins. -/
def State.stopFrames (s : State) : State :=
  s.forEach allFields fun s f =>
    let s := s.fieldStuck f
    let x := s.fld f
    if x.phase = .stuck ∨ x.phase = .idle then s
    else s.setFld f { x with phase := .idle, doneAt := none, captured := false, failed := false, rewound := false }

/-! ## Modes that wait for a tick without a late field -/

/-- R450, R25: a halt at frame end; a STOP or VALLEY that waits for the same tick is rejected. -/
def State.haltAtTick (s : State) (src : Nat) : State :=
  s.rejectDrain.stopFrames.enterHalt false src
/-- Table 1-5: STOP ends in STAGED, with flip-flops at their initial values. -/
def State.stopAtTick (s : State) : State :=
  let s := s.stopFrames.forEach allFields fun s f =>
    if s.configured f then
      let s := if (s.fld f).phase = .stuck then s.bump (F.FLD_OVRCNT_SKIP f) (s.fld f).missed else s
      ((s.initFabric f).stuckNis f false).setFld f { s.fld f with phase := .idle, restart := false, missed := 0, crossed := 0 }
    else s
  s.enterMode { s.mode with base := .staged, busy := false, drain := none, backNext := false } .host
/-- Halts and drains that this tick takes. -/
def State.tickDrains (s : State) : State :=
  if !s.mode.running || s.anyLate then s
  else
    match s.dbg.halt, s.mode.drain with
    | some (false, src), _ => s.haltAtTick src
    | _, some .stop => s.stopAtTick
    | _, some .valley => s.stopFrames.enterValley
    | _, none => s

/-! ## Commits -/

/-- R48, R53: the TICK-kind blocks outside the fabric commit. -/
def State.tickCommits (s : State) : State :=
  (blockTable.filter fun b => b.commit == .tick && b.block != .fld).foldl (fun s b =>
    s.forEach (List.range b.count) fun s i => s.commitTick b i) s
/-- R49: the tick is a commit point of PWR. -/
def State.pwrCommits (s : State) : Bool := !s.is F.PWR_COMMIT_HOLD || s.is F.PWR_COMMIT_ARMED
/-- R34: the tick after this one. -/
def State.tickNext (s : State) (r : Nat) : State :=
  { s with time := { s.time with nextTick := some ((r + 80 * s.period) % 2 ^ 48) } }
/-- R34, R56 to R59: the commits, and the next edge by the PERIOD they leave; a commit point of PWR takes in a held request;
the fabric clock of a raise switches, which may end LOCKING's wait and place the grid anew (R184). -/
def State.tickPoints (s : State) (r : Nat) : State :=
  let t := s.tickCommits.tickNext r
  (if s.pwrCommits then t.takeAsked else t).opSwitch

/-! ## Frames begin -/

/-- R453: the resume tick of a halt. -/
def State.tickResume (s : State) : State :=
  match s.dbg.resume with
  | some r =>
    if s.mode.ov.halt && s.resumes r then
      let s := s.resumePrepare
      let m : ModeSt := { s.mode with ov := { s.mode.ov with halt := false } }
      let s := s.resumeMode m.withPending.withBack .debug
      let s : State := { s with dbg := { s.dbg with resume := none, prepared := false } }
      let s := (s.wdLoad.raise F.STW_WD_STAT_HALTSEEN).post 0x0EE 95 2
      if s.power.waiting then s.powerChange else s
    else s
  | none => s

/-- A field begins a frame at this tick. -/
def State.begins (s : State) (f : Nat) : Bool :=
  let x := s.fld f
  s.mode.running && s.configured f && s.domainOn (4 + f) && s.domStep (4 + f) == 0 && !x.drained && !s.reshaping f &&
    s.swept f && (match x.phase with | .late => false | .stuck => x.restart | _ => true)
/-- R34, R35, R154: what a frame takes from its starting tick. -/
def State.openField (s : State) (f : Nat) : State :=
  let op := s.get F.PWR_OPSTAT_OPF
  let x := s.fld f
  let s := s.setFld f { x with
    phase := .frame
    frames := x.frames + 1
    frameTick := s.time.tick
    frameTime := s.time.lastT
    mhz := fabricMhz op
    cycle := 0
    base := 0
    doneAt := none
    crossed := 0
    missed := 0
    restart := false
    captured := false
    rewound := false
    failed := false }
  let s := (s.clear (F.FLD_PROTSTAT_REPLAYING f)).put (F.FLD_BUDGET_CYC f) (budgetOf s.period op)
  s.put (F.FLD_WMAX_CYC f) (if s.isProtected f then (workLimit s.period op).toNat else 0)
/-- R44, R47, R53, R168: a field begins a frame: a restart acts, its block commits, and a snapshot that waits starts. -/
def State.beginFrame (s : State) (f : Nat) : State :=
  let x := s.fld f
  let s := match x.phase with
    | .stuck => ((s.initFabric f).stuckNis f false).bump (F.FLD_OVRCNT_SKIP f) x.missed
    | .idle => s.bump (F.FLD_OVRCNT_SKIP f) x.missed
    | _ => s
  let s := match blockOf .fld with | some b => s.commitTick b f | none => s
  let s := s.openField f
  if x.snapWait then s.snapStart f else s
/-- R29: a tick without frames under a suspended RUN or HOLDOVER. -/
def State.countLost (s : State) : State :=
  if s.mode.suspended && (decide (s.mode.base = .run) || decide (s.mode.base = .holdover)) then
    { s with mode := { s.mode with lost := s.mode.lost + 1 } }
  else s

/-- R36: frames end; reshapes stop first, at fields that are not in overrun (R187). -/
def State.tickEnds (s : State) : State :=
  if s.mode.running then
    (s.forEach allFields State.guardsPass).reshapeStops.forEach allFields State.endFrame
  else s
/-- R192: fields whose sweep and repairs are complete wait for them no more. -/
def State.endSweeps (s : State) : State :=
  { s with cfg := { s.cfg with sweeps := SMap.drop s.swept s.cfg.sweeps } }
/-- Frames begin. -/
def State.tickBegins (s : State) : State :=
  s.forEach (allFields.filter s.begins) State.beginFrame
/-- The tick whose edge lies at RAW count `r`. -/
def State.tickAt (s : State) (r : Nat) : State :=
  let s := (s.tickEdge r).openFrame.wdTick.forEach (List.range 4) State.lcWindow
  let s := s.tickEnds.tickDrains.tickModes
  let s := if s.mode.running then s.reshapeCommits else s
  let s := (s.tickPoints r).banksBack
  (s.tickResume.endSweeps.tickBegins.countLost).flushDisabled
/-- TICK: the next tick of the grid; without one nothing happens. -/
def State.tickStep (s : State) : State :=
  match s.time.nextTick with
  | some r => s.tickAt r
  | none => s
def execTick (s : State) : Ans := .next s.tickStep

end Sys2Proof.Machine
end

