-- ==== Sys2Proof/Machine/Windows.lean ====
section
/-! DEFINITION. The timetable's actions WAKE, EVENT and RESHAPE_GO (Table 11-5). -/
namespace Sys2Proof.Machine

/-- WAKE: a column-63 wake (R394). -/
def execWake (col : Fin 64) (s : State) : Ans := .next (s.ttPerform col 7 fun s _ => s.wakeFrom 3)

/-- EVENT: a column-62 entry with bit 7 of ARG opens a maintenance window, of a channel or of the timing lanes (R335, R422);
any other posts TT_USER. -/
def State.actEvent (s : State) (t : TtTaken) : State :=
  let a := t.entry.arg.toNat
  if t.col = 62 && bitOf 7 a then
    match bitsOf 4 3 a with
    | 0 => s.maintWindow (a % 8)
    | 1 => s.laneWindow
    | _ => s
  else s.postAt (s.ttWhen t) 0x021 93 (a % 256)
def execTtEvent (col : Fin 64) (s : State) : Ans := .next (s.ttPerform col 8 State.actEvent)

/-- RESHAPE_GO, R187: the accepted image that waits stops its fields at the next tick; with none the log says so. -/
def State.reshapeGo (s : State) : State :=
  match s.cfg.load with
  | some l => if l.phase = .waitStop then s.setLoad { l with fired := true } else s.logEntry 0x08D 94 0 0
  | none => s.logEntry 0x08D 94 0 0
def execReshapeGo (col : Fin 64) (s : State) : Ans := .next (s.ttPerform col 9 fun s _ => s.reshapeGo)

end Sys2Proof.Machine
end

