-- ==== Sys2Proof/Machine/Dispatch.lean ====
section
/-! DEFINITION. Which meaning each command has. -/
namespace Sys2Proof.Machine

/-- R26 to R493: one arm for each command. -/
def exec (i : Instr) (s : State) : Host.Outcome State Fault Refusal :=
  match i with
  | .registerWrite path off size d => Sys2Proof.Machine.execRegisterWrite path off size d s
  | .loRead path off size => Sys2Proof.Machine.execLoRead path off size s
  | .hiWrite path off d => Sys2Proof.Machine.execHiWrite path off d s
  | .rcRead path off => Sys2Proof.Machine.execRcRead path off s
  | .powerOn => Sys2Proof.Machine.execPowerOn s
  | .supplyLoss => Sys2Proof.Machine.execSupplyLoss s
  | .perstN => Sys2Proof.Machine.execPerstN s
  | .deviceReset cause => Sys2Proof.Machine.execDeviceReset cause s
  | .softwareReset path first second cycles => Sys2Proof.Machine.execSoftwareReset path first second cycles s
  | .reqRun => Sys2Proof.Machine.execReqRun s
  | .reqStop => Sys2Proof.Machine.execReqStop s
  | .reqValley => Sys2Proof.Machine.execReqValley s
  | .reqSelfTest run fail => Sys2Proof.Machine.execReqSelfTest run fail s
  | .reqRelease checks => Sys2Proof.Machine.execReqRelease checks s
  | .reqUnload => Sys2Proof.Machine.execReqUnload s
  | .lockTimeout => Sys2Proof.Machine.execLockTimeout s
  | .tick => Sys2Proof.Machine.execTick s
  | .commitGo path off hold => Sys2Proof.Machine.execCommitGo path off hold s
  | .commitDiscard path off hold go => Sys2Proof.Machine.execCommitDiscard path off hold go s
  | .done f cyc => Sys2Proof.Machine.execDone f cyc s
  | .guard1 f => Sys2Proof.Machine.execGuard1 f s
  | .guard2 f => Sys2Proof.Machine.execGuard2 f s
  | .fieldStuck f => Sys2Proof.Machine.execFieldStuck f s
  | .restart f => Sys2Proof.Machine.execRestart f s
  | .powerGood => Sys2Proof.Machine.execPowerGood s
  | .pgtmo => Sys2Proof.Machine.execPgtmo s
  | .vcoreSettled => Sys2Proof.Machine.execVcoreSettled s
  | .nop o => Sys2Proof.Machine.execNop o s
  | .add o => Sys2Proof.Machine.execAdd o s
  | .adc o => Sys2Proof.Machine.execAdc o s
  | .addw o => Sys2Proof.Machine.execAddw o s
  | .sub o => Sys2Proof.Machine.execSub o s
  | .sbc o => Sys2Proof.Machine.execSbc o s
  | .subw o => Sys2Proof.Machine.execSubw o s
  | .neg o => Sys2Proof.Machine.execNeg o s
  | .abs o => Sys2Proof.Machine.execAbs o s
  | .addsh o => Sys2Proof.Machine.execAddsh o s
  | .cmp o => Sys2Proof.Machine.execCmp o s
  | .cmpw o => Sys2Proof.Machine.execCmpw o s
  | .and o => Sys2Proof.Machine.execAnd o s
  | .or o => Sys2Proof.Machine.execOr o s
  | .xor o => Sys2Proof.Machine.execXor o s
  | .andn o => Sys2Proof.Machine.execAndn o s
  | .orn o => Sys2Proof.Machine.execOrn o s
  | .xnor o => Sys2Proof.Machine.execXnor o s
  | .not o => Sys2Proof.Machine.execNot o s
  | .bsel o => Sys2Proof.Machine.execBsel o s
  | .test o => Sys2Proof.Machine.execTest o s
  | .xorshr o => Sys2Proof.Machine.execXorshr o s
  | .shl o => Sys2Proof.Machine.execShl o s
  | .shr o => Sys2Proof.Machine.execShr o s
  | .sar o => Sys2Proof.Machine.execSar o s
  | .rol o => Sys2Proof.Machine.execRol o s
  | .ror o => Sys2Proof.Machine.execRor o s
  | .shlv o => Sys2Proof.Machine.execShlv o s
  | .shrv o => Sys2Proof.Machine.execShrv o s
  | .sarv o => Sys2Proof.Machine.execSarv o s
  | .fshr o => Sys2Proof.Machine.execFshr o s
  | .extu o => Sys2Proof.Machine.execExtu o s
  | .exts o => Sys2Proof.Machine.execExts o s
  | .ins o => Sys2Proof.Machine.execIns o s
  | .brev o => Sys2Proof.Machine.execBrev o s
  | .bswap o => Sys2Proof.Machine.execBswap o s
  | .popc o => Sys2Proof.Machine.execPopc o s
  | .clz o => Sys2Proof.Machine.execClz o s
  | .ctz o => Sys2Proof.Machine.execCtz o s
  | .cls o => Sys2Proof.Machine.execCls o s
  | .mins o => Sys2Proof.Machine.execMins o s
  | .maxs o => Sys2Proof.Machine.execMaxs o s
  | .minu o => Sys2Proof.Machine.execMinu o s
  | .maxu o => Sys2Proof.Machine.execMaxu o s
  | .sel o => Sys2Proof.Machine.execSel o s
  | .selz o => Sys2Proof.Machine.execSelz o s
  | .mov o => Sys2Proof.Machine.execMov o s
  | .ldi o => Sys2Proof.Machine.execLdi o s
  | .ldim o => Sys2Proof.Machine.execLdim o s
  | .ldih o => Sys2Proof.Machine.execLdih o s
  | .getf o => Sys2Proof.Machine.execGetf o s
  | .setf o => Sys2Proof.Machine.execSetf o s
  | .vadd o => Sys2Proof.Machine.execVadd o s
  | .vsub o => Sys2Proof.Machine.execVsub o s
  | .vabs o => Sys2Proof.Machine.execVabs o s
  | .vmins o => Sys2Proof.Machine.execVmins o s
  | .vmaxs o => Sys2Proof.Machine.execVmaxs o s
  | .vminu o => Sys2Proof.Machine.execVminu o s
  | .vmaxu o => Sys2Proof.Machine.execVmaxu o s
  | .vcmpeq o => Sys2Proof.Machine.execVcmpeq o s
  | .vcmpgt o => Sys2Proof.Machine.execVcmpgt o s
  | .vshl o => Sys2Proof.Machine.execVshl o s
  | .vshr o => Sys2Proof.Machine.execVshr o s
  | .vsar o => Sys2Proof.Machine.execVsar o s
  | .vavg o => Sys2Proof.Machine.execVavg o s
  | .lut12 o => Sys2Proof.Machine.execLut12 o s
  | .lutonly o => Sys2Proof.Machine.execLutonly o s
  | .loadx e => Sys2Proof.Machine.execLoadx e s
  | .loady e => Sys2Proof.Machine.execLoady e s
  | .inc e => Sys2Proof.Machine.execInc e s
  | .incg e => Sys2Proof.Machine.execIncg e s
  | .contention f track cyc => Sys2Proof.Machine.execContention f track cyc s
  | .contClr f => Sys2Proof.Machine.execContClr f s
  | .sliceNop o => Sys2Proof.Machine.execSliceNop o s
  | .mul o => Sys2Proof.Machine.execMul o s
  | .mac o => Sys2Proof.Machine.execMac o s
  | .msu o => Sys2Proof.Machine.execMsu o s
  | .tapm o => Sys2Proof.Machine.execTapm o s
  | .tapc o => Sys2Proof.Machine.execTapc o s
  | .tapz o => Sys2Proof.Machine.execTapz o s
  | .rdacc o => Sys2Proof.Machine.execRdacc o s
  | .ldacc o => Sys2Proof.Machine.execLdacc o s
  | .addacc o => Sys2Proof.Machine.execAddacc o s
  | .clracc o => Sys2Proof.Machine.execClracc o s
  | .sliceMov o => Sys2Proof.Machine.execSliceMov o s
  | .sliceLdi o => Sys2Proof.Machine.execSliceLdi o s
  | .sliceLdim o => Sys2Proof.Machine.execSliceLdim o s
  | .sliceLdih o => Sys2Proof.Machine.execSliceLdih o s
  | .swaph o => Sys2Proof.Machine.execSwaph o s
  | .conj o => Sys2Proof.Machine.execConj o s
  | .idle o => Sys2Proof.Machine.execIdle o s
  | .read o chk => Sys2Proof.Machine.execRead o chk s
  | .write o => Sys2Proof.Machine.execWrite o s
  | .push o => Sys2Proof.Machine.execPush o s
  | .pop o chk => Sys2Proof.Machine.execPop o chk s
  | .peek o chk => Sys2Proof.Machine.execPeek o chk s
  | .fetchAdd o chk => Sys2Proof.Machine.execFetchAdd o chk s
  | .swap o chk => Sys2Proof.Machine.execSwap o chk s
  | .fetchAnd o chk => Sys2Proof.Machine.execFetchAnd o chk s
  | .fetchOr o chk => Sys2Proof.Machine.execFetchOr o chk s
  | .fetchMax o chk => Sys2Proof.Machine.execFetchMax o chk s
  | .trig o => Sys2Proof.Machine.execTrig o s
  | .resetq o => Sys2Proof.Machine.execResetq o s
  | .writeBack f j cyc => Sys2Proof.Machine.execWriteBack f j cyc s
  | .spineWordAccess f j cyc chk => Sys2Proof.Machine.execSpineWordAccess f j cyc chk s
  | .queueWriteTimeout f j => Sys2Proof.Machine.execQueueWriteTimeout f j s
  | .patrolVisit f cyc chk => Sys2Proof.Machine.execPatrolVisit f cyc chk s
  | .bminit f block => Sys2Proof.Machine.execBminit f block s
  | .bminitDone f => Sys2Proof.Machine.execBminitDone f s
  | .chkfail f cyc => Sys2Proof.Machine.execChkfail f cyc s
  | .replayStart f cyc => Sys2Proof.Machine.execReplayStart f cyc s
  | .verificationWindowClose f => Sys2Proof.Machine.execVerificationWindowClose f s
  | .snapDone f => Sys2Proof.Machine.execSnapDone f s
  | .cfgload q slot checks => Sys2Proof.Machine.execCfgload q slot checks s
  | .loadSourceTimeout => Sys2Proof.Machine.execLoadSourceTimeout s
  | .verify => Sys2Proof.Machine.execVerify s
  | .writePhase checks => Sys2Proof.Machine.execWritePhase checks s
  | .abort => Sys2Proof.Machine.execAbort s
  | .storeen on => Sys2Proof.Machine.execStoreen on s
  | .goldbuild => Sys2Proof.Machine.execGoldbuild s
  | .goldbuildDone errs checks => Sys2Proof.Machine.execGoldbuildDone errs checks s
  | .reshapeWrite f => Sys2Proof.Machine.execReshapeWrite f s
  | .sense code frame errs ns cyc => Sys2Proof.Machine.execSense code frame errs ns cyc s
  | .repair checks segs => Sys2Proof.Machine.execRepair checks segs s
  | .goldenScan errs checks cyc => Sys2Proof.Machine.execGoldenScan errs checks cyc s
  | .carriageHop n out cyc link => Sys2Proof.Machine.execCarriageHop n out cyc link s
  | .rdLine n => Sys2Proof.Machine.execRdLine n s
  | .rdWords n => Sys2Proof.Machine.execRdWords n s
  | .wrLine n => Sys2Proof.Machine.execWrLine n s
  | .wrWords n => Sys2Proof.Machine.execWrWords n s
  | .atomic n => Sys2Proof.Machine.execAtomic n s
  | .cas n => Sys2Proof.Machine.execCas n s
  | .fenceReq n => Sys2Proof.Machine.execFenceReq n s
  | .event n => Sys2Proof.Machine.execEvent n s
  | .trigger n => Sys2Proof.Machine.execTrigger n s
  | .bcast n => Sys2Proof.Machine.execBcast n s
  | .cfg n => Sys2Proof.Machine.execCfg n s
  | .rdResp n => Sys2Proof.Machine.execRdResp n s
  | .wrAck n => Sys2Proof.Machine.execWrAck n s
  | .atomicResp n => Sys2Proof.Machine.execAtomicResp n s
  | .fenceAck n => Sys2Proof.Machine.execFenceAck n s
  | .bounce n => Sys2Proof.Machine.execBounce n s
  | .txIdle n cyc => Sys2Proof.Machine.execTxIdle n cyc s
  | .addr n cyc => Sys2Proof.Machine.execAddr n cyc s
  | .head n cyc => Sys2Proof.Machine.execHead n cyc s
  | .word n cyc => Sys2Proof.Machine.execWord n cyc s
  | .send n cyc => Sys2Proof.Machine.execSend n cyc s
  | .drop n cyc => Sys2Proof.Machine.execDrop n cyc s
  | .requestTimeout n seq => Sys2Proof.Machine.execRequestTimeout n seq s
  | .slot n slot cyc lastWheel => Sys2Proof.Machine.execSlot n slot cyc lastWheel s
  | .regulatedInject n elapsed => Sys2Proof.Machine.execRegulatedInject n elapsed s
  | .fenceRelease n => Sys2Proof.Machine.execFenceRelease n s
  | .ordclr n => Sys2Proof.Machine.execOrdclr n s
  | .tdataWrite n data => Sys2Proof.Machine.execTdataWrite n data s
  | .anchorRebase => Sys2Proof.Machine.execAnchorRebase s
  | .incrWrite v => Sys2Proof.Machine.execIncrWrite v s
  | .stepWrite v => Sys2Proof.Machine.execStepWrite v s
  | .nowRead path => Sys2Proof.Machine.execNowRead path s
  | .timeWrap => Sys2Proof.Machine.execTimeWrap s
  | .synthLock ch loc => Sys2Proof.Machine.execSynthLock ch loc s
  | .syncInEdge ball => Sys2Proof.Machine.execSyncInEdge ball s
  | .syncLost => Sys2Proof.Machine.execSyncLost s
  | .txStamp l t => Sys2Proof.Machine.execTxStamp l t s
  | .txqidRead idx path => Sys2Proof.Machine.execTxqidRead idx path s
  | .trigEdge idx level t => Sys2Proof.Machine.execTrigEdge idx level t s
  | .pulseEnd o => Sys2Proof.Machine.execPulseEnd o s
  | .ttload q slot => Sys2Proof.Machine.execTtload q slot s
  | .dispatch => Sys2Proof.Machine.execDispatch s
  | .pulse col => Sys2Proof.Machine.execPulse col s
  | .level col => Sys2Proof.Machine.execLevel col s
  | .inject col => Sys2Proof.Machine.execInject col s
  | .ttTrigger col => Sys2Proof.Machine.execTtTrigger col s
  | .ttSnap col => Sys2Proof.Machine.execTtSnap col s
  | .ttCommit col => Sys2Proof.Machine.execTtCommit col s
  | .wake col => Sys2Proof.Machine.execWake col s
  | .ttEvent col => Sys2Proof.Machine.execTtEvent col s
  | .reshapeGo col => Sys2Proof.Machine.execReshapeGo col s
  | .colClr col => Sys2Proof.Machine.execColClr col s
  | .frameClose => Sys2Proof.Machine.execFrameClose s
  | .bar2Write off bytes => Sys2Proof.Machine.execBar2Write off bytes s
  | .bar2Read off n tag => Sys2Proof.Machine.execBar2Read off n tag s
  | .doorbellPoll bme => Sys2Proof.Machine.execDoorbellPoll bme s
  | .doorbellRead blk => Sys2Proof.Machine.execDoorbellRead blk s
  | .move q slot => Sys2Proof.Machine.execMove q slot s
  | .fill q slot => Sys2Proof.Machine.execFill q slot s
  | .fence q slot => Sys2Proof.Machine.execFence q slot s
  | .snap q slot => Sys2Proof.Machine.execSnap q slot s
  | .slotload q slot => Sys2Proof.Machine.execSlotload q slot s
  | .routeload q slot => Sys2Proof.Machine.execRouteload q slot s
  | .keyload q slot => Sys2Proof.Machine.execKeyload q slot s
  | .renew q slot => Sys2Proof.Machine.execRenew q slot s
  | .atomicDesc q slot => Sys2Proof.Machine.execAtomicDesc q slot s
  | .mark q slot => Sys2Proof.Machine.execMark q slot s
  | .completionWrite q => Sys2Proof.Machine.execCompletionWrite q s
  | .qpEnable q => Sys2Proof.Machine.execQpEnable q s
  | .ringEnable event => Sys2Proof.Machine.execRingEnable event s
  | .hostBridgeReset kind => Sys2Proof.Machine.execHostBridgeReset kind s
  | .linkRetrain rate width => Sys2Proof.Machine.execLinkRetrain rate width s
  | .portTrain p => Sys2Proof.Machine.execPortTrain p s
  | .trainTimeout p => Sys2Proof.Machine.execTrainTimeout p s
  | .car p c crc lseq ack => Sys2Proof.Machine.execCar p c crc lseq ack s
  | .idleBlock p ack => Sys2Proof.Machine.execIdleBlock p ack s
  | .nak p lseq ack => Sys2Proof.Machine.execNak p lseq ack s
  | .train p lane idx width4 ready dev inverted => Sys2Proof.Machine.execTrain p lane idx width4 ready dev inverted s
  | .wakeBlock l => Sys2Proof.Machine.execWakeBlock l s
  | .xoff p rsp ack => Sys2Proof.Machine.execXoff p rsp ack s
  | .xon p rsp ack => Sys2Proof.Machine.execXon p rsp ack s
  | .markT p lane time rx inPlace => Sys2Proof.Machine.execMarkT p lane time rx inPlace s
  | .markR p lane time t1 inPlace => Sys2Proof.Machine.execMarkR p lane time t1 inPlace s
  | .replayTimeout p receiver => Sys2Proof.Machine.execReplayTimeout p receiver s
  | .rawReceive l ws count start ball idle => Sys2Proof.Machine.execRawReceive l ws count start ball idle s
  | .underrun l => Sys2Proof.Machine.execUnderrun l s
  | .slip l n => Sys2Proof.Machine.execSlip l n s
  | .eidle isPort idx v => Sys2Proof.Machine.execEidle isPort idx v s
  | .ctleStep l step => Sys2Proof.Machine.execCtleStep l step s
  | .laneLoss l => Sys2Proof.Machine.execLaneLoss l s
  | .channelEnable c => Sys2Proof.Machine.execChannelEnable c s
  | .channelInitDone c err => Sys2Proof.Machine.execChannelInitDone c err s
  | .channelDisable c => Sys2Proof.Machine.execChannelDisable c s
  | .refsb c rank bank => Sys2Proof.Machine.execRefsb c rank bank s
  | .rowIdleClose c bank => Sys2Proof.Machine.execRowIdleClose c bank s
  | .commandConfirm c => Sys2Proof.Machine.execCommandConfirm c s
  | .forcedRetrain c comp drift => Sys2Proof.Machine.execForcedRetrain c comp drift s
  | .retrainNow c comp drift => Sys2Proof.Machine.execRetrainNow c comp drift s
  | .tempStatusPoll c demand => Sys2Proof.Machine.execTempStatusPoll c demand s
  | .alert c crc asleep => Sys2Proof.Machine.execAlert c crc asleep s
  | .unfreeze c => Sys2Proof.Machine.execUnfreeze c s
  | .zeroFillDone c => Sys2Proof.Machine.execZeroFillDone c s
  | .groupFlush c group => Sys2Proof.Machine.execGroupFlush c group s
  | .dramPatrolVisit c checks => Sys2Proof.Machine.execDramPatrolVisit c checks s
  | .remapValid c k => Sys2Proof.Machine.execRemapValid c k s
  | .remapDone c k checks => Sys2Proof.Machine.execRemapDone c k checks s
  | .zero key => Sys2Proof.Machine.execZero key s
  | .spare key => Sys2Proof.Machine.execSpare key s
  | .unspare key => Sys2Proof.Machine.execUnspare key s
  | .flush => Sys2Proof.Machine.execFlush s
  | .renewVisit checks => Sys2Proof.Machine.execRenewVisit checks s
  | .holdTimeout c id => Sys2Proof.Machine.execHoldTimeout c id s
  | .domainDrain d => Sys2Proof.Machine.execDomainDrain d s
  | .drainTimeout d => Sys2Proof.Machine.execDrainTimeout d s
  | .domainOn d checks => Sys2Proof.Machine.execDomainOn d checks s
  | .valleyEntry => Sys2Proof.Machine.execValleyEntry s
  | .wakeN => Sys2Proof.Machine.execWakeN s
  | .l1Exit => Sys2Proof.Machine.execL1Exit s
  | .wakeComplete => Sys2Proof.Machine.execWakeComplete s
  | .refclkChLoss => Sys2Proof.Machine.execRefclkChLoss s
  | .refclkLocLoss => Sys2Proof.Machine.execRefclkLocLoss s
  | .ratioValid ratio => Sys2Proof.Machine.execRatioValid ratio s
  | .requalify => Sys2Proof.Machine.execRequalify s
  | .synthUnlock k => Sys2Proof.Machine.execSynthUnlock k s
  | .safeN low => Sys2Proof.Machine.execSafeN low s
  | .voutModeRead answer => Sys2Proof.Machine.execVoutModeRead answer s
  | .pmbusPoll a => Sys2Proof.Machine.execPmbusPoll a s
  | .undervoltage => Sys2Proof.Machine.execUndervoltage s
  | .sensorSample thermal vs => Sys2Proof.Machine.execSensorSample thermal vs s
  | .scan => Sys2Proof.Machine.execScan s
  | .bmpat f => Sys2Proof.Machine.execBmpat f s
  | .dpatrol c => Sys2Proof.Machine.execDpatrol c s
  | .refresh c => Sys2Proof.Machine.execRefresh c s
  | .ctle l valid width height => Sys2Proof.Machine.execCtle l valid width height s
  | .op => Sys2Proof.Machine.execOp s
  | .erase c => Sys2Proof.Machine.execErase c s
  | .remap c => Sys2Proof.Machine.execRemap c s
  | .renewLoop => Sys2Proof.Machine.execRenewLoop s
  | .shed => Sys2Proof.Machine.execShed s
  | .stwRestart => Sys2Proof.Machine.execStwRestart s
  | .limitRatio idx num den meas => Sys2Proof.Machine.execLimitRatio idx num den meas s
  | .mwinPlace => Sys2Proof.Machine.execMwinPlace s
  | .wdExpire => Sys2Proof.Machine.execWdExpire s
  | .wdExpiredClear => Sys2Proof.Machine.execWdExpiredClear s
  | .fieldTest cols again other checks => Sys2Proof.Machine.execFieldTest cols again other checks s
  | .fieldRestore checks => Sys2Proof.Machine.execFieldRestore checks s
  | .bistAbort => Sys2Proof.Machine.execBistAbort s
  | .scanEnter => Sys2Proof.Machine.execScanEnter s
  | .srepWrite k r => Sys2Proof.Machine.execSrepWrite k r s
  | .prog path first second cycles tj => Sys2Proof.Machine.execProg path first second cycles tj s
  | .fuseWord ok => Sys2Proof.Machine.execFuseWord ok s
  | .dbgReg w => Sys2Proof.Machine.execDbgReg w s
  | .tapReset => Sys2Proof.Machine.execTapReset s
  | .bypass bits => Sys2Proof.Machine.execBypass bits s
  | .samplePreload pins bits => Sys2Proof.Machine.execSamplePreload pins bits s
  | .extest pins bits => Sys2Proof.Machine.execExtest pins bits s
  | .clamp bits => Sys2Proof.Machine.execClamp bits s
  | .highz bits => Sys2Proof.Machine.execHighz bits s
  | .idcode => Sys2Proof.Machine.execIdcode s
  | .unlock path first second cycles => Sys2Proof.Machine.execUnlock path first second cycles s
  | .lock path => Sys2Proof.Machine.execLock path s
  | .dbgEnFall => Sys2Proof.Machine.execDbgEnFall s
  | .accRead path => Sys2Proof.Machine.execAccRead path s
  | .accWrite path => Sys2Proof.Machine.execAccWrite path s
  | .lr path => Sys2Proof.Machine.execLr path s
  | .sc path => Sys2Proof.Machine.execSc path s
  | .lcWindow idx => Sys2Proof.Machine.execLcWindow idx s
  | .haltFrameEnd path => Sys2Proof.Machine.execHaltFrameEnd path s
  | .haltNow path => Sys2Proof.Machine.execHaltNow path s
  | .release path => Sys2Proof.Machine.execRelease path s
  | .resumePrepare => Sys2Proof.Machine.execResumePrepare s
  | .traceEnable path => Sys2Proof.Machine.execTraceEnable path s
  | .vtSend cyc => Sys2Proof.Machine.execVtSend cyc s
  | .take cyc => Sys2Proof.Machine.execTake cyc s
  | .vtTxWrite path data => Sys2Proof.Machine.execVtTxWrite path data s
  | .rxtake path => Sys2Proof.Machine.execRxtake path s
  | .vccioFault b => Sys2Proof.Machine.execVccioFault b s
  | .vccioReturn b => Sys2Proof.Machine.execVccioReturn b s
  | .flashLoad words => Sys2Proof.Machine.execFlashLoad words s
  | .hostMemoryRead q r => Sys2Proof.Machine.execHostMemoryRead q r s
  | .commandSlot c checks => Sys2Proof.Machine.execCommandSlot c checks s
  | .dramPhyUnlock c asleep => Sys2Proof.Machine.execDramPhyUnlock c asleep s
  | .selfRefreshIdle c => Sys2Proof.Machine.execSelfRefreshIdle c s
  | .blklock l lat => Sys2Proof.Machine.execBlklock l lat s
  | .prbsSync l errs => Sys2Proof.Machine.execPrbsSync l errs s
  | .linkTraining rate width => Sys2Proof.Machine.execLinkTraining rate width s

end Sys2Proof.Machine
end

