-- ==== Sys2Proof/Machine/Step.lean ====
section
/-! DEFINITION. One step of the block: the command at the front of the queue, or the passing of time. -/
namespace Sys2Proof.Machine

open Sys2Proof

/-- The block with nothing commanded: RAW, the 1 GHz count of R243, advances by one, unless the edge of a tick that has not
been commanded yet has come (DESIGN CHOICE, log entry 3). -/
def State.idle (s : State) : State :=
  if s.time.nextTick = some s.time.raw then s else (s.advance 1).forEach (List.range 6) State.resumePort

/-- The command at the front of the queue acts on the state with the queue's rest; on an empty queue the block idles. -/
def step (s : State) : Host.Outcome State Fault Refusal :=
  match s.pending with
  | [] => .next s.idle
  | c :: cs => exec c { s with pending := cs }

/-- No row of the table has bits, so no word spells a command. -/
def State.withFetchWord (s : State) (nbits w : Nat) : State :=
  match Sys2Proof.decodeTableWord nbits w with
  | some c => { s with pending := c :: s.pending }
  | none => s

end Sys2Proof.Machine
end

