-- ==== Sys2Proof/Safety.lean ====
section
/-! DEFINITION. What a good state and a safe run are: the invariant of the block, and steps that neither fault nor refuse. -/
namespace Sys2Proof.Machine

/-- Canonical form of the block memories: addresses rise, and no entry is what an unlisted address reads as. -/
def Memory.wf (m : SMap (Option BmCell)) : Bool := SMap.wf none m

/-- Keys from `lo` on rise strictly. -/
def SMap.risingFrom {α : Type} : Nat → SMap α → Bool
  | _, [] => true
  | lo, (k, _) :: m => decide (lo ≤ k) && SMap.risingFrom (k + 1) m

/-- R23: a base mode; RESHAPE, VALLEY, SAFE-HOLD, HALT, SELF-TEST and FREEZE are overlays and never one. -/
def Mode.isBase : Mode → Bool
  | .bare | .loading | .staged | .locking | .run | .holdover => true
  | _ => false

/-- The invariant: block memories in canonical form, each register listed once, and a base mode beneath the overlays, now
and to return to. -/
structure State.Inv (s : State) : Prop where
  bmem : Memory.wf s.bmem = true
  regs : SMap.risingFrom 0 s.regs = true
  base : s.mode.base.isBase = true
  before : s.mode.before.isBase = true

/-- Two states that differ at most in what observing leaves: registers, event numbers, the Pass, the controls of fields (the
probe words among them) and the debugger. Cells, slices, segments, memories, queues, routers, NIs, lanes, DRAM, modes and time are
those of before. -/
structure State.SameStores (s t : State) : Prop where
  pending : t.pending = s.pending
  staged : t.staged = s.staged
  hostPath : t.hostPath = s.hostPath
  debugPath : t.debugPath = s.debugPath
  stewardPath : t.stewardPath = s.stewardPath
  readOut : t.readOut = s.readOut
  mode : t.mode = s.mode
  time : t.time = s.time
  tt : t.tt = s.tt
  matrix : t.matrix = s.matrix
  tsp : t.tsp = s.tsp
  log : t.log = s.log
  hostOut : t.hostOut = s.hostOut
  host : t.host = s.host
  cells : t.cells = s.cells
  slices : t.slices = s.slices
  segs : t.segs = s.segs
  bmem : t.bmem = s.bmem
  queues : t.queues = s.queues
  routers : t.routers = s.routers
  spineNow : t.spineNow = s.spineNow
  nis : t.nis = s.nis
  ports : t.ports = s.ports
  lanes : t.lanes = s.lanes
  linkOut : t.linkOut = s.linkOut
  laneOut : t.laneOut = s.laneOut
  images : t.images = s.images
  cfg : t.cfg = s.cfg
  power : t.power = s.power
  straps : t.straps = s.straps
  fuses : t.fuses = s.fuses
  atReset : t.atReset = s.atReset
  tap : t.tap = s.tap
  pins : t.pins = s.pins
  drams : t.drams = s.drams
  cry : t.cry = s.cry
  stw : t.stw = s.stw
  bist : t.bist = s.bist
  free : t.free = s.free

/-- Two states between which cycles of field `f` have ended (R61, R93): its relays and segments have loaded, the synchronisers of its
wire-clocked registers have stepped and open values were used; every register of a cell and every other segment is as before. -/
structure State.Turned (s t : State) (f : Nat) : Prop where
  cells : ∀ k, t.cell k = { s.cell k with sync := (t.cell k).sync }
  segs : ∀ k, k / 2048 ≠ f → t.seg k = s.seg k
  rest : State.SameStores { s with cells := t.cells, segs := t.segs, free := t.free } t

/-- Two states between which the configuration engine or a field test has used lines of DRAM (R178, R431): the channels, their
bookkeeping, the cryptography, the registers of the blocks from DRC on, events, the log, the steward's counts and open values may
differ, and nothing else. -/
structure State.EngineWork (s t : State) : Prop where
  regs : ∀ o, o < 0x100000 → o ≠ R.TIME_PASS_STAT.off → ∀ z, SMap.get t.regs z o = SMap.get s.regs z o
  fields : t.fields = s.fields
  rest : State.SameStores { s with
    log := t.log, host := { s.host with dropped := t.host.dropped }, stw := t.stw, drams := t.drams, cry := t.cry, free := t.free } t

/-- The configuration a command's cell or slice runs on: as an upset has altered it, else as the image has it (R87, R123). -/
def CellOp.cfg (o : CellOp) (i : FieldImage) : CellCfg := o.alt.getD (i.cell o.place)
def SliceOp.cfg (o : SliceOp) (i : FieldImage) : SliceCfg := o.alt.getD (i.slice o.slice)

/-- A cell executes entry `e` of operation `op` in this cycle (R61 to R64, R87): its field is configured and executes, the cell has
not executed this cycle, is not LUT-only, the entry of its configuration is the command's, and Table 3-8 forbids none of its fields. -/
structure CellRuns (s : State) (o : CellOp) (op : Nat) (i : FieldImage) (e : EntryFields) : Prop where
  image : s.image o.field = some i
  ready : s.cellReady o = true
  words : (o.cfg i).lutOnly = false
  entry : entryFor cellOps op ((o.cfg i).entry (o.cycle % i.len o.cluster)) = some e
  allowed : cellForbidden op e (i.len o.cluster) = false
/-- What that cell reads at the start of the cycle. -/
def State.reads (s : State) (o : CellOp) (i : FieldImage) (e : EntryFields) : AluIn :=
  (s.cellTurn o).cellIn i o ((s.fld o.field).stamp o.cycle) e
/-- A slice executes entry `e` of operation `op` in this cycle (R109, R123). -/
structure SliceRuns (s : State) (o : SliceOp) (op : Nat) (i : FieldImage) (e : EntryFields) : Prop where
  image : s.image o.field = some i
  ready : s.sliceReady o = true
  entry : entryFor sliceOps op ((o.cfg i).entry (o.cycle % i.len (o.slice.val / 2))) = some e
  allowed : sliceForbidden op e = false
/-- What that slice reads, and whether its COND holds. -/
def State.sliceReads (s : State) (o : SliceOp) (i : FieldImage) (e : EntryFields) : SliceIn :=
  (s.sliceTurn o).sliceIn i o ((s.fld o.field).stamp o.cycle) e
def State.sliceCond (s : State) (o : SliceOp) (i : FieldImage) (e : EntryFields) : Bool :=
  condHolds e.cond (s.sliceReads o i e).regs.fl (decide (o.cycle < i.len (o.slice.val / 2)))

/-- A run of `n` steps that neither faults nor refuses. -/
def safeRun : Nat → State → Prop
  | 0, _ => True
  | n + 1, s => ∃ t, step s = .next t ∧ safeRun n t

end Sys2Proof.Machine
end

