-- ==== Sys2Proof/Certificates/Slice0/Obligations.lean ====
section
/-! DEFINITION. What is claimed of the block: the statements for the provers, by chapter of the spec. -/
namespace Sys2Proof.Machine

/-! ## The words the statements use -/

/-- What a command does to the one cell it names: output latch, flags, COUT, what its neighbours read, the register DST names
where `reg` (a wire-clocked one holds). Earlier cycles of the field that have not ended end first; nothing else in the fabric, the
memories, the network or the DRAM changes. -/
def CellTakes (s : State) (c : Instr) (o : CellOp) (i : FieldImage) (e : EntryFields) (reg : Bool) (v : Word) (fl : Flags)
    (cout : Bool) : Prop :=
  ∃ t, exec c s = .next t ∧
    let k := cellKey o.field o.cluster o.cell
    let old := (s.cell k).now
    let new := (t.cell k).now
    new.latch = v ∧ new.fl = fl ∧ (t.cell k).cout = cout ∧ (t.cell k).prev = old ∧
    (∀ n < 4, new.get n = if reg && e.dst.val == n && !(o.cfg i).wired n then v else old.get n) ∧
    State.Turned (s.setCell k (t.cell k)) t o.field
/-- The word taken for an exact value: its low 48 bits, or the nearer bound of the signed range where `sat`. -/
def intWord (sat : Bool) (r : Int) : Word :=
  BitVec.ofInt 48 (if sat then max (-(2 ^ 47)) (min (2 ^ 47 - 1) r) else r)
/-- N and Z of a word, C where given, V whether the exact value leaves the signed range. -/
def intFlags (fl : Flags) (v : Word) (r : Int) (c : Option Bool) : Flags :=
  ⟨v.getLsbD 47, v == 0, c.getD fl.c, decide (r < -(2 ^ 47)) || decide (2 ^ 47 - 1 < r)⟩
/-- N and Z alone. -/
def wordFlags (fl : Flags) (v : Word) : Flags := { fl with n := v.getLsbD 47, z := v == 0 }
/-- A command whose result is the exact value r. -/
def CellTakesInt (s : State) (c : Instr) (o : CellOp) (i : FieldImage) (e : EntryFields) (reg sat : Bool) (r : Int)
    (carry : Option Bool) (cout : Bool) : Prop :=
  CellTakes s c o i e reg (intWord sat r) (intFlags (s.reads o i e).fl (intWord sat r) r carry) cout

/-- What a command does to the one slice it names: its registers after the cycle, what its neighbours read. Earlier cycles of the
field that have not ended end first; nothing else in the fabric, the memories, the network or the DRAM changes. -/
def SliceTakes (s : State) (c : Instr) (o : SliceOp) (P : SliceRegs → Prop) : Prop :=
  ∃ t, exec c s = .next t ∧
    let k := sliceKey o.field o.slice
    P (t.slice k).now ∧ (t.slice k).prev = (s.slice k).now ∧ (∀ j ≠ k, t.slice j = s.slice j) ∧
    State.Turned { s with slices := t.slices } t o.field
/-- An exact value taken into w bits: the nearer bound of the signed range where `sat`, else its low bits, as a signed number. -/
def fitInt (w : Nat) (sat : Bool) (r : Int) : Int :=
  if sat then max (-(2 ^ (w - 1))) (min (2 ^ (w - 1) - 1) r) else r.bmod (2 ^ w)
/-- Whether an exact value leaves the signed range of w bits. -/
def leaves (w : Nat) (r : Int) : Bool := decide (r < -(2 ^ (w - 1))) || decide (2 ^ (w - 1) - 1 < r)
/-- R107, Table 5-1: the products of two words, lane 0 first, each half or word signed unless its bit says otherwise. -/
def sliceProducts (e : EntryFields) (a b : Word) : List Int :=
  let hi (u : Bool) (w : Word) : Int := if u then (w.extractLsb' 24 24).toNat else (w.extractLsb' 24 24).toInt
  let lo (u : Bool) (w : Word) : Int := if u then (w.extractLsb' 0 24).toNat else (w.extractLsb' 0 24).toInt
  let al := lo e.au a
  let ah := hi e.au a
  let bl := lo e.bu b
  let bh := hi e.bu b
  match e.mode with
  | .full48 => [(if e.au then (a.toNat : Int) else a.toInt) * (if e.bu then (b.toNat : Int) else b.toInt)]
  | .cplx => [ah * bl + al * bh, ah * bh - al * bl]
  | .dual => [al * bl, ah * bh]
  | .quad => [al * bl, al * bh, ah * bl, ah * bh]
/-- The registers r hold these exact values in the accumulator lanes that DST names, and what they held elsewhere in the
accumulators; V of the flags tells that one left its range. -/
def SliceAccs (e : EntryFields) (old r : SliceRegs) (exact : List Int) : Prop :=
  let w := if e.mode = .quad then 56 else 112
  (∀ (j : Nat) (p : Nat × Nat) (y : Int), (e.mode.lanes e.dst.val)[j]? = some p → exact[j]? = some y →
    r.lane w p = fitInt w e.sat y) ∧
  (e.mode = .full48 → r.acc (5 - e.dst.val) = old.acc (5 - e.dst.val))

/-- What a command at a port of a block memory leaves of the state `s` in its cycle: every other memory's queue, every word but those
stored, and everything else but registers, events, the log, the steward's counts and the count of open values. -/
structure PortFrame (s t : State) (o : BmOp) (stored : List Nat) : Prop where
  queues : ∀ k ≠ memKey o.field o.mem, t.queue k = s.queue k
  words : ∀ a, (∀ w ∈ stored, a ≠ 2048 * memKey o.field o.mem + w) → SMap.get t.bmem none a = SMap.get s.bmem none a
  rest : State.SameStores { s with
    queues := t.queues, bmem := t.bmem, log := t.log, stw := t.stw, free := t.free,
    host := { s.host with dropped := t.host.dropped } } t
/-- The words at the port of a command in its cycle: the field of image `i` comes to the cycle, and the port shows its tracks (R131). -/
def State.atPort (s : State) (o : BmOp) (i : FieldImage) : PortIn :=
  (s.portTurn o).portIn i o ((s.fld o.field).stamp o.cycle)
/-- A port command that is performed: earlier cycles of the field end, what it then leaves, and what it does to the queue's
registers. -/
def PortTakes (s : State) (c : Instr) (o : BmOp) (stored : List Nat) (P : State → QRegs → QRegs → Prop) : Prop :=
  s.portReady o = true → ∃ t, exec c s = .next t ∧ State.Turned s (s.portTurn o) o.field ∧ PortFrame (s.portTurn o) t o stored ∧
    P t (s.queue (memKey o.field o.mem)).q (t.queue (memKey o.field o.mem)).q
/-- Pointers, STOP and the counts of a queue unchanged. -/
def QRegs.sameQueue (q r : QRegs) : Prop :=
  r.wp = q.wp ∧ r.rp = q.rp ∧ r.stop = q.stop ∧ r.post = q.post ∧ r.opened = q.opened ∧ r.refusing = q.refusing
/-- The port's output and its VAL, POIS and tag bits of ST (Table 6-6); the other port's output holds. -/
def QRegs.outputs (q r : QRegs) (p : BmPortSel) (v : Option Word) (val pois : Bool) (tag : BitVec 4) : Prop :=
  match p with
  | .pa => r.ra = v.getD q.ra ∧ r.rb = q.rb ∧ r.st.getLsbD 10 = val ∧ r.st.getLsbD 8 = pois ∧ r.st.extractLsb' 0 4 = tag
  | .pb => r.rb = v.getD q.rb ∧ r.ra = q.ra ∧ r.st.getLsbD 11 = val ∧ r.st.getLsbD 9 = pois ∧ r.st.extractLsb' 4 4 = tag
/-- A read of word w: the port shows the stored word (an open one where nothing has written it) altered as the check says, VAL 1,
its tag, and POIS where the check finds it uncorrectable. -/
def PortReads (s : State) (o : BmOp) (w : Nat) (chk : ReadCheck) (q r : QRegs) (P : BmCell → Prop) : Prop :=
  ∃ c : BmCell, (∀ x, s.word (memKey o.field o.mem) w = some x → x = c) ∧
    q.outputs r o.port (some (c.data ^^^ chk.flip)) true (decide (chk.syn = .uncorrectable)) c.tag ∧ P c

/-- Everything but registers, events, the Pass, the fields' controls and the debugger as before, where the log may have grown. -/
def State.LogOnly (s t : State) : Prop :=
  State.SameStores { s with log := t.log, host := { s.host with dropped := t.host.dropped } } t
/-- Cycles of field `f` have ended, and the log may have grown. -/
def State.TurnedLog (s t : State) (f : Nat) : Prop :=
  State.Turned { s with log := t.log, host := { s.host with dropped := t.host.dropped } } t f
/-- The head job of a memory moved word i: it is out of the words to move, and what was read, if anything, is kept. -/
def JobMoved (s t : State) (k : Nat) (b : SpineJob) (l : List SpineJob) (todo : List Nat) (got : List (Nat × Word)) : Prop :=
  (t.queue k).jobs = { b with todo := todo, got := got } :: l ∧ (∀ m ≠ k, t.queue m = s.queue m)

/-- A descriptor of operation `op` that has its words, and no answer outstanding, is in progress at a slot of pair q. -/
def DescReady (s : State) (q slot op : Nat) (d : DescSt) : Prop :=
  (s.pairSt q).find slot = some d ∧ d.op = op ∧ d.fail = none ∧ d.have_.length = d.len ∧ d.len ≤ d.rdOff ∧ d.out = 0
/-- R285, R295: the descriptor of that number has completed with this status and result: its completion waits to be written, among those
of descriptors around it that have no operation (R293). -/
def DescEnds (s t : State) (q slot : Nat) (d : DescSt) (status : Nat) (result : Word) : Prop :=
  (∃ a b : List Completion, (t.pairSt q).waiting = (s.pairSt q).waiting ++ a ++ [⟨d.qtag, status, d.irq, result, s.now⟩] ++ b ∧
    ∀ c ∈ a ++ b, c.status = 0x10 ∨ c.status = stFenceAbort) ∧ (t.pairSt q).find slot = none

/-- A whole request packet stands first at NI n and is served: its header breaks no rule, its statuses are OK, and the NI takes
requests of its kind now. -/
structure Asks (s : State) (n : Nat) (pkt : List Carriage) (c : Carriage) : Prop where
  on : s.domainOn 2 = true
  first : firstWhole (s.ni n).inReq = some pkt
  head : pkt.headD Carriage.zero = c
  good : badRequest c = false
  served : s.niServes n c = true
  clean : pkt.any (fun d => d.status != stOk) = false
/-- A whole response packet of a type stands first at an NI that takes responses. -/
structure Answers (s : State) (n : Nat) (pkt : List Carriage) (c : Carriage) (typ : Nat) : Prop where
  on : s.domainOn 2 = true
  first : firstWhole (s.ni n).inRsp = some pkt
  head : pkt.headD Carriage.zero = c
  kind : c.typ = typ
  taken : s.sinksResponses n = false
/-- The request with this SEQ at a field NI that discards nothing has been answered at the receive port with this item, and its
tracker is free. -/
def Delivered (s t : State) (n : Nat) (seq : BitVec 16) (item : RxItem) : Prop :=
  (t.ni n).rx = (s.ni n).rx ++ [item] ∧ (∀ u ∈ (t.ni n).trackers, u.head.seq ≠ seq) ∧ t.bmem = s.bmem ∧ t.cells = s.cells
/-- The field of NI n as its transmit port finds it in work cycle `cyc`: earlier cycles have ended. -/
def State.txTurn (s : State) (n cyc : Nat) : State := s.comeTo (n / 3) ((s.fld (n / 3)).base + cyc)
/-- The transmit port of NI n acted in work cycle `cyc`: earlier cycles of the field end, and the NI alone is other than then. -/
def TxFrame (s t : State) (n cyc : Nat) : Prop :=
  State.Turned s (s.txTurn n cyc) (n / 3) ∧ (∀ m, m ≠ n → t.ni m = s.ni m) ∧ t = { s.txTurn n cyc with nis := t.nis }

/-- NI n takes this request now: the port is open with room, its address lies in window w, whose kinds allow it, and route entry e is
valid and not refused to ordered requests (R218 to R221, R230, R236). -/
structure NiAccepts (s : State) (n : Nat) (q : Request) (w e : Nat) : Prop where
  ready : s.txReady n q.typ q.len = true
  plain : s.niProtected n = false
  kind : isRequestType q.typ = true
  length : lenAllowed q.typ q.len = true
  window : (s.ni n).active.match? q.addr.toNat = some w
  allowed : kindAllowed ((s.ni n).active.window w 3) q.typ q.ctx = true
  entry : (s.translate (s.ni n).active w q.addr.toNat).2 = e
  valid : bitOf 37 ((s.ni n).active.routeWord e 0) = true
  order : q.ord = true → (s.ni n).broken.contains e = false
/-- The request left under the NI's next SEQ, translated and with the route of entry e, and its answer is awaited for this use. -/
def Issued (s t : State) (n : Nat) (q : Request) (w e : Nat) (use : Use) : Prop :=
  (t.ni n).seq = (s.ni n).seq + 1 ∧ ∃ u ∈ (t.ni n).trackers, u.use = use ∧ u.entry = e ∧
    u.pkt = buildPacket n { q with fence := q.fence || q.typ == tFence } (s.translate (s.ni n).active w q.addr.toNat).1
      (BitVec.ofNat 30 ((s.ni n).active.routeWord e 0)) (s.ni n).seq
/-- The descriptor at that slot goes on: so many words read and written, one request more outstanding. -/
def DescGoes (t : State) (q slot : Nat) (d : DescSt) (rd wr out : Nat) : Prop :=
  ∃ e, (t.pairSt q).find slot = some e ∧ e.rdOff = rd ∧ e.wrOff = wr ∧ e.out = out ∧ e.raw = d.raw ∧ e.fail = d.fail

/-- R322: port p is DOWN with this cause, its buffers empty, and the event is posted. -/
def PortFails (s t : State) (p fail : Nat) : Prop :=
  t.get (F.STG_STAT_STATE p) = 0 ∧ t.get (F.STG_STAT_FAIL p) = fail ∧ t.portSt p = PortSt.zero ∧ t.get (F.STG_FWD_OPEN p) = 0 ∧
  SMap.get t.seqs 0 (82 + p) = SMap.get s.seqs 0 (82 + p) + 1 ∧ t.linkOut = s.linkOut
/-- R318: port p trains over `w` lanes, and nothing of an earlier run is left. -/
def PortTrains (s t : State) (p w : Nat) (fellBack : Bool) : Prop :=
  t.get (F.STG_STAT_STATE p) = 1 ∧ t.is (F.STG_STAT_WIDTHNOW p) = (w == 4) ∧ t.portSt p = { PortSt.zero with fellBack := fellBack } ∧
  t.linkOut = s.linkOut ++ [(p, .train false)] ∧
  ∀ k < w, t.get (F.LANE_CTLE_STEP (portLane p + k)) = s.get (F.LANE_CTLE_INIT (portLane p + k))
/-- The first `w` lanes of port p are its own and powered, and no mode keeps ports DOWN (R303, Table 13-3). -/
def LanesReady (s : State) (p w : Nat) : Prop :=
  s.mode.linksDown = false ∧
  ∀ k < w, s.domainOn (laneDomain (portLane p + k)) = true ∧ s.laneUse (portLane p + k) = 2
/-- What a stream block left of a port, and what it put on the link; while the port's transmitter is in electrical idle or leaves it,
those blocks wait (R310). -/
def PortSends (s t : State) (p : Nat) (x : PortSt) (bs : List LinkBlock) : Prop :=
  (∀ m, m ≠ p → t.portSt m = s.portSt m) ∧
  (s.portState13 p < 3 → t.portSt p = x ∧ t.linkOut = s.linkOut ++ bs.map fun b => (p, b)) ∧
  (3 ≤ s.portState13 p → t.portSt p = { x with later := x.later ++ bs } ∧ t.linkOut = s.linkOut)
/-- No wake burst of the port has ended unseen: its state is the one its register shows (R310). -/
def State.settledPort (s : State) (p : Nat) : Prop := s.portState13 p = s.get (F.STG_STAT_STATE p)

/-- A channel's commands, refresh and requests are as before but for what a statement names. -/
def ChannelOnly (s t : State) (c : Nat) : Prop :=
  (∀ d, d ≠ c → t.dram d = s.dram d) ∧ t.cry = s.cry ∧ t.mode = s.mode ∧ t.bmem = s.bmem
/-- Line i of request r alone waits at running channel c: it is served in any mode that holds, its line is not copied and not remapped
LOST, no region encrypts it, no replay runs, and every retry buffer has room. -/
structure LineWaits (s : State) (c : Nat) (r : DramReq) (i : Nat) : Prop where
  running : s.get (F.DRC_STAT_STATE c) = 2
  filled : s.is (F.MIG_INITCTL_BUSY c) = false
  alone : (s.dram c).reqs = [r]
  todo : r.todo = [i]
  unheld : r.held = false
  calm : (s.dram c).replay = 0
  unbuffered : (s.dram c).groups = []
  served : s.ctxServed r = true
  still : s.copying c (s.reqLine r i) = false
  whole : s.lineLost c (s.reqLine r i) = false
  plain : (r.rgns.getD i ⟨32, false, 0, 0, 0, 0, false⟩).crypto = 0
  room : ∀ d < 8, (s.dram d).retry.length ≤ 60

/-- The steward has staged v for a SHADOW field. -/
def StagedBy (t : State) (f : Fld) (v : Nat) : Prop :=
  let x := SMap.get t.staged Staged.none f.reg.off
  bitsOf f.lo f.w x.stwVal.toNat = v % 2 ^ f.w ∧ bitsOf f.lo f.w x.stwMask.toNat = 2 ^ f.w - 1
/-- Table 18-1: the value to which SCAN, BMPAT or DPATROL (loop k, instance i) moves a setting of 16 bits that is `cur`: half of it after THR
detections or more, twice it after 60 cadences without one, inside the envelope; itself while the loop is held or only observed. -/
def State.halvedOrDoubled (s : State) (k i cur : Nat) : Nat :=
  if s.loopRuns k = false ∨ s.is F.STW_CTL_OBS = true then cur
  else if s.loopThr k ≤ s.seenBy k i then s.withinEnv k 16 (cur / 2)
  else if s.seenBy k i = 0 ∧ 60 ≤ s.quietFor k i + 1 then s.withinEnv k 16 (2 * cur)
  else cur

/-- Table 3-5: the operations of a cell that obey COND (all but SEL), with their codes. -/
def cellCommands (o : CellOp) : List (Nat × Instr) :=
  [ [(0x00, .nop o), (0x01, .add o), (0x02, .adc o), (0x03, .addw o), (0x04, .sub o), (0x05, .sbc o), (0x06, .subw o), (0x07, .neg o)],
   [(0x08, .abs o), (0x09, .addsh o), (0x0A, .cmp o), (0x0B, .cmpw o), (0x10, .and o), (0x11, .or o), (0x12, .xor o), (0x13, .andn o)],
   [(0x14, .orn o), (0x15, .xnor o), (0x16, .not o), (0x17, .bsel o), (0x18, .test o), (0x19, .xorshr o), (0x20, .shl o), (0x21, .shr o)],
   [(0x22, .sar o), (0x23, .rol o), (0x24, .ror o), (0x25, .shlv o), (0x26, .shrv o), (0x27, .sarv o), (0x28, .fshr o), (0x30, .extu o)],
   [(0x31, .exts o), (0x32, .ins o), (0x33, .brev o), (0x34, .bswap o), (0x38, .popc o), (0x39, .clz o), (0x3A, .ctz o), (0x3B, .cls o)],
   [(0x3C, .mins o), (0x3D, .maxs o), (0x3E, .minu o), (0x3F, .maxu o), (0x41, .selz o), (0x44, .mov o), (0x45, .ldi o), (0x46, .ldim o)],
   [(0x47, .ldih o), (0x48, .getf o), (0x49, .setf o), (0x50, .vadd o), (0x51, .vsub o), (0x52, .vabs o), (0x53, .vmins o), (0x54, .vmaxs o)],
   [(0x55, .vminu o), (0x56, .vmaxu o), (0x57, .vcmpeq o), (0x58, .vcmpgt o), (0x59, .vshl o), (0x5A, .vshr o), (0x5B, .vsar o), (0x5C, .vavg o)],
   [(0x70, .lut12 o)] ].flatten
/-- Table 5-6: the operations of a slice, with their codes. -/
def sliceCommands (o : SliceOp) : List (Nat × Instr) :=
  [ [(0x00, .sliceNop o), (0x01, .mul o), (0x02, .mac o), (0x03, .msu o), (0x08, .tapm o), (0x09, .tapc o), (0x0A, .tapz o), (0x10, .rdacc o)],
   [(0x11, .ldacc o), (0x12, .addacc o), (0x13, .clracc o), (0x20, .sliceMov o), (0x21, .sliceLdi o), (0x22, .sliceLdim o), (0x23, .sliceLdih o), (0x24, .swaph o)],
   [(0x25, .conj o)] ].flatten

end Sys2Proof.Machine

open Sys2Proof Sys2Proof.Machine

/-- R68 to R72, R76: ADD, ADC, ADDW, SUB, SBC, SUBW, NEG, ABS, ADDSH, CMP and CMPW of a cell whose COND holds take the exact
sum or difference: wrapped, or saturated where SAT is 1 (CMP and CMPW neither saturate nor write a register); C and COUT are
the carry or the inverse of the borrow, V tells that the exact value leaves the signed range. The model's readings and
choices: log entries 33, 78. -/
def Obligations.CellSumsAndDifferences : Prop :=
  ∀ (s : State) (o : CellOp) (i : FieldImage) (e : EntryFields), let x := s.reads o i e; x.cond = true →
    let add (c : Instr) (op : Nat) (b : Word) (ci : Bool) : Prop := CellRuns s o op i e →
      let k := decide (2 ^ 48 ≤ x.a.toNat + b.toNat + bit ci)
      CellTakesInt s c o i e true x.sat (x.a.toInt + b.toInt + bit ci) (some k) k
    let sub (c : Instr) (op : Nat) (a b : Word) (ci reg sat : Bool) : Prop := CellRuns s o op i e →
      let k := decide (b.toNat + (1 - bit ci) ≤ a.toNat)
      CellTakesInt s c o i e reg sat (a.toInt - b.toInt - (1 - bit ci)) (some k) k
    add (.add o) 0x01 x.b false ∧ add (.adc o) 0x02 x.b x.fl.c ∧ add (.addw o) 0x03 x.b x.cin ∧
    sub (.sub o) 0x04 x.a x.b true true x.sat ∧ sub (.sbc o) 0x05 x.a x.b x.fl.c true x.sat ∧
    sub (.subw o) 0x06 x.a x.b x.cin true x.sat ∧ sub (.neg o) 0x07 0 x.a true true x.sat ∧
    (CellRuns s o 0x08 i e → CellTakesInt s (.abs o) o i e true x.sat x.a.toInt.natAbs none false) ∧
    add (.addsh o) 0x09 (x.b <<< (x.shift.toNat % 64)) false ∧
    sub (.cmp o) 0x0A x.a x.b true false false ∧ sub (.cmpw o) 0x0B x.a x.b x.cin false false

/-- R71: the bitwise operations of a cell whose COND holds; N and Z are those of the result, C and V hold, COUT is 0; TEST
writes no register. The model's readings and choices: log entries 33, 78. -/
def Obligations.CellBitwiseOperations : Prop :=
  ∀ (s : State) (o : CellOp) (i : FieldImage) (e : EntryFields), let x := s.reads o i e; x.cond = true →
    let word (c : Instr) (op : Nat) (reg : Bool) (v : Word) : Prop :=
      CellRuns s o op i e → CellTakes s c o i e reg v (wordFlags x.fl v) false
    word (.and o) 0x10 true (x.a &&& x.b) ∧ word (.or o) 0x11 true (x.a ||| x.b) ∧ word (.xor o) 0x12 true (x.a ^^^ x.b) ∧
    word (.andn o) 0x13 true (x.a &&& ~~~x.b) ∧ word (.orn o) 0x14 true (x.a ||| ~~~x.b) ∧
    word (.xnor o) 0x15 true (~~~(x.a ^^^ x.b)) ∧ word (.not o) 0x16 true (~~~x.a) ∧
    word (.bsel o) 0x17 true ((x.a &&& x.c) ||| (x.b &&& ~~~x.c)) ∧ word (.test o) 0x18 false (x.a &&& x.b) ∧
    word (.xorshr o) 0x19 true (x.a ^^^ (x.b >>> (x.shift.toNat % 64)))

/-- R72: the shifts and rotates of a cell whose COND holds, by SHIFT bits 5:0 or by b: SHL and SHLV give the exact product
with 2 to the count, wrapped or saturated; the others the shifted or rotated word. C of a shift is the last bit shifted out,
and holds at a count of 0. The model's readings and choices: log entries 33, 78. -/
def Obligations.CellShiftsAndRotates : Prop :=
  ∀ (s : State) (o : CellOp) (i : FieldImage) (e : EntryFields), let x := s.reads o i e; x.cond = true →
    let m := x.shift.toNat % 64
    let b := x.b.toNat % 64
    let left (c : Instr) (op n : Nat) : Prop := CellRuns s o op i e →
      CellTakesInt s c o i e true x.sat (x.a.toInt * 2 ^ n)
        (if n = 0 then none else some (decide (n ≤ 48) && x.a.getLsbD (48 - n))) false
    let right (c : Instr) (op n : Nat) (v : Word) (out : Bool) : Prop := CellRuns s o op i e →
      CellTakes s c o i e true v { (wordFlags x.fl v) with c := if n = 0 then x.fl.c else out } false
    let turn (c : Instr) (op : Nat) (v : Word) : Prop := CellRuns s o op i e →
      CellTakes s c o i e true v (wordFlags x.fl v) false
    left (.shl o) 0x20 m ∧ right (.shr o) 0x21 m (x.a >>> m) (x.a.getLsbD (m - 1)) ∧
    right (.sar o) 0x22 m (x.a.sshiftRight m) ((x.a.sshiftRight (m - 1)).getLsbD 0) ∧
    turn (.rol o) 0x23 (x.a.rotateLeft (m % 48)) ∧ turn (.ror o) 0x24 (x.a.rotateRight (m % 48)) ∧
    left (.shlv o) 0x25 b ∧ right (.shrv o) 0x26 b (x.a >>> b) (x.a.getLsbD (b - 1)) ∧
    right (.sarv o) 0x27 b (x.a.sshiftRight b) ((x.a.sshiftRight (b - 1)).getLsbD 0) ∧
    turn (.fshr o) 0x28 (((x.a ++ x.b) >>> m).extractLsb' 0 48)

/-- R71, R73: fields, reversals and counts of a cell whose COND holds. Bit k of EXTU and INS is given bit by bit, EXTS as the
signed value of the field; BREV and BSWAP bit by bit; a count is the number Table 3-5 names. The model's readings and
choices: log entries 33, 78. -/
def Obligations.CellFieldsAndCounts : Prop :=
  ∀ (s : State) (o : CellOp) (i : FieldImage) (e : EntryFields), let x := s.reads o i e; x.cond = true →
    let n := x.shift.toNat % 64
    let iw := x.imm.toNat % 64
    let w := if 48 ≤ n then 0 else min (if iw = 0 then 48 else iw) (48 - n)
    let word (c : Instr) (op : Nat) (P : Word → Prop) : Prop := CellRuns s o op i e →
      ∃ v, P v ∧ CellTakes s c o i e true v (wordFlags x.fl v) false
    let count (c : Instr) (op : Nat) (P : Nat → Prop) : Prop := CellRuns s o op i e →
      ∃ k, P k ∧ k ≤ 48 ∧ CellTakes s c o i e true (BitVec.ofNat 48 k) { x.fl with z := decide (k = 0) } false
    word (.extu o) 0x30 (fun v => ∀ k < 48, v.getLsbD k = (decide (k < w) && x.a.getLsbD (n + k))) ∧
    word (.exts o) 0x31 (fun v => v.toInt = if w = 0 then 0 else ((x.a.extractLsb' n w).toInt)) ∧
    word (.ins o) 0x32 (fun v => ∀ k < 48,
      v.getLsbD k = if n ≤ k ∧ k < n + w then x.b.getLsbD (k - n) else x.a.getLsbD k) ∧
    word (.brev o) 0x33 (fun v => ∀ k < 48, v.getLsbD k = x.a.getLsbD (47 - k)) ∧
    word (.bswap o) 0x34 (fun v => ∀ j < 6, ∀ k < 8, v.getLsbD (8 * j + k) = x.a.getLsbD (8 * (5 - j) + k)) ∧
    count (.popc o) 0x38 (fun k => k = ((List.range 48).filter fun j => x.a.getLsbD j).length) ∧
    count (.clz o) 0x39 (fun k => (∀ j < k, x.a.getLsbD (47 - j) = false) ∧ (k = 48 ∨ x.a.getLsbD (47 - k) = true)) ∧
    count (.ctz o) 0x3A (fun k => (∀ j < k, x.a.getLsbD j = false) ∧ (k = 48 ∨ x.a.getLsbD k = true)) ∧
    count (.cls o) 0x3B (fun k => k ≤ 47 ∧ (∀ j < k, x.a.getLsbD (46 - j) = x.a.getLsbD 47) ∧
      (k = 47 ∨ x.a.getLsbD (46 - k) ≠ x.a.getLsbD 47))

/-- R67, R71: minima, maxima, selections, moves and immediates of a cell; SEL executes whatever its COND says, which selects;
the selections and moves leave the flags, SETF writes them and no register; NOP writes nothing. The model's readings and
choices: log entries 33, 78. -/
def Obligations.CellSelectionsAndMoves : Prop :=
  ∀ (s : State) (o : CellOp) (i : FieldImage) (e : EntryFields), let x := s.reads o i e
    let imm : Word := x.imm.signExtend 48
    let low (c : Instr) (op : Nat) (v : Word) : Prop := CellRuns s o op i e → x.cond = true →
      CellTakes s c o i e true v (wordFlags x.fl v) false
    let move (c : Instr) (op : Nat) (v : Word) : Prop := CellRuns s o op i e → x.cond = true →
      CellTakes s c o i e true v x.fl false
    let old := (s.cell (cellKey o.field o.cluster o.cell)).now
    low (.mins o) 0x3C (if x.a.toInt ≤ x.b.toInt then x.a else x.b) ∧
    low (.maxs o) 0x3D (if x.b.toInt ≤ x.a.toInt then x.a else x.b) ∧
    low (.minu o) 0x3E (if x.a.toNat ≤ x.b.toNat then x.a else x.b) ∧
    low (.maxu o) 0x3F (if x.b.toNat ≤ x.a.toNat then x.a else x.b) ∧
    (CellRuns s o 0x40 i e → CellTakes s (.sel o) o i e true (if x.cond then x.a else x.b) x.fl false) ∧
    move (.selz o) 0x41 (if x.c = 0 then x.b else x.a) ∧ move (.mov o) 0x44 x.a ∧ move (.ldi o) 0x45 imm ∧
    move (.ldim o) 0x46 (x.a.extractLsb' 32 16 ++ x.imm ++ x.a.extractLsb' 0 16) ∧
    move (.ldih o) 0x47 (x.imm ++ x.a.extractLsb' 0 32) ∧
    move (.getf o) 0x48 (BitVec.ofNat 48 (8 * bit x.fl.n + 4 * bit x.fl.z + 2 * bit x.fl.c + bit x.fl.v)) ∧
    (CellRuns s o 0x49 i e → x.cond = true → CellTakes s (.setf o) o i e false x.a
      ⟨x.a.getLsbD 3, x.a.getLsbD 2, x.a.getLsbD 1, x.a.getLsbD 0⟩ false) ∧
    (CellRuns s o 0x00 i e → CellTakes s (.nop o) o i e false old.latch old.fl false)

/-- R74, R75: a lane operation of a cell whose COND holds acts on each lane by itself: lane j of the result is given by lane
j of a and of b, the exact value wrapped to the lane or saturated where SAT is 1; Z is that of the whole word, and N and V
stay where Table 3-5 does not list them. The model's readings and choices: log entries 33, 78. -/
def Obligations.CellLaneOperations : Prop :=
  ∀ (s : State) (o : CellOp) (i : FieldImage) (e : EntryFields), let x := s.reads o i e; x.cond = true →
    let w := match x.shift.toNat / 64 with | 1 => 24 | 2 => 12 | _ => 8
    let n := x.shift.toNat % 32
    let lane (v : Word) (j : Nat) : Nat := v.toNat / 2 ^ (w * j) % 2 ^ w
    let sg (u : Nat) : Int := if 2 ^ (w - 1) ≤ u then (u : Int) - 2 ^ w else u
    let fit (r : Int) : Int := if x.sat then max (-(2 ^ (w - 1))) (min (2 ^ (w - 1) - 1) r) else r
    let each (c : Instr) (op : Nat) (keepN keepV : Bool) (f : Nat → Nat → Int) : Prop := CellRuns s o op i e →
      ∃ (v : Word) (fl : Flags), CellTakes s c o i e true v fl false ∧ fl.z = (v == 0) ∧
        fl.n = (if keepN then x.fl.n else v.getLsbD 47) ∧ (keepV = true → fl.v = x.fl.v) ∧
        ∀ j < 48 / w, (lane v j : Int) = f (lane x.a j) (lane x.b j) % 2 ^ w
    each (.vadd o) 0x50 false false (fun p q => fit (sg p + sg q)) ∧ each (.vsub o) 0x51 false false (fun p q => fit (sg p - sg q)) ∧
    each (.vabs o) 0x52 false false (fun p _ => fit (sg p).natAbs) ∧
    each (.vmins o) 0x53 false true (fun p q => min (sg p) (sg q)) ∧ each (.vmaxs o) 0x54 false true (fun p q => max (sg p) (sg q)) ∧
    each (.vminu o) 0x55 false true (fun p q => min p q) ∧ each (.vmaxu o) 0x56 false true (fun p q => max p q) ∧
    each (.vcmpeq o) 0x57 true true (fun p q => if p = q then -1 else 0) ∧
    each (.vcmpgt o) 0x58 true true (fun p q => if sg q < sg p then -1 else 0) ∧
    each (.vshl o) 0x59 false false (fun p _ => fit (sg p * 2 ^ n)) ∧ each (.vshr o) 0x5A false true (fun p _ => p / 2 ^ n) ∧
    each (.vsar o) 0x5B false true (fun p _ => sg p / 2 ^ n) ∧
    each (.vavg o) 0x5C false true (fun p q => (sg p + sg q + 1) / 2)

/-- R79, R80: lookup k of LUT12 gives bit k of the result, which is the bit of its 16-bit table (in the entry words 4 to 7) that bits
4k + 3 to 4k of operand a number; result bits 47:12 are 0; a cell whose COND holds writes it to DST and to its output latch, and
its flags hold. -/
def Obligations.CellTwelveLookups : Prop :=
  ∀ (s : State) (o : CellOp) (i : FieldImage) (e : EntryFields), let x := s.reads o i e
    let c := o.cfg i
    x.cond = true → CellRuns s o 0x70 i e → ∃ v, CellTakes s (.lut12 o) o i e true v x.fl false ∧
      (∀ k < 12, v.getLsbD k = (c.entry (4 + k / 3)).getLsbD (16 * (k % 3) +
        (bit (x.a.getLsbD (4 * k)) + 2 * bit (x.a.getLsbD (4 * k + 1)) + 4 * bit (x.a.getLsbD (4 * k + 2)) +
          8 * bit (x.a.getLsbD (4 * k + 3))))) ∧
      (∀ k, 12 ≤ k → v.getLsbD k = false)

/-- R67, R109: a cell (SEL apart) or a slice whose COND does not hold writes no register, changes no flag, leaves its output
latch as it was and drives COUT at 0, whatever its operation; only its neighbours' reads of the cycle before move on. The
model's readings and choices: log entry 33. -/
def Obligations.ConditionsHoldBack : Prop :=
  (∀ (s : State) (o : CellOp) (i : FieldImage) (e : EntryFields), (s.reads o i e).cond = false →
    let old := (s.cell (cellKey o.field o.cluster o.cell)).now
    ∀ p ∈ cellCommands o, CellRuns s o p.1 i e → CellTakes s p.2 o i e false old.latch old.fl false) ∧
  (∀ (s : State) (o : SliceOp) (i : FieldImage) (e : EntryFields), s.sliceCond o i e = false →
    let old := (s.slice (sliceKey o.field o.slice)).now
    ∀ p ∈ sliceCommands o, SliceRuns s o p.1 i e → SliceTakes s p.2 o fun r => r = old)

/-- R81, R82: a LUT-only cell looks up each nibble of X into its latch and A; a rising edge of a wire clock makes its
register take what the inputs X or Y show in the field's cycle, count up, or take the next word of the Gray sequence, and changes no
other register and no other cell.
The model's readings and choices: log entries 33, 78. -/
def Obligations.CellTablesAndWireClocks : Prop :=
  (∀ (s : State) (o : CellOp) (i : FieldImage), s.image o.field = some i → s.cellReady o = true →
    let c := o.cfg i
    let k := cellKey o.field o.cluster o.cell
    let x := (s.cellTurn o).input i o.field o.place ((s.fld o.field).stamp o.cycle) c.selX
    c.lutOnly = true → ∃ t, exec (.lutonly o) s = .next t ∧
      (∀ j < 12, (t.cell k).now.latch.getLsbD j =
        ([c.entry 0, c.entry 1, c.entry 2, c.entry 3].getD (j / 3) 0).getLsbD (16 * (j % 3) + x.toNat / 2 ^ (4 * j) % 16)) ∧
      (∀ j, 12 ≤ j → (t.cell k).now.latch.getLsbD j = false) ∧
      (t.cell k).now.a = (if c.wired 0 then (s.cell k).now.a else (t.cell k).now.latch) ∧
      (t.cell k).now.fl = (s.cell k).now.fl ∧ (∀ n < 4, n ≠ 0 → (t.cell k).now.get n = (s.cell k).now.get n) ∧
      State.Turned (s.setCell k (t.cell k)) t o.field) ∧
  (∀ (s : State) (w : WireEdge) (i : FieldImage), s.image w.field = some i → s.edgesCount w.field = true →
    let n := 64 * w.cluster.val + w.cell.val
    let c := w.alt.getD (i.cell n)
    let k := cellKey w.field w.cluster w.cell
    let sees (sel : BitVec 8) : Word := s.input i w.field n (s.fld w.field).here sel
    c.wired w.reg = true → c.wcBit w.reg ≤ 47 →
    let takes (cmd : Instr) (op : Nat) (v : Word → Word) : Prop := c.wop w.reg = op → exec cmd s =
      .next (s.setCell k { s.cell k with now := (s.cell k).now.set w.reg (v ((s.cell k).now.get w.reg)), alt := w.alt })
    takes (.loadx w) 0 (fun _ => sees c.selX) ∧ takes (.loady w) 1 (fun _ => sees c.selY) ∧ takes (.inc w) 2 (fun v => v + 1) ∧
    takes (.incg w) 3 grayNext)

/-- R114 to R121: every operation of a slice that writes accumulators, where COND holds. MUL, MAC, MSU and the tap operations put the
exact products into the lanes DST names, alone or added to or taken from what they held (TAPC: what ACCIN brings there); LDACC
and ADDACC the output lanes of a shifted left by the count, alone or added; CLRACC 0. A lane whose exact value leaves the
signed range of its W bits (112, in QUAD 56) takes the nearer bound where SAT is 1 and the low W bits where SAT is 0; the
other accumulator of FULL48 holds. Latch, flags and word registers as Table 5-6 says; the taps move X and XD on. -/
def Obligations.SliceAccumulations : Prop :=
  ∀ (s : State) (o : SliceOp) (i : FieldImage) (e : EntryFields), let x := s.sliceReads o i e; s.sliceCond o i e = true →
    let w := e.mode.outWidth
    let lanes (r : SliceRegs) : List Int := (e.mode.lanes e.dst.val).map (r.lane e.mode.accWidth)
    let acc (c : Instr) (op : Nat) (tap : Bool) (exact : List Int) : Prop := SliceRuns s o op i e →
      SliceTakes s c o fun r => SliceAccs e x.regs r exact ∧ r.latch = (extract r e e.dst.val).1 ∧
        r.fl.n = r.latch.getLsbD 47 ∧ r.fl.z = (r.latch == 0) ∧ r.fl.c = false ∧
        r.fl.v = (exact.any (leaves e.mode.accWidth) || (extract r e e.dst.val).2) ∧
        r.a = x.regs.a ∧ r.b = x.regs.b ∧ r.c = x.regs.c ∧
        (if tap then (if x.xdepth then r.x = x.regs.xd ∧ r.xd = x.b else r.x = x.b ∧ r.xd = x.regs.xd)
          else r.x = x.regs.x ∧ r.xd = x.regs.xd)
    let holds (r : SliceRegs) : Prop := r.latch = x.regs.latch ∧ r.a = x.regs.a ∧ r.b = x.regs.b ∧ r.c = x.regs.c ∧
      r.x = x.regs.x ∧ r.xd = x.regs.xd
    let load (c : Instr) (op : Nat) (exact : List Int) : Prop := SliceRuns s o op i e →
      SliceTakes s c o fun r => holds r ∧ SliceAccs e x.regs r exact ∧
        r.fl = { x.regs.fl with c := false, v := exact.any (leaves e.mode.accWidth) }
    let shifted : List Int := (List.range (48 / w)).map fun j => (x.a.extractLsb' (w * j) w).toInt * 2 ^ (e.imm.toNat % 128)
    acc (.mul o) 0x01 false (sliceProducts e x.a x.b) ∧
    acc (.mac o) 0x02 false (List.zipWith (· + ·) (lanes x.regs) (sliceProducts e x.a x.b)) ∧
    acc (.msu o) 0x03 false (List.zipWith (· - ·) (lanes x.regs) (sliceProducts e x.a x.b)) ∧
    acc (.tapm o) 0x08 true (List.zipWith (· + ·) (lanes x.regs) (sliceProducts e x.regs.c x.regs.x)) ∧
    acc (.tapc o) 0x09 true (List.zipWith (· + ·) (lanes x.accin) (sliceProducts e x.regs.c x.regs.x)) ∧
    acc (.tapz o) 0x0A true (sliceProducts e x.regs.c x.regs.x) ∧
    load (.ldacc o) 0x11 shifted ∧ load (.addacc o) 0x12 (List.zipWith (· + ·) (lanes x.regs) shifted) ∧
    (SliceRuns s o 0x13 i e → SliceTakes s (.clracc o) o fun r => holds r ∧ r.fl = x.regs.fl ∧
      SliceAccs e x.regs r ((e.mode.lanes e.dst.val).map fun _ => 0))

/-- R117, R118 and Table 5-8: RDACC of a slice whose COND holds takes each lane of the accumulators that SRCA names, divides it by
2 to the shift count, rounds it as RND says (down; to the nearer and a tie to even; to the nearer and a tie up), and puts the
result, wrapped to the output lane or saturated, into the latch and the register DST names; V tells that one left its range. The
model's readings and choices: log entries 78, 79. -/
def Obligations.SliceReadsAccumulators : Prop :=
  ∀ (s : State) (o : SliceOp) (i : FieldImage) (e : EntryFields), let x := s.sliceReads o i e; s.sliceCond o i e = true →
    let w := e.mode.outWidth
    let d : Int := 2 ^ (e.imm.toNat % 128)
    let rounds (y q : Int) : Prop := match e.shift.toNat / 4 % 4 with
      | 0 => q * d ≤ y ∧ y < q * d + d
      | 1 => -d ≤ 2 * (y - q * d) ∧ 2 * (y - q * d) ≤ d ∧ ((2 * (y - q * d)).natAbs = d.natAbs → q % 2 = 0)
      | _ => -d ≤ 2 * (y - q * d) ∧ 2 * (y - q * d) < d
    SliceRuns s o 0x10 i e → SliceTakes s (.rdacc o) o fun r => ∃ qs : List Int, qs.length = 48 / w ∧
      (∀ (j : Nat) (p : Nat × Nat) (q : Int), (e.mode.lanes e.srca.val)[j]? = some p → qs[j]? = some q →
        rounds (x.regs.lane e.mode.accWidth p) q ∧ (r.latch.extractLsb' (w * j) w).toInt = fitInt w e.sat q) ∧
      r = { (x.regs.writeDst e.dst.val r.latch) with
        fl := ⟨r.latch.getLsbD 47, r.latch == 0, false, qs.any (leaves w)⟩ }

/-- R114: the word operations of a slice whose COND holds: the word goes to the latch and to the register DST names (none where DST
is 7); flags hold, but for CONJ, which negates the low half; a slice's NOP changes no register. The model's readings and choices:
log entries 78, 79. -/
def Obligations.SliceWordOperations : Prop :=
  ∀ (s : State) (o : SliceOp) (i : FieldImage) (e : EntryFields), let x := s.sliceReads o i e; s.sliceCond o i e = true →
    let word (c : Instr) (op : Nat) (v : Word) : Prop := SliceRuns s o op i e →
      SliceTakes s c o fun r => r.latch = v ∧ r.fl = x.regs.fl ∧ r.acc0 = x.regs.acc0 ∧ r.acc1 = x.regs.acc1 ∧
        r.xd = x.regs.xd ∧ r.a = (if e.dst.val = 0 then v else x.regs.a) ∧ r.b = (if e.dst.val = 1 then v else x.regs.b) ∧
        r.c = (if e.dst.val = 2 then v else x.regs.c) ∧ r.x = (if e.dst.val = 3 then v else x.regs.x)
    word (.sliceMov o) 0x20 x.a ∧ word (.sliceLdi o) 0x21 (e.imm.signExtend 48) ∧
    word (.sliceLdim o) 0x22 (x.a.extractLsb' 32 16 ++ e.imm ++ x.a.extractLsb' 0 16) ∧
    word (.sliceLdih o) 0x23 (e.imm ++ x.a.extractLsb' 0 32) ∧
    word (.swaph o) 0x24 (x.a.extractLsb' 0 24 ++ x.a.extractLsb' 24 24) ∧
    (SliceRuns s o 0x25 i e → SliceTakes s (.conj o) o fun r =>
      r.latch.extractLsb' 24 24 = x.a.extractLsb' 24 24 ∧
      (r.latch.extractLsb' 0 24).toInt = fitInt 24 e.sat (-(x.a.extractLsb' 0 24).toInt) ∧
      r.fl = ⟨r.latch.getLsbD 47, r.latch == 0, false, (x.a.extractLsb' 0 24).toInt == -(2 ^ 23)⟩ ∧
      r.acc0 = x.regs.acc0 ∧ r.acc1 = x.regs.acc1) ∧
    (SliceRuns s o 0x00 i e → SliceTakes s (.sliceNop o) o fun r => r = x.regs)

/-- R125, R127, R131, R132, R139, R147: where the command word at a port of a configured field's memory asks for it, READ puts the
addressed word on the port, PEEK and POP the head of a queue that has one, and POP moves RP on; an uncorrectable word comes with
POIS; WRITE stores the data word with its tag (0 under STRONG); a port atomic returns the old value, stores the new one and keeps
the tag, and stores nothing after an uncorrectable read. Said of a field that is not protected, and of a protected one where the
word is good or corrected. The model's readings and choices: log entries 34, 35. -/
def Obligations.BlockMemoryAccesses : Prop :=
  ∀ (s : State) (o : BmOp) (chk : ReadCheck) (i : FieldImage), let f := o.field.val; let j := o.mem.val; let k := memKey f j
    let u := s.portTurn o
    let p := s.atPort o i
    s.image f = some i → (chk.syn = .uncorrectable → u.isProtected f = false) →
    (p.cmd = 1 → PortTakes s (.read o chk) o [] fun _ q r => PortReads u o p.addr chk q r fun _ => q.sameQueue r) ∧
    (u.popBarred f j = false → 0 < u.bmAvail f j (u.fabricLimit f j) →
      let w := u.bmSlot f j (s.queue k).q.rp
      (p.cmd = 5 → PortTakes s (.peek o chk) o [] fun _ q r => PortReads u o w chk q r fun _ => q.sameQueue r) ∧
      (p.cmd = 4 → PortTakes s (.pop o chk) o [] fun _ q r => PortReads u o w chk q r fun _ =>
        { q with rp := (q.rp + 1) % 4096 }.sameQueue r)) ∧
    (p.cmd = 2 → PortTakes s (.write o) o [p.addr] fun t q r =>
      q.sameQueue r ∧ q.outputs r o.port none false false 0 ∧
      t.word k p.addr = some ⟨p.data, if u.bmLight f j then p.tag else 0⟩) ∧
    (let d := p.data
      let atomic (c : Instr) (aop : Nat) (new : Word → Word) : Prop := p.cmd = 6 → p.aop = aop →
        (chk.syn = .uncorrectable → PortTakes s c o [] fun _ q r =>
          q.sameQueue r ∧ PortReads u o p.addr chk q r fun _ => True) ∧
        (chk.syn ≠ .uncorrectable → PortTakes s c o [p.addr] fun t q r => q.sameQueue r ∧ PortReads u o p.addr chk q r fun x =>
          t.word k p.addr = some ⟨new (x.data ^^^ chk.flip), x.tag⟩)
      atomic (.fetchAdd o chk) 0 (fun v => v + d) ∧ atomic (.swap o chk) 1 (fun _ => d) ∧
      atomic (.fetchAnd o chk) 2 (fun v => v &&& d) ∧ atomic (.fetchOr o chk) 3 (fun v => v ||| d) ∧
      atomic (.fetchMax o chk) 4 (fun v => if v.toInt < d.toInt then d else v))

/-- R140 to R143: where the command word at a port asks for it, PUSH stores the data word at WP: into a FIFO or RING with room the
word (and its stamp where stamps are on), into a MAILBOX the next word of its message; a full FIFO stores nothing and sets Q.OVF; a
full RING of an unprotected field drops the oldest entry and sets Q.OVW; a barred push sets Q.BADCMD. The model's readings and
choices: log entry 35. -/
def Obligations.QueuePushes : Prop :=
  ∀ (s : State) (o : BmOp) (i : FieldImage), let f := o.field.val; let j := o.mem.val; let k := memKey f j
    let u := s.portTurn o
    let p := s.atPort o i
    let q := (s.queue k).q
    let n := 1 + u.bmStamped f j
    let slots := (List.range n).map fun i => u.bmSlot f j (q.wp + i)
    let cell : BmCell := ⟨p.data, if u.bmLight f j then p.tag else 0⟩
    let takes (stored : List Nat) (P : State → QRegs → Prop) : Prop := PortTakes s (.push o) o stored fun t q r =>
      P t r ∧ q.outputs r o.port none false false 0
    s.image f = some i → p.cmd = 3 →
    (u.pushBarred f j = true → takes [] fun t r => q.sameQueue r ∧ t.is (F.FLD_BM_Q_BADCMD f j) = true) ∧
    (u.pushBarred f j = false →
      (u.bmMode f j = 1 → u.bmRoom f j n = true → takes slots fun t r =>
        r.wp = (q.wp + n) % 4096 ∧ r.rp = q.rp ∧ (n = 1 → t.word k (u.bmSlot f j q.wp) = some cell)) ∧
      (u.bmMode f j = 1 → u.bmRoom f j n = false → takes [] fun t r =>
        q.sameQueue r ∧ t.is (F.FLD_BM_Q_OVF f j) = true) ∧
      (u.bmMode f j = 2 → q.stop = false → u.bmRoom f j n = true → takes slots fun t r =>
        r.wp = (q.wp + n) % 4096 ∧ r.rp = q.rp ∧ (n = 1 → t.word k (u.bmSlot f j q.wp) = some cell) ∧
        (∀ m, q.post = some m → if m ≤ 1 then r.post = none ∧ r.stop = true else r.post = some (m - 1) ∧ r.stop = false)) ∧
      (u.bmMode f j = 2 → q.stop = false → u.isProtected f = false → gap q.wp q.rp = u.bmSize f j → n = 1 →
        takes slots fun t r => r.wp = (q.wp + 1) % 4096 ∧ r.rp = (q.rp + 1) % 4096 ∧
          t.word k (u.bmSlot f j q.wp) = some cell ∧ t.is (F.FLD_BM_Q_OVW f j) = true) ∧
      (u.bmMode f j = 3 → q.refusing = 0 → (0 < q.opened ∨ u.bmRoom f j (u.bmMsgAll f j) = true) →
        q.opened + 1 < u.bmMsg f j → takes [u.bmSlot f j q.wp] fun t r =>
          r.wp = (q.wp + 1) % 4096 ∧ r.rp = q.rp ∧ r.opened = q.opened + 1 ∧ t.word k (u.bmSlot f j q.wp) = some cell))

/-- R132, R134, R139 to R141: by the command word at a port, IDLE performs nothing; an undefined CMD or AOP, a barred POP or PEEK,
TRIG outside RING mode and RESETQ in RAM mode only set Q.BADCMD; POP and PEEK of an empty queue return 0 with VAL 0 and set Q.UNF;
TRIG arms the post-trigger count, or stops the ring at a count of 0; RESETQ empties the queue. The model's readings and choices: log
entries 35, 79. -/
def Obligations.QueueControl : Prop :=
  ∀ (s : State) (o : BmOp) (chk : ReadCheck) (i : FieldImage), let f := o.field.val; let j := o.mem.val; let k := memKey f j
    let u := s.portTurn o
    let p := s.atPort o i
    let takes (c : Instr) (v : Option Word) (P : State → QRegs → QRegs → Prop) : Prop := PortTakes s c o [] fun t q r =>
      P t q r ∧ q.outputs r o.port v false false 0
    let bad (c : Instr) : Prop := takes c none fun t q r => q.sameQueue r ∧ t.is (F.FLD_BM_Q_BADCMD f j) = true
    let empty (c : Instr) : Prop := takes c (some 0) fun t q r => q.sameQueue r ∧ t.is (F.FLD_BM_Q_UNF f j) = true
    s.image f = some i →
    (p.cmd = 0 → takes (.idle o) none fun t q r => q.sameQueue r ∧ t.regs = u.regs) ∧
    (9 ≤ p.cmd ∨ (p.cmd = 6 ∧ 5 ≤ p.aop) → bad (.idle o)) ∧
    (u.popBarred f j = true → (p.cmd = 4 → bad (.pop o chk)) ∧ (p.cmd = 5 → bad (.peek o chk))) ∧
    (u.popBarred f j = false → u.bmAvail f j (u.fabricLimit f j) = 0 →
      (p.cmd = 4 → empty (.pop o chk)) ∧ (p.cmd = 5 → empty (.peek o chk))) ∧
    (p.cmd = 7 → let n := p.data.toNat % 4096
      if u.bmMode f j = 2 then takes (.trig o) none fun _ q r =>
        { q with post := if n = 0 then none else some n, stop := if n = 0 then true else q.stop }.sameQueue r
      else bad (.trig o)) ∧
    (p.cmd = 8 → if u.bmMode f j = 0 then bad (.resetq o)
      else takes (.resetq o) none fun t _ r => r.rp = r.wp ∧ (t.queue k).crp = r.wp ∧ r.stop = false ∧ r.post = none ∧
        r.opened = 0 ∧ r.refusing = 0 ∧ r.wp = ((s.queue k).q.wp + 4096 - (s.queue k).q.opened) % 4096)

/-- R128, R136, R137, R150: WRITE_BACK stores the oldest pending correction; SPINE_WORD_ACCESS moves one word of the request
in service, a read of the DATA aperture or a write to it, and the request that has moved its last word leaves the block;
PATROL_VISIT checks the next enrolled word and moves on.
Each takes port B's slot of its memory cycle. The model's readings and choices: log entry 35. -/
def Obligations.MemoryCycleUsers : Prop :=
  ∀ (s : State) (f : FieldNo) (j : Fin 192) (cyc : Nat) (fl : Word), let k := memKey f j
    (∀ b l, (s.queue k).backs = b :: l → s.slotFree f j cyc = true → ∃ t, exec (.writeBack f j cyc) s = .next t ∧
      t.word k b.word = some ⟨b.data, b.tag⟩ ∧ (∀ a, a ≠ 2048 * k + b.word → SMap.get t.bmem none a = SMap.get s.bmem none a) ∧
      (∀ x ∈ (t.queue k).backs, x.word ≠ b.word) ∧ (∀ m ≠ k, t.queue m = s.queue m) ∧
      State.SameStores { s with bmem := t.bmem, queues := t.queues } t) ∧
    (∀ (b : SpineJob) (l : List SpineJob) (i i' : Nat) (is : List Nat),
      (s.queue k).jobs = b :: l → (s.queue k).backs = [] → s.mode.top ≠ .halt → s.slotFree f j cyc = true →
      s.isProtected f = false → b.ap = .data → b.todo = i :: i' :: is →
      (isReadType (b.req.headD Carriage.zero).typ = true → (b.req.headD Carriage.zero).typ ≠ tAtomic →
        ∀ c, s.word k (b.word i) = some c → ∃ t, exec (.spineWordAccess f j cyc ⟨.zero, fl⟩) s = .next t ∧
          JobMoved s t k b l (i' :: is) (b.got ++ [(i, c.data ^^^ fl)]) ∧ State.SameStores { s with queues := t.queues } t) ∧
      (isReadType (b.req.headD Carriage.zero).typ = false → (b.req.headD Carriage.zero).typ ≠ tAtomic →
        ∃ t, exec (.spineWordAccess f j cyc ⟨.zero, fl⟩) s = .next t ∧ JobMoved s t k b l (i' :: is) b.got ∧
          t.word k (b.word i) = some ⟨b.payload i, if s.bmLight f j then b.tag else 0⟩ ∧
          (∀ a, a ≠ 2048 * k + b.word i → SMap.get t.bmem none a = SMap.get s.bmem none a) ∧
          State.SameStores { s with queues := t.queues, bmem := t.bmem } t)) ∧
    (∀ p c, s.nextVisit f = some p → let m := memKey f (p / 2048)
      s.is (F.FLD_BMPAT_EN f) = true → s.slotFree f (p / 2048) cyc = true → (s.queue m).backs = [] → (s.queue m).jobs = [] →
      s.word m (p % 2048) = some c → ∃ t, exec (.patrolVisit f cyc ⟨.zero, fl⟩) s = .next t ∧
        t.fld f = { s.fld f with patrolAt := p + 1 } ∧ (∀ g ≠ f.val, t.fld g = s.fld g) ∧ t.regs = s.regs ∧
        (t.queue m).slotAt = some ((s.fld f).stamp cyc) ∧ (∀ n ≠ m, t.queue n = s.queue n) ∧
        State.SameStores { s with queues := t.queues } t)

/-- R138, R149: a QUEUE write without room for 4,096 cycles leaves its block with nothing more pushed; a write of BMINIT.GO
while the block is disabled starts a fill, while it is enabled sets REJ, and while a fill runs or for a BLOCK of 192 to 254
does nothing more, and nothing while the field's domain is off; the end of a fill, in a memory cycle, leaves every word of the memory 0 with tag 0, INITD 1 and BUSY 0. The model's readings
and choices: log entries 35, 79. -/
def Obligations.QueueTimeoutAndFill : Prop :=
  ∀ (s : State) (f : FieldNo) (j : Fin 192), let k := memKey f j
    (∀ b l, (s.queue k).jobs = b :: l → s.jobWaits f j = true →
      ∃ t, exec (.queueWriteTimeout f j) s = .next t ∧ (t.queue k).jobs = l ∧ (t.queue k).q = (s.queue k).q ∧ t.bmem = s.bmem) ∧
    (∀ n : Fin 256, let s' := s.put (F.FLD_BMINIT_BLOCK f) n
      exec (.bminit f n) s = .next (
        if s.domainOn (4 + f) = false then s
        else if s'.fldEnabled f then s'.raise (F.FLD_BMINIT_REJ f)
        else if s'.is (F.FLD_BMINIT_BUSY f) || decide (192 ≤ n.val ∧ n.val ≤ 254) then s'
        else (s'.raise (F.FLD_BMINIT_BUSY f)).setFld f
          { s.fld f with fill := some (if n.val = 255 then none else some n.val) })) ∧
    (s.memClock f = true → (s.fld f).fill = some (some j.val) → ∃ t, exec (.bminitDone f) s = .next t ∧
      (∀ w < 2048, t.word k w = some ⟨0, 0⟩) ∧ (∀ m ≠ k, ∀ w < 2048, t.word m w = s.word m w) ∧
      t.is (F.FLD_BM_CFG_INITD f j) = true ∧ t.is (F.FLD_BMINIT_BUSY f) = false ∧ (t.fld f).fill = none ∧
      State.SameStores { s with bmem := t.bmem, queues := t.queues } t) ∧
    (s.memClock f = true → (s.fld f).fill = some none → ∃ t, exec (.bminitDone f) s = .next t ∧ (∀ w < 2048, t.word k w = some ⟨0, 0⟩) ∧
      t.is (F.FLD_BM_CFG_INITD f j) = true ∧ t.is (F.FLD_BMINIT_BUSY f) = false ∧ (t.fld f).fill = none)

/-- R93, R95, R96, R99 to R101: as a clocked cycle of a field ends, every relay and segment of it loads if the field's cells execute
the cycle: a segment what its tap or boundary switch drives, and 0 where none does; a held segment what its trip captured, then 0.
Contention on a segment that is not held holds it, counts a trip, names it in LASTSEG and posts CONTENTION; a second one within 16
ticks of a re-enable leaves it to CLR alone; in an executed cycle it captures an open value. A write of CLR re-enables every held
segment of the field and changes no other segment. The model's readings and choices: log entries 34, 78. -/
def Obligations.SegmentContention : Prop :=
  (∀ (s : State) (f : FieldNo) (i : FieldImage), let c := (s.fld f).cycle
    let st := ((s.fld f).frames, c)
    let t := s.comeTo f (c + 1)
    State.Turned s t f ∧ (t.fld f).cycle = c + 1 ∧
    (s.image f = some i → s.clocked f c = true →
      (∀ n < 128, let x := s.seg (segKey f n)
        let y := t.seg (segKey f n)
        y.prev = x.value ∧ y.held = x.held ∧ y.trip = none ∧ y.value = (if x.held then x.trip.getD 0
          else if s.works f c then s.segmentInput i f st n else x.value) ∧
        ((∀ d < 8, i.drivers.contains (10 * n + d) = false) → (∀ e ∈ trackEnds n, s.switchWord i f n e.1 e.2 c = none) →
          x.held = false → s.works f c = true → y.value = 0)) ∧
      (∀ n e, n < 1920 → i.relays[n]? = some e → s.works f c = true → (t.seg (segKey f (128 + n))).value =
        if i.feeds e.1 e.2 then s.arrives i f st (i.origin 4 e.2) else 0))) ∧
  (∀ (s : State) (f : FieldNo) (track : Fin 128) (cyc : Nat), let k := segKey f track
    let runs := s.executes f (cyc - (s.fld f).base)
    let u := if runs then s.comeTo f cyc else s
    (u.isProtected f = false → (s.seg k).held = false → ∃ t, exec (.contention f track cyc) s = .next t ∧
      (t.seg k).held = true ∧ (t.seg k).autoAt = none ∧
      (t.seg k).clrOnly = ((u.seg k).autoAt.any fun a => decide ((s.time.tick + 2 ^ 48 - a) % 2 ^ 48 ≤ 16)) ∧
      (t.seg k).trip = (if runs then some (Config.freeWord u.free) else none) ∧
      (t.seg k).value = (if runs then (u.seg k).value else 0) ∧
      (∀ m ≠ k, t.seg m = u.seg m) ∧ t.get (F.FLD_CONTSTAT_LASTSEG f) = track ∧
      t.get (F.FLD_CONTSTAT_TRIPS f) = min (u.get (F.FLD_CONTSTAT_TRIPS f) + 1) (2 ^ (F.FLD_CONTSTAT_TRIPS f).w - 1) ∧
      State.LogOnly { u with segs := t.segs, free := t.free } t) ∧
    exec (.contClr f) s = .next { s with
      segs := SMap.mapIn SegSt.zero (2048 * f) (2048 * f + 128)
        (fun _ x => { x with held := false, clrOnly := false, autoAt := none, trip := none }) s.segs })

/-- R36 to R47, R196: DONE in time is noted with its cycle; a late DONE makes the field idle to the next tick, and under
RELEASE_LATE an unprotected field drives its framed outputs; guard cycle B decides: with DONE the outputs present are captured
(those of DONE where they were), without it the field overruns; guard cycle B + 1 captures the shadows of the field's slices,
segments and queues and of no other field; a late field that has crossed more ticks than OVR_MAX becomes STUCK, its three NIs with
it; a restart is noted by a STUCK field that no uncorrectable frame stopped, and by no other. Cycles of the field that have not ended
end first. The model's readings and choices: log entries 8, 21, 22, 23, 73, 78. -/
def Obligations.FrameEndsAndRestart : Prop :=
  ∀ (s : State) (f : FieldNo) (cyc : Nat),
    let x := s.fld f
    let c := x.base + cyc
    (let u := s.comeTo f (c + 1);
      s.doneSampled f cyc = true → ∃ t, exec (.done f cyc) s = .next t ∧ (t.fld f).doneAt = some c ∧
      (t.fld f).phase = (if x.phase = .frame then .frame else .lateDone) ∧
      t.get (F.FLD_LASTDONE_CYC f) = min c (2 ^ 24 - 1) ∧
      t.get (F.FLD_MAXDONE_CYC f) = max (u.get (F.FLD_MAXDONE_CYC f)) (min c (2 ^ 24 - 1)) ∧
      (x.phase ≠ .frame → (t.fld f).driven = if u.is (F.FLD_CTL_LATE_POLICY f) && !u.isProtected f then u.framed f else x.driven) ∧
      (∀ g ≠ f.val, t.fld g = s.fld g) ∧ t.segs = u.segs ∧ State.Turned s t f) ∧
    (let u := s.comeTo f (s.budget f);
      s.mode.running = true → x.phase = .frame → x.cycle ≤ s.budget f →
      (x.doneAt.isSome = true → ∃ t, exec (.guard1 f) s = .next t ∧ (t.fld f).cycle = s.budget f ∧
        (t.fld f).captured = true ∧ (t.fld f).release = (if x.captured then x.release else u.framed f) ∧
        (t.fld f).phase = .frame ∧ t.segs = u.segs ∧ State.Turned s t f) ∧
      (x.doneAt = none → ∃ t, exec (.guard1 f) s = .next t ∧ (t.fld f).phase = .late ∧ (t.fld f).crossed = 0 ∧
        t.is (F.FLD_FSTAT_OVERRUN f) = true ∧ State.TurnedLog s t f)) ∧
    (let u := s.comeTo f (s.budget f + 1);
      s.mode.running = true → x.phase = .frame → x.cycle = s.budget f → x.captured = true → x.failed = false →
      u.is (F.FLD_SNAPSTAT_DRAIN f) = false → ∃ t, exec (.guard2 f) s = .next t ∧ (t.fld f).cycle = s.budget f + 1 ∧
        t.slices = SMap.mapIn SliceSt.zero (512 * f) (512 * (f + 1)) (fun _ y => { y with shadow := y.now }) s.slices ∧
        t.queues = SMap.mapIn QCtl.zero (192 * f) (192 * (f + 1)) (fun _ y => { y with shadow := y.q }) s.queues ∧
        t.segs = SMap.mapIn SegSt.zero (2048 * f) (2048 * (f + 1)) (fun _ y => { y with shadow := y.value }) u.segs ∧
        t.bmem = s.bmem) ∧
    (x.phase = .late → x.doneAt = none → s.get (F.FLD_CTL_OVR_MAX f) < x.crossed → ∃ t, exec (.fieldStuck f) s = .next t ∧
      (t.fld f).phase = .stuck ∧ (t.fld f).restart = false ∧ (∀ g ≠ f.val, t.fld g = s.fld g) ∧
      (∀ n < 96, (t.ni n).causes.stuck = (decide (n / 3 = f.val) || (s.ni n).causes.stuck)) ∧
      t.cells = s.cells ∧ t.slices = s.slices ∧ t.segs = s.segs ∧ t.queues = s.queues ∧ t.bmem = s.bmem) ∧
    (x.phase = .stuck → bitOf f (s.reg R.SCR_UNCFG) = false → exec (.restart f) s = .next (s.setFld f { x with restart := true })) ∧
    ((x.phase ≠ .stuck ∨ bitOf f (s.reg R.SCR_UNCFG) = true) → exec (.restart f) s = .next s)

/-- R33, R34, R256, R257: TICK on a grid that has a next edge gives the tick counter its number, that of a grid just placed
or the next one, sets TICKS and, where no change waits to be committed or to place a grid, puts the next edge PERIOD beats of
80 ns later; without a next edge nothing happens. The model's readings and choices: log entry 21. -/
def Obligations.TickAdvancesTime : Prop :=
  ∀ s : State, (s.time.nextTick = none → exec .tick s = .next s) ∧
    ∀ r, s.time.nextTick = some r → s.mode.drain ≠ some .valley → ∃ t, exec .tick s = .next t ∧ t.time.ticks = true ∧
      t.time.tick = s.time.placed.getD (if s.time.numbered then (s.time.tick + 1) % 2 ^ 48 else s.time.tick) ∧
      (s.time.lock ≠ .raise → s.staged = [] → t.time.nextTick = some ((r + 80 * s.period) % 2 ^ 48))

/-- R157, R164 to R168: a CHKFAIL that counts in a protected frame which may still be replayed rewinds the field to its
shadows and waits for repairs; the replay starts once none is pending, and then REPLAYING is 1; the verification window of a good
DONE closes with VERIFIED 1; the last acknowledgement of a drain ends it. The model's readings and choices: log entries 9, 25, 79. -/
def Obligations.ProtectedExecution : Prop :=
  ∀ (s : State) (f : FieldNo) (cyc : Nat), let x := s.fld f
    let u := s.comeTo f (x.base + cyc)
    (s.isProtected f = true → s.is (F.FLD_PROT_CHKEN f) = true → s.executes f cyc = true → x.doneAt = none → x.phase = .frame →
      x.rewound = false → x.failed = false → (u.controlWord f (x.stamp cyc)).getLsbD 1 = true → u.isProtected f = true →
      u.is (F.FLD_PROTSTAT_REPLAYING f) = false → s.overflowed f = false →
      u.is (F.FLD_SNAPSTAT_DRAIN f) = false → ∃ t, exec (.chkfail f cyc) s = .next t ∧ (t.fld f).rewound = true ∧
        (t.fld f).cycle = x.base + cyc + 1 ∧ t.is (F.FLD_PROTSTAT_REPLAYING f) = false ∧ t.is (F.FLD_PROTSTAT_VERIFIED f) = false ∧
        t.slices = SMap.mapIn SliceSt.zero (512 * f) (512 * (f + 1)) (fun _ y => { y with now := y.shadow }) s.slices) ∧
    (x.rewound = true → x.cycle ≤ cyc → (∀ r ∈ s.cfg.repairs, r.field ≠ f) →
      exec (.replayStart f cyc) s = .next ((s.setFld f { x with rewound := false, base := cyc, cycle := cyc }).raise
        (F.FLD_PROTSTAT_REPLAYING f))) ∧
    (∀ d, x.doneAt = some d → s.isProtected f = true → x.phase = .frame → d ≤ s.get (F.FLD_WMAX_CYC f) → x.rewound = false →
      x.failed = false → exec (.verificationWindowClose f) s = .next (s.raise (F.FLD_PROTSTAT_VERIFIED f))) ∧
    (s.is (F.FLD_SNAPSTAT_DRAIN f) = true → x.snapLeft = 0 → exec (.snapDone f) s =
      .next (((s.clear (F.FLD_SNAPSTAT_DRAIN f)).raise (F.FLD_SNAPSTAT_DONE f)).post 0x089 (3 * f.val) f))

/-- R12, R15, R52: a 4-byte write of a register of a block that is never disabled: RW LIVE bits take the data, W1S bits are
set and W1C bits cleared where the data is 1, RO, RC and STATIC bits stay; RW SHADOW bits are staged for the host or the
steward and stay as they are; no other register changes, and no other
store but the frame sweeps that SCR.CTL.EN starts. No wake may hold the access (R301). Said of the blocks whose writes set nothing else
off. The model's readings and choices: log entries 11, 12, 14. -/
def Obligations.RegisterWritesByClass : Prop :=
  ∀ (s : State) (p : Path) (off : BitVec 24) (d : BitVec 64) (x : RegAt), regAt off.toNat = some x →
    x.block.block ∈ [Block.trg, .scr, .noc, .gpb] → x.desc.pair = .single → x.loc ≠ 0xFC → off.toNat % 4 = 0 →
    msixReg off.toNat = none → s.power.powered = true → s.writable x = true → s.waits p off.toNat = false → s.staged = [] →
    let has (m : FieldDesc → Bool) (k : Nat) : Bool := (x.desc.bitsWhere m).testBit k
    let live := has (fun f => f.access == .rw && f.cls == .live);
    let sh := x.desc.rw .shadow;
    ∃ t, exec (.registerWrite p off 4 d) s = .next t ∧
      (∀ k < 32, (t.reg x.ref).testBit k =
        (((s.reg x.ref).testBit k && !live k && !(d.getLsbD k && has (fun f => f.access == .w1c) k)) ||
          (d.getLsbD k && (live k || has (fun f => f.access == .w1s) k)))) ∧
      (∀ o ≠ x.ref.off, ∀ r, SMap.get t.regs r o = SMap.get s.regs r o) ∧ (sh = 0 → t.staged = []) ∧
      (sh ≠ 0 → t.staged = [(x.ref.off, if p = .steward then
        { Staged.none with stwMask := BitVec.ofNat 32 sh, stwVal := BitVec.ofNat 32 (d.toNat % 2 ^ 32) &&& BitVec.ofNat 32 sh }
        else { Staged.none with
          hostMask := BitVec.ofNat 32 sh, hostVal := BitVec.ofNat 32 (d.toNat % 2 ^ 32) &&& BitVec.ofNat 32 sh })]) ∧
      (¬ (x.block.block = .scr ∧ x.loc = 0 ∧ d.getLsbD 0 = true ∧ (s.reg x.ref).testBit 0 = false) → t.cfg = s.cfg) ∧
      State.SameStores { s with staged := t.staged, cfg := t.cfg } t

/-- R10, R15, R247: a read of a LO register returns its half and latches the other for its path; a read of NOW_LO latches
NOW_HI and NOWX; a read of a register with RC fields returns them and clears them, on the debug path only returns them; a
write of a HI register with a staged LO half writes both halves of the pair together. The model's readings and choices: log
entry 13. -/
def Obligations.PairsAndReadClear : Prop :=
  ∀ (s : State) (p : Path) (off : BitVec 24) (x : RegAt), regAt off.toNat = some x → off.toNat % 4 = 0 →
    0x10000 ≤ off.toNat → off.toNat < 0x200000 → msixReg off.toNat = none → s.power.powered = true → s.waits p off.toNat = false →
    x.ref.off ≠ R.TIME_NOW_LO.off → x.ref.off ≠ R.TIME_NOWX.off →
    ¬ (x.block.block = .time ∧ 0x800 ≤ x.loc ∧ (x.loc - 0x800) % 64 = 8) →
    (∀ h, x.desc.pair = .lo → ¬ (x.block.block = .fld ∧ x.loc = 0x54) → regAt (x.ref.off + 4) = some h →
      exec (.loRead p off 4) s = .next { (s.latch p x.ref.off (s.regValue p h)) with
        readOut := (p, BitVec.ofNat 64 (s.regValue p x)) }) ∧
    (let m := x.desc.bitsWhere (fun f => f.access == .rc);
      x.desc.pair = .single → m ≠ 0 → s.readable x = true → exec (.rcRead p off) s = .next
        { (if p = .debug then s else s.setReg x.ref (s.reg x.ref &&& (2 ^ 32 - 1 - m))) with
          readOut := (p, BitVec.ofNat 64 (s.regValue p x)) }) ∧
    (∀ (lo : RegAt) (v d : BitVec 32), x.desc.pair = .hi → x.block.block ∈ [Block.trg, .mig] → s.writable x = true →
      regAt (x.ref.off - 4) = some lo → regAt (lo.ref.off + 4) = some x → lo.block.block = x.block.block →
      SMap.get (s.path p).staging none lo.ref.off = some v → s.staged = [] → p ≠ .steward →
      lo.desc.rw .shadow = 2 ^ 32 - 1 → x.desc.rw .shadow = 2 ^ 16 - 1 → ∃ t, exec (.hiWrite p off d) s = .next t ∧
        (SMap.get t.staged Staged.none lo.ref.off).hostVal = v ∧
        (SMap.get t.staged Staged.none x.ref.off).hostVal = d &&& 0xFFFF ∧
        SMap.get (t.path p).staging none lo.ref.off = none) ∧
    (let l := SMap.set (s.path p).latch 0 R.TIME_NOW_LO.off (BitVec.ofNat 32 (s.correctedNat / 2 ^ 32))
      let y := { s.path p with latch := SMap.set l 0 R.TIME_NOWX.off (BitVec.ofNat 32 s.time.nowx) };
      exec (.nowRead p) s = .next { (s.setPath p y) with readOut := (p, BitVec.ofNat 64 (s.correctedNat % 2 ^ 32)) })

/-- R48 to R52: GO of a GO-kind block gives each staged register its staged bits, the host's before the steward's, and leaves
nothing staged; DISCARD drops what is staged and changes no register; GO of a TICK-kind block while ticks run sets HOLD as
written and arms the block where HOLD is 1. The model's readings and choices: log entries 16, 20. -/
def Obligations.CommitGoAndDiscard : Prop :=
  ∀ (s : State) (p : Path) (off : BitVec 24) (b : BlockDesc) (i : Nat) (x : RegAt) (hold : Bool),
    commitAt off.toNat = some (b, i) → regAt off.toNat = some x → msixReg off.toNat = none → s.power.powered = true →
    s.writable x = true → s.waits p off.toNat = false → b.block ≠ .dbg → b.block ≠ .ni → 0x10000 ≤ off.toNat → off.toNat < 0x200000 →
    (b.commit = .go → (∀ e ∈ s.staged, b.holds i e.1 = true) → (∀ go,
      exec (.commitDiscard p off hold go) s = .next { s with staged := [] }) ∧
      (b.block ∉ [Block.mig, .cry] → ∀ o y r, s.staged = [(o, y)] → regAt o = some r → ∃ t, exec (.commitGo p off hold) s = .next t ∧
        t.staged = [] ∧ (∀ k < 32, (t.reg r.ref).testBit k = if y.hostMask.getLsbD k then y.hostVal.getLsbD k
          else if y.stwMask.getLsbD k then y.stwVal.getLsbD k else (s.reg r.ref).testBit k) ∧
        (∀ o' ≠ r.ref.off, ∀ z, SMap.get t.regs z o' = SMap.get s.regs z o') ∧ State.LogOnly { s with staged := [] } t)) ∧
    (b.commit = .tick → s.is F.TIME_STATUS_TICKS = true → s.staged = [] → ∃ t, exec (.commitGo p off hold) s = .next t ∧
      t.is (cHold (b.commitReg i)) = hold ∧ t.is (cArmed (b.commitReg i)) = (hold || s.is (cArmed (b.commitReg i))) ∧
      (∀ o ≠ (b.commitReg i).off, ∀ z, SMap.get t.regs z o = SMap.get s.regs z o) ∧ State.SameStores s t)

/-- Table 1-5, R26, R184, R392, R401, R428: the requests that are allowed: RUN goes from STAGED to LOCKING; STOP and VALLEY
from RUN or HOLDOVER wait for a tick; VALLEY from BARE or STAGED begins its entry; UNLOAD leaves no field configured in BARE;
RELEASE ends SAFE-HOLD in STAGED or BARE with ticks to come (and answers what a wake held); SELF_TEST with fields to test enters SELF-TEST and waits at the
first; LOCK_TIMEOUT ends LOCKING. The model's readings and choices: log entries 24, 26, 27, 75. -/
def Obligations.ModeRequestsAct : Prop :=
  ∀ s : State, s.staged = [] → let m := s.mode
    (s.refuses [.staged] = false → ∃ t, exec .reqRun s = .next t ∧ t.mode.base = .locking ∧
      (s.timeMode ≠ 2 → t.mode.busy = false) ∧ t.mode.ov = m.ov ∧ t.reg R.GLB_TRANS = 0x132) ∧
    (s.refuses [.run, .holdover] = false → exec .reqStop s = .next { s with mode := { m with busy := true, drain := some .stop } } ∧
      exec .reqValley s = .next { s with mode := { m with busy := true, drain := some .valley } }) ∧
    (s.refuses [.bare, .staged] = false → ∃ t, exec .reqValley s = .next t ∧ t.mode.ov.valley = true ∧ t.mode.busy = true ∧
      t.mode.base = m.base ∧ t.get F.PWR_VALLEY_STATE = 1) ∧
    (s.refuses [.staged] = false → s.cfg.load = none → ∃ t, exec .reqUnload s = .next t ∧ t.mode.base = .bare ∧
      (∀ f < 24, t.configured f = false) ∧ t.get F.CFG_FIELDS_MAP = 0) ∧
    (m.ov.safeHold = true → m.busy = false → s.synthsLocked = true → s.power.safeN = true → ∀ checks, ∃ t,
      exec (.reqRelease checks) s = .next (if s.waking then t.answerLate else t) ∧ t.mode.ov.safeHold = false ∧ t.mode.ov.halt = false ∧ t.mode.ov.valley = false ∧ t.mode.ov.selfTest = false ∧
      (m.ov.selfTest = false → t.images = s.images) ∧
      t.mode.base = (if t.anyConfigured then .staged else .bare) ∧ t.time.nextTick = some (beatUp (s.time.raw + 2000))) ∧
    (s.refuses [.bare, .staged] = false → s.is F.BIST_CTL_FIELD = true → ∀ (run fail : BitVec 13) (f : Nat) (fs : List Nat),
      (allFields.filter fun g => bitOf g (s.reg R.BIST_FMAP)) = f :: fs → ∃ t, exec (.reqSelfTest run fail) s = .next t ∧
        t.mode.ov.selfTest = true ∧ t.mode.before = m.base ∧ t.bist.todo = f :: fs ∧ t.is F.BIST_STAT_BUSY = true ∧
        t.get F.BIST_STAT_PHASE = 2 ∧ t.get F.BIST_STAT_CUR = f) ∧
    (m.top = .locking → ∃ t, exec .lockTimeout s = .next t ∧ t.mode = { m with base := .staged, busy := false, runNext := false } ∧
      t.is F.GLB_ERR_LOCKTO = true ∧ t.time.lock = .none)

/-- R26, R30: a request that Table 1-5 does not allow, or that comes while BUSY is 1, sets its error bit, writes GLB.TRANS,
the log and an event, and changes nothing else. The model's readings and choices: log entries 26, 27. -/
def Obligations.ModeRequestsRejected : Prop :=
  ∀ s : State, s.staged = [] → let m := s.mode
    let rejected (c : Instr) : Prop := ∃ t, exec c s = .next t ∧ t.mode = m ∧
      t.is (if m.busy then F.GLB_ERR_BUSYREJ else F.GLB_ERR_REJECT) = true ∧
      t.reg R.GLB_TRANS = m.top.code + 16 * m.top.code + 256 + 2 ^ 23 ∧ State.LogOnly s t
    (s.refuses [.staged] = true → rejected .reqRun ∧ rejected .reqUnload) ∧
    (s.refuses [.run, .holdover] = true → rejected .reqStop) ∧
    (s.refuses [.bare, .staged, .run, .holdover] = true → rejected .reqValley) ∧
    (s.refuses [.bare, .staged] = true → ∀ run fail, rejected (.reqSelfTest run fail)) ∧
    (m.ov.safeHold = false → ∀ checks, rejected (.reqRelease checks))

/-- R300, R408, R409, R469, R471: a device reset, whatever asks for it, brings every store to its state at reset and every
register to its reset value but RSTCAUSE and what the boot straps show, keeps fuses, straps and the commands that wait, and
starts a load from flash where the straps say so; without power, or with a wrong key, nothing happens; the loss of supplies
leaves everything at reset, unpowered. The model's readings and choices: log entries 2, 5, 10, 57. -/
def Obligations.ResetsRestoreInitialState : Prop :=
  ∀ s : State,
    let resets (c : Instr) (cause : Nat) : Prop := ∃ t, exec c s = .next t ∧ t.get F.PWR_RSTCAUSE_CAUSE = cause ∧
      t.power.powered = true ∧ t.pending = s.pending ∧ t.straps = s.straps ∧ t.fuses = s.fuses ∧ t.atReset = s.fuses ∧ t.images = [] ∧
      t.cells = [] ∧ t.slices = [] ∧ t.segs = [] ∧ t.bmem = [] ∧ t.queues = [] ∧ t.routers = [] ∧ t.nis = [] ∧ t.ports = [] ∧
      t.lanes = [] ∧ t.drams = [] ∧ t.staged = [] ∧ t.time = State.reset.time ∧ t.cry = State.reset.cry ∧
      t.mode.base = (if s.straps.mode = 1 ∨ s.straps.mode = 2 then .loading else .bare) ∧
      (∀ r : RegRef, r.off ≠ R.PWR_RSTCAUSE.off → r.off ≠ R.CFG_STATUS.off → r.off ≠ R.GLB_LOCKCFG.off → r.off ≠ R.GLB_TRANS.off →
        t.reg r = r.rst % 2 ^ 32)
    (s.power.powered = true → resets .perstN 1 ∧ (∀ c : Fin 3, resets (.deviceReset c) c) ∧
      ∀ n ≤ 1024, resets (.softwareReset .host 0x5245 0x5354 n) 2) ∧
    (s.power.powered = false → resets .powerOn 0 ∧ exec .perstN s = .next s ∧ ∀ c, exec (.deviceReset c) s = .next s) ∧
    (s.power.powered = true → exec .powerOn s = .next s) ∧
    (∀ p a b n, (p ≠ .host ∨ a ≠ 0x5245 ∨ b ≠ 0x5354 ∨ 1024 < n) → exec (.softwareReset p a b n) s = .next s) ∧
    (∃ t, exec .supplyLoss s = .next t ∧ t.power.powered = false ∧ t.regs = [] ∧ t.mode = State.reset.mode ∧ t.fuses = s.fuses ∧
      t.straps = s.straps ∧ t.cells = [] ∧ t.bmem = [] ∧ t.images = [])

/-- R57, R58, R403 to R406: a raise waits for power-good and is abandoned without it: VCORE returns to the point before, BUSY
clears and PGTMO is set; a lowering is complete when the voltage has settled, and LOCKING then
raises a point below OPmin (R184); VOUT_MODE decides VMOK; a poll in tolerance
counts as power-good and a failed one counts; an undervoltage sets UV and, under policy FREEZE, enters FREEZE. The model's
readings and choices: log entry 30. -/
def Obligations.OperatingPointChanges : Prop :=
  ∀ s : State, let w := s.power
    (w.raising.isSome = true → exec .powerGood s = .next { s with power := { w with good := true } }) ∧
    (w.raising = none → exec .powerGood s = .next s ∧ exec .pgtmo s = .next s) ∧
    (∀ j, w.raising = some j → w.good = false → ∃ t, exec .pgtmo s = .next t ∧ t.power.raising = none ∧
      t.get F.PWR_OPSTAT_OPV = w.old % 4 ∧ t.is F.PWR_OPSTAT_BUSY = false ∧ t.is F.PWR_ERR_PGTMO = true ∧
      t.get F.PWR_OPSTAT_OPF = s.get F.PWR_OPSTAT_OPF) ∧
    (w.lowering = true → exec .vcoreSettled s =
      .next (State.lockRaise { (s.clear F.PWR_OPSTAT_BUSY) with power := { w with lowering := false } })) ∧
    (w.lowering = false → exec .vcoreSettled s = .next s) ∧
    (w.powered = true → (∃ t, exec (.voutModeRead (some true)) s = .next t ∧ t.is F.PWR_OPSTAT_VMOK = true) ∧
      exec (.voutModeRead (some false)) s = .next ((s.clear F.PWR_OPSTAT_VMOK).raise F.PWR_ERR_VMODE) ∧
      ∃ t, exec (.voutModeRead none) s = .next t ∧ t.is F.PWR_OPSTAT_VMOK = false ∧ t.is F.PWR_ERR_VMODE = true ∧
        t.is F.PWR_ERR_PMBUS = true) ∧
    (s.is F.PWR_OPSTAT_VMOK = true →
      (w.fails + 1 < 3 → exec (.pmbusPoll .failed) s = .next { s with power := { w with fails := w.fails + 1 } }) ∧
      (∀ mv : Int, (mv - w.target).natAbs ≤ 15 → w.raising.isSome = true → exec (.pmbusPoll (.status true mv)) s =
        .next { s with power := { w with fails := 0, good := true } })) ∧
    (∃ t, exec .undervoltage s = .next t ∧ t.is F.PWR_ERR_UV = true ∧ (s.is F.PWR_CTL_UVPOL = true → State.LogOnly s t) ∧
      (s.is F.PWR_CTL_UVPOL = false → s.mode.ov.safeHold = false → t.mode.ov.freeze = true))

/-- R397 to R401: the reference monitors and synthesizers: losing REFCLK_CH fails over to a good REFCLK_LOC, from RUN into
HOLDOVER, or else leads to SAFE-HOLD, as do losing the reference in use, an unlock of a synthesizer Table 17-3 marks so, and
SAFE_N at 0; a measured ratio is kept; requalification ends the use of REFCLK_LOC; a first lock starts RAW and, but in SAFE-HOLD, the ticks. The
model's readings and choices: log entries 29, 32. -/
def Obligations.ClockEvents : Prop :=
  ∀ s : State, s.power.powered = true →
    (s.onCh = true → s.anyLock = true → s.is F.CLK_CTL_FAILOVER = true → s.is F.CLK_STAT_LOCOK = true → s.is F.CLK_STAT_RATIOV = true →
      s.mode.base = .run → s.mode.suspended = false → ∃ t, exec .refclkChLoss s = .next t ∧ t.mode.base = .holdover ∧
        t.is F.CLK_STAT_ONLOC = true ∧ t.is F.CLK_ERR_FOVER = true ∧ t.is F.CLK_STAT_CHOK = false ∧ t.is F.TIME_STATUS_HOLD = true) ∧
    (s.onCh = true → s.anyLock = true → s.is F.CLK_CTL_FAILOVER = false → ∃ t, exec .refclkChLoss s = .next t ∧
      t.mode.ov.safeHold = true ∧ t.is F.CLK_ERR_CHLOSS = true) ∧
    (s.locEnabled = true → s.onCh = false → s.anyLock = true → ∃ t, exec .refclkLocLoss s = .next t ∧
      t.mode.ov.safeHold = true ∧ t.is F.CLK_ERR_LOCLOSS = true) ∧
    (s.locEnabled = true → ∀ v, ∃ t, exec (.ratioValid v) s = .next t ∧ t.is F.CLK_STAT_RATIOV = true ∧
      t.pair R.CLK_RATIO_LO R.CLK_RATIO_HI = v.toNat ∧ State.SameStores s t) ∧
    (s.is F.CLK_STAT_ONLOC = true → s.is F.CLK_CTL_PRIM = false → ∃ t, exec .requalify s = .next t ∧
      t.is F.CLK_STAT_ONLOC = false ∧ t.is F.CLK_STAT_CHOK = true ∧ t.time.requalified = true) ∧
    (s.synthsLocked = false → s.time.running = false → s.is F.CLK_CTL_PRIM = false → s.mode.base ≠ .locking → ∀ loc,
      ∃ t, exec (.synthLock (some 100000) loc) s = .next t ∧ t.synthsLocked = true ∧ t.time.running = true ∧ t.time.raw = 0 ∧
        t.time.nextTick = if s.mode.ov.safeHold then s.time.nextTick else some 2000) ∧
    (∀ k : Fin 10, s.is (lockBit k) = true → ∃ t, exec (.synthUnlock k) s = .next t ∧ t.get F.CLK_STAT_LASTUNL = k ∧
      t.is F.CLK_ERR_UNLOCK = true ∧ (k.val < 4 → t.mode.ov.safeHold = true)) ∧
    (s.mode.ov.safeHold = false → ∃ t, exec (.safeN true) s = .next t ∧ t.mode.ov.safeHold = true ∧ t.power.safeN = false ∧
      t.is F.CLK_ERR_SAFEN = true ∧ t.time.nextTick = none) ∧
    exec (.safeN false) s = .next { s with power := { s.power with safeN := true } }

/-- R386 to R395: the drain of a domain whose NIs await nothing ends in its isolation: off in DOMSTAT; a drain that times out
gives up what is outstanding; a domain that is wanted on and off is switched on with its registers at reset; VALLEY's entry
is complete when the drains are, GVALID lost with the steward's registers; an enabled wake source recorded first starts the wake; its completion ends VALLEY and
answers what waited. The
model's readings and choices: log entries 26, 56. -/
def Obligations.DomainsAndValley : Prop :=
  ∀ (s : State) (d : Fin 41), 4 ≤ d.val →
    (s.domainsMove = true → s.domStep d = 4 → (∀ k ∈ switchable, k ≠ d.val → s.domStep k = 0) → s.staged = [] →
      ∃ t, exec (.domainDrain d) s = .next t ∧ t.domainOn d = false ∧ t.domStep d = 0) ∧
    (s.domainsMove = true → s.domStep d = 3 → s.awaitsNothing d = false → s.staged = [] → (∃ k ∈ switchable, s.domStep k = 2) →
      ∃ t, exec (.drainTimeout d) s = .next t ∧ t.domStep d = 4 ∧ t.is F.PWR_ERR_DOMTMO = true ∧
        ∀ n ∈ domainNis d, (t.ni n).trackers = []) ∧
    (s.domainsMove = true → s.power.waiting = false → s.domainWanted d = true → s.domainOn d = false →
      (∀ k ∈ switchable, s.domStep k = 0) → ∀ checks, ∃ t, exec (.domainOn d checks) s = .next t ∧ t.domainOn d = true ∧
        ∀ n ∈ domainNis d, (t.ni n).causes.off = false ∧ (t.ni n).causes.closing = false) ∧
    (s.mode.ov.valley = true → s.mode.ov.safeHold = false → s.mode.ov.freeze = false → s.staged = [] →
      (s.get F.PWR_VALLEY_STATE = 1 → s.inProgress = 0 → s.is F.PWR_OPSTAT_BUSY = false → (∀ k ∈ valleyDomains, s.domStep k = 4) →
        s.get F.PWR_VALLEY_SRC = 0 → ∃ t, exec .valleyEntry s = .next t ∧ t.get F.PWR_VALLEY_STATE = 2 ∧ t.mode.busy = false ∧
          t.domainOn 1 = false ∧ t.domainOn 2 = false ∧ (s.domainOn 1 = true → ∀ f : Fin 24, t.is (gvalidBit f) = false)) ∧
      (s.get F.PWR_VALLEY_SRC = 0 → s.get F.PWR_VALLEY_STATE = 2 →
        (s.is F.PWR_VALLEY_WNEN = true → ∃ t, exec .wakeN s = .next t ∧ t.get F.PWR_VALLEY_SRC = 1 ∧ t.get F.PWR_VALLEY_STATE = 3) ∧
        (s.is F.PWR_VALLEY_L1EN = true → ∃ t, exec .l1Exit s = .next t ∧ t.get F.PWR_VALLEY_SRC = 2 ∧ t.get F.PWR_VALLEY_STATE = 3)) ∧
      (s.get F.PWR_VALLEY_STATE = 3 → ∃ t : State, exec .wakeComplete s = .next t.answerLate ∧
        t.mode.ov.valley = false ∧
        t.get F.PWR_VALLEY_STATE = 0 ∧ t.domainOn 1 = true ∧ t.domainOn 2 = true))

/-- R178, R179: STOREEN checks the store; it is not withdrawn under a load or a build; GOLDBUILD is refused while a load runs
or the store is not good; a build whose frames hold no error marks in GVALID every configured field, and the device section, whose
frames were all written to its active slot, and marks no other. The model's readings and choices: log entries 52, 82. -/
def Obligations.StoreAndGoldenBuild : Prop :=
  ∀ s : State,
    (∃ t, exec (.storeen true) s = .next t ∧ t.is F.CFG_CTL_STOREEN = true ∧ t.is F.CFG_STATUS_STOREOK = s.storeOk ∧
      State.SameStores s t) ∧
    (s.storeLoad = false → s.is F.CFG_STATUS_GBUSY = false → ∃ t, exec (.storeen false) s = .next t ∧
      t.is F.CFG_CTL_STOREEN = false ∧ t.is F.CFG_STATUS_STOREOK = false ∧ State.SameStores s t) ∧
    (s.storeLoad = true ∨ s.is F.CFG_STATUS_GBUSY = true → exec (.storeen false) s = .next s) ∧
    (s.cfg.load = none → s.is F.CFG_STATUS_STOREOK = true → exec .goldbuild s = .next (s.raise F.CFG_STATUS_GBUSY)) ∧
    (s.cfg.load.isSome = true ∨ s.is F.CFG_STATUS_STOREOK = false → exec .goldbuild s = .next s) ∧
    (s.is F.CFG_STATUS_GBUSY = true → s.mode.ov.valley = false → s.mode.ov.safeHold = false → s.mode.ov.freeze = false →
      ∀ checks, let b := (s.clear F.CFG_STATUS_GBUSY).buildAll [] checks
        let asked (c : Nat) : Prop := (c < 24 ∧ s.configured c = true) ∨ (c = 31 ∧ s.anyConfigured = true)
        ∃ t, exec (.goldbuildDone [] checks) s = .next t ∧ t.is F.CFG_STATUS_GBUSY = false ∧ t.images = s.images ∧ t.mode = s.mode ∧
          t.drams = b.state.drams ∧ (∀ c, asked c → b.unmarked.contains c = false → t.is (gvalidBit c) = true) ∧
          (∀ c, (c < 24 ∨ c = 31) → (¬ asked c ∨ b.unmarked.contains c = true) → t.is (gvalidBit c) = s.is (gvalidBit c))) ∧
    (s.is F.CFG_STATUS_GBUSY = false → ∀ errs checks, exec (.goldbuildDone errs checks) s = .next s)

/-- Table 8-5, R180 to R183: a load without a word for 1 s, one that is aborted before it is written, and one that fails a
check of verify end: no load, the result in CFG.ERR, LOADFAIL, and the mode before LOADING, from STAGED on to LOCKING where AUTORUN is 1; an ABORT in the
write phase comes too late; slot 1 of the flash follows slot 0 in mode FLASH. The model's readings and choices: log entries 50, 51, 81. -/
def Obligations.LoadsEndInError : Prop :=
  ∀ (s : State) (l : LoadSt), s.cfg.load = some l →
    let ends (c : Instr) (code : Nat) : Prop := ∃ t, exec c s = .next t ∧ t.cfg.load = none ∧ t.get F.CFG_ERR_CODE = code ∧
      t.is F.GLB_ERR_LOADFAIL = true ∧ t.mode.base = (if s.mode.base = .loading then
        (if s.mode.before = .staged ∧ s.is F.GLB_LOCKCFG_AUTORUN = true then .locking else s.mode.before) else s.mode.base) ∧
      t.mode.ov = s.mode.ov ∧ (l.direct = false → t.images = s.images ∧ t.cells = s.cells ∧ t.bmem = s.bmem)
    (l.phase = .ingest → ends .loadSourceTimeout 0xB) ∧
    (l.phase = .ingest ∨ l.phase = .verify → ends .abort 0xA) ∧
    (l.phase = .write → exec .abort s = .next (s.raise F.CFG_ERR_ABORTLATE)) ∧
    (l.phase = .verify → ∀ i, l.info = some i →
      (i.enc = true → l.tagGood i = false → ends .verify 5) ∧
      ((i.enc = true → l.tagGood i = true) → l.sigGood i = false → ends .verify 3) ∧
      ((i.enc = true → l.tagGood i = true) → l.sigGood i = true → s.noOwner = false → s.ownerSlot l.keyDigest = none → ends .verify 4) ∧
      (∀ e, (s.noteOwner l.keyDigest).verifyFails l i = some e → ends .verify e.code)) ∧
    (l.pair = none → l.phase = .ingest →
      (s.straps.mode ≠ 1 ∨ s.is F.CFG_STATUS_FLASHSLOT = true → ends (.flashLoad none) 0xB) ∧
      (s.straps.mode = 1 → s.is F.CFG_STATUS_FLASHSLOT = false → ∃ t, exec (.flashLoad none) s = .next t ∧
        t.cfg.load = some { LoadSt.start none true with flash := .start true } ∧ t.is F.CFG_STATUS_FLASHSLOT = true ∧
        t.get F.CFG_ERR_CODE = 0xB ∧ ∀ f < 24, t.configured f = false))

/-- R180 to R188: the first words of an image start a load and complete their descriptor; an accepted full image of the store
goes to the write phase and a partial one starts RESHAPE; the write phase places the images; a field that has drained lets a
reshape go on; an image of flash, or a direct one, leads to STAGED at once; a store read that fails in the write phase leads
to FREEZE, and words without the magic value end a load in FORMAT. The model's readings and choices: log entries 50, 51, 81, 82. -/
def Obligations.LoadsSucceed : Prop :=
  ∀ s : State,
    (∀ (q : Fin 32) (slot : Nat) (d : DescSt) (checks : List LineCheck), DescReady s q slot 5 d → s.cfg.load = none →
      d.len < 128 → let magic := 0x50434647
      ((∀ w, d.gathered.head? = some w → bitsOf 16 32 w.toNat = magic) → ∃ t, exec (.cfgload q slot checks) s = .next t ∧
        DescEnds s t q slot d d.status 0 ∧ t.get F.CFG_WORDS_COUNT = d.len ∧
        t.cfg.load = some { LoadSt.start (some q.val) false with got := d.gathered, last := some d.slot }) ∧
      (∀ w, d.gathered.head? = some w → bitsOf 16 32 w.toNat ≠ magic → ∃ t, exec (.cfgload q slot checks) s = .next t ∧
        t.cfg.load = none ∧ t.get F.CFG_ERR_CODE = 1 ∧ t.is F.GLB_ERR_LOADFAIL = true)) ∧
    (∀ (l : LoadSt) (i : ImageInfo), s.cfg.load = some l → l.info = some i →
      (l.phase = .verify → (s.noteOwner l.keyDigest).verifyFails l i = none →
        (i.full = true → l.direct = false → ∃ t, exec .verify s = .next t ∧ t.mode = s.mode ∧ t.images = s.images ∧
          t.cfg.load = some { l with phase := .write }) ∧
        (i.full = false → ∃ t, exec .verify s = .next t ∧ t.mode.ov.reshape = true ∧ t.mode.base = s.mode.base ∧
          t.images = s.images ∧ t.get F.CFG_RESHAPE_MAP = i.fieldMap.toNat ∧ ∃ m, t.cfg.load = some m ∧ m.phase = .waitStop)) ∧
      (l.phase = .write → s.mode.ov.halt = true → ∀ checks, exec (.writePhase checks) s = .next s) ∧
      (l.phase = .write → s.mode.ov.halt = false → ∀ checks, let r := s.readSlots l checks
        let d := r.1.getSlot 31 (s.spareSlot 31) 0 l.device.length checks
        (∀ xs ws, r.2 = some xs → d.2 = some ws → i.full = true → s.is F.GLB_LOCKCFG_AUTORUN = false →
          ∃ t, exec (.writePhase checks) s = .next t ∧ t.mode.base = .staged ∧ t.cfg.load = none ∧ t.get F.CFG_ERR_CODE = 0 ∧
            (∀ f < 24, t.image f = (xs.find? fun e => e.1 == f).map (·.2)) ∧
            (∀ e ∈ xs, e.1 < 24 → l.direct = false → t.is (gvalidBit e.1) = true)) ∧
        (∀ xs ws, r.2 = some xs → d.2 = some ws → i.full = false → ∃ t, exec (.writePhase checks) s = .next t ∧ t.mode = s.mode ∧
          (∃ m, t.cfg.load = some m ∧ m.phase = .sweep ∧ m.dirty = false ∧ m.sections = xs) ∧
          (∀ f, (∀ e ∈ xs, e.1 ≠ f) → t.image f = s.image f) ∧
          (∀ e ∈ xs, t.image e.1 = (xs.find? fun x => x.1 == e.1).map (·.2))) ∧
        ((r.2 = none ∨ d.2 = none) → s.mode.ov.safeHold = false → ∃ t, exec (.writePhase checks) s = .next t ∧
          t.mode.ov.freeze = true)) ∧
      (l.phase = .draining → s.mode.ov.halt = false → ∀ f : FieldNo, l.stopped.any (fun e => e.1 == f.val) = true →
        l.drained.contains f.val = false → s.servedAll (4 + f.val) = true → s.staged = [] → ∃ t m, exec (.reshapeWrite f) s = .next t ∧
          t.fld f = { s.fld f with drained := true } ∧ (∀ g ≠ f.val, t.fld g = s.fld g) ∧ t.regs = s.regs ∧ t.cfg.load = some m ∧
          m.drained = l.drained ++ [f.val] ∧ (m.phase = .write ↔ ∀ e ∈ l.sections, e.1 ∈ l.drained ++ [f.val]))) ∧
    (∀ (l : LoadSt) (i : ImageInfo) (ws : List Word), s.cfg.load = some l → l.pair = none → l.phase = .ingest →
      let r := s.ingest l (if 128 ≤ ws.length then ws.take (max 128 (headerInfo ws).length) else ws) []
      r.fail = none → r.load.info = some i → r.load.complete = true → r.load.direct = true → i.full = true →
      (r.state.noteOwner r.load.keyDigest).verifyFails r.load i = none →
      ∃ t, exec (.flashLoad (some ws)) s = .next t ∧ t.cfg.load = none ∧ t.get F.CFG_ERR_CODE = 0 ∧
        (t.mode.base = .staged ∨ t.mode.base = .locking))

/-- R191 to R197: a frame without an error changes nothing but SWEEP's maximum; one with at most 2 errors in each interleave is counted, noted in LAST and queued
for repair; a repair takes the oldest frame; one that needs a golden copy counts it, and without it the frame is
uncorrectable: its field is STUCK and marked in UNCFG, or FREEZE; the golden scan goes frame by frame and queues a frame that
differs under a clean code. The model's readings and choices: log entries 8, 53, 82. -/
def Obligations.SensingAndRepair : Prop :=
  ∀ s : State,
    (∀ (code : Fin 32) (frame : Fin 3584) errs ns cyc, s.senses code = false ∨ framesOf code ≤ frame.val →
      exec (.sense code frame errs ns cyc) s = .next s) ∧
    (∀ (code : Fin 32) (frame : Fin 3584) (errs : FrameErrors) ns cyc, s.senses code = true → frame.val < framesOf code →
      ((∀ i < 6, errs.ilv i = 0) → exec (.sense code frame errs ns cyc) s = .next (s.peak F.SCR_SWEEP_MAXNS ns)) ∧
      ((∀ i < 6, errs.ilv i ≤ 2) → (∃ i < 6, errs.ilv i ≠ 0) → (∀ r ∈ s.cfg.repairs, r.field ≠ code.val ∨ r.frame ≠ frame.val) →
        s.cfg.repairs.length < 16 → ∃ t ilv, exec (.sense code frame errs ns cyc) s = .next t ∧
          (∀ i < 6, ilv.getLsbD i = decide (errs.ilv i ≠ 0)) ∧ t.cfg.repairs = s.cfg.repairs ++ [⟨code, frame, ilv, false, false⟩] ∧
          t.get F.SCR_CNT_CORR = satAdd F.SCR_CNT_CORR.w (s.get F.SCR_CNT_CORR) 1 ∧ t.get F.SCR_LAST_KIND = 1 ∧
          t.get F.SCR_LAST_FIELD = code ∧ t.get F.SCR_LAST_FRAME = frame ∧ t.images = s.images)) ∧
    (∀ r rest, s.repairs = true → s.cfg.repairs = r :: rest → r.esc = false → ∀ checks,
      let u : State := { s with cfg := { s.cfg with repairs := rest } }
      let g := if s.is F.SCR_CTL_GOLDEN && s.goldenHas r.field then u.goldenFrame r.field r.frame checks else (u, none)
      (r.golden = false → exec (.repair checks []) s = .next u) ∧
      (∀ ws, r.golden = true → g.2 = some ws → ∃ t, exec (.repair checks []) s = .next t ∧
        t.images = (g.1.setFrame r.field r.frame ws).images ∧ t.cfg = u.cfg ∧
        t.get F.SCR_CNT_GOLD = satAdd F.SCR_CNT_GOLD.w (s.get F.SCR_CNT_GOLD) 1) ∧
      (r.golden = true → g.2 = none → r.field < 24 → s.is F.SCR_CTL_UNCPOL = false → ∃ t, exec (.repair checks []) s = .next t ∧
        (t.fld r.field).phase = .stuck ∧ t.is ⟨R.SCR_UNCFG, r.field, 1⟩ = true ∧
        t.get F.SCR_CNT_UNC = satAdd F.SCR_CNT_UNC.w (s.get F.SCR_CNT_UNC) 1) ∧
      (r.golden = true → g.2 = none → s.is F.SCR_CTL_UNCPOL = true → s.mode.ov.safeHold = false →
        ∃ t, exec (.repair checks []) s = .next t ∧ t.mode.ov.freeze = true)) ∧
    (∀ p, s.repairs = true → s.is F.SCR_CTL_SCANEN = true → s.scanNext = some p → ∀ errs checks cyc,
      let u : State := { s with cfg := { s.cfg with scanAt := p + 1 } }
      let g := u.goldenFrame (p / 4096) (p % 4096) checks
      let r := g.1.frameCheck errs
      let differs := ∃ ws, g.2 = some ws ∧ r.1 = .clean ∧ ws ≠ errs.on (s.frameWords (p / 4096) (p % 4096))
      (s.senses (p / 4096) = false → exec (.goldenScan errs checks cyc) s = .next u) ∧
      (s.senses (p / 4096) = true → ¬ differs → exec (.goldenScan errs checks cyc) s = .next r.2.2 ∧ State.EngineWork u r.2.2) ∧
      (s.senses (p / 4096) = true → differs → s.cfg.repairs.length < 16 →
        (∀ r ∈ s.cfg.repairs, r.field ≠ p / 4096 ∨ r.frame ≠ p % 4096) → ∃ t, exec (.goldenScan errs checks cyc) s = .next t ∧
          t.cfg.repairs = s.cfg.repairs ++ [⟨p / 4096, p % 4096, 0, true, false⟩] ∧ t.is F.SCR_LAST_ESC = true ∧
          t.get F.SCR_CNT2_ESCAPE = satAdd F.SCR_CNT2_ESCAPE.w (s.get F.SCR_CNT2_ESCAPE) 1))

/-- R198, R203, R206 to R209: an output without a waiting carriage, or that has sent in this cycle, sends nothing; the winner's
carriage goes over a clean link into the input VC of the next router with HIDX advanced, or through LOCAL to the NI; at a port that is
not OPEN a request of which nothing has passed becomes a bounce, and a response passes only a port that is CLOSED. The model's
readings and choices: log entries 43, 78. -/
def Obligations.CarriageHops : Prop :=
  ∀ (s : State) (n : NodeNo) (out : Fin 5) (cyc : Nat) (link : LinkOutcome),
    (s.domainOn 2 = false ∨ cyc < SMap.get (s.router n).sent 0 out.val → exec (.carriageHop n out cyc link) s = .next s) ∧
    (s.domainOn 2 = true → SMap.get (s.router n).sent 0 out.val ≤ cyc →
      ({ s with spineNow := max s.spineNow cyc } : State).winner n out cyc = none →
      exec (.carriageHop n out cyc link) s = .next { s with spineNow := max s.spineNow cyc }) ∧
    ∀ (k : Nat) (x : Slot), s.domainOn 2 = true → SMap.get (s.router n).sent 0 out.val ≤ cyc →
      ({ s with spineNow := max s.spineNow cyc } : State).winner n out cyc = some (.vc k, x) → (s.router n).fast = [] →
      (s.router n).fate x.c = none → (s.router n).begunAt out x.c = none → x.c.isBcast = false → x.c.wants = some out.val →
      x.c.guar = false →
      (out.val < 4 → (s.portState n out = .opened ∨ (s.portState n out = .closed ∧ x.c.rsp = true)) →
        let m := neighbour n out; let key := 4 * ((out.val + 2) % 4) + x.c.nextVc n out
        let old := SMap.get (s.router m).bufs [] key
        ∃ t, exec (.carriageHop n out cyc .clean) s = .next t ∧ SMap.get (t.router m).bufs [] key = old ++
          [⟨{ x.c with hidx := x.c.hidx + 1, vc := x.c.nextVc n out }, if old.isEmpty then some (cyc + 1) else none, []⟩]) ∧
      (out.val = 4 → ∃ t, exec (.carriageHop n out cyc link) s = .next t ∧
        (t.ni n).inReq = (if x.c.rsp then (s.ni n).inReq else joinPacket (s.ni n).inReq x.c) ∧
        (t.ni n).inRsp = (if x.c.rsp then joinPacket (s.ni n).inRsp x.c else (s.ni n).inRsp)) ∧
      (out.val < 4 → s.portState n out ≠ .opened → x.c.rsp = false → ∃ t, exec (.carriageHop n out cyc link) s = .next t ∧
        (t.router n).made = (s.router n).made ++ [⟨bounceOf x.c stRouteClosed, some cyc, []⟩])

/-- R137, R201, R222, R233, R237, R241, R261, R272: a request that stands first at an NI reaches the NI's target: a read,
write or atomic of a field's memory waits in the memory's queue of spine requests; a fence is acknowledged when every
accepted write is performed; a TRIGGER and the record of an EVENT reach NI 93's matrix and the Pass; a BCAST is delivered or
counted as refused; a CFG read answers with the register; a request an NI does not serve is bounced; a row whose kind is not
that of the packet does nothing. The model's readings and choices: log entries 40, 41, 42. -/
def Obligations.RequestsAtTargets : Prop :=
  ∀ (s : State) (n : NodeNo) (pkt : List Carriage) (c : Carriage), Asks s n pkt c → let d := s.dropRequest n pkt
    let waits (i : Instr) : Prop := n.val < 72 → s.niProtected n = false → c.addr.toNat < 2 ^ 21 →
      let j := bitsOf 11 8 c.addr.toNat
      s.bmRefusal (n.val / 3) j (bitsOf 19 2 c.addr.toNat) c (enabledWords pkt).length = none → bitsOf 19 2 c.addr.toNat = 0 →
      ∃ t, exec i s = .next t ∧ t.regs = s.regs ∧ t.bmem = s.bmem ∧
        (t.queue (memKey (n.val / 3) j)).jobs =
          (s.queue (memKey (n.val / 3) j)).jobs ++ [⟨n.val, pkt, .data, enabledWords pkt, [], false, false⟩] ∧
        (∀ k, k ≠ memKey (n.val / 3) j → t.queue k = s.queue k)
    (c.typ = tRdLine → waits (.rdLine n)) ∧ (c.typ = tRdWords → waits (.rdWords n)) ∧ (c.typ = tWrLine → waits (.wrLine n)) ∧
    (c.typ = tWrWords → waits (.wrWords n)) ∧ (c.typ = tAtomic → isCas c = false → waits (.atomic n)) ∧
    (c.typ = tAtomic → isCas c = true → waits (.cas n)) ∧
    (c.typ ≠ tRdLine → exec (.rdLine n) s = .next s) ∧ (c.typ ≠ tWrWords → exec (.wrWords n) s = .next s) ∧
    (c.typ = tFence → n.val < 72 → s.niProtected n = false →
      ((s.ni n).accepted = 0 → exec (.fenceReq n) s = .next (d.replyOne n c tFenceAck stOk [])) ∧
      ((s.ni n).accepted ≠ 0 → exec (.fenceReq n) s = .next s)) ∧
    (n.val = 93 → c.typ = tTrigger → c.mask = 3 → (c.word 1).toNat < 128 → exec (.trigger n) s =
      .next ((d.edgeAt (26 + (c.word 1).toNat % 64) (bitOf 6 (c.word 1).toNat) d.now).matrixSend)) ∧
    (n.val = 93 → c.typ = tEvent → c.mask = 3 → exec (.event n) s = .next (d.passTake
      { EvRec.ofWords (c.word 0) (c.word 1) with src := BitVec.ofNat 7 c.src, dev := BitVec.ofNat 8 c.dev })) ∧
    (n.val < 72 → s.niProtected n = false → c.typ = tBcast →
      (s.is (F.NI_CTL_BCACC n) = true → s.niState n = .opened → (s.ni n).rxFill true + pkt.length ≤ 16 → ∃ t,
        exec (.bcast n) s = .next t ∧ (t.ni n).rx = (s.ni n).rx ++ [⟨true, pkt.length, summaryWord c, itemWords pkt false⟩]) ∧
      (s.is (F.NI_CTL_BCACC n) = false → exec (.bcast n) s = .next (d.bump (F.NI_CNT_BCREF n) 1))) ∧
    (n.val = 92 → c.typ = tCfg → c.cfgWrites = false → c.ctx ≤ 1 → (c.word 0).toNat % 4 = 0 →
      let r := d.busRead .steward ((c.word 0).toNat % 2 ^ 24)
      exec (.cfg n) s = .next (r.1.reply n c
        [{ replyTo c tRdResp stOk 1 (BitVec.ofNat 48 r.2 :: List.replicate 15 0) with len := 0, cidx := 0 }]))

/-- R201, R241: a request that breaks Table 9-5 is bounced DENIED by whichever row comes, and one that its NI does not serve
is bounced with the status of the NI's cause; a broadcast not served is counted. The model's readings and choices: log
entries 40, 41, 71, 72. -/
def Obligations.RequestsTurnedAway : Prop :=
  ∀ (s : State) (n : NodeNo) (pkt : List Carriage) (c : Carriage), s.domainOn 2 = true → firstWhole (s.ni n).inReq = some pkt →
    pkt.headD Carriage.zero = c → let d := s.dropRequest n pkt
    (badRequest c = true → ∀ i ∈ [Instr.rdLine n, .rdWords n, .wrLine n, .wrWords n, .atomic n, .cas n, .fenceReq n, .event n,
      .trigger n, .bcast n, .cfg n], exec i s = .next (d.bounceBack n pkt stDenied)) ∧
    (badRequest c = false → s.niServes n c = false →
      (c.typ = tRdLine → exec (.rdLine n) s = .next (d.bounceBack n pkt (s.niRefusal n))) ∧
      (c.typ = tWrLine → exec (.wrLine n) s = .next (d.bounceBack n pkt (s.niRefusal n))) ∧
      (c.typ = tBcast → exec (.bcast n) s = .next (d.bump (F.NI_CNT_BCREF n) 1)))

/-- R219, R223, R230 to R232: a response or bounce that matches an outstanding request of the fabric becomes an item of the
receive port and frees the tracker; one that matches nothing is an orphan; a bounce that may be retried goes out again on
ALT, its tracker kept; a request timeout frees the tracker with a local TIMEOUT. The model's readings and choices: log
entries 38, 39. -/
def Obligations.ResponsesAndBounces : Prop :=
  ∀ (s : State) (n : NodeNo) (pkt : List Carriage) (c : Carriage), n.val < 72 → s.is (F.FLD_SNAPSTAT_DRAIN (n.val / 3)) = false →
    s.discards n = false → let item (u : Tracker) : RxItem := ⟨false, u.room, summaryWord c, itemWords pkt false⟩
    (∀ typ i, (typ, i) ∈ [(tRdResp, Instr.rdResp n), (tWrAck, .wrAck n), (tAtomicResp, .atomicResp n), (tFenceAck, .fenceAck n)] →
      Answers s n pkt c typ →
      (∀ u, s.trackerOf n c = some u → u.use = .fabric → u.stale = false →
        ∃ t, exec i s = .next t ∧ Delivered s t n c.seq (item u)) ∧
      (s.trackerOf n c = none → pkt = [c] → ∃ t, exec i s = .next t ∧ (t.ni n).trackers = (s.ni n).trackers ∧
        (t.ni n).rx = (s.ni n).rx ∧ t.get (F.NI_CNT_ORPH n) = satAdd (F.NI_CNT_ORPH n).w (s.get (F.NI_CNT_ORPH n)) 1)) ∧
    (Answers s n pkt c tBounce → expectsResponse c.otype = true → ∀ u, s.trackerOf n c = some u →
      (s.mayRetry n u c = false → u.use = .fabric → u.stale = false → (u.head.ord = true → (s.ni n).broken.contains u.entry = true) →
        ∃ t, exec (.bounce n) s = .next t ∧ Delivered s t n c.seq (item u)) ∧
      (s.mayRetry n u c = true → ∃ t, exec (.bounce n) s = .next t ∧ (t.ni n).rx = (s.ni n).rx ∧
        t.get (F.NI_CNT2_RETRY n) = satAdd (F.NI_CNT2_RETRY n).w (s.get (F.NI_CNT2_RETRY n)) 1 ∧
        ∃ v ∈ (t.ni n).trackers, v.head.seq = c.seq ∧ v.retried = true)) ∧
    (s.domainOn 2 = true → ∀ seq u, (s.ni n).trackers.find? (fun v => v.injected && v.head.seq == seq) = some u → u.use = .fabric →
      u.stale = false → ∃ t, exec (.requestTimeout n seq) s = .next t ∧ t.is (F.NI_STAT_TMO n) = true ∧
        t.get (F.NI_CNT_TMO n) = satAdd (F.NI_CNT_TMO n).w (s.get (F.NI_CNT_TMO n)) 1 ∧
        Delivered s t n seq ⟨false, u.room, summaryWord (localAnswer (responseType u.head.typ u.head.cfgWrites) stTimeout u.head.utag seq
          u.head.addr n), []⟩)

/-- R217 to R219: in an executing cycle each STEP stages what it names from the data word of its cluster's output track, or nothing,
and the receive port presents its next word with TXRDY; SEND takes the staged request, which goes to the address and by the route its
window gives, under the next SEQ, with a tracker where a response is due; a request that no window covers is answered at the receive
port with NO_WINDOW; with TXRDY 0 SEND is ignored; outside executing cycles, of another STEP, and a second time in a cycle the ports
do not act. The model's readings and choices: log entries 39, 68, 78. -/
def Obligations.FabricTransmitPort : Prop :=
  ∀ (s : State) (n : Fin 72) (cyc : Nat),
    let rows := [Instr.txIdle n cyc, .addr n cyc, .head n cyc, .word n cyc, .send n cyc, .drop n cyc]
    let st := (s.fld (n.val / 3)).stamp cyc
    let x := s.ni n
    ((s.executes (n.val / 3) cyc = false ∨ x.portAt = some st) → ∀ r ∈ rows, exec r s = .next s) ∧
    (∀ i, s.image (n.val / 3) = some i → s.executes (n.val / 3) cyc = true → x.portAt ≠ some st →
      let u := s.txTurn n cyc
      let cmd := (u.txWords i n st).1.toNat
      let data := (u.txWords i n st).2
      let stages (r : Instr) (a h : Word) (ws : List (Nat × Word)) : Prop := ∃ t, exec r s = .next t ∧ TxFrame s t n cyc ∧
        (t.ni n).stAddr = a ∧ (t.ni n).stHead = h ∧ (t.ni n).stWords = ws ∧ (t.ni n).trackers = x.trackers ∧ (t.ni n).inj = x.inj ∧
        (x.rx = [] → x.rxNow = none → (t.ni n).rxd = 0 ∧ (t.ni n).rxs = 512 * bit (t.txrdy n)) ∧
        (∀ i k, x.rxNow = some (i, k) → (t.ni n).rxd = (i.words.getD k (0, 0)).2)
      (cmd % 16 = 0 ∨ 6 ≤ cmd % 16 → stages (.txIdle n cyc) x.stAddr x.stHead x.stWords) ∧
      (cmd % 16 = 1 → stages (.addr n cyc) data x.stHead x.stWords) ∧
      (cmd % 16 = 2 → stages (.head n cyc) x.stAddr data x.stWords) ∧
      (cmd % 16 = 3 → let k := cmd / 16 % 64;
        stages (.word n cyc) x.stAddr x.stHead (x.stWords.filter (fun e => e.1 != k) ++ [(k, data)])) ∧
      (cmd % 16 = 5 → stages (.drop n cyc) 0 0 []) ∧
      (cmd % 16 ≠ 1 → exec (.addr n cyc) s = .next s) ∧ (cmd % 16 ≠ 4 → exec (.send n cyc) s = .next s) ∧
      (cmd % 16 = 4 → let q := u.stagedRequest n;
       (u.txReady n q.typ q.len = false → stages (.send n cyc) x.stAddr x.stHead x.stWords) ∧
       (u.txReady n q.typ q.len = true → u.niProtected n = false → isRequestType q.typ = true →
        lenAllowed q.typ q.len = true →
        (∀ w, x.active.match? q.addr.toNat = some w → kindAllowed (x.active.window w 3) q.typ q.ctx = true →
          let e := (u.translate x.active w q.addr.toNat).2
          bitOf 37 (x.active.routeWord e 0) = true → (q.ord = true → x.broken.contains e = false) → ∃ t,
            exec (.send n cyc) s = .next t ∧ (t.ni n).seq = x.seq + 1 ∧ (t.ni n).stAddr = 0 ∧ (t.ni n).stHead = 0 ∧
            (t.ni n).stWords = [] ∧ (expectsResponse q.typ = true → ∃ u' ∈ (t.ni n).trackers, u'.use = .fabric ∧ u'.entry = e ∧
              u'.head.seq = x.seq ∧ u'.head.route = BitVec.ofNat 30 (x.active.routeWord e 0) ∧
              u'.head.addr = BitVec.ofNat 48 (u.translate x.active w q.addr.toNat).1)) ∧
        (x.active.match? q.addr.toNat = none → expectsResponse q.typ = true → x.rx = [] → x.rxNow = none → ∃ t,
          exec (.send n cyc) s = .next t ∧ t.is (F.NI_STAT_NOWIN n) = true ∧ (t.ni n).stWords = [] ∧ (t.ni n).seq = x.seq ∧
          (t.ni n).rxd = summaryWord (localAnswer (responseType q.typ ((lookupD q.words 0 0).getLsbD 24)) stNoWindow q.utag x.seq
            q.addr n)))))

/-- R224 to R228, R236 to R239: a reserved slot sends the guaranteed request of its route entry through LOCAL; a regulated NI
gains tokens up to DEPTH and sends its oldest response when they allow it; a fence that is spoiled answers FENCE_ABORT once;
ORDCLR ends the refusal of broken streams; TDATA writes the selected word of the inactive bank alone. The model's readings
and choices: log entries 37, 38. -/
def Obligations.NiInjectionAndTables : Prop :=
  ∀ (s : State) (n : NodeNo), let x := s.ni n
    exec (.ordclr n) s = .next { s with nis := SMap.set s.nis NiSt.zero n { x with broken := [] } } ∧
    (∀ v, (s.tableSel n).2.2 = true → s.domainOn 2 = true → ∃ t, exec (.tdataWrite n v) s = .next t ∧
      (t.ni n).inactive.read (s.tableSel n).1 (s.tableSel n).2.1 = v ∧ (t.ni n).active = x.active ∧ (t.ni n).written = true ∧
      (∀ m : Nat, m ≠ n.val → t.ni m = s.ni m) ∧ State.SameStores { s with nis := t.nis } t) ∧
    (∀ v, (s.tableSel n).2.2 = false ∨ s.domainOn 2 = false → exec (.tdataWrite n v) s = .next s) ∧
    (∀ (k : Fin 120) cyc last, s.domainOn 2 = false → exec (.slot n k cyc last) s = .next s) ∧
    (∀ (k : Fin 120) cyc last, s.domainOn 2 = true → let w := x.active.slotWord k
      let s' := s.setNi n { x with lastSlots := last && decide (110 ≤ k.val) }
      (bitOf 0 w = false ∨ s'.silent n = true → exec (.slot n k cyc last) s = .next s') ∧
      ∀ p, bitOf 0 w = true → s'.silent n = false → bitOf 1 w = false →
        x.ready.find? (fun p => (p.pkt.headD Carriage.zero).guar && p.entry == w / 4 % 256) = some p →
        let c := p.pkt.headD Carriage.zero
        c.rsp = false → ∃ t, exec (.slot n k cyc last) s = .next t ∧ t.spineNow = max s.spineNow cyc ∧
          (t.router n).fast = (s.router n).fast ++
            [(4, ⟨{ c with guar := true, vc := 0, tick := p.frame.getD s.time.tick % 4096 }, some cyc, []⟩)] ∧
          (t.ni n).inj = InjPkt.advance x.inj p) ∧
    (∀ el, isRegulated n = false ∨ s.domainOn 2 = false → exec (.regulatedInject n el) s = .next s) ∧
    (∀ el, isRegulated n = true → s.domainOn 2 = true →
      let tok := min (1920 * (s.niDepth n : Int)) (x.tokens + ((s.niRate n * el : Nat) : Int))
      (x.nextPacket = none → exec (.regulatedInject n el) s =
        .next (({ s with nis := SMap.set s.nis NiSt.zero n { x with tokens := tok } } : State).goOn n)) ∧
      (∀ p rest, x.replies = p :: rest → (p.pkt.headD Carriage.zero).rsp = true → ((1920 * p.pkt.length : Nat) : Int) ≤ tok →
        p.pkt.length ≤ (s.router n).room 4 2 → ∃ t, exec (.regulatedInject n el) s = .next t ∧
          (t.ni n).tokens = tok - ((1920 * p.pkt.length : Nat) : Int) ∧ (t.ni n).replies = rest)) ∧
    (x.fenced = none → exec (.fenceRelease n) s = .next s) ∧
    (∀ p, s.domainOn 2 = true → x.fenced = some p → x.badWrite = false → exec (.fenceRelease n) s =
      .next ((s.setNi n { x with inj := x.inj.map fun q => if q = p then { q with cleared := true } else q }).goOn n)) ∧
    (∀ p u, s.domainOn 2 = true → n.val < 72 → s.is (F.FLD_SNAPSTAT_DRAIN (n.val / 3)) = false → x.fenced = some p →
      x.badWrite = true → x.trackers.find? (fun t => t.head.seq == (p.pkt.headD Carriage.zero).seq) = some u → u.use = .fabric →
      u.stale = false → s.discards n = false → ∃ t, exec (.fenceRelease n) s = .next t ∧ (t.ni n).badWrite = false ∧ t.is (F.NI_STAT_FABORT n) = true ∧
        let c := p.pkt.headD Carriage.zero
        Delivered s t n c.seq ⟨false, u.room, summaryWord (localAnswer (responseType c.typ c.cfgWrites) stFenceAbort c.utag c.seq c.addr n), []⟩)

/-- R243 to R247: the anchor moves to RAW when RAW is 2^47 counts past it, corrected time unchanged; INCR is refused outside
FREE mode and outside its range and otherwise continues from the present time; STEP moves OFFSET; a wrap raises NOWX by one.
The model's readings and choices: log entries 3, 9. -/
def Obligations.TimeSteering : Prop :=
  ∀ s : State, s.time.anchor < 2 ^ 48 → s.time.raw < 2 ^ 48 → let m := s.time
    (m.running = false → exec .anchorRebase s = .next s ∧ exec .timeWrap s = .next s) ∧
    (m.running = true → s.timeDelta ≤ 2 ^ 47 → ∃ t, exec .anchorRebase s = .next t ∧ t.time.raw = (m.anchor + 2 ^ 47) % 2 ^ 48 ∧
      t.time.anchor = t.time.raw ∧ t.time.offset = (m.offset + s.incr * 2 ^ 47 / 2 ^ 24) % 2 ^ 48 ∧ t.time.tick = m.tick) ∧
    (m.running = true → 0x00FFBE76C8B4 ≤ s.incr → ∃ t, exec .timeWrap s = .next t ∧ t.time.nowx = (m.nowx + 1) % 2 ^ 32 ∧
      t.correctedNat ≤ s.incr / 2 ^ 24 ∧ t.time.tick = m.tick ∧ t.cells = s.cells) ∧
    (∀ v : Word, s.timeMode < 2 → exec (.incrWrite v) s = .next (s.raise F.TIME_ERR_SYNCW)) ∧
    (∀ v : Word, s.timeMode = 2 →
      (0x00FFBE76C8B4 ≤ v.toNat → v.toNat ≤ 0x01004189374C → ∃ t, exec (.incrWrite v) s = .next t ∧ t.incr = v.toNat ∧
        t.time = { m with anchor := m.raw, offset := s.correctedNat } ∧ State.SameStores { s with time := t.time } t) ∧
      (v.toNat < 0x00FFBE76C8B4 ∨ 0x01004189374C < v.toNat → exec (.incrWrite v) s = .next (s.raise F.TIME_ERR_INCRRANGE))) ∧
    (∀ v : Word, (s.timeMode = 2 ∨ s.mode.timeEnabled = false → ∃ t, exec (.stepWrite v) s = .next t ∧
        t.time.offset = wrap 48 ((m.offset : Int) + v.toInt) ∧ t.time.raw = m.raw ∧ t.time.anchor = m.anchor ∧ t.time.tick = m.tick ∧
        State.SameStores { s with time := t.time } t) ∧
      (s.timeMode < 2 → s.mode.timeEnabled = true → exec (.stepWrite v) s = .next (s.raise F.TIME_ERR_SYNCW)))

/-- R250 to R252: in SYNC mode LOCKING counts edges, the first one anew; with time valid in RUN an edge on the grid sets
SYNCOK and PHERR and one beyond 2 ns of it is an outlier and ignored; missing edges clear SYNCOK and set SYNCLOST; other
modes take no edge. The model's readings and choices: log entry 31. -/
def Obligations.SyncMeasurements : Prop :=
  ∀ (s : State) (ball : Word), let m := s.time
    (s.timeMode ≠ 0 → exec (.syncInEdge ball) s = .next s ∧ exec .syncLost s = .next s) ∧
    (s.timeMode = 0 → m.running = true → m.lock = .edges → m.lastEdge = none → exec (.syncInEdge ball) s =
      .next { s with time := { m with good := 1, lastEdge := some ball } }) ∧
    (s.timeMode = 0 → m.running = true → m.lock = .edges → ∀ e, m.lastEdge = some e → m.good = 3 →
      ((ball - e).toInt - (s.syncPeriod : Int)).natAbs ≤ nsUnits 2 → exec (.syncInEdge ball) s =
        .next { s with time := { m with lock := .snap, good := 0, lastEdge := some ball } }) ∧
    (s.timeMode = 0 → m.running = true → m.lock = .none → s.is F.TIME_STATUS_VALID = true → s.mode.base ≠ .holdover →
      (beyond2ns (s.edgeError ball) = false → ∃ t, exec (.syncInEdge ball) s = .next t ∧ t.is F.TIME_STATUS_SYNCOK = true ∧
        t.get F.TIME_PHERR_ERR = wrap 32 (s.edgeError ball) ∧ t.time = { m with missing := 0, outliers := 0 } ∧
        State.SameStores { s with time := t.time } t) ∧
      (beyond2ns (s.edgeError ball) = true → m.outliers + 1 ≠ 16 → exec (.syncInEdge ball) s =
        .next { s.raise F.TIME_ERR_OUTLIER with time := { m with outliers := m.outliers + 1, good := 0 } })) ∧
    (s.timeMode = 0 → m.lock = .none → s.is F.TIME_STATUS_SYNCOK = true → ∃ t, exec .syncLost s = .next t ∧
      t.is F.TIME_STATUS_SYNCOK = false ∧ t.is F.TIME_ERR_SYNCLOST = true ∧ t.time = { m with good := 0 }) ∧
    (s.timeMode = 0 → m.lock = .edges ∨ m.lock = .snap → exec .syncLost s =
      .next { s with time := { m with lock := .edges, good := 0, lastEdge := none } })

/-- R258 to R263: an edge sets its input alone and drives the PULSE outputs that select its edge for their WIDTH; a pulse whose WIDTH
has passed ends, and no other; a transmit stamp joins the queue of every enabled point on its lane, with DLY.TX added; reading TXQID pops the
head, but not by debug. The model's readings and choices: log entries 8, 9, 80. -/
def Obligations.TriggersAndStamps : Prop :=
  ∀ s : State,
    (∀ (i : Fin 26) (level : Bool) (w : Word), s.matrix.waiting = [] →
      (s.matrixOn = false ∨ s.inputLevel i = level → exec (.trigEdge i level w) s = .next s)) ∧
    (∀ (i : Fin 26) (level : Bool) (w : Word), s.matrixOn = true → s.inputLevel i ≠ level → ∃ t, exec (.trigEdge i level w) s = .next t ∧
      t.inputLevel i = level ∧ (∀ j : Nat, j ≠ i.val → t.inputLevel j = s.inputLevel j) ∧
      (∀ o < 104, s.get (F.TRG_OUT_SRC o) = i.val → s.get (F.TRG_OUT_MODE o) = 3 → SMap.get t.matrix.pulses none o =
        some ((s.time.raw + max 1 (s.get (F.TRG_OUT_WIDTH o))) % 2 ^ 48)) ∧
      (∀ o < 104, s.get (F.TRG_OUT_SRC o) ≠ i.val → SMap.get t.matrix.pulses none o = SMap.get s.matrix.pulses none o) ∧
      t.cells = s.cells ∧ t.bmem = s.bmem ∧ t.mode = s.mode ∧ t.time = s.time) ∧
    (∀ o : Fin 104, SMap.get s.matrix.pulses none o.val = none → exec (.pulseEnd o) s = .next s) ∧
    (∀ (o : Fin 104) (e : Nat), SMap.get s.matrix.pulses none o.val = some e → let past := (s.time.raw + 2 ^ 48 - e) % 2 ^ 48
      (2 ^ 47 ≤ past → exec (.pulseEnd o) s = .next s) ∧
      (past < 2 ^ 47 → ∃ t, exec (.pulseEnd o) s = .next t ∧ SMap.get t.matrix.pulses none o.val = none ∧
        (∀ p : Nat, p ≠ o.val → SMap.get t.matrix.pulses none p = SMap.get s.matrix.pulses none p) ∧
        t.matrix.inputs = s.matrix.inputs)) ∧
    (∀ (l : Fin 64) (w : Word), (s.laneSt l).stamp = none → exec (.txStamp l w) s = .next s) ∧
    (∀ (l : Fin 64) (w : Word) (id : Nat), (s.laneSt l).stamp = some id → ∃ t, exec (.txStamp l w) s = .next t ∧
      t.laneSt l = { s.laneSt l with stamp := none } ∧
      (∀ i < 8, s.is (F.TIME_TSP_CTL_EN i) = true → s.get (F.TIME_TSP_CTL_LANE i) = l.val → 16 ≤ l.val →
        (s.tspSt i).queue.length < 16 → t.tspSt i = { s.tspSt i with queue := (s.tspSt i).queue ++
          [⟨w + BitVec.ofNat 48 (256 * s.get (F.TIME_TSP_DLY_TX i)), id, l⟩] }) ∧
      (∀ i < 8, s.is (F.TIME_TSP_CTL_EN i) = false ∨ s.get (F.TIME_TSP_CTL_LANE i) ≠ l.val → t.tspSt i = s.tspSt i)) ∧
    (∀ (i : Fin 8) (p : Path), (s.tspSt i).queue = [] →
      exec (.txqidRead i p) s = .next { s with readOut := (p, 0) }) ∧
    (∀ (i : Fin 8) (p : Path) (e : TxStamp) (l : List TxStamp), (s.tspSt i).queue = e :: l → ∃ t, exec (.txqidRead i p) s = .next t ∧
      t.readOut = (p, BitVec.ofNat 64 (2 ^ 31 + 65536 * (e.lane % 256) + e.id % 65536)) ∧
      t.tspSt i = (if p = .debug then s.tspSt i else ⟨l, e.time⟩) ∧ (∀ j : Nat, j ≠ i.val → t.tspSt j = s.tspSt j))

/-- R265 to R274: a load without an error is appended to its column and one with an error is rejected whole; a head that is
due and on time is taken and its column advances; a column is cleared alone; the frame LAG + 1 ticks back closes and emits
its record. The model's readings and choices: log entries 9, 69. -/
def Obligations.TimetableDispatch : Prop :=
  ∀ s : State,
    (∀ (q : Fin 32) (slot : Nat) (d : DescSt), DescReady s q slot 4 d →
      let c := d.bits 24 0 6; let es := ttEntries d.gathered; let errs := s.ttErrors c (s.get (F.RING_QP_CTL_CTX q)) es true
      (errs = [] → ∃ t, exec (.ttload q slot) s = .next t ∧ (t.column c).entries = (s.column c).entries ++ es ∧
        (∀ k, k ≠ c → t.column k = s.column k) ∧ DescEnds s t q slot d d.status 0) ∧
      (errs ≠ [] → ∃ t, exec (.ttload q slot) s = .next t ∧ t.tt = s.tt ∧ DescEnds s t q slot d stDenied 0 ∧
        (∀ f ∈ errs, t.is f = true) ∧ t.get F.TT_ERR_COL = c)) ∧
    (∀ (c : Fin 64) (e : TtEntry) (l : List TtEntry), (∀ k < 64, k ≠ c.val → (s.column k).entries = []) →
      (s.column c).entries = e :: l → s.ttRuns c = true → s.ttDue e = true → s.ttOnTime e = true → ∃ t, exec .dispatch s = .next t ∧
        t.tt.taken = s.tt.taken ++ [⟨c, e, false⟩] ∧
        t.column c = (if e.periodic then (s.column c).advance e 1 else (s.column c).pop)) ∧
    ((∀ k < 64, ∀ e ∈ (s.column k).entries.head?, s.ttRuns k = false ∨ s.ttDue e = false) → ∃ t, exec .dispatch s = .next t ∧
      t.tt.taken = s.tt.taken ∧ t.tt.cols = s.tt.cols ∧ t.tt.levels = s.tt.levels) ∧
    (∀ c : Fin 64, ∃ t, exec (.colClr c) s = .next t ∧ (t.column c).entries = [] ∧
      (t.column c).head = ((s.column c).head + (s.column c).entries.length) % 512 ∧ (∀ k : Nat, k ≠ c.val → t.column k = s.column k) ∧
      t.regs = s.regs ∧ State.SameStores { s with tt := t.tt } t) ∧
    (s.is F.RING_EVR_CTL_EN = false → s.is F.RING_LGR_CTL_EN = false → s.pass.fwd = [] → s.is F.TIME_PASS_CTL_FWD = false →
      (s.pass.frames.length ≤ 1 → exec .frameClose s = .next s) ∧
      (∀ k w k' w' rest r, s.pass.frames = (k, w) :: (k', w') :: rest → s.passLag ≤ rest.length → s.pass.dropped = 0 →
        s.pass.held = [(r, false)] → signed 48 (r.time - w').toNat < 0 →
        (∀ e ∈ s.pass.last, e.1 ≠ (r.dev.toNat, r.src.toNat)) → ∃ t, exec .frameClose s = .next t ∧
          t.pass.frames = (k', w') :: rest ∧ t.pass.held = [] ∧ t.pass.out = s.pass.out ++ [(r, k)] ∧
          State.SameStores s t ∧ t.regs = s.regs))

/-- Table 11-5, R266, R268, R493: a taken action whose time has come leaves the list and does what its code says: a pulse or
a level of a pin given to the timetable, a word injected through NI 93, a trigger source, a snapshot request, an armed
commit, a wake, an event, a reshape started; without one nothing happens. The model's readings and choices: log entries 9,
69. -/
def Obligations.TimetableActions : Prop :=
  ∀ (s : State) (c : Fin 64), let due (k : Nat) (x : TtTaken) : Prop := s.ttReady c k = some x ∧ x.entry.evt = false
    let rest (x : TtTaken) : State := { s with tt := { s.tt with taken := s.tt.taken.erase x } }
    (s.ttReady c 1 = none → exec (.pulse c) s = .next s) ∧ (s.ttReady c 8 = none → exec (.ttEvent c) s = .next s) ∧
    (∀ x, due 1 x → let pin := x.entry.target % 8
      (s.pinGiven pin = true → exec (.pulse c) s = .next { s with tt := { s.tt with
        taken := s.tt.taken.erase x, pulses := s.tt.pulses ++ [(pin, s.ttWhen x, x.entry.arg.toNat % 2 ^ 24)] } }) ∧
      (s.pinGiven pin = false → exec (.pulse c) s = .next ((rest x).raise F.TT_ERR_NOPIN))) ∧
    (∀ x, due 2 x → let pin := x.entry.target % 8
      let old := SMap.get s.tt.levels PinLevel.zero pin
      s.pinGiven pin = true → ∃ t, exec (.level c) s = .next t ∧ t.tt.taken = s.tt.taken.erase x ∧
        SMap.get t.tt.levels PinLevel.zero pin =
          (if old.time = x.entry.time ∧ x.col < old.col then old else ⟨x.entry.arg.getLsbD 0, x.entry.time, x.col⟩)) ∧
    (s.txReady 93 tWrWords 0 = false → exec (.inject c) s = .next s) ∧
    (∀ x, due 3 x → s.txReady 93 tWrWords 0 = true →
      let a := (s.pair R.TT_INJBASE_LO R.TT_INJBASE_HI + x.entry.target) % 2 ^ 48; let y := (s.ni 93).active
      ∀ w, y.match? a = some w → kindAllowed (y.window w 3) tWrWords (s.get (F.NI_CTL_CTX 93)) = true →
        bitOf 37 (y.routeWord (s.translate y w a).2 0) = true → ∃ t, exec (.inject c) s = .next t ∧
          t.tt.taken = s.tt.taken.erase x ∧ (t.ni 93).seq = (s.ni 93).seq + 1 ∧ ∃ u ∈ (t.ni 93).trackers, u.use = .column x.col ∧
            u.head.addr = BitVec.ofNat 48 (s.translate y w a).1 ∧ u.head.mask = 1 ∧ u.head.word 0 = x.entry.arg) ∧
    (∀ x, due 4 x → s.matrixOn = true → x.entry.arg.toNat % 4 ≤ 1 → ∃ t, exec (.ttTrigger c) s = .next t ∧
      t.tt.taken = s.tt.taken.erase x ∧ t.inputLevel (106 + x.entry.target % 16) = decide (x.entry.arg.toNat % 4 = 1)) ∧
    (∀ x, due 5 x → ∃ t, exec (.ttSnap c) s = .next t ∧ t.tt.taken = s.tt.taken.erase x ∧ t.regs = s.regs ∧
      ∀ f < 24, (t.fld f).snapWait = ((s.fld f).snapWait || (bitOf f (x.entry.arg.toNat % 2 ^ 24) && s.configured f))) ∧
    (∀ x, due 6 x → exec (.ttCommit c) s = .next ((rest x).armTarget x.entry.target)) ∧
    (∀ x, due 7 x → exec (.wake c) s = .next ((rest x).wakeFrom 3)) ∧
    (∀ x, due 8 x → x.col ≠ 62 → exec (.ttEvent c) s =
      .next ((rest x).postAt (s.ttWhen x) 0x021 93 (x.entry.arg.toNat % 256))) ∧
    (∀ x, due 9 x → ∀ l, s.cfg.load = some l → l.phase = .waitStop → exec (.reshapeGo c) s =
      .next { s with tt := { s.tt with taken := s.tt.taken.erase x }, cfg := { s.cfg with load := some { l with fired := true } } })

/-- R291 to R293: a descriptor that is next starts with the first command for it, unless it waits for its fence; one whose
fence finds a failure ends FENCE_ABORT, a malformed one BADDESC, and a privileged one of an unprivileged pair DENIED, each
without its effect. The model's readings and choices: log entry 49. -/
def Obligations.DescriptorsRefused : Prop :=
  ∀ (s : State) (q : Fin 32) (slot : Nat) (d : DescSt) (rest : List DescSt), let x := s.pairSt q
    x.find slot = none → x.fetched = d :: rest → d.slot = slot →
    ∀ p ∈ [(1, Instr.move q slot), (2, .fill q slot), (3, .fence q slot), (4, .ttload q slot), (6, .snap q slot),
      (7, .slotload q slot), (8, .routeload q slot), (9, .keyload q slot), (10, .renew q slot), (11, .atomicDesc q slot),
      (12, .mark q slot)],
    let ends (st : Nat) : Prop := ∃ t, exec p.2 s = .next t ∧ DescEnds s t q slot d st 0 ∧ t.nis = s.nis ∧ t.regs = s.regs ∧
      t.bmem = s.bmem ∧ t.cry = s.cry ∧ t.tt = s.tt
    d.op = p.1 →
      (d.fence = true → x.active ≠ [] → exec p.2 s = .next s.fetchAll) ∧
      (d.fence = true → x.active = [] → x.failed = true → ends stFenceAbort) ∧
      ((d.fence = true → x.active = [] ∧ x.failed = false) → d.bad = true → ends 0x10) ∧
      ((d.fence = true → x.active = [] ∧ x.failed = false) → d.bad = false → d.privileged = true →
        s.is (F.RING_QP_CTL_PRIV q) = false → ends stDenied)

/-- Table 12-7, R168, R227, R292, R295, R375, R381: a descriptor whose words are here acts and completes. SLOTLOAD and
ROUTELOAD fill the inactive tables; KEYLOAD installs the unwrapped key or refuses it; MARK completes with its time; a local
FENCE completes when it is the oldest; SNAP asks for its snapshots and completes when they are drained; RENEW starts a
renewal or is DENIED; an answered ATOMIC completes with the word it brought. The model's readings and choices: log entry 49. -/
def Obligations.DescriptorsComplete : Prop :=
  ∀ (s : State) (q : Fin 32) (slot : Nat) (d : DescSt),
    let n := d.bits 24 0 8
    (DescReady s q slot 7 d → ∃ t, exec (.slotload q slot) s = .next t ∧ DescEnds s t q slot d d.status 0 ∧
      (t.ni n).active = (s.ni n).active ∧ (t.ni n).inactive.win = (s.ni n).inactive.win ∧
      ∀ i < 120, (t.ni n).inactive.read 2 i = d.gathered.getD i 0) ∧
    (DescReady s q slot 8 d → ∃ t, exec (.routeload q slot) s = .next t ∧ DescEnds s t q slot d d.status 0 ∧
      (t.ni n).active = (s.ni n).active ∧ (t.ni n).inactive.slot = (s.ni n).inactive.slot ∧
      (∀ i < 256, (t.ni n).inactive.read 0 i = d.gathered.getD i 0) ∧
      ∀ i < 512, (t.ni n).inactive.read 1 i = d.gathered.getD (256 + i) 0) ∧
    (DescReady s q slot 9 d → s.bist.scanned = true ∨ s.fuses.root = none → ∃ t, exec (.keyload q slot) s = .next t ∧
      DescEnds s t q slot d stDenied 0 ∧ t.is F.CRY_STAT_KEYFAIL = true ∧ t.cry = s.cry) ∧
    (DescReady s q slot 9 d → s.bist.scanned = false → ∀ root, s.fuses.root = some root →
      let bytes := d.gathered.flatMap packWord
      let key := Config.unwrap (Config.wrapKey root s.fuses.unit) (bytes.take 40)
      (bytes.getD 40 0).toNat = n → (bytes.getD 41 0).toNat % 2 = 0 → d.bits 25 0 1 = 0 → s.keyState n ≠ 3 → s.keyState n ≠ 4 →
      ∃ t, exec (.keyload q slot) s = .next t ∧
        (key = none → DescEnds s t q slot d stDenied 0 ∧ t.is F.CRY_STAT_KEYFAIL = true ∧ t.cry = s.cry) ∧
        ∀ k, key = some k → DescEnds s t q slot d d.status 0 ∧ SMap.get t.cry.keys none n = some k ∧
          t.keyState n = (if (bytes.getD 41 0).toNat / 2 % 2 = 1 then 5 else 1)) ∧
    ((s.pairSt q).find slot = some d →
      (d.op = 12 → ∃ t, exec (.mark q slot) s = .next t ∧ DescEnds s t q slot d stOk s.now ∧
        SMap.get t.seqs 0 80 = SMap.get s.seqs 0 80 + 1) ∧
      (d.op = 3 → (s.pairSt q).isOldest slot = true → d.bits 24 0 1 = 0 → d.out = 0 → d.fail = none →
        ∃ t, exec (.fence q slot) s = .next t ∧ DescEnds s t q slot d d.status 0 ∧ t.nis = s.nis) ∧
      (d.op = 6 → d.ready = false → ∃ t, exec (.snap q slot) s = .next t ∧
        (∀ f < 24, bitOf f (d.bits 24 0 24) = true → s.configured f = true → (t.fld f).snapWait = true) ∧
        (∀ f, bitOf f (d.bits 24 0 24) = false ∨ s.configured f = false → t.fld f = s.fld f)) ∧
      (d.op = 6 → d.ready = true →
        (∀ f ∈ s.snapFields d, (s.fld f).snapWait = false ∧ s.is (F.FLD_SNAPSTAT_DRAIN f) = false) → ∃ t,
        exec (.snap q slot) s = .next t ∧
        DescEnds s t q slot d stOk (BitVec.ofNat 48 ((s.snapFields d).foldl (fun m f => max m (s.fld f).snapTick) 0))) ∧
      (d.op = 10 → d.ready = false → let k := d.bits 25 0 8
        ((s.encrypted n = false ∨ s.is F.CRY_RN_ACTIVE = true ∨ s.get (F.MIG_REGION_CTL_KEYID n) = k) → ∃ t,
          exec (.renew q slot) s = .next t ∧ DescEnds s t q slot d stDenied 0 ∧ t.cry = s.cry ∧ t.regs = s.regs) ∧
        (s.encrypted n = true → s.is F.CRY_RN_ACTIVE = false → s.get (F.MIG_REGION_CTL_KEYID n) ≠ k → s.domainOn 40 = true →
          (s.keyState k = 1 ∨ s.keyState k = 2) → ∃ t, exec (.renew q slot) s = .next t ∧ t.is F.CRY_RN_ACTIVE = true ∧
            t.cry = { s.cry with renewFor := some (q.val, slot), renewed := 0, rate := d.bits 26 0 16 })) ∧
      (d.op = 11 → d.rdOff ≠ 0 → d.out = 0 → d.fail = none → d.ready = true → ∃ t, exec (.atomicDesc q slot) s = .next t ∧
        DescEnds s t q slot d d.status d.result))

/-- R281, R282, R291, R292, R294: a transfer issues what it may: the read of its host source once, for the whole range; the
next piece of a spine read, or of a write of FILL's value; the FENCE_REQ of a remote FENCE, and the ATOMIC carriage; a write
of BAR2 that covers one word, and a read of one word when no write is unacknowledged. Each request awaits its answer. While a wake
runs, an access through BAR2 waits (R301). The
model's readings and choices: log entry 49. -/
def Obligations.TransfersIssueRequests : Prop :=
  ∀ (s : State) (w e : Nat),
    (∀ (q : Fin 32) (slot : Nat) (d : DescSt), let n := pairNi q
      (s.pairSt q).find slot = some d → d.fail = none →
      (d.op = 1 → d.srcHost = true → d.rdOff < d.len → d.have_ = [] → ∃ t, exec (.move q slot) s = .next t ∧
        t.hostOut = s.hostOut ++ [.read (BitVec.ofNat 48 d.src) (6 * d.len)] ∧ DescGoes t q slot d d.len d.wrOff d.out) ∧
      (d.op = 1 → d.srcHost = false → d.dstHost = true → d.rdOff < d.len →
        NiAccepts s n (s.readPiece q d (d.src + d.rdOff) (d.len - d.rdOff)) w e → ∃ t, exec (.move q slot) s = .next t ∧
        Issued s t n (s.readPiece q d (d.src + d.rdOff) (d.len - d.rdOff)) w e (.desc q d.slot d.rdOff) ∧
        DescGoes t q slot d (d.rdOff + pieceWords s.granule (d.src + d.rdOff) (d.len - d.rdOff)) d.wrOff (d.out + 1)) ∧
      (d.op = 2 → d.dstHost = false → d.wrOff < d.len → let a := d.dst + d.wrOff; let k := pieceWords s.granule a (d.len - d.wrOff);
        let r := s.writePiece q d a (d.len - d.wrOff) (List.replicate k (BitVec.ofNat 48 (d.bits 24 0 48)));
        NiAccepts s n r w e → ∃ t, exec (.fill q slot) s = .next t ∧ Issued s t n r w e (.desc q d.slot d.wrOff) ∧
          DescGoes t q slot d d.rdOff (d.wrOff + k) (d.out + 1)) ∧
      (d.op = 3 → (s.pairSt q).isOldest slot = true → d.bits 24 0 1 = 1 → d.rdOff = 0 →
        let r := s.descRequest q d tFence 0 d.dst 0 []
        NiAccepts s n r w e → ∃ t, exec (.fence q slot) s = .next t ∧ Issued s t n r w e (.desc q d.slot 0) ∧
          DescGoes t q slot d 1 d.wrOff (d.out + 1)) ∧
      (d.op = 11 → d.rdOff = 0 → let b (i : Nat) : Word := BitVec.ofNat 48 (d.bits i 0 48)
        let r := s.descRequest q d tAtomic 0 d.dst 0 [(0, b 24), (1, b 30), (2, BitVec.ofNat 48 (d.bits 36 0 3))]
        NiAccepts s n r w e → ∃ t, exec (.atomicDesc q slot) s = .next t ∧ Issued s t n r w e (.desc q d.slot 0) ∧
          DescGoes t q slot d 1 d.wrOff (d.out + 1))) ∧
    (∀ off : BitVec 36, s.waking = true → (∀ bytes, exec (.bar2Write off bytes) s = .next (s.holdAccess (.bar2Write off.toNat bytes))) ∧
      ∀ n tag, exec (.bar2Read off n tag) s = .next (s.holdAccess (.bar2Read off.toNat n tag))) ∧
    (∀ off : BitVec 36, s.waking = false → s.is F.HB_WIN_EN = false →
      (∀ bytes, exec (.bar2Write off bytes) s = .next (s.hbError F.HB_ERR_B2ERR)) ∧
      (∀ n tag, ∃ t, exec (.bar2Read off n tag) s = .next t ∧ t.is F.HB_ERR_B2ERR = true ∧ t.nis = s.nis ∧
        ∃ l, t.hostOut = s.hostOut ++ l ++ [.bar2 tag none false])) ∧
    (∀ (off : BitVec 36), s.waking = false → s.is F.HB_WIN_EN = true → s.host.reads = [] → s.host.bar2 = [] → off.toNat % 8 = 0 →
      let a := s.winBase + off.toNat / 8
      (∀ bytes, 6 ≤ bytes.length → bytes.length ≤ 8 →
        let r := s.bar2Request tWrWords 0 (a / 16 * 16) (2 ^ (a % 16)) true [(a % 16, unpackWord bytes)]
        NiAccepts s 81 r w e → ∃ t, exec (.bar2Write off bytes) s = .next t ∧ Issued s t 81 r w e (.bar2 true 0) ∧
          t.hostOut = s.hostOut ∧ t.host = s.host) ∧
      (∀ n tag, 0 < n → n ≤ 8 → s.bar2Clear = true → a < 2 ^ 48 →
        let r := s.bar2Request tRdWords 0 (a / 16 * 16) (pieceMask a 1) false []
        NiAccepts s 81 r w e → ∃ t, exec (.bar2Read off n tag) s = .next t ∧ Issued s t 81 r w e (.bar2 false (65536 * tag)) ∧
          t.hostOut = s.hostOut) ∧
      (∀ n tag, s.bar2Clear = false → ∃ t, exec (.bar2Read off n tag) s = .next t ∧ t.nis = s.nis ∧ t.hostOut = s.hostOut ∧
        t.host.reads = [] ∧ ∃ c, t.host.bar2 = [.read tag (BitVec.ofNat 48 a) c 0 n]))

/-- R278, R284 to R289, R294, R296, R300: the words the host gives and the rings: a poll reads the doorbell block, unless the
bridge is off, or is deferred behind one unanswered; the block that comes moves the tails within their rings; a descriptor read
appends its descriptor or stops the pair; a completion is written when there is room; EN from 0 to 1 restarts a pair or a
ring; a bridge reset empties the bridge; the link trains at a rate MAXGEN caps. The model's readings and choices: log entries
8, 49. -/
def Obligations.HostRingsAndLink : Prop :=
  ∀ s : State,
    (s.is F.HB_CTL_EN = false ∨ s.mode.ov.valley = true ∨ s.mode.drain = some .valley → ∀ b, exec (.doorbellPoll b) s = .next s) ∧
    (s.is F.HB_CTL_EN = true → s.mode.ov.valley = false → s.mode.drain ≠ some .valley →
      exec (.doorbellPoll false) s = .next (s.hbError F.HB_ERR_NOBME) ∧
      (s.host.polling = true → exec (.doorbellPoll true) s = .next { s with host := { s.host with deferred := true } }) ∧
      (s.host.polling = false → exec (.doorbellPoll true) s = .next { s with
        host := { s.host with polling := true, deferred := false }
        hostOut := s.hostOut ++ [.read (BitVec.ofNat 48 (s.pair R.HB_DBLK_BASE_LO R.HB_DBLK_BASE_HI / 64 * 64)) 144] })) ∧
    (∀ b, s.host.polling = false → exec (.doorbellRead b) s = .next s) ∧
    (s.host.polling = true → let again := s.host.deferred && s.polls
      (∃ t, exec (.doorbellRead none) s = .next t ∧ t.is F.HB_ERR_QFAULT = true ∧ t.host.polling = again ∧ t.host.deferred = false ∧
        t.host.pairs = s.host.pairs) ∧
      ∀ b, ∃ t, exec (.doorbellRead (some b)) s = .next t ∧ t.host.polling = again ∧ t.host.deferred = false ∧
        t.host.heart = some (BitVec.ofNat 32 (bitsOf (8 * 124) 32 b.toNat)) ∧
        ∀ q < 32, (t.pairSt q).sqTail =
          (if dbHalf b (2 * q) < s.sqSize q then dbHalf b (2 * q) else (s.pairSt q).sqTail) ∧ (t.pairSt q).cqHead =
          (if dbHalf b (cqHeadByte q) < s.cqSize q then dbHalf b (cqHeadByte q) else (s.pairSt q).cqHead)) ∧
    (∀ q : Fin 32, let x := s.pairSt q
      (x.fetching = true → (∀ raw, let d : DescSt := ⟨x.count, raw, 0, 0, [], 0, none, false, 0, false⟩
          ∃ t, exec (.hostMemoryRead q (.desc raw)) s = .next t ∧ (t.pairSt q).sqHead = (x.sqHead + 1) % s.sqSize q ∧
            ((∀ e ∈ x.fetched ++ [d], knownOp e.op = true) → (t.pairSt q).fetched = x.fetched ++ [d]) ∧
            (knownOp d.op = false → x.fetched = [] → (d.fence = true → x.active = [] ∧ x.failed = false) →
              (t.pairSt q).waiting = x.waiting ++ [⟨d.qtag, 0x10, d.irq, 0, s.now⟩] ∧ (t.pairSt q).active = x.active)) ∧
        ∃ t, exec (.hostMemoryRead q .descFail) s = .next t ∧ (t.pairSt q).stopped = true ∧ (t.pairSt q).fetching = false ∧
          t.is (F.RING_QP_STAT_FAULT q) = true) ∧
      (∀ slot d, x.find slot = some d → d.srcHost = true → (∀ off ws, ∃ t e,
          exec (.hostMemoryRead q (.data slot off ws)) s = .next t ∧ (t.pairSt q).find slot = some e ∧
          e.have_ = d.have_ ++ (List.range ws.length).map fun i => (off + i, ws.getD i 0)) ∧
        (d.out = 0 → d.fail = none → ∃ t, exec (.hostMemoryRead q (.dataFail slot)) s = .next t ∧ DescEnds s t q slot d 0x11 0)) ∧
      (x.waiting = [] ∨ s.cqRoom q = false → exec (.completionWrite q) s = .next s) ∧
      (∀ c rest, x.waiting = c :: rest → s.cqRoom q = true → ∃ t l, exec (.completionWrite q) s = .next t ∧
        (t.pairSt q).waiting = rest ∧ (t.pairSt q).cqTail = (x.cqTail + 1) % s.cqSize q ∧
        (t.pairSt q).phase = (x.phase ^^ ((x.cqTail + 1) % s.cqSize q == 0)) ∧ t.hostOut = s.hostOut ++ [.write
          (BitVec.ofNat 48 (s.pair (R.RING_QP_CQBASE_LO q) (R.RING_QP_CQBASE_HI q) / 16 * 16 + 16 * x.cqTail))
          (c.bytes x.phase x.sqHead) false] ++ l) ∧
      (s.is (F.RING_QP_CTL_EN q) = true → exec (.qpEnable q) s = .next s) ∧
      (s.is (F.RING_QP_CTL_EN q) = false → ∃ t, exec (.qpEnable q) s = .next t ∧ t.is (F.RING_QP_CTL_EN q) = true ∧ t.pairSt q =
        { x with sqHead := 0, cqTail := 0, sqTail := 0, cqHead := 0, phase := true, stopped := false, fetching := false })) ∧
    (s.is F.RING_EVR_CTL_EN = true → exec (.ringEnable true) s = .next s) ∧
    (s.is F.RING_LGR_CTL_EN = true → exec (.ringEnable false) s = .next s) ∧
    (s.is F.RING_EVR_CTL_EN = false → ∃ t, exec (.ringEnable true) s = .next t ∧ t.is F.RING_EVR_CTL_EN = true ∧ t.host.evHead = 0 ∧
      (s.pass.out = [] → t.host.evTail = 0)) ∧
    (s.is F.RING_LGR_CTL_EN = false → ∃ t, exec (.ringEnable false) s = .next t ∧ t.is F.RING_LGR_CTL_EN = true ∧ t.host.lgHead = 0 ∧
      t.host.dropped = 0 ∧ (s.log = [] → t.host.lgTail = 0)) ∧
    (∀ kind, (s.power.powered = false → exec (.hostBridgeReset kind) s = .next s) ∧
      (s.power.powered = true → s.cfg.load = none → ∃ t, exec (.hostBridgeReset kind) s = .next t ∧ t.host = .zero ∧
        t.hostPath = .zero ∧ (t.ni 80).trackers = [] ∧ (t.ni 81).trackers = [] ∧ t.is F.HB_ERR_RESET = true ∧ t.mode = s.mode ∧
        (∀ r : RegRef, 0x60000 ≤ r.off → r.off < 0x80000 → r.off ≠ R.HB_ERR.off → t.reg r = r.rst % 2 ^ 32) ∧
        t.bmem = s.bmem ∧ t.cells = s.cells ∧ t.routers = s.routers ∧ t.time = s.time)) ∧
    (∀ (rate : Fin 6) (width : Fin 5),
      (∃ t, exec (.linkTraining rate width) s = .next t ∧ t.get F.HB_LINK_SPEED = min rate.val s.maxGen ∧
        t.get F.HB_LINK_WIDTH = width ∧ State.SameStores { s with free := t.free } t) ∧
      ∃ t, exec (.linkRetrain rate width) s = .next t ∧ t.get F.HB_LINK_SPEED = min rate.val s.maxGen ∧
        t.get F.HB_LINK_WIDTH = width ∧ SMap.get t.seqs 0 80 = SMap.get s.seqs 0 80 + 1 ∧
        State.SameStores { s with free := t.free } t)

/-- R303, R317 to R320, R322, R323: a port trains on its own powered lanes, else fails with DOMAIN or WIDTH; it comes UP when
every lane has shown its index, its marker and READY; a timeout, a wrong width, a TRAIN when UP and a marker out of place
fail it with their causes, and a timeout on lanes 4 to 7 alone retrains it at width 4; a set of four times gives ONEWAY and
OFFSET. The model's readings and choices: log entries 44, 46. -/
def Obligations.StagelinkTraining : Prop :=
  ∀ (s : State) (p : Fin 6), let x := s.portSt p; let w := s.portWidth p; let st := s.portState13 p
    (s.domainOn (portDomain p) = false → exec (.portTrain p) s = .next s) ∧
    (s.domainOn (portDomain p) = true → st ≠ 0 → exec (.portTrain p) s = .next (s.raise (F.STG_CTL_EN p))) ∧
    (s.domainOn (portDomain p) = true → st = 0 → let w := if s.is (F.STG_CTL_WIDTH p) then 4 else 8
      (LanesReady s p w → ∃ t, exec (.portTrain p) s = .next t ∧ t.is (F.STG_CTL_EN p) = true ∧ PortTrains s t p w false) ∧
      (s.mode.linksDown = true → ∃ t, exec (.portTrain p) s = .next t ∧ PortFails s t p 7 ∧ t.is (F.STG_ERR_TRAINFAIL p) = true) ∧
      (s.mode.linksDown = false → (∀ k < w, s.domainOn (laneDomain (portLane p + k)) = true) →
        (∃ k < w, s.laneUse (portLane p + k) ≠ 2) →
        ∃ t, exec (.portTrain p) s = .next t ∧ PortFails s t p 2 ∧ t.is (F.STG_ERR_TRAINFAIL p) = true)) ∧
    (st ≠ 1 → exec (.trainTimeout p) s = .next s) ∧
    (st = 1 → (s.is (F.STG_CTL_FALLBACK p) = false → ∃ t, exec (.trainTimeout p) s = .next t ∧ PortFails s t p 1) ∧
      (s.is (F.STG_CTL_FALLBACK p) = true → w = 8 → x.seen.length < 8 → (x.seen.filter fun e => decide (e.1 < 4)).length = 4 →
        LanesReady s p 4 → ∃ t, exec (.trainTimeout p) s = .next t ∧ PortTrains s t p 4 true)) ∧
    (∀ (k idx : Fin 8) (w4 ready : Bool) (dev : BitVec 8) (inv : Bool), let c := Instr.train p k idx w4 ready dev inv
      let seen := x.seen.filter (fun e => e.1 != k.val) ++ [(k.val, idx.val)]
      let rdy := if ready && !x.ready.contains k.val then x.ready ++ [k.val] else x.ready
      (2 ≤ st → ∃ t, exec c s = .next t ∧ PortFails s t p 6) ∧
      (st = 0 ∨ (st < 2 ∧ w ≤ k.val) → exec c s = .next s) ∧
      (st = 1 → k.val < w → w4 = (w == 4) → seen.length < w → ∃ t, exec c s = .next t ∧
        t.portSt p = { x with seen := seen, ready := rdy } ∧ t.get (F.STG_STAT_STATE p) = 1 ∧ t.get (F.STG_STAT_PEERDEV p) = dev.toNat ∧
        t.is (F.LANE_STAT_POLINV (portLane p + k.val)) = inv ∧ t.linkOut = s.linkOut) ∧
      (st = 1 → k.val < w → w4 = (w == 4) → seen.length = w → (∀ e ∈ seen, e.1 = e.2) → x.marked.length = w → rdy.length = w →
        ∃ t, exec c s = .next t ∧ t.get (F.STG_STAT_STATE p) = 2 ∧ t.portSt p = { PortSt.zero with fellBack := x.fellBack }) ∧
      (st = 1 → k.val < w → w4 ≠ (w == 4) → s.is (F.STG_CTL_FALLBACK p) = false →
        ∃ t, exec c s = .next t ∧ PortFails s t p 2)) ∧
    (∀ (k : Fin 8) (time rx : Word),
      (st = 0 ∨ w ≤ k.val → ∀ b, exec (.markT p k time rx b) s = .next s ∧ exec (.markR p k time rx b) s = .next s) ∧
      (st ≠ 0 → k.val < w → (∃ t, exec (.markT p k time rx false) s = .next t ∧ PortFails s t p 4) ∧
        ∃ t, exec (.markR p k time rx false) s = .next t ∧ PortFails s t p 4) ∧
      (2 ≤ st → k.val = 0 → 0 < w → ∃ t, exec (.markT p k time rx true) s = .next t ∧
        PortSends s t p { x with t3 := time, t4 := rx, haveT := true } []) ∧
      (st = 1 → k.val < w → x.marked.contains k.val = false → x.marked.length + 1 = w → x.ready.length < w → ∃ t,
        exec (.markT p k time rx true) s = .next t ∧ (t.portSt p).marked = x.marked ++ [k.val] ∧
        t.linkOut = s.linkOut ++ [(p.val, .train true)]) ∧
      (∀ t1, 2 ≤ st → 0 < w → x.haveT = true → time ≠ 0 → s.linkPort ≠ p.val → ∃ t, exec (.markR p 0 time t1 true) s = .next t ∧
        t.get (F.STG_ONEWAY_DLY p) = wrap 32 (((x.t4 - t1).toInt - (x.t3 - time).toInt) / 2) ∧
        t.get (F.STG_OFFSET_THETA p) = wrap 32 (((time - t1).toInt - (x.t4 - x.t3).toInt) / 2) ∧
        PortSends s t p { x with haveT := false } [] ∧ t.time = s.time))

/-- R310, R319, R320: a port that is not up ignores the stream; one whose wake burst has ended sends IDLE and what waited before it acts. An ACK frees every carriage up to it; XOFF stops its class and XON
lets it go on; NAK and the sender's timeout send again from the carriage named, and a carriage replayed too often takes the
port DOWN; a carriage in order is accepted and acknowledged, one seen before is ignored, and a bad or early one is asked for
again, once. The model's readings and choices: log entry 44. -/
def Obligations.StagelinkStream : Prop :=
  ∀ (s : State) (p : Fin 6) (ack : BitVec 16), let x := s.portSt p
    let unacked := x.replay.filter fun u => !lseqLe u.lseq ack
    let again (q : BitVec 16) (l : List Unacked) : List Unacked :=
      l.map fun u => if lseqLe q u.lseq then { u with replays := u.replays + 1 } else u
    let resent (q : BitVec 16) (l : List Unacked) : List LinkBlock :=
      (l.filter fun u => lseqLe q u.lseq).map fun u => .car u.c (linkCrc u.c u.lseq) u.lseq x.ack
    (s.portCarries p = false → exec (.idleBlock p ack) s = .next s ∧ (∀ q, exec (.nak p q ack) s = .next s) ∧
      (∀ r, exec (.xoff p r ack) s = .next s ∧ exec (.xon p r ack) s = .next s ∧ exec (.replayTimeout p r) s = .next s) ∧
      ∀ c k q, exec (.car p c k q ack) s = .next s) ∧
    (s.get (F.STG_STAT_STATE p) = 4 → s.burstOver p = true → let r := s.resumePort p
      (∃ l, r.linkOut = s.linkOut ++ (LinkBlock.idle x.txSeq x.ack :: x.later).map (fun b => (p.val, b)) ++ l) ∧
      r.get (F.STG_STAT_STATE p) = 2 ∧ (r.portSt p).later = [] ∧ (∀ m : Nat, m ≠ p.val → r.portSt m = s.portSt m) ∧
      exec (.idleBlock p ack) s = exec (.idleBlock p ack) r ∧ (∀ q, exec (.nak p q ack) s = exec (.nak p q ack) r) ∧
      (∀ b, exec (.xoff p b ack) s = exec (.xoff p b ack) r ∧ exec (.xon p b ack) s = exec (.xon p b ack) r ∧
        exec (.replayTimeout p b) s = exec (.replayTimeout p b) r) ∧
      ∀ c k q, exec (.car p c k q ack) s = exec (.car p c k q ack) r) ∧
    (s.portCarries p = true → s.settledPort p →
      (x.txq = [] →
        (∃ t, exec (.idleBlock p ack) s = .next t ∧ PortSends s t p { x with replay := unacked } []) ∧
        (∃ t, exec (.xoff p true ack) s = .next t ∧ PortSends s t p { x with replay := unacked, stopRsp := true } []) ∧
        (∃ t, exec (.xoff p false ack) s = .next t ∧ PortSends s t p { x with replay := unacked, stopReq := true } []) ∧
        (∀ q : BitVec 16, (∃ u ∈ unacked, lseqLe q u.lseq = true) →
          ((∀ u ∈ unacked, lseqLe q u.lseq = true → u.replays < s.replayMax p) → ∃ t, exec (.nak p q ack) s = .next t ∧
            PortSends s t p { x with replay := again q unacked } (resent q unacked) ∧
            t.get (F.STG_CNT_REPLAY p) = satAdd (F.STG_CNT_REPLAY p).w (s.get (F.STG_CNT_REPLAY p)) 1) ∧
          ((∃ u ∈ unacked, lseqLe q u.lseq = true ∧ s.replayMax p ≤ u.replays) → ∃ t, exec (.nak p q ack) s = .next t ∧
            PortFails s t p 5 ∧ t.is (F.STG_ERR_REPLAYLIM p) = true)) ∧
        ∀ (c : Carriage) (q : BitVec 16), let k := linkCrc c q
          (q ≠ x.rxSeq → lseqLe q (x.rxSeq - 1) = true → ∃ t, exec (.car p c k q ack) s = .next t ∧
            PortSends s t p { x with replay := unacked } []) ∧
          (q ≠ x.rxSeq → lseqLe q (x.rxSeq - 1) = false → ∃ t, exec (.car p c k q ack) s = .next t ∧
            PortSends s t p { x with replay := unacked, nakOut := true } (if x.nakOut then [] else [.nak x.rxSeq x.ack])) ∧
          (∀ b, b ≠ k → ∃ t, exec (.car p c b q ack) s = .next t ∧ t.is (F.STG_ERR_CRC p) = true ∧
            PortSends s t p { x with replay := unacked, nakOut := true } (if x.nakOut then [] else [.nak x.rxSeq x.ack])) ∧
          (c.isLast = false → 0 < c.len → x.rx = [] → x.sentReq = false → x.sentRsp = false → ∃ t,
            exec (.car p c (linkCrc c x.rxSeq) x.rxSeq ack) s = .next t ∧ PortSends s t p { x with
              replay := unacked, rxSeq := x.rxSeq + 1, nakOut := false, rx := [c] } [.idle x.txSeq x.rxSeq])) ∧
      (∀ c : Carriage, x.txq = [c] → (if c.rsp then x.stopRsp else x.stopReq) = true → s.portUp p = true → unacked.length < 64 →
        ∃ t, exec (.xon p c.rsp ack) s = .next t ∧ PortSends s t p { x with
          txq := [], txSeq := x.txSeq + 1, replay := unacked ++ [⟨x.txSeq, c, 0⟩]
          stopRsp := if c.rsp then false else x.stopRsp, stopReq := if c.rsp then x.stopReq else false }
          [.car c (linkCrc c x.txSeq) x.txSeq x.ack]) ∧
      (∃ t, exec (.replayTimeout p true) s = .next t ∧ PortSends s t p x (if x.nakOut then [.nak x.rxSeq x.ack] else [])) ∧
      (x.stopReq = true ∨ x.stopRsp = true ∨ x.replay = [] → exec (.replayTimeout p false) s = .next s) ∧
      (∀ u l, x.stopReq = false → x.stopRsp = false → x.replay = u :: l → (∀ v ∈ x.replay, v.replays < s.replayMax p) → ∃ t,
        exec (.replayTimeout p false) s = .next t ∧ PortSends s t p { x with replay := again u.lseq x.replay }
          (resent u.lseq x.replay)))

/-- R305, R306, R308 to R315: lanes. A write of STEP acts at once; a lock sets the step the first time and shows the latency;
a loss of lock clears it; EIDLE puts a lane or a port in electrical idle and its exit sends WAKE; slips add up; a received
carriage goes out as a WR_LINE, or is dropped with the FIFO full; a boundary sends the oldest carriage, or the pattern of an
underrun. The model's readings and choices: log entries 45, 47, 48. -/
def Obligations.SerialLanes : Prop :=
  ∀ (s : State) (l : Fin 64), let x := s.laneSt l; let on := s.domainOn (laneDomain l)
    (on = false → (∀ n, exec (.ctleStep l n) s = .next s) ∧ exec (.wakeBlock l) s = .next s ∧ exec (.laneLoss l) s = .next s) ∧
    (on = true → (∀ n : Fin 32, ∃ t, exec (.ctleStep l n) s = .next t ∧ t.get (F.LANE_CTLE_STEP l) = n ∧ State.SameStores s t) ∧
      (16 ≤ l.val → ∃ t, exec (.wakeBlock l) s = .next t ∧ t.is (F.LANE_STAT_CDRLOCK l) = true ∧
        t.is (F.LANE_STAT_RXIDLE l) = false ∧ (s.laneUse l ≠ 3 → t.is (F.LANE_STAT_BLKLOCK l) = true) ∧ State.SameStores s t) ∧
      (l.val < 16 → ∃ t, exec (.laneLoss l) s = .next t ∧ SMap.get t.seqs 0 80 = SMap.get s.seqs 0 80 + 1 ∧ State.SameStores s t ∧
        ∀ f : Fld, f.reg.off ≠ R.TIME_PASS_STAT.off → t.get f = s.get f) ∧
      (16 ≤ l.val → s.laneUse l ≠ 2 ∨ (s.portLanes (lanePort l)).contains l.val = false → ∃ t, exec (.laneLoss l) s = .next t ∧ t.is (F.LANE_STAT_CDRLOCK l) = false ∧
        t.is (F.LANE_STAT_BLKLOCK l) = false ∧ t.is (F.LANE_STAT_LOSS l) = true ∧ State.SameStores s t) ∧
      (16 ≤ l.val → s.laneUse l = 2 → (s.portLanes (lanePort l)).contains l.val = true → s.portCarries (lanePort l) = true → ∃ t,
        exec (.laneLoss l) s = .next t ∧ t.is (F.LANE_STAT_CDRLOCK l) = false ∧ t.get (F.STG_STAT_STATE (lanePort l)) = 0 ∧
        t.portSt (lanePort l) = PortSt.zero) ∧
      (16 ≤ l.val → ∀ b, ∃ t, exec (.eidle false l b) s = .next t ∧ t.is (F.LANE_CTL_EIDLE l) = b ∧ t.linkOut = s.linkOut ∧
        (s.isRaw l = true → t.is (F.LANE_STAT_EIDLE l) = b) ∧ t.laneOut = s.laneOut ++
          (if s.isRaw l && s.is (F.LANE_STAT_EIDLE l) && !b then [(l.val, .wake)] else []))) ∧
    (∀ b, l.val < 16 → exec (.eidle false l b) s = .next s) ∧
    (∀ b, 6 ≤ l.val ∨ s.domainOn (portDomain l) = false → exec (.eidle true l b) s = .next s) ∧
    (l.val < 6 → s.domainOn (portDomain l) = true → s.settledPort l →
      (s.portState13 l = 2 ∨ s.portState13 l = 4 → ∃ t, exec (.eidle true l true) s = .next t ∧ t.get (F.STG_STAT_STATE l) = 3 ∧
        (∀ k ∈ s.portLanes l, t.is (F.LANE_STAT_EIDLE k) = true) ∧ t.linkOut = s.linkOut) ∧
      (s.portState13 l = 3 → ∃ t, exec (.eidle true l false) s = .next t ∧ t.get (F.STG_STAT_STATE l) = 4 ∧
        (t.portSt l).exitFrom = some s.time.raw ∧ (∀ k ∈ s.portLanes l, t.is (F.LANE_STAT_EIDLE k) = false) ∧
        t.linkOut = s.linkOut ++ [(l.val, .wake)])) ∧
    (∀ lat, s.rawOn l = false → exec (.blklock l lat) s = .next s) ∧
    (∀ lat, s.rawOn l = true → ∃ t, exec (.blklock l lat) s = .next t ∧ t.is (F.LANE_STAT_CDRLOCK l) = true ∧
      t.reg (R.LANE_LAT l) = lat.toNat ∧ (s.laneUse l = 4 → t.is (F.LANE_STAT_BLKLOCK l) = true) ∧
      t.get (F.LANE_CTLE_STEP l) = s.get (if x.lockedOnce then F.LANE_CTLE_STEP l else F.LANE_CTLE_INIT l)) ∧
    (∀ n, (s.prbsActs l = false ∨ s.is (F.LANE_PRBS_CHK l) = false → exec (.prbsSync l n) s = .next s) ∧
      (s.prbsActs l = true → s.is (F.LANE_PRBS_CHK l) = true → ∃ t, exec (.prbsSync l n) s = .next t ∧
        t.is (F.LANE_PRBS_SYNC l) = true ∧ State.SameStores s t ∧
        t.get (F.LANE_PRBSCNT_ERRS l) = satAdd (F.LANE_PRBSCNT_ERRS l).w (s.get (F.LANE_PRBSCNT_ERRS l)) n)) ∧
    (∀ n : Fin 1024, (s.rawOn l = true → s.laneUse l = 3 → 1 ≤ n.val → n.val ≤ 767 → ∃ t, exec (.slip l n) s = .next t ∧
        t.laneSt l = { x with slip := (x.slip + n.val) % 768 } ∧ State.SameStores { s with lanes := t.lanes } t) ∧
      (s.rawOn l = false ∨ s.laneUse l ≠ 3 ∨ n.val = 0 ∨ 767 < n.val → exec (.slip l n) s = .next s)) ∧
    (∀ ws cnt st ball idle, s.rawReceives l = false → exec (.rawReceive l ws cnt st ball idle) s = .next s) ∧
    (∀ ws cnt st ball idle, s.rawReceives l = true → s.laneUse l = 3 →
      let y : LaneSt := { x with slip := 0, boundary := (x.boundary + x.slip) % 768 }; let n := 88 + rawGroup l
      (8 ≤ x.rx.length → ∃ t, exec (.rawReceive l ws cnt st ball idle) s = .next t ∧ t.laneSt l = y ∧
        t.get (F.LANE_RAWCNT_RXOVF l) = satAdd (F.LANE_RAWCNT_RXOVF l).w (s.get (F.LANE_RAWCNT_RXOVF l)) 1) ∧
      (x.rx.length < 8 → s.txReady n tWrLine 0 = false → ∃ t, exec (.rawReceive l ws cnt st ball idle) s = .next t ∧
        t.laneSt l = { y with rx := x.rx ++ [ws] }) ∧
      ∀ w e, let r := min 20 (s.get (F.LANE_RXCTL_RINGL l))
        let base := s.pair (R.LANE_RXADDR_LO l) (R.LANE_RXADDR_HI l) / 16 * 16
        let q : Request := {
          typ := tWrLine, len := 0, addr := BitVec.ofNat 48 (if r = 0 then base else base + 16 * (x.received % 2 ^ r)),
          utag := 0, mask := 0xFFFF, guar := s.is (F.LANE_RXCTL_GUAR l), fence := false, ord := false, ctx := s.get (F.NI_CTL_CTX n),
          dev := s.devid.toNat, words := (List.range 16).map fun i => (i, ws.getD i 0) }
        x.rx = [] → NiAccepts s n q w e → ∃ t, exec (.rawReceive l ws cnt st ball idle) s = .next t ∧
          t.laneSt l = { y with rx := [], received := x.received + 1 } ∧ Issued s t n q w e (.engine n l)) ∧
    (s.rawOn l = false ∨ s.is (F.LANE_STAT_EIDLE l) = true ∨ s.is (F.LANE_PRBS_GEN l) = true ∨ s.mode.ov.safeHold = true →
      exec (.underrun l) s = .next s) ∧
    (s.rawOn l = true → s.is (F.LANE_STAT_EIDLE l) = false → s.is (F.LANE_PRBS_GEN l) = false → s.mode.ov.safeHold = false →
      s.mode.ov.valley = false →
      (x.tx = [] ∨ s.mode.ov.freeze = true → ∃ t, exec (.underrun l) s = .next t ∧ t.laneSt l = x ∧
        t.get (F.LANE_RAWCNT_UNDERRUN l) = satAdd (F.LANE_RAWCNT_UNDERRUN l).w (s.get (F.LANE_RAWCNT_UNDERRUN l)) 1 ∧
        t.laneOut = s.laneOut ++ [(l.val, if s.laneUse l = 3 then .fill else if x.openFrame then .errorBlock else .idleBlock)]) ∧
      (∀ ws rest, x.tx = ws :: rest → s.mode.ov.freeze = false → ∃ t, exec (.underrun l) s = .next t ∧ (t.laneSt l).tx = rest ∧
        t.laneOut = s.laneOut ++ [(l.val, .carriage ws)]))

/-- R331, R334 to R341, R356: a channel is enabled into initialisation or out of self-refresh, becomes ready or fails, is
disabled into self-refresh, and starts again from ISOLATED; refresh and idle close rows and enter the retry buffer, whose
oldest command a confirmation removes; an alert replays, and the one after the fourth replay freezes, as a PHY unlock does; a
retraining records the drift; the temperature sets the multiplier; the zero fill leaves every line zero. The model's readings
and choices: log entries 54, 57. -/
def Obligations.DramChannels : Prop :=
  ∀ (s : State) (c : Fin 8), let x := s.dram c; let st := s.get (F.DRC_STAT_STATE c); let on := s.domainOn (28 + c.val)
    let en := s.is (F.DRC_CTL_EN c)
    (on = false ∨ en = true ∨ st = 4 ∨ st = 5 → exec (.channelEnable c) s = .next s) ∧
    (on = true → en = false → st ≠ 4 → st ≠ 5 → ∃ t, exec (.channelEnable c) s = .next t ∧ t.is (F.DRC_CTL_EN c) = true ∧
      ChannelOnly s t c ∧ (s.is (F.DRC_STAT_SRFOK c) = true → t.get (F.DRC_STAT_STATE c) = 6 ∧ t.dram c = x) ∧
      (s.is (F.DRC_STAT_SRFOK c) = false → t.get (F.DRC_STAT_STATE c) = 1 ∧ (t.dram c).lines = [] ∧ (t.dram c).filled = none ∧
        (t.dram c).retry = [] ∧ (t.dram c).fillNext = s.is (F.MIG_INITCTL_AUTO c))) ∧
    (∀ err : Fin 6, (st ≠ 1 → st ≠ 6 → exec (.channelInitDone c err) s = .next s) ∧
      (st = 1 ∨ st = 6 → let e := if st = 1 && s.badTiming c then 1 else err.val
        ∃ t, exec (.channelInitDone c err) s = .next t ∧ ChannelOnly s t c ∧ (t.dram c).lines = x.lines ∧
          (e ≠ 0 → t.get (F.DRC_STAT_STATE c) = 0 ∧ t.get (F.DRC_STAT_INITERR c) = e ∧ t.is (F.DRC_CTL_EN c) = false ∧
            t.is (F.DRC_ERR_TRAINFAIL c) = true) ∧
          (e = 0 → t.get (F.DRC_STAT_STATE c) = 2 ∧ t.is (F.DRC_STAT_SRFOK c) = false ∧ t.is (F.DRC_CTL_EN c) = en ∧
            t.is (F.MIG_INITCTL_BUSY c) = (x.fillNext || s.is (F.MIG_INITCTL_BUSY c))))) ∧
    (s.staged = [] → on = false ∨ en = false → exec (.channelDisable c) s = .next s) ∧
    (s.staged = [] → on = true → en = true → (st = 1 ∨ st = 6 → ∃ t, exec (.channelDisable c) s = .next t ∧
        t.get (F.DRC_STAT_STATE c) = (if st = 1 then 0 else 3) ∧
        t.is (F.DRC_CTL_EN c) = false ∧ t.drams = s.drams) ∧
      (st = 2 → x.reqs = [] → x.groups = [] → s.cry.cache = [] → ∃ t, exec (.channelDisable c) s = .next t ∧
        t.get (F.DRC_STAT_STATE c) = 3 ∧ t.is (F.DRC_STAT_SRFOK c) = true ∧ t.is (F.DRC_CTL_EN c) = false ∧
        (t.dram c).lines = x.lines ∧ (t.dram c).retry = [] ∧ (t.dram c).rows = [])) ∧
    (on = true → st = 5 → ∃ t, exec (.unfreeze c) s = .next t ∧ t.get (F.DRC_STAT_STATE c) = 1 ∧ t.is (F.DRC_CTL_EN c) = true ∧
      (t.dram c).lines = [] ∧ (t.dram c).filled = none ∧ ChannelOnly s t c) ∧
    (on = false ∨ st ≠ 5 → exec (.unfreeze c) s = .next s) ∧
    (s.is (F.MIG_INITCTL_BUSY c) = false → exec (.zeroFillDone c) s = .next s) ∧
    (s.is (F.MIG_INITCTL_BUSY c) = true → ∃ t, exec (.zeroFillDone c) s = .next t ∧ t.is (F.MIG_INITCTL_BUSY c) = false ∧
      t.is (F.MIG_INITCTL_DONE c) = true ∧ ChannelOnly s t c ∧ ∀ l, (t.storedLine c l).1 = List.replicate 16 0) ∧
    (s.mode.ov.halt = false → exec (.selfRefreshIdle c) s = .next s) ∧
    (s.mode.ov.halt = true → st = 2 → x.reqs = [] → x.groups = [] → s.cry.cache = [] → ∃ t, exec (.selfRefreshIdle c) s = .next t ∧
      t.get (F.DRC_STAT_STATE c) = 3 ∧ t.is (F.DRC_STAT_SRFOK c) = true ∧ (t.dram c).lines = x.lines ∧ (t.dram c).rows = []) ∧
    (st ≠ 2 → exec (.commandConfirm c) s = .next s ∧ (∀ d, exec (.tempStatusPoll c d) s = .next s) ∧
      (∀ r b, exec (.refsb c r b) s = .next s) ∧ (∀ k d, exec (.retrainNow c k d) s = .next s ∧
      exec (.forcedRetrain c k d) s = .next s) ∧ (∀ k a, exec (.alert c k a) s = .next s) ∧
      ∀ a, exec (.dramPhyUnlock c a) s = .next s) ∧
    (st = 2 → (x.retry = [] → x.replay = 0 → exec (.commandConfirm c) s = .next s) ∧
      (x.replay ≠ 0 → ∃ t, exec (.commandConfirm c) s = .next t ∧ (t.dram c).retry = [] ∧ (t.dram c).replay = 0 ∧
        (t.dram c).oldest = (x.oldest + x.retry.length) % 64 ∧ (t.dram c).lines = x.lines) ∧
      (∀ k l, x.retry = k :: l → x.replay = 0 → ∃ t, exec (.commandConfirm c) s = .next t ∧ (t.dram c).retry = l ∧
        (t.dram c).oldest = (x.oldest + 1) % 64 ∧ (t.dram c).replay = 0 ∧ (t.dram c).lines = x.lines) ∧
      (∀ d : Fin 3, ∃ t, exec (.tempStatusPoll c d) s = .next t ∧ (t.dram c).hot = d ∧ ChannelOnly s t c ∧
        t.get (F.DRC_REF_EFF c) = max (min 2 (s.get (F.DRC_REF_MULT c))) d) ∧
      (∀ (rank : Bool) (b : Fin 4), x.reqs = [] → x.retry.length < 64 → x.replay = 0 → ∃ t, exec (.refsb c rank b) s = .next t ∧
        (t.dram c).retry = x.retry ++ [⟨4, 32 * bit rank + b.val, 0, 0, .none, s.now⟩] ∧ t.regs = s.regs ∧ ChannelOnly s t c ∧
        ∀ k, SMap.get (t.dram c).rows none k =
          if k / 32 = bit rank ∧ k % 4 = b.val then none else SMap.get x.rows none k) ∧
      (∀ (k : Fin 32) (d : BitVec 8), (∃ t, exec (.retrainNow c k d) s = .next t ∧ (t.dram c).trainedAt = s.time.raw ∧
          (t.dram c).rows = [] ∧ t.get (F.DRC_DQS_COMP c) = k ∧ t.get (F.DRC_DQS_DRIFT c) = d.toNat ∧
          (4 * s.get (F.DRC_RETRAIN_DRIFTTHR c) < d.toInt.natAbs → t.is (F.DRC_ERR_DRIFT c) = true)) ∧
        (s.since x.trainedAt < 2 * s.retrainNs c → exec (.forcedRetrain c k d) s = .next s) ∧
        (2 * s.retrainNs c ≤ s.since x.trainedAt → ∃ t, exec (.forcedRetrain c k d) s = .next t ∧
          (t.dram c).trainedAt = s.time.raw ∧ (t.dram c).rows = [] ∧ t.is (F.DRC_ERR_FORCEDRT c) = true)) ∧
      (∀ crc asleep, let used := if crc then s.is (F.DRC_CTL_WRCRC c) else s.is (F.DRC_CTL_CAPAR c)
        let isolated (t : State) (k : Bool) : Prop := t.get (F.DRC_STAT_STATE c) = 5 ∧ t.is (F.DRC_ERR_FROZE c) = true ∧
          t.is (F.DRC_STAT_SRFOK c) = asleep ∧ (t.dram c).frozen = some (s.now, k) ∧ (t.dram c).reqs = [] ∧
          (t.dram c).retry = x.retry ∧ (t.dram c).lines = x.lines ∧ t.mode = s.mode
        (x.retry = [] ∨ used = false → exec (.alert c crc asleep) s = .next s) ∧
        (x.retry ≠ [] → used = true → x.replay < 4 → ∃ t, exec (.alert c crc asleep) s = .next t ∧
          t.dram c = { x with replay := x.replay + 1, rows := replayRows x.retry } ∧ ChannelOnly s t c ∧
          t.is (if crc then F.DRC_ERR_WRCRC c else F.DRC_ERR_CAPAR c) = true ∧
          t.get (F.DRC_CNT_REPLAY c) = satAdd (F.DRC_CNT_REPLAY c).w (s.get (F.DRC_CNT_REPLAY c)) 1) ∧
        (s.is (F.DRC_CTL_FREEZEPOL c) = false → (x.retry ≠ [] → used = true → 4 ≤ x.replay →
            ∃ t, exec (.alert c crc asleep) s = .next t ∧ isolated t crc) ∧
          ∃ t, exec (.dramPhyUnlock c asleep) s = .next t ∧ isolated t false))) ∧
    (∀ b : Fin 64, (SMap.get x.rows none b = none → exec (.rowIdleClose c b) s = .next s) ∧
      ∀ r, SMap.get x.rows none b = some r → x.retry.length < 64 → x.replay = 0 → ∃ t, exec (.rowIdleClose c b) s = .next t ∧
        (t.dram c).retry = x.retry ++ [⟨3, b, r, 0, .none, s.now⟩] ∧ ChannelOnly s t c ∧
        ∀ k, SMap.get (t.dram c).rows none k = if k = b.val then none else SMap.get x.rows none k)

/-- R330, R332, R344, R350, R352, R358, R362, R371, R374, R382, R383: a command slot serves the request that waits: a read
takes the stored words, a full write of an unprotected line stores its own; patrol goes on to the next line; a remap copies
to its spare; keys are zeroized, offered and taken back; a flush writes the dirty lines; a renewal passes an unwritten line;
a held write that waits too long is not performed. The model's readings and choices: log entries 7, 54, 55, 58. -/
def Obligations.DramLinesAndKeys : Prop :=
  ∀ (s : State) (c : Fin 8), let x := s.dram c
    (s.get (F.DRC_STAT_STATE c) ≠ 2 ∨ s.is (F.MIG_INITCTL_BUSY c) = true → ∀ k, exec (.commandSlot c k) s = .next s ∧
      exec (.dramPatrolVisit c k) s = .next s) ∧
    (∀ r i, LineWaits s c r i → let l := s.reqLine r i
      (r.head.typ = tRdLine → ((r.rgns.getD i ⟨32, false, 0, 0, 0, 0, false⟩).nested = true → s.groupWritten c l = true) → ∀ ws, SMap.get x.lines none (s.physLine c l) = some ws → ∃ t, exec (.commandSlot c []) s = .next t ∧
        (t.dram c).reqs = [{ r with
          todo := [], stats := r.stats ++ [(i, stOk)]
          got := r.got ++ (List.range 16).map fun w => (16 * i + w, ws.getD w 0) }] ∧ (t.dram c).lines = x.lines ∧ t.cry = s.cry) ∧
      (r.head.typ = tWrLine → (r.rgns.getD i ⟨32, false, 0, 0, 0, 0, false⟩).nested = false → ∃ t,
        exec (.commandSlot c []) s = .next t ∧ SMap.get (t.dram c).lines none (s.physLine c l) = some (r.lineWords i) ∧
        (∀ p, p ≠ s.physLine c l → SMap.get (t.dram c).lines none p = SMap.get x.lines none p) ∧
        (t.dram c).reqs = [{ r with todo := [], stats := r.stats ++ [(i, stOk)] }] ∧ t.cry = s.cry)) ∧
    (∀ g, (x.groups.find? (fun b => b.group == g) = none → exec (.groupFlush c g) s = .next s) ∧
      ∀ b, x.groups.find? (fun b => b.group == g) = some b → ∃ t, exec (.groupFlush c g) s = .next t ∧
        (t.dram c).groups = x.groups.filter (fun e => e.group != g) ∧ ChannelOnly s t c ∧ t.regs = s.regs ∧
        (t.dram c).reqs = x.reqs.map fun r => { r with
          todo := r.todo ++ ((b.lines.flatMap fun e => e.2.2).filter fun o => o.1 == r.id).map (·.2) }) ∧
    (∀ k, let l := s.get (F.MIG_PATPOS_LINE c) % s.chanLines c
      s.is (F.MIG_PATROL_EN c) = true → s.get (F.DRC_STAT_STATE c) = 2 → s.is (F.MIG_INITCTL_BUSY c) = false →
      s.regionAt (16 * s.globalLine c l) = none → ∃ t, exec (.dramPatrolVisit c k) s = .next t ∧
        t.get (F.MIG_PATPOS_LINE c) = (l + 1) % s.chanLines c ∧ State.SameStores s t) ∧
    (∀ k : Fin 16, let valid := s.is (F.MIG_REMAP_FROM_VALID c k); let busy := s.is (F.MIG_REMAP_TO_BUSY c k)
      let spare := s.spareLine c (s.get (F.MIG_REMAP_TO_LINE c k))
      (s.domainOn (28 + c.val) = false → exec (.remapValid c k) s = .next s) ∧
      (s.domainOn (28 + c.val) = true → (valid = true → exec (.remapValid c k) s = .next (s.clear (F.MIG_REMAP_TO_AUTO c k))) ∧
        (valid = false → ∃ t, exec (.remapValid c k) s = .next t ∧ State.SameStores s t ∧
          (spare = true → t.is (F.MIG_REMAP_FROM_VALID c k) = true ∧ t.is (F.MIG_REMAP_TO_BUSY c k) = true ∧
            t.is (F.MIG_REMAP_FROM_LOST c k) = false) ∧
          (spare = false → t.is (F.MIG_REMAP_FROM_VALID c k) = false ∧ t.is F.MIG_STAT_EXCLBAD = true))) ∧
      (valid = false ∨ busy = false ∨ s.get (F.DRC_STAT_STATE c) ≠ 2 → ∀ e, exec (.remapDone c k e) s = .next s) ∧
      (valid = true → busy = true → s.get (F.DRC_STAT_STATE c) = 2 → let l := s.get (F.MIG_REMAP_FROM_LINE c k)
        s.lineLost c l = false → (s.rgnNested (16 * s.globalLine c l) = true → s.groupWritten c l = true) → ∀ ws, SMap.get x.lines none (s.physLine c l) = some ws → ∃ t, exec (.remapDone c k []) s = .next t ∧
          t.is (F.MIG_REMAP_TO_BUSY c k) = false ∧
          SMap.get (t.dram c).lines none (t.physLine c l) = some ((List.range 16).map fun w => ws.getD w 0))) ∧
    (s.domainOn 40 = false → exec .flush s = .next s ∧ (∀ k, exec (.zero k) s = .next s ∧ exec (.spare k) s = .next s ∧
      exec (.unspare k) s = .next s) ∧ ∀ k, exec (.renewVisit k) s = .next s) ∧
    (s.domainOn 40 = true → (∀ k : Fin 64, let st := s.keyState k
        (k.val ≠ 0 → (st = 1 ∨ st = 2 ∨ st = 5) → ∃ t, exec (.zero k) s = .next t ∧ t.keyState k = 0 ∧ t.cry.keys =
          SMap.erase s.cry.keys k ∧ State.SameStores { s with cry := t.cry } t) ∧
        (k.val ≠ 0 → st = 1 → ∃ t, exec (.spare k) s = .next t ∧ t.keyState k = 2 ∧ State.SameStores s t) ∧
        (k.val ≠ 0 → st = 2 → ∃ t, exec (.unspare k) s = .next t ∧ t.keyState k = 1 ∧ State.SameStores s t) ∧
        (k.val = 0 ∨ (st ≠ 1 ∧ st ≠ 2 ∧ st ≠ 5) → exec (.zero k) s = .next (s.raise F.CRY_STAT_KEYREJ)) ∧
        (k.val = 0 ∨ st ≠ 1 → exec (.spare k) s = .next (s.raise F.CRY_STAT_KEYREJ)) ∧
        (k.val = 0 ∨ st ≠ 2 → exec (.unspare k) s = .next (s.raise F.CRY_STAT_KEYREJ))) ∧
      (s.cry.cache = [] → exec .flush s = .next s) ∧
      (∀ m ws, s.cry.cache = [(m, some ⟨ws, true⟩)] → s.rgnNested (16 * m) = false → let d := s.channelOf m
        ∃ t, exec .flush s = .next t ∧ SMap.get t.cry.cache none m = some ⟨ws, false⟩ ∧
          SMap.get (t.dram d).lines none (s.physLine d (s.localLine m)) = some ws ∧ (t.dram d).retry = [])) ∧
    (∀ k, s.is F.CRY_RN_ACTIVE = false → exec (.renewVisit k) s = .next s) ∧
    (∀ k e, let r := s.get F.CRY_RN_REGION; let g := s.lineRgn s.rptr; let i := (s.rptr - g.base) / 16
      s.is F.CRY_RN_ACTIVE = true → s.renewWaits r = false → s.heldIn r = [] → g.crypto = 1 → s.rptr + 16 ≤ s.rgnLimit r →
      SMap.get s.cry.cache none (g.ctrLine i) = some e → ctrOf (e.words.getD (i % 16) 0) = 0 → ∃ t, exec (.renewVisit k) s = .next t ∧
        t.rptr = (s.rptr + 16) % 2 ^ 48 ∧ State.SameStores s t) ∧
    (∀ id, ((x.find id = none ∨ ∀ r, x.find id = some r → r.held = false) → exec (.holdTimeout c id) s = .next s) ∧
      ∀ r i j l, x.find id = some r → r.todo = i :: j :: l → r.held = true → r.head.typ ≠ tFence → ∃ t r',
        exec (.holdTimeout c id) s = .next t ∧ t.is F.CRY_STAT_HOLDTMO = true ∧ (t.dram c).find id = some r' ∧ r'.held = false ∧
        r'.todo = j :: l ∧ r'.stats = r.stats ++ [(i, stTimeout)])

/-- R414 to R419, R421, R422, R426: samples show the sensors, and two at the critical limit lead to FREEZE; each loop that
runs moves its setting by its rule, inside its envelope, and only observes with OBS; the steward restarts, measures its
ratios and places its windows; the watchdog expires into its action and starts again when EXPIRED is cleared. The model's
readings and choices: log entries 59, 60, 61. -/
def Obligations.StewardLoops : Prop :=
  ∀ s : State, let acts (k : Nat) : Prop := s.loopRuns k = true ∧ s.is F.STW_CTL_OBS = false
    (s.stewardOn = false → (∀ b vs, exec (.sensorSample b vs) s = .next s) ∧ exec .stwRestart s = .next s ∧ exec .wdExpire s = .next s ∧
      exec .wdExpiredClear s = .next s ∧ exec .renewLoop s = .next s ∧ (s.staged = [] → exec .shed s = .next s) ∧ exec .mwinPlace s = .next s ∧
      ∀ i n d m, exec (.limitRatio i n d m) s = .next s) ∧
    (s.stewardOn = true → ∀ vs, (∃ t, exec (.sensorSample false vs) s = .next t ∧ State.SameStores s t ∧
        ∀ i < 24, t.get (F.STW_VMON_EVEN i) = s.voltageValue vs (2 * i) ∧ t.get (F.STW_VMON_ODD i) = s.voltageValue vs (2 * i + 1)) ∧
      (let h := s.hottest vs; let hot := signed 16 (s.loopThr 7) ≤ signed 16 h.2;
        (s.loopRuns 7 = false ∨ ¬ hot ∨ s.stw.critical ≠ 1 → ∃ t, exec (.sensorSample true vs) s = .next t ∧
          (∀ i < 32, t.get (F.STW_TEMP_EVEN i) = s.thermalValue vs (2 * i) ∧ t.get (F.STW_TEMP_ODD i) = s.thermalValue vs (2 * i + 1)) ∧
          t.get F.STW_TMAX_SENSOR = h.1 ∧ t.get F.STW_TMAX_TEMP = h.2 ∧ State.SameStores { s with stw := t.stw } t ∧
          t.stw.critical = (if s.loopRuns 7 && decide hot then s.stw.critical + 1 else 0)) ∧
        (hot → s.stw.critical = 1 → acts 7 → ∃ t, exec (.sensorSample true vs) s = .next t ∧ t.mode.ov.freeze = true))) ∧
    (let v := s.halvedOrDoubled 0 0 (s.get F.SCR_SCAN_INTERVAL);
      (v = s.get F.SCR_SCAN_INTERVAL → ∃ t, exec .scan s = .next t ∧ t.staged = s.staged) ∧
      (v ≠ s.get F.SCR_SCAN_INTERVAL → ∃ t, exec .scan s = .next t ∧ StagedBy t F.SCR_SCAN_INTERVAL v)) ∧
    (∀ f : FieldNo, (s.configured f = true → s.domainOn (4 + f.val) = true → ∃ t, exec (.bmpat f) s = .next t ∧
        t.get (F.FLD_BMPAT_INTERVAL f) = s.halvedOrDoubled 1 f (s.get (F.FLD_BMPAT_INTERVAL f)) ∧ t.seenBy 1 f = 0 ∧
        State.LogOnly { s with stw := t.stw } t) ∧
      (s.configured f = false ∨ s.domainOn (4 + f.val) = false → exec (.bmpat f) s = .next s)) ∧
    (∀ c : Fin 8, (s.domainOn (28 + c.val) = true → ∃ t, exec (.dpatrol c) s = .next t ∧
        t.get (F.MIG_PATROL_INTERVAL c) = s.halvedOrDoubled 2 c (s.get (F.MIG_PATROL_INTERVAL c)) ∧ t.seenBy 2 c = 0 ∧
        State.LogOnly { s with stw := t.stw } t) ∧
      (s.domainOn (28 + c.val) = false → exec (.dpatrol c) s = .next s) ∧
      (s.domainOn (28 + c.val) = true → acts 3 → let n := s.seenBy 3 c; let cur := s.get (F.DRC_REF_MULT c)
        ∃ t, exec (.refresh c) s = .next t ∧ t.seenBy 3 c = 0 ∧ t.get (F.DRC_REF_MULT c) =
          (if s.loopThr 3 ≤ n then s.withinEnv 3 2 (min 2 (cur + 1))
           else if 4 * n < s.loopThr 3 ∧ 600 ≤ s.quietFor 3 c + 1 then s.withinEnv 3 2 (cur - 1) else cur)) ∧
      (∀ i < 32, s.domainOn (28 + c.val) = true → acts 8 →
        let due (j : Nat) : Bool := decide (s.loopThr 8 ≤ s.seenBy 8 (32 * c.val + j)) && !s.is (eraseEn c (j / 16))
        (due i = true → (∀ j < i, due j = false) → ∃ t, exec (.erase c) s = .next t ∧ t.is (eraseEn c (i / 16)) = true ∧
          t.get (eraseComp c (i / 16)) = i % 16 ∧ State.LogOnly { s with stw := t.stw } t) ∧
        ((∀ j < 32, due j = false) → ∃ t, exec (.erase c) s = .next t ∧ State.SameStores { s with stw := t.stw } t)) ∧
      ((s.dram c).suspects = [] → exec (.remap c) s = .next s) ∧
      (∀ l rest, (s.dram c).suspects = l :: rest → acts 9 → s.get (F.DRC_STAT_STATE c) = 2 →
        ((∀ k < 16, s.is (F.MIG_REMAP_FROM_VALID c k) = true) → ∃ t, exec (.remap c) s = .next t ∧ t.is F.MIG_STAT_REMAPFULL = true ∧
          t.dram c = { s.dram c with suspects := rest }) ∧
        (∀ k < 16, ∀ p, s.is (F.MIG_REMAP_FROM_VALID c k) = false → (∀ j < k, s.is (F.MIG_REMAP_FROM_VALID c j) = true) →
          s.firstSpare c = some p → s.spareLine c p = true → ∃ t, exec (.remap c) s = .next t ∧
            t.is (F.MIG_REMAP_FROM_VALID c k) = true ∧ t.is (F.MIG_REMAP_TO_BUSY c k) = true ∧
            t.is (F.MIG_REMAP_TO_AUTO c k) = true ∧ t.get (F.MIG_REMAP_FROM_LINE c k) = l % 2 ^ 30 ∧
            t.get (F.MIG_REMAP_TO_LINE c k) = p ∧ t.dram c = { s.dram c with suspects := rest }))) ∧
    (∀ (l : Fin 64) (valid : Bool) (w : Fin 128) (h : Fin 256), let cur := s.get (F.LANE_CTLE_STEP l)
      (s.domainOn (laneDomain l) = false → exec (.ctle l valid w h) s = .next s) ∧
      (s.domainOn (laneDomain l) = true → (valid = false ∨ s.loopRuns 5 = false ∨ s.is (F.LANE_CTLE_HOLD l) = true → ∃ t,
          exec (.ctle l valid w h) s = .next t ∧ t.get (F.LANE_EYE_WIDTH l) = w ∧ t.get (F.LANE_EYE_HEIGHT l) = h ∧
          t.get (F.LANE_CTLE_STEP l) = cur ∧ State.SameStores s t) ∧
        (valid = true → acts 5 → s.is (F.LANE_CTLE_HOLD l) = false → w.val < s.loopThr 5 →
          SMap.get s.stw.pending none l = none →
          let up := SMap.get s.stw.up true l != decide (w.val < SMap.get s.stw.eye 0 l)
          let v := s.withinEnv 5 5 (if up then min 31 (cur + 1) else cur - 1)
          v ≠ cur → ∃ t, exec (.ctle l valid w h) s = .next t ∧
            t.get (F.LANE_CTLE_STEP l) = (if s.timingLane l then cur else v) ∧
            SMap.get t.stw.pending none l = (if s.timingLane l then some v else none) ∧ SMap.get t.stw.up true l = up))) ∧
    (let cur := s.get F.PWR_OPSTAT_OPCUR
      let free := s.is F.PWR_OPSTAT_BUSY = false ∧ s.is F.PWR_OPSTAT_HELD = false ∧ s.staged = [] ∧ s.mode.timeEnabled = true
     
      (s.loopRuns 6 = false → s.staged = [] → ∃ t, exec .op s = .next t ∧ t.regs = s.regs ∧ State.SameStores { s with stw := t.stw } t) ∧
      (acts 6 → s.hot = true → free → let down := min (cur - 1) s.opCeiling;
        s.opFloor ≤ down → down < cur → ∃ t, exec .op s = .next t ∧ StagedBy t F.PWR_OPREQ_OP down) ∧
      (acts 6 → s.cool = true → 100 ≤ s.quietFor 6 0 + 1 → free → cur < s.opCeiling → s.opFloor ≤ cur + 1 → ∃ t,
        exec .op s = .next t ∧ StagedBy t F.PWR_OPREQ_OP (cur + 1))) ∧
    (∀ r n, acts 10 → (List.range 32).find? (fun r => bitOf r (s.reg R.CRY_RNREQ)) = some r →
      (List.range 64).find? (fun k => k != 0 && s.keyState k == 2) = some n → s.encrypted r = true →
      s.get (F.MIG_REGION_CTL_KEYID r) ≠ n → s.is F.CRY_RN_ACTIVE = false → s.domainOn 40 = true → ∃ t, exec .renewLoop s = .next t ∧
        t.is F.CRY_RN_ACTIVE = true ∧ t.is F.CRY_RN_STW = true ∧ t.get F.CRY_RN_REGION = r ∧ t.get F.CRY_RN_NEWKEY = n ∧
        t.cry.renewed = 0) ∧
    (∀ d, acts 11 → s.staged = [] → s.mode.timeEnabled = true → 100 ≤ s.quietFor 11 0 → ((List.range 40).reverse).find? (fun d =>
        s.mayShed d && s.domainOn d && s.domainWanted d && !s.stw.shed.contains d) = some d → ∃ t, exec .shed s = .next t ∧
      t.stw.shed = s.stw.shed ++ [d] ∧ bitOf (if d < 32 then d else d - 32)
        (SMap.get t.staged Staged.none (if d < 32 then F.PWR_DOMCTL0_ON else F.PWR_DOMCTL1_ON).reg.off).stwVal.toNat = false) ∧
    (s.stewardOn = true → ∃ t, exec .stwRestart s = .next t ∧ t.stw = { StwSt.zero with shed := s.stw.shed } ∧
      t.get F.STW_STAT_RESTARTS = satAdd F.STW_STAT_RESTARTS.w (s.get F.STW_STAT_RESTARTS) 1 ∧
      State.LogOnly { s with stw := t.stw } t) ∧
    (s.loopsAct = true → ∀ (i : Fin 10) (n d m : Nat), ∃ t, exec (.limitRatio i n d m) s = .next t ∧ State.SameStores s t ∧
      (i.val ≠ 3 → t.get (F.STW_LR_MEAS i) = min 0xFFFF m) ∧
      (i.val = 3 → t.get (F.STW_LR_RATIO i) = if s.is F.SCR_CTL_EN then ratioOf (s.get F.SCR_SWEEP_MAXNS) 2000 else 0) ∧
      (i.val = 0 ∨ 4 ≤ i.val → t.get (F.STW_LR_RATIO i) = ratioOf n d) ∧
      (i.val = 1 → t.get (F.STW_LR_RATIO i) = if d = 0 then 0 else 0x1000)) ∧
    (∀ k, s.loopsAct = true → s.is F.STW_MWIN_EN = true → s.time.ticks = true → s.windowsWanted = [k] → (s.column 62).entries = [] →
      ∃ t, exec .mwinPlace s = .next t ∧ (t.column 62).entries = [windowEntry (s.nextWindow k) k] ∧
        SMap.get t.stw.windows none k = some (s.nextWindow k) ∧ (∀ j, j ≠ 62 → t.column j = s.column j) ∧ t.regs = s.regs) ∧
    (s.is F.STW_WD_CTL_EN = false ∨ s.mode.wdFrozen = true ∨ s.is F.STW_WD_STAT_SAFEOUT = true → exec .wdExpire s = .next s) ∧
    (s.stewardOn = true → s.is F.STW_WD_CTL_EN = true → s.mode.wdFrozen = false → s.is F.STW_WD_STAT_SAFEOUT = false →
      (s.time.ticks = false ∨ s.get F.STW_WD_STAT_REMAIN = 0) → ∃ t, exec .wdExpire s = .next t ∧
        (s.get F.STW_WD_CTL_ACTION = 0 → t.is F.STW_WD_STAT_EXPIRED = true ∧ t.get F.STW_WD_STAT_REMAIN = s.wdPeriod ∧
          t.mode = s.mode) ∧
        (s.get F.STW_WD_CTL_ACTION = 1 → t.is F.STW_WD_STAT_EXPIRED = true ∧ t.is F.STW_WD_STAT_SAFEOUT = true ∧ t.mode = s.mode) ∧
        (2 ≤ s.get F.STW_WD_CTL_ACTION → s.mode.ov.safeHold = false → t.mode.ov.freeze = true)) ∧
    (s.stewardOn = true → s.is F.STW_WD_STAT_EXPIRED = true → ∃ t, exec .wdExpiredClear s = .next t ∧
      t.is F.STW_WD_STAT_EXPIRED = false ∧ t.get F.STW_WD_STAT_REMAIN = s.wdPeriod ∧ State.SameStores s t) ∧
    (s.is F.STW_WD_STAT_EXPIRED = false → exec .wdExpiredClear s = .next s)

/-- R429 to R432, R435 to R439: self-test goes field by field. FIELD_TEST saves a configured field first and leaves its result, or skips one
whose domain is off or that cannot be saved; FIELD_RESTORE brings the saved copy back, or drops the configuration where a read of it
fails; ABORT restores first and then leaves; SCAN_ENTER zeroizes the secrets; a soft repair record takes effect where it may; PROG
starts an item of fuses, which FUSE_WORD blows word by word. The model's readings and choices: log entries 62, 63, 82. -/
def Obligations.SelfTestAndFuses : Prop :=
  ∀ s : State, let b := s.bist; let held := s.mode.ov.selfTest = false ∨ s.mode.ov.freeze = true ∨ s.mode.ov.safeHold = true
    let free := s.mode.ov.selfTest = true ∧ s.mode.ov.freeze = false ∧ s.mode.ov.safeHold = false
    (∀ cols again other checks, let i := Instr.fieldTest cols again other checks
      (b.todo = [] ∨ s.mode.ov.selfTest = false ∨ b.saved.isSome = true → exec i s = .next s) ∧
      ∀ f rest, b.todo = f :: rest → f < 24 → s.mode.ov.selfTest = true → b.saved = none →
        (s.domainOn (4 + f) = true → s.configured f = true → s.saveOk f = true → ∃ t, exec i s = .next t ∧ t.bist.saved = some f ∧
          t.bist.todo = b.todo ∧ t.get F.BIST_STAT_PHASE = 4 ∧ t.get F.BIST_STAT_CUR = f ∧ t.mode = s.mode ∧ t.images = s.images ∧
          t.cells = s.cells ∧ t.bmem = s.bmem ∧
          (cols = [] → again = none → t.get (F.BIST_FRES_RESULT f) = if other.isSome then 3 else 1)) ∧
        (s.domainOn (4 + f) = true → s.configured f = false → ∃ t, exec i s = .next t ∧ t.bist.saved = none ∧ t.bist.todo = rest ∧
          t.images = s.images ∧ t.cells = s.cells ∧
          (cols = [] → again = none → rest ≠ [] → t.get (F.BIST_FRES_RESULT f) = if other.isSome then 3 else 1)) ∧
        (s.domainOn (4 + f) = false ∨ (s.configured f = true ∧ s.saveOk f = false) → ∃ t, exec i s = .next t ∧ t.bist.saved = none ∧
          t.bist.todo = rest ∧ t.images = s.images ∧ t.cells = s.cells ∧ (rest ≠ [] → t.get (F.BIST_FRES_RESULT f) = 4 ∧
            t.drams = s.drams ∧ t.mode = s.mode)) ∧
        ∀ g l, rest = g :: l → g < 24 → s.domainOn (4 + f) = false ∨ s.configured f = false ∨ s.saveOk f = false →
          ∃ t, exec i s = .next t ∧ t.get F.BIST_STAT_CUR = g ∧ t.get F.BIST_STAT_PHASE = 2) ∧
    (∀ checks, let i := Instr.fieldRestore checks
      (b.saved = none ∨ held → exec i s = .next s) ∧
      ∀ f, b.saved = some f → f < 24 → free →
        (∀ frames mems flops, (s.readSave f checks).2 = some (frames, mems, flops) → ∃ t, exec i s = .next t ∧ t.bist.saved = none ∧
          (b.aborted = false → t.bist.todo = b.todo.filter (· != f)) ∧ t.configured f = s.configured f ∧
          (∀ n < 16384, let r := cellFromWords ((flops.drop (16 + 6 * n)).take 6)
            (t.cell (16384 * f + n)).now = r ∧ (t.cell (16384 * f + n)).shadow = r) ∧
          (∀ n < 512, let r := sliceFromWords ((flops.drop (16 * (6145 + n))).take 16)
            (t.slice (sliceKey f n)).now = r ∧ (t.slice (sliceKey f n)).shadow = r)) ∧
        ((s.readSave f checks).2 = none → ∃ t, exec i s = .next t ∧ t.bist.saved = none ∧ t.configured f = false ∧
          f ∈ t.cfg.fenced ∧ t.get (F.BIST_FRES_ITEM f) = 5)) ∧
    (held ∨ b.scanned = true → exec .bistAbort s = .next s) ∧
    (free → b.scanned = false →
      (b.saved.isSome = true → exec .bistAbort s = .next { s with bist := { b with aborted := true } }) ∧
      (b.saved = none → b.prog = none → ∃ t, exec .bistAbort s = .next t ∧ t.mode.ov.selfTest = false ∧ t.mode.base = s.mode.base ∧
        t.bist.todo = [] ∧ t.is F.BIST_STAT_BUSY = false) ∧
      (b.saved = none → b.prog.isSome = true → ∃ t, exec .bistAbort s = .next t ∧ t.mode = s.mode ∧ t.bist.aborted = true ∧
        t.bist.ended = true ∧ t.bist.prog = b.prog)) ∧
    (s.power.powered = false → exec .scanEnter s = .next s) ∧
    (s.power.powered = true →
      (held → exec .scanEnter s = .next { s with tap := { s.tap with instr := .bypass, bypass := false } }) ∧
      (free → b.scanned = true → exec .scanEnter s = .next { s with tap := { s.tap with instr := .scanEnter } }) ∧
      (free → b.scanned = false →
        (s.is F.CRY_RN_ACTIVE = true → ∃ t, exec .scanEnter s = .next t ∧ t.is F.BIST_ERR_RENEW = true ∧ t.cry = s.cry ∧
          t.bist = b ∧ t.tap.instr = .scanEnter) ∧
        (s.is F.CRY_RN_ACTIVE = false → ∃ t, exec .scanEnter s = .next t ∧ t.bist.scanned = true ∧
          t.cry.keys = [] ∧ t.cry.cfgKey = none ∧ t.cry.cache = [] ∧ (∀ k < 64, t.keyState k = 0) ∧ t.is F.BIST_STAT_ZEROD = true ∧
          t.is F.CRY_CFGKEY_LOADED = false ∧ t.tap.instr = .scanEnter ∧ t.mode = s.mode))) ∧
    (∀ (k : Fin 64) (r : BitVec 32), let v := r.toNat; let off := decide (recField v ≤ 23) && !s.domainOn (4 + recField v)
      let fits := recValid v = false ∨ recFits (s.fuseRecords ++ s.softRecords k) v = true
      (s.mode.ov.selfTest = false → off = false → exec (.srepWrite k r) s = .next (s.raise F.BIST_ERR_REPBUSY)) ∧
      ((s.mode.ov.selfTest = true ∨ off = true) → ¬ fits → exec (.srepWrite k r) s = .next (s.raise F.BIST_ERR_SPAREUSED)) ∧
      ((s.mode.ov.selfTest = true ∨ off = true) → fits → ∃ t, exec (.srepWrite k r) s = .next t ∧ t.reg (R.BIST_SREP k) = v ∧
        (recValid v = true → t.is (F.FLD_BM_CFG_INITD (recField v) (recBlock v)) = false) ∧ State.SameStores s t)) ∧
    (∀ p x y n tj, keyOk p .host x y 0x4655 0x5345 n = false ∨ b.prog.isSome = true ∨ s.domainOn 1 = false →
      exec (.prog p x y n tj) s = .next s) ∧
    (b.prog = none → s.domainOn 1 = true → ∀ n ≤ 1024, ∀ tj, let item := s.get F.BIST_FUSECTL_ITEM; let index := s.get F.BIST_FUSECTL_INDEX
      let i := Instr.prog .host 0x4655 0x5345 n tj; let cold := (0 : Int) ≤ tj ∧ tj ≤ 85 * 16
      let refused (f : Fld) : Prop := ∃ t, exec i s = .next t ∧ t.is f = true ∧ t.bist = { b with keyed := false, staged := [] } ∧
        t.fuses = s.fuses
      (held ∨ b.scanned = true → refused F.BIST_ERR_FUSEMODE) ∧
      (free → b.scanned = false → (¬ cold → refused F.BIST_ERR_FUSETEMP) ∧
        (cold → s.fuseFull item index = true → refused F.BIST_ERR_FUSEFULL) ∧
        (cold → s.fuseFull item index = false → item ≠ 2 →
          exec i s = .next { s with bist := { b with keyed := false, prog := some (item, index), blown := 0, bad := false } }) ∧
        (cold → item = 2 → ∃ t, exec i s = .next t ∧ t.bist.prog = none ∧
          t.fuses = { s.fuses with revoked := setBitsOf index 1 s.fuses.revoked 1 }))) ∧
    (b.prog = none → ∀ ok, exec (.fuseWord ok) s = .next s) ∧
    (∀ item index ok, b.prog = some (item, index) →
      (b.blown + 1 < fuseWords item → exec (.fuseWord ok) s =
        .next { s with bist := { b with blown := b.blown + 1, bad := b.bad || !ok } }) ∧
      (fuseWords item ≤ b.blown + 1 → ∃ t, exec (.fuseWord ok) s = .next t ∧ t.bist.prog = none ∧ t.bist.staged = [] ∧
        (b.bad = true ∨ ok = false → t.is F.BIST_ERR_FUSEFAIL = true)) ∧
      (item = 0 → b.bad = false → ∃ t, exec (.fuseWord true) s = .next t ∧ t.bist.prog = none ∧ t.bist.staged = [] ∧
        t.fuses = { s.fuses with records := s.fuses.records ++ [b.staged.getD 0 0] }) ∧
      (item = 0 → ∃ t v, exec (.fuseWord false) s = .next t ∧ t.bist.prog = none ∧ t.is F.BIST_ERR_FUSEFAIL = true ∧
        t.fuses = { s.fuses with records := s.fuses.records ++ [v] } ∧ v.getLsbD 31 = false) ∧
      (item = 1 → b.bad = false → b.blown = 11 → ∃ t, exec (.fuseWord true) s = .next t ∧ t.bist.prog = none ∧
        t.fuses = { s.fuses with owners := SMap.set s.fuses.owners [] index ((List.range 12).map fun i => b.staged.getD i 0) }) ∧
      (item = 3 → b.bad = false → b.blown = 7 → ∃ t, exec (.fuseWord true) s = .next t ∧ t.bist.prog = none ∧
        t.fuses = { s.fuses with root := some ((List.range 8).map fun i => b.staged.getD i 0) }))

/-- R441 to R445, R447, R449 to R455, R462, R466, R467: a write to DBG that may not take effect changes at most LOCKED; the
key sequence unlocks; an access goes to NI 95 and LR and SC keep and check a reservation; a halt is noted, or cuts the frames
at once; a release sets the tick at which frames resume; the trace and the virtual terminal start and pass words; the TAP's
instructions act on its own registers, those that take the pins only where they may; a bank out of range is noted until it
returns. The model's readings and choices: log entries 14, 64, 65, 66, 67. -/
def Obligations.DebugAndPins : Prop :=
  ∀ s : State,
    (∀ p, s.dbgMayWrite p = false → ∀ i ∈ [Instr.lock p, .accRead p, .accWrite p, .lr p, .sc p, .traceEnable p, .haltFrameEnd p,
        .haltNow (some p), .release p, .rxtake p, .vtTxWrite p 0],
      exec i s = .next (if p = .host ∧ s.domainOn 1 = true then s.raise F.DBG_ERR_LOCKED else s)) ∧
    (∀ p x y n, (p ≠ .host ∨ s.domainOn 1 = false → exec (.unlock p x y n) s = .next s) ∧
      (s.domainOn 1 = true → s.straps.dbgEn = false → exec (.unlock .host x y n) s = .next (s.raise F.DBG_ERR_LOCKED)) ∧
      (s.domainOn 1 = true → s.straps.dbgEn = true → (keyOk .host .host x y 0x4442 0x5547 n = false → exec (.unlock .host x y n) s = .next s) ∧
        (n ≤ 1024 → ∃ t, exec (.unlock .host 0x4442 0x5547 n) s = .next t ∧ t.is F.DBG_STAT_UNLOCKED = true ∧ State.SameStores s t))) ∧
    exec .dbgEnFall s = .next { s with straps := { s.straps with dbgEn := false } } ∧
    (∀ p, s.dbgMayWrite p = true →
      (∃ t, exec (.lock p) s = .next t ∧ t.is F.DBG_STAT_UNLOCKED = false ∧ State.SameStores s t) ∧
      (s.is F.DBG_ACC_CTL_BUSY = true → exec (.accRead p) s = .next (s.put F.DBG_ACC_CTL_OP 0) ∧
        exec (.accWrite p) s = .next (s.put F.DBG_ACC_CTL_OP 1) ∧ exec (.lr p) s = .next (s.put F.DBG_ACC_CTL_OP 2) ∧
        exec (.sc p) s = .next (s.put F.DBG_ACC_CTL_OP 3)) ∧
      (s.is F.DBG_ACC_CTL_BUSY = false → ∀ w e,
        let goes (i : Instr) (op : Nat) (old : Word) (q : Request) : Prop := NiAccepts s 95 q w e → ∃ t, exec i s = .next t ∧
          Issued s t 95 q w e (.debug op) ∧ t.dbg.access = some (p, s.accAddr, op, old) ∧ t.is F.DBG_ACC_CTL_BUSY = true ∧
          (op = 2 → t.dbg.rsvHost = none ∧ t.dbg.rsvDebug = none)
        goes (.accRead p) 0 0 (s.accRequest tRdWords []) ∧ goes (.accWrite p) 1 0 (s.accRequest tWrWords [(0, s.accData)]) ∧
        goes (.lr p) 2 0 (s.accRequest tRdWords []) ∧
        (∀ v, s.reservation p = some (s.accAddr, v) → goes (.sc p) 3 v (s.accRequest tAtomic [(0, s.accData), (1, v), (2, 5)])) ∧
        ((∀ v, s.reservation p ≠ some (s.accAddr, v)) → ∃ t, exec (.sc p) s = .next t ∧ t.is F.DBG_ACC_CTL_SCFAIL = true ∧
          t.dbg.rsvHost = none ∧ t.dbg.rsvDebug = none ∧ t.nis = s.nis)) ∧
      (s.is F.DBG_TRC_CTL_EN = true → exec (.traceEnable p) s = .next s) ∧
      (s.is F.DBG_TRC_CTL_EN = false → ∃ t, exec (.traceEnable p) s = .next t ∧ t.is F.DBG_TRC_CTL_EN = true ∧
        t.get F.DBG_TRC_STAT_WPTR = 0 ∧ t.is F.DBG_TRC_STAT_WRAP = false ∧ t.is F.DBG_TRC_STAT_STOPPED = false ∧
        t.dbg.trace = s.dbg.trace ∧ State.SameStores s t) ∧
      (s.mode.top = .run → s.dbg.halt = none →
        exec (.haltFrameEnd p) s = .next { s with dbg := { s.dbg with halt := some (false, 1) } } ∧
        ∃ t, exec (.haltNow (some p)) s = .next t ∧ t.mode.ov.halt = true ∧ t.mode.base = s.mode.base ∧ t.dbg.halt = none ∧
          t.get F.DBG_STAT_SRC = 1 ∧ t.is F.DBG_STAT_CUT = true ∧ t.dbg.rsvHost = none ∧
          ∀ f < 24, (s.fld f).phase = .frame ∨ (s.fld f).phase = .late → (t.fld f).phase = .idle) ∧
      (s.mode.top = .bare → s.dbg.halt = none → exec (.haltFrameEnd p) s = .next (s.raise F.DBG_ERR_HALTREJ) ∧
        exec (.haltNow (some p)) s = .next (s.raise F.DBG_ERR_HALTREJ)) ∧
      (s.mode.ov.halt = false ∨ s.dbg.resume.isSome = true → exec (.release p) s = .next s) ∧
      (s.mode.ov.halt = true → s.dbg.resume = none → s.is F.DBG_CTL_RELAT = false → exec (.release p) s =
        .next { s with dbg := { s.dbg with resume := some (.after ((s.time.raw + 2000) % 2 ^ 48)) } }) ∧
      (s.mode.ov.halt = true → s.dbg.resume = none → s.is F.DBG_CTL_RELAT = true →
        let k := s.pair R.DBG_RELTICK_LO R.DBG_RELTICK_HI
        let d := (k + 2 ^ 48 - s.time.tick) % 2 ^ 48
        let far := s.toTick + (d - 1) * (s.period * 80)
        (0 < d → d < 2 ^ 47 → 2000 ≤ far → exec (.release p) s =
          .next { s with dbg := { s.dbg with resume := some (.atTick k) } }) ∧
        (d = 0 ∨ 2 ^ 47 ≤ d ∨ far < 2000 → ∃ t, exec (.release p) s = .next t ∧ t.is F.DBG_ERR_RELLATE = true ∧
          t.dbg.resume = some (.after ((s.time.raw + 2000) % 2 ^ 48)))) ∧
      exec (.rxtake p) s = .next (s.clear F.DBG_VT_STAT_RXFULL) ∧
      (∀ v, (s.is F.DBG_VT_STAT_TXFULL = true → exec (.vtTxWrite p v) s = .next (s.raise F.DBG_ERR_TXOVF)) ∧
        (s.is F.DBG_VT_STAT_TXFULL = false → ∃ t, exec (.vtTxWrite p v) s = .next t ∧ t.get F.DBG_VT_TX_DATA = v.toNat ∧
          t.is F.DBG_VT_STAT_TXFULL = true ∧ State.SameStores s t))) ∧
    ((∀ x, s.dbg.halt ≠ some (true, x)) → exec (.haltNow none) s = .next s) ∧
    (s.mode.ov.halt = false ∨ s.dbg.resume = none ∨ s.dbg.prepared = true → exec .resumePrepare s = .next s) ∧
    (s.mode.ov.halt = true → s.dbg.resume.isSome = true → s.dbg.prepared = false → ∃ t, exec .resumePrepare s = .next t ∧
      t.dbg = { s.dbg with prepared := true } ∧ t.mode = s.mode ∧ ∀ c < 8, s.domainOn (28 + c) = true →
        s.get (F.DRC_STAT_STATE c) = 3 → s.is (F.DRC_CTL_EN c) = true → t.get (F.DRC_STAT_STATE c) = 2) ∧
    (∀ k : Fin 4, let w := s.get (F.DBG_LC_CTL_WINDOW k)
      (∀ h, SMap.get s.dbg.firstHit none k = some h → w ≠ 0 → w ≤ (s.time.tick + 2 ^ 48 - h) % 2 ^ 48 → ∃ t,
        exec (.lcWindow k) s = .next t ∧ t.get (F.DBG_LC_STAT_CUR k) = 0 ∧ State.SameStores s t) ∧
      (SMap.get s.dbg.firstHit none k = none ∨ w = 0 ∨ s.get (F.DBG_LC_STAT_CUR k) = 0 → exec (.lcWindow k) s = .next s)) ∧
    (∀ cyc, (s.image 0 = none ∨ s.executes 0 cyc = false ∨ s.domainOn 1 = false →
        exec (.vtSend cyc) s = .next s ∧ exec (.take cyc) s = .next s) ∧
      ∀ i, s.image 0 = some i → s.executes 0 cyc = true → s.domainOn 1 = true → let t := s.comeTo 0 ((s.fld 0).base + cyc)
        let word (code : Nat) : Word := t.port16 i 0 255 ((s.fld 0).stamp cyc) code
        let c := i.vtTracks.getD (16, 16)
        State.Turned s t 0 ∧
        ((word c.1).getLsbD 0 = false ∨ t.is F.DBG_VT_STAT_RXFULL = true → exec (.vtSend cyc) s = .next t) ∧
        ((word c.1).getLsbD 0 = true → t.is F.DBG_VT_STAT_RXFULL = false → ∃ u, exec (.vtSend cyc) s = .next u ∧
          u.get F.DBG_VT_RX_DATA = (word c.2).toNat % 2 ^ 32 ∧ u.is F.DBG_VT_STAT_RXFULL = true ∧ State.SameStores t u) ∧
        exec (.take cyc) s = .next (if (word c.1).getLsbD 1 then t.clear F.DBG_VT_STAT_TXFULL else t)) ∧
    (∀ pins bits, s.power.powered = false → ∀ i ∈ [Instr.bypass bits, .samplePreload pins bits, .extest pins bits, .clamp bits, .highz bits,
      .idcode, .dbgReg 0], exec i s = .next s) ∧
    (s.power.powered = true → let tap (i : Instr) (t : TapSt) : Prop := exec i s = .next { s with tap := t }
      (∀ pins bits, let shifted := { s.tap with instr := TapInstr.bypass, bypass := bits.getLastD false }
        let scanned (i : TapInstr) : TapSt := { s.tap with instr := i, cells := (bits.reverse ++ pins).take pins.length }
        tap (.bypass bits) shifted ∧ tap (.samplePreload pins bits) (scanned .samplePreload) ∧
        (s.scanAllowed = true → tap (.extest pins bits) (scanned .extest) ∧ tap (.clamp bits) { shifted with instr := .clamp } ∧
          tap (.highz bits) { shifted with instr := .highz }) ∧
        (s.scanAllowed = false → tap (.extest pins bits) shifted ∧ tap (.clamp bits) shifted ∧ tap (.highz bits) shifted)) ∧
      (∃ c : BitVec 32, tap .idcode { s.tap with instr := .idcode, idreg := c } ∧ c.extractLsb' 12 16 = 0x4824 ∧ c.getLsbD 0 = true ∧
        (c.extractLsb' 28 4).toNat = s.fuses.rev % 16) ∧
      (∀ w : BitVec 58, s.tap.busy = false → (w.extractLsb' 32 24).toNat % 4 = 0 → w.getLsbD 56 = true → ∃ t, exec (.dbgReg w) s = .next t ∧
        t.tap.instr = .dbgReg ∧ t.tap.capture.extractLsb' 0 32 = w.extractLsb' 0 32 ∧ t.tap.capture.getLsbD 57 = true ∧
        t.regs = (s.busWrite .debug (w.extractLsb' 32 24).toNat (w.extractLsb' 0 32).toNat).regs)) ∧
    (∃ t, exec .tapReset s = .next t ∧ t.debugPath = .zero ∧ t.dbg = { s.dbg with rsvDebug := none } ∧ t.regs = s.regs ∧
      (s.power.powered = true → t.tap.instr = .idcode)) ∧
    (∀ k : Fin 8, let off := SMap.get s.pins.off false k; let back := SMap.get s.pins.back false k
      (s.power.powered = false ∨ s.domainOn 1 = false → exec (.vccioFault k) s = .next s ∧ exec (.vccioReturn k) s = .next s) ∧
      (s.power.powered = true → s.domainOn 1 = true → (off = true → back = false → exec (.vccioFault k) s = .next s) ∧
        (off = false ∨ back = true → ∃ t, exec (.vccioFault k) s = .next t ∧ SMap.get t.pins.off false k = true ∧
          SMap.get t.pins.back false k = false ∧ State.LogOnly { s with pins := t.pins } t) ∧
        (off = false → exec (.vccioReturn k) s = .next s) ∧
        (off = true → ∃ t, exec (.vccioReturn k) s = .next t ∧ SMap.get t.pins.back false k = true ∧ t.pins.off = s.pins.off)))

/-- The command at the front of the queue is what a step executes, on the state with the queue's rest; on an empty queue the
block idles: RAW, the 1 GHz count of R243, advances by one unless the edge of a tick not yet commanded has come, and no tick
happens. The model's readings and choices: log entries 1, 3. -/
def Obligations.StepExecutesTheFront : Prop :=
  (∀ (c : Instr) (s : State), step { s with pending := c :: s.pending } = exec c s) ∧
  ∀ s : State, s.pending = [] → ∃ t, step s = .next t ∧ t.pending = [] ∧ t.time.tick = s.time.tick ∧
    (s.time.running = true → t.time.raw = if s.time.nextTick = some s.time.raw then s.time.raw else (s.time.raw + 1) % 2 ^ 48)

/-- State.reset meets the invariant that every step keeps: block memories in canonical form, each register listed once, a
base mode of R23 beneath the overlays; nothing waits, the device is in BARE with no overlay (R23, R408), and every register
reads its reset value. The model's readings and choices: log entries 2, 5, 57. -/
def Obligations.InvariantAtReset : Prop :=
  State.reset.Inv ∧ State.reset.pending = [] ∧ State.reset.mode.top = .bare ∧ State.reset.mode.busy = false ∧
    ∀ r : RegRef, State.reset.reg r = r.rst % 2 ^ 32

/-- R23, R148: in every state that meets the invariant a step answers a next state, which meets it again: the block memories
stay in canonical form, each register is listed once and the mode beneath the overlays stays a base mode; and the queue has
lost its front alone. The model's readings and choices: log entries 1, 70. -/
def Obligations.EveryStepKeepsTheInvariant : Prop :=
  ∀ s : State, s.Inv → ∃ t, step s = .next t ∧ t.Inv ∧ t.pending = s.pending.tail
end

