-- ==== Sys2Proof/Laws/Maps.lean ====
section
/-! SUPPORT. The sparse map: reading after writing, and that every operation keeps the canonical form. -/
namespace Sys2Proof.Machine

/-! ## Reading after writing -/

theorem SMap.find?_insert_same {α : Type} (m : SMap α) (i : Nat) (x : α) : SMap.find? (SMap.insert m i x) i = some x := by
  induction m with
  | nil => simp [SMap.insert, SMap.find?]
  | cons e m ih =>
    obtain ⟨k, v⟩ := e
    unfold SMap.insert
    split
    · simp [SMap.find?]
    · split
      · simp [SMap.find?]
      · next h _ => simp [SMap.find?, h, ih]

theorem SMap.find?_insert_other {α : Type} (m : SMap α) {i j : Nat} (x : α) (h : j ≠ i) :
    SMap.find? (SMap.insert m i x) j = SMap.find? m j := by
  induction m with
  | nil => simp [SMap.insert, SMap.find?, h]
  | cons e m ih =>
    obtain ⟨k, v⟩ := e
    unfold SMap.insert
    split
    · next hk => subst hk; simp [SMap.find?, h]
    · split
      · simp [SMap.find?, h]
      · simp [SMap.find?, ih]

theorem SMap.find?_filter_same {α : Type} (m : SMap α) (i : Nat) : SMap.find? (SMap.erase m i) i = none := by
  induction m with
  | nil => rfl
  | cons e m ih =>
    obtain ⟨k, v⟩ := e
    unfold SMap.erase at ih ⊢
    by_cases hk : k = i
    · simp [hk, ih]
    · simp [hk, SMap.find?, ih, Ne.symm hk]

theorem SMap.find?_filter_key {α : Type} (m : SMap α) (p : Nat → Bool) {j : Nat} (h : p j = true) :
    SMap.find? (m.filter fun e => p e.1) j = SMap.find? m j := by
  induction m with
  | nil => rfl
  | cons e m ih =>
    obtain ⟨k, v⟩ := e
    by_cases hk : p k
    · simp [hk, SMap.find?, ih]
    · have : j ≠ k := fun hj => hk (hj ▸ h)
      simp [hk, SMap.find?, this, ih]

theorem SMap.find?_erase_other {α : Type} (m : SMap α) {i j : Nat} (h : j ≠ i) :
    SMap.find? (SMap.erase m i) j = SMap.find? m j :=
  SMap.find?_filter_key m (fun k => !(k == i)) (by simp [h])

/-- A key reads as what was written to it. -/
@[simp] theorem SMap.get_set_same {α : Type} [DecidableEq α] (m : SMap α) (d : α) (i : Nat) (x : α) :
    SMap.get (SMap.set m d i x) d i = x := by
  unfold SMap.set SMap.get
  split
  · next h => simp [SMap.find?_filter_same, h]
  · simp [SMap.find?_insert_same]

/-- A write leaves every other key alone. -/
theorem SMap.get_set_other {α : Type} [DecidableEq α] (m : SMap α) (d d' : α) {i j : Nat} (x : α) (h : j ≠ i) :
    SMap.get (SMap.set m d i x) d' j = SMap.get m d' j := by
  unfold SMap.set SMap.get
  split
  · rw [SMap.find?_erase_other m h]
  · rw [SMap.find?_insert_other m x h]

/-- Dropping keys leaves the others alone. -/
theorem SMap.get_drop_other {α : Type} (p : Nat → Bool) (m : SMap α) (d : α) {j : Nat} (h : p j = false) :
    SMap.get (SMap.drop p m) d j = SMap.get m d j := by
  unfold SMap.drop SMap.get
  rw [SMap.find?_filter_key m (fun k => !p k) (by simp [h])]

/-! ## The canonical form -/

theorem SMap.wfFrom_mono {α : Type} [DecidableEq α] (d : α) {lo lo' : Nat} (h : lo' ≤ lo) :
    ∀ m : SMap α, SMap.wfFrom d lo m = true → SMap.wfFrom d lo' m = true
  | [], _ => rfl
  | (k, v) :: m, hm => by
    simp only [SMap.wfFrom, Bool.and_eq_true, decide_eq_true_eq] at hm ⊢
    exact ⟨⟨by omega, hm.1.2⟩, hm.2⟩

theorem SMap.wfFrom_filter {α : Type} [DecidableEq α] (d : α) (p : Nat × α → Bool) :
    ∀ (lo : Nat) (m : SMap α), SMap.wfFrom d lo m = true → SMap.wfFrom d lo (m.filter p) = true
  | _, [], _ => rfl
  | lo, (k, v) :: m, hm => by
    simp only [SMap.wfFrom, Bool.and_eq_true, decide_eq_true_eq] at hm
    have ih := SMap.wfFrom_filter d p (k + 1) m hm.2
    by_cases hp : p (k, v)
    · simp [hp, SMap.wfFrom, hm.1.1, hm.1.2, ih]
    · simpa [List.filter_cons, hp] using SMap.wfFrom_mono d (by omega) _ ih

theorem SMap.wfFrom_insert {α : Type} [DecidableEq α] {d x : α} (hx : x ≠ d) {i : Nat} :
    ∀ {lo : Nat} (m : SMap α), lo ≤ i → SMap.wfFrom d lo m = true → SMap.wfFrom d lo (SMap.insert m i x) = true
  | lo, [], h, _ => by simp [SMap.insert, SMap.wfFrom, h, hx]
  | lo, (k, v) :: m, h, hm => by
    simp only [SMap.wfFrom, Bool.and_eq_true, decide_eq_true_eq] at hm
    unfold SMap.insert
    split
    · next hk => subst hk; simp [SMap.wfFrom, h, hx, hm.2]
    · split
      · simp [SMap.wfFrom, h, hx, hm.1.2, hm.2]; omega
      · have ih := SMap.wfFrom_insert hx (i := i) (lo := k + 1) m (by omega) hm.2
        simp [SMap.wfFrom, hm.1.1, hm.1.2, ih]

/-- A write keeps the canonical form. -/
theorem SMap.wf_set {α : Type} [DecidableEq α] {d : α} {m : SMap α} (i : Nat) (x : α) (h : SMap.wf d m = true) :
    SMap.wf d (SMap.set m d i x) = true := by
  unfold SMap.set SMap.wf
  split
  · exact SMap.wfFrom_filter d _ 0 m h
  · next hx => exact SMap.wfFrom_insert hx m (Nat.zero_le _) h

/-- Dropping entries keeps the canonical form. -/
theorem SMap.wf_filter {α : Type} [DecidableEq α] {d : α} {m : SMap α} (p : Nat × α → Bool) (h : SMap.wf d m = true) :
    SMap.wf d (m.filter p) = true := SMap.wfFrom_filter d p 0 m h
theorem SMap.wf_drop {α : Type} [DecidableEq α] {d : α} {m : SMap α} (p : Nat → Bool) (h : SMap.wf d m = true) :
    SMap.wf d (SMap.drop p m) = true := SMap.wf_filter _ h

theorem SMap.wfFrom_mapIn {α : Type} [DecidableEq α] (d : α) (a b : Nat) (g : Nat → α → α) :
    ∀ (lo : Nat) (m : SMap α), SMap.wfFrom d lo m = true → SMap.wfFrom d lo (SMap.mapIn d a b g m) = true
  | _, [], _ => rfl
  | lo, (k, v) :: m, hm => by
    simp only [SMap.wfFrom, Bool.and_eq_true, decide_eq_true_eq] at hm
    have ih := SMap.wfFrom_mapIn d a b g (k + 1) m hm.2
    unfold SMap.mapIn at ih ⊢
    rw [List.filterMap_cons]
    by_cases hv : (if a ≤ k ∧ k < b then g k v else v) = d
    · simpa [hv] using SMap.wfFrom_mono d (by omega) _ ih
    · simp only [hv, if_false, SMap.wfFrom, Bool.and_eq_true, decide_eq_true_eq]
      exact ⟨⟨hm.1.1, hv⟩, ih⟩
/-- Changing entries of a range keeps the canonical form. -/
theorem SMap.wf_mapIn {α : Type} [DecidableEq α] {d : α} {m : SMap α} (a b : Nat) (g : Nat → α → α)
    (h : SMap.wf d m = true) : SMap.wf d (SMap.mapIn d a b g m) = true := SMap.wfFrom_mapIn d a b g 0 m h

/-- A table in canonical form is the concatenation of its parts below and above a bound. -/
theorem SMap.wfFrom_append {α : Type} [DecidableEq α] {d : α} {mid : Nat} {b : SMap α}
    (hb : SMap.wfFrom d mid b = true) :
    ∀ (lo : Nat) (a : SMap α), (∀ e ∈ a, e.1 < mid) → SMap.wfFrom d lo a = true → lo ≤ mid →
      SMap.wfFrom d lo (a ++ b) = true
  | _, [], _, _, hl => SMap.wfFrom_mono d hl b hb
  | lo, (k, v) :: a, hk, ha, _ => by
    simp only [SMap.wfFrom, Bool.and_eq_true, decide_eq_true_eq] at ha
    have h0 := hk (k, v) (List.mem_cons_self ..)
    have ih := SMap.wfFrom_append hb (k + 1) a (fun e he => hk e (List.mem_cons_of_mem _ he)) ha.2 (Nat.succ_le_of_lt h0)
    simp [SMap.wfFrom, ha.1.1, ha.1.2, ih]

theorem SMap.wfFrom_above {α : Type} [DecidableEq α] (d : α) (b : Nat) :
    ∀ (lo : Nat) (m : SMap α), SMap.wfFrom d lo m = true → SMap.wfFrom d b (m.filter fun e => decide (b ≤ e.1)) = true
  | _, [], _ => rfl
  | lo, (k, v) :: m, hm => by
    simp only [SMap.wfFrom, Bool.and_eq_true, decide_eq_true_eq] at hm
    by_cases hp : b ≤ k
    · have h := SMap.wfFrom_filter d (fun e => decide (b ≤ e.1)) (k + 1) m hm.2
      simp [hp, SMap.wfFrom, hm.1.2, h]
    · simpa [List.filter_cons, hp] using SMap.wfFrom_above d b (k + 1) m hm.2

theorem SMap.wfFrom_run {α : Type} [DecidableEq α] {d v : α} (hv : v ≠ d) (n lo : Nat) :
    SMap.wfFrom d lo ((List.range n).map fun i => (lo + i, v)) = true := by
  induction n generalizing lo with
  | zero => rfl
  | succ n ih =>
    rw [List.range_succ_eq_map]
    simp only [List.map_cons, List.map_map, SMap.wfFrom, Bool.and_eq_true, decide_eq_true_eq]
    refine ⟨⟨by omega, hv⟩, ?_⟩
    have := ih (lo + 1)
    simpa [Function.comp_def, Nat.add_assoc, Nat.add_comm 1] using this

/-- Filling a range keeps the canonical form. -/
theorem SMap.wf_putRange {α : Type} [DecidableEq α] {d v : α} {m : SMap α} (lo n : Nat) (hv : v ≠ d)
    (h : SMap.wf d m = true) : SMap.wf d (SMap.putRange m lo n v) = true := by
  have h1 := SMap.wfFrom_filter d (fun e => decide (e.1 < lo)) 0 m h
  have h2 := SMap.wfFrom_run (d := d) hv n lo
  have h3 := SMap.wfFrom_above d (lo + n) 0 m h
  have h12 := SMap.wfFrom_append h2 0 _ (by intro e he; simpa using (List.mem_filter.mp he).2) h1 (Nat.zero_le _)
  refine SMap.wfFrom_append h3 0 _ ?_ h12 (Nat.zero_le _)
  intro e he
  rcases List.mem_append.mp he with he | he
  · have := (List.mem_filter.mp he).2
    simp at this
    omega
  · obtain ⟨i, hi, rfl⟩ := List.mem_map.mp he
    have := List.mem_range.mp hi
    show lo + i < lo + n
    omega

/-! ## Rising keys -/

theorem SMap.risingFrom_mono {α : Type} {lo lo' : Nat} (h : lo' ≤ lo) :
    ∀ m : SMap α, SMap.risingFrom lo m = true → SMap.risingFrom lo' m = true
  | [], _ => rfl
  | (k, v) :: m, hm => by
    simp only [SMap.risingFrom, Bool.and_eq_true, decide_eq_true_eq] at hm ⊢
    exact ⟨by omega, hm.2⟩
theorem SMap.risingFrom_filter {α : Type} (p : Nat × α → Bool) :
    ∀ (lo : Nat) (m : SMap α), SMap.risingFrom lo m = true → SMap.risingFrom lo (m.filter p) = true
  | _, [], _ => rfl
  | lo, (k, v) :: m, hm => by
    simp only [SMap.risingFrom, Bool.and_eq_true, decide_eq_true_eq] at hm
    have ih := SMap.risingFrom_filter p (k + 1) m hm.2
    by_cases hp : p (k, v)
    · simp [hp, SMap.risingFrom, hm.1, ih]
    · simpa [List.filter_cons, hp] using SMap.risingFrom_mono (by omega) _ ih
theorem SMap.risingFrom_filterMap {α : Type} {g : Nat × α → Option (Nat × α)} (hg : ∀ e x, g e = some x → x.1 = e.1) :
    ∀ (lo : Nat) (m : SMap α), SMap.risingFrom lo m = true → SMap.risingFrom lo (m.filterMap g) = true
  | _, [], _ => rfl
  | lo, (k, v) :: m, hm => by
    simp only [SMap.risingFrom, Bool.and_eq_true, decide_eq_true_eq] at hm
    have ih := SMap.risingFrom_filterMap hg (k + 1) m hm.2
    rw [List.filterMap_cons]
    split
    · exact SMap.risingFrom_mono (by omega) _ ih
    · next x hx =>
      have hk : x.1 = k := hg _ _ hx
      obtain ⟨k', v'⟩ := x
      subst hk
      simp [SMap.risingFrom, hm.1, ih]
theorem SMap.risingFrom_insert {α : Type} (x : α) {i : Nat} :
    ∀ {lo : Nat} (m : SMap α), lo ≤ i → SMap.risingFrom lo m = true → SMap.risingFrom lo (SMap.insert m i x) = true
  | lo, [], h, _ => by simp [SMap.insert, SMap.risingFrom, h]
  | lo, (k, v) :: m, h, hm => by
    simp only [SMap.risingFrom, Bool.and_eq_true, decide_eq_true_eq] at hm
    unfold SMap.insert
    split
    · next hk => subst hk; simp [SMap.risingFrom, h, hm.2]
    · split
      · simp [SMap.risingFrom, h, hm.2]; omega
      · have ih := SMap.risingFrom_insert x (i := i) (lo := k + 1) m (by omega) hm.2
        simp [SMap.risingFrom, hm.1, ih]
theorem SMap.rising_set {α : Type} [DecidableEq α] {m : SMap α} (d : α) (i : Nat) (x : α)
    (h : SMap.risingFrom 0 m = true) : SMap.risingFrom 0 (SMap.set m d i x) = true := by
  unfold SMap.set
  split
  · exact SMap.risingFrom_filter _ 0 m h
  · exact SMap.risingFrom_insert x m (Nat.zero_le _) h
theorem SMap.rising_inserts {α : Type} (l : List (Nat × α)) :
    ∀ {m : SMap α}, SMap.risingFrom 0 m = true → SMap.risingFrom 0 (l.foldl (fun m e => SMap.insert m e.1 e.2) m) = true := by
  induction l with
  | nil => intro m h; exact h
  | cons e l ih => intro m h; exact ih (SMap.risingFrom_insert e.2 m (Nat.zero_le _) h)

end Sys2Proof.Machine
end

