-- ==== Sys2Proof/Laws/State.lean ====
section
/-! SUPPORT. What each named update of the state leaves as it was, one lemma for each field, and what it reads back as. -/
namespace Sys2Proof.Machine

/-! setReg -/

@[simp] theorem State.setReg_pending (s : State) (r : RegRef) (v : Nat) : (s.setReg r v).pending = s.pending := rfl
@[simp] theorem State.setReg_staged (s : State) (r : RegRef) (v : Nat) : (s.setReg r v).staged = s.staged := rfl
@[simp] theorem State.setReg_hostPath (s : State) (r : RegRef) (v : Nat) : (s.setReg r v).hostPath = s.hostPath := rfl
@[simp] theorem State.setReg_debugPath (s : State) (r : RegRef) (v : Nat) : (s.setReg r v).debugPath = s.debugPath := rfl
@[simp] theorem State.setReg_stewardPath (s : State) (r : RegRef) (v : Nat) : (s.setReg r v).stewardPath = s.stewardPath := rfl
@[simp] theorem State.setReg_readOut (s : State) (r : RegRef) (v : Nat) : (s.setReg r v).readOut = s.readOut := rfl
@[simp] theorem State.setReg_mode (s : State) (r : RegRef) (v : Nat) : (s.setReg r v).mode = s.mode := rfl
@[simp] theorem State.setReg_time (s : State) (r : RegRef) (v : Nat) : (s.setReg r v).time = s.time := rfl
@[simp] theorem State.setReg_seqs (s : State) (r : RegRef) (v : Nat) : (s.setReg r v).seqs = s.seqs := rfl
@[simp] theorem State.setReg_pass (s : State) (r : RegRef) (v : Nat) : (s.setReg r v).pass = s.pass := rfl
@[simp] theorem State.setReg_tt (s : State) (r : RegRef) (v : Nat) : (s.setReg r v).tt = s.tt := rfl
@[simp] theorem State.setReg_matrix (s : State) (r : RegRef) (v : Nat) : (s.setReg r v).matrix = s.matrix := rfl
@[simp] theorem State.setReg_tsp (s : State) (r : RegRef) (v : Nat) : (s.setReg r v).tsp = s.tsp := rfl
@[simp] theorem State.setReg_log (s : State) (r : RegRef) (v : Nat) : (s.setReg r v).log = s.log := rfl
@[simp] theorem State.setReg_hostOut (s : State) (r : RegRef) (v : Nat) : (s.setReg r v).hostOut = s.hostOut := rfl
@[simp] theorem State.setReg_host (s : State) (r : RegRef) (v : Nat) : (s.setReg r v).host = s.host := rfl
@[simp] theorem State.setReg_cells (s : State) (r : RegRef) (v : Nat) : (s.setReg r v).cells = s.cells := rfl
@[simp] theorem State.setReg_slices (s : State) (r : RegRef) (v : Nat) : (s.setReg r v).slices = s.slices := rfl
@[simp] theorem State.setReg_segs (s : State) (r : RegRef) (v : Nat) : (s.setReg r v).segs = s.segs := rfl
@[simp] theorem State.setReg_bmem (s : State) (r : RegRef) (v : Nat) : (s.setReg r v).bmem = s.bmem := rfl
@[simp] theorem State.setReg_queues (s : State) (r : RegRef) (v : Nat) : (s.setReg r v).queues = s.queues := rfl
@[simp] theorem State.setReg_fields (s : State) (r : RegRef) (v : Nat) : (s.setReg r v).fields = s.fields := rfl
@[simp] theorem State.setReg_routers (s : State) (r : RegRef) (v : Nat) : (s.setReg r v).routers = s.routers := rfl
@[simp] theorem State.setReg_spineNow (s : State) (r : RegRef) (v : Nat) : (s.setReg r v).spineNow = s.spineNow := rfl
@[simp] theorem State.setReg_nis (s : State) (r : RegRef) (v : Nat) : (s.setReg r v).nis = s.nis := rfl
@[simp] theorem State.setReg_ports (s : State) (r : RegRef) (v : Nat) : (s.setReg r v).ports = s.ports := rfl
@[simp] theorem State.setReg_lanes (s : State) (r : RegRef) (v : Nat) : (s.setReg r v).lanes = s.lanes := rfl
@[simp] theorem State.setReg_linkOut (s : State) (r : RegRef) (v : Nat) : (s.setReg r v).linkOut = s.linkOut := rfl
@[simp] theorem State.setReg_laneOut (s : State) (r : RegRef) (v : Nat) : (s.setReg r v).laneOut = s.laneOut := rfl
@[simp] theorem State.setReg_images (s : State) (r : RegRef) (v : Nat) : (s.setReg r v).images = s.images := rfl
@[simp] theorem State.setReg_cfg (s : State) (r : RegRef) (v : Nat) : (s.setReg r v).cfg = s.cfg := rfl
@[simp] theorem State.setReg_power (s : State) (r : RegRef) (v : Nat) : (s.setReg r v).power = s.power := rfl
@[simp] theorem State.setReg_straps (s : State) (r : RegRef) (v : Nat) : (s.setReg r v).straps = s.straps := rfl
@[simp] theorem State.setReg_fuses (s : State) (r : RegRef) (v : Nat) : (s.setReg r v).fuses = s.fuses := rfl
@[simp] theorem State.setReg_atReset (s : State) (r : RegRef) (v : Nat) : (s.setReg r v).atReset = s.atReset := rfl
@[simp] theorem State.setReg_tap (s : State) (r : RegRef) (v : Nat) : (s.setReg r v).tap = s.tap := rfl
@[simp] theorem State.setReg_pins (s : State) (r : RegRef) (v : Nat) : (s.setReg r v).pins = s.pins := rfl
@[simp] theorem State.setReg_drams (s : State) (r : RegRef) (v : Nat) : (s.setReg r v).drams = s.drams := rfl
@[simp] theorem State.setReg_cry (s : State) (r : RegRef) (v : Nat) : (s.setReg r v).cry = s.cry := rfl
@[simp] theorem State.setReg_stw (s : State) (r : RegRef) (v : Nat) : (s.setReg r v).stw = s.stw := rfl
@[simp] theorem State.setReg_bist (s : State) (r : RegRef) (v : Nat) : (s.setReg r v).bist = s.bist := rfl
@[simp] theorem State.setReg_dbg (s : State) (r : RegRef) (v : Nat) : (s.setReg r v).dbg = s.dbg := rfl
@[simp] theorem State.setReg_free (s : State) (r : RegRef) (v : Nat) : (s.setReg r v).free = s.free := rfl

/-! put -/

@[simp] theorem State.put_pending (s : State) (f : Fld) (v : Nat) : (s.put f v).pending = s.pending := rfl
@[simp] theorem State.put_staged (s : State) (f : Fld) (v : Nat) : (s.put f v).staged = s.staged := rfl
@[simp] theorem State.put_hostPath (s : State) (f : Fld) (v : Nat) : (s.put f v).hostPath = s.hostPath := rfl
@[simp] theorem State.put_debugPath (s : State) (f : Fld) (v : Nat) : (s.put f v).debugPath = s.debugPath := rfl
@[simp] theorem State.put_stewardPath (s : State) (f : Fld) (v : Nat) : (s.put f v).stewardPath = s.stewardPath := rfl
@[simp] theorem State.put_readOut (s : State) (f : Fld) (v : Nat) : (s.put f v).readOut = s.readOut := rfl
@[simp] theorem State.put_mode (s : State) (f : Fld) (v : Nat) : (s.put f v).mode = s.mode := rfl
@[simp] theorem State.put_time (s : State) (f : Fld) (v : Nat) : (s.put f v).time = s.time := rfl
@[simp] theorem State.put_seqs (s : State) (f : Fld) (v : Nat) : (s.put f v).seqs = s.seqs := rfl
@[simp] theorem State.put_pass (s : State) (f : Fld) (v : Nat) : (s.put f v).pass = s.pass := rfl
@[simp] theorem State.put_tt (s : State) (f : Fld) (v : Nat) : (s.put f v).tt = s.tt := rfl
@[simp] theorem State.put_matrix (s : State) (f : Fld) (v : Nat) : (s.put f v).matrix = s.matrix := rfl
@[simp] theorem State.put_tsp (s : State) (f : Fld) (v : Nat) : (s.put f v).tsp = s.tsp := rfl
@[simp] theorem State.put_log (s : State) (f : Fld) (v : Nat) : (s.put f v).log = s.log := rfl
@[simp] theorem State.put_hostOut (s : State) (f : Fld) (v : Nat) : (s.put f v).hostOut = s.hostOut := rfl
@[simp] theorem State.put_host (s : State) (f : Fld) (v : Nat) : (s.put f v).host = s.host := rfl
@[simp] theorem State.put_cells (s : State) (f : Fld) (v : Nat) : (s.put f v).cells = s.cells := rfl
@[simp] theorem State.put_slices (s : State) (f : Fld) (v : Nat) : (s.put f v).slices = s.slices := rfl
@[simp] theorem State.put_segs (s : State) (f : Fld) (v : Nat) : (s.put f v).segs = s.segs := rfl
@[simp] theorem State.put_bmem (s : State) (f : Fld) (v : Nat) : (s.put f v).bmem = s.bmem := rfl
@[simp] theorem State.put_queues (s : State) (f : Fld) (v : Nat) : (s.put f v).queues = s.queues := rfl
@[simp] theorem State.put_fields (s : State) (f : Fld) (v : Nat) : (s.put f v).fields = s.fields := rfl
@[simp] theorem State.put_routers (s : State) (f : Fld) (v : Nat) : (s.put f v).routers = s.routers := rfl
@[simp] theorem State.put_spineNow (s : State) (f : Fld) (v : Nat) : (s.put f v).spineNow = s.spineNow := rfl
@[simp] theorem State.put_nis (s : State) (f : Fld) (v : Nat) : (s.put f v).nis = s.nis := rfl
@[simp] theorem State.put_ports (s : State) (f : Fld) (v : Nat) : (s.put f v).ports = s.ports := rfl
@[simp] theorem State.put_lanes (s : State) (f : Fld) (v : Nat) : (s.put f v).lanes = s.lanes := rfl
@[simp] theorem State.put_linkOut (s : State) (f : Fld) (v : Nat) : (s.put f v).linkOut = s.linkOut := rfl
@[simp] theorem State.put_laneOut (s : State) (f : Fld) (v : Nat) : (s.put f v).laneOut = s.laneOut := rfl
@[simp] theorem State.put_images (s : State) (f : Fld) (v : Nat) : (s.put f v).images = s.images := rfl
@[simp] theorem State.put_cfg (s : State) (f : Fld) (v : Nat) : (s.put f v).cfg = s.cfg := rfl
@[simp] theorem State.put_power (s : State) (f : Fld) (v : Nat) : (s.put f v).power = s.power := rfl
@[simp] theorem State.put_straps (s : State) (f : Fld) (v : Nat) : (s.put f v).straps = s.straps := rfl
@[simp] theorem State.put_fuses (s : State) (f : Fld) (v : Nat) : (s.put f v).fuses = s.fuses := rfl
@[simp] theorem State.put_atReset (s : State) (f : Fld) (v : Nat) : (s.put f v).atReset = s.atReset := rfl
@[simp] theorem State.put_tap (s : State) (f : Fld) (v : Nat) : (s.put f v).tap = s.tap := rfl
@[simp] theorem State.put_pins (s : State) (f : Fld) (v : Nat) : (s.put f v).pins = s.pins := rfl
@[simp] theorem State.put_drams (s : State) (f : Fld) (v : Nat) : (s.put f v).drams = s.drams := rfl
@[simp] theorem State.put_cry (s : State) (f : Fld) (v : Nat) : (s.put f v).cry = s.cry := rfl
@[simp] theorem State.put_stw (s : State) (f : Fld) (v : Nat) : (s.put f v).stw = s.stw := rfl
@[simp] theorem State.put_bist (s : State) (f : Fld) (v : Nat) : (s.put f v).bist = s.bist := rfl
@[simp] theorem State.put_dbg (s : State) (f : Fld) (v : Nat) : (s.put f v).dbg = s.dbg := rfl
@[simp] theorem State.put_free (s : State) (f : Fld) (v : Nat) : (s.put f v).free = s.free := rfl

/-! raise -/

@[simp] theorem State.raise_pending (s : State) (f : Fld) : (s.raise f).pending = s.pending := rfl
@[simp] theorem State.raise_staged (s : State) (f : Fld) : (s.raise f).staged = s.staged := rfl
@[simp] theorem State.raise_hostPath (s : State) (f : Fld) : (s.raise f).hostPath = s.hostPath := rfl
@[simp] theorem State.raise_debugPath (s : State) (f : Fld) : (s.raise f).debugPath = s.debugPath := rfl
@[simp] theorem State.raise_stewardPath (s : State) (f : Fld) : (s.raise f).stewardPath = s.stewardPath := rfl
@[simp] theorem State.raise_readOut (s : State) (f : Fld) : (s.raise f).readOut = s.readOut := rfl
@[simp] theorem State.raise_mode (s : State) (f : Fld) : (s.raise f).mode = s.mode := rfl
@[simp] theorem State.raise_time (s : State) (f : Fld) : (s.raise f).time = s.time := rfl
@[simp] theorem State.raise_seqs (s : State) (f : Fld) : (s.raise f).seqs = s.seqs := rfl
@[simp] theorem State.raise_pass (s : State) (f : Fld) : (s.raise f).pass = s.pass := rfl
@[simp] theorem State.raise_tt (s : State) (f : Fld) : (s.raise f).tt = s.tt := rfl
@[simp] theorem State.raise_matrix (s : State) (f : Fld) : (s.raise f).matrix = s.matrix := rfl
@[simp] theorem State.raise_tsp (s : State) (f : Fld) : (s.raise f).tsp = s.tsp := rfl
@[simp] theorem State.raise_log (s : State) (f : Fld) : (s.raise f).log = s.log := rfl
@[simp] theorem State.raise_hostOut (s : State) (f : Fld) : (s.raise f).hostOut = s.hostOut := rfl
@[simp] theorem State.raise_host (s : State) (f : Fld) : (s.raise f).host = s.host := rfl
@[simp] theorem State.raise_cells (s : State) (f : Fld) : (s.raise f).cells = s.cells := rfl
@[simp] theorem State.raise_slices (s : State) (f : Fld) : (s.raise f).slices = s.slices := rfl
@[simp] theorem State.raise_segs (s : State) (f : Fld) : (s.raise f).segs = s.segs := rfl
@[simp] theorem State.raise_bmem (s : State) (f : Fld) : (s.raise f).bmem = s.bmem := rfl
@[simp] theorem State.raise_queues (s : State) (f : Fld) : (s.raise f).queues = s.queues := rfl
@[simp] theorem State.raise_fields (s : State) (f : Fld) : (s.raise f).fields = s.fields := rfl
@[simp] theorem State.raise_routers (s : State) (f : Fld) : (s.raise f).routers = s.routers := rfl
@[simp] theorem State.raise_spineNow (s : State) (f : Fld) : (s.raise f).spineNow = s.spineNow := rfl
@[simp] theorem State.raise_nis (s : State) (f : Fld) : (s.raise f).nis = s.nis := rfl
@[simp] theorem State.raise_ports (s : State) (f : Fld) : (s.raise f).ports = s.ports := rfl
@[simp] theorem State.raise_lanes (s : State) (f : Fld) : (s.raise f).lanes = s.lanes := rfl
@[simp] theorem State.raise_linkOut (s : State) (f : Fld) : (s.raise f).linkOut = s.linkOut := rfl
@[simp] theorem State.raise_laneOut (s : State) (f : Fld) : (s.raise f).laneOut = s.laneOut := rfl
@[simp] theorem State.raise_images (s : State) (f : Fld) : (s.raise f).images = s.images := rfl
@[simp] theorem State.raise_cfg (s : State) (f : Fld) : (s.raise f).cfg = s.cfg := rfl
@[simp] theorem State.raise_power (s : State) (f : Fld) : (s.raise f).power = s.power := rfl
@[simp] theorem State.raise_straps (s : State) (f : Fld) : (s.raise f).straps = s.straps := rfl
@[simp] theorem State.raise_fuses (s : State) (f : Fld) : (s.raise f).fuses = s.fuses := rfl
@[simp] theorem State.raise_atReset (s : State) (f : Fld) : (s.raise f).atReset = s.atReset := rfl
@[simp] theorem State.raise_tap (s : State) (f : Fld) : (s.raise f).tap = s.tap := rfl
@[simp] theorem State.raise_pins (s : State) (f : Fld) : (s.raise f).pins = s.pins := rfl
@[simp] theorem State.raise_drams (s : State) (f : Fld) : (s.raise f).drams = s.drams := rfl
@[simp] theorem State.raise_cry (s : State) (f : Fld) : (s.raise f).cry = s.cry := rfl
@[simp] theorem State.raise_stw (s : State) (f : Fld) : (s.raise f).stw = s.stw := rfl
@[simp] theorem State.raise_bist (s : State) (f : Fld) : (s.raise f).bist = s.bist := rfl
@[simp] theorem State.raise_dbg (s : State) (f : Fld) : (s.raise f).dbg = s.dbg := rfl
@[simp] theorem State.raise_free (s : State) (f : Fld) : (s.raise f).free = s.free := rfl

/-! clear -/

@[simp] theorem State.clear_pending (s : State) (f : Fld) : (s.clear f).pending = s.pending := rfl
@[simp] theorem State.clear_staged (s : State) (f : Fld) : (s.clear f).staged = s.staged := rfl
@[simp] theorem State.clear_hostPath (s : State) (f : Fld) : (s.clear f).hostPath = s.hostPath := rfl
@[simp] theorem State.clear_debugPath (s : State) (f : Fld) : (s.clear f).debugPath = s.debugPath := rfl
@[simp] theorem State.clear_stewardPath (s : State) (f : Fld) : (s.clear f).stewardPath = s.stewardPath := rfl
@[simp] theorem State.clear_readOut (s : State) (f : Fld) : (s.clear f).readOut = s.readOut := rfl
@[simp] theorem State.clear_mode (s : State) (f : Fld) : (s.clear f).mode = s.mode := rfl
@[simp] theorem State.clear_time (s : State) (f : Fld) : (s.clear f).time = s.time := rfl
@[simp] theorem State.clear_seqs (s : State) (f : Fld) : (s.clear f).seqs = s.seqs := rfl
@[simp] theorem State.clear_pass (s : State) (f : Fld) : (s.clear f).pass = s.pass := rfl
@[simp] theorem State.clear_tt (s : State) (f : Fld) : (s.clear f).tt = s.tt := rfl
@[simp] theorem State.clear_matrix (s : State) (f : Fld) : (s.clear f).matrix = s.matrix := rfl
@[simp] theorem State.clear_tsp (s : State) (f : Fld) : (s.clear f).tsp = s.tsp := rfl
@[simp] theorem State.clear_log (s : State) (f : Fld) : (s.clear f).log = s.log := rfl
@[simp] theorem State.clear_hostOut (s : State) (f : Fld) : (s.clear f).hostOut = s.hostOut := rfl
@[simp] theorem State.clear_host (s : State) (f : Fld) : (s.clear f).host = s.host := rfl
@[simp] theorem State.clear_cells (s : State) (f : Fld) : (s.clear f).cells = s.cells := rfl
@[simp] theorem State.clear_slices (s : State) (f : Fld) : (s.clear f).slices = s.slices := rfl
@[simp] theorem State.clear_segs (s : State) (f : Fld) : (s.clear f).segs = s.segs := rfl
@[simp] theorem State.clear_bmem (s : State) (f : Fld) : (s.clear f).bmem = s.bmem := rfl
@[simp] theorem State.clear_queues (s : State) (f : Fld) : (s.clear f).queues = s.queues := rfl
@[simp] theorem State.clear_fields (s : State) (f : Fld) : (s.clear f).fields = s.fields := rfl
@[simp] theorem State.clear_routers (s : State) (f : Fld) : (s.clear f).routers = s.routers := rfl
@[simp] theorem State.clear_spineNow (s : State) (f : Fld) : (s.clear f).spineNow = s.spineNow := rfl
@[simp] theorem State.clear_nis (s : State) (f : Fld) : (s.clear f).nis = s.nis := rfl
@[simp] theorem State.clear_ports (s : State) (f : Fld) : (s.clear f).ports = s.ports := rfl
@[simp] theorem State.clear_lanes (s : State) (f : Fld) : (s.clear f).lanes = s.lanes := rfl
@[simp] theorem State.clear_linkOut (s : State) (f : Fld) : (s.clear f).linkOut = s.linkOut := rfl
@[simp] theorem State.clear_laneOut (s : State) (f : Fld) : (s.clear f).laneOut = s.laneOut := rfl
@[simp] theorem State.clear_images (s : State) (f : Fld) : (s.clear f).images = s.images := rfl
@[simp] theorem State.clear_cfg (s : State) (f : Fld) : (s.clear f).cfg = s.cfg := rfl
@[simp] theorem State.clear_power (s : State) (f : Fld) : (s.clear f).power = s.power := rfl
@[simp] theorem State.clear_straps (s : State) (f : Fld) : (s.clear f).straps = s.straps := rfl
@[simp] theorem State.clear_fuses (s : State) (f : Fld) : (s.clear f).fuses = s.fuses := rfl
@[simp] theorem State.clear_atReset (s : State) (f : Fld) : (s.clear f).atReset = s.atReset := rfl
@[simp] theorem State.clear_tap (s : State) (f : Fld) : (s.clear f).tap = s.tap := rfl
@[simp] theorem State.clear_pins (s : State) (f : Fld) : (s.clear f).pins = s.pins := rfl
@[simp] theorem State.clear_drams (s : State) (f : Fld) : (s.clear f).drams = s.drams := rfl
@[simp] theorem State.clear_cry (s : State) (f : Fld) : (s.clear f).cry = s.cry := rfl
@[simp] theorem State.clear_stw (s : State) (f : Fld) : (s.clear f).stw = s.stw := rfl
@[simp] theorem State.clear_bist (s : State) (f : Fld) : (s.clear f).bist = s.bist := rfl
@[simp] theorem State.clear_dbg (s : State) (f : Fld) : (s.clear f).dbg = s.dbg := rfl
@[simp] theorem State.clear_free (s : State) (f : Fld) : (s.clear f).free = s.free := rfl

/-! bump -/

@[simp] theorem State.bump_pending (s : State) (f : Fld) (n : Nat) : (s.bump f n).pending = s.pending := rfl
@[simp] theorem State.bump_staged (s : State) (f : Fld) (n : Nat) : (s.bump f n).staged = s.staged := rfl
@[simp] theorem State.bump_hostPath (s : State) (f : Fld) (n : Nat) : (s.bump f n).hostPath = s.hostPath := rfl
@[simp] theorem State.bump_debugPath (s : State) (f : Fld) (n : Nat) : (s.bump f n).debugPath = s.debugPath := rfl
@[simp] theorem State.bump_stewardPath (s : State) (f : Fld) (n : Nat) : (s.bump f n).stewardPath = s.stewardPath := rfl
@[simp] theorem State.bump_readOut (s : State) (f : Fld) (n : Nat) : (s.bump f n).readOut = s.readOut := rfl
@[simp] theorem State.bump_mode (s : State) (f : Fld) (n : Nat) : (s.bump f n).mode = s.mode := rfl
@[simp] theorem State.bump_time (s : State) (f : Fld) (n : Nat) : (s.bump f n).time = s.time := rfl
@[simp] theorem State.bump_seqs (s : State) (f : Fld) (n : Nat) : (s.bump f n).seqs = s.seqs := rfl
@[simp] theorem State.bump_pass (s : State) (f : Fld) (n : Nat) : (s.bump f n).pass = s.pass := rfl
@[simp] theorem State.bump_tt (s : State) (f : Fld) (n : Nat) : (s.bump f n).tt = s.tt := rfl
@[simp] theorem State.bump_matrix (s : State) (f : Fld) (n : Nat) : (s.bump f n).matrix = s.matrix := rfl
@[simp] theorem State.bump_tsp (s : State) (f : Fld) (n : Nat) : (s.bump f n).tsp = s.tsp := rfl
@[simp] theorem State.bump_log (s : State) (f : Fld) (n : Nat) : (s.bump f n).log = s.log := rfl
@[simp] theorem State.bump_hostOut (s : State) (f : Fld) (n : Nat) : (s.bump f n).hostOut = s.hostOut := rfl
@[simp] theorem State.bump_host (s : State) (f : Fld) (n : Nat) : (s.bump f n).host = s.host := rfl
@[simp] theorem State.bump_cells (s : State) (f : Fld) (n : Nat) : (s.bump f n).cells = s.cells := rfl
@[simp] theorem State.bump_slices (s : State) (f : Fld) (n : Nat) : (s.bump f n).slices = s.slices := rfl
@[simp] theorem State.bump_segs (s : State) (f : Fld) (n : Nat) : (s.bump f n).segs = s.segs := rfl
@[simp] theorem State.bump_bmem (s : State) (f : Fld) (n : Nat) : (s.bump f n).bmem = s.bmem := rfl
@[simp] theorem State.bump_queues (s : State) (f : Fld) (n : Nat) : (s.bump f n).queues = s.queues := rfl
@[simp] theorem State.bump_fields (s : State) (f : Fld) (n : Nat) : (s.bump f n).fields = s.fields := rfl
@[simp] theorem State.bump_routers (s : State) (f : Fld) (n : Nat) : (s.bump f n).routers = s.routers := rfl
@[simp] theorem State.bump_spineNow (s : State) (f : Fld) (n : Nat) : (s.bump f n).spineNow = s.spineNow := rfl
@[simp] theorem State.bump_nis (s : State) (f : Fld) (n : Nat) : (s.bump f n).nis = s.nis := rfl
@[simp] theorem State.bump_ports (s : State) (f : Fld) (n : Nat) : (s.bump f n).ports = s.ports := rfl
@[simp] theorem State.bump_lanes (s : State) (f : Fld) (n : Nat) : (s.bump f n).lanes = s.lanes := rfl
@[simp] theorem State.bump_linkOut (s : State) (f : Fld) (n : Nat) : (s.bump f n).linkOut = s.linkOut := rfl
@[simp] theorem State.bump_laneOut (s : State) (f : Fld) (n : Nat) : (s.bump f n).laneOut = s.laneOut := rfl
@[simp] theorem State.bump_images (s : State) (f : Fld) (n : Nat) : (s.bump f n).images = s.images := rfl
@[simp] theorem State.bump_cfg (s : State) (f : Fld) (n : Nat) : (s.bump f n).cfg = s.cfg := rfl
@[simp] theorem State.bump_power (s : State) (f : Fld) (n : Nat) : (s.bump f n).power = s.power := rfl
@[simp] theorem State.bump_straps (s : State) (f : Fld) (n : Nat) : (s.bump f n).straps = s.straps := rfl
@[simp] theorem State.bump_fuses (s : State) (f : Fld) (n : Nat) : (s.bump f n).fuses = s.fuses := rfl
@[simp] theorem State.bump_atReset (s : State) (f : Fld) (n : Nat) : (s.bump f n).atReset = s.atReset := rfl
@[simp] theorem State.bump_tap (s : State) (f : Fld) (n : Nat) : (s.bump f n).tap = s.tap := rfl
@[simp] theorem State.bump_pins (s : State) (f : Fld) (n : Nat) : (s.bump f n).pins = s.pins := rfl
@[simp] theorem State.bump_drams (s : State) (f : Fld) (n : Nat) : (s.bump f n).drams = s.drams := rfl
@[simp] theorem State.bump_cry (s : State) (f : Fld) (n : Nat) : (s.bump f n).cry = s.cry := rfl
@[simp] theorem State.bump_stw (s : State) (f : Fld) (n : Nat) : (s.bump f n).stw = s.stw := rfl
@[simp] theorem State.bump_bist (s : State) (f : Fld) (n : Nat) : (s.bump f n).bist = s.bist := rfl
@[simp] theorem State.bump_dbg (s : State) (f : Fld) (n : Nat) : (s.bump f n).dbg = s.dbg := rfl
@[simp] theorem State.bump_free (s : State) (f : Fld) (n : Nat) : (s.bump f n).free = s.free := rfl

/-! setPair -/

@[simp] theorem State.setPair_pending (s : State) (lo hi : RegRef) (v : Nat) : (s.setPair lo hi v).pending = s.pending := rfl
@[simp] theorem State.setPair_staged (s : State) (lo hi : RegRef) (v : Nat) : (s.setPair lo hi v).staged = s.staged := rfl
@[simp] theorem State.setPair_hostPath (s : State) (lo hi : RegRef) (v : Nat) : (s.setPair lo hi v).hostPath = s.hostPath := rfl
@[simp] theorem State.setPair_debugPath (s : State) (lo hi : RegRef) (v : Nat) : (s.setPair lo hi v).debugPath = s.debugPath := rfl
@[simp] theorem State.setPair_stewardPath (s : State) (lo hi : RegRef) (v : Nat) : (s.setPair lo hi v).stewardPath = s.stewardPath := rfl
@[simp] theorem State.setPair_readOut (s : State) (lo hi : RegRef) (v : Nat) : (s.setPair lo hi v).readOut = s.readOut := rfl
@[simp] theorem State.setPair_mode (s : State) (lo hi : RegRef) (v : Nat) : (s.setPair lo hi v).mode = s.mode := rfl
@[simp] theorem State.setPair_time (s : State) (lo hi : RegRef) (v : Nat) : (s.setPair lo hi v).time = s.time := rfl
@[simp] theorem State.setPair_seqs (s : State) (lo hi : RegRef) (v : Nat) : (s.setPair lo hi v).seqs = s.seqs := rfl
@[simp] theorem State.setPair_pass (s : State) (lo hi : RegRef) (v : Nat) : (s.setPair lo hi v).pass = s.pass := rfl
@[simp] theorem State.setPair_tt (s : State) (lo hi : RegRef) (v : Nat) : (s.setPair lo hi v).tt = s.tt := rfl
@[simp] theorem State.setPair_matrix (s : State) (lo hi : RegRef) (v : Nat) : (s.setPair lo hi v).matrix = s.matrix := rfl
@[simp] theorem State.setPair_tsp (s : State) (lo hi : RegRef) (v : Nat) : (s.setPair lo hi v).tsp = s.tsp := rfl
@[simp] theorem State.setPair_log (s : State) (lo hi : RegRef) (v : Nat) : (s.setPair lo hi v).log = s.log := rfl
@[simp] theorem State.setPair_hostOut (s : State) (lo hi : RegRef) (v : Nat) : (s.setPair lo hi v).hostOut = s.hostOut := rfl
@[simp] theorem State.setPair_host (s : State) (lo hi : RegRef) (v : Nat) : (s.setPair lo hi v).host = s.host := rfl
@[simp] theorem State.setPair_cells (s : State) (lo hi : RegRef) (v : Nat) : (s.setPair lo hi v).cells = s.cells := rfl
@[simp] theorem State.setPair_slices (s : State) (lo hi : RegRef) (v : Nat) : (s.setPair lo hi v).slices = s.slices := rfl
@[simp] theorem State.setPair_segs (s : State) (lo hi : RegRef) (v : Nat) : (s.setPair lo hi v).segs = s.segs := rfl
@[simp] theorem State.setPair_bmem (s : State) (lo hi : RegRef) (v : Nat) : (s.setPair lo hi v).bmem = s.bmem := rfl
@[simp] theorem State.setPair_queues (s : State) (lo hi : RegRef) (v : Nat) : (s.setPair lo hi v).queues = s.queues := rfl
@[simp] theorem State.setPair_fields (s : State) (lo hi : RegRef) (v : Nat) : (s.setPair lo hi v).fields = s.fields := rfl
@[simp] theorem State.setPair_routers (s : State) (lo hi : RegRef) (v : Nat) : (s.setPair lo hi v).routers = s.routers := rfl
@[simp] theorem State.setPair_spineNow (s : State) (lo hi : RegRef) (v : Nat) : (s.setPair lo hi v).spineNow = s.spineNow := rfl
@[simp] theorem State.setPair_nis (s : State) (lo hi : RegRef) (v : Nat) : (s.setPair lo hi v).nis = s.nis := rfl
@[simp] theorem State.setPair_ports (s : State) (lo hi : RegRef) (v : Nat) : (s.setPair lo hi v).ports = s.ports := rfl
@[simp] theorem State.setPair_lanes (s : State) (lo hi : RegRef) (v : Nat) : (s.setPair lo hi v).lanes = s.lanes := rfl
@[simp] theorem State.setPair_linkOut (s : State) (lo hi : RegRef) (v : Nat) : (s.setPair lo hi v).linkOut = s.linkOut := rfl
@[simp] theorem State.setPair_laneOut (s : State) (lo hi : RegRef) (v : Nat) : (s.setPair lo hi v).laneOut = s.laneOut := rfl
@[simp] theorem State.setPair_images (s : State) (lo hi : RegRef) (v : Nat) : (s.setPair lo hi v).images = s.images := rfl
@[simp] theorem State.setPair_cfg (s : State) (lo hi : RegRef) (v : Nat) : (s.setPair lo hi v).cfg = s.cfg := rfl
@[simp] theorem State.setPair_power (s : State) (lo hi : RegRef) (v : Nat) : (s.setPair lo hi v).power = s.power := rfl
@[simp] theorem State.setPair_straps (s : State) (lo hi : RegRef) (v : Nat) : (s.setPair lo hi v).straps = s.straps := rfl
@[simp] theorem State.setPair_fuses (s : State) (lo hi : RegRef) (v : Nat) : (s.setPair lo hi v).fuses = s.fuses := rfl
@[simp] theorem State.setPair_atReset (s : State) (lo hi : RegRef) (v : Nat) : (s.setPair lo hi v).atReset = s.atReset := rfl
@[simp] theorem State.setPair_tap (s : State) (lo hi : RegRef) (v : Nat) : (s.setPair lo hi v).tap = s.tap := rfl
@[simp] theorem State.setPair_pins (s : State) (lo hi : RegRef) (v : Nat) : (s.setPair lo hi v).pins = s.pins := rfl
@[simp] theorem State.setPair_drams (s : State) (lo hi : RegRef) (v : Nat) : (s.setPair lo hi v).drams = s.drams := rfl
@[simp] theorem State.setPair_cry (s : State) (lo hi : RegRef) (v : Nat) : (s.setPair lo hi v).cry = s.cry := rfl
@[simp] theorem State.setPair_stw (s : State) (lo hi : RegRef) (v : Nat) : (s.setPair lo hi v).stw = s.stw := rfl
@[simp] theorem State.setPair_bist (s : State) (lo hi : RegRef) (v : Nat) : (s.setPair lo hi v).bist = s.bist := rfl
@[simp] theorem State.setPair_dbg (s : State) (lo hi : RegRef) (v : Nat) : (s.setPair lo hi v).dbg = s.dbg := rfl
@[simp] theorem State.setPair_free (s : State) (lo hi : RegRef) (v : Nat) : (s.setPair lo hi v).free = s.free := rfl

/-! setFld -/

@[simp] theorem State.setFld_pending (s : State) (f : Nat) (x : FieldSt) : (s.setFld f x).pending = s.pending := rfl
@[simp] theorem State.setFld_regs (s : State) (f : Nat) (x : FieldSt) : (s.setFld f x).regs = s.regs := rfl
@[simp] theorem State.setFld_staged (s : State) (f : Nat) (x : FieldSt) : (s.setFld f x).staged = s.staged := rfl
@[simp] theorem State.setFld_hostPath (s : State) (f : Nat) (x : FieldSt) : (s.setFld f x).hostPath = s.hostPath := rfl
@[simp] theorem State.setFld_debugPath (s : State) (f : Nat) (x : FieldSt) : (s.setFld f x).debugPath = s.debugPath := rfl
@[simp] theorem State.setFld_stewardPath (s : State) (f : Nat) (x : FieldSt) : (s.setFld f x).stewardPath = s.stewardPath := rfl
@[simp] theorem State.setFld_readOut (s : State) (f : Nat) (x : FieldSt) : (s.setFld f x).readOut = s.readOut := rfl
@[simp] theorem State.setFld_mode (s : State) (f : Nat) (x : FieldSt) : (s.setFld f x).mode = s.mode := rfl
@[simp] theorem State.setFld_time (s : State) (f : Nat) (x : FieldSt) : (s.setFld f x).time = s.time := rfl
@[simp] theorem State.setFld_seqs (s : State) (f : Nat) (x : FieldSt) : (s.setFld f x).seqs = s.seqs := rfl
@[simp] theorem State.setFld_pass (s : State) (f : Nat) (x : FieldSt) : (s.setFld f x).pass = s.pass := rfl
@[simp] theorem State.setFld_tt (s : State) (f : Nat) (x : FieldSt) : (s.setFld f x).tt = s.tt := rfl
@[simp] theorem State.setFld_matrix (s : State) (f : Nat) (x : FieldSt) : (s.setFld f x).matrix = s.matrix := rfl
@[simp] theorem State.setFld_tsp (s : State) (f : Nat) (x : FieldSt) : (s.setFld f x).tsp = s.tsp := rfl
@[simp] theorem State.setFld_log (s : State) (f : Nat) (x : FieldSt) : (s.setFld f x).log = s.log := rfl
@[simp] theorem State.setFld_hostOut (s : State) (f : Nat) (x : FieldSt) : (s.setFld f x).hostOut = s.hostOut := rfl
@[simp] theorem State.setFld_host (s : State) (f : Nat) (x : FieldSt) : (s.setFld f x).host = s.host := rfl
@[simp] theorem State.setFld_cells (s : State) (f : Nat) (x : FieldSt) : (s.setFld f x).cells = s.cells := rfl
@[simp] theorem State.setFld_slices (s : State) (f : Nat) (x : FieldSt) : (s.setFld f x).slices = s.slices := rfl
@[simp] theorem State.setFld_segs (s : State) (f : Nat) (x : FieldSt) : (s.setFld f x).segs = s.segs := rfl
@[simp] theorem State.setFld_bmem (s : State) (f : Nat) (x : FieldSt) : (s.setFld f x).bmem = s.bmem := rfl
@[simp] theorem State.setFld_queues (s : State) (f : Nat) (x : FieldSt) : (s.setFld f x).queues = s.queues := rfl
@[simp] theorem State.setFld_routers (s : State) (f : Nat) (x : FieldSt) : (s.setFld f x).routers = s.routers := rfl
@[simp] theorem State.setFld_spineNow (s : State) (f : Nat) (x : FieldSt) : (s.setFld f x).spineNow = s.spineNow := rfl
@[simp] theorem State.setFld_nis (s : State) (f : Nat) (x : FieldSt) : (s.setFld f x).nis = s.nis := rfl
@[simp] theorem State.setFld_ports (s : State) (f : Nat) (x : FieldSt) : (s.setFld f x).ports = s.ports := rfl
@[simp] theorem State.setFld_lanes (s : State) (f : Nat) (x : FieldSt) : (s.setFld f x).lanes = s.lanes := rfl
@[simp] theorem State.setFld_linkOut (s : State) (f : Nat) (x : FieldSt) : (s.setFld f x).linkOut = s.linkOut := rfl
@[simp] theorem State.setFld_laneOut (s : State) (f : Nat) (x : FieldSt) : (s.setFld f x).laneOut = s.laneOut := rfl
@[simp] theorem State.setFld_images (s : State) (f : Nat) (x : FieldSt) : (s.setFld f x).images = s.images := rfl
@[simp] theorem State.setFld_cfg (s : State) (f : Nat) (x : FieldSt) : (s.setFld f x).cfg = s.cfg := rfl
@[simp] theorem State.setFld_power (s : State) (f : Nat) (x : FieldSt) : (s.setFld f x).power = s.power := rfl
@[simp] theorem State.setFld_straps (s : State) (f : Nat) (x : FieldSt) : (s.setFld f x).straps = s.straps := rfl
@[simp] theorem State.setFld_fuses (s : State) (f : Nat) (x : FieldSt) : (s.setFld f x).fuses = s.fuses := rfl
@[simp] theorem State.setFld_atReset (s : State) (f : Nat) (x : FieldSt) : (s.setFld f x).atReset = s.atReset := rfl
@[simp] theorem State.setFld_tap (s : State) (f : Nat) (x : FieldSt) : (s.setFld f x).tap = s.tap := rfl
@[simp] theorem State.setFld_pins (s : State) (f : Nat) (x : FieldSt) : (s.setFld f x).pins = s.pins := rfl
@[simp] theorem State.setFld_drams (s : State) (f : Nat) (x : FieldSt) : (s.setFld f x).drams = s.drams := rfl
@[simp] theorem State.setFld_cry (s : State) (f : Nat) (x : FieldSt) : (s.setFld f x).cry = s.cry := rfl
@[simp] theorem State.setFld_stw (s : State) (f : Nat) (x : FieldSt) : (s.setFld f x).stw = s.stw := rfl
@[simp] theorem State.setFld_bist (s : State) (f : Nat) (x : FieldSt) : (s.setFld f x).bist = s.bist := rfl
@[simp] theorem State.setFld_dbg (s : State) (f : Nat) (x : FieldSt) : (s.setFld f x).dbg = s.dbg := rfl
@[simp] theorem State.setFld_free (s : State) (f : Nat) (x : FieldSt) : (s.setFld f x).free = s.free := rfl
@[simp] theorem State.fld_setFld (s : State) (f : Nat) (x : FieldSt) : (s.setFld f x).fld f = x := SMap.get_set_same _ _ _ _
theorem State.fld_setFld_other (s : State) (f : Nat) (x : FieldSt) {j : Nat} (h : j ≠ f) : (s.setFld f x).fld j = s.fld j :=
  SMap.get_set_other _ _ _ _ h
@[simp] theorem State.fld_setReg (s : State) (r : RegRef) (v : Nat) (j : Nat) : (s.setReg r v).fld j = s.fld j := rfl
@[simp] theorem State.fld_put (s : State) (f : Fld) (v : Nat) (j : Nat) : (s.put f v).fld j = s.fld j := rfl
@[simp] theorem State.reg_setFld (s : State) (f : Nat) (x : FieldSt) (r : RegRef) : (s.setFld f x).reg r = s.reg r := rfl
@[simp] theorem State.get_setFld (s : State) (f : Nat) (x : FieldSt) (r : Fld) : (s.setFld f x).get r = s.get r := rfl

/-! setCell -/

@[simp] theorem State.setCell_pending (s : State) (k : Nat) (x : CellSt) : (s.setCell k x).pending = s.pending := rfl
@[simp] theorem State.setCell_regs (s : State) (k : Nat) (x : CellSt) : (s.setCell k x).regs = s.regs := rfl
@[simp] theorem State.setCell_staged (s : State) (k : Nat) (x : CellSt) : (s.setCell k x).staged = s.staged := rfl
@[simp] theorem State.setCell_hostPath (s : State) (k : Nat) (x : CellSt) : (s.setCell k x).hostPath = s.hostPath := rfl
@[simp] theorem State.setCell_debugPath (s : State) (k : Nat) (x : CellSt) : (s.setCell k x).debugPath = s.debugPath := rfl
@[simp] theorem State.setCell_stewardPath (s : State) (k : Nat) (x : CellSt) : (s.setCell k x).stewardPath = s.stewardPath := rfl
@[simp] theorem State.setCell_readOut (s : State) (k : Nat) (x : CellSt) : (s.setCell k x).readOut = s.readOut := rfl
@[simp] theorem State.setCell_mode (s : State) (k : Nat) (x : CellSt) : (s.setCell k x).mode = s.mode := rfl
@[simp] theorem State.setCell_time (s : State) (k : Nat) (x : CellSt) : (s.setCell k x).time = s.time := rfl
@[simp] theorem State.setCell_seqs (s : State) (k : Nat) (x : CellSt) : (s.setCell k x).seqs = s.seqs := rfl
@[simp] theorem State.setCell_pass (s : State) (k : Nat) (x : CellSt) : (s.setCell k x).pass = s.pass := rfl
@[simp] theorem State.setCell_tt (s : State) (k : Nat) (x : CellSt) : (s.setCell k x).tt = s.tt := rfl
@[simp] theorem State.setCell_matrix (s : State) (k : Nat) (x : CellSt) : (s.setCell k x).matrix = s.matrix := rfl
@[simp] theorem State.setCell_tsp (s : State) (k : Nat) (x : CellSt) : (s.setCell k x).tsp = s.tsp := rfl
@[simp] theorem State.setCell_log (s : State) (k : Nat) (x : CellSt) : (s.setCell k x).log = s.log := rfl
@[simp] theorem State.setCell_hostOut (s : State) (k : Nat) (x : CellSt) : (s.setCell k x).hostOut = s.hostOut := rfl
@[simp] theorem State.setCell_host (s : State) (k : Nat) (x : CellSt) : (s.setCell k x).host = s.host := rfl
@[simp] theorem State.setCell_slices (s : State) (k : Nat) (x : CellSt) : (s.setCell k x).slices = s.slices := rfl
@[simp] theorem State.setCell_segs (s : State) (k : Nat) (x : CellSt) : (s.setCell k x).segs = s.segs := rfl
@[simp] theorem State.setCell_bmem (s : State) (k : Nat) (x : CellSt) : (s.setCell k x).bmem = s.bmem := rfl
@[simp] theorem State.setCell_queues (s : State) (k : Nat) (x : CellSt) : (s.setCell k x).queues = s.queues := rfl
@[simp] theorem State.setCell_fields (s : State) (k : Nat) (x : CellSt) : (s.setCell k x).fields = s.fields := rfl
@[simp] theorem State.setCell_routers (s : State) (k : Nat) (x : CellSt) : (s.setCell k x).routers = s.routers := rfl
@[simp] theorem State.setCell_spineNow (s : State) (k : Nat) (x : CellSt) : (s.setCell k x).spineNow = s.spineNow := rfl
@[simp] theorem State.setCell_nis (s : State) (k : Nat) (x : CellSt) : (s.setCell k x).nis = s.nis := rfl
@[simp] theorem State.setCell_ports (s : State) (k : Nat) (x : CellSt) : (s.setCell k x).ports = s.ports := rfl
@[simp] theorem State.setCell_lanes (s : State) (k : Nat) (x : CellSt) : (s.setCell k x).lanes = s.lanes := rfl
@[simp] theorem State.setCell_linkOut (s : State) (k : Nat) (x : CellSt) : (s.setCell k x).linkOut = s.linkOut := rfl
@[simp] theorem State.setCell_laneOut (s : State) (k : Nat) (x : CellSt) : (s.setCell k x).laneOut = s.laneOut := rfl
@[simp] theorem State.setCell_images (s : State) (k : Nat) (x : CellSt) : (s.setCell k x).images = s.images := rfl
@[simp] theorem State.setCell_cfg (s : State) (k : Nat) (x : CellSt) : (s.setCell k x).cfg = s.cfg := rfl
@[simp] theorem State.setCell_power (s : State) (k : Nat) (x : CellSt) : (s.setCell k x).power = s.power := rfl
@[simp] theorem State.setCell_straps (s : State) (k : Nat) (x : CellSt) : (s.setCell k x).straps = s.straps := rfl
@[simp] theorem State.setCell_fuses (s : State) (k : Nat) (x : CellSt) : (s.setCell k x).fuses = s.fuses := rfl
@[simp] theorem State.setCell_atReset (s : State) (k : Nat) (x : CellSt) : (s.setCell k x).atReset = s.atReset := rfl
@[simp] theorem State.setCell_tap (s : State) (k : Nat) (x : CellSt) : (s.setCell k x).tap = s.tap := rfl
@[simp] theorem State.setCell_pins (s : State) (k : Nat) (x : CellSt) : (s.setCell k x).pins = s.pins := rfl
@[simp] theorem State.setCell_drams (s : State) (k : Nat) (x : CellSt) : (s.setCell k x).drams = s.drams := rfl
@[simp] theorem State.setCell_cry (s : State) (k : Nat) (x : CellSt) : (s.setCell k x).cry = s.cry := rfl
@[simp] theorem State.setCell_stw (s : State) (k : Nat) (x : CellSt) : (s.setCell k x).stw = s.stw := rfl
@[simp] theorem State.setCell_bist (s : State) (k : Nat) (x : CellSt) : (s.setCell k x).bist = s.bist := rfl
@[simp] theorem State.setCell_dbg (s : State) (k : Nat) (x : CellSt) : (s.setCell k x).dbg = s.dbg := rfl
@[simp] theorem State.setCell_free (s : State) (k : Nat) (x : CellSt) : (s.setCell k x).free = s.free := rfl
@[simp] theorem State.cell_setCell (s : State) (k : Nat) (x : CellSt) : (s.setCell k x).cell k = x := SMap.get_set_same _ _ _ _
theorem State.cell_setCell_other (s : State) (k : Nat) (x : CellSt) {j : Nat} (h : j ≠ k) : (s.setCell k x).cell j = s.cell j :=
  SMap.get_set_other _ _ _ _ h
@[simp] theorem State.cell_setReg (s : State) (r : RegRef) (v : Nat) (j : Nat) : (s.setReg r v).cell j = s.cell j := rfl
@[simp] theorem State.cell_put (s : State) (f : Fld) (v : Nat) (j : Nat) : (s.put f v).cell j = s.cell j := rfl
@[simp] theorem State.reg_setCell (s : State) (k : Nat) (x : CellSt) (r : RegRef) : (s.setCell k x).reg r = s.reg r := rfl
@[simp] theorem State.get_setCell (s : State) (k : Nat) (x : CellSt) (r : Fld) : (s.setCell k x).get r = s.get r := rfl

/-! setSlice -/

@[simp] theorem State.setSlice_pending (s : State) (k : Nat) (x : SliceSt) : (s.setSlice k x).pending = s.pending := rfl
@[simp] theorem State.setSlice_regs (s : State) (k : Nat) (x : SliceSt) : (s.setSlice k x).regs = s.regs := rfl
@[simp] theorem State.setSlice_staged (s : State) (k : Nat) (x : SliceSt) : (s.setSlice k x).staged = s.staged := rfl
@[simp] theorem State.setSlice_hostPath (s : State) (k : Nat) (x : SliceSt) : (s.setSlice k x).hostPath = s.hostPath := rfl
@[simp] theorem State.setSlice_debugPath (s : State) (k : Nat) (x : SliceSt) : (s.setSlice k x).debugPath = s.debugPath := rfl
@[simp] theorem State.setSlice_stewardPath (s : State) (k : Nat) (x : SliceSt) : (s.setSlice k x).stewardPath = s.stewardPath := rfl
@[simp] theorem State.setSlice_readOut (s : State) (k : Nat) (x : SliceSt) : (s.setSlice k x).readOut = s.readOut := rfl
@[simp] theorem State.setSlice_mode (s : State) (k : Nat) (x : SliceSt) : (s.setSlice k x).mode = s.mode := rfl
@[simp] theorem State.setSlice_time (s : State) (k : Nat) (x : SliceSt) : (s.setSlice k x).time = s.time := rfl
@[simp] theorem State.setSlice_seqs (s : State) (k : Nat) (x : SliceSt) : (s.setSlice k x).seqs = s.seqs := rfl
@[simp] theorem State.setSlice_pass (s : State) (k : Nat) (x : SliceSt) : (s.setSlice k x).pass = s.pass := rfl
@[simp] theorem State.setSlice_tt (s : State) (k : Nat) (x : SliceSt) : (s.setSlice k x).tt = s.tt := rfl
@[simp] theorem State.setSlice_matrix (s : State) (k : Nat) (x : SliceSt) : (s.setSlice k x).matrix = s.matrix := rfl
@[simp] theorem State.setSlice_tsp (s : State) (k : Nat) (x : SliceSt) : (s.setSlice k x).tsp = s.tsp := rfl
@[simp] theorem State.setSlice_log (s : State) (k : Nat) (x : SliceSt) : (s.setSlice k x).log = s.log := rfl
@[simp] theorem State.setSlice_hostOut (s : State) (k : Nat) (x : SliceSt) : (s.setSlice k x).hostOut = s.hostOut := rfl
@[simp] theorem State.setSlice_host (s : State) (k : Nat) (x : SliceSt) : (s.setSlice k x).host = s.host := rfl
@[simp] theorem State.setSlice_cells (s : State) (k : Nat) (x : SliceSt) : (s.setSlice k x).cells = s.cells := rfl
@[simp] theorem State.setSlice_segs (s : State) (k : Nat) (x : SliceSt) : (s.setSlice k x).segs = s.segs := rfl
@[simp] theorem State.setSlice_bmem (s : State) (k : Nat) (x : SliceSt) : (s.setSlice k x).bmem = s.bmem := rfl
@[simp] theorem State.setSlice_queues (s : State) (k : Nat) (x : SliceSt) : (s.setSlice k x).queues = s.queues := rfl
@[simp] theorem State.setSlice_fields (s : State) (k : Nat) (x : SliceSt) : (s.setSlice k x).fields = s.fields := rfl
@[simp] theorem State.setSlice_routers (s : State) (k : Nat) (x : SliceSt) : (s.setSlice k x).routers = s.routers := rfl
@[simp] theorem State.setSlice_spineNow (s : State) (k : Nat) (x : SliceSt) : (s.setSlice k x).spineNow = s.spineNow := rfl
@[simp] theorem State.setSlice_nis (s : State) (k : Nat) (x : SliceSt) : (s.setSlice k x).nis = s.nis := rfl
@[simp] theorem State.setSlice_ports (s : State) (k : Nat) (x : SliceSt) : (s.setSlice k x).ports = s.ports := rfl
@[simp] theorem State.setSlice_lanes (s : State) (k : Nat) (x : SliceSt) : (s.setSlice k x).lanes = s.lanes := rfl
@[simp] theorem State.setSlice_linkOut (s : State) (k : Nat) (x : SliceSt) : (s.setSlice k x).linkOut = s.linkOut := rfl
@[simp] theorem State.setSlice_laneOut (s : State) (k : Nat) (x : SliceSt) : (s.setSlice k x).laneOut = s.laneOut := rfl
@[simp] theorem State.setSlice_images (s : State) (k : Nat) (x : SliceSt) : (s.setSlice k x).images = s.images := rfl
@[simp] theorem State.setSlice_cfg (s : State) (k : Nat) (x : SliceSt) : (s.setSlice k x).cfg = s.cfg := rfl
@[simp] theorem State.setSlice_power (s : State) (k : Nat) (x : SliceSt) : (s.setSlice k x).power = s.power := rfl
@[simp] theorem State.setSlice_straps (s : State) (k : Nat) (x : SliceSt) : (s.setSlice k x).straps = s.straps := rfl
@[simp] theorem State.setSlice_fuses (s : State) (k : Nat) (x : SliceSt) : (s.setSlice k x).fuses = s.fuses := rfl
@[simp] theorem State.setSlice_atReset (s : State) (k : Nat) (x : SliceSt) : (s.setSlice k x).atReset = s.atReset := rfl
@[simp] theorem State.setSlice_tap (s : State) (k : Nat) (x : SliceSt) : (s.setSlice k x).tap = s.tap := rfl
@[simp] theorem State.setSlice_pins (s : State) (k : Nat) (x : SliceSt) : (s.setSlice k x).pins = s.pins := rfl
@[simp] theorem State.setSlice_drams (s : State) (k : Nat) (x : SliceSt) : (s.setSlice k x).drams = s.drams := rfl
@[simp] theorem State.setSlice_cry (s : State) (k : Nat) (x : SliceSt) : (s.setSlice k x).cry = s.cry := rfl
@[simp] theorem State.setSlice_stw (s : State) (k : Nat) (x : SliceSt) : (s.setSlice k x).stw = s.stw := rfl
@[simp] theorem State.setSlice_bist (s : State) (k : Nat) (x : SliceSt) : (s.setSlice k x).bist = s.bist := rfl
@[simp] theorem State.setSlice_dbg (s : State) (k : Nat) (x : SliceSt) : (s.setSlice k x).dbg = s.dbg := rfl
@[simp] theorem State.setSlice_free (s : State) (k : Nat) (x : SliceSt) : (s.setSlice k x).free = s.free := rfl
@[simp] theorem State.slice_setSlice (s : State) (k : Nat) (x : SliceSt) : (s.setSlice k x).slice k = x := SMap.get_set_same _ _ _ _
theorem State.slice_setSlice_other (s : State) (k : Nat) (x : SliceSt) {j : Nat} (h : j ≠ k) : (s.setSlice k x).slice j = s.slice j :=
  SMap.get_set_other _ _ _ _ h
@[simp] theorem State.slice_setReg (s : State) (r : RegRef) (v : Nat) (j : Nat) : (s.setReg r v).slice j = s.slice j := rfl
@[simp] theorem State.slice_put (s : State) (f : Fld) (v : Nat) (j : Nat) : (s.put f v).slice j = s.slice j := rfl
@[simp] theorem State.reg_setSlice (s : State) (k : Nat) (x : SliceSt) (r : RegRef) : (s.setSlice k x).reg r = s.reg r := rfl
@[simp] theorem State.get_setSlice (s : State) (k : Nat) (x : SliceSt) (r : Fld) : (s.setSlice k x).get r = s.get r := rfl

/-! setSeg -/

@[simp] theorem State.setSeg_pending (s : State) (k : Nat) (x : SegSt) : (s.setSeg k x).pending = s.pending := rfl
@[simp] theorem State.setSeg_regs (s : State) (k : Nat) (x : SegSt) : (s.setSeg k x).regs = s.regs := rfl
@[simp] theorem State.setSeg_staged (s : State) (k : Nat) (x : SegSt) : (s.setSeg k x).staged = s.staged := rfl
@[simp] theorem State.setSeg_hostPath (s : State) (k : Nat) (x : SegSt) : (s.setSeg k x).hostPath = s.hostPath := rfl
@[simp] theorem State.setSeg_debugPath (s : State) (k : Nat) (x : SegSt) : (s.setSeg k x).debugPath = s.debugPath := rfl
@[simp] theorem State.setSeg_stewardPath (s : State) (k : Nat) (x : SegSt) : (s.setSeg k x).stewardPath = s.stewardPath := rfl
@[simp] theorem State.setSeg_readOut (s : State) (k : Nat) (x : SegSt) : (s.setSeg k x).readOut = s.readOut := rfl
@[simp] theorem State.setSeg_mode (s : State) (k : Nat) (x : SegSt) : (s.setSeg k x).mode = s.mode := rfl
@[simp] theorem State.setSeg_time (s : State) (k : Nat) (x : SegSt) : (s.setSeg k x).time = s.time := rfl
@[simp] theorem State.setSeg_seqs (s : State) (k : Nat) (x : SegSt) : (s.setSeg k x).seqs = s.seqs := rfl
@[simp] theorem State.setSeg_pass (s : State) (k : Nat) (x : SegSt) : (s.setSeg k x).pass = s.pass := rfl
@[simp] theorem State.setSeg_tt (s : State) (k : Nat) (x : SegSt) : (s.setSeg k x).tt = s.tt := rfl
@[simp] theorem State.setSeg_matrix (s : State) (k : Nat) (x : SegSt) : (s.setSeg k x).matrix = s.matrix := rfl
@[simp] theorem State.setSeg_tsp (s : State) (k : Nat) (x : SegSt) : (s.setSeg k x).tsp = s.tsp := rfl
@[simp] theorem State.setSeg_log (s : State) (k : Nat) (x : SegSt) : (s.setSeg k x).log = s.log := rfl
@[simp] theorem State.setSeg_hostOut (s : State) (k : Nat) (x : SegSt) : (s.setSeg k x).hostOut = s.hostOut := rfl
@[simp] theorem State.setSeg_host (s : State) (k : Nat) (x : SegSt) : (s.setSeg k x).host = s.host := rfl
@[simp] theorem State.setSeg_cells (s : State) (k : Nat) (x : SegSt) : (s.setSeg k x).cells = s.cells := rfl
@[simp] theorem State.setSeg_slices (s : State) (k : Nat) (x : SegSt) : (s.setSeg k x).slices = s.slices := rfl
@[simp] theorem State.setSeg_bmem (s : State) (k : Nat) (x : SegSt) : (s.setSeg k x).bmem = s.bmem := rfl
@[simp] theorem State.setSeg_queues (s : State) (k : Nat) (x : SegSt) : (s.setSeg k x).queues = s.queues := rfl
@[simp] theorem State.setSeg_fields (s : State) (k : Nat) (x : SegSt) : (s.setSeg k x).fields = s.fields := rfl
@[simp] theorem State.setSeg_routers (s : State) (k : Nat) (x : SegSt) : (s.setSeg k x).routers = s.routers := rfl
@[simp] theorem State.setSeg_spineNow (s : State) (k : Nat) (x : SegSt) : (s.setSeg k x).spineNow = s.spineNow := rfl
@[simp] theorem State.setSeg_nis (s : State) (k : Nat) (x : SegSt) : (s.setSeg k x).nis = s.nis := rfl
@[simp] theorem State.setSeg_ports (s : State) (k : Nat) (x : SegSt) : (s.setSeg k x).ports = s.ports := rfl
@[simp] theorem State.setSeg_lanes (s : State) (k : Nat) (x : SegSt) : (s.setSeg k x).lanes = s.lanes := rfl
@[simp] theorem State.setSeg_linkOut (s : State) (k : Nat) (x : SegSt) : (s.setSeg k x).linkOut = s.linkOut := rfl
@[simp] theorem State.setSeg_laneOut (s : State) (k : Nat) (x : SegSt) : (s.setSeg k x).laneOut = s.laneOut := rfl
@[simp] theorem State.setSeg_images (s : State) (k : Nat) (x : SegSt) : (s.setSeg k x).images = s.images := rfl
@[simp] theorem State.setSeg_cfg (s : State) (k : Nat) (x : SegSt) : (s.setSeg k x).cfg = s.cfg := rfl
@[simp] theorem State.setSeg_power (s : State) (k : Nat) (x : SegSt) : (s.setSeg k x).power = s.power := rfl
@[simp] theorem State.setSeg_straps (s : State) (k : Nat) (x : SegSt) : (s.setSeg k x).straps = s.straps := rfl
@[simp] theorem State.setSeg_fuses (s : State) (k : Nat) (x : SegSt) : (s.setSeg k x).fuses = s.fuses := rfl
@[simp] theorem State.setSeg_atReset (s : State) (k : Nat) (x : SegSt) : (s.setSeg k x).atReset = s.atReset := rfl
@[simp] theorem State.setSeg_tap (s : State) (k : Nat) (x : SegSt) : (s.setSeg k x).tap = s.tap := rfl
@[simp] theorem State.setSeg_pins (s : State) (k : Nat) (x : SegSt) : (s.setSeg k x).pins = s.pins := rfl
@[simp] theorem State.setSeg_drams (s : State) (k : Nat) (x : SegSt) : (s.setSeg k x).drams = s.drams := rfl
@[simp] theorem State.setSeg_cry (s : State) (k : Nat) (x : SegSt) : (s.setSeg k x).cry = s.cry := rfl
@[simp] theorem State.setSeg_stw (s : State) (k : Nat) (x : SegSt) : (s.setSeg k x).stw = s.stw := rfl
@[simp] theorem State.setSeg_bist (s : State) (k : Nat) (x : SegSt) : (s.setSeg k x).bist = s.bist := rfl
@[simp] theorem State.setSeg_dbg (s : State) (k : Nat) (x : SegSt) : (s.setSeg k x).dbg = s.dbg := rfl
@[simp] theorem State.setSeg_free (s : State) (k : Nat) (x : SegSt) : (s.setSeg k x).free = s.free := rfl
@[simp] theorem State.seg_setSeg (s : State) (k : Nat) (x : SegSt) : (s.setSeg k x).seg k = x := SMap.get_set_same _ _ _ _
theorem State.seg_setSeg_other (s : State) (k : Nat) (x : SegSt) {j : Nat} (h : j ≠ k) : (s.setSeg k x).seg j = s.seg j :=
  SMap.get_set_other _ _ _ _ h
@[simp] theorem State.seg_setReg (s : State) (r : RegRef) (v : Nat) (j : Nat) : (s.setReg r v).seg j = s.seg j := rfl
@[simp] theorem State.seg_put (s : State) (f : Fld) (v : Nat) (j : Nat) : (s.put f v).seg j = s.seg j := rfl
@[simp] theorem State.reg_setSeg (s : State) (k : Nat) (x : SegSt) (r : RegRef) : (s.setSeg k x).reg r = s.reg r := rfl
@[simp] theorem State.get_setSeg (s : State) (k : Nat) (x : SegSt) (r : Fld) : (s.setSeg k x).get r = s.get r := rfl

/-! setQueue -/

@[simp] theorem State.setQueue_pending (s : State) (k : Nat) (x : QCtl) : (s.setQueue k x).pending = s.pending := rfl
@[simp] theorem State.setQueue_regs (s : State) (k : Nat) (x : QCtl) : (s.setQueue k x).regs = s.regs := rfl
@[simp] theorem State.setQueue_staged (s : State) (k : Nat) (x : QCtl) : (s.setQueue k x).staged = s.staged := rfl
@[simp] theorem State.setQueue_hostPath (s : State) (k : Nat) (x : QCtl) : (s.setQueue k x).hostPath = s.hostPath := rfl
@[simp] theorem State.setQueue_debugPath (s : State) (k : Nat) (x : QCtl) : (s.setQueue k x).debugPath = s.debugPath := rfl
@[simp] theorem State.setQueue_stewardPath (s : State) (k : Nat) (x : QCtl) : (s.setQueue k x).stewardPath = s.stewardPath := rfl
@[simp] theorem State.setQueue_readOut (s : State) (k : Nat) (x : QCtl) : (s.setQueue k x).readOut = s.readOut := rfl
@[simp] theorem State.setQueue_mode (s : State) (k : Nat) (x : QCtl) : (s.setQueue k x).mode = s.mode := rfl
@[simp] theorem State.setQueue_time (s : State) (k : Nat) (x : QCtl) : (s.setQueue k x).time = s.time := rfl
@[simp] theorem State.setQueue_seqs (s : State) (k : Nat) (x : QCtl) : (s.setQueue k x).seqs = s.seqs := rfl
@[simp] theorem State.setQueue_pass (s : State) (k : Nat) (x : QCtl) : (s.setQueue k x).pass = s.pass := rfl
@[simp] theorem State.setQueue_tt (s : State) (k : Nat) (x : QCtl) : (s.setQueue k x).tt = s.tt := rfl
@[simp] theorem State.setQueue_matrix (s : State) (k : Nat) (x : QCtl) : (s.setQueue k x).matrix = s.matrix := rfl
@[simp] theorem State.setQueue_tsp (s : State) (k : Nat) (x : QCtl) : (s.setQueue k x).tsp = s.tsp := rfl
@[simp] theorem State.setQueue_log (s : State) (k : Nat) (x : QCtl) : (s.setQueue k x).log = s.log := rfl
@[simp] theorem State.setQueue_hostOut (s : State) (k : Nat) (x : QCtl) : (s.setQueue k x).hostOut = s.hostOut := rfl
@[simp] theorem State.setQueue_host (s : State) (k : Nat) (x : QCtl) : (s.setQueue k x).host = s.host := rfl
@[simp] theorem State.setQueue_cells (s : State) (k : Nat) (x : QCtl) : (s.setQueue k x).cells = s.cells := rfl
@[simp] theorem State.setQueue_slices (s : State) (k : Nat) (x : QCtl) : (s.setQueue k x).slices = s.slices := rfl
@[simp] theorem State.setQueue_segs (s : State) (k : Nat) (x : QCtl) : (s.setQueue k x).segs = s.segs := rfl
@[simp] theorem State.setQueue_bmem (s : State) (k : Nat) (x : QCtl) : (s.setQueue k x).bmem = s.bmem := rfl
@[simp] theorem State.setQueue_fields (s : State) (k : Nat) (x : QCtl) : (s.setQueue k x).fields = s.fields := rfl
@[simp] theorem State.setQueue_routers (s : State) (k : Nat) (x : QCtl) : (s.setQueue k x).routers = s.routers := rfl
@[simp] theorem State.setQueue_spineNow (s : State) (k : Nat) (x : QCtl) : (s.setQueue k x).spineNow = s.spineNow := rfl
@[simp] theorem State.setQueue_nis (s : State) (k : Nat) (x : QCtl) : (s.setQueue k x).nis = s.nis := rfl
@[simp] theorem State.setQueue_ports (s : State) (k : Nat) (x : QCtl) : (s.setQueue k x).ports = s.ports := rfl
@[simp] theorem State.setQueue_lanes (s : State) (k : Nat) (x : QCtl) : (s.setQueue k x).lanes = s.lanes := rfl
@[simp] theorem State.setQueue_linkOut (s : State) (k : Nat) (x : QCtl) : (s.setQueue k x).linkOut = s.linkOut := rfl
@[simp] theorem State.setQueue_laneOut (s : State) (k : Nat) (x : QCtl) : (s.setQueue k x).laneOut = s.laneOut := rfl
@[simp] theorem State.setQueue_images (s : State) (k : Nat) (x : QCtl) : (s.setQueue k x).images = s.images := rfl
@[simp] theorem State.setQueue_cfg (s : State) (k : Nat) (x : QCtl) : (s.setQueue k x).cfg = s.cfg := rfl
@[simp] theorem State.setQueue_power (s : State) (k : Nat) (x : QCtl) : (s.setQueue k x).power = s.power := rfl
@[simp] theorem State.setQueue_straps (s : State) (k : Nat) (x : QCtl) : (s.setQueue k x).straps = s.straps := rfl
@[simp] theorem State.setQueue_fuses (s : State) (k : Nat) (x : QCtl) : (s.setQueue k x).fuses = s.fuses := rfl
@[simp] theorem State.setQueue_atReset (s : State) (k : Nat) (x : QCtl) : (s.setQueue k x).atReset = s.atReset := rfl
@[simp] theorem State.setQueue_tap (s : State) (k : Nat) (x : QCtl) : (s.setQueue k x).tap = s.tap := rfl
@[simp] theorem State.setQueue_pins (s : State) (k : Nat) (x : QCtl) : (s.setQueue k x).pins = s.pins := rfl
@[simp] theorem State.setQueue_drams (s : State) (k : Nat) (x : QCtl) : (s.setQueue k x).drams = s.drams := rfl
@[simp] theorem State.setQueue_cry (s : State) (k : Nat) (x : QCtl) : (s.setQueue k x).cry = s.cry := rfl
@[simp] theorem State.setQueue_stw (s : State) (k : Nat) (x : QCtl) : (s.setQueue k x).stw = s.stw := rfl
@[simp] theorem State.setQueue_bist (s : State) (k : Nat) (x : QCtl) : (s.setQueue k x).bist = s.bist := rfl
@[simp] theorem State.setQueue_dbg (s : State) (k : Nat) (x : QCtl) : (s.setQueue k x).dbg = s.dbg := rfl
@[simp] theorem State.setQueue_free (s : State) (k : Nat) (x : QCtl) : (s.setQueue k x).free = s.free := rfl
@[simp] theorem State.queue_setQueue (s : State) (k : Nat) (x : QCtl) : (s.setQueue k x).queue k = x := SMap.get_set_same _ _ _ _
theorem State.queue_setQueue_other (s : State) (k : Nat) (x : QCtl) {j : Nat} (h : j ≠ k) : (s.setQueue k x).queue j = s.queue j :=
  SMap.get_set_other _ _ _ _ h
@[simp] theorem State.queue_setReg (s : State) (r : RegRef) (v : Nat) (j : Nat) : (s.setReg r v).queue j = s.queue j := rfl
@[simp] theorem State.queue_put (s : State) (f : Fld) (v : Nat) (j : Nat) : (s.put f v).queue j = s.queue j := rfl
@[simp] theorem State.reg_setQueue (s : State) (k : Nat) (x : QCtl) (r : RegRef) : (s.setQueue k x).reg r = s.reg r := rfl
@[simp] theorem State.get_setQueue (s : State) (k : Nat) (x : QCtl) (r : Fld) : (s.setQueue k x).get r = s.get r := rfl

/-! setWord -/

@[simp] theorem State.setWord_pending (s : State) (m w : Nat) (x : Option BmCell) : (s.setWord m w x).pending = s.pending := rfl
@[simp] theorem State.setWord_regs (s : State) (m w : Nat) (x : Option BmCell) : (s.setWord m w x).regs = s.regs := rfl
@[simp] theorem State.setWord_staged (s : State) (m w : Nat) (x : Option BmCell) : (s.setWord m w x).staged = s.staged := rfl
@[simp] theorem State.setWord_hostPath (s : State) (m w : Nat) (x : Option BmCell) : (s.setWord m w x).hostPath = s.hostPath := rfl
@[simp] theorem State.setWord_debugPath (s : State) (m w : Nat) (x : Option BmCell) : (s.setWord m w x).debugPath = s.debugPath := rfl
@[simp] theorem State.setWord_stewardPath (s : State) (m w : Nat) (x : Option BmCell) : (s.setWord m w x).stewardPath = s.stewardPath := rfl
@[simp] theorem State.setWord_readOut (s : State) (m w : Nat) (x : Option BmCell) : (s.setWord m w x).readOut = s.readOut := rfl
@[simp] theorem State.setWord_mode (s : State) (m w : Nat) (x : Option BmCell) : (s.setWord m w x).mode = s.mode := rfl
@[simp] theorem State.setWord_time (s : State) (m w : Nat) (x : Option BmCell) : (s.setWord m w x).time = s.time := rfl
@[simp] theorem State.setWord_seqs (s : State) (m w : Nat) (x : Option BmCell) : (s.setWord m w x).seqs = s.seqs := rfl
@[simp] theorem State.setWord_pass (s : State) (m w : Nat) (x : Option BmCell) : (s.setWord m w x).pass = s.pass := rfl
@[simp] theorem State.setWord_tt (s : State) (m w : Nat) (x : Option BmCell) : (s.setWord m w x).tt = s.tt := rfl
@[simp] theorem State.setWord_matrix (s : State) (m w : Nat) (x : Option BmCell) : (s.setWord m w x).matrix = s.matrix := rfl
@[simp] theorem State.setWord_tsp (s : State) (m w : Nat) (x : Option BmCell) : (s.setWord m w x).tsp = s.tsp := rfl
@[simp] theorem State.setWord_log (s : State) (m w : Nat) (x : Option BmCell) : (s.setWord m w x).log = s.log := rfl
@[simp] theorem State.setWord_hostOut (s : State) (m w : Nat) (x : Option BmCell) : (s.setWord m w x).hostOut = s.hostOut := rfl
@[simp] theorem State.setWord_host (s : State) (m w : Nat) (x : Option BmCell) : (s.setWord m w x).host = s.host := rfl
@[simp] theorem State.setWord_cells (s : State) (m w : Nat) (x : Option BmCell) : (s.setWord m w x).cells = s.cells := rfl
@[simp] theorem State.setWord_slices (s : State) (m w : Nat) (x : Option BmCell) : (s.setWord m w x).slices = s.slices := rfl
@[simp] theorem State.setWord_segs (s : State) (m w : Nat) (x : Option BmCell) : (s.setWord m w x).segs = s.segs := rfl
@[simp] theorem State.setWord_queues (s : State) (m w : Nat) (x : Option BmCell) : (s.setWord m w x).queues = s.queues := rfl
@[simp] theorem State.setWord_fields (s : State) (m w : Nat) (x : Option BmCell) : (s.setWord m w x).fields = s.fields := rfl
@[simp] theorem State.setWord_routers (s : State) (m w : Nat) (x : Option BmCell) : (s.setWord m w x).routers = s.routers := rfl
@[simp] theorem State.setWord_spineNow (s : State) (m w : Nat) (x : Option BmCell) : (s.setWord m w x).spineNow = s.spineNow := rfl
@[simp] theorem State.setWord_nis (s : State) (m w : Nat) (x : Option BmCell) : (s.setWord m w x).nis = s.nis := rfl
@[simp] theorem State.setWord_ports (s : State) (m w : Nat) (x : Option BmCell) : (s.setWord m w x).ports = s.ports := rfl
@[simp] theorem State.setWord_lanes (s : State) (m w : Nat) (x : Option BmCell) : (s.setWord m w x).lanes = s.lanes := rfl
@[simp] theorem State.setWord_linkOut (s : State) (m w : Nat) (x : Option BmCell) : (s.setWord m w x).linkOut = s.linkOut := rfl
@[simp] theorem State.setWord_laneOut (s : State) (m w : Nat) (x : Option BmCell) : (s.setWord m w x).laneOut = s.laneOut := rfl
@[simp] theorem State.setWord_images (s : State) (m w : Nat) (x : Option BmCell) : (s.setWord m w x).images = s.images := rfl
@[simp] theorem State.setWord_cfg (s : State) (m w : Nat) (x : Option BmCell) : (s.setWord m w x).cfg = s.cfg := rfl
@[simp] theorem State.setWord_power (s : State) (m w : Nat) (x : Option BmCell) : (s.setWord m w x).power = s.power := rfl
@[simp] theorem State.setWord_straps (s : State) (m w : Nat) (x : Option BmCell) : (s.setWord m w x).straps = s.straps := rfl
@[simp] theorem State.setWord_fuses (s : State) (m w : Nat) (x : Option BmCell) : (s.setWord m w x).fuses = s.fuses := rfl
@[simp] theorem State.setWord_atReset (s : State) (m w : Nat) (x : Option BmCell) : (s.setWord m w x).atReset = s.atReset := rfl
@[simp] theorem State.setWord_tap (s : State) (m w : Nat) (x : Option BmCell) : (s.setWord m w x).tap = s.tap := rfl
@[simp] theorem State.setWord_pins (s : State) (m w : Nat) (x : Option BmCell) : (s.setWord m w x).pins = s.pins := rfl
@[simp] theorem State.setWord_drams (s : State) (m w : Nat) (x : Option BmCell) : (s.setWord m w x).drams = s.drams := rfl
@[simp] theorem State.setWord_cry (s : State) (m w : Nat) (x : Option BmCell) : (s.setWord m w x).cry = s.cry := rfl
@[simp] theorem State.setWord_stw (s : State) (m w : Nat) (x : Option BmCell) : (s.setWord m w x).stw = s.stw := rfl
@[simp] theorem State.setWord_bist (s : State) (m w : Nat) (x : Option BmCell) : (s.setWord m w x).bist = s.bist := rfl
@[simp] theorem State.setWord_dbg (s : State) (m w : Nat) (x : Option BmCell) : (s.setWord m w x).dbg = s.dbg := rfl
@[simp] theorem State.setWord_free (s : State) (m w : Nat) (x : Option BmCell) : (s.setWord m w x).free = s.free := rfl

/-! setRouter -/

@[simp] theorem State.setRouter_pending (s : State) (n : Nat) (x : RouterSt) : (s.setRouter n x).pending = s.pending := rfl
@[simp] theorem State.setRouter_regs (s : State) (n : Nat) (x : RouterSt) : (s.setRouter n x).regs = s.regs := rfl
@[simp] theorem State.setRouter_staged (s : State) (n : Nat) (x : RouterSt) : (s.setRouter n x).staged = s.staged := rfl
@[simp] theorem State.setRouter_hostPath (s : State) (n : Nat) (x : RouterSt) : (s.setRouter n x).hostPath = s.hostPath := rfl
@[simp] theorem State.setRouter_debugPath (s : State) (n : Nat) (x : RouterSt) : (s.setRouter n x).debugPath = s.debugPath := rfl
@[simp] theorem State.setRouter_stewardPath (s : State) (n : Nat) (x : RouterSt) : (s.setRouter n x).stewardPath = s.stewardPath := rfl
@[simp] theorem State.setRouter_readOut (s : State) (n : Nat) (x : RouterSt) : (s.setRouter n x).readOut = s.readOut := rfl
@[simp] theorem State.setRouter_mode (s : State) (n : Nat) (x : RouterSt) : (s.setRouter n x).mode = s.mode := rfl
@[simp] theorem State.setRouter_time (s : State) (n : Nat) (x : RouterSt) : (s.setRouter n x).time = s.time := rfl
@[simp] theorem State.setRouter_seqs (s : State) (n : Nat) (x : RouterSt) : (s.setRouter n x).seqs = s.seqs := rfl
@[simp] theorem State.setRouter_pass (s : State) (n : Nat) (x : RouterSt) : (s.setRouter n x).pass = s.pass := rfl
@[simp] theorem State.setRouter_tt (s : State) (n : Nat) (x : RouterSt) : (s.setRouter n x).tt = s.tt := rfl
@[simp] theorem State.setRouter_matrix (s : State) (n : Nat) (x : RouterSt) : (s.setRouter n x).matrix = s.matrix := rfl
@[simp] theorem State.setRouter_tsp (s : State) (n : Nat) (x : RouterSt) : (s.setRouter n x).tsp = s.tsp := rfl
@[simp] theorem State.setRouter_log (s : State) (n : Nat) (x : RouterSt) : (s.setRouter n x).log = s.log := rfl
@[simp] theorem State.setRouter_hostOut (s : State) (n : Nat) (x : RouterSt) : (s.setRouter n x).hostOut = s.hostOut := rfl
@[simp] theorem State.setRouter_host (s : State) (n : Nat) (x : RouterSt) : (s.setRouter n x).host = s.host := rfl
@[simp] theorem State.setRouter_cells (s : State) (n : Nat) (x : RouterSt) : (s.setRouter n x).cells = s.cells := rfl
@[simp] theorem State.setRouter_slices (s : State) (n : Nat) (x : RouterSt) : (s.setRouter n x).slices = s.slices := rfl
@[simp] theorem State.setRouter_segs (s : State) (n : Nat) (x : RouterSt) : (s.setRouter n x).segs = s.segs := rfl
@[simp] theorem State.setRouter_bmem (s : State) (n : Nat) (x : RouterSt) : (s.setRouter n x).bmem = s.bmem := rfl
@[simp] theorem State.setRouter_queues (s : State) (n : Nat) (x : RouterSt) : (s.setRouter n x).queues = s.queues := rfl
@[simp] theorem State.setRouter_fields (s : State) (n : Nat) (x : RouterSt) : (s.setRouter n x).fields = s.fields := rfl
@[simp] theorem State.setRouter_spineNow (s : State) (n : Nat) (x : RouterSt) : (s.setRouter n x).spineNow = s.spineNow := rfl
@[simp] theorem State.setRouter_nis (s : State) (n : Nat) (x : RouterSt) : (s.setRouter n x).nis = s.nis := rfl
@[simp] theorem State.setRouter_ports (s : State) (n : Nat) (x : RouterSt) : (s.setRouter n x).ports = s.ports := rfl
@[simp] theorem State.setRouter_lanes (s : State) (n : Nat) (x : RouterSt) : (s.setRouter n x).lanes = s.lanes := rfl
@[simp] theorem State.setRouter_linkOut (s : State) (n : Nat) (x : RouterSt) : (s.setRouter n x).linkOut = s.linkOut := rfl
@[simp] theorem State.setRouter_laneOut (s : State) (n : Nat) (x : RouterSt) : (s.setRouter n x).laneOut = s.laneOut := rfl
@[simp] theorem State.setRouter_images (s : State) (n : Nat) (x : RouterSt) : (s.setRouter n x).images = s.images := rfl
@[simp] theorem State.setRouter_cfg (s : State) (n : Nat) (x : RouterSt) : (s.setRouter n x).cfg = s.cfg := rfl
@[simp] theorem State.setRouter_power (s : State) (n : Nat) (x : RouterSt) : (s.setRouter n x).power = s.power := rfl
@[simp] theorem State.setRouter_straps (s : State) (n : Nat) (x : RouterSt) : (s.setRouter n x).straps = s.straps := rfl
@[simp] theorem State.setRouter_fuses (s : State) (n : Nat) (x : RouterSt) : (s.setRouter n x).fuses = s.fuses := rfl
@[simp] theorem State.setRouter_atReset (s : State) (n : Nat) (x : RouterSt) : (s.setRouter n x).atReset = s.atReset := rfl
@[simp] theorem State.setRouter_tap (s : State) (n : Nat) (x : RouterSt) : (s.setRouter n x).tap = s.tap := rfl
@[simp] theorem State.setRouter_pins (s : State) (n : Nat) (x : RouterSt) : (s.setRouter n x).pins = s.pins := rfl
@[simp] theorem State.setRouter_drams (s : State) (n : Nat) (x : RouterSt) : (s.setRouter n x).drams = s.drams := rfl
@[simp] theorem State.setRouter_cry (s : State) (n : Nat) (x : RouterSt) : (s.setRouter n x).cry = s.cry := rfl
@[simp] theorem State.setRouter_stw (s : State) (n : Nat) (x : RouterSt) : (s.setRouter n x).stw = s.stw := rfl
@[simp] theorem State.setRouter_bist (s : State) (n : Nat) (x : RouterSt) : (s.setRouter n x).bist = s.bist := rfl
@[simp] theorem State.setRouter_dbg (s : State) (n : Nat) (x : RouterSt) : (s.setRouter n x).dbg = s.dbg := rfl
@[simp] theorem State.setRouter_free (s : State) (n : Nat) (x : RouterSt) : (s.setRouter n x).free = s.free := rfl
@[simp] theorem State.router_setRouter (s : State) (n : Nat) (x : RouterSt) : (s.setRouter n x).router n = x := SMap.get_set_same _ _ _ _
theorem State.router_setRouter_other (s : State) (n : Nat) (x : RouterSt) {j : Nat} (h : j ≠ n) : (s.setRouter n x).router j = s.router j :=
  SMap.get_set_other _ _ _ _ h
@[simp] theorem State.router_setReg (s : State) (r : RegRef) (v : Nat) (j : Nat) : (s.setReg r v).router j = s.router j := rfl
@[simp] theorem State.router_put (s : State) (f : Fld) (v : Nat) (j : Nat) : (s.put f v).router j = s.router j := rfl
@[simp] theorem State.reg_setRouter (s : State) (n : Nat) (x : RouterSt) (r : RegRef) : (s.setRouter n x).reg r = s.reg r := rfl
@[simp] theorem State.get_setRouter (s : State) (n : Nat) (x : RouterSt) (r : Fld) : (s.setRouter n x).get r = s.get r := rfl

/-! setNi -/

@[simp] theorem State.setNi_pending (s : State) (n : Nat) (x : NiSt) : (s.setNi n x).pending = s.pending := rfl
@[simp] theorem State.setNi_regs (s : State) (n : Nat) (x : NiSt) : (s.setNi n x).regs = s.regs := rfl
@[simp] theorem State.setNi_staged (s : State) (n : Nat) (x : NiSt) : (s.setNi n x).staged = s.staged := rfl
@[simp] theorem State.setNi_hostPath (s : State) (n : Nat) (x : NiSt) : (s.setNi n x).hostPath = s.hostPath := rfl
@[simp] theorem State.setNi_debugPath (s : State) (n : Nat) (x : NiSt) : (s.setNi n x).debugPath = s.debugPath := rfl
@[simp] theorem State.setNi_stewardPath (s : State) (n : Nat) (x : NiSt) : (s.setNi n x).stewardPath = s.stewardPath := rfl
@[simp] theorem State.setNi_readOut (s : State) (n : Nat) (x : NiSt) : (s.setNi n x).readOut = s.readOut := rfl
@[simp] theorem State.setNi_mode (s : State) (n : Nat) (x : NiSt) : (s.setNi n x).mode = s.mode := rfl
@[simp] theorem State.setNi_time (s : State) (n : Nat) (x : NiSt) : (s.setNi n x).time = s.time := rfl
@[simp] theorem State.setNi_seqs (s : State) (n : Nat) (x : NiSt) : (s.setNi n x).seqs = s.seqs := rfl
@[simp] theorem State.setNi_pass (s : State) (n : Nat) (x : NiSt) : (s.setNi n x).pass = s.pass := rfl
@[simp] theorem State.setNi_tt (s : State) (n : Nat) (x : NiSt) : (s.setNi n x).tt = s.tt := rfl
@[simp] theorem State.setNi_matrix (s : State) (n : Nat) (x : NiSt) : (s.setNi n x).matrix = s.matrix := rfl
@[simp] theorem State.setNi_tsp (s : State) (n : Nat) (x : NiSt) : (s.setNi n x).tsp = s.tsp := rfl
@[simp] theorem State.setNi_log (s : State) (n : Nat) (x : NiSt) : (s.setNi n x).log = s.log := rfl
@[simp] theorem State.setNi_hostOut (s : State) (n : Nat) (x : NiSt) : (s.setNi n x).hostOut = s.hostOut := rfl
@[simp] theorem State.setNi_host (s : State) (n : Nat) (x : NiSt) : (s.setNi n x).host = s.host := rfl
@[simp] theorem State.setNi_cells (s : State) (n : Nat) (x : NiSt) : (s.setNi n x).cells = s.cells := rfl
@[simp] theorem State.setNi_slices (s : State) (n : Nat) (x : NiSt) : (s.setNi n x).slices = s.slices := rfl
@[simp] theorem State.setNi_segs (s : State) (n : Nat) (x : NiSt) : (s.setNi n x).segs = s.segs := rfl
@[simp] theorem State.setNi_bmem (s : State) (n : Nat) (x : NiSt) : (s.setNi n x).bmem = s.bmem := rfl
@[simp] theorem State.setNi_queues (s : State) (n : Nat) (x : NiSt) : (s.setNi n x).queues = s.queues := rfl
@[simp] theorem State.setNi_fields (s : State) (n : Nat) (x : NiSt) : (s.setNi n x).fields = s.fields := rfl
@[simp] theorem State.setNi_routers (s : State) (n : Nat) (x : NiSt) : (s.setNi n x).routers = s.routers := rfl
@[simp] theorem State.setNi_spineNow (s : State) (n : Nat) (x : NiSt) : (s.setNi n x).spineNow = s.spineNow := rfl
@[simp] theorem State.setNi_ports (s : State) (n : Nat) (x : NiSt) : (s.setNi n x).ports = s.ports := rfl
@[simp] theorem State.setNi_lanes (s : State) (n : Nat) (x : NiSt) : (s.setNi n x).lanes = s.lanes := rfl
@[simp] theorem State.setNi_linkOut (s : State) (n : Nat) (x : NiSt) : (s.setNi n x).linkOut = s.linkOut := rfl
@[simp] theorem State.setNi_laneOut (s : State) (n : Nat) (x : NiSt) : (s.setNi n x).laneOut = s.laneOut := rfl
@[simp] theorem State.setNi_images (s : State) (n : Nat) (x : NiSt) : (s.setNi n x).images = s.images := rfl
@[simp] theorem State.setNi_cfg (s : State) (n : Nat) (x : NiSt) : (s.setNi n x).cfg = s.cfg := rfl
@[simp] theorem State.setNi_power (s : State) (n : Nat) (x : NiSt) : (s.setNi n x).power = s.power := rfl
@[simp] theorem State.setNi_straps (s : State) (n : Nat) (x : NiSt) : (s.setNi n x).straps = s.straps := rfl
@[simp] theorem State.setNi_fuses (s : State) (n : Nat) (x : NiSt) : (s.setNi n x).fuses = s.fuses := rfl
@[simp] theorem State.setNi_atReset (s : State) (n : Nat) (x : NiSt) : (s.setNi n x).atReset = s.atReset := rfl
@[simp] theorem State.setNi_tap (s : State) (n : Nat) (x : NiSt) : (s.setNi n x).tap = s.tap := rfl
@[simp] theorem State.setNi_pins (s : State) (n : Nat) (x : NiSt) : (s.setNi n x).pins = s.pins := rfl
@[simp] theorem State.setNi_drams (s : State) (n : Nat) (x : NiSt) : (s.setNi n x).drams = s.drams := rfl
@[simp] theorem State.setNi_cry (s : State) (n : Nat) (x : NiSt) : (s.setNi n x).cry = s.cry := rfl
@[simp] theorem State.setNi_stw (s : State) (n : Nat) (x : NiSt) : (s.setNi n x).stw = s.stw := rfl
@[simp] theorem State.setNi_bist (s : State) (n : Nat) (x : NiSt) : (s.setNi n x).bist = s.bist := rfl
@[simp] theorem State.setNi_dbg (s : State) (n : Nat) (x : NiSt) : (s.setNi n x).dbg = s.dbg := rfl
@[simp] theorem State.setNi_free (s : State) (n : Nat) (x : NiSt) : (s.setNi n x).free = s.free := rfl
@[simp] theorem State.ni_setNi (s : State) (n : Nat) (x : NiSt) : (s.setNi n x).ni n = x := SMap.get_set_same _ _ _ _
theorem State.ni_setNi_other (s : State) (n : Nat) (x : NiSt) {j : Nat} (h : j ≠ n) : (s.setNi n x).ni j = s.ni j :=
  SMap.get_set_other _ _ _ _ h
@[simp] theorem State.ni_setReg (s : State) (r : RegRef) (v : Nat) (j : Nat) : (s.setReg r v).ni j = s.ni j := rfl
@[simp] theorem State.ni_put (s : State) (f : Fld) (v : Nat) (j : Nat) : (s.put f v).ni j = s.ni j := rfl
@[simp] theorem State.reg_setNi (s : State) (n : Nat) (x : NiSt) (r : RegRef) : (s.setNi n x).reg r = s.reg r := rfl
@[simp] theorem State.get_setNi (s : State) (n : Nat) (x : NiSt) (r : Fld) : (s.setNi n x).get r = s.get r := rfl

/-! setImage -/

@[simp] theorem State.setImage_pending (s : State) (f : Nat) (x : Option FieldImage) : (s.setImage f x).pending = s.pending := rfl
@[simp] theorem State.setImage_regs (s : State) (f : Nat) (x : Option FieldImage) : (s.setImage f x).regs = s.regs := rfl
@[simp] theorem State.setImage_staged (s : State) (f : Nat) (x : Option FieldImage) : (s.setImage f x).staged = s.staged := rfl
@[simp] theorem State.setImage_hostPath (s : State) (f : Nat) (x : Option FieldImage) : (s.setImage f x).hostPath = s.hostPath := rfl
@[simp] theorem State.setImage_debugPath (s : State) (f : Nat) (x : Option FieldImage) : (s.setImage f x).debugPath = s.debugPath := rfl
@[simp] theorem State.setImage_stewardPath (s : State) (f : Nat) (x : Option FieldImage) : (s.setImage f x).stewardPath = s.stewardPath := rfl
@[simp] theorem State.setImage_readOut (s : State) (f : Nat) (x : Option FieldImage) : (s.setImage f x).readOut = s.readOut := rfl
@[simp] theorem State.setImage_mode (s : State) (f : Nat) (x : Option FieldImage) : (s.setImage f x).mode = s.mode := rfl
@[simp] theorem State.setImage_time (s : State) (f : Nat) (x : Option FieldImage) : (s.setImage f x).time = s.time := rfl
@[simp] theorem State.setImage_seqs (s : State) (f : Nat) (x : Option FieldImage) : (s.setImage f x).seqs = s.seqs := rfl
@[simp] theorem State.setImage_pass (s : State) (f : Nat) (x : Option FieldImage) : (s.setImage f x).pass = s.pass := rfl
@[simp] theorem State.setImage_tt (s : State) (f : Nat) (x : Option FieldImage) : (s.setImage f x).tt = s.tt := rfl
@[simp] theorem State.setImage_matrix (s : State) (f : Nat) (x : Option FieldImage) : (s.setImage f x).matrix = s.matrix := rfl
@[simp] theorem State.setImage_tsp (s : State) (f : Nat) (x : Option FieldImage) : (s.setImage f x).tsp = s.tsp := rfl
@[simp] theorem State.setImage_log (s : State) (f : Nat) (x : Option FieldImage) : (s.setImage f x).log = s.log := rfl
@[simp] theorem State.setImage_hostOut (s : State) (f : Nat) (x : Option FieldImage) : (s.setImage f x).hostOut = s.hostOut := rfl
@[simp] theorem State.setImage_host (s : State) (f : Nat) (x : Option FieldImage) : (s.setImage f x).host = s.host := rfl
@[simp] theorem State.setImage_cells (s : State) (f : Nat) (x : Option FieldImage) : (s.setImage f x).cells = s.cells := rfl
@[simp] theorem State.setImage_slices (s : State) (f : Nat) (x : Option FieldImage) : (s.setImage f x).slices = s.slices := rfl
@[simp] theorem State.setImage_segs (s : State) (f : Nat) (x : Option FieldImage) : (s.setImage f x).segs = s.segs := rfl
@[simp] theorem State.setImage_bmem (s : State) (f : Nat) (x : Option FieldImage) : (s.setImage f x).bmem = s.bmem := rfl
@[simp] theorem State.setImage_queues (s : State) (f : Nat) (x : Option FieldImage) : (s.setImage f x).queues = s.queues := rfl
@[simp] theorem State.setImage_fields (s : State) (f : Nat) (x : Option FieldImage) : (s.setImage f x).fields = s.fields := rfl
@[simp] theorem State.setImage_routers (s : State) (f : Nat) (x : Option FieldImage) : (s.setImage f x).routers = s.routers := rfl
@[simp] theorem State.setImage_spineNow (s : State) (f : Nat) (x : Option FieldImage) : (s.setImage f x).spineNow = s.spineNow := rfl
@[simp] theorem State.setImage_nis (s : State) (f : Nat) (x : Option FieldImage) : (s.setImage f x).nis = s.nis := rfl
@[simp] theorem State.setImage_ports (s : State) (f : Nat) (x : Option FieldImage) : (s.setImage f x).ports = s.ports := rfl
@[simp] theorem State.setImage_lanes (s : State) (f : Nat) (x : Option FieldImage) : (s.setImage f x).lanes = s.lanes := rfl
@[simp] theorem State.setImage_linkOut (s : State) (f : Nat) (x : Option FieldImage) : (s.setImage f x).linkOut = s.linkOut := rfl
@[simp] theorem State.setImage_laneOut (s : State) (f : Nat) (x : Option FieldImage) : (s.setImage f x).laneOut = s.laneOut := rfl
@[simp] theorem State.setImage_cfg (s : State) (f : Nat) (x : Option FieldImage) : (s.setImage f x).cfg = s.cfg := rfl
@[simp] theorem State.setImage_power (s : State) (f : Nat) (x : Option FieldImage) : (s.setImage f x).power = s.power := rfl
@[simp] theorem State.setImage_straps (s : State) (f : Nat) (x : Option FieldImage) : (s.setImage f x).straps = s.straps := rfl
@[simp] theorem State.setImage_fuses (s : State) (f : Nat) (x : Option FieldImage) : (s.setImage f x).fuses = s.fuses := rfl
@[simp] theorem State.setImage_atReset (s : State) (f : Nat) (x : Option FieldImage) : (s.setImage f x).atReset = s.atReset := rfl
@[simp] theorem State.setImage_tap (s : State) (f : Nat) (x : Option FieldImage) : (s.setImage f x).tap = s.tap := rfl
@[simp] theorem State.setImage_pins (s : State) (f : Nat) (x : Option FieldImage) : (s.setImage f x).pins = s.pins := rfl
@[simp] theorem State.setImage_drams (s : State) (f : Nat) (x : Option FieldImage) : (s.setImage f x).drams = s.drams := rfl
@[simp] theorem State.setImage_cry (s : State) (f : Nat) (x : Option FieldImage) : (s.setImage f x).cry = s.cry := rfl
@[simp] theorem State.setImage_stw (s : State) (f : Nat) (x : Option FieldImage) : (s.setImage f x).stw = s.stw := rfl
@[simp] theorem State.setImage_bist (s : State) (f : Nat) (x : Option FieldImage) : (s.setImage f x).bist = s.bist := rfl
@[simp] theorem State.setImage_dbg (s : State) (f : Nat) (x : Option FieldImage) : (s.setImage f x).dbg = s.dbg := rfl
@[simp] theorem State.setImage_free (s : State) (f : Nat) (x : Option FieldImage) : (s.setImage f x).free = s.free := rfl
@[simp] theorem State.image_setImage (s : State) (f : Nat) (x : Option FieldImage) : (s.setImage f x).image f = x := SMap.get_set_same _ _ _ _
theorem State.image_setImage_other (s : State) (f : Nat) (x : Option FieldImage) {j : Nat} (h : j ≠ f) : (s.setImage f x).image j = s.image j :=
  SMap.get_set_other _ _ _ _ h
@[simp] theorem State.image_setReg (s : State) (r : RegRef) (v : Nat) (j : Nat) : (s.setReg r v).image j = s.image j := rfl
@[simp] theorem State.image_put (s : State) (f : Fld) (v : Nat) (j : Nat) : (s.put f v).image j = s.image j := rfl
@[simp] theorem State.reg_setImage (s : State) (f : Nat) (x : Option FieldImage) (r : RegRef) : (s.setImage f x).reg r = s.reg r := rfl
@[simp] theorem State.get_setImage (s : State) (f : Nat) (x : Option FieldImage) (r : Fld) : (s.setImage f x).get r = s.get r := rfl

/-! setDram -/

@[simp] theorem State.setDram_pending (s : State) (c : Nat) (x : ChSt) : (s.setDram c x).pending = s.pending := rfl
@[simp] theorem State.setDram_regs (s : State) (c : Nat) (x : ChSt) : (s.setDram c x).regs = s.regs := rfl
@[simp] theorem State.setDram_staged (s : State) (c : Nat) (x : ChSt) : (s.setDram c x).staged = s.staged := rfl
@[simp] theorem State.setDram_hostPath (s : State) (c : Nat) (x : ChSt) : (s.setDram c x).hostPath = s.hostPath := rfl
@[simp] theorem State.setDram_debugPath (s : State) (c : Nat) (x : ChSt) : (s.setDram c x).debugPath = s.debugPath := rfl
@[simp] theorem State.setDram_stewardPath (s : State) (c : Nat) (x : ChSt) : (s.setDram c x).stewardPath = s.stewardPath := rfl
@[simp] theorem State.setDram_readOut (s : State) (c : Nat) (x : ChSt) : (s.setDram c x).readOut = s.readOut := rfl
@[simp] theorem State.setDram_mode (s : State) (c : Nat) (x : ChSt) : (s.setDram c x).mode = s.mode := rfl
@[simp] theorem State.setDram_time (s : State) (c : Nat) (x : ChSt) : (s.setDram c x).time = s.time := rfl
@[simp] theorem State.setDram_seqs (s : State) (c : Nat) (x : ChSt) : (s.setDram c x).seqs = s.seqs := rfl
@[simp] theorem State.setDram_pass (s : State) (c : Nat) (x : ChSt) : (s.setDram c x).pass = s.pass := rfl
@[simp] theorem State.setDram_tt (s : State) (c : Nat) (x : ChSt) : (s.setDram c x).tt = s.tt := rfl
@[simp] theorem State.setDram_matrix (s : State) (c : Nat) (x : ChSt) : (s.setDram c x).matrix = s.matrix := rfl
@[simp] theorem State.setDram_tsp (s : State) (c : Nat) (x : ChSt) : (s.setDram c x).tsp = s.tsp := rfl
@[simp] theorem State.setDram_log (s : State) (c : Nat) (x : ChSt) : (s.setDram c x).log = s.log := rfl
@[simp] theorem State.setDram_hostOut (s : State) (c : Nat) (x : ChSt) : (s.setDram c x).hostOut = s.hostOut := rfl
@[simp] theorem State.setDram_host (s : State) (c : Nat) (x : ChSt) : (s.setDram c x).host = s.host := rfl
@[simp] theorem State.setDram_cells (s : State) (c : Nat) (x : ChSt) : (s.setDram c x).cells = s.cells := rfl
@[simp] theorem State.setDram_slices (s : State) (c : Nat) (x : ChSt) : (s.setDram c x).slices = s.slices := rfl
@[simp] theorem State.setDram_segs (s : State) (c : Nat) (x : ChSt) : (s.setDram c x).segs = s.segs := rfl
@[simp] theorem State.setDram_bmem (s : State) (c : Nat) (x : ChSt) : (s.setDram c x).bmem = s.bmem := rfl
@[simp] theorem State.setDram_queues (s : State) (c : Nat) (x : ChSt) : (s.setDram c x).queues = s.queues := rfl
@[simp] theorem State.setDram_fields (s : State) (c : Nat) (x : ChSt) : (s.setDram c x).fields = s.fields := rfl
@[simp] theorem State.setDram_routers (s : State) (c : Nat) (x : ChSt) : (s.setDram c x).routers = s.routers := rfl
@[simp] theorem State.setDram_spineNow (s : State) (c : Nat) (x : ChSt) : (s.setDram c x).spineNow = s.spineNow := rfl
@[simp] theorem State.setDram_nis (s : State) (c : Nat) (x : ChSt) : (s.setDram c x).nis = s.nis := rfl
@[simp] theorem State.setDram_ports (s : State) (c : Nat) (x : ChSt) : (s.setDram c x).ports = s.ports := rfl
@[simp] theorem State.setDram_lanes (s : State) (c : Nat) (x : ChSt) : (s.setDram c x).lanes = s.lanes := rfl
@[simp] theorem State.setDram_linkOut (s : State) (c : Nat) (x : ChSt) : (s.setDram c x).linkOut = s.linkOut := rfl
@[simp] theorem State.setDram_laneOut (s : State) (c : Nat) (x : ChSt) : (s.setDram c x).laneOut = s.laneOut := rfl
@[simp] theorem State.setDram_images (s : State) (c : Nat) (x : ChSt) : (s.setDram c x).images = s.images := rfl
@[simp] theorem State.setDram_cfg (s : State) (c : Nat) (x : ChSt) : (s.setDram c x).cfg = s.cfg := rfl
@[simp] theorem State.setDram_power (s : State) (c : Nat) (x : ChSt) : (s.setDram c x).power = s.power := rfl
@[simp] theorem State.setDram_straps (s : State) (c : Nat) (x : ChSt) : (s.setDram c x).straps = s.straps := rfl
@[simp] theorem State.setDram_fuses (s : State) (c : Nat) (x : ChSt) : (s.setDram c x).fuses = s.fuses := rfl
@[simp] theorem State.setDram_atReset (s : State) (c : Nat) (x : ChSt) : (s.setDram c x).atReset = s.atReset := rfl
@[simp] theorem State.setDram_tap (s : State) (c : Nat) (x : ChSt) : (s.setDram c x).tap = s.tap := rfl
@[simp] theorem State.setDram_pins (s : State) (c : Nat) (x : ChSt) : (s.setDram c x).pins = s.pins := rfl
@[simp] theorem State.setDram_cry (s : State) (c : Nat) (x : ChSt) : (s.setDram c x).cry = s.cry := rfl
@[simp] theorem State.setDram_stw (s : State) (c : Nat) (x : ChSt) : (s.setDram c x).stw = s.stw := rfl
@[simp] theorem State.setDram_bist (s : State) (c : Nat) (x : ChSt) : (s.setDram c x).bist = s.bist := rfl
@[simp] theorem State.setDram_dbg (s : State) (c : Nat) (x : ChSt) : (s.setDram c x).dbg = s.dbg := rfl
@[simp] theorem State.setDram_free (s : State) (c : Nat) (x : ChSt) : (s.setDram c x).free = s.free := rfl
@[simp] theorem State.dram_setDram (s : State) (c : Nat) (x : ChSt) : (s.setDram c x).dram c = x := SMap.get_set_same _ _ _ _
theorem State.dram_setDram_other (s : State) (c : Nat) (x : ChSt) {j : Nat} (h : j ≠ c) : (s.setDram c x).dram j = s.dram j :=
  SMap.get_set_other _ _ _ _ h
@[simp] theorem State.dram_setReg (s : State) (r : RegRef) (v : Nat) (j : Nat) : (s.setReg r v).dram j = s.dram j := rfl
@[simp] theorem State.dram_put (s : State) (f : Fld) (v : Nat) (j : Nat) : (s.put f v).dram j = s.dram j := rfl
@[simp] theorem State.reg_setDram (s : State) (c : Nat) (x : ChSt) (r : RegRef) : (s.setDram c x).reg r = s.reg r := rfl
@[simp] theorem State.get_setDram (s : State) (c : Nat) (x : ChSt) (r : Fld) : (s.setDram c x).get r = s.get r := rfl

/-! setPort -/

@[simp] theorem State.setPort_pending (s : State) (p : Nat) (x : PortSt) : (s.setPort p x).pending = s.pending := rfl
@[simp] theorem State.setPort_regs (s : State) (p : Nat) (x : PortSt) : (s.setPort p x).regs = s.regs := rfl
@[simp] theorem State.setPort_staged (s : State) (p : Nat) (x : PortSt) : (s.setPort p x).staged = s.staged := rfl
@[simp] theorem State.setPort_hostPath (s : State) (p : Nat) (x : PortSt) : (s.setPort p x).hostPath = s.hostPath := rfl
@[simp] theorem State.setPort_debugPath (s : State) (p : Nat) (x : PortSt) : (s.setPort p x).debugPath = s.debugPath := rfl
@[simp] theorem State.setPort_stewardPath (s : State) (p : Nat) (x : PortSt) : (s.setPort p x).stewardPath = s.stewardPath := rfl
@[simp] theorem State.setPort_readOut (s : State) (p : Nat) (x : PortSt) : (s.setPort p x).readOut = s.readOut := rfl
@[simp] theorem State.setPort_mode (s : State) (p : Nat) (x : PortSt) : (s.setPort p x).mode = s.mode := rfl
@[simp] theorem State.setPort_time (s : State) (p : Nat) (x : PortSt) : (s.setPort p x).time = s.time := rfl
@[simp] theorem State.setPort_seqs (s : State) (p : Nat) (x : PortSt) : (s.setPort p x).seqs = s.seqs := rfl
@[simp] theorem State.setPort_pass (s : State) (p : Nat) (x : PortSt) : (s.setPort p x).pass = s.pass := rfl
@[simp] theorem State.setPort_tt (s : State) (p : Nat) (x : PortSt) : (s.setPort p x).tt = s.tt := rfl
@[simp] theorem State.setPort_matrix (s : State) (p : Nat) (x : PortSt) : (s.setPort p x).matrix = s.matrix := rfl
@[simp] theorem State.setPort_tsp (s : State) (p : Nat) (x : PortSt) : (s.setPort p x).tsp = s.tsp := rfl
@[simp] theorem State.setPort_log (s : State) (p : Nat) (x : PortSt) : (s.setPort p x).log = s.log := rfl
@[simp] theorem State.setPort_hostOut (s : State) (p : Nat) (x : PortSt) : (s.setPort p x).hostOut = s.hostOut := rfl
@[simp] theorem State.setPort_host (s : State) (p : Nat) (x : PortSt) : (s.setPort p x).host = s.host := rfl
@[simp] theorem State.setPort_cells (s : State) (p : Nat) (x : PortSt) : (s.setPort p x).cells = s.cells := rfl
@[simp] theorem State.setPort_slices (s : State) (p : Nat) (x : PortSt) : (s.setPort p x).slices = s.slices := rfl
@[simp] theorem State.setPort_segs (s : State) (p : Nat) (x : PortSt) : (s.setPort p x).segs = s.segs := rfl
@[simp] theorem State.setPort_bmem (s : State) (p : Nat) (x : PortSt) : (s.setPort p x).bmem = s.bmem := rfl
@[simp] theorem State.setPort_queues (s : State) (p : Nat) (x : PortSt) : (s.setPort p x).queues = s.queues := rfl
@[simp] theorem State.setPort_fields (s : State) (p : Nat) (x : PortSt) : (s.setPort p x).fields = s.fields := rfl
@[simp] theorem State.setPort_routers (s : State) (p : Nat) (x : PortSt) : (s.setPort p x).routers = s.routers := rfl
@[simp] theorem State.setPort_spineNow (s : State) (p : Nat) (x : PortSt) : (s.setPort p x).spineNow = s.spineNow := rfl
@[simp] theorem State.setPort_nis (s : State) (p : Nat) (x : PortSt) : (s.setPort p x).nis = s.nis := rfl
@[simp] theorem State.setPort_lanes (s : State) (p : Nat) (x : PortSt) : (s.setPort p x).lanes = s.lanes := rfl
@[simp] theorem State.setPort_linkOut (s : State) (p : Nat) (x : PortSt) : (s.setPort p x).linkOut = s.linkOut := rfl
@[simp] theorem State.setPort_laneOut (s : State) (p : Nat) (x : PortSt) : (s.setPort p x).laneOut = s.laneOut := rfl
@[simp] theorem State.setPort_images (s : State) (p : Nat) (x : PortSt) : (s.setPort p x).images = s.images := rfl
@[simp] theorem State.setPort_cfg (s : State) (p : Nat) (x : PortSt) : (s.setPort p x).cfg = s.cfg := rfl
@[simp] theorem State.setPort_power (s : State) (p : Nat) (x : PortSt) : (s.setPort p x).power = s.power := rfl
@[simp] theorem State.setPort_straps (s : State) (p : Nat) (x : PortSt) : (s.setPort p x).straps = s.straps := rfl
@[simp] theorem State.setPort_fuses (s : State) (p : Nat) (x : PortSt) : (s.setPort p x).fuses = s.fuses := rfl
@[simp] theorem State.setPort_atReset (s : State) (p : Nat) (x : PortSt) : (s.setPort p x).atReset = s.atReset := rfl
@[simp] theorem State.setPort_tap (s : State) (p : Nat) (x : PortSt) : (s.setPort p x).tap = s.tap := rfl
@[simp] theorem State.setPort_pins (s : State) (p : Nat) (x : PortSt) : (s.setPort p x).pins = s.pins := rfl
@[simp] theorem State.setPort_drams (s : State) (p : Nat) (x : PortSt) : (s.setPort p x).drams = s.drams := rfl
@[simp] theorem State.setPort_cry (s : State) (p : Nat) (x : PortSt) : (s.setPort p x).cry = s.cry := rfl
@[simp] theorem State.setPort_stw (s : State) (p : Nat) (x : PortSt) : (s.setPort p x).stw = s.stw := rfl
@[simp] theorem State.setPort_bist (s : State) (p : Nat) (x : PortSt) : (s.setPort p x).bist = s.bist := rfl
@[simp] theorem State.setPort_dbg (s : State) (p : Nat) (x : PortSt) : (s.setPort p x).dbg = s.dbg := rfl
@[simp] theorem State.setPort_free (s : State) (p : Nat) (x : PortSt) : (s.setPort p x).free = s.free := rfl
@[simp] theorem State.portSt_setPort (s : State) (p : Nat) (x : PortSt) : (s.setPort p x).portSt p = x := SMap.get_set_same _ _ _ _
theorem State.portSt_setPort_other (s : State) (p : Nat) (x : PortSt) {j : Nat} (h : j ≠ p) : (s.setPort p x).portSt j = s.portSt j :=
  SMap.get_set_other _ _ _ _ h
@[simp] theorem State.portSt_setReg (s : State) (r : RegRef) (v : Nat) (j : Nat) : (s.setReg r v).portSt j = s.portSt j := rfl
@[simp] theorem State.portSt_put (s : State) (f : Fld) (v : Nat) (j : Nat) : (s.put f v).portSt j = s.portSt j := rfl
@[simp] theorem State.reg_setPort (s : State) (p : Nat) (x : PortSt) (r : RegRef) : (s.setPort p x).reg r = s.reg r := rfl
@[simp] theorem State.get_setPort (s : State) (p : Nat) (x : PortSt) (r : Fld) : (s.setPort p x).get r = s.get r := rfl

/-! setLane -/

@[simp] theorem State.setLane_pending (s : State) (l : Nat) (x : LaneSt) : (s.setLane l x).pending = s.pending := rfl
@[simp] theorem State.setLane_regs (s : State) (l : Nat) (x : LaneSt) : (s.setLane l x).regs = s.regs := rfl
@[simp] theorem State.setLane_staged (s : State) (l : Nat) (x : LaneSt) : (s.setLane l x).staged = s.staged := rfl
@[simp] theorem State.setLane_hostPath (s : State) (l : Nat) (x : LaneSt) : (s.setLane l x).hostPath = s.hostPath := rfl
@[simp] theorem State.setLane_debugPath (s : State) (l : Nat) (x : LaneSt) : (s.setLane l x).debugPath = s.debugPath := rfl
@[simp] theorem State.setLane_stewardPath (s : State) (l : Nat) (x : LaneSt) : (s.setLane l x).stewardPath = s.stewardPath := rfl
@[simp] theorem State.setLane_readOut (s : State) (l : Nat) (x : LaneSt) : (s.setLane l x).readOut = s.readOut := rfl
@[simp] theorem State.setLane_mode (s : State) (l : Nat) (x : LaneSt) : (s.setLane l x).mode = s.mode := rfl
@[simp] theorem State.setLane_time (s : State) (l : Nat) (x : LaneSt) : (s.setLane l x).time = s.time := rfl
@[simp] theorem State.setLane_seqs (s : State) (l : Nat) (x : LaneSt) : (s.setLane l x).seqs = s.seqs := rfl
@[simp] theorem State.setLane_pass (s : State) (l : Nat) (x : LaneSt) : (s.setLane l x).pass = s.pass := rfl
@[simp] theorem State.setLane_tt (s : State) (l : Nat) (x : LaneSt) : (s.setLane l x).tt = s.tt := rfl
@[simp] theorem State.setLane_matrix (s : State) (l : Nat) (x : LaneSt) : (s.setLane l x).matrix = s.matrix := rfl
@[simp] theorem State.setLane_tsp (s : State) (l : Nat) (x : LaneSt) : (s.setLane l x).tsp = s.tsp := rfl
@[simp] theorem State.setLane_log (s : State) (l : Nat) (x : LaneSt) : (s.setLane l x).log = s.log := rfl
@[simp] theorem State.setLane_hostOut (s : State) (l : Nat) (x : LaneSt) : (s.setLane l x).hostOut = s.hostOut := rfl
@[simp] theorem State.setLane_host (s : State) (l : Nat) (x : LaneSt) : (s.setLane l x).host = s.host := rfl
@[simp] theorem State.setLane_cells (s : State) (l : Nat) (x : LaneSt) : (s.setLane l x).cells = s.cells := rfl
@[simp] theorem State.setLane_slices (s : State) (l : Nat) (x : LaneSt) : (s.setLane l x).slices = s.slices := rfl
@[simp] theorem State.setLane_segs (s : State) (l : Nat) (x : LaneSt) : (s.setLane l x).segs = s.segs := rfl
@[simp] theorem State.setLane_bmem (s : State) (l : Nat) (x : LaneSt) : (s.setLane l x).bmem = s.bmem := rfl
@[simp] theorem State.setLane_queues (s : State) (l : Nat) (x : LaneSt) : (s.setLane l x).queues = s.queues := rfl
@[simp] theorem State.setLane_fields (s : State) (l : Nat) (x : LaneSt) : (s.setLane l x).fields = s.fields := rfl
@[simp] theorem State.setLane_routers (s : State) (l : Nat) (x : LaneSt) : (s.setLane l x).routers = s.routers := rfl
@[simp] theorem State.setLane_spineNow (s : State) (l : Nat) (x : LaneSt) : (s.setLane l x).spineNow = s.spineNow := rfl
@[simp] theorem State.setLane_nis (s : State) (l : Nat) (x : LaneSt) : (s.setLane l x).nis = s.nis := rfl
@[simp] theorem State.setLane_ports (s : State) (l : Nat) (x : LaneSt) : (s.setLane l x).ports = s.ports := rfl
@[simp] theorem State.setLane_linkOut (s : State) (l : Nat) (x : LaneSt) : (s.setLane l x).linkOut = s.linkOut := rfl
@[simp] theorem State.setLane_laneOut (s : State) (l : Nat) (x : LaneSt) : (s.setLane l x).laneOut = s.laneOut := rfl
@[simp] theorem State.setLane_images (s : State) (l : Nat) (x : LaneSt) : (s.setLane l x).images = s.images := rfl
@[simp] theorem State.setLane_cfg (s : State) (l : Nat) (x : LaneSt) : (s.setLane l x).cfg = s.cfg := rfl
@[simp] theorem State.setLane_power (s : State) (l : Nat) (x : LaneSt) : (s.setLane l x).power = s.power := rfl
@[simp] theorem State.setLane_straps (s : State) (l : Nat) (x : LaneSt) : (s.setLane l x).straps = s.straps := rfl
@[simp] theorem State.setLane_fuses (s : State) (l : Nat) (x : LaneSt) : (s.setLane l x).fuses = s.fuses := rfl
@[simp] theorem State.setLane_atReset (s : State) (l : Nat) (x : LaneSt) : (s.setLane l x).atReset = s.atReset := rfl
@[simp] theorem State.setLane_tap (s : State) (l : Nat) (x : LaneSt) : (s.setLane l x).tap = s.tap := rfl
@[simp] theorem State.setLane_pins (s : State) (l : Nat) (x : LaneSt) : (s.setLane l x).pins = s.pins := rfl
@[simp] theorem State.setLane_drams (s : State) (l : Nat) (x : LaneSt) : (s.setLane l x).drams = s.drams := rfl
@[simp] theorem State.setLane_cry (s : State) (l : Nat) (x : LaneSt) : (s.setLane l x).cry = s.cry := rfl
@[simp] theorem State.setLane_stw (s : State) (l : Nat) (x : LaneSt) : (s.setLane l x).stw = s.stw := rfl
@[simp] theorem State.setLane_bist (s : State) (l : Nat) (x : LaneSt) : (s.setLane l x).bist = s.bist := rfl
@[simp] theorem State.setLane_dbg (s : State) (l : Nat) (x : LaneSt) : (s.setLane l x).dbg = s.dbg := rfl
@[simp] theorem State.setLane_free (s : State) (l : Nat) (x : LaneSt) : (s.setLane l x).free = s.free := rfl
@[simp] theorem State.laneSt_setLane (s : State) (l : Nat) (x : LaneSt) : (s.setLane l x).laneSt l = x := SMap.get_set_same _ _ _ _
theorem State.laneSt_setLane_other (s : State) (l : Nat) (x : LaneSt) {j : Nat} (h : j ≠ l) : (s.setLane l x).laneSt j = s.laneSt j :=
  SMap.get_set_other _ _ _ _ h
@[simp] theorem State.laneSt_setReg (s : State) (r : RegRef) (v : Nat) (j : Nat) : (s.setReg r v).laneSt j = s.laneSt j := rfl
@[simp] theorem State.laneSt_put (s : State) (f : Fld) (v : Nat) (j : Nat) : (s.put f v).laneSt j = s.laneSt j := rfl
@[simp] theorem State.reg_setLane (s : State) (l : Nat) (x : LaneSt) (r : RegRef) : (s.setLane l x).reg r = s.reg r := rfl
@[simp] theorem State.get_setLane (s : State) (l : Nat) (x : LaneSt) (r : Fld) : (s.setLane l x).get r = s.get r := rfl

/-! setTsp -/

@[simp] theorem State.setTsp_pending (s : State) (i : Nat) (x : TspSt) : (s.setTsp i x).pending = s.pending := rfl
@[simp] theorem State.setTsp_regs (s : State) (i : Nat) (x : TspSt) : (s.setTsp i x).regs = s.regs := rfl
@[simp] theorem State.setTsp_staged (s : State) (i : Nat) (x : TspSt) : (s.setTsp i x).staged = s.staged := rfl
@[simp] theorem State.setTsp_hostPath (s : State) (i : Nat) (x : TspSt) : (s.setTsp i x).hostPath = s.hostPath := rfl
@[simp] theorem State.setTsp_debugPath (s : State) (i : Nat) (x : TspSt) : (s.setTsp i x).debugPath = s.debugPath := rfl
@[simp] theorem State.setTsp_stewardPath (s : State) (i : Nat) (x : TspSt) : (s.setTsp i x).stewardPath = s.stewardPath := rfl
@[simp] theorem State.setTsp_readOut (s : State) (i : Nat) (x : TspSt) : (s.setTsp i x).readOut = s.readOut := rfl
@[simp] theorem State.setTsp_mode (s : State) (i : Nat) (x : TspSt) : (s.setTsp i x).mode = s.mode := rfl
@[simp] theorem State.setTsp_time (s : State) (i : Nat) (x : TspSt) : (s.setTsp i x).time = s.time := rfl
@[simp] theorem State.setTsp_seqs (s : State) (i : Nat) (x : TspSt) : (s.setTsp i x).seqs = s.seqs := rfl
@[simp] theorem State.setTsp_pass (s : State) (i : Nat) (x : TspSt) : (s.setTsp i x).pass = s.pass := rfl
@[simp] theorem State.setTsp_tt (s : State) (i : Nat) (x : TspSt) : (s.setTsp i x).tt = s.tt := rfl
@[simp] theorem State.setTsp_matrix (s : State) (i : Nat) (x : TspSt) : (s.setTsp i x).matrix = s.matrix := rfl
@[simp] theorem State.setTsp_log (s : State) (i : Nat) (x : TspSt) : (s.setTsp i x).log = s.log := rfl
@[simp] theorem State.setTsp_hostOut (s : State) (i : Nat) (x : TspSt) : (s.setTsp i x).hostOut = s.hostOut := rfl
@[simp] theorem State.setTsp_host (s : State) (i : Nat) (x : TspSt) : (s.setTsp i x).host = s.host := rfl
@[simp] theorem State.setTsp_cells (s : State) (i : Nat) (x : TspSt) : (s.setTsp i x).cells = s.cells := rfl
@[simp] theorem State.setTsp_slices (s : State) (i : Nat) (x : TspSt) : (s.setTsp i x).slices = s.slices := rfl
@[simp] theorem State.setTsp_segs (s : State) (i : Nat) (x : TspSt) : (s.setTsp i x).segs = s.segs := rfl
@[simp] theorem State.setTsp_bmem (s : State) (i : Nat) (x : TspSt) : (s.setTsp i x).bmem = s.bmem := rfl
@[simp] theorem State.setTsp_queues (s : State) (i : Nat) (x : TspSt) : (s.setTsp i x).queues = s.queues := rfl
@[simp] theorem State.setTsp_fields (s : State) (i : Nat) (x : TspSt) : (s.setTsp i x).fields = s.fields := rfl
@[simp] theorem State.setTsp_routers (s : State) (i : Nat) (x : TspSt) : (s.setTsp i x).routers = s.routers := rfl
@[simp] theorem State.setTsp_spineNow (s : State) (i : Nat) (x : TspSt) : (s.setTsp i x).spineNow = s.spineNow := rfl
@[simp] theorem State.setTsp_nis (s : State) (i : Nat) (x : TspSt) : (s.setTsp i x).nis = s.nis := rfl
@[simp] theorem State.setTsp_ports (s : State) (i : Nat) (x : TspSt) : (s.setTsp i x).ports = s.ports := rfl
@[simp] theorem State.setTsp_lanes (s : State) (i : Nat) (x : TspSt) : (s.setTsp i x).lanes = s.lanes := rfl
@[simp] theorem State.setTsp_linkOut (s : State) (i : Nat) (x : TspSt) : (s.setTsp i x).linkOut = s.linkOut := rfl
@[simp] theorem State.setTsp_laneOut (s : State) (i : Nat) (x : TspSt) : (s.setTsp i x).laneOut = s.laneOut := rfl
@[simp] theorem State.setTsp_images (s : State) (i : Nat) (x : TspSt) : (s.setTsp i x).images = s.images := rfl
@[simp] theorem State.setTsp_cfg (s : State) (i : Nat) (x : TspSt) : (s.setTsp i x).cfg = s.cfg := rfl
@[simp] theorem State.setTsp_power (s : State) (i : Nat) (x : TspSt) : (s.setTsp i x).power = s.power := rfl
@[simp] theorem State.setTsp_straps (s : State) (i : Nat) (x : TspSt) : (s.setTsp i x).straps = s.straps := rfl
@[simp] theorem State.setTsp_fuses (s : State) (i : Nat) (x : TspSt) : (s.setTsp i x).fuses = s.fuses := rfl
@[simp] theorem State.setTsp_atReset (s : State) (i : Nat) (x : TspSt) : (s.setTsp i x).atReset = s.atReset := rfl
@[simp] theorem State.setTsp_tap (s : State) (i : Nat) (x : TspSt) : (s.setTsp i x).tap = s.tap := rfl
@[simp] theorem State.setTsp_pins (s : State) (i : Nat) (x : TspSt) : (s.setTsp i x).pins = s.pins := rfl
@[simp] theorem State.setTsp_drams (s : State) (i : Nat) (x : TspSt) : (s.setTsp i x).drams = s.drams := rfl
@[simp] theorem State.setTsp_cry (s : State) (i : Nat) (x : TspSt) : (s.setTsp i x).cry = s.cry := rfl
@[simp] theorem State.setTsp_stw (s : State) (i : Nat) (x : TspSt) : (s.setTsp i x).stw = s.stw := rfl
@[simp] theorem State.setTsp_bist (s : State) (i : Nat) (x : TspSt) : (s.setTsp i x).bist = s.bist := rfl
@[simp] theorem State.setTsp_dbg (s : State) (i : Nat) (x : TspSt) : (s.setTsp i x).dbg = s.dbg := rfl
@[simp] theorem State.setTsp_free (s : State) (i : Nat) (x : TspSt) : (s.setTsp i x).free = s.free := rfl
@[simp] theorem State.tspSt_setTsp (s : State) (i : Nat) (x : TspSt) : (s.setTsp i x).tspSt i = x := SMap.get_set_same _ _ _ _
theorem State.tspSt_setTsp_other (s : State) (i : Nat) (x : TspSt) {j : Nat} (h : j ≠ i) : (s.setTsp i x).tspSt j = s.tspSt j :=
  SMap.get_set_other _ _ _ _ h
@[simp] theorem State.tspSt_setReg (s : State) (r : RegRef) (v : Nat) (j : Nat) : (s.setReg r v).tspSt j = s.tspSt j := rfl
@[simp] theorem State.tspSt_put (s : State) (f : Fld) (v : Nat) (j : Nat) : (s.put f v).tspSt j = s.tspSt j := rfl
@[simp] theorem State.reg_setTsp (s : State) (i : Nat) (x : TspSt) (r : RegRef) : (s.setTsp i x).reg r = s.reg r := rfl
@[simp] theorem State.get_setTsp (s : State) (i : Nat) (x : TspSt) (r : Fld) : (s.setTsp i x).get r = s.get r := rfl

/-! setMatrix -/

@[simp] theorem State.setMatrix_pending (s : State) (m : MatrixSt) : (s.setMatrix m).pending = s.pending := rfl
@[simp] theorem State.setMatrix_regs (s : State) (m : MatrixSt) : (s.setMatrix m).regs = s.regs := rfl
@[simp] theorem State.setMatrix_staged (s : State) (m : MatrixSt) : (s.setMatrix m).staged = s.staged := rfl
@[simp] theorem State.setMatrix_hostPath (s : State) (m : MatrixSt) : (s.setMatrix m).hostPath = s.hostPath := rfl
@[simp] theorem State.setMatrix_debugPath (s : State) (m : MatrixSt) : (s.setMatrix m).debugPath = s.debugPath := rfl
@[simp] theorem State.setMatrix_stewardPath (s : State) (m : MatrixSt) : (s.setMatrix m).stewardPath = s.stewardPath := rfl
@[simp] theorem State.setMatrix_readOut (s : State) (m : MatrixSt) : (s.setMatrix m).readOut = s.readOut := rfl
@[simp] theorem State.setMatrix_mode (s : State) (m : MatrixSt) : (s.setMatrix m).mode = s.mode := rfl
@[simp] theorem State.setMatrix_time (s : State) (m : MatrixSt) : (s.setMatrix m).time = s.time := rfl
@[simp] theorem State.setMatrix_seqs (s : State) (m : MatrixSt) : (s.setMatrix m).seqs = s.seqs := rfl
@[simp] theorem State.setMatrix_pass (s : State) (m : MatrixSt) : (s.setMatrix m).pass = s.pass := rfl
@[simp] theorem State.setMatrix_tt (s : State) (m : MatrixSt) : (s.setMatrix m).tt = s.tt := rfl
@[simp] theorem State.setMatrix_tsp (s : State) (m : MatrixSt) : (s.setMatrix m).tsp = s.tsp := rfl
@[simp] theorem State.setMatrix_log (s : State) (m : MatrixSt) : (s.setMatrix m).log = s.log := rfl
@[simp] theorem State.setMatrix_hostOut (s : State) (m : MatrixSt) : (s.setMatrix m).hostOut = s.hostOut := rfl
@[simp] theorem State.setMatrix_host (s : State) (m : MatrixSt) : (s.setMatrix m).host = s.host := rfl
@[simp] theorem State.setMatrix_cells (s : State) (m : MatrixSt) : (s.setMatrix m).cells = s.cells := rfl
@[simp] theorem State.setMatrix_slices (s : State) (m : MatrixSt) : (s.setMatrix m).slices = s.slices := rfl
@[simp] theorem State.setMatrix_segs (s : State) (m : MatrixSt) : (s.setMatrix m).segs = s.segs := rfl
@[simp] theorem State.setMatrix_bmem (s : State) (m : MatrixSt) : (s.setMatrix m).bmem = s.bmem := rfl
@[simp] theorem State.setMatrix_queues (s : State) (m : MatrixSt) : (s.setMatrix m).queues = s.queues := rfl
@[simp] theorem State.setMatrix_fields (s : State) (m : MatrixSt) : (s.setMatrix m).fields = s.fields := rfl
@[simp] theorem State.setMatrix_routers (s : State) (m : MatrixSt) : (s.setMatrix m).routers = s.routers := rfl
@[simp] theorem State.setMatrix_spineNow (s : State) (m : MatrixSt) : (s.setMatrix m).spineNow = s.spineNow := rfl
@[simp] theorem State.setMatrix_nis (s : State) (m : MatrixSt) : (s.setMatrix m).nis = s.nis := rfl
@[simp] theorem State.setMatrix_ports (s : State) (m : MatrixSt) : (s.setMatrix m).ports = s.ports := rfl
@[simp] theorem State.setMatrix_lanes (s : State) (m : MatrixSt) : (s.setMatrix m).lanes = s.lanes := rfl
@[simp] theorem State.setMatrix_linkOut (s : State) (m : MatrixSt) : (s.setMatrix m).linkOut = s.linkOut := rfl
@[simp] theorem State.setMatrix_laneOut (s : State) (m : MatrixSt) : (s.setMatrix m).laneOut = s.laneOut := rfl
@[simp] theorem State.setMatrix_images (s : State) (m : MatrixSt) : (s.setMatrix m).images = s.images := rfl
@[simp] theorem State.setMatrix_cfg (s : State) (m : MatrixSt) : (s.setMatrix m).cfg = s.cfg := rfl
@[simp] theorem State.setMatrix_power (s : State) (m : MatrixSt) : (s.setMatrix m).power = s.power := rfl
@[simp] theorem State.setMatrix_straps (s : State) (m : MatrixSt) : (s.setMatrix m).straps = s.straps := rfl
@[simp] theorem State.setMatrix_fuses (s : State) (m : MatrixSt) : (s.setMatrix m).fuses = s.fuses := rfl
@[simp] theorem State.setMatrix_atReset (s : State) (m : MatrixSt) : (s.setMatrix m).atReset = s.atReset := rfl
@[simp] theorem State.setMatrix_tap (s : State) (m : MatrixSt) : (s.setMatrix m).tap = s.tap := rfl
@[simp] theorem State.setMatrix_pins (s : State) (m : MatrixSt) : (s.setMatrix m).pins = s.pins := rfl
@[simp] theorem State.setMatrix_drams (s : State) (m : MatrixSt) : (s.setMatrix m).drams = s.drams := rfl
@[simp] theorem State.setMatrix_cry (s : State) (m : MatrixSt) : (s.setMatrix m).cry = s.cry := rfl
@[simp] theorem State.setMatrix_stw (s : State) (m : MatrixSt) : (s.setMatrix m).stw = s.stw := rfl
@[simp] theorem State.setMatrix_bist (s : State) (m : MatrixSt) : (s.setMatrix m).bist = s.bist := rfl
@[simp] theorem State.setMatrix_dbg (s : State) (m : MatrixSt) : (s.setMatrix m).dbg = s.dbg := rfl
@[simp] theorem State.setMatrix_free (s : State) (m : MatrixSt) : (s.setMatrix m).free = s.free := rfl

/-! setBist -/

@[simp] theorem State.setBist_pending (s : State) (b : BistSt) : (s.setBist b).pending = s.pending := rfl
@[simp] theorem State.setBist_regs (s : State) (b : BistSt) : (s.setBist b).regs = s.regs := rfl
@[simp] theorem State.setBist_staged (s : State) (b : BistSt) : (s.setBist b).staged = s.staged := rfl
@[simp] theorem State.setBist_hostPath (s : State) (b : BistSt) : (s.setBist b).hostPath = s.hostPath := rfl
@[simp] theorem State.setBist_debugPath (s : State) (b : BistSt) : (s.setBist b).debugPath = s.debugPath := rfl
@[simp] theorem State.setBist_stewardPath (s : State) (b : BistSt) : (s.setBist b).stewardPath = s.stewardPath := rfl
@[simp] theorem State.setBist_readOut (s : State) (b : BistSt) : (s.setBist b).readOut = s.readOut := rfl
@[simp] theorem State.setBist_mode (s : State) (b : BistSt) : (s.setBist b).mode = s.mode := rfl
@[simp] theorem State.setBist_time (s : State) (b : BistSt) : (s.setBist b).time = s.time := rfl
@[simp] theorem State.setBist_seqs (s : State) (b : BistSt) : (s.setBist b).seqs = s.seqs := rfl
@[simp] theorem State.setBist_pass (s : State) (b : BistSt) : (s.setBist b).pass = s.pass := rfl
@[simp] theorem State.setBist_tt (s : State) (b : BistSt) : (s.setBist b).tt = s.tt := rfl
@[simp] theorem State.setBist_matrix (s : State) (b : BistSt) : (s.setBist b).matrix = s.matrix := rfl
@[simp] theorem State.setBist_tsp (s : State) (b : BistSt) : (s.setBist b).tsp = s.tsp := rfl
@[simp] theorem State.setBist_log (s : State) (b : BistSt) : (s.setBist b).log = s.log := rfl
@[simp] theorem State.setBist_hostOut (s : State) (b : BistSt) : (s.setBist b).hostOut = s.hostOut := rfl
@[simp] theorem State.setBist_host (s : State) (b : BistSt) : (s.setBist b).host = s.host := rfl
@[simp] theorem State.setBist_cells (s : State) (b : BistSt) : (s.setBist b).cells = s.cells := rfl
@[simp] theorem State.setBist_slices (s : State) (b : BistSt) : (s.setBist b).slices = s.slices := rfl
@[simp] theorem State.setBist_segs (s : State) (b : BistSt) : (s.setBist b).segs = s.segs := rfl
@[simp] theorem State.setBist_bmem (s : State) (b : BistSt) : (s.setBist b).bmem = s.bmem := rfl
@[simp] theorem State.setBist_queues (s : State) (b : BistSt) : (s.setBist b).queues = s.queues := rfl
@[simp] theorem State.setBist_fields (s : State) (b : BistSt) : (s.setBist b).fields = s.fields := rfl
@[simp] theorem State.setBist_routers (s : State) (b : BistSt) : (s.setBist b).routers = s.routers := rfl
@[simp] theorem State.setBist_spineNow (s : State) (b : BistSt) : (s.setBist b).spineNow = s.spineNow := rfl
@[simp] theorem State.setBist_nis (s : State) (b : BistSt) : (s.setBist b).nis = s.nis := rfl
@[simp] theorem State.setBist_ports (s : State) (b : BistSt) : (s.setBist b).ports = s.ports := rfl
@[simp] theorem State.setBist_lanes (s : State) (b : BistSt) : (s.setBist b).lanes = s.lanes := rfl
@[simp] theorem State.setBist_linkOut (s : State) (b : BistSt) : (s.setBist b).linkOut = s.linkOut := rfl
@[simp] theorem State.setBist_laneOut (s : State) (b : BistSt) : (s.setBist b).laneOut = s.laneOut := rfl
@[simp] theorem State.setBist_images (s : State) (b : BistSt) : (s.setBist b).images = s.images := rfl
@[simp] theorem State.setBist_cfg (s : State) (b : BistSt) : (s.setBist b).cfg = s.cfg := rfl
@[simp] theorem State.setBist_power (s : State) (b : BistSt) : (s.setBist b).power = s.power := rfl
@[simp] theorem State.setBist_straps (s : State) (b : BistSt) : (s.setBist b).straps = s.straps := rfl
@[simp] theorem State.setBist_fuses (s : State) (b : BistSt) : (s.setBist b).fuses = s.fuses := rfl
@[simp] theorem State.setBist_atReset (s : State) (b : BistSt) : (s.setBist b).atReset = s.atReset := rfl
@[simp] theorem State.setBist_tap (s : State) (b : BistSt) : (s.setBist b).tap = s.tap := rfl
@[simp] theorem State.setBist_pins (s : State) (b : BistSt) : (s.setBist b).pins = s.pins := rfl
@[simp] theorem State.setBist_drams (s : State) (b : BistSt) : (s.setBist b).drams = s.drams := rfl
@[simp] theorem State.setBist_cry (s : State) (b : BistSt) : (s.setBist b).cry = s.cry := rfl
@[simp] theorem State.setBist_stw (s : State) (b : BistSt) : (s.setBist b).stw = s.stw := rfl
@[simp] theorem State.setBist_dbg (s : State) (b : BistSt) : (s.setBist b).dbg = s.dbg := rfl
@[simp] theorem State.setBist_free (s : State) (b : BistSt) : (s.setBist b).free = s.free := rfl

/-! Block memory, word by word -/

@[simp] theorem State.word_setWord (s : State) (m w : Nat) (x : Option BmCell) : (s.setWord m w x).word m w = x :=
  SMap.get_set_same _ _ _ _
theorem State.word_setWord_other (s : State) (m w : Nat) (x : Option BmCell) {m' w' : Nat}
    (h : 2048 * m' + w' ≠ 2048 * m + w) : (s.setWord m w x).word m' w' = s.word m' w' :=
  SMap.get_set_other _ _ _ _ h

end Sys2Proof.Machine
end

