-- ==== Sys2Proof/Laws/Regs.lean ====
section
/-! SUPPORT. What registers and their fields read as after a write. -/
namespace Sys2Proof.Machine

theorem bitsOf_lt (lo w v : Nat) : bitsOf lo w v < 2 ^ w := Nat.mod_lt _ (Nat.two_pow_pos w)
@[simp] theorem bitsOf_zero (lo w : Nat) : bitsOf lo w 0 = 0 := by simp [bitsOf]
/-- A bit of a field put together from three parts. -/
theorem setBitsOf_eq (lo w v x : Nat) :
    setBitsOf lo w v x = v % 2 ^ lo + 2 ^ lo * (x % 2 ^ w + 2 ^ w * (v / 2 ^ (lo + w))) := by
  unfold setBitsOf
  rw [Nat.pow_add]
  rw [Nat.mul_add, Nat.mul_comm (2 ^ lo) (x % 2 ^ w), Nat.mul_comm (v / _), Nat.mul_assoc, Nat.add_assoc]
@[simp] theorem bitsOf_setBitsOf_same (lo w v x : Nat) : bitsOf lo w (setBitsOf lo w v x) = x % 2 ^ w := by
  rw [setBitsOf_eq, bitsOf, Nat.add_mul_div_left _ _ (Nat.two_pow_pos lo),
    Nat.div_eq_of_lt (Nat.mod_lt _ (Nat.two_pow_pos lo)), Nat.zero_add, Nat.add_mul_mod_self_left, Nat.mod_mod]
theorem testBit_setBitsOf (lo w v x i : Nat) :
    (setBitsOf lo w v x).testBit i = if lo ≤ i ∧ i < lo + w then x.testBit (i - lo) else v.testBit i := by
  rw [setBitsOf_eq, Nat.add_comm, Nat.testBit_two_pow_mul_add _ (Nat.mod_lt _ (Nat.two_pow_pos lo))]
  rcases Nat.lt_or_ge i lo with h | h
  · rw [if_pos h, if_neg (by omega), Nat.testBit_mod_two_pow]
    simp [h]
  · rw [if_neg (by omega), Nat.add_comm, Nat.testBit_two_pow_mul_add _ (Nat.mod_lt _ (Nat.two_pow_pos w))]
    rcases Nat.lt_or_ge (i - lo) w with g | g
    · rw [if_pos g, if_pos (by omega), Nat.testBit_mod_two_pow]
      simp [g]
    · rw [if_neg (by omega), if_neg (by omega), Nat.testBit_div_two_pow]
      congr 1
      omega
theorem testBit_bitsOf (lo w v i : Nat) : (bitsOf lo w v).testBit i = (decide (i < w) && v.testBit (i + lo)) := by
  rw [bitsOf, Nat.testBit_mod_two_pow, Nat.testBit_div_two_pow]
theorem bitsOf_setBitsOf_other {lo w lo' w' : Nat} (v x : Nat) (h : lo + w ≤ lo' ∨ lo' + w' ≤ lo) :
    bitsOf lo' w' (setBitsOf lo w v x) = bitsOf lo' w' v := by
  apply Nat.eq_of_testBit_eq
  intro i
  rw [testBit_bitsOf, testBit_bitsOf, testBit_setBitsOf]
  rcases Nat.lt_or_ge i w' with g | g
  · rw [if_neg (by omega)]
  · simp [Nat.not_lt.mpr g]
theorem bitsOf_mod {lo w n : Nat} (v : Nat) (h : lo + w ≤ n) : bitsOf lo w (v % 2 ^ n) = bitsOf lo w v := by
  apply Nat.eq_of_testBit_eq
  intro i
  rw [testBit_bitsOf, testBit_bitsOf, Nat.testBit_mod_two_pow]
  rcases Nat.lt_or_ge i w with g | g
  · simp [show i + lo < n by omega]
  · simp [Nat.not_lt.mpr g]

/-- A register reads as the low 32 bits of what was written; another one as before. -/
@[simp] theorem State.reg_setReg (s : State) (r : RegRef) (v : Nat) : (s.setReg r v).reg r = v % 2 ^ 32 := by
  simp only [State.reg, State.setReg, SMap.get_set_same, BitVec.toNat_ofNat]
theorem State.reg_setReg_other (s : State) {r r' : RegRef} (v : Nat) (h : r'.off ≠ r.off) :
    (s.setReg r v).reg r' = s.reg r' := by
  simp only [State.reg, State.setReg, SMap.get_set_other _ _ _ _ h]
theorem State.reg_put_other (s : State) {f : Fld} {r : RegRef} (v : Nat) (h : r.off ≠ f.reg.off) :
    (s.put f v).reg r = s.reg r := State.reg_setReg_other _ _ h
/-- A field reads as what was put; every other field of the register, and every other register, as before. -/
theorem State.get_put (s : State) {f : Fld} (v : Nat) (h : f.lo + f.w ≤ 32) : (s.put f v).get f = v % 2 ^ f.w := by
  rw [State.get, State.put, State.reg_setReg, bitsOf_mod _ h, bitsOf_setBitsOf_same]
theorem State.get_put_disjoint (s : State) {f g : Fld} (v : Nat) (hr : g.reg = f.reg)
    (hd : f.lo + f.w ≤ g.lo ∨ g.lo + g.w ≤ f.lo) (h : g.lo + g.w ≤ 32) : (s.put f v).get g = s.get g := by
  rw [State.get, State.put, hr, State.reg_setReg, bitsOf_mod _ h, bitsOf_setBitsOf_other _ _ hd, ← hr, State.get]
theorem State.get_put_other (s : State) {f g : Fld} (v : Nat) (h : g.reg.off ≠ f.reg.off) :
    (s.put f v).get g = s.get g := by
  rw [State.get, State.reg_put_other _ _ h, State.get]
theorem State.is_raise (s : State) {f : Fld} (h : f.lo + f.w ≤ 32) (hw : f.w = 1) : (s.raise f).is f = true := by
  rw [State.is, State.raise, State.get_put _ _ h, hw]
  rfl
theorem State.get_clear (s : State) {f : Fld} (h : f.lo + f.w ≤ 32) : (s.clear f).get f = 0 := by
  rw [State.clear, State.get_put _ _ h, Nat.zero_mod]
theorem State.get_bump (s : State) {f : Fld} (n : Nat) (h : f.lo + f.w ≤ 32) :
    (s.bump f n).get f = min (s.get f + n) (2 ^ f.w - 1) := by
  have hp := Nat.two_pow_pos f.w
  rw [State.bump, State.get_put _ _ h, satAdd, Nat.mod_eq_of_lt (by omega)]
theorem State.get_bump_other (s : State) {f g : Fld} (n : Nat) (h : g.reg.off ≠ f.reg.off) :
    (s.bump f n).get g = s.get g := State.get_put_other _ _ h
/-- A pair of registers reads as the 48 bits written to it. -/
theorem State.pair_setPair (s : State) {lo hi : RegRef} (v : Nat) (h : lo.off ≠ hi.off) :
    (s.setPair lo hi v).pair lo hi = v % 2 ^ 48 := by
  rw [State.pair, State.setPair, State.reg_setReg, State.reg_setReg_other _ _ h, State.reg_setReg]
  omega
theorem State.reg_setPair_other (s : State) {lo hi r : RegRef} (v : Nat) (h : r.off ≠ lo.off) (h' : r.off ≠ hi.off) :
    (s.setPair lo hi v).reg r = s.reg r := by
  rw [State.setPair, State.reg_setReg_other _ _ h', State.reg_setReg_other _ _ h]

end Sys2Proof.Machine
end

