-- ==== Sys2Proof/Laws/Observe.lean ====
section
/-! SUPPORT. What observing leaves as it was: registers, events, the Pass, fields' controls, probe words, the trace buffer and linked
conditions change none of the stores (`State.SameStores`). -/
namespace Sys2Proof.Machine
variable {s0 : State}

theorem State.SameStores.refl (s : State) : State.SameStores s s := by constructor <;> rfl
theorem State.SameStores.trans {s t u : State} (h : State.SameStores s t) (g : State.SameStores t u) : State.SameStores s u :=
  ⟨g.pending.trans h.pending, g.staged.trans h.staged, g.hostPath.trans h.hostPath, g.debugPath.trans h.debugPath, g.stewardPath.trans h.stewardPath, g.readOut.trans h.readOut, g.mode.trans h.mode, g.time.trans h.time, g.tt.trans h.tt, g.matrix.trans h.matrix, g.tsp.trans h.tsp, g.log.trans h.log, g.hostOut.trans h.hostOut, g.host.trans h.host, g.cells.trans h.cells, g.slices.trans h.slices, g.segs.trans h.segs, g.bmem.trans h.bmem, g.queues.trans h.queues, g.routers.trans h.routers, g.spineNow.trans h.spineNow, g.nis.trans h.nis, g.ports.trans h.ports, g.lanes.trans h.lanes, g.linkOut.trans h.linkOut, g.laneOut.trans h.laneOut, g.images.trans h.images, g.cfg.trans h.cfg, g.power.trans h.power, g.straps.trans h.straps, g.fuses.trans h.fuses, g.atReset.trans h.atReset, g.tap.trans h.tap, g.pins.trans h.pins, g.drams.trans h.drams, g.cry.trans h.cry, g.stw.trans h.stw, g.bist.trans h.bist, g.free.trans h.free⟩
theorem State.SameStores.upd {u : State} {r : SMap Reg} {q : SMap (BitVec 16)} {p : PassSt} {f : SMap FieldSt} {d : DbgSt}
    (h : State.SameStores s0 u) : State.SameStores s0 { u with regs := r, seqs := q, pass := p, fields := f, dbg := d } :=
  ⟨h.pending, h.staged, h.hostPath, h.debugPath, h.stewardPath, h.readOut, h.mode, h.time, h.tt, h.matrix, h.tsp, h.log, h.hostOut, h.host, h.cells, h.slices, h.segs, h.bmem, h.queues, h.routers, h.spineNow, h.nis, h.ports, h.lanes, h.linkOut, h.laneOut, h.images, h.cfg, h.power, h.straps, h.fuses, h.atReset, h.tap, h.pins, h.drams, h.cry, h.stw, h.bist, h.free⟩
theorem State.SameStores.ite {c : Prop} [Decidable c] {a b : State} (ha : State.SameStores s0 a) (hb : State.SameStores s0 b) :
    State.SameStores s0 (if c then a else b) := by split <;> assumption
theorem State.forEach_stays {s : State} (l : List Nat) (g : State → Nat → State) (h : State.SameStores s0 s)
    (hg : ∀ s a, State.SameStores s0 s → State.SameStores s0 (g s a)) : State.SameStores s0 (s.forEach l g) := by
  unfold State.forEach
  induction l generalizing s with
  | nil => exact h
  | cons a l ih => exact ih (hg _ _ h)
theorem State.setReg_stays (s : State) (r : RegRef) (v : Nat) (h : State.SameStores s0 s) : State.SameStores s0 (s.setReg r v) :=
  State.SameStores.upd h

theorem State.put_stays (s : State) (f : Fld) (v : Nat) (hI : State.SameStores s0 s) : State.SameStores s0 (State.put s f v) := by
  unfold State.put
  repeat' (first | with_reducible assumption | with_reducible apply State.setReg_stays)

theorem State.raise_stays (s : State) (f : Fld) (hI : State.SameStores s0 s) : State.SameStores s0 (State.raise s f) := by
  unfold State.raise
  repeat' (first | with_reducible assumption | with_reducible apply State.put_stays)

theorem State.clear_stays (s : State) (f : Fld) (hI : State.SameStores s0 s) : State.SameStores s0 (State.clear s f) := by
  unfold State.clear
  repeat' (first | with_reducible assumption | with_reducible apply State.put_stays)

theorem State.bump_stays (s : State) (f : Fld) (n : Nat) (hI : State.SameStores s0 s) : State.SameStores s0 (State.bump s f n) := by
  unfold State.bump
  repeat' (first | with_reducible assumption | with_reducible apply State.put_stays)

theorem State.count_stays (s : State) (f : Fld) (n : Nat) (hI : State.SameStores s0 s) : State.SameStores s0 (State.count s f n) := by
  unfold State.count
  repeat' (first | with_reducible assumption | with_reducible apply State.put_stays)

theorem State.peak_stays (s : State) (f : Fld) (v : Nat) (hI : State.SameStores s0 s) : State.SameStores s0 (State.peak s f v) := by
  unfold State.peak
  repeat' (first | with_reducible assumption | with_reducible apply State.put_stays)

theorem State.setPair_stays (s : State) (lo hi : RegRef) (v : Nat) (hI : State.SameStores s0 s) : State.SameStores s0 (State.setPair s lo hi v) := by
  unfold State.setPair
  repeat' (first | with_reducible assumption | with_reducible apply State.setReg_stays)

theorem State.setFld_stays (s : State) (f : Nat) (x : FieldSt) (hI : State.SameStores s0 s) : State.SameStores s0 (State.setFld s f x) := by
  unfold State.setFld
  repeat' (first | with_reducible assumption | with_reducible refine State.SameStores.upd ?_)

theorem State.passTake_stays (s : State) (r : EvRec) (hI : State.SameStores s0 s) : State.SameStores s0 (State.passTake s r) := by
  unfold State.passTake
  repeat' (first | with_reducible assumption | with_reducible apply State.SameStores.ite | with_reducible apply State.bump_stays | with_reducible refine State.SameStores.upd ?_)

theorem State.post_stays (s : State) (code src arg : Nat) (hI : State.SameStores s0 s) : State.SameStores s0 (State.post s code src arg) := by
  unfold State.post
  repeat' (first | with_reducible assumption | with_reducible apply State.passTake_stays | with_reducible refine State.SameStores.upd ?_)

theorem State.postAt_stays (s : State) (t : Word) (code src arg : Nat) (hI : State.SameStores s0 s) : State.SameStores s0 (State.postAt s t code src arg) := by
  unfold State.postAt
  repeat' (first | with_reducible assumption | with_reducible apply State.passTake_stays | with_reducible refine State.SameStores.upd ?_)

theorem State.haltRequest_stays (s : State) (now : Bool) (src : Nat) (hI : State.SameStores s0 s) : State.SameStores s0 (State.haltRequest s now src) := by
  unfold State.haltRequest
  repeat' (first | with_reducible assumption | with_reducible apply State.SameStores.ite | with_reducible apply State.raise_stays | split | with_reducible refine State.SameStores.upd ?_)

theorem State.haltCode_stays (s : State) (code src : Nat) (hI : State.SameStores s0 s) : State.SameStores s0 (State.haltCode s code src) := by
  unfold State.haltCode
  repeat' (first | with_reducible assumption | with_reducible apply State.SameStores.ite | with_reducible apply State.haltRequest_stays)

theorem State.dbgUnlocked_stays (s : State) (on : Bool) (hI : State.SameStores s0 s) : State.SameStores s0 (State.dbgUnlocked s on) := by
  unfold State.dbgUnlocked
  repeat' (first | with_reducible assumption | with_reducible apply State.SameStores.ite | with_reducible apply State.post_stays | with_reducible apply State.put_stays)

theorem State.traceStore_stays (s : State) (w : Word) (hI : State.SameStores s0 s) : State.SameStores s0 (State.traceStore s w) := by
  unfold State.traceStore
  repeat' (first | with_reducible assumption | with_reducible apply State.SameStores.ite | with_reducible apply State.put_stays | with_reducible apply State.raise_stays | with_reducible refine State.SameStores.upd ?_)

theorem State.traceCount_stays (s : State) (hI : State.SameStores s0 s) : State.SameStores s0 (State.traceCount s) := by
  unfold State.traceCount
  repeat' (first | with_reducible assumption | with_reducible apply State.SameStores.ite | with_reducible apply State.raise_stays | with_reducible refine State.SameStores.upd ?_)

theorem State.traceWord_stays (s : State) (w : Word) (hI : State.SameStores s0 s) : State.SameStores s0 (State.traceWord s w) := by
  unfold State.traceWord
  repeat' (first | with_reducible assumption | with_reducible apply State.SameStores.ite | with_reducible apply State.traceCount_stays | with_reducible apply State.traceStore_stays)

theorem State.traceTrigger_stays (s : State) (hI : State.SameStores s0 s) : State.SameStores s0 (State.traceTrigger s) := by
  unfold State.traceTrigger
  repeat' (first | with_reducible assumption | with_reducible apply State.SameStores.ite | with_reducible apply State.put_stays | with_reducible apply State.raise_stays | with_reducible apply State.setPair_stays | with_reducible refine State.SameStores.upd ?_)

theorem State.traceHit_stays (s : State) (u : Nat) (w : Watched) (hI : State.SameStores s0 s) : State.SameStores s0 (State.traceHit s u w) := by
  unfold State.traceHit
  repeat' (first | with_reducible assumption | with_reducible apply State.SameStores.ite | with_reducible apply State.traceWord_stays)

theorem State.lcComplete_stays (s : State) (i : Nat) (hI : State.SameStores s0 s) : State.SameStores s0 (State.lcComplete s i) := by
  unfold State.lcComplete
  repeat' (first | with_reducible assumption | with_reducible apply State.SameStores.ite | with_reducible apply State.bump_stays | with_reducible apply State.haltCode_stays | with_reducible apply State.post_stays | with_reducible apply State.put_stays | with_reducible apply State.traceTrigger_stays)

theorem State.lcStep_stays (s : State) (i stamp : Nat) (units : List Nat) (hI : State.SameStores s0 s) : State.SameStores s0 (State.lcStep s i stamp units) := by
  unfold State.lcStep
  repeat' (first | with_reducible assumption | with_reducible apply State.SameStores.ite | with_reducible apply State.lcComplete_stays | with_reducible apply State.put_stays | with_reducible refine State.SameStores.upd ?_)

theorem State.watch_stays (s : State) (w : Watched) (stamp : Nat) (hI : State.SameStores s0 s) : State.SameStores s0 (State.watch s w stamp) := by
  unfold State.watch
  repeat' (first | with_reducible assumption | with_reducible apply State.SameStores.ite | with_reducible apply State.bump_stays | with_reducible apply State.forEach_stays | with_reducible apply State.lcStep_stays | with_reducible apply State.traceHit_stays | (with_reducible intro _ _ _) | split)

theorem State.watchCarriage_stays (s : State) (n : Nat) (injected : Bool) (c : Carriage) (cyc : Nat) (hI : State.SameStores s0 s) : State.SameStores s0 (State.watchCarriage s n injected c cyc) := by
  unfold State.watchCarriage
  repeat' (first | with_reducible assumption | with_reducible apply State.SameStores.ite | with_reducible apply State.watch_stays)

theorem State.sampleProbe_stays (s : State) (f c k : Nat) (hI : State.SameStores s0 s) : State.SameStores s0 (State.sampleProbe s f c k) := by
  unfold State.sampleProbe
  repeat' (first | with_reducible assumption | with_reducible apply State.SameStores.ite | with_reducible apply State.setFld_stays | with_reducible apply State.traceWord_stays | with_reducible apply State.watch_stays)

theorem State.sampleProbes_stays (s : State) (f c : Nat) (hI : State.SameStores s0 s) : State.SameStores s0 (State.sampleProbes s f c) := by
  unfold State.sampleProbes
  repeat' (first | with_reducible assumption | with_reducible apply State.forEach_stays | with_reducible apply State.sampleProbe_stays | (with_reducible intro _ _ _))

theorem State.countSat_stays (s : State) (f : Nat) (st : Nat × Nat) (sat : Bool) (hI : State.SameStores s0 s) : State.SameStores s0 (State.countSat s f st sat) := by
  unfold State.countSat
  repeat' (first | with_reducible assumption | with_reducible apply State.SameStores.ite | with_reducible apply State.bump_stays | with_reducible apply State.setFld_stays)

theorem State.countOvf_stays (s : State) (f : Nat) (st : Nat × Nat) (ovf : Bool) (hI : State.SameStores s0 s) : State.SameStores s0 (State.countOvf s f st ovf) := by
  unfold State.countOvf
  repeat' (first | with_reducible assumption | with_reducible apply State.SameStores.ite | with_reducible apply State.bump_stays | with_reducible apply State.setFld_stays)

end Sys2Proof.Machine
end

