-- ==== Sys2Proof/Laws/Engine.lean ====
section
/-! SUPPORT. What an access of the configuration engine to DRAM leaves as it was (`State.EngineWork`): one lemma for each operation that
answers a state (`_work`, and `_workAt` for the state inside a larger answer). -/
namespace Sys2Proof.Machine
variable {s0 : State}

/-- The engine's work, looked at from its end. -/
def State.Works (t s : State) : Prop := State.EngineWork s t
/-- A register that the engine's work may change. -/
def RegRef.High (r : RegRef) : Prop := 0x100000 ≤ r.off ∨ r.off = R.TIME_PASS_STAT.off
theorem RegRef.High.of_le {r : RegRef} (h : 0x100000 ≤ r.off) : r.High := Or.inl h
theorem State.EngineWork.refl (s : State) : State.EngineWork s s := ⟨fun _ _ _ _ => rfl, rfl, .refl s⟩
theorem State.EngineWork.trans {s t u : State} (h : State.EngineWork s t) (g : State.EngineWork t u) : State.EngineWork s u := by
  obtain ⟨hr, hf, h⟩ := h
  obtain ⟨gr, gf, g⟩ := g
  refine ⟨fun o a b z => (gr o a b z).trans (hr o a b z), gf.trans hf, ?_⟩
  have hh : u.host = { s.host with dropped := u.host.dropped } := by rw [g.host, h.host]
  exact ⟨g.pending.trans h.pending, g.staged.trans h.staged, g.hostPath.trans h.hostPath, g.debugPath.trans h.debugPath,
    g.stewardPath.trans h.stewardPath, g.readOut.trans h.readOut, g.mode.trans h.mode, g.time.trans h.time, g.tt.trans h.tt,
    g.matrix.trans h.matrix, g.tsp.trans h.tsp, rfl, g.hostOut.trans h.hostOut, hh, g.cells.trans h.cells, g.slices.trans h.slices,
    g.segs.trans h.segs, g.bmem.trans h.bmem, g.queues.trans h.queues, g.routers.trans h.routers, g.spineNow.trans h.spineNow,
    g.nis.trans h.nis, g.ports.trans h.ports, g.lanes.trans h.lanes, g.linkOut.trans h.linkOut, g.laneOut.trans h.laneOut,
    g.images.trans h.images, g.cfg.trans h.cfg, g.power.trans h.power, g.straps.trans h.straps, g.fuses.trans h.fuses,
    g.atReset.trans h.atReset, g.tap.trans h.tap, g.pins.trans h.pins, rfl, rfl, rfl, g.bist.trans h.bist, rfl⟩
theorem State.Works.upd {u : State} {q : SMap (BitVec 16)} {p : PassSt} {l : List LogEntry} {n : Nat} {w : StwSt} {d : SMap ChSt}
    {k : CrySt} {b : DbgSt} {z : Nat} (h : u.Works s0) :
    State.Works { u with seqs := q, pass := p, log := l, host := { u.host with dropped := n }, stw := w, drams := d, cry := k,
                         dbg := b, free := z } s0 :=
  State.EngineWork.trans h ⟨fun _ _ _ _ => rfl, rfl, by constructor <;> rfl⟩
theorem State.Works.ite {c : Prop} [Decidable c] {a b : State} (ha : a.Works s0) (hb : b.Works s0) : (if c then a else b).Works s0 := by
  split <;> assumption
theorem State.Works.gen (s0 : State) {P : Prop} (z : State) (k : z.Works s0 → P) (h : z.Works s0) : P := k h
theorem State.Works.genFst (s0 : State) {α : Type} {P : Prop} (z : State × α) (k : z.1.Works s0 → P) (h : z.1.Works s0) : P := k h
theorem State.Works.genSnd (s0 : State) {α : Type} {P : Prop} (z : α × State) (k : z.2.Works s0 → P) (h : z.2.Works s0) : P := k h
theorem State.Works.genLine (s0 : State) {P : Prop} (z : LineOut) (k : z.state.Works s0 → P) (h : z.state.Works s0) : P := k h
theorem State.Works.genMeta (s0 : State) {P : Prop} (z : MetaOut) (k : z.state.Works s0 → P) (h : z.state.Works s0) : P := k h
theorem State.Works.genRes (s0 : State) {P : Prop} (z : ReadRes) (k : z.state.Works s0 → P) (h : z.state.Works s0) : P := k h
theorem State.Works.genWrite (s0 : State) {P : Prop} (z : WriteRes) (k : z.state.Works s0 → P) (h : z.state.Works s0) : P := k h
/-- A part of a pair that a match has taken apart. -/
theorem State.Works.fst {α : Type} {p : State × α} {t : State} {a : α} (h : p.1.Works s0) (e : p = (t, a)) : t.Works s0 := by
  subst e; exact h
theorem State.Works.snd {α : Type} {p : α × State} {t : State} {a : α} (h : p.2.Works s0) (e : p = (a, t)) : t.Works s0 := by
  subst e; exact h
/-- The state inside an answer that holds more than a state. -/
def WorkAt (s0 : State) {α : Type} (π : α → State) (x : α) : Prop := (π x).Works s0
theorem WorkAt.of {α : Type} {π : α → State} {x : α} (h : (π x).Works s0) : WorkAt s0 π x := h
theorem WorkAt.holds {α : Type} {π : α → State} {x : α} (h : WorkAt s0 π x) : (π x).Works s0 := h
theorem WorkAt.fst {α : Type} {t : State} {a : α} (h : t.Works s0) : WorkAt s0 Prod.fst (t, a) := h
theorem WorkAt.snd {α : Type} {t : State} {a : α} (h : t.Works s0) : WorkAt s0 Prod.snd (a, t) := h
theorem WorkAt.line {t : State} {a : List Word} {b c d : BitVec 16} (h : t.Works s0) : WorkAt s0 LineOut.state ⟨t, a, b, c, d⟩ := h
theorem WorkAt.metaOut {t : State} {a : Word} {b : Nat} {c d e : Bool} (h : t.Works s0) : WorkAt s0 MetaOut.state ⟨t, a, b, c, d, e⟩ := h
theorem WorkAt.readRes {t : State} {a : Nat} {b : List Word} (h : t.Works s0) : WorkAt s0 ReadRes.state ⟨t, a, b⟩ := h
theorem WorkAt.writeRes {t : State} {a : Nat} {b : List Word} {c : Bool} (h : t.Works s0) : WorkAt s0 WriteRes.state ⟨t, a, b, c⟩ := h
theorem WorkAt.ite {α : Type} {π : α → State} {c : Prop} [Decidable c] {a b : α} (ha : WorkAt s0 π a) (hb : WorkAt s0 π b) :
    WorkAt s0 π (if c then a else b) := by split <;> assumption
theorem State.Works.iteFst {α : Type} {c : Prop} [Decidable c] {a b : State × α} (ha : (Prod.fst a).Works s0)
    (hb : (Prod.fst b).Works s0) : (Prod.fst (if c then a else b)).Works s0 := by split <;> assumption
theorem State.Works.iteSnd {α : Type} {c : Prop} [Decidable c] {a b : α × State} (ha : (Prod.snd a).Works s0)
    (hb : (Prod.snd b).Works s0) : (Prod.snd (if c then a else b)).Works s0 := by split <;> assumption
theorem State.Works.iteLine {c : Prop} [Decidable c] {a b : LineOut} (ha : (LineOut.state a).Works s0) (hb : (LineOut.state b).Works s0) :
    (LineOut.state (if c then a else b)).Works s0 := by split <;> assumption
theorem State.Works.iteMeta {c : Prop} [Decidable c] {a b : MetaOut} (ha : (MetaOut.state a).Works s0) (hb : (MetaOut.state b).Works s0) :
    (MetaOut.state (if c then a else b)).Works s0 := by split <;> assumption
theorem State.Works.foldl {α : Type} {g : State → α → State} (hg : ∀ s a, s.Works s0 → (g s a).Works s0) :
    ∀ (l : List α) {s : State}, s.Works s0 → (l.foldl g s).Works s0
  | [], _, h => h
  | a :: l, _, h => State.Works.foldl hg l (hg _ a h)
theorem State.Works.foldFst {α β : Type} {g : State × β → α → State × β} (hg : ∀ p a, p.1.Works s0 → (g p a).1.Works s0) :
    ∀ (l : List α) {p : State × β}, p.1.Works s0 → (l.foldl g p).1.Works s0
  | [], _, h => h
  | a :: l, _, h => State.Works.foldFst hg l (hg _ a h)
theorem WorkAt.foldl {α β : Type} {π : β → State} {g : β → α → β} (hg : ∀ b a, (π b).Works s0 → (π (g b a)).Works s0) :
    ∀ (l : List α) (b : β), (π b).Works s0 → (π (l.foldl g b)).Works s0
  | [], _, h => h
  | a :: l, _, h => WorkAt.foldl hg l _ (hg _ a h)

/-! ## Registers, events, the log and open values -/

theorem State.forEach_work {s : State} (l : List Nat) (g : State → Nat → State) (h : s.Works s0)
    (hg : ∀ s a, s.Works s0 → (g s a).Works s0) : (s.forEach l g).Works s0 := State.Works.foldl hg l h
theorem State.setReg_work (s : State) (r : RegRef) (v : Nat) (h : s.Works s0) (hr : r.High) : (s.setReg r v).Works s0 := by
  refine State.EngineWork.trans h ⟨fun o ho hp z => ?_, rfl, by constructor <;> rfl⟩
  exact SMap.get_set_other _ _ _ _ (by rcases hr with hr | hr <;> omega)
theorem State.put_work (s : State) (f : Fld) (v : Nat) (h : s.Works s0) (hr : f.reg.High) : (s.put f v).Works s0 :=
  State.setReg_work _ _ _ h hr
theorem State.raise_work (s : State) (f : Fld) (h : s.Works s0) (hr : f.reg.High) : (s.raise f).Works s0 := State.put_work _ _ _ h hr
theorem State.clear_work (s : State) (f : Fld) (h : s.Works s0) (hr : f.reg.High) : (s.clear f).Works s0 := State.put_work _ _ _ h hr
theorem State.bump_work (s : State) (f : Fld) (n : Nat) (h : s.Works s0) (hr : f.reg.High) : (s.bump f n).Works s0 :=
  State.put_work _ _ _ h hr
theorem State.passTake_work (s : State) (r : EvRec) (h : s.Works s0) : (s.passTake r).Works s0 := by
  unfold State.passTake
  split
  · dsimp only
    split
    · exact State.bump_work _ _ _ (State.Works.upd h) (Or.inr rfl)
    · exact State.Works.upd h
  · exact State.bump_work _ _ _ (State.Works.upd h) (Or.inr rfl)
theorem State.post_work (s : State) (code src arg : Nat) (h : s.Works s0) : (s.post code src arg).Works s0 :=
  State.passTake_work _ _ (State.Works.upd h)
theorem State.logEntry_work (s : State) (code src arg detail : Nat) (h : s.Works s0) : (s.logEntry code src arg detail).Works s0 := by
  unfold State.logEntry
  split <;> exact State.Works.upd h
theorem State.postLog_work (s : State) (code src arg : Nat) (h : s.Works s0) : (s.postLog code src arg).Works s0 :=
  State.post_work _ _ _ _ (State.logEntry_work _ _ _ _ _ h)
theorem State.see_work (s : State) (k i : Nat) (h : s.Works s0) : (s.see k i).Works s0 := State.Works.upd h
theorem State.freeWord_workAt (s : State) (h : s.Works s0) : s.freeWord.2.Works s0 := State.Works.upd h
theorem State.freeWord_work (s : State) (h : s.Works s0) : s.freeWord.2.Works s0 := State.Works.upd h
theorem State.freeNat_workAt (s : State) (h : s.Works s0) : s.freeNat.2.Works s0 := State.Works.upd h

/-! ## Lines of DRAM, and the engine's transfers -/

theorem State.setDram_work (s : State) (c : Nat) (x : ChSt) (hI : s.Works s0) : (State.setDram s c x).Works s0 := by
  unfold State.setDram
  repeat' (first | with_reducible assumption | with_reducible refine State.Works.upd ?_)

theorem State.dramCmd_work (s : State) (c code bank row line : Nat) (w : DramWho) (hI : s.Works s0) : (State.dramCmd s c code bank row line w).Works s0 := by
  unfold State.dramCmd
  repeat' (first | with_reducible assumption | with_reducible apply State.setDram_work)

theorem State.lineCmd_work (s : State) (c p : Nat) (wr : Bool) (w : DramWho) (hI : s.Works s0) : (State.lineCmd s c p wr w).Works s0 := by
  unfold State.lineCmd
  repeat' (first | with_reducible assumption | with_reducible apply State.Works.ite | with_reducible apply State.bump_work | with_reducible apply State.dramCmd_work | with_reducible apply State.setDram_work | split | ((with_reducible refine RegRef.High.of_le ?_); first | decide | exact (by decide : 0x100000 ≤ R.CRY_RNREQ.off) | exact Nat.le_add_right_of_le (by decide) | exact Nat.le_add_right_of_le (Nat.le_add_right_of_le (by decide))))

theorem State.freeWords_work : ∀ (n : Nat) (s : State), s.Works s0 → WorkAt s0 Prod.snd (State.freeWords s n)
  | 0, _, h => h
  | n + 1, s, h => State.freeWords_work n _ (State.freeWord_work s h)

theorem State.freeWords_workAt (s : State) (n : Nat) (h : s.Works s0) : (State.freeWords s n).2.Works s0 := WorkAt.holds (State.freeWords_work n s h)

theorem State.storedLine_work (s : State) (c p : Nat) (hI : s.Works s0) : WorkAt s0 Prod.snd (State.storedLine s c p) := by
  unfold State.storedLine
  repeat' (first | with_reducible assumption | with_reducible apply WorkAt.snd | with_reducible apply State.freeWords_workAt | with_reducible apply State.Works.iteSnd | split)

theorem State.storedLine_workAt (s : State) (c p : Nat) (hI : s.Works s0) : (Prod.snd (State.storedLine s c p)).Works s0 := WorkAt.holds (State.storedLine_work _ _ _ hI)

theorem LineOut.beat_work (o : LineOut) (m : BitVec 16) (k : Nat) (e : BitVec 16) (hI : o.state.Works s0) :
    WorkAt s0 LineOut.state (o.beat m k e) := by
  have hv : (o.state.freeNat.2.freeWord.2).Works s0 := State.freeWord_workAt _ (State.freeNat_workAt _ hI)
  unfold LineOut.beat
  split
  · exact hI
  · exact WorkAt.line hI
  · exact WorkAt.line hI
  · dsimp only
    split <;> exact WorkAt.line hv

theorem LineOut.beat_workAt (o : LineOut) (m : BitVec 16) (k : Nat) (e : BitVec 16) (hI : o.state.Works s0) :
    (o.beat m k e).state.Works s0 := WorkAt.holds (LineOut.beat_work o m k e hI)

theorem LineOut.decode_work (o : LineOut) (m : BitVec 16) (errs : List (Nat × BitVec 16)) (hI : o.state.Works s0) :
    WorkAt s0 LineOut.state (o.decode m errs) := by
  unfold LineOut.decode
  split
  · exact hI
  · generalize List.range 16 = l
    induction l generalizing o with
    | nil => exact hI
    | cons a l ih => exact ih _ (LineOut.beat_workAt o m a _ hI)

theorem LineOut.decode_workAt (o : LineOut) (m : BitVec 16) (errs : List (Nat × BitVec 16)) (hI : o.state.Works s0) :
    (o.decode m errs).state.Works s0 := WorkAt.holds (LineOut.decode_work o m errs hI)

theorem State.decodeLine_work (s : State) (c l : Nat) (checks : List LineCheck) (w : DramWho) (hI : s.Works s0) : WorkAt s0 LineOut.state (State.decodeLine s c l checks w) := by
  unfold State.decodeLine
  repeat' (first | with_reducible assumption | (extract_lets +onlyGivenNames zz; first | (refine State.Works.gen s0 zz (fun _ => ?_) ?_; clear_value zz; rotate_left; subst zz; rotate_right) | (refine State.Works.genSnd s0 zz (fun _ => ?_) ?_; clear_value zz; rotate_left; subst zz; rotate_right) | (refine State.Works.genLine s0 zz (fun _ => ?_) ?_; clear_value zz; rotate_left; subst zz; rotate_right) | clear_value zz) | with_reducible apply WorkAt.line | with_reducible apply State.lineCmd_work | with_reducible apply LineOut.decode_workAt | with_reducible apply State.storedLine_workAt)

theorem State.decodeLine_workAt (s : State) (c l : Nat) (checks : List LineCheck) (w : DramWho) (hI : s.Works s0) : (LineOut.state (State.decodeLine s c l checks w)).Works s0 := WorkAt.holds (State.decodeLine_work _ _ _ _ _ hI)

theorem State.storeLine_work (s : State) (c l : Nat) (ws : List Word) (w : DramWho) (hI : s.Works s0) : (State.storeLine s c l ws w).Works s0 := by
  unfold State.storeLine
  repeat' (first | with_reducible assumption | with_reducible apply State.lineCmd_work | with_reducible apply State.setDram_work)

theorem State.clearLost_work (s : State) (c l : Nat) (hI : s.Works s0) : (State.clearLost s c l).Works s0 := by
  unfold State.clearLost
  repeat' (first | with_reducible assumption | with_reducible apply State.clear_work | split | ((with_reducible refine RegRef.High.of_le ?_); first | decide | exact (by decide : 0x100000 ≤ R.CRY_RNREQ.off) | exact Nat.le_add_right_of_le (by decide) | exact Nat.le_add_right_of_le (Nat.le_add_right_of_le (by decide))))

theorem State.groupXor_work (s : State) (c : Nat) (ls : List Nat) (checks : List LineCheck) (w : DramWho) (h : s.Works s0) :
    WorkAt s0 LineOut.state (State.groupXor s c ls checks w) := by
  have gen : ∀ (ls : List Nat) (o : LineOut), WorkAt s0 LineOut.state o → WorkAt s0 LineOut.state (ls.foldl (fun (o : LineOut) l =>
      let r := o.state.decodeLine c l checks w
      (⟨r.state, xorLines o.words r.words, 0, o.lost ||| r.lost, 0⟩ : LineOut)) o) := by
    intro ls
    induction ls with
    | nil => intro o ho; exact ho
    | cons l ls ih => intro o ho; exact ih _ (WorkAt.line (State.decodeLine_workAt o.state c l checks w (WorkAt.holds ho)))
  unfold State.groupXor
  exact gen ls _ (WorkAt.line h)

theorem State.groupXor_workAt (s : State) (c : Nat) (ls : List Nat) (checks : List LineCheck) (w : DramWho) (hI : s.Works s0) : (LineOut.state (State.groupXor s c ls checks w)).Works s0 := WorkAt.holds (State.groupXor_work _ _ _ _ _ hI)

theorem State.noteLine_work (s : State) (c l kind : Nat) (bs syms : BitVec 16) (hI : s.Works s0) : (State.noteLine s c l kind bs syms).Works s0 := by
  unfold State.noteLine
  repeat' (first | with_reducible assumption | with_reducible apply State.Works.ite | with_reducible apply State.logEntry_work | with_reducible apply State.setDram_work | with_reducible apply State.setReg_work | with_reducible apply State.freeNat_workAt | with_reducible apply State.Works.iteSnd | ((with_reducible refine RegRef.High.of_le ?_); first | decide | exact (by decide : 0x100000 ≤ R.CRY_RNREQ.off) | exact Nat.le_add_right_of_le (by decide) | exact Nat.le_add_right_of_le (Nat.le_add_right_of_le (by decide))))

theorem State.noteFixed_work (s : State) (c l : Nat) (d : LineOut) (hI : s.Works s0) (hI1 : d.state.Works s0) : (State.noteFixed s c l d).Works s0 := by
  unfold State.noteFixed
  repeat' (first | with_reducible assumption | with_reducible apply State.Works.ite | with_reducible apply State.bump_work | with_reducible apply State.forEach_work | with_reducible apply State.noteLine_work | with_reducible apply State.see_work | (with_reducible intro _ _ _) | ((with_reducible refine RegRef.High.of_le ?_); first | decide | exact (by decide : 0x100000 ≤ R.CRY_RNREQ.off) | exact Nat.le_add_right_of_le (by decide) | exact Nat.le_add_right_of_le (Nat.le_add_right_of_le (by decide))))

theorem State.openUnwritten_work (s : State) (c l : Nat) (nested : Bool) (d : LineOut) (hI : s.Works s0) (hI1 : d.state.Works s0) : WorkAt s0 LineOut.state (State.openUnwritten s c l nested d) := by
  unfold State.openUnwritten
  repeat' (first | with_reducible assumption | (extract_lets +onlyGivenNames zz; (refine State.Works.genSnd s0 zz (fun _ => ?_) ?_; clear_value zz; rotate_left; subst zz; rotate_right)) | with_reducible apply WorkAt.ite | with_reducible apply WorkAt.line | with_reducible apply State.freeWords_workAt)

theorem State.openUnwritten_workAt (s : State) (c l : Nat) (nested : Bool) (d : LineOut) (hI : s.Works s0) (hI1 : d.state.Works s0) : (LineOut.state (State.openUnwritten s c l nested d)).Works s0 := WorkAt.holds (State.openUnwritten_work _ _ _ _ _ hI hI1)

theorem State.readLine_work (s : State) (c l : Nat) (nested demand : Bool) (checks : List LineCheck) (w : DramWho) (hI : s.Works s0) : WorkAt s0 LineOut.state (State.readLine s c l nested demand checks w) := by
  unfold State.readLine
  repeat' (first | with_reducible assumption | (extract_lets +onlyGivenNames zz; first | (refine State.Works.gen s0 zz (fun _ => ?_) ?_; clear_value zz; rotate_left; subst zz; rotate_right) | (refine State.Works.genLine s0 zz (fun _ => ?_) ?_; clear_value zz; rotate_left; subst zz; rotate_right) | clear_value zz) | with_reducible apply State.Works.ite | with_reducible apply WorkAt.ite | with_reducible apply WorkAt.line | with_reducible apply State.bump_work | with_reducible apply State.noteFixed_work | with_reducible apply State.noteLine_work | with_reducible apply State.post_work | with_reducible apply State.raise_work | with_reducible apply State.setDram_work | with_reducible apply State.storeLine_work | with_reducible apply State.decodeLine_workAt | with_reducible apply State.groupXor_workAt | with_reducible apply State.openUnwritten_workAt | with_reducible apply State.Works.iteLine | ((with_reducible refine RegRef.High.of_le ?_); first | decide | exact (by decide : 0x100000 ≤ R.CRY_RNREQ.off) | exact Nat.le_add_right_of_le (by decide) | exact Nat.le_add_right_of_le (Nat.le_add_right_of_le (by decide))))

theorem State.readLine_workAt (s : State) (c l : Nat) (nested demand : Bool) (checks : List LineCheck) (w : DramWho) (hI : s.Works s0) : (LineOut.state (State.readLine s c l nested demand checks w)).Works s0 := WorkAt.holds (State.readLine_work _ _ _ _ _ _ _ hI)

theorem State.newParity_work (s : State) (c l : Nat) (x : List Word) (lost : BitVec 16) (y : List Word) (checks : List LineCheck) (w : DramWho) (hI : s.Works s0) : WorkAt s0 Prod.fst (State.newParity s c l x lost y checks w) := by
  unfold State.newParity
  repeat' (first | with_reducible assumption | (extract_lets +onlyGivenNames zz; first | (refine State.Works.genLine s0 zz (fun _ => ?_) ?_; clear_value zz; rotate_left; subst zz; rotate_right) | clear_value zz) | with_reducible apply WorkAt.ite | with_reducible apply WorkAt.fst | with_reducible apply State.decodeLine_workAt | with_reducible apply State.groupXor_workAt)

theorem State.newParity_workAt (s : State) (c l : Nat) (x : List Word) (lost : BitVec 16) (y : List Word) (checks : List LineCheck) (w : DramWho) (hI : s.Works s0) : (Prod.fst (State.newParity s c l x lost y checks w)).Works s0 := WorkAt.holds (State.newParity_work _ _ _ _ _ _ _ _ hI)

theorem State.replaceLine_work (s : State) (c l : Nat) (nested : Bool) (x : List Word) (lost : BitVec 16) (y : List Word) (checks : List LineCheck) (w : DramWho) (hI : s.Works s0) : WorkAt s0 Prod.fst (State.replaceLine s c l nested x lost y checks w) := by
  unfold State.replaceLine
  with_reducible apply WorkAt.ite
  · with_reducible apply WorkAt.fst
    with_reducible apply State.storeLine_work; assumption
  · have hp := State.newParity_workAt s c l x lost y checks w hI
    generalize s.newParity c l x lost y checks w = p at hp
    obtain ⟨t, o, f⟩ := p
    cases o with
    | none => exact WorkAt.fst hp
    | some q =>
      with_reducible apply WorkAt.fst
      have ht : (t.storeLine c l y w).Works s0 := State.storeLine_work _ _ _ _ _ hp
      exact State.Works.ite (State.storeLine_work _ _ _ _ _ ht) (State.lineCmd_work _ _ _ _ _ ht)

theorem State.replaceLine_workAt (s : State) (c l : Nat) (nested : Bool) (x : List Word) (lost : BitVec 16) (y : List Word) (checks : List LineCheck) (w : DramWho) (hI : s.Works s0) : (Prod.fst (State.replaceLine s c l nested x lost y checks w)).Works s0 := WorkAt.holds (State.replaceLine_work _ _ _ _ _ _ _ _ _ hI)

theorem State.rmwFail_work (s : State) (c st : Nat) (hI : s.Works s0) : (State.rmwFail s c st).Works s0 := by
  unfold State.rmwFail
  repeat' (first | with_reducible assumption | with_reducible apply State.Works.ite | with_reducible apply State.bump_work | with_reducible apply State.logEntry_work | with_reducible apply State.post_work | with_reducible apply State.raise_work | with_reducible apply State.setDram_work | ((with_reducible refine RegRef.High.of_le ?_); first | decide | exact (by decide : 0x100000 ≤ R.CRY_RNREQ.off) | exact Nat.le_add_right_of_le (by decide) | exact Nat.le_add_right_of_le (Nat.le_add_right_of_le (by decide))))

theorem State.spillMeta_work (s : State) (ml : Nat) (checks : List LineCheck) (hI : s.Works s0) : (State.spillMeta s ml checks).Works s0 := by
  unfold State.spillMeta
  repeat' (first | with_reducible assumption | (extract_lets +onlyGivenNames zz; first | (refine State.Works.gen s0 zz (fun _ => ?_) ?_; clear_value zz; rotate_left; subst zz; rotate_right) | (refine State.Works.genFst s0 zz (fun _ => ?_) ?_; clear_value zz; rotate_left; subst zz; rotate_right) | (refine State.Works.genLine s0 zz (fun _ => ?_) ?_; clear_value zz; rotate_left; subst zz; rotate_right) | clear_value zz) | with_reducible apply State.Works.ite | with_reducible apply State.rmwFail_work | with_reducible apply State.decodeLine_workAt | with_reducible apply State.replaceLine_workAt | with_reducible apply State.Works.iteLine | split | with_reducible refine State.Works.upd ?_)

theorem State.makeRoom_work (s : State) (c : Nat) (keep : List Nat) (checks : List LineCheck) (hI : s.Works s0) : (State.makeRoom s c keep checks).Works s0 := by
  unfold State.makeRoom
  repeat' (first | with_reducible assumption | (extract_lets +onlyGivenNames zz; first | (refine State.Works.gen s0 zz (fun _ => ?_) ?_; clear_value zz; rotate_left; subst zz; rotate_right) | (refine State.Works.genSnd s0 zz (fun _ => ?_) ?_; clear_value zz; rotate_left; subst zz; rotate_right) | clear_value zz) | with_reducible apply State.spillMeta_work | with_reducible apply State.freeNat_workAt | split | with_reducible refine State.Works.upd ?_)

theorem State.metaMiss_work (s : State) (ml : Nat) (keep : List Nat) (checks : List LineCheck) (w : DramWho) (hI : s.Works s0) : WorkAt s0 Prod.fst (State.metaMiss s ml keep checks w) := by
  unfold State.metaMiss
  repeat' (first | with_reducible assumption | (extract_lets +onlyGivenNames zz; first | (refine State.Works.gen s0 zz (fun _ => ?_) ?_; clear_value zz; rotate_left; subst zz; rotate_right) | (refine State.Works.genLine s0 zz (fun _ => ?_) ?_; clear_value zz; rotate_left; subst zz; rotate_right) | clear_value zz) | with_reducible apply State.Works.ite | with_reducible apply WorkAt.ite | with_reducible apply WorkAt.fst | with_reducible apply State.bump_work | with_reducible apply State.makeRoom_work | with_reducible apply State.readLine_workAt | with_reducible refine State.Works.upd ?_ | ((with_reducible refine RegRef.High.of_le ?_); first | decide | exact (by decide : 0x100000 ≤ R.CRY_RNREQ.off) | exact Nat.le_add_right_of_le (by decide) | exact Nat.le_add_right_of_le (Nat.le_add_right_of_le (by decide))))

theorem State.metaMiss_workAt (s : State) (ml : Nat) (keep : List Nat) (checks : List LineCheck) (w : DramWho) (hI : s.Works s0) : (Prod.fst (State.metaMiss s ml keep checks w)).Works s0 := WorkAt.holds (State.metaMiss_work _ _ _ _ _ hI)

theorem State.metaWrite_work (s : State) (ml i : Nat) (v : Word) (hI : s.Works s0) : (State.metaWrite s ml i v).Works s0 := by
  unfold State.metaWrite
  repeat' (first | with_reducible assumption | split | with_reducible refine State.Works.upd ?_)

theorem State.dropCache_work (s : State) (c : Nat) (hI : s.Works s0) : (State.dropCache s c).Works s0 := by
  unfold State.dropCache
  repeat' (first | with_reducible assumption | with_reducible refine State.Works.upd ?_)

theorem State.metaRead_work (s : State) (ml : Nat) (keep : List Nat) (checks : List LineCheck) (w : DramWho) (hI : s.Works s0) : WorkAt s0 Prod.fst (State.metaRead s ml keep checks w) := by
  unfold State.metaRead
  repeat' (first | with_reducible assumption | with_reducible apply WorkAt.fst | with_reducible apply State.metaMiss_workAt | split)

theorem State.metaRead_workAt (s : State) (ml : Nat) (keep : List Nat) (checks : List LineCheck) (w : DramWho) (hI : s.Works s0) : (Prod.fst (State.metaRead s ml keep checks w)).Works s0 := WorkAt.holds (State.metaRead_work _ _ _ _ _ hI)

theorem State.readMeta_work (s : State) (r : LineRgn) (a : Nat) (withTag : Bool) (checks : List LineCheck) (w : DramWho) (hI : s.Works s0) : WorkAt s0 MetaOut.state (State.readMeta s r a withTag checks w) := by
  unfold State.readMeta
  repeat' (first | with_reducible assumption | (extract_lets +onlyGivenNames zz; first | (refine State.Works.gen s0 zz (fun _ => ?_) ?_; clear_value zz; rotate_left; subst zz; rotate_right) | (refine State.Works.genFst s0 zz (fun _ => ?_) ?_; clear_value zz; rotate_left; subst zz; rotate_right) | (refine State.Works.genSnd s0 zz (fun _ => ?_) ?_; clear_value zz; rotate_left; subst zz; rotate_right) | (refine State.Works.genLine s0 zz (fun _ => ?_) ?_; clear_value zz; rotate_left; subst zz; rotate_right) | (refine State.Works.genMeta s0 zz (fun _ => ?_) ?_; clear_value zz; rotate_left; subst zz; rotate_right) | (refine State.Works.genRes s0 zz (fun _ => ?_) ?_; clear_value zz; rotate_left; subst zz; rotate_right) | (refine State.Works.genWrite s0 zz (fun _ => ?_) ?_; clear_value zz; rotate_left; subst zz; rotate_right) | (refine State.Works.genIngest s0 zz (fun _ => ?_) ?_; clear_value zz; rotate_left; subst zz; rotate_right) | (refine State.Works.genOut s0 zz (fun _ => ?_) ?_; clear_value zz; rotate_left; subst zz; rotate_right) | (refine State.Works.genBuild s0 zz (fun _ => ?_) ?_; clear_value zz; rotate_left; subst zz; rotate_right) | (refine State.Works.genTaken s0 zz (fun _ => ?_) ?_; clear_value zz; rotate_left; subst zz; rotate_right) | (refine State.Works.genMode s0 zz (fun _ _ => ?_) ?_ ?_; clear_value zz; rotate_left; subst zz; rotate_left; subst zz; rotate_left) | (have := State.Works.isFun zz; clear this; subst zz) | clear_value zz) | with_reducible apply State.Works.ite | with_reducible apply WorkAt.ite | with_reducible apply WorkAt.metaOut | with_reducible apply State.metaRead_work | with_reducible apply Keeps.getD | with_reducible apply State.metaRead_workAt | (refine State.Works.fst (State.metaRead_workAt _ _ _ _ _ ?_) (by with_reducible assumption)) | with_reducible apply State.Works.iteFst | with_reducible apply State.Works.iteSnd | with_reducible apply State.Works.iteLine | with_reducible apply State.Works.iteMeta | (with_reducible refine WorkAt.of ?_) | (with_reducible intro _ _ _) | (with_reducible intro _ _) | (show Mode.isBase _ = true; first | exact rfl | exact State.Works.base (by assumption) | exact State.Works.before (by assumption) | (with_reducible refine ModeSt.withPending_base ?_) | (with_reducible refine ModeSt.withPending_before ?_) | (with_reducible refine ModeSt.withBack_base ?_) | (with_reducible refine ModeSt.withBack_before ?_)) | split | (refine WorkAt.of ?_; dsimp only) | (with_reducible refine State.Works.mk_of ?_; first | with_reducible refine State.Works.parts ?_ | refine State.Works.fromReset ?_ | refine State.Works.sameBase ?_ rfl rfl | refine GoodOf.filterMem _ (State.Works.parts ?_) | refine GoodOf.filterRegs _ (State.Works.parts ?_) | refine GoodOf.fillMem _ _ _ (State.Works.parts ?_) | refine GoodOf.insertRegs _ (State.Works.parts ?_) | refine State.Works.newBase ?_ ?_ ?_))

theorem State.readMeta_workAt (s : State) (r : LineRgn) (a : Nat) (withTag : Bool) (checks : List LineCheck) (w : DramWho) (hI : s.Works s0) : (MetaOut.state (State.readMeta s r a withTag checks w)).Works s0 := WorkAt.holds (State.readMeta_work _ _ _ _ _ _ hI)

theorem State.writeMeta_work (s : State) (r : LineRgn) (a : Nat) (ctr : Word) (tag : Option (Nat × Bool)) (hI : s.Works s0) : (State.writeMeta s r a ctr tag).Works s0 := by
  unfold State.writeMeta
  repeat' (first | with_reducible assumption | with_reducible apply State.metaWrite_work | split)

theorem State.tagFail_work (s : State) (c : Nat) (r : LineRgn) (a : Nat) (m : MetaOut) (arg : Nat) (hI : s.Works s0) (hI1 : m.state.Works s0) : (State.tagFail s c r a m arg).Works s0 := by
  unfold State.tagFail
  repeat' (first | with_reducible assumption | with_reducible apply State.bump_work | with_reducible apply State.postLog_work | with_reducible apply State.writeMeta_work | ((with_reducible refine RegRef.High.of_le ?_); first | decide | exact (by decide : 0x100000 ≤ R.CRY_RNREQ.off) | exact Nat.le_add_right_of_le (by decide) | exact Nat.le_add_right_of_le (Nat.le_add_right_of_le (by decide))))

theorem State.readData_work (s : State) (c l a : Nat) (r : LineRgn) (raw : Bool) (mask : BitVec 16) (checks : List LineCheck) (w : DramWho) (hI : s.Works s0) : WorkAt s0 ReadRes.state (State.readData s c l a r raw mask checks w) := by
  unfold State.readData
  repeat' (first | with_reducible assumption | (extract_lets +onlyGivenNames zz; first | (refine State.Works.genLine s0 zz (fun _ => ?_) ?_; clear_value zz; rotate_left; subst zz; rotate_right) | (refine State.Works.genMeta s0 zz (fun _ => ?_) ?_; clear_value zz; rotate_left; subst zz; rotate_right) | clear_value zz) | with_reducible apply WorkAt.ite | with_reducible apply WorkAt.readRes | with_reducible apply State.tagFail_work | with_reducible apply State.readLine_workAt | with_reducible apply State.readMeta_workAt)

theorem State.readData_workAt (s : State) (c l a : Nat) (r : LineRgn) (raw : Bool) (mask : BitVec 16) (checks : List LineCheck) (w : DramWho) (hI : s.Works s0) : (ReadRes.state (State.readData s c l a r raw mask checks w)).Works s0 := WorkAt.holds (State.readData_work _ _ _ _ _ _ _ _ _ hI)

theorem State.notWritten_work (s : State) (c st : Nat) (hI : s.Works s0) : WorkAt s0 WriteRes.state (State.notWritten s c st) := by
  unfold State.notWritten
  repeat' (first | with_reducible assumption | with_reducible apply WorkAt.writeRes | with_reducible apply State.rmwFail_work)

theorem State.notWritten_workAt (s : State) (c st : Nat) (hI : s.Works s0) : (WriteRes.state (State.notWritten s c st)).Works s0 := WorkAt.holds (State.notWritten_work _ _ _ hI)

theorem State.noteCounter_work (s : State) (r ctr : Nat) (hI : s.Works s0) : (State.noteCounter s r ctr).Works s0 := by
  unfold State.noteCounter
  repeat' (first | with_reducible assumption | with_reducible apply State.Works.ite | with_reducible apply State.postLog_work | with_reducible apply State.put_work | ((with_reducible refine RegRef.High.of_le ?_); first | decide | exact (by decide : 0x100000 ≤ R.CRY_RNREQ.off) | exact Nat.le_add_right_of_le (by decide) | exact Nat.le_add_right_of_le (Nat.le_add_right_of_le (by decide))))

theorem State.storeData_work (s : State) (c l a : Nat) (r : LineRgn) (full : Bool) (m : MetaOut) (x : LineOut) (y : List Word) (ok : Nat) (checks : List LineCheck) (w : DramWho) (old : List Word) (hI : s.Works s0) (hI1 : m.state.Works s0) (hI2 : x.state.Works s0) : WorkAt s0 WriteRes.state (State.storeData s c l a r full m x y ok checks w old) := by
  unfold State.storeData
  repeat' (first | with_reducible assumption | (extract_lets +onlyGivenNames zz; first | (refine State.Works.gen s0 zz (fun _ => ?_) ?_; clear_value zz; rotate_left; subst zz; rotate_right) | clear_value zz) | with_reducible apply State.Works.ite | with_reducible apply WorkAt.writeRes | with_reducible apply State.clearLost_work | with_reducible apply State.noteCounter_work | with_reducible apply State.writeMeta_work | with_reducible apply State.notWritten_workAt | (refine State.Works.fst (State.replaceLine_workAt _ _ _ _ _ _ _ _ _ ?_) (by with_reducible assumption)) | split)

theorem State.storeData_workAt (s : State) (c l a : Nat) (r : LineRgn) (full : Bool) (m : MetaOut) (x : LineOut) (y : List Word) (ok : Nat) (checks : List LineCheck) (w : DramWho) (old : List Word) (hI : s.Works s0) (hI1 : m.state.Works s0) (hI2 : x.state.Works s0) : (WriteRes.state (State.storeData s c l a r full m x y ok checks w old)).Works s0 := WorkAt.holds (State.storeData_work _ _ _ _ _ _ _ _ _ _ _ _ _ hI hI1 hI2)

theorem State.mergeLine_work (s : State) (c l a : Nat) (r : LineRgn) (m : MetaOut) (x : LineOut) (needs : BitVec 16) (upd : List Word → Option (List Word)) (checks : List LineCheck) (w : DramWho) (hI : s.Works s0) (hI1 : m.state.Works s0) (hI2 : x.state.Works s0) : WorkAt s0 WriteRes.state (State.mergeLine s c l a r m x needs upd checks w) := by
  unfold State.mergeLine
  repeat' (first | with_reducible assumption | (extract_lets +onlyGivenNames zz; first | (refine State.Works.gen s0 zz (fun _ => ?_) ?_; clear_value zz; rotate_left; subst zz; rotate_right) | (refine State.Works.genFst s0 zz (fun _ => ?_) ?_; clear_value zz; rotate_left; subst zz; rotate_right) | (refine State.Works.genSnd s0 zz (fun _ => ?_) ?_; clear_value zz; rotate_left; subst zz; rotate_right) | (refine State.Works.genLine s0 zz (fun _ => ?_) ?_; clear_value zz; rotate_left; subst zz; rotate_right) | (refine State.Works.genMeta s0 zz (fun _ => ?_) ?_; clear_value zz; rotate_left; subst zz; rotate_right) | (refine State.Works.genRes s0 zz (fun _ => ?_) ?_; clear_value zz; rotate_left; subst zz; rotate_right) | (refine State.Works.genWrite s0 zz (fun _ => ?_) ?_; clear_value zz; rotate_left; subst zz; rotate_right) | (refine State.Works.genIngest s0 zz (fun _ => ?_) ?_; clear_value zz; rotate_left; subst zz; rotate_right) | (refine State.Works.genOut s0 zz (fun _ => ?_) ?_; clear_value zz; rotate_left; subst zz; rotate_right) | (refine State.Works.genBuild s0 zz (fun _ => ?_) ?_; clear_value zz; rotate_left; subst zz; rotate_right) | (refine State.Works.genTaken s0 zz (fun _ => ?_) ?_; clear_value zz; rotate_left; subst zz; rotate_right) | (refine State.Works.genMode s0 zz (fun _ _ => ?_) ?_ ?_; clear_value zz; rotate_left; subst zz; rotate_left; subst zz; rotate_left) | (have := State.Works.isFun zz; clear this; subst zz) | clear_value zz) | with_reducible apply State.Works.ite | with_reducible apply WorkAt.ite | with_reducible apply WorkAt.writeRes | with_reducible apply State.notWritten_work | with_reducible apply State.storeData_work | with_reducible apply State.tagFail_work | with_reducible apply State.notWritten_workAt | with_reducible apply State.storeData_workAt | with_reducible apply State.Works.iteFst | with_reducible apply State.Works.iteSnd | with_reducible apply State.Works.iteLine | with_reducible apply State.Works.iteMeta | (with_reducible refine WorkAt.of ?_) | (with_reducible intro _ _ _) | (with_reducible intro _ _) | (show Mode.isBase _ = true; first | exact rfl | exact State.Works.base (by assumption) | exact State.Works.before (by assumption) | (with_reducible refine ModeSt.withPending_base ?_) | (with_reducible refine ModeSt.withPending_before ?_) | (with_reducible refine ModeSt.withBack_base ?_) | (with_reducible refine ModeSt.withBack_before ?_)) | split | (refine WorkAt.of ?_; dsimp only) | (with_reducible refine State.Works.mk_of ?_; first | with_reducible refine State.Works.parts ?_ | refine State.Works.fromReset ?_ | refine State.Works.sameBase ?_ rfl rfl | refine GoodOf.filterMem _ (State.Works.parts ?_) | refine GoodOf.filterRegs _ (State.Works.parts ?_) | refine GoodOf.fillMem _ _ _ (State.Works.parts ?_) | refine GoodOf.insertRegs _ (State.Works.parts ?_) | refine State.Works.newBase ?_ ?_ ?_))

theorem State.mergeLine_workAt (s : State) (c l a : Nat) (r : LineRgn) (m : MetaOut) (x : LineOut) (needs : BitVec 16) (upd : List Word → Option (List Word)) (checks : List LineCheck) (w : DramWho) (hI : s.Works s0) (hI1 : m.state.Works s0) (hI2 : x.state.Works s0) : (WriteRes.state (State.mergeLine s c l a r m x needs upd checks w)).Works s0 := WorkAt.holds (State.mergeLine_work _ _ _ _ _ _ _ _ _ _ _ hI hI1 hI2)

theorem State.writePart_work (s : State) (c l a : Nat) (r : LineRgn) (m : MetaOut) (needs : BitVec 16) (upd : List Word → Option (List Word)) (checks : List LineCheck) (w : DramWho) (hI : s.Works s0) (hI1 : m.state.Works s0) : WorkAt s0 WriteRes.state (State.writePart s c l a r m needs upd checks w) := by
  unfold State.writePart
  repeat' (first | with_reducible assumption | (extract_lets +onlyGivenNames zz; (refine State.Works.genLine s0 zz (fun _ => ?_) ?_; clear_value zz; rotate_left; subst zz; rotate_right)) | with_reducible apply WorkAt.writeRes | with_reducible apply State.mergeLine_workAt | with_reducible apply State.readLine_workAt)

theorem State.writePart_workAt (s : State) (c l a : Nat) (r : LineRgn) (m : MetaOut) (needs : BitVec 16) (upd : List Word → Option (List Word)) (checks : List LineCheck) (w : DramWho) (hI : s.Works s0) (hI1 : m.state.Works s0) : (WriteRes.state (State.writePart s c l a r m needs upd checks w)).Works s0 := WorkAt.holds (State.writePart_work _ _ _ _ _ _ _ _ _ _ hI hI1)

theorem State.writeData_work (s : State) (c l a : Nat) (r : LineRgn) (full : Bool) (needs : BitVec 16) (upd : List Word → Option (List Word)) (checks : List LineCheck) (w : DramWho) (hI : s.Works s0) : WorkAt s0 WriteRes.state (State.writeData s c l a r full needs upd checks w) := by
  unfold State.writeData
  repeat' (first | with_reducible assumption | (extract_lets +onlyGivenNames zz; first | (refine State.Works.gen s0 zz (fun _ => ?_) ?_; clear_value zz; rotate_left; subst zz; rotate_right) | (refine State.Works.genLine s0 zz (fun _ => ?_) ?_; clear_value zz; rotate_left; subst zz; rotate_right) | (refine State.Works.genMeta s0 zz (fun _ => ?_) ?_; clear_value zz; rotate_left; subst zz; rotate_right)) | with_reducible apply WorkAt.ite | with_reducible apply WorkAt.writeRes | with_reducible apply State.decodeLine_workAt | with_reducible apply State.notWritten_workAt | with_reducible apply State.readMeta_workAt | with_reducible apply State.storeData_workAt | with_reducible apply State.writePart_workAt | with_reducible apply State.Works.iteLine | with_reducible apply State.Works.iteMeta | split)

theorem State.writeData_workAt (s : State) (c l a : Nat) (r : LineRgn) (full : Bool) (needs : BitVec 16) (upd : List Word → Option (List Word)) (checks : List LineCheck) (w : DramWho) (hI : s.Works s0) : (WriteRes.state (State.writeData s c l a r full needs upd checks w)).Works s0 := WorkAt.holds (State.writeData_work _ _ _ _ _ _ _ _ _ _ hI)

theorem State.exclHit_work (s : State) (c e : Nat) (hI : s.Works s0) : (State.exclHit s c e).Works s0 := by
  unfold State.exclHit
  repeat' (first | with_reducible assumption | with_reducible apply State.Works.ite | with_reducible apply State.bump_work | with_reducible apply State.post_work | with_reducible apply State.setDram_work | ((with_reducible refine RegRef.High.of_le ?_); first | decide | exact (by decide : 0x100000 ≤ R.CRY_RNREQ.off) | exact Nat.le_add_right_of_le (by decide) | exact Nat.le_add_right_of_le (Nat.le_add_right_of_le (by decide))))

theorem State.dramRefusal_work (s : State) (c : Nat) (k : Carriage) (h : s.Works s0) :
    ∀ r, State.dramRefusal s c k = some r → r.2.Works s0 := by
  intro r hr
  unfold State.dramRefusal at hr
  extract_lets is ad wr at hr
  clear_value is ad wr
  split at hr
  · injection hr with hr; subst hr; exact h
  · split at hr
    · rename_i e _
      have he := State.exclHit_work s c e h
      generalize State.exclHit s c e = t at he hr
      injection hr with hr; subst hr
      exact State.Works.ite (State.rmwFail_work _ _ _ he) he
    · split at hr
      · injection hr with hr; subst hr; exact h
      · split at hr
        · injection hr with hr; subst hr; exact h
        · split at hr
          · cases hr
          · injection hr with hr; subst hr
            refine State.Works.ite (State.raise_work _ _ ?_ (.of_le (by decide))) ?_ <;> exact State.Works.ite ((State.raise_work _ _ h (.of_le (by decide)))) h

theorem State.dramWake_work (s : State) (c : Nat) (hI : s.Works s0) : (State.dramWake s c).Works s0 := by
  unfold State.dramWake
  repeat' (first | with_reducible assumption | with_reducible apply State.Works.ite | with_reducible apply State.clear_work | with_reducible apply State.put_work | with_reducible apply State.setDram_work | ((with_reducible refine RegRef.High.of_le ?_); first | decide | exact (by decide : 0x100000 ≤ R.CRY_RNREQ.off) | exact Nat.le_add_right_of_le (by decide) | exact Nat.le_add_right_of_le (Nat.le_add_right_of_le (by decide))))

theorem State.engineAdmit_work (s : State) (k : Carriage) (g : Nat) (hI : s.Works s0) : WorkAt s0 Prod.fst (State.engineAdmit s k g) := by
  unfold State.engineAdmit
  repeat' (first | with_reducible assumption | with_reducible apply State.Works.ite | with_reducible apply WorkAt.ite | with_reducible apply WorkAt.fst | with_reducible apply State.dramWake_work | (refine State.dramRefusal_work _ _ _ ?_ _ (by with_reducible assumption)) | split)

theorem State.engineAdmit_workAt (s : State) (k : Carriage) (g : Nat) (hI : s.Works s0) : (Prod.fst (State.engineAdmit s k g)).Works s0 := WorkAt.holds (State.engineAdmit_work _ _ _ hI)

theorem State.engineWrite_work (s : State) (src ctx g : Nat) (m : BitVec 16) (ws : List Word) (checks : List LineCheck) (hI : s.Works s0) : WorkAt s0 Prod.fst (State.engineWrite s src ctx g m ws checks) := by
  unfold State.engineWrite
  repeat' (first | with_reducible assumption | (extract_lets +onlyGivenNames zz; first | (refine State.Works.genFst s0 zz (fun _ => ?_) ?_; clear_value zz; rotate_left; subst zz; rotate_right) | (refine State.Works.genWrite s0 zz (fun _ => ?_) ?_; clear_value zz; rotate_left; subst zz; rotate_right)) | with_reducible apply WorkAt.ite | with_reducible apply WorkAt.fst | with_reducible apply State.engineAdmit_workAt | with_reducible apply State.writeData_workAt)

theorem State.engineWrite_workAt (s : State) (src ctx g : Nat) (m : BitVec 16) (ws : List Word) (checks : List LineCheck) (hI : s.Works s0) : (Prod.fst (State.engineWrite s src ctx g m ws checks)).Works s0 := WorkAt.holds (State.engineWrite_work _ _ _ _ _ _ _ hI)

theorem State.engineRead_work (s : State) (src ctx g : Nat) (checks : List LineCheck) (hI : s.Works s0) : WorkAt s0 Prod.fst (State.engineRead s src ctx g checks) := by
  unfold State.engineRead
  repeat' (first | with_reducible assumption | (extract_lets +onlyGivenNames zz; first | (refine State.Works.genFst s0 zz (fun _ => ?_) ?_; clear_value zz; rotate_left; subst zz; rotate_right) | (refine State.Works.genRes s0 zz (fun _ => ?_) ?_; clear_value zz; rotate_left; subst zz; rotate_right)) | with_reducible apply WorkAt.ite | with_reducible apply WorkAt.fst | with_reducible apply State.engineAdmit_workAt | with_reducible apply State.readData_workAt)

theorem State.engineRead_workAt (s : State) (src ctx g : Nat) (checks : List LineCheck) (hI : s.Works s0) : (Prod.fst (State.engineRead s src ctx g checks)).Works s0 := WorkAt.holds (State.engineRead_work _ _ _ _ _ hI)

theorem State.confirmed_work (s t : State) (hI : s.Works s0) (hI1 : t.Works s0) : (State.confirmed s t).Works s0 := by
  unfold State.confirmed
  repeat' (first | with_reducible assumption | with_reducible apply State.forEach_work | with_reducible apply State.setDram_work | (with_reducible intro _ _ _))

theorem State.putWords_work (s : State) (src ctx b o : Nat) (ws : List Word) (checks : List LineCheck) (hI : s.Works s0) : WorkAt s0 Prod.fst (State.putWords s src ctx b o ws checks) := by
  unfold State.putWords
  repeat' (first | with_reducible assumption | (extract_lets +onlyGivenNames zz; first | (refine State.Works.genFst s0 zz (fun _ => ?_) ?_; clear_value zz; rotate_left; subst zz; rotate_right) | clear_value zz) | with_reducible apply WorkAt.fst | with_reducible apply State.confirmed_work | with_reducible apply State.Works.foldFst | with_reducible apply State.engineWrite_workAt | (with_reducible intro _ _ _))

theorem State.putWords_workAt (s : State) (src ctx b o : Nat) (ws : List Word) (checks : List LineCheck) (hI : s.Works s0) : (Prod.fst (State.putWords s src ctx b o ws checks)).Works s0 := WorkAt.holds (State.putWords_work _ _ _ _ _ _ _ hI)

theorem State.getWords_work (s : State) (src ctx b o n : Nat) (checks : List LineCheck) (hI : s.Works s0) : WorkAt s0 Prod.fst (State.getWords s src ctx b o n checks) := by
  unfold State.getWords
  repeat' (first | with_reducible assumption | (extract_lets +onlyGivenNames zz; (refine State.Works.genFst s0 zz (fun _ => ?_) ?_; clear_value zz; rotate_left; subst zz; rotate_right)) | with_reducible apply WorkAt.fst | with_reducible apply State.confirmed_work | with_reducible apply State.Works.foldFst | with_reducible apply State.engineRead_workAt | (with_reducible intro _ _ _))

theorem State.getWords_workAt (s : State) (src ctx b o n : Nat) (checks : List LineCheck) (hI : s.Works s0) : (Prod.fst (State.getWords s src ctx b o n checks)).Works s0 := WorkAt.holds (State.getWords_work _ _ _ _ _ _ _ hI)

theorem State.putSlot_work (s : State) (f k o : Nat) (ws : List Word) (checks : List LineCheck) (hI : s.Works s0) : WorkAt s0 Prod.fst (State.putSlot s f k o ws checks) := by
  unfold State.putSlot
  repeat' (first | with_reducible assumption | with_reducible apply WorkAt.fst | with_reducible apply State.putWords_workAt)

theorem State.putSlot_workAt (s : State) (f k o : Nat) (ws : List Word) (checks : List LineCheck) (hI : s.Works s0) : (Prod.fst (State.putSlot s f k o ws checks)).Works s0 := WorkAt.holds (State.putSlot_work _ _ _ _ _ _ hI)

theorem State.getSlot_work (s : State) (f k o n : Nat) (checks : List LineCheck) (hI : s.Works s0) : WorkAt s0 Prod.fst (State.getSlot s f k o n checks) := by
  unfold State.getSlot
  repeat' (first | with_reducible assumption | with_reducible apply WorkAt.fst | with_reducible apply State.getWords_workAt)

theorem State.getSlot_workAt (s : State) (f k o n : Nat) (checks : List LineCheck) (hI : s.Works s0) : (Prod.fst (State.getSlot s f k o n checks)).Works s0 := WorkAt.holds (State.getSlot_work _ _ _ _ _ _ hI)

theorem State.putSection_work (s : State) (f k : Nat) (ws : List Word) (checks : List LineCheck) (hI : s.Works s0) : WorkAt s0 Prod.fst (State.putSection s f k ws checks) := by
  unfold State.putSection
  repeat' (first | with_reducible assumption | (extract_lets +onlyGivenNames zz; (refine State.Works.genFst s0 zz (fun _ => ?_) ?_; clear_value zz; rotate_left; subst zz; rotate_right)) | with_reducible apply WorkAt.fst | with_reducible apply State.Works.foldFst | with_reducible apply State.putSlot_workAt | (with_reducible intro _ _ _))

theorem State.putSection_workAt (s : State) (f k : Nat) (ws : List Word) (checks : List LineCheck) (hI : s.Works s0) : (Prod.fst (State.putSection s f k ws checks)).Works s0 := WorkAt.holds (State.putSection_work _ _ _ _ _ hI)

theorem State.getSection_work (s : State) (f k : Nat) (checks : List LineCheck) (hI : s.Works s0) :
    WorkAt s0 Prod.fst (State.getSection s f k checks) := by
  unfold State.getSection
  extract_lets o r
  have ho : o.1.Works s0 := State.getSlot_workAt _ _ _ _ _ _ hI
  clear_value o
  have hr : r.1.Works s0 := State.getSlot_workAt _ _ _ _ _ _ ho
  clear_value r
  split
  · refine WorkAt.fst (WorkAt.foldl (π := Prod.fst) (fun p a hp => ?_) _ _ hr)
    exact State.getSlot_workAt _ _ _ _ _ _ hp
  · exact WorkAt.fst hr

theorem State.getSection_workAt (s : State) (f k : Nat) (checks : List LineCheck) (hI : s.Works s0) :
    (State.getSection s f k checks).1.Works s0 := WorkAt.holds (State.getSection_work s f k checks hI)

theorem State.ilvCheck_work (s : State) (n : Nat) (hI : s.Works s0) : WorkAt s0 Prod.snd (State.ilvCheck s n) := by
  unfold State.ilvCheck
  repeat' (first | with_reducible assumption | with_reducible apply WorkAt.ite | with_reducible apply WorkAt.snd | with_reducible apply State.freeNat_workAt)

theorem State.ilvCheck_workAt (s : State) (n : Nat) (hI : s.Works s0) : (Prod.snd (State.ilvCheck s n)).Works s0 := WorkAt.holds (State.ilvCheck_work _ _ hI)

theorem State.frameCheck_work (s : State) (e : FrameErrors) (hI : s.Works s0) : (State.frameCheck s e).2.2.Works s0 := by
  unfold State.frameCheck
  refine WorkAt.foldl (π := fun p : FrameCheck × BitVec 6 × State => p.2.2) (fun p a hp => ?_) _ _ hI
  have hr := State.ilvCheck_workAt p.2.2 (e.ilv a) hp
  dsimp only
  split <;> exact hr

end Sys2Proof.Machine
end

