-- ==== Sys2Proof/Laws/Fabric.lean ====
section
/-! SUPPORT. What the end of a field's cycle does (`State.Turned`), and what a cell's or a slice's cycle does: the cell or slice
itself, and what stays. -/
namespace Sys2Proof.Machine

/-! ## The end of a cycle -/

section
variable {s0 : State} {f : Nat}

theorem State.Turned.refl (s : State) (f : Nat) : State.Turned s s f := ⟨fun _ => rfl, fun _ _ => rfl, State.SameStores.refl _⟩
/-- What changes none of the stores. -/
theorem State.Turned.same {s t : State} (h : State.Turned s0 s f) (g : State.SameStores s t) : State.Turned s0 t f := by
  have hc : ∀ k, t.cell k = s.cell k := fun k => by unfold State.cell; rw [g.cells]
  have hs : ∀ k, t.seg k = s.seg k := fun k => by unfold State.seg; rw [g.segs]
  refine ⟨fun k => by rw [hc]; exact h.cells k, fun k hk => by rw [hs]; exact h.segs k hk, ?_⟩
  have h' := h.rest
  exact ⟨g.pending.trans h'.pending, g.staged.trans h'.staged, g.hostPath.trans h'.hostPath, g.debugPath.trans h'.debugPath,
    g.stewardPath.trans h'.stewardPath, g.readOut.trans h'.readOut, g.mode.trans h'.mode, g.time.trans h'.time,
    g.tt.trans h'.tt, g.matrix.trans h'.matrix, g.tsp.trans h'.tsp, g.log.trans h'.log, g.hostOut.trans h'.hostOut,
    g.host.trans h'.host, rfl, g.slices.trans h'.slices, rfl, g.bmem.trans h'.bmem, g.queues.trans h'.queues,
    g.routers.trans h'.routers, g.spineNow.trans h'.spineNow, g.nis.trans h'.nis, g.ports.trans h'.ports,
    g.lanes.trans h'.lanes, g.linkOut.trans h'.linkOut, g.laneOut.trans h'.laneOut, g.images.trans h'.images,
    g.cfg.trans h'.cfg, g.power.trans h'.power, g.straps.trans h'.straps, g.fuses.trans h'.fuses, g.atReset.trans h'.atReset, g.tap.trans h'.tap,
    g.pins.trans h'.pins, g.drams.trans h'.drams, g.cry.trans h'.cry, g.stw.trans h'.stw, g.bist.trans h'.bist, rfl⟩
/-- What changes cells, segments and open values alone. -/
theorem State.Turned.parts {s : State} {cs : SMap CellSt} {gs : SMap SegSt} {n : Nat} (h : State.Turned s0 s f)
    (hc : ∀ k, SMap.get cs CellSt.zero k = { s.cell k with sync := (SMap.get cs CellSt.zero k).sync })
    (hg : ∀ k, k / 2048 ≠ f → SMap.get gs SegSt.zero k = s.seg k) :
    State.Turned s0 { s with cells := cs, segs := gs, free := n } f := by
  refine ⟨fun k => (hc k).trans ?_, fun k hk => (hg k hk).trans (h.segs k hk), ?_⟩
  · show _ = { s0.cell k with sync := (SMap.get cs CellSt.zero k).sync }
    rw [h.cells k]
  · have h' := h.rest
    exact ⟨h'.pending, h'.staged, h'.hostPath, h'.debugPath, h'.stewardPath, h'.readOut, h'.mode, h'.time, h'.tt, h'.matrix,
      h'.tsp, h'.log, h'.hostOut, h'.host, rfl, h'.slices, rfl, h'.bmem, h'.queues, h'.routers, h'.spineNow, h'.nis,
      h'.ports, h'.lanes, h'.linkOut, h'.laneOut, h'.images, h'.cfg, h'.power, h'.straps, h'.fuses, h'.atReset, h'.tap, h'.pins,
      h'.drams, h'.cry, h'.stw, h'.bist, rfl⟩
theorem State.Turned.ite {c : Prop} [Decidable c] {a b : State} (ha : State.Turned s0 a f) (hb : State.Turned s0 b f) :
    State.Turned s0 (if c then a else b) f := by split <;> assumption
theorem State.Turned.foldl {α : Type} {g : State → α → State} {l : List α}
    (hg : ∀ s, ∀ a ∈ l, State.Turned s0 s f → State.Turned s0 (g s a) f) {s : State} (h : State.Turned s0 s f) :
    State.Turned s0 (l.foldl g s) f := by
  induction l generalizing s with
  | nil => exact h
  | cons a l ih =>
    exact ih (fun s b hb => hg s b (List.mem_cons_of_mem _ hb)) (hg s a List.mem_cons_self h)

theorem State.setSeg_turned {s : State} {d : Nat} (x : SegSt) (hd : d < 2048) (h : State.Turned s0 s f) :
    State.Turned s0 (s.setSeg (segKey f d) x) f := by
  refine State.Turned.parts h (fun _ => rfl) fun k hk => SMap.get_set_other _ _ _ _ fun e => hk ?_
  rw [e]
  unfold segKey
  omega
theorem State.freeWord_turned {s : State} (h : State.Turned s0 s f) : State.Turned s0 s.freeWord.2 f :=
  State.Turned.parts h (fun _ => rfl) fun _ _ => rfl
theorem State.syncReg_turned {s : State} (c : CellCfg) (k r : Nat) (h : State.Turned s0 s f) :
    State.Turned s0 (s.syncReg c k r) f := by
  unfold State.syncReg
  refine State.Turned.ite h ?_
  extract_lets x v old w p y
  have hp : State.Turned s0 p.2 f := by
    show State.Turned s0 (Prod.snd (ite _ _ _)) f
    split
    · exact State.freeWord_turned h
    · exact h
  have hx : p.2.cell k = x := by
    show State.cell (Prod.snd (ite _ _ _)) k = _
    split <;> rfl
  refine State.Turned.parts hp (fun j => ?_) fun _ _ => rfl
  by_cases e : j = k
  · subst e
    rw [SMap.get_set_same, hx]
  · rw [SMap.get_set_other _ _ _ _ e]
    rfl
theorem State.syncField_turned {s : State} (i : FieldImage) (g : Nat) (h : State.Turned s0 s f) :
    State.Turned s0 (s.syncField i g) f :=
  State.Turned.foldl (fun _ _ _ h => State.Turned.foldl (fun _ _ _ h => State.syncReg_turned _ _ _ h) h) h
theorem State.loadNet_turned {s : State} (i : FieldImage) (st : Nat × Nat) (load : Bool) (h : State.Turned s0 s f) :
    State.Turned s0 (s.loadNet i f st load) f := by
  unfold State.loadNet
  refine State.Turned.foldl (fun s e he h => State.setSeg_turned _ ?_ h) h
  rcases List.mem_append.mp he with he | he <;> obtain ⟨a, ha, rfl⟩ := List.mem_map.mp he <;>
    rw [List.mem_range] at ha
  · show a < 2048
    omega
  · show 128 + a < 2048
    omega
/-- The end of a cycle of field `f`. -/
theorem State.endCycle_turned {s : State} (c : Nat) (h : State.Turned s0 s f) : State.Turned s0 (s.endCycle f c) f := by
  unfold State.endCycle
  split
  · refine State.Turned.ite ?_ h
    exact (State.syncField_turned _ _ (State.loadNet_turned _ _ _ h)).same
      (State.sampleProbes_stays _ _ _ (State.SameStores.refl _))
  · exact h
/-- The field comes to a cycle: what the cycles before it do as they end. -/
theorem State.comeTo_turned (s : State) (f c : Nat) : State.Turned s (s.comeTo f c) f :=
  (State.Turned.foldl (fun _ _ _ h => State.endCycle_turned _ h) (State.Turned.refl s f)).same
    (State.setFld_stays _ _ _ (State.SameStores.refl _))
/-- A field that stands in the cycle already. -/
theorem State.comeTo_here (s : State) {f c : Nat} (h : c ≤ (s.fld f).cycle) :
    s.comeTo f c = s.setFld f (s.fld f) := by
  have e : c - (s.fld f).cycle = 0 := by omega
  unfold State.comeTo
  simp only [e, List.range'_zero, Nat.max_eq_left h]
  rfl
end

/-! ## A cell's cycle -/

/-- The turn of a cell: its registers are as before, and its configuration is the command's. -/
theorem State.cell_cellTurn (s : State) (o : CellOp) :
    (s.cellTurn o).cell (cellKey o.field o.cluster o.cell) =
      { s.cell (cellKey o.field o.cluster o.cell) with
        sync := ((s.cellTurn o).cell (cellKey o.field o.cluster o.cell)).sync, alt := o.alt } := by
  have h := (State.comeTo_turned s o.field ((s.fld o.field).base + o.cycle)).cells (cellKey o.field o.cluster o.cell)
  have e : (s.cellTurn o).cell (cellKey o.field o.cluster o.cell) =
      { (s.comeTo o.field ((s.fld o.field).base + o.cycle)).cell (cellKey o.field o.cluster o.cell) with alt := o.alt } :=
    SMap.get_set_same _ _ _ _
  rw [e, h]
theorem State.cell_cellTurn_other (s : State) (o : CellOp) {k : Nat} (h : k ≠ cellKey o.field o.cluster o.cell) :
    (s.cellTurn o).cell k = { s.cell k with sync := ((s.cellTurn o).cell k).sync } := by
  have e : (s.cellTurn o).cell k = (s.comeTo o.field ((s.fld o.field).base + o.cycle)).cell k :=
    SMap.get_set_other _ _ _ _ h
  rw [e]
  exact (State.comeTo_turned s o.field ((s.fld o.field).base + o.cycle)).cells k
/-- A cell runs on its command's configuration. -/
theorem State.cellCfg_cellTurn (s : State) (o : CellOp) (i : FieldImage) :
    (s.cellTurn o).cellCfg i o.field o.place = o.cfg i := by
  have e : 16384 * o.field.val + o.place = cellKey o.field o.cluster o.cell := by
    unfold CellOp.place cellKey
    omega
  unfold State.cellCfg
  rw [e, State.cell_cellTurn]
  rfl

/-- Every store but the cells and the slices. -/
theorem State.SameStores.cellDone (s : State) (o : CellOp) (st : Nat × Nat) (r : CellRegs) (cout : Bool) :
    State.SameStores { s with cells := (s.cellDone o st r cout).cells } (s.cellDone o st r cout) := by
  constructor <;> rfl
/-- The cell's cycle ends: its registers, what its neighbours read, its COUT. -/
theorem State.cell_cellDone (s : State) (o : CellOp) (st : Nat × Nat) (r : CellRegs) (cout : Bool) :
    (s.cellDone o st r cout).cell (cellKey o.field o.cluster o.cell) =
      { s.cell (cellKey o.field o.cluster o.cell) with
        now := r, prev := (s.cell (cellKey o.field o.cluster o.cell)).now, stamp := st, cout := cout } :=
  SMap.get_set_same _ _ _ _
theorem State.cell_cellDone_other (s : State) (o : CellOp) (st : Nat × Nat) (r : CellRegs) (cout : Bool) {k : Nat}
    (h : k ≠ cellKey o.field o.cluster o.cell) : (s.cellDone o st r cout).cell k = s.cell k :=
  SMap.get_set_other _ _ _ _ h
theorem State.cells_countSat (s : State) (f : Nat) (st : Nat × Nat) (b : Bool) : (s.countSat f st b).cells = s.cells :=
  (State.countSat_stays _ _ _ _ (State.SameStores.refl _)).cells
theorem State.cell_countSat (s : State) (f : Nat) (st : Nat × Nat) (b : Bool) (k : Nat) :
    (s.countSat f st b).cell k = s.cell k := by unfold State.cell; rw [State.cells_countSat]

/-- A cell that executes entry `e` of operation `op`: what R61 to R87 ask for. -/
theorem State.runCell_spec {s : State} {op : Nat} {o : CellOp} {alu : AluIn → AluOut} {always : Bool} {i : FieldImage}
    {e : EntryFields} (h : CellRuns s o op i e) (hc : (s.reads o i e).cond = true ∨ always = true) :
    (s.runCell op o alu always).cell (cellKey o.field o.cluster o.cell) =
      { (s.cellTurn o).cell (cellKey o.field o.cluster o.cell) with
        now := (s.cell (cellKey o.field o.cluster o.cell)).now.write (o.cfg i) e.dst (alu (s.reads o i e)),
        prev := (s.cell (cellKey o.field o.cluster o.cell)).now, stamp := (s.fld o.field).stamp o.cycle,
        cout := (alu (s.reads o i e)).cout } := by
  obtain ⟨hi, hr, hw, he, ha⟩ := h
  have hx : ((s.cellTurn o).cellIn i o ((s.fld o.field).stamp o.cycle) e) = s.reads o i e := rfl
  have hn : ((s.cellTurn o).cell (cellKey o.field o.cluster o.cell)).now =
      (s.cell (cellKey o.field o.cluster o.cell)).now := by rw [State.cell_cellTurn]
  unfold State.runCell
  simp only [hi, hr, State.cellCfg_cellTurn, he, ha, hw, hx, hn]
  rw [if_neg (by simp), if_neg (by simp), if_neg (by rcases hc with hc | hc <;> simp [hc])]
  rw [State.cell_countSat, State.cell_cellDone, hn]
/-- The same entry with COND false: nothing is written and COUT is 0 (R67). -/
theorem State.runCell_skip {s : State} {op : Nat} {o : CellOp} {alu : AluIn → AluOut} {i : FieldImage}
    {e : EntryFields} (h : CellRuns s o op i e) (hc : (s.reads o i e).cond = false) :
    (s.runCell op o alu false).cell (cellKey o.field o.cluster o.cell) =
      { (s.cellTurn o).cell (cellKey o.field o.cluster o.cell) with
        prev := (s.cell (cellKey o.field o.cluster o.cell)).now, stamp := (s.fld o.field).stamp o.cycle,
        cout := false } := by
  obtain ⟨hi, hr, hw, he, ha⟩ := h
  have hx : ((s.cellTurn o).cellIn i o ((s.fld o.field).stamp o.cycle) e) = s.reads o i e := rfl
  have hn : ((s.cellTurn o).cell (cellKey o.field o.cluster o.cell)).now =
      (s.cell (cellKey o.field o.cluster o.cell)).now := by rw [State.cell_cellTurn]
  unfold State.runCell
  simp only [hi, hr, State.cellCfg_cellTurn, he, ha, hw, hx, hc]
  rw [if_neg (by simp), if_neg (by simp), if_pos (by simp)]
  rw [State.cell_cellDone, hn]
/-- Every other cell stays as the cycles that ended leave it. -/
theorem State.runCell_other (s : State) (op : Nat) (o : CellOp) (alu : AluIn → AluOut) (always : Bool) {k : Nat}
    (h : k ≠ cellKey o.field o.cluster o.cell) :
    (s.runCell op o alu always).cell k = { s.cell k with sync := ((s.runCell op o alu always).cell k).sync } := by
  unfold State.runCell
  split
  · rfl
  · dsimp only
    split
    · rfl
    · split
      · rfl
      · split
        · rfl
        · split
          · rw [State.cell_cellDone_other _ _ _ _ _ h]
            exact State.cell_cellTurn_other _ _ h
          · rw [State.cell_countSat, State.cell_cellDone_other _ _ _ _ _ h]
            exact State.cell_cellTurn_other _ _ h
/-- Everything but the cell is as at its turn. -/
theorem State.runCell_stores {s : State} {op : Nat} {o : CellOp} {alu : AluIn → AluOut} {always : Bool} {i : FieldImage}
    {e : EntryFields} (h : CellRuns s o op i e) :
    State.SameStores { s.cellTurn o with cells := (s.runCell op o alu always).cells } (s.runCell op o alu always) := by
  obtain ⟨hi, hr, hw, he, ha⟩ := h
  unfold State.runCell
  simp only [hi, hr, State.cellCfg_cellTurn, he, hw]
  rw [if_neg (by simp), if_neg (by simp)]
  split
  · exact State.SameStores.cellDone _ _ _ _ _
  · rw [State.cells_countSat]
    exact State.countSat_stays _ _ _ _ (State.SameStores.cellDone _ _ _ _ _)

/-! ## A slice's cycle -/

/-- The turn of a slice: its registers are as before, and its configuration is the command's. -/
theorem State.slice_sliceTurn (s : State) (o : SliceOp) :
    (s.sliceTurn o).slice (sliceKey o.field o.slice) = { s.slice (sliceKey o.field o.slice) with alt := o.alt } := by
  have h := (State.comeTo_turned s o.field ((s.fld o.field).base + o.cycle)).rest.slices
  have e : (s.sliceTurn o).slice (sliceKey o.field o.slice) =
      { (s.comeTo o.field ((s.fld o.field).base + o.cycle)).slice (sliceKey o.field o.slice) with alt := o.alt } :=
    SMap.get_set_same _ _ _ _
  rw [e]
  unfold State.slice
  rw [h]
theorem State.slice_sliceTurn_other (s : State) (o : SliceOp) {k : Nat} (h : k ≠ sliceKey o.field o.slice) :
    (s.sliceTurn o).slice k = s.slice k := by
  have e : (s.sliceTurn o).slice k = (s.comeTo o.field ((s.fld o.field).base + o.cycle)).slice k :=
    SMap.get_set_other _ _ _ _ h
  rw [e]
  unfold State.slice
  rw [(State.comeTo_turned s o.field ((s.fld o.field).base + o.cycle)).rest.slices]
theorem State.sliceCfg_sliceTurn (s : State) (o : SliceOp) (i : FieldImage) :
    (s.sliceTurn o).sliceCfg i o.field o.slice = o.cfg i := by
  unfold State.sliceCfg
  rw [State.slice_sliceTurn]
  rfl
theorem State.slice_counts (s : State) (f : Nat) (st : Nat × Nat) (a b : Bool) :
    State.SameStores s ((s.countSat f st a).countOvf f st b) :=
  State.countOvf_stays _ _ _ _ (State.countSat_stays _ _ _ _ (State.SameStores.refl _))
theorem State.slice_of_counts (s : State) (f : Nat) (st : Nat × Nat) (a b : Bool) (k : Nat) :
    ((s.countSat f st a).countOvf f st b).slice k = s.slice k := by
  unfold State.slice
  rw [(State.slice_counts s f st a b).slices]

/-- A slice that executes entry `e` of operation `op` (R109, R110). -/
theorem State.runSlice_spec {s : State} {op : Nat} {o : SliceOp} {g : SliceIn → SliceOut} {i : FieldImage}
    {e : EntryFields} (h : SliceRuns s o op i e) (hc : s.sliceCond o i e = true) :
    (s.runSlice op o g).slice (sliceKey o.field o.slice) =
      { s.slice (sliceKey o.field o.slice) with
        now := (g (s.sliceReads o i e)).regs, prev := (s.slice (sliceKey o.field o.slice)).now,
        stamp := (s.fld o.field).stamp o.cycle, alt := o.alt } := by
  obtain ⟨hi, hr, he, ha⟩ := h
  have hc' : condHolds e.cond ((s.sliceTurn o).sliceIn i o ((s.fld o.field).stamp o.cycle) e).regs.fl
      (decide (o.cycle < i.len (o.slice.val / 2))) = true := hc
  unfold State.runSlice
  simp only [hi, hr, State.sliceCfg_sliceTurn, he, ha, hc']
  simp only [Bool.not_true, Bool.or_false, Bool.false_eq_true, if_false]
  rw [State.slice_of_counts]
  have e2 : ∀ (t : State) (st : Nat × Nat) (r : SliceRegs), (t.sliceDone o st r).slice (sliceKey o.field o.slice) =
      { t.slice (sliceKey o.field o.slice) with
        now := r, prev := (t.slice (sliceKey o.field o.slice)).now, stamp := st } := fun t st r => SMap.get_set_same _ _ _ _
  rw [e2, State.slice_sliceTurn]
  rfl
theorem State.slices_sliceDone (s : State) (o : SliceOp) (st : Nat × Nat) (r : SliceRegs) :
    State.SameStores { s with slices := (s.sliceDone o st r).slices } (s.sliceDone o st r) := by
  constructor <;> rfl
/-- Everything but the slice is as at its turn. -/
theorem State.runSlice_stores {s : State} {op : Nat} {o : SliceOp} {g : SliceIn → SliceOut} {i : FieldImage}
    {e : EntryFields} (h : SliceRuns s o op i e) :
    State.SameStores { s.sliceTurn o with slices := (s.runSlice op o g).slices } (s.runSlice op o g) := by
  obtain ⟨hi, hr, he, ha⟩ := h
  unfold State.runSlice
  simp only [hi, hr, State.sliceCfg_sliceTurn, he]
  rw [if_neg (by simp)]
  split
  · exact State.slices_sliceDone _ _ _ _
  · rw [(State.slice_counts _ _ _ _ _).slices]
    exact State.countOvf_stays _ _ _ _ (State.countSat_stays _ _ _ _ (State.slices_sliceDone _ _ _ _))
theorem State.runSlice_other (s : State) (op : Nat) (o : SliceOp) (g : SliceIn → SliceOut) {k : Nat}
    (h : k ≠ sliceKey o.field o.slice) : (s.runSlice op o g).slice k = s.slice k := by
  have hd : ∀ (t : State) (st : Nat × Nat) (r : SliceRegs), (t.sliceDone o st r).slice k = t.slice k :=
    fun t st r => SMap.get_set_other _ _ _ _ h
  have ht := State.slice_sliceTurn_other s o h
  unfold State.runSlice
  split
  · rfl
  · dsimp only
    split
    · rfl
    · split
      · rfl
      · split
        · rw [hd, ht]
        · rw [State.slice_of_counts, hd, ht]

end Sys2Proof.Machine
end

