-- ==== Sys2Proof/Laws/Keep.lean ====
section
/-! SUPPORT. How the invariant is carried through an operation: registers and block memory are written in one place each, what
changes neither them nor the mode keeps it, and a choice or a repetition of what keeps it keeps it. -/
namespace Sys2Proof.Machine

variable {wq : List Instr}

/-- What every operation keeps: the invariant, and the commands that wait. -/
structure State.Good (wq : List Instr) (s : State) : Prop where
  inv : s.Inv
  queue : s.pending = wq
/-- The parts of a state that this looks at. -/
structure GoodOf (wq q : List Instr) (b : SMap (Option BmCell)) (r : SMap Reg) (m : ModeSt) : Prop where
  queue : q = wq
  bmem : Memory.wf b = true
  regs : SMap.risingFrom 0 r = true
  base : m.base.isBase = true
  before : m.before.isBase = true
theorem State.Good.of_parts {s : State} (h : GoodOf wq s.pending s.bmem s.regs s.mode) : s.Good wq :=
  ⟨⟨h.bmem, h.regs, h.base, h.before⟩, h.queue⟩
theorem State.Good.base {s : State} (h : s.Good wq) : s.mode.base.isBase = true := h.inv.base
theorem State.Good.before {s : State} (h : s.Good wq) : s.mode.before.isBase = true := h.inv.before
/-- A record's three parts decide. -/
theorem State.Good.mk_of
    {pend : List Instr} {regs' : SMap Reg} {staged' : SMap Staged} {hostPath' : PathSt} {debugPath' : PathSt}
    {stewardPath' : PathSt} {readOut' : Path × BitVec 64} {md : ModeSt} {time' : TimeSt} {seqs' : SMap (BitVec 16)}
    {pass' : PassSt} {tt' : TtSt} {matrix' : MatrixSt} {tsp' : SMap TspSt} {log' : List LogEntry} {hostOut' : List
    HostOut} {host' : HostSt} {cells' : SMap CellSt} {slices' : SMap SliceSt} {segs' : SMap SegSt} {bmem' : SMap
    (Option BmCell)} {queues' : SMap QCtl} {fields' : SMap FieldSt} {routers' : SMap RouterSt} {spineNow' : Nat} {nis'
    : SMap NiSt} {ports' : SMap PortSt} {lanes' : SMap LaneSt} {linkOut' : List (Nat × LinkBlock)} {laneOut' : List
    (Nat × LaneSent)} {images' : SMap (Option FieldImage)} {cfg' : CfgSt} {power' : PowerSt} {straps' : Straps}
    {fuses' : FuseSt} {atReset' : FuseSt} {tap' : TapSt} {pins' : PinsSt} {drams' : SMap ChSt} {cry' : CrySt} {stw' :
    StwSt} {bist' : BistSt} {dbg' : DbgSt} {free' : Nat}
    (h : GoodOf wq pend bmem' regs' md) :
    (State.mk pend regs' staged' hostPath' debugPath' stewardPath' readOut' md time' seqs' pass' tt' matrix' tsp' log'
    hostOut' host' cells' slices' segs' bmem' queues' fields' routers' spineNow' nis' ports' lanes' linkOut' laneOut'
    images' cfg' power' straps' fuses' atReset' tap' pins' drams' cry' stw' bist' dbg' free').Good wq :=
  State.Good.of_parts h
theorem State.Good.parts {s : State} (h : s.Good wq) : GoodOf wq s.pending s.bmem s.regs s.mode :=
  ⟨h.queue, h.inv.bmem, h.inv.regs, h.inv.base, h.inv.before⟩
/-- A reset that leaves the commands that wait. -/
theorem State.Good.fromReset {s : State} (h : s.Good wq) :
    GoodOf wq s.pending State.reset.bmem State.reset.regs State.reset.mode := ⟨h.queue, rfl, rfl, rfl, rfl⟩
/-- What changes the mode but not the base modes. -/
theorem State.Good.sameBase {s : State} {m : ModeSt} (h : s.Good wq) (hb : m.base = s.mode.base) (hn : m.before = s.mode.before) :
    GoodOf wq s.pending s.bmem s.regs m := ⟨h.queue, h.inv.bmem, h.inv.regs, hb ▸ h.base, hn ▸ h.before⟩
theorem State.Good.newBase {s : State} {m : ModeSt} (h : s.Good wq) (hb : m.base.isBase = true) (hn : m.before.isBase = true) :
    GoodOf wq s.pending s.bmem s.regs m := ⟨h.queue, h.inv.bmem, h.inv.regs, hb, hn⟩
theorem State.Good.ite {c : Prop} [Decidable c] {a b : State} (ha : a.Good wq) (hb : b.Good wq) : (if c then a else b).Good wq := by
  split <;> assumption
/-- A state, or an answer with a state in it, whose value is no longer needed once it is known to meet the invariant. -/
theorem State.Good.gen (wq : List Instr) {P : Prop} (z : State) (k : z.Good wq → P) (h : z.Good wq) : P := k h
theorem State.Good.genFst (wq : List Instr) {α : Type} {P : Prop} (z : State × α) (k : z.1.Good wq → P) (h : z.1.Good wq) : P := k h
theorem State.Good.genSnd (wq : List Instr) {α : Type} {P : Prop} (z : α × State) (k : z.2.Good wq → P) (h : z.2.Good wq) : P := k h
theorem State.Good.genLine (wq : List Instr) {P : Prop} (z : LineOut) (k : z.state.Good wq → P) (h : z.state.Good wq) : P := k h
theorem State.Good.genMeta (wq : List Instr) {P : Prop} (z : MetaOut) (k : z.state.Good wq → P) (h : z.state.Good wq) : P := k h
theorem State.Good.genRes (wq : List Instr) {P : Prop} (z : ReadRes) (k : z.state.Good wq → P) (h : z.state.Good wq) : P := k h
theorem State.Good.genWrite (wq : List Instr) {P : Prop} (z : WriteRes) (k : z.state.Good wq → P) (h : z.state.Good wq) : P := k h
theorem State.Good.genIngest (wq : List Instr) {P : Prop} (z : Ingest) (k : z.state.Good wq → P) (h : z.state.Good wq) : P := k h
theorem State.Good.genOut (wq : List Instr) {P : Prop} (z : ReadOut) (k : z.state.Good wq → P) (h : z.state.Good wq) : P := k h
theorem State.Good.genMode (_ : List Instr) {P : Prop} (z : ModeSt) (k : z.base.isBase = true → z.before.isBase = true → P)
    (h : z.base.isBase = true) (h' : z.before.isBase = true) : P := k h h'
theorem State.Good.genBuild (wq : List Instr) {P : Prop} (z : BuildSt) (k : z.state.Good wq → P) (h : z.state.Good wq) : P := k h
theorem State.Good.genTaken (wq : List Instr) {P : Prop} (z : Taken) (k : z.state.Good wq → P) (h : z.state.Good wq) : P := k h
/-- An answer that may be none. -/
def Keeps (wq : List Instr) (o : Option State) : Prop := ∀ t, o = some t → t.Good wq
theorem Keeps.none : Keeps wq none := fun _ h => by cases h
theorem Keeps.some {t : State} (h : t.Good wq) : Keeps wq (some t) := fun _ e => by cases e; exact h
theorem Keeps.ite {c : Prop} [Decidable c] {a b : Option State} (ha : Keeps wq a) (hb : Keeps wq b) :
    Keeps wq (if c then a else b) := by split <;> assumption
/-- A part of a pair that a match has taken apart. -/
theorem State.Good.fst {α : Type} {p : State × α} {t : State} {a : α} (h : p.1.Good wq) (e : p = (t, a)) : t.Good wq := by
  subst e; exact h
theorem State.Good.snd {α : Type} {p : α × State} {t : State} {a : α} (h : p.2.Good wq) (e : p = (a, t)) : t.Good wq := by
  subst e; exact h
/-- The state inside an answer that holds more than a state. -/
def InvAt (wq : List Instr) {α : Type} (π : α → State) (x : α) : Prop := (π x).Good wq
theorem InvAt.of {α : Type} {π : α → State} {x : α} (h : (π x).Good wq) : InvAt wq π x := h
theorem InvAt.inv {α : Type} {π : α → State} {x : α} (h : InvAt wq π x) : (π x).Good wq := h
theorem InvAt.fst {α : Type} {t : State} {a : α} (h : t.Good wq) : InvAt wq Prod.fst (t, a) := h
theorem InvAt.snd {α : Type} {t : State} {a : α} (h : t.Good wq) : InvAt wq Prod.snd (a, t) := h
theorem InvAt.line {t : State} {a : List Word} {b c d : BitVec 16} (h : t.Good wq) : InvAt wq LineOut.state ⟨t, a, b, c, d⟩ := h
theorem InvAt.metaOut {t : State} {a : Word} {b : Nat} {c d e : Bool} (h : t.Good wq) : InvAt wq MetaOut.state ⟨t, a, b, c, d, e⟩ := h
theorem InvAt.readRes {t : State} {a : Nat} {b : List Word} (h : t.Good wq) : InvAt wq ReadRes.state ⟨t, a, b⟩ := h
theorem InvAt.writeRes {t : State} {a : Nat} {b : List Word} {c : Bool} (h : t.Good wq) : InvAt wq WriteRes.state ⟨t, a, b, c⟩ := h
theorem InvAt.ingest {t : State} {a : LoadSt} {b : Option LoadFail} (h : t.Good wq) : InvAt wq Ingest.state ⟨t, a, b⟩ := h
theorem InvAt.readOut {t : State} {a : BmCell} {b c : Bool} (h : t.Good wq) : InvAt wq ReadOut.state ⟨t, a, b, c⟩ := h
theorem InvAt.taken {t : State} {a : Option Carriage} (h : t.Good wq) : InvAt wq Taken.state ⟨t, a⟩ := h
theorem InvAt.build {t : State} {a : List (Nat × Nat × BitVec 6)} {b : List Nat} (h : t.Good wq) : InvAt wq BuildSt.state ⟨t, a, b⟩ := h
theorem InvAt.ite {α : Type} {π : α → State} {c : Prop} [Decidable c] {a b : α} (ha : InvAt wq π a) (hb : InvAt wq π b) :
    InvAt wq π (if c then a else b) := by split <;> assumption
theorem State.Good.iteFst {α : Type} {c : Prop} [Decidable c] {a b : State × α} (ha : (Prod.fst a).Good wq) (hb : (Prod.fst b).Good wq) :
    (Prod.fst (if c then a else b)).Good wq := by split <;> assumption
theorem State.Good.iteSnd {α : Type} {c : Prop} [Decidable c] {a b : α × State} (ha : (Prod.snd a).Good wq) (hb : (Prod.snd b).Good wq) :
    (Prod.snd (if c then a else b)).Good wq := by split <;> assumption
theorem State.Good.iteLine {c : Prop} [Decidable c] {a b : LineOut} (ha : (LineOut.state a).Good wq) (hb : (LineOut.state b).Good wq) :
    (LineOut.state (if c then a else b)).Good wq := by split <;> assumption
theorem State.Good.iteMeta {c : Prop} [Decidable c] {a b : MetaOut} (ha : (MetaOut.state a).Good wq) (hb : (MetaOut.state b).Good wq) :
    (MetaOut.state (if c then a else b)).Good wq := by split <;> assumption
/-- A command completes, in a state that meets the invariant. -/
def Goes (wq : List Instr) (o : Ans) : Prop := ∃ t, o = .next t ∧ t.Good wq
theorem Goes.next {t : State} (h : t.Good wq) : Goes wq (.next t) := ⟨t, rfl, h⟩
theorem Goes.ite {c : Prop} [Decidable c] {a b : Ans} (ha : Goes wq a) (hb : Goes wq b) : Goes wq (if c then a else b) := by
  split <;> assumption
theorem Goes.inv {o : Ans} {t : State} (h : Goes wq o) (e : o = .next t) : t.Good wq := by
  obtain ⟨u, hu, h⟩ := h
  rw [hu] at e
  cases e
  exact h
theorem State.Good.foldl {α : Type} {g : State → α → State} (hg : ∀ s a, s.Good wq → (g s a).Good wq) :
    ∀ (l : List α) {s : State}, s.Good wq → (l.foldl g s).Good wq
  | [], _, h => h
  | a :: l, _, h => State.Good.foldl hg l (hg _ a h)
theorem State.Good.foldFst {α β : Type} {g : State × β → α → State × β} (hg : ∀ p a, p.1.Good wq → (g p a).1.Good wq) :
    ∀ (l : List α) {p : State × β}, p.1.Good wq → (l.foldl g p).1.Good wq
  | [], _, h => h
  | a :: l, _, h => State.Good.foldFst hg l (hg _ a h)
theorem InvAt.foldl {α β : Type} {π : β → State} {g : β → α → β} (hg : ∀ b a, (π b).Good wq → (π (g b a)).Good wq) :
    ∀ (l : List α) (b : β), (π b).Good wq → (π (l.foldl g b)).Good wq
  | [], _, h => h
  | a :: l, _, h => InvAt.foldl hg l _ (hg _ a h)
theorem Keeps.getD {o : Option State} {t : State} (h : Keeps wq o) (ht : t.Good wq) : (o.getD t).Good wq := by
  cases o with
  | none => exact ht
  | some u => exact h u rfl
/-- Whether a value is a function: such a value is put in its place. -/
theorem State.Good.isFun {α β : Type} (_ : α → β) : True := trivial
theorem ModeSt.withPending_base {m : ModeSt} (h : m.base.isBase = true) : m.withPending.base.isBase = true := by
  unfold ModeSt.withPending
  split
  · rfl
  · exact h
theorem ModeSt.withPending_before {m : ModeSt} (h : m.before.isBase = true) : m.withPending.before.isBase = true := by
  unfold ModeSt.withPending
  split <;> exact h
theorem ModeSt.withBack_base {m : ModeSt} (h : m.base.isBase = true) : m.withBack.base.isBase = true := by
  unfold ModeSt.withBack
  split
  · rfl
  · exact h
theorem ModeSt.withBack_before {m : ModeSt} (h : m.before.isBase = true) : m.withBack.before.isBase = true := by
  unfold ModeSt.withBack
  split <;> exact h
theorem State.forEach_inv {s : State} (l : List Nat) (g : State → Nat → State) (h : s.Good wq)
    (hg : ∀ s a, s.Good wq → (g s a).Good wq) : (s.forEach l g).Good wq := State.Good.foldl hg l h

/-- Registers are written by `setReg`, and removed. -/
theorem State.setReg_inv (s : State) (r : RegRef) (v : Nat) (h : s.Good wq) : (s.setReg r v).Good wq :=
  State.Good.of_parts ⟨h.queue, h.inv.bmem, SMap.rising_set _ _ _ h.inv.regs, h.base, h.before⟩
theorem GoodOf.filterRegs {q : List Instr} {b : SMap (Option BmCell)} {r : SMap Reg} {m : ModeSt} (p : Nat × Reg → Bool) (h : GoodOf wq q b r m) :
    GoodOf wq q b (List.filter p r) m := ⟨h.queue, h.bmem, SMap.risingFrom_filter _ _ _ h.regs, h.base, h.before⟩
theorem GoodOf.filterMapRegs {q : List Instr} {b : SMap (Option BmCell)} {r : SMap Reg} {m : ModeSt} {g : Nat × Reg → Option (Nat × Reg)}
    (hg : ∀ e x, g e = some x → x.1 = e.1) (h : GoodOf wq q b r m) : GoodOf wq q b (List.filterMap g r) m :=
  ⟨h.queue, h.bmem, SMap.risingFrom_filterMap hg _ _ h.regs, h.base, h.before⟩
theorem GoodOf.insertRegs {q : List Instr} {b : SMap (Option BmCell)} {r : SMap Reg} {m : ModeSt} (l : SMap Reg) (h : GoodOf wq q b r m) :
    GoodOf wq q b (List.foldl (fun (m : SMap Reg) (e : Nat × Reg) => SMap.insert m e.1 e.2) r l) m :=
  ⟨h.queue, h.bmem, SMap.rising_inserts l h.regs, h.base, h.before⟩
/-- Block memory is written word by word, filled, and dropped. -/
theorem State.setWord_inv (s : State) (m w : Nat) (x : Option BmCell) (h : s.Good wq) : (s.setWord m w x).Good wq :=
  State.Good.of_parts ⟨h.queue, SMap.wf_set _ _ h.inv.bmem, h.inv.regs, h.base, h.before⟩
theorem GoodOf.filterMem {q : List Instr} {b : SMap (Option BmCell)} {r : SMap Reg} {m : ModeSt} (p : Nat × Option BmCell → Bool)
    (h : GoodOf wq q b r m) : GoodOf wq q (List.filter p b) r m := ⟨h.queue, SMap.wf_filter _ h.bmem, h.regs, h.base, h.before⟩
theorem GoodOf.fillMem {q : List Instr} {b : SMap (Option BmCell)} {r : SMap Reg} {m : ModeSt} (lo n : Nat) (c : BmCell) (h : GoodOf wq q b r m) :
    GoodOf wq q (SMap.putRange b lo n (some c)) r m := ⟨h.queue, SMap.wf_putRange _ _ (by simp) h.bmem, h.regs, h.base, h.before⟩

end Sys2Proof.Machine
end

