-- ==== Sys2Proof/Laws/KeepFabric.lean ====
section
/-! SUPPORT. Every operation keeps the invariant and the commands that wait: the shared operations, the watch units, the network of a field, the network interfaces, the routers and the Stagelink ports.
One lemma for each operation that answers a state (`_inv`, and `_at` for the state inside a larger answer); of a command the lemma says that it completes (`Goes`). -/
namespace Sys2Proof.Machine
variable {wq : List Instr}

/-! Machine/Ops.lean -/

theorem State.put_inv (s : State) (f : Fld) (v : Nat) (hI : s.Good wq) : (State.put s f v).Good wq := by
  unfold State.put
  repeat' (first | with_reducible assumption | with_reducible apply State.setReg_inv)

theorem State.raise_inv (s : State) (f : Fld) (hI : s.Good wq) : (State.raise s f).Good wq := by
  unfold State.raise
  repeat' (first | with_reducible assumption | with_reducible apply State.put_inv)

theorem State.clear_inv (s : State) (f : Fld) (hI : s.Good wq) : (State.clear s f).Good wq := by
  unfold State.clear
  repeat' (first | with_reducible assumption | with_reducible apply State.put_inv)

theorem State.bump_inv (s : State) (f : Fld) (n : Nat) (hI : s.Good wq) : (State.bump s f n).Good wq := by
  unfold State.bump
  repeat' (first | with_reducible assumption | with_reducible apply State.put_inv)

theorem State.peak_inv (s : State) (f : Fld) (v : Nat) (hI : s.Good wq) : (State.peak s f v).Good wq := by
  unfold State.peak
  repeat' (first | with_reducible assumption | with_reducible apply State.put_inv)

theorem State.count_inv (s : State) (f : Fld) (n : Nat) (hI : s.Good wq) : (State.count s f n).Good wq := by
  unfold State.count
  repeat' (first | with_reducible assumption | with_reducible apply State.put_inv)

theorem State.setPair_inv (s : State) (lo hi : RegRef) (v : Nat) (hI : s.Good wq) : (State.setPair s lo hi v).Good wq := by
  unfold State.setPair
  repeat' (first | with_reducible assumption | with_reducible apply State.setReg_inv)

theorem State.setFld_inv (s : State) (f : Nat) (x : FieldSt) (hI : s.Good wq) : (State.setFld s f x).Good wq := by
  unfold State.setFld
  repeat' (first | with_reducible assumption | (with_reducible refine State.Good.mk_of ?_; with_reducible refine State.Good.parts ?_))

theorem State.setCell_inv (s : State) (k : Nat) (x : CellSt) (hI : s.Good wq) : (State.setCell s k x).Good wq := by
  unfold State.setCell
  repeat' (first | with_reducible assumption | (with_reducible refine State.Good.mk_of ?_; with_reducible refine State.Good.parts ?_))

theorem State.setSlice_inv (s : State) (k : Nat) (x : SliceSt) (hI : s.Good wq) : (State.setSlice s k x).Good wq := by
  unfold State.setSlice
  repeat' (first | with_reducible assumption | (with_reducible refine State.Good.mk_of ?_; with_reducible refine State.Good.parts ?_))

theorem State.setSeg_inv (s : State) (k : Nat) (x : SegSt) (hI : s.Good wq) : (State.setSeg s k x).Good wq := by
  unfold State.setSeg
  repeat' (first | with_reducible assumption | (with_reducible refine State.Good.mk_of ?_; with_reducible refine State.Good.parts ?_))

theorem State.setQueue_inv (s : State) (k : Nat) (x : QCtl) (hI : s.Good wq) : (State.setQueue s k x).Good wq := by
  unfold State.setQueue
  repeat' (first | with_reducible assumption | (with_reducible refine State.Good.mk_of ?_; with_reducible refine State.Good.parts ?_))

theorem State.setRouter_inv (s : State) (n : Nat) (x : RouterSt) (hI : s.Good wq) : (State.setRouter s n x).Good wq := by
  unfold State.setRouter
  repeat' (first | with_reducible assumption | (with_reducible refine State.Good.mk_of ?_; with_reducible refine State.Good.parts ?_))

theorem State.setNi_inv (s : State) (n : Nat) (x : NiSt) (hI : s.Good wq) : (State.setNi s n x).Good wq := by
  unfold State.setNi
  repeat' (first | with_reducible assumption | (with_reducible refine State.Good.mk_of ?_; with_reducible refine State.Good.parts ?_))

theorem State.setImage_inv (s : State) (f : Nat) (x : Option FieldImage) (hI : s.Good wq) : (State.setImage s f x).Good wq := by
  unfold State.setImage
  repeat' (first | with_reducible assumption | (with_reducible refine State.Good.mk_of ?_; with_reducible refine State.Good.parts ?_))

theorem State.freeWord_inv (s : State) (hI : s.Good wq) : InvAt wq Prod.snd (State.freeWord s) := by
  unfold State.freeWord
  repeat' (first | with_reducible assumption | with_reducible apply InvAt.snd | (with_reducible refine State.Good.mk_of ?_; with_reducible refine State.Good.parts ?_))
theorem State.freeWord_at (s : State) (hI : s.Good wq) : (Prod.snd (State.freeWord s)).Good wq := InvAt.inv (State.freeWord_inv _ hI)

theorem State.freeNat_inv (s : State) (hI : s.Good wq) : InvAt wq Prod.snd (State.freeNat s) := by
  unfold State.freeNat
  repeat' (first | with_reducible assumption | with_reducible apply InvAt.snd | (with_reducible refine State.Good.mk_of ?_; with_reducible refine State.Good.parts ?_))
theorem State.freeNat_at (s : State) (hI : s.Good wq) : (Prod.snd (State.freeNat s)).Good wq := InvAt.inv (State.freeNat_inv _ hI)

theorem State.passTake_inv (s : State) (r : EvRec) (hI : s.Good wq) : (State.passTake s r).Good wq := by
  unfold State.passTake
  repeat' (first | with_reducible assumption | with_reducible apply State.Good.ite | with_reducible apply State.bump_inv | (with_reducible refine State.Good.mk_of ?_; with_reducible refine State.Good.parts ?_))

theorem State.post_inv (s : State) (code src arg : Nat) (hI : s.Good wq) : (State.post s code src arg).Good wq := by
  unfold State.post
  repeat' (first | with_reducible assumption | with_reducible apply State.passTake_inv | (with_reducible refine State.Good.mk_of ?_; with_reducible refine State.Good.parts ?_))

theorem State.postAt_inv (s : State) (t : Word) (code src arg : Nat) (hI : s.Good wq) : (State.postAt s t code src arg).Good wq := by
  unfold State.postAt
  repeat' (first | with_reducible assumption | with_reducible apply State.passTake_inv | (with_reducible refine State.Good.mk_of ?_; with_reducible refine State.Good.parts ?_))

theorem State.logEntry_inv (s : State) (code src arg detail : Nat) (hI : s.Good wq) : (State.logEntry s code src arg detail).Good wq := by
  unfold State.logEntry
  repeat' (first | with_reducible assumption | with_reducible apply State.Good.ite | (with_reducible refine State.Good.mk_of ?_; with_reducible refine State.Good.parts ?_))

theorem State.postLog_inv (s : State) (code src arg : Nat) (hI : s.Good wq) : (State.postLog s code src arg).Good wq := by
  unfold State.postLog
  repeat' (first | with_reducible assumption | with_reducible apply State.logEntry_inv | with_reducible apply State.post_inv)

theorem State.logOpen_inv (s : State) (src arg : Nat) (hI : s.Good wq) : (State.logOpen s src arg).Good wq := by
  unfold State.logOpen
  repeat' (first | with_reducible assumption | with_reducible apply State.logEntry_inv | with_reducible apply State.freeNat_at)

theorem State.see_inv (s : State) (k i : Nat) (hI : s.Good wq) : (State.see s k i).Good wq := by
  unfold State.see
  repeat' (first | with_reducible assumption | (with_reducible refine State.Good.mk_of ?_; with_reducible refine State.Good.parts ?_))

theorem State.interrupt_inv (s : State) (n : Nat) (hI : s.Good wq) : (State.interrupt s n).Good wq := by
  unfold State.interrupt
  repeat' (first | with_reducible assumption | with_reducible apply State.Good.ite | with_reducible apply State.put_inv | (with_reducible refine State.Good.mk_of ?_; with_reducible refine State.Good.parts ?_))

theorem State.hbError_inv (s : State) (f : Fld) (hI : s.Good wq) : (State.hbError s f).Good wq := by
  unfold State.hbError
  repeat' (first | with_reducible assumption | with_reducible apply State.Good.ite | with_reducible apply State.interrupt_inv | with_reducible apply State.raise_inv)

theorem State.noteMode_inv (s : State) (old new : Mode) (c : Cause) (lost flags req : Nat) (hI : s.Good wq) : (State.noteMode s old new c lost flags req).Good wq := by
  unfold State.noteMode
  repeat' (first | with_reducible assumption | with_reducible apply State.Good.ite | with_reducible apply State.interrupt_inv | with_reducible apply State.logEntry_inv | with_reducible apply State.post_inv | with_reducible apply State.setReg_inv)

theorem State.enterMode_inv (s : State) (m : ModeSt) (c : Cause) (h : s.Good wq) (hb : m.base.isBase = true)
    (hn : m.before.isBase = true) : (State.enterMode s m c).Good wq := by
  unfold State.enterMode
  exact State.noteMode_inv _ _ _ _ _ _ _ (State.Good.of_parts ⟨h.queue, h.inv.bmem, h.inv.regs, hb, hn⟩)

theorem State.addLost_inv (s : State) (n : Nat) (hI : s.Good wq) : (State.addLost s n).Good wq := by
  unfold State.addLost
  repeat' (first | with_reducible assumption | with_reducible apply State.setPair_inv)

theorem State.resumeMode_inv (s : State) (m : ModeSt) (c : Cause) (h : s.Good wq) (hb : m.base.isBase = true)
    (hn : m.before.isBase = true) : (State.resumeMode s m c).Good wq := by
  unfold State.resumeMode
  exact State.noteMode_inv _ _ _ _ _ _ _ (State.addLost_inv _ _ (State.Good.of_parts ⟨h.queue, h.inv.bmem, h.inv.regs, hb, hn⟩))

theorem State.rejectRequest_inv (s : State) (req : Nat) (hI : s.Good wq) : (State.rejectRequest s req).Good wq := by
  unfold State.rejectRequest
  repeat' (first | with_reducible assumption | with_reducible apply State.Good.ite | with_reducible apply State.noteMode_inv | with_reducible apply State.raise_inv)

theorem State.pendCause_inv (s : State) (h : HwCause) (hI : s.Good wq) : (State.pendCause s h).Good wq := by
  unfold State.pendCause
  repeat' (first | with_reducible assumption | with_reducible apply State.Good.ite | (with_reducible refine State.Good.mk_of ?_; refine State.Good.sameBase ?_ rfl rfl))

theorem State.awaitSweep_inv (s : State) (f n : Nat) (hI : s.Good wq) : (State.awaitSweep s f n).Good wq := by
  unfold State.awaitSweep
  repeat' (first | with_reducible assumption | (with_reducible refine State.Good.mk_of ?_; with_reducible refine State.Good.parts ?_))

theorem State.restartSweeps_inv (s : State) (hI : s.Good wq) : (State.restartSweeps s).Good wq := by
  unfold State.restartSweeps
  repeat' (first | with_reducible assumption | (with_reducible refine State.Good.mk_of ?_; with_reducible refine State.Good.parts ?_))

/-! Machine/Watch.lean -/

theorem State.haltRequest_inv (s : State) (now : Bool) (src : Nat) (hI : s.Good wq) : (State.haltRequest s now src).Good wq := by
  unfold State.haltRequest
  repeat' (first | with_reducible assumption | with_reducible apply State.Good.ite | with_reducible apply State.raise_inv | split | (with_reducible refine State.Good.mk_of ?_; with_reducible refine State.Good.parts ?_))

theorem State.haltCode_inv (s : State) (code src : Nat) (hI : s.Good wq) : (State.haltCode s code src).Good wq := by
  unfold State.haltCode
  repeat' (first | with_reducible assumption | with_reducible apply State.Good.ite | with_reducible apply State.haltRequest_inv)

theorem State.dbgUnlocked_inv (s : State) (on : Bool) (hI : s.Good wq) : (State.dbgUnlocked s on).Good wq := by
  unfold State.dbgUnlocked
  repeat' (first | with_reducible assumption | with_reducible apply State.Good.ite | with_reducible apply State.post_inv | with_reducible apply State.put_inv)

theorem State.traceStore_inv (s : State) (w : Word) (hI : s.Good wq) : (State.traceStore s w).Good wq := by
  unfold State.traceStore
  repeat' (first | with_reducible assumption | with_reducible apply State.Good.ite | with_reducible apply State.put_inv | with_reducible apply State.raise_inv | (with_reducible refine State.Good.mk_of ?_; with_reducible refine State.Good.parts ?_))

theorem State.traceCount_inv (s : State) (hI : s.Good wq) : (State.traceCount s).Good wq := by
  unfold State.traceCount
  repeat' (first | with_reducible assumption | with_reducible apply State.Good.ite | with_reducible apply State.raise_inv | (with_reducible refine State.Good.mk_of ?_; with_reducible refine State.Good.parts ?_))

theorem State.traceWord_inv (s : State) (w : Word) (hI : s.Good wq) : (State.traceWord s w).Good wq := by
  unfold State.traceWord
  repeat' (first | with_reducible assumption | with_reducible apply State.Good.ite | with_reducible apply State.traceCount_inv | with_reducible apply State.traceStore_inv)

theorem State.traceTrigger_inv (s : State) (hI : s.Good wq) : (State.traceTrigger s).Good wq := by
  unfold State.traceTrigger
  repeat' (first | with_reducible assumption | with_reducible apply State.Good.ite | with_reducible apply State.put_inv | with_reducible apply State.raise_inv | with_reducible apply State.setPair_inv | (with_reducible refine State.Good.mk_of ?_; with_reducible refine State.Good.parts ?_))

theorem State.traceHit_inv (s : State) (u : Nat) (w : Watched) (hI : s.Good wq) : (State.traceHit s u w).Good wq := by
  unfold State.traceHit
  repeat' (first | with_reducible assumption | with_reducible apply State.Good.ite | with_reducible apply State.traceWord_inv)

theorem State.lcComplete_inv (s : State) (i : Nat) (hI : s.Good wq) : (State.lcComplete s i).Good wq := by
  unfold State.lcComplete
  repeat' (first | with_reducible assumption | with_reducible apply State.Good.ite | with_reducible apply State.bump_inv | with_reducible apply State.haltCode_inv | with_reducible apply State.post_inv | with_reducible apply State.put_inv | with_reducible apply State.traceTrigger_inv)

theorem State.lcStep_inv (s : State) (i stamp : Nat) (units : List Nat) (hI : s.Good wq) : (State.lcStep s i stamp units).Good wq := by
  unfold State.lcStep
  repeat' (first | with_reducible assumption | with_reducible apply State.Good.ite | with_reducible apply State.lcComplete_inv | with_reducible apply State.put_inv | (with_reducible refine State.Good.mk_of ?_; with_reducible refine State.Good.parts ?_))

theorem State.watch_inv (s : State) (w : Watched) (stamp : Nat) (hI : s.Good wq) : (State.watch s w stamp).Good wq := by
  unfold State.watch
  repeat' (first | with_reducible assumption | with_reducible apply State.Good.ite | with_reducible apply State.bump_inv | with_reducible apply State.forEach_inv | with_reducible apply State.lcStep_inv | with_reducible apply State.traceHit_inv | (with_reducible intro _ _ _) | split)

theorem State.watchCarriage_inv (s : State) (n : Nat) (injected : Bool) (c : Carriage) (cyc : Nat) (hI : s.Good wq) : (State.watchCarriage s n injected c cyc).Good wq := by
  unfold State.watchCarriage
  repeat' (first | with_reducible assumption | with_reducible apply State.Good.ite | with_reducible apply State.watch_inv)

theorem State.sampleProbe_inv (s : State) (f c k : Nat) (hI : s.Good wq) : (State.sampleProbe s f c k).Good wq := by
  unfold State.sampleProbe
  repeat' (first | with_reducible assumption | with_reducible apply State.Good.ite | with_reducible apply State.setFld_inv | with_reducible apply State.traceWord_inv | with_reducible apply State.watch_inv)

theorem State.sampleProbes_inv (s : State) (f c : Nat) (hI : s.Good wq) : (State.sampleProbes s f c).Good wq := by
  unfold State.sampleProbes
  repeat' (first | with_reducible assumption | with_reducible apply State.forEach_inv | with_reducible apply State.sampleProbe_inv | (with_reducible intro _ _ _))

/-! Machine/Network.lean -/

theorem State.loadNet_inv (s : State) (i : FieldImage) (f : Nat) (st : Nat × Nat) (load : Bool) (hI : s.Good wq) : (State.loadNet s i f st load).Good wq := by
  unfold State.loadNet
  repeat' (first | with_reducible assumption | with_reducible apply State.setSeg_inv | with_reducible apply State.Good.foldl | (with_reducible intro _ _ _))

theorem State.syncReg_inv (s : State) (c : CellCfg) (k r : Nat) (hI : s.Good wq) : (State.syncReg s c k r).Good wq := by
  unfold State.syncReg
  repeat' (first | with_reducible assumption | with_reducible apply State.Good.ite | with_reducible apply State.setCell_inv | with_reducible apply State.freeWord_at | with_reducible apply State.Good.iteSnd)

theorem State.syncField_inv (s : State) (i : FieldImage) (f : Nat) (hI : s.Good wq) : (State.syncField s i f).Good wq := by
  unfold State.syncField
  repeat' (first | with_reducible assumption | with_reducible apply State.forEach_inv | with_reducible apply State.syncReg_inv | with_reducible apply State.Good.foldl | (with_reducible intro _ _ _))

theorem State.endCycle_inv (s : State) (f c : Nat) (hI : s.Good wq) : (State.endCycle s f c).Good wq := by
  unfold State.endCycle
  repeat' (first | with_reducible assumption | with_reducible apply State.Good.ite | with_reducible apply State.loadNet_inv | with_reducible apply State.sampleProbes_inv | with_reducible apply State.syncField_inv | split)

theorem State.comeTo_inv (s : State) (f c : Nat) (hI : s.Good wq) : (State.comeTo s f c).Good wq := by
  unfold State.comeTo
  repeat' (first | with_reducible assumption | with_reducible apply State.endCycle_inv | with_reducible apply State.forEach_inv | with_reducible apply State.setFld_inv | (with_reducible intro _ _ _))

/-! Machine/NetOps.lean -/

theorem State.niError_inv (s : State) (n : Nat) (f : Fld) (hI : s.Good wq) : (State.niError s n f).Good wq := by
  unfold State.niError
  repeat' (first | with_reducible assumption | with_reducible apply State.Good.ite | with_reducible apply State.post_inv | with_reducible apply State.raise_inv)

theorem State.orphanWords_inv (s : State) (n h0 h2 : Nat) (hI : s.Good wq) : (State.orphanWords s n h0 h2).Good wq := by
  unfold State.orphanWords
  repeat' (first | with_reducible assumption | with_reducible apply State.Good.ite | with_reducible apply State.bump_inv | with_reducible apply State.logEntry_inv | with_reducible apply State.niError_inv | with_reducible apply State.setNi_inv)

theorem State.orphan_inv (s : State) (n : Nat) (c : Carriage) (hI : s.Good wq) : (State.orphan s n c).Good wq := by
  unfold State.orphan
  repeat' (first | with_reducible assumption | with_reducible apply State.orphanWords_inv)

theorem State.absorb_inv (s : State) (n : Nat) (c : Carriage) (hI : s.Good wq) : (State.absorb s n c).Good wq := by
  unfold State.absorb
  repeat' (first | with_reducible assumption | with_reducible apply State.Good.ite | with_reducible apply State.bump_inv | with_reducible apply State.logEntry_inv | with_reducible apply State.niError_inv | with_reducible apply State.setNi_inv)

theorem State.rxItem_inv (s : State) (n : Nat) (inreq : Bool) (fills : Nat) (isLocal : Bool) (cs : List Carriage) (hI : s.Good wq) : (State.rxItem s n inreq fills isLocal cs).Good wq := by
  unfold State.rxItem
  repeat' (first | with_reducible assumption | with_reducible apply State.setNi_inv)

theorem State.answerLocally_inv (s : State) (n : Nat) (q : Request) (st : Nat) (hI : s.Good wq) : InvAt wq Taken.state (State.answerLocally s n q st) := by
  unfold State.answerLocally
  repeat' (first | with_reducible assumption | with_reducible apply InvAt.ite | with_reducible apply InvAt.taken | with_reducible apply State.absorb_inv)
theorem State.answerLocally_at (s : State) (n : Nat) (q : Request) (st : Nat) (hI : s.Good wq) : (Taken.state (State.answerLocally s n q st)).Good wq := InvAt.inv (State.answerLocally_inv _ _ _ _ hI)

theorem State.niTake_inv (s : State) (n : Nat) (q : Request) (use : Use) (hI : s.Good wq) : InvAt wq Taken.state (State.niTake s n q use) := by
  unfold State.niTake
  repeat' (first | with_reducible assumption | with_reducible apply InvAt.ite | with_reducible apply InvAt.taken | with_reducible apply State.logOpen_inv | with_reducible apply State.niError_inv | with_reducible apply State.setNi_inv | with_reducible apply State.answerLocally_at | split | (refine InvAt.of ?_; dsimp only))
theorem State.niTake_at (s : State) (n : Nat) (q : Request) (use : Use) (hI : s.Good wq) : (Taken.state (State.niTake s n q use)).Good wq := InvAt.inv (State.niTake_inv _ _ _ _ hI)

theorem State.present_inv (s : State) (n : Nat) (p : InjPkt) (hI : s.Good wq) : (State.present s n p).Good wq := by
  unfold State.present
  repeat' (first | with_reducible assumption | with_reducible apply State.setRouter_inv)

theorem State.pumpOne_inv (s : State) (n : Nat) (hI : s.Good wq) : (State.pumpOne s n).Good wq := by
  unfold State.pumpOne
  repeat' (first | with_reducible assumption | with_reducible apply State.Good.ite | with_reducible apply State.present_inv | with_reducible apply State.setNi_inv | split | (with_reducible refine State.Good.mk_of ?_; with_reducible refine State.Good.parts ?_))

theorem State.pump_inv (s : State) (n : Nat) (hI : s.Good wq) : (State.pump s n).Good wq := by
  unfold State.pump
  repeat' (first | with_reducible assumption | with_reducible apply State.Good.ite | with_reducible apply State.pumpOne_inv | with_reducible apply State.Good.foldl | (with_reducible intro _ _ _))

theorem State.reply_inv (s : State) (n : Nat) (req : Carriage) (pkt : List Carriage) (hI : s.Good wq) : (State.reply s n req pkt).Good wq := by
  unfold State.reply
  repeat' (first | with_reducible assumption | with_reducible apply State.pump_inv | with_reducible apply State.setNi_inv)

theorem State.replyOne_inv (s : State) (n : Nat) (req : Carriage) (typ status : Nat) (payload : List Word) (hI : s.Good wq) : (State.replyOne s n req typ status payload).Good wq := by
  unfold State.replyOne
  repeat' (first | with_reducible assumption | with_reducible apply State.reply_inv)

theorem State.bounceBack_inv (s : State) (n : Nat) (pkt : List Carriage) (status : Nat) (hI : s.Good wq) : (State.bounceBack s n pkt status).Good wq := by
  unfold State.bounceBack
  repeat' (first | with_reducible assumption | with_reducible apply State.reply_inv)

theorem State.replyFail_inv (s : State) (n : Nat) (pkt : List Carriage) (status : Nat) (hI : s.Good wq) : (State.replyFail s n pkt status).Good wq := by
  unfold State.replyFail
  repeat' (first | with_reducible assumption | with_reducible apply State.reply_inv)

theorem State.rewindNi_inv (s : State) (n : Nat) (hI : s.Good wq) : (State.rewindNi s n).Good wq := by
  unfold State.rewindNi
  repeat' (first | with_reducible assumption | with_reducible apply State.setNi_inv)

theorem State.rewindNis_inv (s : State) (f : Nat) (hI : s.Good wq) : (State.rewindNis s f).Good wq := by
  unfold State.rewindNis
  repeat' (first | with_reducible assumption | with_reducible apply State.forEach_inv | with_reducible apply State.rewindNi_inv)

theorem State.refuseOrd_inv (s : State) (n : Nat) (p : InjPkt) (hI : s.Good wq) : (State.refuseOrd s n p).Good wq := by
  unfold State.refuseOrd
  repeat' (first | with_reducible assumption | with_reducible apply State.Good.ite | with_reducible apply State.absorb_inv | with_reducible apply State.niError_inv | with_reducible apply State.rxItem_inv | with_reducible apply State.setNi_inv)

theorem State.releaseNi_inv (s : State) (n : Nat) (hI : s.Good wq) : (State.releaseNi s n).Good wq := by
  unfold State.releaseNi
  repeat' (first | with_reducible assumption | with_reducible apply State.pump_inv | with_reducible apply State.refuseOrd_inv | with_reducible apply State.setNi_inv | with_reducible apply State.Good.foldl | (with_reducible intro _ _ _))

theorem State.releaseNis_inv (s : State) (f : Nat) (hI : s.Good wq) : (State.releaseNis s f).Good wq := by
  unfold State.releaseNis
  repeat' (first | with_reducible assumption | with_reducible apply State.forEach_inv | with_reducible apply State.releaseNi_inv)

/-! Machine/Router.lean -/

theorem State.nocError_inv (s : State) (n : Nat) (f : Fld) (hI : s.Good wq) : (State.nocError s n f).Good wq := by
  unfold State.nocError
  repeat' (first | with_reducible assumption | with_reducible apply State.Good.ite | with_reducible apply State.logEntry_inv | with_reducible apply State.post_inv | with_reducible apply State.raise_inv | with_reducible apply State.setRouter_inv)

theorem State.sinkOrphan_inv (s : State) (n h0 h2 : Nat) (hI : s.Good wq) : (State.sinkOrphan s n h0 h2).Good wq := by
  unfold State.sinkOrphan
  repeat' (first | with_reducible assumption | with_reducible apply State.bump_inv | with_reducible apply State.nocError_inv | with_reducible apply State.orphanWords_inv)

theorem State.routerOrphan_inv (s : State) (n : Nat) (c : Carriage) (hI : s.Good wq) : (State.routerOrphan s n c).Good wq := by
  unfold State.routerOrphan
  repeat' (first | with_reducible assumption | with_reducible apply State.sinkOrphan_inv)

theorem State.demote_inv (s : State) (n cyc : Nat) (x : Slot) (hI : s.Good wq) : (State.demote s n cyc x).Good wq := by
  unfold State.demote
  repeat' (first | with_reducible assumption | with_reducible apply State.Good.ite | with_reducible apply State.bump_inv | with_reducible apply State.nocError_inv | with_reducible apply State.routerOrphan_inv | with_reducible apply State.setRouter_inv)

theorem State.formBounce_inv (s : State) (n cyc : Nat) (c : Carriage) (hI : s.Good wq) : (State.formBounce s n cyc c).Good wq := by
  unfold State.formBounce
  repeat' (first | with_reducible assumption | with_reducible apply State.bump_inv | with_reducible apply State.setRouter_inv)

theorem State.enter_inv (s : State) (m port cyc : Nat) (c : Carriage) (hI : s.Good wq) : (State.enter s m port cyc c).Good wq := by
  unfold State.enter
  repeat' (first | with_reducible assumption | with_reducible apply State.Good.ite | with_reducible apply State.setRouter_inv)

theorem State.loseCarriage_inv (s : State) (m : Nat) (c : Carriage) (hI : s.Good wq) : (State.loseCarriage s m c).Good wq := by
  unfold State.loseCarriage
  repeat' (first | with_reducible assumption | with_reducible apply State.Good.ite | with_reducible apply State.forEach_inv | with_reducible apply State.setRouter_inv | (with_reducible intro _ _ _))

theorem State.arrive_inv (s : State) (m port cyc : Nat) (c : Carriage) (link : LinkOutcome) (hI : s.Good wq) : (State.arrive s m port cyc c link).Good wq := by
  unfold State.arrive
  repeat' (first | with_reducible assumption | with_reducible apply State.Good.ite | with_reducible apply State.bump_inv | with_reducible apply State.demote_inv | with_reducible apply State.enter_inv | with_reducible apply State.formBounce_inv | with_reducible apply State.loseCarriage_inv | with_reducible apply State.nocError_inv | with_reducible apply State.setRouter_inv | with_reducible apply State.sinkOrphan_inv | split)

theorem State.slotConflicts_inv (s : State) (n out cyc : Nat) (won : Seat) (hI : s.Good wq) : (State.slotConflicts s n out cyc won).Good wq := by
  unfold State.slotConflicts
  repeat' (first | with_reducible assumption | with_reducible apply State.Good.ite | with_reducible apply State.demote_inv | with_reducible apply State.nocError_inv | with_reducible apply State.setRouter_inv | with_reducible apply State.Good.foldl | (with_reducible intro _ _ _))

theorem State.grant_inv (s : State) (n out cyc : Nat) (e : Seat × Slot) (hI : s.Good wq) : (State.grant s n out cyc e).Good wq := by
  unfold State.grant
  repeat' (first | with_reducible assumption | with_reducible apply State.bump_inv | with_reducible apply State.setRouter_inv)

theorem State.deliver_inv (s : State) (n cyc : Nat) (c : Carriage) (hI : s.Good wq) : (State.deliver s n cyc c).Good wq := by
  unfold State.deliver
  repeat' (first | with_reducible assumption | with_reducible apply State.Good.ite | with_reducible apply State.setNi_inv | with_reducible apply State.watchCarriage_inv)

theorem State.release_inv (s : State) (n out cyc : Nat) (e : Seat × Slot) (hI : s.Good wq) : (State.release s n out cyc e).Good wq := by
  unfold State.release
  repeat' (first | with_reducible assumption | with_reducible apply State.setRouter_inv)

theorem State.send_inv (s : State) (n out cyc : Nat) (e : Seat × Slot) (link : LinkOutcome) (hI : s.Good wq) : (State.send s n out cyc e link).Good wq := by
  unfold State.send
  repeat' (first | with_reducible assumption | with_reducible apply State.Good.ite | with_reducible apply State.arrive_inv | with_reducible apply State.deliver_inv | with_reducible apply State.formBounce_inv | with_reducible apply State.grant_inv | with_reducible apply State.nocError_inv | with_reducible apply State.release_inv | with_reducible apply State.routerOrphan_inv | with_reducible apply State.setRouter_inv | with_reducible apply State.watchCarriage_inv | split | (with_reducible refine State.Good.mk_of ?_; with_reducible refine State.Good.parts ?_))

theorem State.hop_inv (s : State) (n out cyc : Nat) (link : LinkOutcome) (hI : s.Good wq) : (State.hop s n out cyc link).Good wq := by
  unfold State.hop
  repeat' (first | with_reducible assumption | with_reducible apply State.Good.ite | with_reducible apply State.pump_inv | with_reducible apply State.send_inv | with_reducible apply State.slotConflicts_inv | split | (with_reducible refine State.Good.mk_of ?_; with_reducible refine State.Good.parts ?_))

/-! Machine/Interfaces.lean -/

theorem State.rxStep_inv (s : State) (n : Nat) (st : Nat × Nat) (hI : s.Good wq) : (State.rxStep s n st).Good wq := by
  unfold State.rxStep
  repeat' (first | with_reducible assumption | with_reducible apply State.setNi_inv)

theorem State.txPort_inv (s : State) (n cyc : Nat) (fits : Nat → Bool) (g : Nat → Word → State → State) (hI : s.Good wq) (hg : ∀ x0 x1 x2, x2.Good wq → (g x0 x1 x2).Good wq) : (State.txPort s n cyc fits g).Good wq := by
  unfold State.txPort
  repeat' (first | with_reducible assumption | with_reducible apply State.Good.ite | with_reducible apply State.comeTo_inv | with_reducible apply State.rxStep_inv | with_reducible apply hg | split | (with_reducible refine State.Good.mk_of ?_; with_reducible refine State.Good.parts ?_))

theorem execTxIdle_inv (n : Fin 72) (cyc : Nat) (s : State) (hI : s.Good wq) : Goes wq (execTxIdle n cyc s) :=
  Goes.next (State.txPort_inv _ _ _ _ _ (by assumption) (fun _ _ _ h => h))

theorem execAddr_inv (n : Fin 72) (cyc : Nat) (s : State) (hI : s.Good wq) : Goes wq (execAddr n cyc s) := by
  unfold execAddr
  repeat' (first | with_reducible assumption | with_reducible apply Goes.next | with_reducible apply State.setNi_inv | with_reducible apply State.txPort_inv | (with_reducible intro _ _ _))

theorem execHead_inv (n : Fin 72) (cyc : Nat) (s : State) (hI : s.Good wq) : Goes wq (execHead n cyc s) := by
  unfold execHead
  repeat' (first | with_reducible assumption | with_reducible apply Goes.next | with_reducible apply State.setNi_inv | with_reducible apply State.txPort_inv | (with_reducible intro _ _ _))

theorem State.stageWord_inv (s : State) (n idx : Nat) (data : Word) (hI : s.Good wq) : (State.stageWord s n idx data).Good wq := by
  unfold State.stageWord
  repeat' (first | with_reducible assumption | with_reducible apply State.setNi_inv)

theorem execWord_inv (n : Fin 72) (cyc : Nat) (s : State) (hI : s.Good wq) : Goes wq (execWord n cyc s) := by
  unfold execWord
  repeat' (first | with_reducible assumption | with_reducible apply Goes.next | with_reducible apply State.stageWord_inv | with_reducible apply State.txPort_inv | (with_reducible intro _ _ _))

theorem State.clearStaging_inv (s : State) (n : Nat) (hI : s.Good wq) : (State.clearStaging s n).Good wq := by
  unfold State.clearStaging
  repeat' (first | with_reducible assumption | with_reducible apply State.setNi_inv)

theorem execDrop_inv (n : Fin 72) (cyc : Nat) (s : State) (hI : s.Good wq) : Goes wq (execDrop n cyc s) := by
  unfold execDrop
  repeat' (first | with_reducible assumption | with_reducible apply Goes.next | with_reducible apply State.clearStaging_inv | with_reducible apply State.txPort_inv | (with_reducible intro _ _ _))

theorem State.send218_inv (s : State) (n : Nat) (hI : s.Good wq) : (State.send218 s n).Good wq := by
  unfold State.send218
  repeat' (first | with_reducible assumption | with_reducible apply State.Good.ite | with_reducible apply State.clearStaging_inv | with_reducible apply State.pump_inv | with_reducible apply State.rxItem_inv | with_reducible apply State.niTake_at | split)

theorem execSend_inv (n : Fin 72) (cyc : Nat) (s : State) (hI : s.Good wq) : Goes wq (execSend n cyc s) := by
  unfold execSend
  repeat' (first | with_reducible assumption | with_reducible apply Goes.next | with_reducible apply State.send218_inv | with_reducible apply State.txPort_inv | (with_reducible intro _ _ _))

theorem State.slotCarriage_inv (s : State) (n cyc : Nat) (p : InjPkt) (hI : s.Good wq) : (State.slotCarriage s n cyc p).Good wq := by
  unfold State.slotCarriage
  repeat' (first | with_reducible assumption | with_reducible apply State.enter_inv)

theorem State.slot_inv (s : State) (n slot cyc : Nat) (lastWheel : Bool) (hI : s.Good wq) : (State.slot s n slot cyc lastWheel).Good wq := by
  unfold State.slot
  repeat' (first | with_reducible assumption | with_reducible apply State.Good.ite | with_reducible apply State.setNi_inv | with_reducible apply State.slotCarriage_inv | split | (with_reducible refine State.Good.mk_of ?_; with_reducible refine State.Good.parts ?_))

theorem execSlot_inv (n : NodeNo) (slot : Fin 120) (cyc : Nat) (lastWheel : Bool) (s : State) (hI : s.Good wq) : Goes wq (execSlot n slot cyc lastWheel s) := by
  unfold execSlot
  repeat' (first | with_reducible assumption | with_reducible apply Goes.next | with_reducible apply State.slot_inv)

theorem State.regulated_inv (s : State) (n elapsed : Nat) (hI : s.Good wq) : (State.regulated s n elapsed).Good wq := by
  unfold State.regulated
  repeat' (first | with_reducible assumption | with_reducible apply State.Good.ite | with_reducible apply State.present_inv | with_reducible apply State.setNi_inv | split | (with_reducible refine State.Good.mk_of ?_; with_reducible refine State.Good.parts ?_))

theorem State.ordClr_inv (s : State) (n : Nat) (hI : s.Good wq) : (State.ordClr s n).Good wq := by
  unfold State.ordClr
  repeat' (first | with_reducible assumption | with_reducible apply State.setNi_inv)

theorem execOrdclr_inv (n : NodeNo) (s : State) (hI : s.Good wq) : Goes wq (execOrdclr n s) := by
  unfold execOrdclr
  repeat' (first | with_reducible assumption | with_reducible apply Goes.next | with_reducible apply State.ordClr_inv)

theorem State.bankWrite_inv (s : State) (n table key : Nat) (v : Word) (hI : s.Good wq) : (State.bankWrite s n table key v).Good wq := by
  unfold State.bankWrite
  repeat' (first | with_reducible assumption | with_reducible apply State.setNi_inv)

theorem State.tdataWrite_inv (s : State) (n : Nat) (v : Word) (hI : s.Good wq) : (State.tdataWrite s n v).Good wq := by
  unfold State.tdataWrite
  repeat' (first | with_reducible assumption | with_reducible apply State.Good.ite | with_reducible apply State.bankWrite_inv)

theorem execTdataWrite_inv (n : NodeNo) (data : Word) (s : State) (hI : s.Good wq) : Goes wq (execTdataWrite n data s) := by
  unfold execTdataWrite
  repeat' (first | with_reducible assumption | with_reducible apply Goes.next | with_reducible apply State.tdataWrite_inv)

theorem State.niSwap_inv (s : State) (n : Nat) (hI : s.Good wq) : (State.niSwap s n).Good wq := by
  unfold State.niSwap
  repeat' (first | with_reducible assumption | with_reducible apply State.Good.ite | with_reducible apply State.logEntry_inv | with_reducible apply State.niError_inv | with_reducible apply State.setNi_inv | with_reducible apply State.setReg_inv)

/-! Machine/Link.lean -/

theorem State.setPort_inv (s : State) (p : Nat) (x : PortSt) (hI : s.Good wq) : (State.setPort s p x).Good wq := by
  unfold State.setPort
  repeat' (first | with_reducible assumption | (with_reducible refine State.Good.mk_of ?_; with_reducible refine State.Good.parts ?_))

theorem State.setLane_inv (s : State) (l : Nat) (x : LaneSt) (hI : s.Good wq) : (State.setLane s l x).Good wq := by
  unfold State.setLane
  repeat' (first | with_reducible assumption | (with_reducible refine State.Good.mk_of ?_; with_reducible refine State.Good.parts ?_))

theorem State.linkSend_inv (s : State) (p : Nat) (b : LinkBlock) (hI : s.Good wq) : (State.linkSend s p b).Good wq := by
  unfold State.linkSend
  repeat' (first | with_reducible assumption | with_reducible apply State.Good.ite | with_reducible apply State.setPort_inv | (with_reducible refine State.Good.mk_of ?_; with_reducible refine State.Good.parts ?_))

theorem State.sendOne_inv (s : State) (p : Nat) (hI : s.Good wq) : (State.sendOne s p).Good wq := by
  unfold State.sendOne
  repeat' (first | with_reducible assumption | with_reducible apply State.Good.ite | with_reducible apply State.linkSend_inv | with_reducible apply State.setPort_inv | split | (with_reducible refine State.Good.mk_of ?_; with_reducible refine State.Good.parts ?_))

theorem State.sendAll_inv (s : State) (p : Nat) (hI : s.Good wq) : (State.sendAll s p).Good wq := by
  unfold State.sendAll
  repeat' (first | with_reducible assumption | with_reducible apply State.sendOne_inv | with_reducible apply State.Good.foldl | (with_reducible intro _ _ _))

theorem State.resumePort_inv (s : State) (p : Nat) (hI : s.Good wq) : (State.resumePort s p).Good wq := by
  unfold State.resumePort
  repeat' (first | with_reducible assumption | with_reducible apply State.Good.ite | with_reducible apply State.put_inv | with_reducible apply State.sendAll_inv | with_reducible apply State.setPort_inv | (with_reducible refine State.Good.mk_of ?_; with_reducible refine State.Good.parts ?_))

theorem State.linkQueue_inv (s : State) (p : Nat) (cs : List Carriage) (hI : s.Good wq) : (State.linkQueue s p cs).Good wq := by
  unfold State.linkQueue
  repeat' (first | with_reducible assumption | with_reducible apply State.resumePort_inv | with_reducible apply State.sendAll_inv | with_reducible apply State.setPort_inv)

theorem State.linkAck_inv (s : State) (p : Nat) (ack : BitVec 16) (hI : s.Good wq) : (State.linkAck s p ack).Good wq := by
  unfold State.linkAck
  repeat' (first | with_reducible assumption | with_reducible apply State.sendAll_inv | with_reducible apply State.setPort_inv)

theorem State.setFwd_inv (s : State) (p : Nat) (l : List (Nat × List Carriage)) (hI : s.Good wq) : (State.setFwd s p l).Good wq := by
  unfold State.setFwd
  repeat' (first | with_reducible assumption | with_reducible apply State.put_inv | with_reducible apply State.setPort_inv)

theorem State.portDown_inv (s : State) (p fail : Nat) (hI : s.Good wq) : (State.portDown s p fail).Good wq := by
  unfold State.portDown
  repeat' (first | with_reducible assumption | with_reducible apply State.Good.ite | with_reducible apply State.bump_inv | with_reducible apply State.postLog_inv | with_reducible apply State.put_inv | with_reducible apply State.raise_inv | with_reducible apply State.replyFail_inv | with_reducible apply State.setPort_inv | with_reducible apply State.Good.foldl | (with_reducible intro _ _ _))

theorem State.trainFail_inv (s : State) (p fail : Nat) (hI : s.Good wq) : (State.trainFail s p fail).Good wq := by
  unfold State.trainFail
  repeat' (first | with_reducible assumption | with_reducible apply State.portDown_inv | with_reducible apply State.raise_inv)

theorem State.replayDown_inv (s : State) (p : Nat) (hI : s.Good wq) : (State.replayDown s p).Good wq := by
  unfold State.replayDown
  repeat' (first | with_reducible assumption | with_reducible apply State.portDown_inv | with_reducible apply State.raise_inv)

theorem State.replayFrom_inv (s : State) (p : Nat) (q : BitVec 16) (hI : s.Good wq) : (State.replayFrom s p q).Good wq := by
  unfold State.replayFrom
  repeat' (first | with_reducible assumption | with_reducible apply State.Good.ite | with_reducible apply State.bump_inv | with_reducible apply State.linkSend_inv | with_reducible apply State.replayDown_inv | with_reducible apply State.setPort_inv | with_reducible apply State.Good.foldl | (with_reducible intro _ _ _))

theorem State.sendNak_inv (s : State) (p : Nat) (hI : s.Good wq) : (State.sendNak s p).Good wq := by
  unfold State.sendNak
  repeat' (first | with_reducible assumption | with_reducible apply State.bump_inv | with_reducible apply State.linkSend_inv | with_reducible apply State.setPort_inv)

theorem State.startTraining_inv (s : State) (p : Nat) (hI : s.Good wq) : (State.startTraining s p).Good wq := by
  unfold State.startTraining
  repeat' (first | with_reducible assumption | with_reducible apply State.Good.ite | with_reducible apply State.forEach_inv | with_reducible apply State.linkSend_inv | with_reducible apply State.put_inv | with_reducible apply State.setPort_inv | with_reducible apply State.setReg_inv | with_reducible apply State.trainFail_inv | (with_reducible intro _ _ _))

theorem State.failOrFallBack_inv (s : State) (p fail : Nat) (onlyHigh : Bool) (hI : s.Good wq) : (State.failOrFallBack s p fail onlyHigh).Good wq := by
  unfold State.failOrFallBack
  repeat' (first | with_reducible assumption | with_reducible apply State.Good.ite | with_reducible apply State.setPort_inv | with_reducible apply State.startTraining_inv | with_reducible apply State.trainFail_inv)

theorem State.portIsUp_inv (s : State) (p : Nat) (hI : s.Good wq) : (State.portIsUp s p).Good wq := by
  unfold State.portIsUp
  repeat' (first | with_reducible assumption | with_reducible apply State.post_inv | with_reducible apply State.put_inv | with_reducible apply State.setPort_inv)

theorem State.noteLat_inv (s : State) (l : Nat) (hI : s.Good wq) : (State.noteLat s l).Good wq := by
  unfold State.noteLat
  repeat' (first | with_reducible assumption | with_reducible apply State.setReg_inv | with_reducible apply State.freeNat_at)

theorem State.reverse_inv (s : State) (p : Nat) (hI : s.Good wq) : (State.reverse s p).Good wq := by
  unfold State.reverse
  repeat' (first | with_reducible assumption | with_reducible apply State.put_inv | with_reducible apply State.raise_inv)

theorem State.trainCheck_inv (s : State) (p : Nat) (hI : s.Good wq) : (State.trainCheck s p).Good wq := by
  unfold State.trainCheck
  repeat' (first | with_reducible assumption | with_reducible apply State.Good.ite | with_reducible apply State.failOrFallBack_inv | with_reducible apply State.reverse_inv)

theorem State.trainReady_inv (s : State) (p : Nat) (hI : s.Good wq) : (State.trainReady s p).Good wq := by
  unfold State.trainReady
  repeat' (first | with_reducible assumption | with_reducible apply State.Good.ite | with_reducible apply State.portIsUp_inv)

theorem State.trainBlock_inv (s : State) (p k idx : Nat) (width4 ready : Bool) (dev : Nat) (inverted : Bool) (hI : s.Good wq) : (State.trainBlock s p k idx width4 ready dev inverted).Good wq := by
  unfold State.trainBlock
  repeat' (first | with_reducible assumption | with_reducible apply State.Good.ite | with_reducible apply State.failOrFallBack_inv | with_reducible apply State.logOpen_inv | with_reducible apply State.noteLat_inv | with_reducible apply State.portDown_inv | with_reducible apply State.put_inv | with_reducible apply State.raise_inv | with_reducible apply State.setPort_inv | with_reducible apply State.trainCheck_inv | with_reducible apply State.trainReady_inv)

theorem State.flowControl_inv (s : State) (p : Nat) (rsp : Bool) (hI : s.Good wq) : (State.flowControl s p rsp).Good wq := by
  unfold State.flowControl
  repeat' (first | with_reducible assumption | with_reducible apply State.Good.ite | with_reducible apply State.linkSend_inv | with_reducible apply State.setPort_inv)

theorem State.linkResponse_inv (s : State) (p : Nat) (pkt : List Carriage) (hI : s.Good wq) : (State.linkResponse s p pkt).Good wq := by
  unfold State.linkResponse
  repeat' (first | with_reducible assumption | with_reducible apply State.orphan_inv | with_reducible apply State.reply_inv | with_reducible apply State.setFwd_inv | with_reducible apply State.Good.foldl | (with_reducible intro _ _ _) | split | (with_reducible refine State.Good.mk_of ?_; with_reducible refine State.Good.parts ?_))

theorem State.linkRequest_inv (s : State) (p : Nat) (pkt : List Carriage) (hI : s.Good wq) : (State.linkRequest s p pkt).Good wq := by
  unfold State.linkRequest
  repeat' (first | with_reducible assumption | with_reducible apply State.linkQueue_inv | with_reducible apply State.pump_inv | with_reducible apply State.setNi_inv | with_reducible apply State.niTake_at | split)

theorem State.deliverOne_inv (s : State) (p : Nat) (rsp : Bool) (hI : s.Good wq) : (State.deliverOne s p rsp).Good wq := by
  unfold State.deliverOne
  repeat' (first | with_reducible assumption | with_reducible apply State.Good.ite | with_reducible apply State.flowControl_inv | with_reducible apply State.linkRequest_inv | with_reducible apply State.linkResponse_inv | with_reducible apply State.setPort_inv | split | (with_reducible refine State.Good.mk_of ?_; with_reducible refine State.Good.parts ?_))

theorem State.drainPort_inv (s : State) (p : Nat) (hI : s.Good wq) : (State.drainPort s p).Good wq := by
  unfold State.drainPort
  repeat' (first | with_reducible assumption | with_reducible apply State.deliverOne_inv | with_reducible apply State.Good.foldl | (with_reducible intro _ _ _))

theorem State.carBlock_inv (s : State) (p : Nat) (c : Carriage) (crc : BitVec 24) (lseq ack : BitVec 16) (hI : s.Good wq) : (State.carBlock s p c crc lseq ack).Good wq := by
  unfold State.carBlock
  repeat' (first | with_reducible assumption | with_reducible apply State.Good.ite | with_reducible apply State.bump_inv | with_reducible apply State.drainPort_inv | with_reducible apply State.flowControl_inv | with_reducible apply State.linkAck_inv | with_reducible apply State.linkSend_inv | with_reducible apply State.raise_inv | with_reducible apply State.sendNak_inv | with_reducible apply State.setPort_inv)

theorem State.linkForward_inv (s : State) (p : Nat) (pkt : List Carriage) (hI : s.Good wq) : (State.linkForward s p pkt).Good wq := by
  unfold State.linkForward
  repeat' (first | with_reducible assumption | with_reducible apply State.Good.ite | with_reducible apply State.bounceBack_inv | with_reducible apply State.linkQueue_inv | with_reducible apply State.setFwd_inv | split)

theorem State.linkReturn_inv (s : State) (p : Nat) (pkt : List Carriage) (hI : s.Good wq) : (State.linkReturn s p pkt).Good wq := by
  unfold State.linkReturn
  repeat' (first | with_reducible assumption | with_reducible apply State.Good.ite | with_reducible apply State.linkQueue_inv | with_reducible apply State.orphan_inv | with_reducible apply State.Good.foldl | (with_reducible intro _ _ _))

theorem State.laneIdle_inv (s : State) (l : Nat) (b : Bool) (hI : s.Good wq) : (State.laneIdle s l b).Good wq := by
  unfold State.laneIdle
  repeat' (first | with_reducible assumption | with_reducible apply State.put_inv)

theorem State.portsDown_inv (s : State) (ps : List Nat) (hI : s.Good wq) : (State.portsDown s ps).Good wq := by
  unfold State.portsDown
  repeat' (first | with_reducible assumption | with_reducible apply State.forEach_inv | with_reducible apply State.portDown_inv | (with_reducible intro _ _ _))

theorem State.linksFrozen_inv (s : State) (hI : s.Good wq) : (State.linksFrozen s).Good wq := by
  unfold State.linksFrozen
  repeat' (first | with_reducible assumption | with_reducible apply State.Good.ite | with_reducible apply State.forEach_inv | with_reducible apply State.linkSend_inv | with_reducible apply State.portsDown_inv | (with_reducible intro _ _ _))

theorem State.portsOff_inv (s : State) (d : Nat) (hI : s.Good wq) : (State.portsOff s d).Good wq := by
  unfold State.portsOff
  repeat' (first | with_reducible assumption | with_reducible apply State.portsDown_inv)

theorem State.linksSafe_inv (s : State) (hI : s.Good wq) : (State.linksSafe s).Good wq := by
  unfold State.linksSafe
  repeat' (first | with_reducible assumption | with_reducible apply State.forEach_inv | with_reducible apply State.laneIdle_inv | with_reducible apply State.portsDown_inv | (with_reducible intro _ _ _))

theorem State.portEidle_inv (s : State) (p : Nat) (b : Bool) (hI : s.Good wq) : (State.portEidle s p b).Good wq := by
  unfold State.portEidle
  repeat' (first | with_reducible assumption | with_reducible apply State.Good.ite | with_reducible apply State.forEach_inv | with_reducible apply State.laneIdle_inv | with_reducible apply State.linkSend_inv | with_reducible apply State.put_inv | with_reducible apply State.resumePort_inv | with_reducible apply State.setPort_inv | (with_reducible intro _ _ _) | (with_reducible refine State.Good.mk_of ?_; with_reducible refine State.Good.parts ?_))

theorem State.linksRelease_inv (s : State) (hI : s.Good wq) : (State.linksRelease s).Good wq := by
  unfold State.linksRelease
  repeat' (first | with_reducible assumption | with_reducible apply State.Good.ite | with_reducible apply State.forEach_inv | with_reducible apply State.laneIdle_inv | (with_reducible intro _ _ _) | (with_reducible refine State.Good.mk_of ?_; with_reducible refine State.Good.parts ?_))

theorem State.rawAccept_inv (s : State) (l : Nat) (ws : List Word) (hI : s.Good wq) : InvAt wq Prod.fst (State.rawAccept s l ws) := by
  unfold State.rawAccept
  repeat' (first | with_reducible assumption | with_reducible apply InvAt.ite | with_reducible apply InvAt.fst | with_reducible apply State.bump_inv | with_reducible apply State.setLane_inv)
theorem State.rawAccept_at (s : State) (l : Nat) (ws : List Word) (hI : s.Good wq) : (Prod.fst (State.rawAccept s l ws)).Good wq := InvAt.inv (State.rawAccept_inv _ _ _ hI)

theorem State.rawDeliverOne_inv (s : State) (l : Nat) (hI : s.Good wq) : (State.rawDeliverOne s l).Good wq := by
  unfold State.rawDeliverOne
  repeat' (first | with_reducible assumption | with_reducible apply State.Good.ite | with_reducible apply State.bump_inv | with_reducible apply State.pump_inv | with_reducible apply State.setLane_inv | with_reducible apply State.niTake_at | split | (with_reducible refine State.Good.mk_of ?_; with_reducible refine State.Good.parts ?_))

theorem State.rawDeliver_inv (s : State) (l : Nat) (hI : s.Good wq) : (State.rawDeliver s l).Good wq := by
  unfold State.rawDeliver
  repeat' (first | with_reducible assumption | with_reducible apply State.rawDeliverOne_inv | with_reducible apply State.Good.foldl | (with_reducible intro _ _ _))

theorem State.groupDeliver_inv (s : State) (g : Nat) (hI : s.Good wq) : (State.groupDeliver s g).Good wq := by
  unfold State.groupDeliver
  repeat' (first | with_reducible assumption | with_reducible apply State.forEach_inv | with_reducible apply State.rawDeliver_inv)

theorem State.rawArrive_inv (s : State) (l : Nat) (ws : List Word) (hI : s.Good wq) : (State.rawArrive s l ws).Good wq := by
  unfold State.rawArrive
  repeat' (first | with_reducible assumption | with_reducible apply State.Good.ite | with_reducible apply State.bump_inv | with_reducible apply State.post_inv | with_reducible apply State.rawDeliver_inv | with_reducible apply State.setLane_inv)

theorem State.laneUnlock_inv (s : State) (l : Nat) (hI : s.Good wq) : (State.laneUnlock s l).Good wq := by
  unfold State.laneUnlock
  repeat' (first | with_reducible assumption | with_reducible apply State.clear_inv)

theorem State.lanesOff_inv (s : State) (d : Nat) (hI : s.Good wq) : (State.lanesOff s d).Good wq := by
  unfold State.lanesOff
  repeat' (first | with_reducible assumption | with_reducible apply State.forEach_inv | with_reducible apply State.setLane_inv | (with_reducible intro _ _ _))

end Sys2Proof.Machine
end

