-- ==== Sys2Proof/Laws/KeepTime.lean ====
section
/-! SUPPORT. Every operation keeps the invariant and the commands that wait: the time service, the timetable, the lanes and the trigger matrix.
One lemma for each operation that answers a state (`_inv`, and `_at` for the state inside a larger answer); of a command the lemma says that it completes (`Goes`). -/
namespace Sys2Proof.Machine
variable {wq : List Instr}

/-! Machine/TimeOps.lean -/

theorem State.rebase_inv (s : State) (hI : s.Good wq) : (State.rebase s).Good wq := by
  unfold State.rebase
  repeat' (first | with_reducible assumption | (with_reducible refine State.Good.mk_of ?_; with_reducible refine State.Good.parts ?_))

theorem State.wrapOnce_inv (s : State) (hI : s.Good wq) : (State.wrapOnce s).Good wq := by
  unfold State.wrapOnce
  repeat' (first | with_reducible assumption | with_reducible apply State.Good.ite | with_reducible apply State.postAt_inv | (with_reducible refine State.Good.mk_of ?_; with_reducible refine State.Good.parts ?_))

theorem State.advance_inv (s : State) (n : Nat) (hI : s.Good wq) : (State.advance s n).Good wq := by
  unfold State.advance
  repeat' (first | with_reducible assumption | with_reducible apply State.Good.ite | with_reducible apply State.wrapOnce_inv | with_reducible apply State.Good.foldl | (with_reducible intro _ _ _) | split | (with_reducible refine State.Good.mk_of ?_; with_reducible refine State.Good.parts ?_))

theorem State.advanceTo_inv (s : State) (r : Nat) (hI : s.Good wq) : (State.advanceTo s r).Good wq := by
  unfold State.advanceTo
  repeat' (first | with_reducible assumption | with_reducible apply State.Good.ite | with_reducible apply State.advance_inv)

theorem State.stepTime_inv (s : State) (v : Int) (hI : s.Good wq) : (State.stepTime s v).Good wq := by
  unfold State.stepTime
  repeat' (first | with_reducible assumption | (with_reducible refine State.Good.mk_of ?_; with_reducible refine State.Good.parts ?_))

theorem State.incrWrite_inv (s : State) (v : Nat) (hI : s.Good wq) : (State.incrWrite s v).Good wq := by
  unfold State.incrWrite
  repeat' (first | with_reducible assumption | with_reducible apply State.Good.ite | with_reducible apply State.raise_inv | with_reducible apply State.rebase_inv | with_reducible apply State.setPair_inv)

theorem State.holdIncr_inv (s : State) (hI : s.Good wq) : (State.holdIncr s).Good wq := by
  unfold State.holdIncr
  repeat' (first | with_reducible assumption | with_reducible apply State.Good.ite | with_reducible apply State.rebase_inv | with_reducible apply State.setPair_inv)

theorem State.stepWrite_inv (s : State) (v : Word) (hI : s.Good wq) : (State.stepWrite s v).Good wq := by
  unfold State.stepWrite
  repeat' (first | with_reducible assumption | with_reducible apply State.Good.ite | with_reducible apply State.post_inv | with_reducible apply State.raise_inv | with_reducible apply State.stepTime_inv)

theorem State.startTicks_inv (s : State) (hI : s.Good wq) : (State.startTicks s).Good wq := by
  unfold State.startTicks
  repeat' (first | with_reducible assumption | (with_reducible refine State.Good.mk_of ?_; with_reducible refine State.Good.parts ?_))

theorem State.lockRestart_inv (s : State) (hI : s.Good wq) : (State.lockRestart s).Good wq := by
  unfold State.lockRestart
  repeat' (first | with_reducible assumption | (with_reducible refine State.Good.mk_of ?_; with_reducible refine State.Good.parts ?_))

theorem State.lockDone_inv (s : State) (rawTick number : Nat) (hI : s.Good wq) : (State.lockDone s rawTick number).Good wq := by
  unfold State.lockDone
  repeat' (first | with_reducible assumption | with_reducible apply State.raise_inv | (with_reducible refine State.Good.mk_of ?_; refine State.Good.sameBase ?_ rfl rfl))

theorem State.placeGrid_inv (s : State) (hI : s.Good wq) : (State.placeGrid s).Good wq := by
  unfold State.placeGrid
  repeat' (first | with_reducible assumption | with_reducible apply State.Good.ite | with_reducible apply State.lockDone_inv | with_reducible apply State.lockRestart_inv | with_reducible apply State.raise_inv)

theorem State.lockSettled_inv (s : State) (hI : s.Good wq) : (State.lockSettled s).Good wq := by
  unfold State.lockSettled
  repeat' (first | with_reducible assumption | with_reducible apply State.Good.ite | with_reducible apply State.placeGrid_inv | (with_reducible refine State.Good.mk_of ?_; with_reducible refine State.Good.parts ?_))

theorem State.lockBegin_inv (s : State) (hI : s.Good wq) : (State.lockBegin s).Good wq := by
  unfold State.lockBegin
  repeat' (first | with_reducible assumption | with_reducible apply State.Good.ite | with_reducible apply State.lockRestart_inv | with_reducible apply State.lockSettled_inv)

theorem State.lockRaised_inv (s : State) (hI : s.Good wq) : (State.lockRaised s).Good wq := by
  unfold State.lockRaised
  repeat' (first | with_reducible assumption | with_reducible apply State.Good.ite | with_reducible apply State.placeGrid_inv)

theorem State.notePhase_inv (s : State) (err : Int) (hI : s.Good wq) : (State.notePhase s err).Good wq := by
  unfold State.notePhase
  repeat' (first | with_reducible assumption | with_reducible apply State.put_inv)

theorem State.snapBy_inv (s : State) (d : Int) (hI : s.Good wq) : (State.snapBy s d).Good wq := by
  unfold State.snapBy
  repeat' (first | with_reducible assumption | with_reducible apply State.stepTime_inv | (with_reducible refine State.Good.mk_of ?_; with_reducible refine State.Good.parts ?_))

theorem State.countGood_inv (s : State) (err : Int) (hI : s.Good wq) : (State.countGood s err).Good wq := by
  unfold State.countGood
  repeat' (first | with_reducible assumption | split | (with_reducible refine State.Good.mk_of ?_; with_reducible refine State.Good.parts ?_))

theorem State.outlier_inv (s : State) (hI : s.Good wq) : (State.outlier s).Good wq := by
  unfold State.outlier
  repeat' (first | with_reducible assumption | with_reducible apply State.Good.ite | with_reducible apply State.clear_inv | with_reducible apply State.post_inv | with_reducible apply State.raise_inv | (with_reducible refine State.Good.mk_of ?_; with_reducible refine State.Good.parts ?_))

theorem State.onGrid_inv (s : State) (err : Int) (hI : s.Good wq) : (State.onGrid s err).Good wq := by
  unfold State.onGrid
  repeat' (first | with_reducible assumption | with_reducible apply State.notePhase_inv | with_reducible apply State.raise_inv | (with_reducible refine State.Good.mk_of ?_; with_reducible refine State.Good.parts ?_))

theorem State.measure_inv (s : State) (err : Int) (hI : s.Good wq) : (State.measure s err).Good wq := by
  unfold State.measure
  repeat' (first | with_reducible assumption | with_reducible apply State.Good.ite | with_reducible apply State.countGood_inv | with_reducible apply State.lockSettled_inv | with_reducible apply State.onGrid_inv | with_reducible apply State.outlier_inv | split | (with_reducible refine State.Good.mk_of ?_; first | with_reducible refine State.Good.parts ?_ | refine State.Good.sameBase ?_ rfl rfl))

theorem State.syncEdge_inv (s : State) (ball : Word) (hI : s.Good wq) : (State.syncEdge s ball).Good wq := by
  unfold State.syncEdge
  repeat' (first | with_reducible assumption | with_reducible apply State.Good.ite | with_reducible apply State.lockRestart_inv | with_reducible apply State.measure_inv | with_reducible apply State.raise_inv | with_reducible apply State.snapBy_inv | split | (with_reducible refine State.Good.mk_of ?_; with_reducible refine State.Good.parts ?_))

theorem State.linkMeasure_inv (s : State) (theta : Int) (hI : s.Good wq) : (State.linkMeasure s theta).Good wq := by
  unfold State.linkMeasure
  repeat' (first | with_reducible assumption | with_reducible apply State.Good.ite | with_reducible apply State.measure_inv | with_reducible apply State.snapBy_inv | split | (with_reducible refine State.Good.mk_of ?_; with_reducible refine State.Good.parts ?_))

theorem State.syncLost_inv (s : State) (hI : s.Good wq) : (State.syncLost s).Good wq := by
  unfold State.syncLost
  repeat' (first | with_reducible assumption | with_reducible apply State.Good.ite | with_reducible apply State.clear_inv | with_reducible apply State.lockRestart_inv | with_reducible apply State.post_inv | with_reducible apply State.raise_inv | split | (with_reducible refine State.Good.mk_of ?_; with_reducible refine State.Good.parts ?_))

theorem State.anchorRebase_inv (s : State) (hI : s.Good wq) : (State.anchorRebase s).Good wq := by
  unfold State.anchorRebase
  repeat' (first | with_reducible assumption | with_reducible apply State.Good.ite | with_reducible apply State.advanceTo_inv)

theorem execAnchorRebase_inv (s : State) (hI : s.Good wq) : Goes wq (execAnchorRebase s) := by
  unfold execAnchorRebase
  repeat' (first | with_reducible assumption | with_reducible apply Goes.next | with_reducible apply State.anchorRebase_inv)

theorem execIncrWrite_inv (v : Word) (s : State) (hI : s.Good wq) : Goes wq (execIncrWrite v s) := by
  unfold execIncrWrite
  repeat' (first | with_reducible assumption | with_reducible apply Goes.next | with_reducible apply State.incrWrite_inv)

theorem execStepWrite_inv (v : Word) (s : State) (hI : s.Good wq) : Goes wq (execStepWrite v s) := by
  unfold execStepWrite
  repeat' (first | with_reducible assumption | with_reducible apply Goes.next | with_reducible apply State.stepWrite_inv)

theorem State.setPath_inv (s : State) (p : Path) (x : PathSt) (hI : s.Good wq) : (State.setPath s p x).Good wq := by
  unfold State.setPath
  repeat' (first | with_reducible assumption | split | (with_reducible refine State.Good.mk_of ?_; with_reducible refine State.Good.parts ?_))

theorem State.nowRead_inv (s : State) (p : Path) (hI : s.Good wq) : (State.nowRead s p).Good wq := by
  unfold State.nowRead
  repeat' (first | with_reducible assumption | with_reducible apply State.setPath_inv | (with_reducible refine State.Good.mk_of ?_; with_reducible refine State.Good.parts ?_))

theorem execNowRead_inv (p : Path) (s : State) (hI : s.Good wq) : Goes wq (execNowRead p s) := by
  unfold execNowRead
  repeat' (first | with_reducible assumption | with_reducible apply Goes.next | with_reducible apply State.nowRead_inv)

theorem State.timeWrap_inv (s : State) (hI : s.Good wq) : (State.timeWrap s).Good wq := by
  unfold State.timeWrap
  repeat' (first | with_reducible assumption | with_reducible apply State.Good.ite | with_reducible apply State.advance_inv)

theorem execTimeWrap_inv (s : State) (hI : s.Good wq) : Goes wq (execTimeWrap s) := by
  unfold execTimeWrap
  repeat' (first | with_reducible assumption | with_reducible apply Goes.next | with_reducible apply State.timeWrap_inv)

theorem execSyncInEdge_inv (ball : Word) (s : State) (hI : s.Good wq) : Goes wq (execSyncInEdge ball s) := by
  unfold execSyncInEdge
  repeat' (first | with_reducible assumption | with_reducible apply Goes.next | with_reducible apply State.syncEdge_inv)

theorem execSyncLost_inv (s : State) (hI : s.Good wq) : Goes wq (execSyncLost s) := by
  unfold execSyncLost
  repeat' (first | with_reducible assumption | with_reducible apply Goes.next | with_reducible apply State.syncLost_inv)

/-! Machine/HostOps.lean -/

theorem State.setPairSt_inv (s : State) (q : Nat) (x : PairSt) (hI : s.Good wq) : (State.setPairSt s q x).Good wq := by
  unfold State.setPairSt
  repeat' (first | with_reducible assumption | (with_reducible refine State.Good.mk_of ?_; with_reducible refine State.Good.parts ?_))

theorem State.completeDesc_inv (s : State) (q : Nat) (d : DescSt) (status : Nat) (result : Word) (hI : s.Good wq) : (State.completeDesc s q d status result).Good wq := by
  unfold State.completeDesc
  repeat' (first | with_reducible assumption | with_reducible apply State.setPairSt_inv)

theorem State.dropUnknownOne_inv (s : State) (q : Nat) (hI : s.Good wq) : (State.dropUnknownOne s q).Good wq := by
  unfold State.dropUnknownOne
  repeat' (first | with_reducible assumption | with_reducible apply State.Good.ite | with_reducible apply State.setPairSt_inv | with_reducible apply State.completeDesc_inv | split | (with_reducible refine State.Good.mk_of ?_; with_reducible refine State.Good.parts ?_))

theorem State.dropUnknown_inv (s : State) (q : Nat) (hI : s.Good wq) : (State.dropUnknown s q).Good wq := by
  unfold State.dropUnknown
  repeat' (first | with_reducible assumption | with_reducible apply State.dropUnknownOne_inv | with_reducible apply State.Good.foldl | (with_reducible intro _ _ _))

theorem State.startDesc_inv (s : State) (q slot op : Nat) (hI : s.Good wq) : InvAt wq Prod.fst (State.startDesc s q slot op) := by
  unfold State.startDesc
  repeat' (first | with_reducible assumption | with_reducible apply InvAt.fst | with_reducible apply State.completeDesc_inv | with_reducible apply State.setPairSt_inv | with_reducible apply State.Good.iteFst | split)
theorem State.startDesc_at (s : State) (q slot op : Nat) (hI : s.Good wq) : (Prod.fst (State.startDesc s q slot op)).Good wq := InvAt.inv (State.startDesc_inv _ _ _ _ hI)

theorem State.descFor_inv (s : State) (q slot op : Nat) (hI : s.Good wq) : InvAt wq Prod.fst (State.descFor s q slot op) := by
  unfold State.descFor
  repeat' (first | with_reducible assumption | with_reducible apply InvAt.fst | with_reducible apply State.startDesc_at | with_reducible apply State.Good.iteFst | split)
theorem State.descFor_at (s : State) (q slot op : Nat) (hI : s.Good wq) : (Prod.fst (State.descFor s q slot op)).Good wq := InvAt.inv (State.descFor_inv _ _ _ _ hI)

theorem State.keepDesc_inv (s : State) (q : Nat) (d : DescSt) (hI : s.Good wq) : (State.keepDesc s q d).Good wq := by
  unfold State.keepDesc
  repeat' (first | with_reducible assumption | with_reducible apply State.setPairSt_inv)

theorem State.hostWrite_inv (s : State) (a : Nat) (bs : List Byte) (hI : s.Good wq) : (State.hostWrite s a bs).Good wq := by
  unfold State.hostWrite
  repeat' (first | with_reducible assumption | (with_reducible refine State.Good.mk_of ?_; with_reducible refine State.Good.parts ?_))

theorem State.dataWrite_inv (s : State) (a : Nat) (bs : List Byte) (hI : s.Good wq) : (State.dataWrite s a bs).Good wq := by
  unfold State.dataWrite
  repeat' (first | with_reducible assumption | (with_reducible refine State.Good.mk_of ?_; with_reducible refine State.Good.parts ?_))

theorem State.hostRead_inv (s : State) (a n : Nat) (hI : s.Good wq) : (State.hostRead s a n).Good wq := by
  unfold State.hostRead
  repeat' (first | with_reducible assumption | (with_reducible refine State.Good.mk_of ?_; with_reducible refine State.Good.parts ?_))

theorem State.writeStatus_inv (s : State) (hI : s.Good wq) : (State.writeStatus s).Good wq := by
  unfold State.writeStatus
  repeat' (first | with_reducible assumption | with_reducible apply State.hostWrite_inv)

theorem State.flushLog_inv (s : State) (hI : s.Good wq) : (State.flushLog s).Good wq := by
  unfold State.flushLog
  repeat' (first | with_reducible assumption | with_reducible apply State.Good.ite | with_reducible apply State.hostWrite_inv | with_reducible apply State.interrupt_inv | with_reducible apply State.writeStatus_inv | with_reducible apply State.Good.foldl | (with_reducible intro _ _ _) | (with_reducible refine State.Good.mk_of ?_; with_reducible refine State.Good.parts ?_))

/-! Machine/Watchdog.lean -/

theorem State.wdLoad_inv (s : State) (hI : s.Good wq) : (State.wdLoad s).Good wq := by
  unfold State.wdLoad
  repeat' (first | with_reducible assumption | with_reducible apply State.put_inv)

theorem State.wdKick_inv (s : State) (b : Nat) (hI : s.Good wq) : (State.wdKick s b).Good wq := by
  unfold State.wdKick
  repeat' (first | with_reducible assumption | with_reducible apply State.Good.ite | with_reducible apply State.wdLoad_inv)

theorem State.arm_inv (s : State) (r : RegRef) (hI : s.Good wq) : (State.arm s r).Good wq := by
  unfold State.arm
  repeat' (first | with_reducible assumption | with_reducible apply State.Good.ite | with_reducible apply State.raise_inv)

theorem State.armTarget_inv (s : State) (t : Nat) (hI : s.Good wq) : (State.armTarget s t).Good wq := by
  unfold State.armTarget
  repeat' (first | with_reducible assumption | with_reducible apply State.Good.ite | with_reducible apply State.arm_inv | with_reducible apply State.Good.foldl | (with_reducible intro _ _ _) | split)

/-! Machine/TimetableOps.lean -/

theorem State.setColumn_inv (s : State) (c : Nat) (x : TtColumn) (hI : s.Good wq) : (State.setColumn s c x).Good wq := by
  unfold State.setColumn
  repeat' (first | with_reducible assumption | (with_reducible refine State.Good.mk_of ?_; with_reducible refine State.Good.parts ?_))

theorem State.ttLoad_inv (s : State) (c ctx : Nat) (es : List TtEntry) (maskOk : Bool) (hI : s.Good wq) : InvAt wq Prod.fst (State.ttLoad s c ctx es maskOk) := by
  unfold State.ttLoad
  repeat' (first | with_reducible assumption | with_reducible apply InvAt.fst | with_reducible apply State.put_inv | with_reducible apply State.raise_inv | with_reducible apply State.setColumn_inv | with_reducible apply State.Good.foldl | split)
theorem State.ttLoad_at (s : State) (c ctx : Nat) (es : List TtEntry) (maskOk : Bool) (hI : s.Good wq) : (Prod.fst (State.ttLoad s c ctx es maskOk)).Good wq := InvAt.inv (State.ttLoad_inv _ _ _ _ _ hI)

theorem State.ttTake_inv (s : State) (c : Nat) (e : TtEntry) (late : Bool) (hI : s.Good wq) : (State.ttTake s c e late).Good wq := by
  unfold State.ttTake
  repeat' (first | with_reducible assumption | (with_reducible refine State.Good.mk_of ?_; with_reducible refine State.Good.parts ?_))

theorem State.ttMissed_inv (s : State) (c : Nat) (hI : s.Good wq) : (State.ttMissed s c).Good wq := by
  unfold State.ttMissed
  repeat' (first | with_reducible assumption | with_reducible apply State.Good.ite | with_reducible apply State.bump_inv | with_reducible apply State.logEntry_inv | with_reducible apply State.post_inv | with_reducible apply State.put_inv | (with_reducible refine State.Good.mk_of ?_; with_reducible refine State.Good.parts ?_))

theorem State.dispatchColumn_inv (s : State) (c : Nat) (hI : s.Good wq) : (State.dispatchColumn s c).Good wq := by
  unfold State.dispatchColumn
  repeat' (first | with_reducible assumption | with_reducible apply State.Good.ite | with_reducible apply State.setColumn_inv | with_reducible apply State.ttMissed_inv | with_reducible apply State.ttTake_inv | split | (with_reducible refine State.Good.mk_of ?_; with_reducible refine State.Good.parts ?_))

theorem State.colClr_inv (s : State) (c : Nat) (hI : s.Good wq) : (State.colClr s c).Good wq := by
  unfold State.colClr
  repeat' (first | with_reducible assumption | with_reducible apply State.setColumn_inv)

theorem State.ttPerform_inv (s : State) (c action : Nat) (g : State → TtTaken → State) (hI : s.Good wq) (hg : ∀ x0 x1, x0.Good wq → (g x0 x1).Good wq) : (State.ttPerform s c action g).Good wq := by
  unfold State.ttPerform
  repeat' (first | with_reducible assumption | with_reducible apply State.Good.ite | with_reducible apply State.postAt_inv | with_reducible apply hg | split | (with_reducible refine State.Good.mk_of ?_; with_reducible refine State.Good.parts ?_))

theorem State.emit_inv (s : State) (k : Nat) (r : EvRec) (hI : s.Good wq) : (State.emit s k r).Good wq := by
  unfold State.emit
  repeat' (first | with_reducible assumption | split | (with_reducible refine State.Good.mk_of ?_; with_reducible refine State.Good.parts ?_))

theorem State.emitChecked_inv (s : State) (k : Nat) (r : EvRec) (hI : s.Good wq) : (State.emitChecked s k r).Good wq := by
  unfold State.emitChecked
  repeat' (first | with_reducible assumption | with_reducible apply State.Good.ite | with_reducible apply State.bump_inv | with_reducible apply State.emit_inv | split | (with_reducible refine State.Good.mk_of ?_; with_reducible refine State.Good.parts ?_))

theorem State.emitLate_inv (k : Nat) (t : Word) : ∀ (n : Nat) (l : List EvRec) (s : State), s.Good wq →
    (State.emitLate s k t n l).Good wq
  | 0, _, _, h => h
  | n + 1, l, s, h => by
    unfold State.emitLate
    refine State.Good.ite h (State.emitLate_inv k t n _ _ (State.Good.foldl (fun s a hs => State.emitChecked_inv s k a hs) _ ?_))
    exact State.emit_inv _ _ _ h

theorem State.closeFrame_inv (s : State) (hI : s.Good wq) : (State.closeFrame s).Good wq := by
  unfold State.closeFrame
  repeat' (first | with_reducible assumption | with_reducible apply State.Good.ite | with_reducible apply State.emit_inv | with_reducible apply State.emitChecked_inv | with_reducible apply State.emitLate_inv | with_reducible apply State.Good.foldl | (with_reducible intro _ _ _) | split | (with_reducible refine State.Good.mk_of ?_; with_reducible refine State.Good.parts ?_))

theorem State.flushEvents_inv (s : State) (hI : s.Good wq) : (State.flushEvents s).Good wq := by
  unfold State.flushEvents
  repeat' (first | with_reducible assumption | with_reducible apply State.Good.ite | with_reducible apply State.hostWrite_inv | with_reducible apply State.interrupt_inv | with_reducible apply State.writeStatus_inv | with_reducible apply State.Good.foldl | (with_reducible intro _ _ _) | (with_reducible refine State.Good.mk_of ?_; with_reducible refine State.Good.parts ?_))

theorem State.forwardOne_inv (s : State) (hI : s.Good wq) : (State.forwardOne s).Good wq := by
  unfold State.forwardOne
  repeat' (first | with_reducible assumption | with_reducible apply State.Good.ite | with_reducible apply State.niTake_at | (with_reducible refine State.Good.mk_of ?_; with_reducible refine State.Good.parts ?_))

theorem State.forwardEvents_inv (s : State) (hI : s.Good wq) : (State.forwardEvents s).Good wq := by
  unfold State.forwardEvents
  repeat' (first | with_reducible assumption | with_reducible apply State.forwardOne_inv | with_reducible apply State.Good.foldl | (with_reducible intro _ _ _))

theorem State.openFrame_inv (s : State) (hI : s.Good wq) : (State.openFrame s).Good wq := by
  unfold State.openFrame
  repeat' (first | with_reducible assumption | (with_reducible refine State.Good.mk_of ?_; with_reducible refine State.Good.parts ?_))

theorem State.frameClose_inv (s : State) (hI : s.Good wq) : (State.frameClose s).Good wq := by
  unfold State.frameClose
  repeat' (first | with_reducible assumption | with_reducible apply State.closeFrame_inv | with_reducible apply State.flushEvents_inv | with_reducible apply State.flushLog_inv | with_reducible apply State.forwardEvents_inv)

theorem State.setTsp_inv (s : State) (i : Nat) (x : TspSt) (hI : s.Good wq) : (State.setTsp s i x).Good wq := by
  unfold State.setTsp
  repeat' (first | with_reducible assumption | (with_reducible refine State.Good.mk_of ?_; with_reducible refine State.Good.parts ?_))

theorem State.txStamp_inv (s : State) (i id lane : Nat) (t : Word) (hI : s.Good wq) : (State.txStamp s i id lane t).Good wq := by
  unfold State.txStamp
  repeat' (first | with_reducible assumption | with_reducible apply State.Good.ite | with_reducible apply State.post_inv | with_reducible apply State.raise_inv | with_reducible apply State.setTsp_inv)

theorem State.txqidPop_inv (s : State) (i : Nat) (peek : Bool) (hI : s.Good wq) : (State.txqidPop s i peek).Good wq := by
  unfold State.txqidPop
  repeat' (first | with_reducible assumption | with_reducible apply State.setTsp_inv | split | (with_reducible refine State.Good.mk_of ?_; with_reducible refine State.Good.parts ?_))

/-! Machine/Lanes.lean -/

theorem State.portTrain_inv (s : State) (p : Nat) (hI : s.Good wq) : (State.portTrain s p).Good wq := by
  unfold State.portTrain
  repeat' (first | with_reducible assumption | with_reducible apply State.Good.ite | with_reducible apply State.raise_inv | with_reducible apply State.setPort_inv | with_reducible apply State.startTraining_inv)

theorem execPortTrain_inv (p : Fin 6) (s : State) (hI : s.Good wq) : Goes wq (execPortTrain p s) := by
  unfold execPortTrain
  repeat' (first | with_reducible assumption | with_reducible apply Goes.next | with_reducible apply State.portTrain_inv)

theorem State.trainTimeout_inv (s : State) (p : Nat) (hI : s.Good wq) : (State.trainTimeout s p).Good wq := by
  unfold State.trainTimeout
  repeat' (first | with_reducible assumption | with_reducible apply State.Good.ite | with_reducible apply State.failOrFallBack_inv)

theorem execTrainTimeout_inv (p : Fin 6) (s : State) (hI : s.Good wq) : Goes wq (execTrainTimeout p s) := by
  unfold execTrainTimeout
  repeat' (first | with_reducible assumption | with_reducible apply Goes.next | with_reducible apply State.trainTimeout_inv)

theorem execTrain_inv (p : Fin 6) (lane idx : Fin 8) (width4 ready : Bool) (dev : BitVec 8) (inverted : Bool) (s : State) (hI : s.Good wq) : Goes wq (execTrain p lane idx width4 ready dev inverted s) := by
  unfold execTrain
  repeat' (first | with_reducible assumption | with_reducible apply Goes.next | with_reducible apply State.trainBlock_inv)

theorem State.ackBlock_inv (s : State) (p : Nat) (ack : BitVec 16) (g : State → State) (hI : s.Good wq) (hg : ∀ x0, x0.Good wq → (g x0).Good wq) : (State.ackBlock s p ack g).Good wq := by
  unfold State.ackBlock
  repeat' (first | with_reducible assumption | with_reducible apply State.Good.ite | with_reducible apply State.linkAck_inv | with_reducible apply State.resumePort_inv | with_reducible apply hg)

theorem execCar_inv (p : Fin 6) (c : Carriage) (crc : BitVec 24) (lseq ack : BitVec 16) (s : State) (hI : s.Good wq) : Goes wq (execCar p c crc lseq ack s) := by
  unfold execCar
  repeat' (first | with_reducible assumption | with_reducible apply Goes.next | with_reducible apply State.carBlock_inv | with_reducible apply State.resumePort_inv)

theorem execIdleBlock_inv (p : Fin 6) (ack : BitVec 16) (s : State) (hI : s.Good wq) : Goes wq (execIdleBlock p ack s) :=
  Goes.next (State.ackBlock_inv _ _ _ _ hI (fun _ h => h))

theorem execNak_inv (p : Fin 6) (lseq ack : BitVec 16) (s : State) (hI : s.Good wq) : Goes wq (execNak p lseq ack s) := by
  unfold execNak
  repeat' (first | with_reducible assumption | with_reducible apply Goes.next | with_reducible apply State.ackBlock_inv | with_reducible apply State.replayFrom_inv | (with_reducible intro _ _))

theorem State.setStop_inv (s : State) (p : Nat) (rsp b : Bool) (hI : s.Good wq) : (State.setStop s p rsp b).Good wq := by
  unfold State.setStop
  repeat' (first | with_reducible assumption | with_reducible apply State.sendAll_inv | with_reducible apply State.setPort_inv)

theorem execXoff_inv (p : Fin 6) (rsp : Bool) (ack : BitVec 16) (s : State) (hI : s.Good wq) : Goes wq (execXoff p rsp ack s) := by
  unfold execXoff
  repeat' (first | with_reducible assumption | with_reducible apply Goes.next | with_reducible apply State.ackBlock_inv | with_reducible apply State.setStop_inv | (with_reducible intro _ _))

theorem execXon_inv (p : Fin 6) (rsp : Bool) (ack : BitVec 16) (s : State) (hI : s.Good wq) : Goes wq (execXon p rsp ack s) := by
  unfold execXon
  repeat' (first | with_reducible assumption | with_reducible apply Goes.next | with_reducible apply State.ackBlock_inv | with_reducible apply State.setStop_inv | (with_reducible intro _ _))

theorem State.replayTimeout_inv (s : State) (p : Nat) (receiver : Bool) (hI : s.Good wq) : (State.replayTimeout s p receiver).Good wq := by
  unfold State.replayTimeout
  repeat' (first | with_reducible assumption | with_reducible apply State.Good.ite | with_reducible apply State.replayFrom_inv | with_reducible apply State.sendNak_inv | split)

theorem execReplayTimeout_inv (p : Fin 6) (receiver : Bool) (s : State) (hI : s.Good wq) : Goes wq (execReplayTimeout p receiver s) := by
  unfold execReplayTimeout
  repeat' (first | with_reducible assumption | with_reducible apply Goes.next | with_reducible apply State.replayTimeout_inv | with_reducible apply State.resumePort_inv)

theorem State.markerLost_inv (s : State) (p : Nat) (hI : s.Good wq) : (State.markerLost s p).Good wq := by
  unfold State.markerLost
  repeat' (first | with_reducible assumption | with_reducible apply State.Good.ite | with_reducible apply State.failOrFallBack_inv | with_reducible apply State.portDown_inv)

theorem State.markT_inv (s : State) (p k : Nat) (time rx : Word) (inPlace : Bool) (hI : s.Good wq) : (State.markT s p k time rx inPlace).Good wq := by
  unfold State.markT
  repeat' (first | with_reducible assumption | with_reducible apply State.Good.ite | with_reducible apply State.linkSend_inv | with_reducible apply State.markerLost_inv | with_reducible apply State.setPort_inv | with_reducible apply State.trainReady_inv)

theorem execMarkT_inv (p : Fin 6) (lane : Fin 8) (time rx : Word) (inPlace : Bool) (s : State) (hI : s.Good wq) : Goes wq (execMarkT p lane time rx inPlace s) := by
  unfold execMarkT
  repeat' (first | with_reducible assumption | with_reducible apply Goes.next | with_reducible apply State.markT_inv)

theorem State.timeSet_inv (s : State) (p : Nat) (t1 t2 : Word) (hI : s.Good wq) : (State.timeSet s p t1 t2).Good wq := by
  unfold State.timeSet
  repeat' (first | with_reducible assumption | with_reducible apply State.Good.ite | with_reducible apply State.linkMeasure_inv | with_reducible apply State.put_inv | with_reducible apply State.setPort_inv)

theorem State.markR_inv (s : State) (p k : Nat) (time t1 : Word) (inPlace : Bool) (hI : s.Good wq) : (State.markR s p k time t1 inPlace).Good wq := by
  unfold State.markR
  repeat' (first | with_reducible assumption | with_reducible apply State.Good.ite | with_reducible apply State.markerLost_inv | with_reducible apply State.timeSet_inv)

theorem execMarkR_inv (p : Fin 6) (lane : Fin 8) (time t1 : Word) (inPlace : Bool) (s : State) (hI : s.Good wq) : Goes wq (execMarkR p lane time t1 inPlace s) := by
  unfold execMarkR
  repeat' (first | with_reducible assumption | with_reducible apply Goes.next | with_reducible apply State.markR_inv)

theorem State.laneEidle_inv (s : State) (l : Nat) (b : Bool) (hI : s.Good wq) : (State.laneEidle s l b).Good wq := by
  unfold State.laneEidle
  repeat' (first | with_reducible assumption | with_reducible apply State.Good.ite | with_reducible apply State.laneIdle_inv | with_reducible apply State.put_inv | (with_reducible refine State.Good.mk_of ?_; with_reducible refine State.Good.parts ?_))

theorem execEidle_inv (isPort : Bool) (i : Fin 64) (v : Bool) (s : State) (hI : s.Good wq) : Goes wq (execEidle isPort i v s) := by
  unfold execEidle
  repeat' (first | with_reducible assumption | with_reducible apply State.Good.ite | with_reducible apply Goes.next | with_reducible apply State.laneEidle_inv | with_reducible apply State.portEidle_inv)

theorem State.wakeBlock_inv (s : State) (l : Nat) (hI : s.Good wq) : (State.wakeBlock s l).Good wq := by
  unfold State.wakeBlock
  repeat' (first | with_reducible assumption | with_reducible apply State.Good.ite | with_reducible apply State.clear_inv | with_reducible apply State.raise_inv)

theorem execWakeBlock_inv (l : Fin 64) (s : State) (hI : s.Good wq) : Goes wq (execWakeBlock l s) := by
  unfold execWakeBlock
  repeat' (first | with_reducible assumption | with_reducible apply Goes.next | with_reducible apply State.wakeBlock_inv)

theorem State.ctleStep_inv (s : State) (l step : Nat) (hI : s.Good wq) : (State.ctleStep s l step).Good wq := by
  unfold State.ctleStep
  repeat' (first | with_reducible assumption | with_reducible apply State.Good.ite | with_reducible apply State.put_inv)

theorem execCtleStep_inv (l : Fin 64) (step : Fin 32) (s : State) (hI : s.Good wq) : Goes wq (execCtleStep l step s) := by
  unfold execCtleStep
  repeat' (first | with_reducible assumption | with_reducible apply Goes.next | with_reducible apply State.ctleStep_inv)

theorem State.laneLoss_inv (s : State) (l : Nat) (hI : s.Good wq) : (State.laneLoss s l).Good wq := by
  unfold State.laneLoss
  repeat' (first | with_reducible assumption | with_reducible apply State.Good.ite | with_reducible apply State.laneUnlock_inv | with_reducible apply State.portDown_inv | with_reducible apply State.post_inv | with_reducible apply State.raise_inv | with_reducible apply State.setPort_inv | with_reducible apply State.freeNat_at)

theorem execLaneLoss_inv (l : Fin 64) (s : State) (hI : s.Good wq) : Goes wq (execLaneLoss l s) := by
  unfold execLaneLoss
  repeat' (first | with_reducible assumption | with_reducible apply Goes.next | with_reducible apply State.laneLoss_inv)

theorem State.blkLock_inv (s : State) (l lat : Nat) (hI : s.Good wq) : (State.blkLock s l lat).Good wq := by
  unfold State.blkLock
  repeat' (first | with_reducible assumption | with_reducible apply State.Good.ite | with_reducible apply State.put_inv | with_reducible apply State.raise_inv | with_reducible apply State.setLane_inv | with_reducible apply State.setReg_inv)

theorem execBlklock_inv (l : Fin 64) (lat : BitVec 32) (s : State) (hI : s.Good wq) : Goes wq (execBlklock l lat s) := by
  unfold execBlklock
  repeat' (first | with_reducible assumption | with_reducible apply Goes.next | with_reducible apply State.blkLock_inv)

theorem State.prbsSync_inv (s : State) (l errs : Nat) (hI : s.Good wq) : (State.prbsSync s l errs).Good wq := by
  unfold State.prbsSync
  repeat' (first | with_reducible assumption | with_reducible apply State.Good.ite | with_reducible apply State.bump_inv | with_reducible apply State.raise_inv)

theorem execPrbsSync_inv (l : Fin 64) (errs : Nat) (s : State) (hI : s.Good wq) : Goes wq (execPrbsSync l errs s) := by
  unfold execPrbsSync
  repeat' (first | with_reducible assumption | with_reducible apply Goes.next | with_reducible apply State.prbsSync_inv)

theorem State.slipWrite_inv (s : State) (l n : Nat) (hI : s.Good wq) : (State.slipWrite s l n).Good wq := by
  unfold State.slipWrite
  repeat' (first | with_reducible assumption | with_reducible apply State.Good.ite | with_reducible apply State.setLane_inv)

theorem execSlip_inv (l : Fin 64) (n : Fin 1024) (s : State) (hI : s.Good wq) : Goes wq (execSlip l n s) := by
  unfold execSlip
  repeat' (first | with_reducible assumption | with_reducible apply Goes.next | with_reducible apply State.slipWrite_inv)

theorem State.berNote_inv (s : State) (l n : Nat) (hI : s.Good wq) : (State.berNote s l n).Good wq := by
  unfold State.berNote
  repeat' (first | with_reducible assumption | with_reducible apply State.Good.ite | with_reducible apply State.clear_inv | with_reducible apply State.raise_inv | with_reducible apply State.setLane_inv)

theorem State.rawReceive_inv (s : State) (l : Nat) (ws : List Word) (count : Nat) (start : Option (Fin 10)) (ball : Word) (idle : Bool) (hI : s.Good wq) : (State.rawReceive s l ws count start ball idle).Good wq := by
  unfold State.rawReceive
  repeat' (first | with_reducible assumption | with_reducible apply State.Good.ite | with_reducible apply State.berNote_inv | with_reducible apply State.bump_inv | with_reducible apply State.rawArrive_inv | with_reducible apply State.setLane_inv)

theorem execRawReceive_inv (l : Fin 64) (ws : List Word) (count : Fin 11) (start : Option (Fin 10)) (ball : Word) (idle : Bool) (s : State) (hI : s.Good wq) : Goes wq (execRawReceive l ws count start ball idle s) := by
  unfold execRawReceive
  repeat' (first | with_reducible assumption | with_reducible apply Goes.next | with_reducible apply State.rawReceive_inv)

theorem State.txUnder_inv (l : Nat) (s : State) (x : LaneSt) (put : State → LaneSent → State) (h : s.Good wq)
    (hp : ∀ s b, s.Good wq → (put s b).Good wq) : (State.txBoundary.under l s x put).Good wq :=
  hp _ _ (State.bump_inv _ _ _ h)
theorem State.txBoundary_inv (s : State) (l : Nat) (h : s.Good wq) : (State.txBoundary s l).Good wq := by
  have hp : ∀ (s : State) (b : LaneSent), s.Good wq → ({ s with laneOut := s.laneOut ++ [(l, b)] } : State).Good wq :=
    fun s b h => State.Good.of_parts (State.Good.parts (s := s) h)
  unfold State.txBoundary
  refine State.Good.ite h ?_
  split
  · refine State.Good.ite (State.txUnder_inv _ _ _ _ h hp) (State.Good.ite ?_ ?_)
    · exact hp _ _ (State.setLane_inv _ _ _ h)
    · exact hp _ _ (State.setLane_inv _ _ _ h)
  · exact State.txUnder_inv _ _ _ _ h hp

theorem execUnderrun_inv (l : Fin 64) (s : State) (hI : s.Good wq) : Goes wq (execUnderrun l s) := by
  unfold execUnderrun
  repeat' (first | with_reducible assumption | with_reducible apply Goes.next | with_reducible apply State.txBoundary_inv)

theorem State.laneStamp_inv (s : State) (l : Nat) (t : Word) (hI : s.Good wq) : (State.laneStamp s l t).Good wq := by
  unfold State.laneStamp
  repeat' (first | with_reducible assumption | with_reducible apply State.forEach_inv | with_reducible apply State.setLane_inv | with_reducible apply State.txStamp_inv | (with_reducible intro _ _ _) | split | (with_reducible refine State.Good.mk_of ?_; with_reducible refine State.Good.parts ?_))

theorem execTxStamp_inv (l : Fin 64) (t : Word) (s : State) (hI : s.Good wq) : Goes wq (execTxStamp l t s) := by
  unfold execTxStamp
  repeat' (first | with_reducible assumption | with_reducible apply Goes.next | with_reducible apply State.laneStamp_inv)

theorem State.txqidRead_inv (s : State) (i : Nat) (p : Path) (hI : s.Good wq) : (State.txqidRead s i p).Good wq := by
  unfold State.txqidRead
  repeat' (first | with_reducible assumption | with_reducible apply State.txqidPop_inv | (with_reducible refine State.Good.mk_of ?_; with_reducible refine State.Good.parts ?_))

theorem execTxqidRead_inv (i : Fin 8) (p : Path) (s : State) (hI : s.Good wq) : Goes wq (execTxqidRead i p s) := by
  unfold execTxqidRead
  repeat' (first | with_reducible assumption | with_reducible apply Goes.next | with_reducible apply State.txqidRead_inv)

/-! Machine/Matrix.lean -/

theorem State.setMatrix_inv (s : State) (m : MatrixSt) (hI : s.Good wq) : (State.setMatrix s m).Good wq := by
  unfold State.setMatrix
  repeat' (first | with_reducible assumption | (with_reducible refine State.Good.mk_of ?_; with_reducible refine State.Good.parts ?_))

theorem State.settleOutput_inv (s : State) (t : Word) (o : Nat) (hI : s.Good wq) : (State.settleOutput s t o).Good wq := by
  unfold State.settleOutput
  repeat' (first | with_reducible assumption | with_reducible apply State.Good.ite | with_reducible apply State.setMatrix_inv)

theorem State.outputEdge_inv (s : State) (o : Nat) (level : Bool) (hI : s.Good wq) : (State.outputEdge s o level).Good wq := by
  unfold State.outputEdge
  repeat' (first | with_reducible assumption | with_reducible apply State.Good.ite | with_reducible apply State.setMatrix_inv)

theorem State.matrixEdge_inv (s : State) (i : Nat) (level : Bool) (t : Word) (hI : s.Good wq) : (State.matrixEdge s i level t).Good wq := by
  unfold State.matrixEdge
  repeat' (first | with_reducible assumption | with_reducible apply State.Good.ite | with_reducible apply State.forEach_inv | with_reducible apply State.outputEdge_inv | with_reducible apply State.postAt_inv | with_reducible apply State.setMatrix_inv | with_reducible apply State.settleOutput_inv | with_reducible apply State.wdKick_inv | (with_reducible intro _ _ _))

theorem State.settleAll_inv (s : State) (hI : s.Good wq) : (State.settleAll s).Good wq := by
  unfold State.settleAll
  repeat' (first | with_reducible assumption | with_reducible apply State.forEach_inv | with_reducible apply State.settleOutput_inv | (with_reducible intro _ _ _))

theorem State.edgeAt_inv (s : State) (i : Nat) (level : Bool) (t : Word) (hI : s.Good wq) : (State.edgeAt s i level t).Good wq := by
  unfold State.edgeAt
  repeat' (first | with_reducible assumption | with_reducible apply State.Good.ite | with_reducible apply State.matrixEdge_inv | with_reducible apply State.setMatrix_inv)

theorem State.releaseOne_inv (s : State) (hI : s.Good wq) : (State.releaseOne s).Good wq := by
  unfold State.releaseOne
  repeat' (first | with_reducible assumption | with_reducible apply State.matrixEdge_inv | with_reducible apply State.setMatrix_inv | split | (with_reducible refine State.Good.mk_of ?_; with_reducible refine State.Good.parts ?_))

theorem State.releaseHeld_inv (s : State) (hI : s.Good wq) : (State.releaseHeld s).Good wq := by
  unfold State.releaseHeld
  repeat' (first | with_reducible assumption | with_reducible apply State.releaseOne_inv | with_reducible apply State.Good.foldl | (with_reducible intro _ _ _))

theorem State.ttWriteFail_inv (s : State) (inj : Bool) (status addr : Nat) (hI : s.Good wq) : (State.ttWriteFail s inj status addr).Good wq := by
  unfold State.ttWriteFail
  repeat' (first | with_reducible assumption | with_reducible apply State.Good.ite | with_reducible apply State.logEntry_inv | with_reducible apply State.post_inv | with_reducible apply State.raise_inv | split | (with_reducible refine State.Good.mk_of ?_; with_reducible refine State.Good.parts ?_))

theorem State.ttWriteDone_inv (s : State) (inj : Bool) (c : Carriage) (addr : Nat) (hI : s.Good wq) : (State.ttWriteDone s inj c addr).Good wq := by
  unfold State.ttWriteDone
  repeat' (first | with_reducible assumption | with_reducible apply State.Good.ite | with_reducible apply State.ttWriteFail_inv)

theorem State.notify_inv (s : State) (l : Nat) (t : Word) (v : Bool) (hI : s.Good wq) : (State.notify s l t v).Good wq := by
  unfold State.notify
  repeat' (first | with_reducible assumption | with_reducible apply State.ttWriteDone_inv | with_reducible apply State.niTake_at | split | (with_reducible refine State.Good.mk_of ?_; with_reducible refine State.Good.parts ?_))

theorem State.remoteEdge_inv (s : State) (o : Nat) (t : Word) (v : Bool) (hI : s.Good wq) : (State.remoteEdge s o t v).Good wq := by
  unfold State.remoteEdge
  repeat' (first | with_reducible assumption | with_reducible apply State.setNi_inv)

theorem State.matrixSendOne_inv (s : State) (hI : s.Good wq) : (State.matrixSendOne s).Good wq := by
  unfold State.matrixSendOne
  repeat' (first | with_reducible assumption | with_reducible apply State.Good.ite | with_reducible apply State.notify_inv | with_reducible apply State.remoteEdge_inv | with_reducible apply State.setMatrix_inv | split)

theorem State.matrixSend_inv (s : State) (hI : s.Good wq) : (State.matrixSend s).Good wq := by
  unfold State.matrixSend
  repeat' (first | with_reducible assumption | with_reducible apply State.matrixSendOne_inv | with_reducible apply State.Good.foldl | (with_reducible intro _ _ _))

theorem execTrigEdge_inv (i : Fin 26) (level : Bool) (t : Word) (s : State) (hI : s.Good wq) : Goes wq (execTrigEdge i level t s) := by
  unfold execTrigEdge
  repeat' (first | with_reducible assumption | with_reducible apply Goes.next | with_reducible apply State.matrixEdge_inv | with_reducible apply State.matrixSend_inv)

theorem State.pulseEnd_inv (s : State) (o : Nat) (hI : s.Good wq) : (State.pulseEnd s o).Good wq := by
  unfold State.pulseEnd
  repeat' (first | with_reducible assumption | with_reducible apply State.Good.ite | with_reducible apply State.matrixSend_inv | with_reducible apply State.setMatrix_inv | with_reducible apply State.settleOutput_inv | split)

theorem execPulseEnd_inv (o : Fin 104) (s : State) (hI : s.Good wq) : Goes wq (execPulseEnd o s) := by
  unfold execPulseEnd
  repeat' (first | with_reducible assumption | with_reducible apply Goes.next | with_reducible apply State.pulseEnd_inv)

theorem State.endPulses_inv (s : State) (hI : s.Good wq) : (State.endPulses s).Good wq := by
  unfold State.endPulses
  repeat' (first | with_reducible assumption | (with_reducible refine State.Good.mk_of ?_; with_reducible refine State.Good.parts ?_))

theorem State.dispatch_inv (s : State) (hI : s.Good wq) : (State.dispatch s).Good wq := by
  unfold State.dispatch
  repeat' (first | with_reducible assumption | with_reducible apply State.dispatchColumn_inv | with_reducible apply State.endPulses_inv | with_reducible apply State.forEach_inv | with_reducible apply State.matrixSend_inv | with_reducible apply State.releaseHeld_inv)

theorem execDispatch_inv (s : State) (hI : s.Good wq) : Goes wq (execDispatch s) := by
  unfold execDispatch
  repeat' (first | with_reducible assumption | with_reducible apply Goes.next | with_reducible apply State.dispatch_inv)

theorem State.actPulse_inv (s : State) (t : TtTaken) (hI : s.Good wq) : (State.actPulse s t).Good wq := by
  unfold State.actPulse
  repeat' (first | with_reducible assumption | with_reducible apply State.Good.ite | with_reducible apply State.raise_inv | (with_reducible refine State.Good.mk_of ?_; with_reducible refine State.Good.parts ?_))

theorem execPulse_inv (col : Fin 64) (s : State) (hI : s.Good wq) : Goes wq (execPulse col s) := by
  unfold execPulse
  repeat' (first | with_reducible assumption | with_reducible apply Goes.next | with_reducible apply State.actPulse_inv | with_reducible apply State.ttPerform_inv)

theorem State.actLevel_inv (s : State) (t : TtTaken) (hI : s.Good wq) : (State.actLevel s t).Good wq := by
  unfold State.actLevel
  repeat' (first | with_reducible assumption | with_reducible apply State.Good.ite | with_reducible apply State.raise_inv | (with_reducible refine State.Good.mk_of ?_; with_reducible refine State.Good.parts ?_))

theorem execLevel_inv (col : Fin 64) (s : State) (hI : s.Good wq) : Goes wq (execLevel col s) := by
  unfold execLevel
  repeat' (first | with_reducible assumption | with_reducible apply Goes.next | with_reducible apply State.actLevel_inv | with_reducible apply State.ttPerform_inv)

theorem State.actInject_inv (s : State) (t : TtTaken) (hI : s.Good wq) : (State.actInject s t).Good wq := by
  unfold State.actInject
  repeat' (first | with_reducible assumption | with_reducible apply State.ttWriteDone_inv | with_reducible apply State.niTake_at | split | (with_reducible refine State.Good.mk_of ?_; with_reducible refine State.Good.parts ?_))

theorem execInject_inv (col : Fin 64) (s : State) (hI : s.Good wq) : Goes wq (execInject col s) := by
  unfold execInject
  repeat' (first | with_reducible assumption | with_reducible apply State.Good.ite | with_reducible apply Goes.next | with_reducible apply State.actInject_inv | with_reducible apply State.ttPerform_inv)

theorem State.actTrigger_inv (s : State) (t : TtTaken) (hI : s.Good wq) : (State.actTrigger s t).Good wq := by
  unfold State.actTrigger
  repeat' (first | with_reducible assumption | with_reducible apply State.matrixEdge_inv | with_reducible apply State.setMatrix_inv | split)

theorem execTtTrigger_inv (col : Fin 64) (s : State) (hI : s.Good wq) : Goes wq (execTtTrigger col s) := by
  unfold execTtTrigger
  repeat' (first | with_reducible assumption | with_reducible apply Goes.next | with_reducible apply State.actTrigger_inv | with_reducible apply State.matrixSend_inv | with_reducible apply State.ttPerform_inv)

theorem State.askSnapshots_inv (s : State) (map : Nat) (hI : s.Good wq) : (State.askSnapshots s map).Good wq := by
  unfold State.askSnapshots
  repeat' (first | with_reducible assumption | with_reducible apply State.forEach_inv | with_reducible apply State.setFld_inv | (with_reducible intro _ _ _))

theorem execTtSnap_inv (col : Fin 64) (s : State) (hI : s.Good wq) : Goes wq (execTtSnap col s) := by
  unfold execTtSnap
  repeat' (first | with_reducible assumption | with_reducible apply Goes.next | with_reducible apply State.askSnapshots_inv | with_reducible apply State.ttPerform_inv | (with_reducible intro _ _ _))

theorem execTtCommit_inv (col : Fin 64) (s : State) (hI : s.Good wq) : Goes wq (execTtCommit col s) := by
  unfold execTtCommit
  repeat' (first | with_reducible assumption | with_reducible apply Goes.next | with_reducible apply State.armTarget_inv | with_reducible apply State.ttPerform_inv | (with_reducible intro _ _ _))

theorem execColClr_inv (col : Fin 64) (s : State) (hI : s.Good wq) : Goes wq (execColClr col s) := by
  unfold execColClr
  repeat' (first | with_reducible assumption | with_reducible apply Goes.next | with_reducible apply State.colClr_inv)

theorem State.clearTimetable_inv (s : State) (hI : s.Good wq) : (State.clearTimetable s).Good wq := by
  unfold State.clearTimetable
  repeat' (first | with_reducible assumption | with_reducible apply State.colClr_inv | with_reducible apply State.forEach_inv | (with_reducible refine State.Good.mk_of ?_; with_reducible refine State.Good.parts ?_))

theorem execFrameClose_inv (s : State) (hI : s.Good wq) : Goes wq (execFrameClose s) := by
  unfold execFrameClose
  repeat' (first | with_reducible assumption | with_reducible apply Goes.next | with_reducible apply State.frameClose_inv)

/-! Machine/RegMap.lean -/

theorem State.resetRegs_inv (s : State) (d : Nat) (h : s.Good wq) : (State.resetRegs s d).Good wq := by
  unfold State.resetRegs
  refine State.Good.of_parts (GoodOf.filterMapRegs ?_ (State.Good.parts h))
  intro e x hx
  dsimp only at hx
  split at hx
  · split at hx
    · cases hx
    · split at hx <;> cases hx; rfl
  · cases hx; rfl

theorem State.dropImageBits_inv (s : State) (f : Nat) (h : s.Good wq) : (State.dropImageBits s f).Good wq := by
  unfold State.dropImageBits
  refine State.Good.of_parts (GoodOf.filterMapRegs ?_ (State.Good.parts h))
  intro e x hx
  dsimp only at hx
  repeat' split at hx
  all_goals first | (injection hx with hx; subst hx; rfl) | exact nomatch hx

end Sys2Proof.Machine
end

