-- ==== Sys2Proof/Laws/KeepHost.lean ====
section
/-! SUPPORT. Every operation keeps the invariant and the commands that wait: the host interface and the block memories.
One lemma for each operation that answers a state (`_inv`, and `_at` for the state inside a larger answer); of a command the lemma says that it completes (`Goes`). -/
namespace Sys2Proof.Machine
variable {wq : List Instr}

/-! Machine/Host.lean -/

theorem State.fetchNext_inv (s : State) (q : Nat) (hI : s.Good wq) : (State.fetchNext s q).Good wq := by
  unfold State.fetchNext
  repeat' (first | with_reducible assumption | with_reducible apply State.Good.ite | with_reducible apply State.hostRead_inv | with_reducible apply State.setPairSt_inv)

theorem State.fetchAll_inv (s : State) (hI : s.Good wq) : (State.fetchAll s).Good wq := by
  unfold State.fetchAll
  repeat' (first | with_reducible assumption | with_reducible apply State.fetchNext_inv | with_reducible apply State.forEach_inv)

theorem State.takeDesc_inv (s : State) (q : Nat) (raw : BitVec 512) (hI : s.Good wq) : (State.takeDesc s q raw).Good wq := by
  unfold State.takeDesc
  repeat' (first | with_reducible assumption | with_reducible apply State.Good.ite | with_reducible apply State.dropUnknown_inv | with_reducible apply State.fetchNext_inv | with_reducible apply State.setPairSt_inv)

theorem State.descFault_inv (s : State) (q : Nat) (hI : s.Good wq) : (State.descFault s q).Good wq := by
  unfold State.descFault
  repeat' (first | with_reducible assumption | with_reducible apply State.Good.ite | with_reducible apply State.post_inv | with_reducible apply State.raise_inv | with_reducible apply State.setPairSt_inv)

theorem State.finish_inv (s : State) (q : Nat) (d : DescSt) (status : Nat) (result : Word) (hI : s.Good wq) : (State.finish s q d status result).Good wq := by
  unfold State.finish
  repeat' (first | with_reducible assumption | with_reducible apply State.completeDesc_inv | with_reducible apply State.dropUnknown_inv | with_reducible apply State.fetchAll_inv)

theorem State.settleDesc_inv (s : State) (q : Nat) (d : DescSt) (hI : s.Good wq) : (State.settleDesc s q d).Good wq := by
  unfold State.settleDesc
  repeat' (first | with_reducible assumption | with_reducible apply State.Good.ite | with_reducible apply State.finish_inv | with_reducible apply State.keepDesc_inv | split)

theorem State.descAnswer_inv (s : State) (q slot off : Nat) (resp : List Carriage) (hI : s.Good wq) : (State.descAnswer s q slot off resp).Good wq := by
  unfold State.descAnswer
  repeat' (first | with_reducible assumption | with_reducible apply State.Good.ite | with_reducible apply State.dataWrite_inv | with_reducible apply State.settleDesc_inv | split)

theorem State.descIssue_inv (s : State) (q : Nat) (d : DescSt) (off : Nat) (r : Request) (hI : s.Good wq) : (State.descIssue s q d off r).Good wq := by
  unfold State.descIssue
  repeat' (first | with_reducible assumption | with_reducible apply State.descAnswer_inv | with_reducible apply State.keepDesc_inv | with_reducible apply State.niTake_at | split | (with_reducible refine State.Good.mk_of ?_; with_reducible refine State.Good.parts ?_))

theorem State.readMore_inv (s : State) (q slot : Nat) (hI : s.Good wq) : (State.readMore s q slot).Good wq := by
  unfold State.readMore
  repeat' (first | with_reducible assumption | with_reducible apply State.Good.ite | with_reducible apply State.descIssue_inv | with_reducible apply State.hostRead_inv | with_reducible apply State.keepDesc_inv | split)

theorem State.writeMore_inv (s : State) (q slot : Nat) (hI : s.Good wq) : (State.writeMore s q slot).Good wq := by
  unfold State.writeMore
  repeat' (first | with_reducible assumption | with_reducible apply State.Good.ite | with_reducible apply State.descIssue_inv | split)

theorem State.hostData_inv (s : State) (q slot off : Nat) (ws : List Word) (hI : s.Good wq) : (State.hostData s q slot off ws).Good wq := by
  unfold State.hostData
  repeat' (first | with_reducible assumption | with_reducible apply State.Good.ite | with_reducible apply State.keepDesc_inv | split)

theorem State.hostDataFail_inv (s : State) (q slot : Nat) (hI : s.Good wq) : (State.hostDataFail s q slot).Good wq := by
  unfold State.hostDataFail
  repeat' (first | with_reducible assumption | with_reducible apply State.Good.ite | with_reducible apply State.settleDesc_inv | split)

theorem State.hostMemoryRead_inv (s : State) (q : Nat) (r : HostRead) (hI : s.Good wq) : (State.hostMemoryRead s q r).Good wq := by
  unfold State.hostMemoryRead
  repeat' (first | with_reducible assumption | with_reducible apply State.descFault_inv | with_reducible apply State.hostData_inv | with_reducible apply State.hostDataFail_inv | with_reducible apply State.takeDesc_inv | split)

theorem execHostMemoryRead_inv (q : Fin 32) (r : HostRead) (s : State) (hI : s.Good wq) : Goes wq (execHostMemoryRead q r s) := by
  unfold execHostMemoryRead
  repeat' (first | with_reducible assumption | with_reducible apply Goes.next | with_reducible apply State.hostMemoryRead_inv)

theorem State.withDesc_inv (s : State) (q slot op : Nat) (g : State → DescSt → State) (hI : s.Good wq) (hg : ∀ x0 x1, x0.Good wq → (g x0 x1).Good wq) : (State.withDesc s q slot op g).Good wq := by
  unfold State.withDesc
  repeat' (first | with_reducible assumption | with_reducible apply State.dropUnknown_inv | with_reducible apply State.fetchAll_inv | with_reducible apply State.descFor_at | with_reducible apply hg | split | (with_reducible refine State.Good.mk_of ?_; with_reducible refine State.Good.parts ?_))

theorem execMove_inv (q : Fin 32) (slot : Nat) (s : State) (hI : s.Good wq) : Goes wq (execMove q slot s) := by
  unfold execMove
  repeat' (first | with_reducible assumption | with_reducible apply Goes.next | with_reducible apply State.pump_inv | with_reducible apply State.readMore_inv | with_reducible apply State.withDesc_inv | with_reducible apply State.writeMore_inv | (with_reducible intro _ _ _))

theorem execFill_inv (q : Fin 32) (slot : Nat) (s : State) (hI : s.Good wq) : Goes wq (execFill q slot s) := by
  unfold execFill
  repeat' (first | with_reducible assumption | with_reducible apply Goes.next | with_reducible apply State.pump_inv | with_reducible apply State.withDesc_inv | with_reducible apply State.writeMore_inv | (with_reducible intro _ _ _))

theorem State.fenceDesc_inv (s : State) (q : Nat) (d : DescSt) (hI : s.Good wq) : (State.fenceDesc s q d).Good wq := by
  unfold State.fenceDesc
  repeat' (first | with_reducible assumption | with_reducible apply State.Good.ite | with_reducible apply State.descIssue_inv | with_reducible apply State.keepDesc_inv | with_reducible apply State.settleDesc_inv)

theorem execFence_inv (q : Fin 32) (slot : Nat) (s : State) (hI : s.Good wq) : Goes wq (execFence q slot s) := by
  unfold execFence
  repeat' (first | with_reducible assumption | with_reducible apply Goes.next | with_reducible apply State.fenceDesc_inv | with_reducible apply State.withDesc_inv | (with_reducible intro _ _ _))

theorem State.gatherDesc_inv (s : State) (q slot : Nat) (g : State → DescSt → State) (hI : s.Good wq) (hg : ∀ x0 x1, x0.Good wq → (g x0 x1).Good wq) : (State.gatherDesc s q slot g).Good wq := by
  unfold State.gatherDesc
  repeat' (first | with_reducible assumption | with_reducible apply State.Good.ite | with_reducible apply State.readMore_inv | with_reducible apply hg | split | (with_reducible refine State.Good.mk_of ?_; with_reducible refine State.Good.parts ?_))

theorem State.actTtload_inv (s : State) (q : Nat) (d : DescSt) (hI : s.Good wq) : (State.actTtload s q d).Good wq := by
  unfold State.actTtload
  repeat' (first | with_reducible assumption | with_reducible apply State.finish_inv | with_reducible apply State.ttLoad_at)

theorem execTtload_inv (q : Fin 32) (slot : Nat) (s : State) (hI : s.Good wq) : Goes wq (execTtload q slot s) := by
  unfold execTtload
  repeat' (first | with_reducible assumption | with_reducible apply Goes.next | with_reducible apply State.actTtload_inv | with_reducible apply State.gatherDesc_inv | with_reducible apply State.withDesc_inv | (with_reducible intro _ _ _))

theorem State.actSlotload_inv (s : State) (q : Nat) (d : DescSt) (hI : s.Good wq) : (State.actSlotload s q d).Good wq := by
  unfold State.actSlotload
  repeat' (first | with_reducible assumption | with_reducible apply State.bankWrite_inv | with_reducible apply State.finish_inv | with_reducible apply State.Good.foldl | (with_reducible intro _ _ _))

theorem execSlotload_inv (q : Fin 32) (slot : Nat) (s : State) (hI : s.Good wq) : Goes wq (execSlotload q slot s) := by
  unfold execSlotload
  repeat' (first | with_reducible assumption | with_reducible apply Goes.next | with_reducible apply State.actSlotload_inv | with_reducible apply State.gatherDesc_inv | with_reducible apply State.withDesc_inv | (with_reducible intro _ _ _))

theorem State.actRouteload_inv (s : State) (q : Nat) (d : DescSt) (hI : s.Good wq) : (State.actRouteload s q d).Good wq := by
  unfold State.actRouteload
  repeat' (first | with_reducible assumption | with_reducible apply State.bankWrite_inv | with_reducible apply State.finish_inv | with_reducible apply State.Good.foldl | (with_reducible intro _ _ _))

theorem execRouteload_inv (q : Fin 32) (slot : Nat) (s : State) (hI : s.Good wq) : Goes wq (execRouteload q slot s) := by
  unfold execRouteload
  repeat' (first | with_reducible assumption | with_reducible apply Goes.next | with_reducible apply State.actRouteload_inv | with_reducible apply State.gatherDesc_inv | with_reducible apply State.withDesc_inv | (with_reducible intro _ _ _))

theorem State.snapDesc_inv (s : State) (q : Nat) (d : DescSt) (hI : s.Good wq) : (State.snapDesc s q d).Good wq := by
  unfold State.snapDesc
  repeat' (first | with_reducible assumption | with_reducible apply State.Good.ite | with_reducible apply State.askSnapshots_inv | with_reducible apply State.finish_inv | with_reducible apply State.keepDesc_inv)

theorem execSnap_inv (q : Fin 32) (slot : Nat) (s : State) (hI : s.Good wq) : Goes wq (execSnap q slot s) := by
  unfold execSnap
  repeat' (first | with_reducible assumption | with_reducible apply Goes.next | with_reducible apply State.snapDesc_inv | with_reducible apply State.withDesc_inv | (with_reducible intro _ _ _))

theorem State.atomicDesc_inv (s : State) (q : Nat) (d : DescSt) (hI : s.Good wq) : (State.atomicDesc s q d).Good wq := by
  unfold State.atomicDesc
  repeat' (first | with_reducible assumption | with_reducible apply State.Good.ite | with_reducible apply State.descIssue_inv | with_reducible apply State.keepDesc_inv | with_reducible apply State.settleDesc_inv)

theorem execAtomicDesc_inv (q : Fin 32) (slot : Nat) (s : State) (hI : s.Good wq) : Goes wq (execAtomicDesc q slot s) := by
  unfold execAtomicDesc
  repeat' (first | with_reducible assumption | with_reducible apply Goes.next | with_reducible apply State.atomicDesc_inv | with_reducible apply State.pump_inv | with_reducible apply State.withDesc_inv | (with_reducible intro _ _ _))

theorem State.markDesc_inv (s : State) (q : Nat) (d : DescSt) (hI : s.Good wq) : (State.markDesc s q d).Good wq := by
  unfold State.markDesc
  repeat' (first | with_reducible assumption | with_reducible apply State.finish_inv | with_reducible apply State.post_inv)

theorem execMark_inv (q : Fin 32) (slot : Nat) (s : State) (hI : s.Good wq) : Goes wq (execMark q slot s) := by
  unfold execMark
  repeat' (first | with_reducible assumption | with_reducible apply Goes.next | with_reducible apply State.markDesc_inv | with_reducible apply State.withDesc_inv | (with_reducible intro _ _ _))

theorem State.completionWrite_inv (s : State) (q : Nat) (hI : s.Good wq) : (State.completionWrite s q).Good wq := by
  unfold State.completionWrite
  repeat' (first | with_reducible assumption | with_reducible apply State.Good.ite | with_reducible apply State.fetchAll_inv | with_reducible apply State.hostWrite_inv | with_reducible apply State.interrupt_inv | with_reducible apply State.setPairSt_inv | split | (with_reducible refine State.Good.mk_of ?_; with_reducible refine State.Good.parts ?_))

theorem execCompletionWrite_inv (q : Fin 32) (s : State) (hI : s.Good wq) : Goes wq (execCompletionWrite q s) := by
  unfold execCompletionWrite
  repeat' (first | with_reducible assumption | with_reducible apply Goes.next | with_reducible apply State.completionWrite_inv)

theorem State.readDoorbells_inv (s : State) (hI : s.Good wq) : (State.readDoorbells s).Good wq := by
  unfold State.readDoorbells
  repeat' (first | with_reducible assumption | with_reducible apply State.hostRead_inv | (with_reducible refine State.Good.mk_of ?_; with_reducible refine State.Good.parts ?_))

theorem State.doorbellPoll_inv (s : State) (bme : Bool) (hI : s.Good wq) : (State.doorbellPoll s bme).Good wq := by
  unfold State.doorbellPoll
  repeat' (first | with_reducible assumption | with_reducible apply State.Good.ite | with_reducible apply State.hbError_inv | with_reducible apply State.readDoorbells_inv | (with_reducible refine State.Good.mk_of ?_; with_reducible refine State.Good.parts ?_))

theorem execDoorbellPoll_inv (bme : Bool) (s : State) (hI : s.Good wq) : Goes wq (execDoorbellPoll bme s) := by
  unfold execDoorbellPoll
  repeat' (first | with_reducible assumption | with_reducible apply Goes.next | with_reducible apply State.doorbellPoll_inv)

theorem State.takeTails_inv (s : State) (b : BitVec 1152) (q : Nat) (hI : s.Good wq) : (State.takeTails s b q).Good wq := by
  unfold State.takeTails
  repeat' (first | with_reducible assumption | with_reducible apply State.Good.ite | with_reducible apply State.post_inv | with_reducible apply State.raise_inv | with_reducible apply State.setPairSt_inv)

theorem State.takeHeads_inv (s : State) (b : BitVec 1152) (hI : s.Good wq) : (State.takeHeads s b).Good wq := by
  unfold State.takeHeads
  repeat' (first | with_reducible assumption | with_reducible apply State.Good.ite | with_reducible apply State.hbError_inv | with_reducible apply State.post_inv | split | (with_reducible refine State.Good.mk_of ?_; with_reducible refine State.Good.parts ?_))

theorem State.heartbeat_inv (s : State) (w : BitVec 32) (hI : s.Good wq) : (State.heartbeat s w).Good wq := by
  unfold State.heartbeat
  repeat' (first | with_reducible assumption | with_reducible apply State.Good.ite | with_reducible apply State.wdKick_inv | split | (with_reducible refine State.Good.mk_of ?_; with_reducible refine State.Good.parts ?_))

theorem State.takeDoorbells_inv (s : State) (blk : Option (BitVec 1152)) (hI : s.Good wq) : (State.takeDoorbells s blk).Good wq := by
  unfold State.takeDoorbells
  repeat' (first | with_reducible assumption | with_reducible apply State.fetchAll_inv | with_reducible apply State.flushEvents_inv | with_reducible apply State.flushLog_inv | with_reducible apply State.forEach_inv | with_reducible apply State.hbError_inv | with_reducible apply State.heartbeat_inv | with_reducible apply State.post_inv | with_reducible apply State.takeHeads_inv | with_reducible apply State.takeTails_inv | (with_reducible intro _ _ _) | split)

theorem State.doorbellRead_inv (s : State) (blk : Option (BitVec 1152)) (hI : s.Good wq) : (State.doorbellRead s blk).Good wq := by
  unfold State.doorbellRead
  repeat' (first | with_reducible assumption | with_reducible apply State.Good.ite | with_reducible apply State.readDoorbells_inv | with_reducible apply State.takeDoorbells_inv | (with_reducible refine State.Good.mk_of ?_; with_reducible refine State.Good.parts ?_))

theorem execDoorbellRead_inv (blk : Option (BitVec 1152)) (s : State) (hI : s.Good wq) : Goes wq (execDoorbellRead blk s) := by
  unfold execDoorbellRead
  repeat' (first | with_reducible assumption | with_reducible apply Goes.next | with_reducible apply State.doorbellRead_inv)

theorem State.qpEnable_inv (s : State) (q : Nat) (hI : s.Good wq) : (State.qpEnable s q).Good wq := by
  unfold State.qpEnable
  repeat' (first | with_reducible assumption | with_reducible apply State.Good.ite | with_reducible apply State.raise_inv | with_reducible apply State.setPairSt_inv)

theorem execQpEnable_inv (q : Fin 32) (s : State) (hI : s.Good wq) : Goes wq (execQpEnable q s) := by
  unfold execQpEnable
  repeat' (first | with_reducible assumption | with_reducible apply Goes.next | with_reducible apply State.qpEnable_inv)

theorem State.ringEnable_inv (s : State) (event : Bool) (hI : s.Good wq) : (State.ringEnable s event).Good wq := by
  unfold State.ringEnable
  repeat' (first | with_reducible assumption | with_reducible apply State.Good.ite | with_reducible apply State.flushEvents_inv | with_reducible apply State.flushLog_inv | with_reducible apply State.raise_inv | (with_reducible refine State.Good.mk_of ?_; with_reducible refine State.Good.parts ?_))

theorem execRingEnable_inv (event : Bool) (s : State) (hI : s.Good wq) : Goes wq (execRingEnable event s) := by
  unfold execRingEnable
  repeat' (first | with_reducible assumption | with_reducible apply Goes.next | with_reducible apply State.ringEnable_inv)

theorem State.bar2WriteFail_inv (s : State) (c : Carriage) (status : Nat) (hI : s.Good wq) : (State.bar2WriteFail s c status).Good wq := by
  unfold State.bar2WriteFail
  repeat' (first | with_reducible assumption | with_reducible apply State.hbError_inv | with_reducible apply State.logEntry_inv)

theorem State.bar2WriteDone_inv (s : State) (c : Carriage) (status : Nat) (hI : s.Good wq) : (State.bar2WriteDone s c status).Good wq := by
  unfold State.bar2WriteDone
  repeat' (first | with_reducible assumption | with_reducible apply State.Good.ite | with_reducible apply State.bar2WriteFail_inv)

theorem State.bar2Finish_inv (s : State) (r : Bar2Read) (hI : s.Good wq) : (State.bar2Finish s r).Good wq := by
  unfold State.bar2Finish
  repeat' (first | with_reducible assumption | with_reducible apply State.Good.ite | with_reducible apply State.hbError_inv | split | (with_reducible refine State.Good.mk_of ?_; with_reducible refine State.Good.parts ?_))

theorem State.bar2Keep_inv (s : State) (r : Bar2Read) (hI : s.Good wq) : (State.bar2Keep s r).Good wq := by
  unfold State.bar2Keep
  repeat' (first | with_reducible assumption | with_reducible apply State.Good.ite | with_reducible apply State.bar2Finish_inv | (with_reducible refine State.Good.mk_of ?_; with_reducible refine State.Good.parts ?_))

theorem State.bar2Answer_inv (s : State) (tag off : Nat) (resp : List Carriage) (hI : s.Good wq) : (State.bar2Answer s tag off resp).Good wq := by
  unfold State.bar2Answer
  repeat' (first | with_reducible assumption | with_reducible apply State.bar2Keep_inv | split)

theorem State.bar2ReadPiece_inv (s : State) (r : Bar2Read) (hI : s.Good wq) : (State.bar2ReadPiece s r).Good wq := by
  unfold State.bar2ReadPiece
  repeat' (first | with_reducible assumption | with_reducible apply State.Good.ite | with_reducible apply State.bar2Answer_inv | with_reducible apply State.bar2Keep_inv | with_reducible apply State.niTake_at | split | (with_reducible refine State.Good.mk_of ?_; with_reducible refine State.Good.parts ?_))

theorem State.bar2One_inv (s : State) (hI : s.Good wq) : (State.bar2One s).Good wq := by
  unfold State.bar2One
  repeat' (first | with_reducible assumption | with_reducible apply State.Good.ite | with_reducible apply State.bar2ReadPiece_inv | with_reducible apply State.bar2WriteDone_inv | with_reducible apply State.niTake_at | split | (with_reducible refine State.Good.mk_of ?_; with_reducible refine State.Good.parts ?_))

theorem State.bar2Pump_inv (s : State) (hI : s.Good wq) : (State.bar2Pump s).Good wq := by
  unfold State.bar2Pump
  repeat' (first | with_reducible assumption | with_reducible apply State.bar2One_inv | with_reducible apply State.Good.foldl | (with_reducible intro _ _ _))

theorem State.bar2Write_inv (s : State) (off : Nat) (bytes : List Byte) (hI : s.Good wq) : (State.bar2Write s off bytes).Good wq := by
  unfold State.bar2Write
  repeat' (first | with_reducible assumption | with_reducible apply State.Good.ite | with_reducible apply State.bar2Pump_inv | with_reducible apply State.hbError_inv | split | (with_reducible refine State.Good.mk_of ?_; with_reducible refine State.Good.parts ?_))

theorem State.holdAccess_inv (s : State) (a : LateAccess) (hI : s.Good wq) : (State.holdAccess s a).Good wq := by
  unfold State.holdAccess
  repeat' (first | with_reducible assumption | (with_reducible refine State.Good.mk_of ?_; with_reducible refine State.Good.parts ?_))

theorem execBar2Write_inv (off : BitVec 36) (bytes : List Byte) (s : State) (hI : s.Good wq) : Goes wq (execBar2Write off bytes s) := by
  unfold execBar2Write
  repeat' (first | with_reducible assumption | with_reducible apply State.Good.ite | with_reducible apply Goes.next | with_reducible apply State.bar2Write_inv | with_reducible apply State.holdAccess_inv)

theorem State.bar2Read_inv (s : State) (off n tag : Nat) (hI : s.Good wq) : (State.bar2Read s off n tag).Good wq := by
  unfold State.bar2Read
  repeat' (first | with_reducible assumption | with_reducible apply State.Good.ite | with_reducible apply State.bar2Pump_inv | with_reducible apply State.hbError_inv | (with_reducible refine State.Good.mk_of ?_; with_reducible refine State.Good.parts ?_))

theorem execBar2Read_inv (off : BitVec 36) (n tag : Nat) (s : State) (hI : s.Good wq) : Goes wq (execBar2Read off n tag s) := by
  unfold execBar2Read
  repeat' (first | with_reducible assumption | with_reducible apply State.Good.ite | with_reducible apply Goes.next | with_reducible apply State.bar2Read_inv | with_reducible apply State.holdAccess_inv)

theorem State.linkTrained_inv (s : State) (rate width : Nat) (hI : s.Good wq) : (State.linkTrained s rate width).Good wq := by
  unfold State.linkTrained
  repeat' (first | with_reducible assumption | with_reducible apply State.forEach_inv | with_reducible apply State.noteLat_inv | with_reducible apply State.put_inv | (with_reducible intro _ _ _))

theorem execLinkTraining_inv (rate : Fin 6) (width : Fin 5) (s : State) (hI : s.Good wq) : Goes wq (execLinkTraining rate width s) := by
  unfold execLinkTraining
  repeat' (first | with_reducible assumption | with_reducible apply Goes.next | with_reducible apply State.linkTrained_inv)

theorem execLinkRetrain_inv (rate : Fin 6) (width : Fin 5) (s : State) (hI : s.Good wq) : Goes wq (execLinkRetrain rate width s) := by
  unfold execLinkRetrain
  repeat' (first | with_reducible assumption | with_reducible apply Goes.next | with_reducible apply State.linkTrained_inv | with_reducible apply State.post_inv)

/-! Machine/MemOps.lean -/

theorem State.arrayWrite_inv (s : State) (f j w : Nat) (c : BmCell) (hI : s.Good wq) : (State.arrayWrite s f j w c).Good wq := by
  unfold State.arrayWrite
  repeat' (first | with_reducible assumption | with_reducible apply State.Good.ite | with_reducible apply State.setQueue_inv | with_reducible apply State.setWord_inv)

theorem State.bufferWord_inv (s : State) (f j w : Nat) (hI : s.Good wq) : (State.bufferWord s f j w).Good wq := by
  unfold State.bufferWord
  repeat' (first | with_reducible assumption | with_reducible apply State.Good.ite | with_reducible apply State.logOpen_inv | with_reducible apply State.put_inv | with_reducible apply State.raise_inv | with_reducible apply State.setQueue_inv)

theorem State.fabricWrite_inv (s : State) (f j w : Nat) (c : BmCell) (hI : s.Good wq) : (State.fabricWrite s f j w c).Good wq := by
  unfold State.fabricWrite
  repeat' (first | with_reducible assumption | with_reducible apply State.arrayWrite_inv | with_reducible apply State.bufferWord_inv)

theorem State.noteError_inv (s : State) (f j w kind src : Nat) (hI : s.Good wq) : (State.noteError s f j w kind src).Good wq := by
  unfold State.noteError
  repeat' (first | with_reducible assumption | with_reducible apply State.setReg_inv)

theorem State.checkRead_inv (s : State) (f j w : Nat) (chk : ReadCheck) (src : ReadFrom) (hI : s.Good wq) : InvAt wq ReadOut.state (State.checkRead s f j w chk src) := by
  unfold State.checkRead
  repeat' (first | with_reducible assumption | with_reducible apply State.Good.ite | with_reducible apply InvAt.readOut | with_reducible apply State.bump_inv | with_reducible apply State.logEntry_inv | with_reducible apply State.noteError_inv | with_reducible apply State.post_inv | with_reducible apply State.see_inv | with_reducible apply State.setFld_inv | with_reducible apply State.setQueue_inv | with_reducible apply State.freeWord_at | split)
theorem State.checkRead_at (s : State) (f j w : Nat) (chk : ReadCheck) (src : ReadFrom) (hI : s.Good wq) : (ReadOut.state (State.checkRead s f j w chk src)).Good wq := InvAt.inv (State.checkRead_inv _ _ _ _ _ _ hI)

theorem State.spineRead_inv (s : State) (f j w : Nat) (chk : ReadCheck) (hI : s.Good wq) : InvAt wq ReadOut.state (State.spineRead s f j w chk) := by
  unfold State.spineRead
  repeat' (first | with_reducible assumption | with_reducible apply InvAt.readOut | with_reducible apply State.checkRead_at | with_reducible apply State.freeWord_at | split)
theorem State.spineRead_at (s : State) (f j w : Nat) (chk : ReadCheck) (hI : s.Good wq) : (ReadOut.state (State.spineRead s f j w chk)).Good wq := InvAt.inv (State.spineRead_inv _ _ _ _ _ hI)

theorem State.spineWrite_inv (s : State) (f j w : Nat) (c : BmCell) (hI : s.Good wq) : (State.spineWrite s f j w c).Good wq := by
  unfold State.spineWrite
  repeat' (first | with_reducible assumption | with_reducible apply State.arrayWrite_inv | with_reducible apply State.setQueue_inv | split)

theorem State.queueOvf_inv (s : State) (f j : Nat) (hI : s.Good wq) : (State.queueOvf s f j).Good wq := by
  unfold State.queueOvf
  repeat' (first | with_reducible assumption | with_reducible apply State.Good.ite | with_reducible apply State.post_inv | with_reducible apply State.raise_inv)

theorem State.writeAtWp_inv (s : State) (f j : Nat) (put : State → Nat → Nat → Nat → BmCell → State) (cs : List BmCell) (hI : s.Good wq) (hput : ∀ x0 x1 x2 x3 x4, x0.Good wq → (put x0 x1 x2 x3 x4).Good wq) : (State.writeAtWp s f j put cs).Good wq := by
  unfold State.writeAtWp
  repeat' (first | with_reducible assumption | with_reducible apply State.setQueue_inv | with_reducible apply State.Good.foldl | with_reducible apply hput | (with_reducible intro _ _ _))

theorem pushPut_inv (spine fabric : Bool) (s : State) (f j w : Nat) (c : BmCell) (hI : s.Good wq) :
    (pushPut spine fabric s f j w c).Good wq := by
  unfold pushPut
  split
  · exact State.spineWrite_inv _ _ _ _ _ hI
  · split
    · exact State.fabricWrite_inv _ _ _ _ _ hI
    · exact State.arrayWrite_inv _ _ _ _ _ hI

theorem State.countPost_inv (s : State) (f j : Nat) (st : Nat × Nat) (hI : s.Good wq) : (State.countPost s f j st).Good wq := by
  unfold State.countPost
  repeat' (first | with_reducible assumption | with_reducible apply State.Good.ite | with_reducible apply State.setQueue_inv | split | (with_reducible refine State.Good.mk_of ?_; with_reducible refine State.Good.parts ?_))

theorem State.pushFifo_inv (s : State) (f j t : Nat) (spine : Bool) (data : Word) (tag : BitVec 4) (hI : s.Good wq) : (State.pushFifo s f j t spine data tag).Good wq := by
  unfold State.pushFifo
  repeat' (first | with_reducible assumption | (extract_lets +onlyGivenNames zz; first | (refine State.Good.gen wq zz (fun _ => ?_) ?_; clear_value zz; rotate_left; subst zz; rotate_right) | (refine State.Good.genFst wq zz (fun _ => ?_) ?_; clear_value zz; rotate_left; subst zz; rotate_right) | (refine State.Good.genSnd wq zz (fun _ => ?_) ?_; clear_value zz; rotate_left; subst zz; rotate_right) | (refine State.Good.genLine wq zz (fun _ => ?_) ?_; clear_value zz; rotate_left; subst zz; rotate_right) | (refine State.Good.genMeta wq zz (fun _ => ?_) ?_; clear_value zz; rotate_left; subst zz; rotate_right) | (refine State.Good.genRes wq zz (fun _ => ?_) ?_; clear_value zz; rotate_left; subst zz; rotate_right) | (refine State.Good.genWrite wq zz (fun _ => ?_) ?_; clear_value zz; rotate_left; subst zz; rotate_right) | (refine State.Good.genIngest wq zz (fun _ => ?_) ?_; clear_value zz; rotate_left; subst zz; rotate_right) | (refine State.Good.genOut wq zz (fun _ => ?_) ?_; clear_value zz; rotate_left; subst zz; rotate_right) | (refine State.Good.genBuild wq zz (fun _ => ?_) ?_; clear_value zz; rotate_left; subst zz; rotate_right) | (refine State.Good.genTaken wq zz (fun _ => ?_) ?_; clear_value zz; rotate_left; subst zz; rotate_right) | (refine State.Good.genMode wq zz (fun _ _ => ?_) ?_ ?_; clear_value zz; rotate_left; subst zz; rotate_left; subst zz; rotate_left) | (have := State.Good.isFun zz; clear this; subst zz) | clear_value zz) | with_reducible apply State.Good.ite | with_reducible apply State.queueOvf_inv | with_reducible apply State.writeAtWp_inv | with_reducible apply pushPut_inv | with_reducible apply State.Good.iteFst | with_reducible apply State.Good.iteSnd | with_reducible apply State.Good.iteLine | with_reducible apply State.Good.iteMeta | (with_reducible intro _ _ _) | (with_reducible intro _ _) | (show Mode.isBase _ = true; first | exact rfl | exact State.Good.base (by assumption) | exact State.Good.before (by assumption) | (with_reducible refine ModeSt.withPending_base ?_) | (with_reducible refine ModeSt.withPending_before ?_) | (with_reducible refine ModeSt.withBack_base ?_) | (with_reducible refine ModeSt.withBack_before ?_)) | split | (with_reducible refine State.Good.mk_of ?_; first | with_reducible refine State.Good.parts ?_ | refine State.Good.fromReset ?_ | refine State.Good.sameBase ?_ rfl rfl | refine GoodOf.filterMem _ (State.Good.parts ?_) | refine GoodOf.filterRegs _ (State.Good.parts ?_) | refine GoodOf.fillMem _ _ _ (State.Good.parts ?_) | refine GoodOf.insertRegs _ (State.Good.parts ?_) | refine State.Good.newBase ?_ ?_ ?_))

theorem State.pushRing_inv (s : State) (f j t : Nat) (st : Nat × Nat) (spine : Bool) (data : Word) (tag : BitVec 4) (hI : s.Good wq) : (State.pushRing s f j t st spine data tag).Good wq := by
  unfold State.pushRing
  repeat' (first | with_reducible assumption | (extract_lets +onlyGivenNames zz; first | (refine State.Good.gen wq zz (fun _ => ?_) ?_; clear_value zz; rotate_left; subst zz; rotate_right) | clear_value zz) | with_reducible apply State.Good.ite | with_reducible apply State.countPost_inv | with_reducible apply State.queueOvf_inv | with_reducible apply State.raise_inv | with_reducible apply State.setQueue_inv | with_reducible apply State.writeAtWp_inv | with_reducible apply pushPut_inv)

theorem State.pushMail_inv (s : State) (f j t : Nat) (spine : Bool) (data : Word) (tag : BitVec 4) (hI : s.Good wq) : (State.pushMail s f j t spine data tag).Good wq := by
  unfold State.pushMail
  repeat' (first | with_reducible assumption | (extract_lets +onlyGivenNames zz; first | (refine State.Good.gen wq zz (fun _ => ?_) ?_; clear_value zz; rotate_left; subst zz; rotate_right) | clear_value zz) | with_reducible apply State.Good.ite | with_reducible apply State.queueOvf_inv | with_reducible apply State.setQueue_inv | with_reducible apply State.writeAtWp_inv | with_reducible apply pushPut_inv)

theorem State.pushWord_inv (s : State) (f j t : Nat) (st : Nat × Nat) (spine : Bool) (data : Word) (tag : BitVec 4) (hI : s.Good wq) : (State.pushWord s f j t st spine data tag).Good wq := by
  unfold State.pushWord
  repeat' (first | with_reducible assumption | with_reducible apply State.pushFifo_inv | with_reducible apply State.pushMail_inv | with_reducible apply State.pushRing_inv | split)

theorem State.advanceRp_inv (s : State) (f j : Nat) (hI : s.Good wq) : (State.advanceRp s f j).Good wq := by
  unfold State.advanceRp
  repeat' (first | with_reducible assumption | with_reducible apply State.setQueue_inv)

theorem State.rewindQueue_inv (s : State) (f j : Nat) (hI : s.Good wq) : (State.rewindQueue s f j).Good wq := by
  unfold State.rewindQueue
  repeat' (first | with_reducible assumption | with_reducible apply State.Good.ite | with_reducible apply State.setQueue_inv | with_reducible apply State.setWord_inv | with_reducible apply State.Good.foldl | (with_reducible intro _ _ _))

theorem State.rewindFabric_inv (s : State) (f : Nat) (hI : s.Good wq) : (State.rewindFabric s f).Good wq := by
  unfold State.rewindFabric
  repeat' (first | with_reducible assumption | with_reducible apply State.forEach_inv | with_reducible apply State.rewindQueue_inv | (with_reducible intro _ _ _) | (with_reducible refine State.Good.mk_of ?_; with_reducible refine State.Good.parts ?_))

theorem State.discardHeld_inv (s : State) (f : Nat) (hI : s.Good wq) : (State.discardHeld s f).Good wq := by
  unfold State.discardHeld
  repeat' (first | with_reducible assumption | with_reducible apply State.forEach_inv | with_reducible apply State.setNi_inv | (with_reducible intro _ _ _))

theorem State.failFrame_inv (s : State) (f : Nat) (hI : s.Good wq) : (State.failFrame s f).Good wq := by
  unfold State.failFrame
  repeat' (first | with_reducible assumption | with_reducible apply State.Good.ite | with_reducible apply State.bump_inv | with_reducible apply State.discardHeld_inv | with_reducible apply State.logEntry_inv | with_reducible apply State.post_inv | with_reducible apply State.raise_inv | with_reducible apply State.setFld_inv)

theorem State.detect_inv (s : State) (f : Nat) (src : ReplaySource) (t : Nat) (hI : s.Good wq) : (State.detect s f src t).Good wq := by
  unfold State.detect
  repeat' (first | with_reducible assumption | with_reducible apply State.Good.ite | with_reducible apply State.bump_inv | with_reducible apply State.clear_inv | with_reducible apply State.failFrame_inv | with_reducible apply State.logEntry_inv | with_reducible apply State.post_inv | with_reducible apply State.rewindFabric_inv | with_reducible apply State.rewindNis_inv | with_reducible apply State.setFld_inv)

theorem State.detectBeforeDone_inv (s : State) (f : Nat) (src : ReplaySource) (t : Nat) (hI : s.Good wq) : (State.detectBeforeDone s f src t).Good wq := by
  unfold State.detectBeforeDone
  repeat' (first | with_reducible assumption | with_reducible apply State.Good.ite | with_reducible apply State.detect_inv)

/-! Machine/BlockMem.lean -/

theorem State.memCycle_inv (s : State) (f j : Nat) (st : Nat × Nat) (hI : s.Good wq) : (State.memCycle s f j st).Good wq := by
  unfold State.memCycle
  repeat' (first | with_reducible assumption | with_reducible apply State.Good.ite | with_reducible apply State.setQueue_inv)

theorem State.takeSlot_inv (s : State) (f j : Nat) (st : Nat × Nat) (hI : s.Good wq) : (State.takeSlot s f j st).Good wq := by
  unfold State.takeSlot
  repeat' (first | with_reducible assumption | with_reducible apply State.setQueue_inv)

theorem State.refreshSt_inv (s : State) (f j : Nat) (hI : s.Good wq) : (State.refreshSt s f j).Good wq := by
  unfold State.refreshSt
  repeat' (first | with_reducible assumption | with_reducible apply State.setQueue_inv)

theorem State.portBegin_inv (s : State) (o : BmOp) (st : Nat × Nat) (idle : Bool) (hI : s.Good wq) : (State.portBegin s o st idle).Good wq := by
  unfold State.portBegin
  repeat' (first | with_reducible assumption | with_reducible apply State.Good.ite | with_reducible apply State.memCycle_inv | with_reducible apply State.setQueue_inv | with_reducible apply State.takeSlot_inv)

theorem State.portEnd_inv (s : State) (o : BmOp) (r : PortOut) (hI : s.Good wq) : (State.portEnd s o r).Good wq := by
  unfold State.portEnd
  repeat' (first | with_reducible assumption | with_reducible apply State.setQueue_inv)

theorem State.noteWrites_inv (s : State) (o : BmOp) (ws : List Nat) (hI : s.Good wq) : (State.noteWrites s o ws).Good wq := by
  unfold State.noteWrites
  repeat' (first | with_reducible assumption | with_reducible apply State.Good.ite | with_reducible apply State.raise_inv | with_reducible apply State.setQueue_inv | split)

theorem State.portTurn_inv (s : State) (o : BmOp) (hI : s.Good wq) : (State.portTurn s o).Good wq := by
  unfold State.portTurn
  repeat' (first | with_reducible assumption | with_reducible apply State.comeTo_inv)

theorem State.port_inv (s : State) (o : BmOp) (fits : PortIn → Bool) (g : PortIn → State → State × PortOut) (hI : s.Good wq) (hg : ∀ y0 x0, x0.Good wq → (g y0 x0).1.Good wq) : (State.port s o fits g).Good wq := by
  unfold State.port
  repeat' (first | with_reducible assumption | (extract_lets +onlyGivenNames zz; first | (refine State.Good.gen wq zz (fun _ => ?_) ?_; clear_value zz; rotate_left; subst zz; rotate_right) | (refine State.Good.genFst wq zz (fun _ => ?_) ?_; clear_value zz; rotate_left; subst zz; rotate_right) | clear_value zz) | with_reducible apply State.Good.ite | with_reducible apply State.detectBeforeDone_inv | with_reducible apply State.portBegin_inv | with_reducible apply State.portEnd_inv | with_reducible apply State.portTurn_inv | with_reducible apply hg | split)

theorem State.badCmd_inv (s : State) (o : BmOp) (hI : s.Good wq) : InvAt wq Prod.fst (State.badCmd s o) := by
  unfold State.badCmd
  repeat' (first | with_reducible assumption | with_reducible apply InvAt.fst | with_reducible apply State.raise_inv)
theorem State.badCmd_at (s : State) (o : BmOp) (hI : s.Good wq) : (Prod.fst (State.badCmd s o)).Good wq := InvAt.inv (State.badCmd_inv _ _ hI)

theorem State.portRead_inv (s : State) (o : BmOp) (w : Nat) (chk : ReadCheck) (hI : s.Good wq) : InvAt wq Prod.fst (State.portRead s o w chk) := by
  unfold State.portRead
  repeat' (first | with_reducible assumption | (extract_lets +onlyGivenNames zz; (refine State.Good.genOut wq zz (fun _ => ?_) ?_; clear_value zz; rotate_left; subst zz; rotate_right)) | with_reducible apply InvAt.fst | with_reducible apply State.checkRead_at)
theorem State.portRead_at (s : State) (o : BmOp) (w : Nat) (chk : ReadCheck) (hI : s.Good wq) : (Prod.fst (State.portRead s o w chk)).Good wq := InvAt.inv (State.portRead_inv _ _ _ _ hI)

theorem State.bmIdle_inv (s : State) (o : BmOp) (hI : s.Good wq) : (State.bmIdle s o).Good wq := by
  unfold State.bmIdle
  repeat' (first | with_reducible assumption | with_reducible apply State.port_inv | with_reducible apply State.badCmd_at | with_reducible apply State.Good.iteFst | (with_reducible intro _ _ _))

theorem execIdle_inv (o : BmOp) (s : State) (hI : s.Good wq) : Goes wq (execIdle o s) := by
  unfold execIdle
  repeat' (first | with_reducible assumption | with_reducible apply Goes.next | with_reducible apply State.bmIdle_inv)

theorem State.bmRead_inv (s : State) (o : BmOp) (chk : ReadCheck) (hI : s.Good wq) : (State.bmRead s o chk).Good wq := by
  unfold State.bmRead
  repeat' (first | with_reducible assumption | (extract_lets +onlyGivenNames zz; (refine State.Good.genFst wq zz (fun _ => ?_) ?_; clear_value zz; rotate_left; subst zz; rotate_right)) | with_reducible apply State.port_inv | with_reducible apply State.portRead_at | (with_reducible intro _ _ _))

theorem execRead_inv (o : BmOp) (chk : ReadCheck) (s : State) (hI : s.Good wq) : Goes wq (execRead o chk s) := by
  unfold execRead
  repeat' (first | with_reducible assumption | with_reducible apply Goes.next | with_reducible apply State.bmRead_inv)

theorem State.bmWrite_inv (s : State) (o : BmOp) (hI : s.Good wq) : (State.bmWrite s o).Good wq := by
  unfold State.bmWrite
  repeat' (first | with_reducible assumption | (extract_lets +onlyGivenNames zz; (refine State.Good.gen wq zz (fun _ => ?_) ?_; clear_value zz; rotate_left; subst zz; rotate_right)) | with_reducible apply State.fabricWrite_inv | with_reducible apply State.noteWrites_inv | with_reducible apply State.port_inv | (with_reducible intro _ _ _))

theorem execWrite_inv (o : BmOp) (s : State) (hI : s.Good wq) : Goes wq (execWrite o s) := by
  unfold execWrite
  repeat' (first | with_reducible assumption | with_reducible apply Goes.next | with_reducible apply State.bmWrite_inv)

theorem State.bmPush_inv (s : State) (o : BmOp) (hI : s.Good wq) : (State.bmPush s o).Good wq := by
  unfold State.bmPush
  repeat' (first | with_reducible assumption | (extract_lets +onlyGivenNames zz; first | (refine State.Good.gen wq zz (fun _ => ?_) ?_; clear_value zz; rotate_left; subst zz; rotate_right) | clear_value zz) | with_reducible apply State.noteWrites_inv | with_reducible apply State.port_inv | with_reducible apply State.pushWord_inv | with_reducible apply State.badCmd_at | with_reducible apply State.Good.iteFst | (with_reducible intro _ _ _))

theorem execPush_inv (o : BmOp) (s : State) (hI : s.Good wq) : Goes wq (execPush o s) := by
  unfold execPush
  repeat' (first | with_reducible assumption | with_reducible apply Goes.next | with_reducible apply State.bmPush_inv)

theorem State.bmHead_inv (s : State) (o : BmOp) (chk : ReadCheck) (pop : Bool) (hI : s.Good wq) : (State.bmHead s o chk pop).Good wq := by
  unfold State.bmHead
  repeat' (first | with_reducible assumption | (extract_lets +onlyGivenNames zz; first | (refine State.Good.genFst wq zz (fun _ => ?_) ?_; clear_value zz; rotate_left; subst zz; rotate_right) | clear_value zz) | with_reducible apply State.Good.ite | with_reducible apply State.advanceRp_inv | with_reducible apply State.port_inv | with_reducible apply State.raise_inv | with_reducible apply State.badCmd_at | with_reducible apply State.portRead_at | with_reducible apply State.Good.iteFst | (with_reducible intro _ _ _))

theorem execPop_inv (o : BmOp) (chk : ReadCheck) (s : State) (hI : s.Good wq) : Goes wq (execPop o chk s) := by
  unfold execPop
  repeat' (first | with_reducible assumption | with_reducible apply Goes.next | with_reducible apply State.bmHead_inv)

theorem execPeek_inv (o : BmOp) (chk : ReadCheck) (s : State) (hI : s.Good wq) : Goes wq (execPeek o chk s) := by
  unfold execPeek
  repeat' (first | with_reducible assumption | with_reducible apply Goes.next | with_reducible apply State.bmHead_inv)

theorem State.bmAtomic_inv (s : State) (o : BmOp) (aop : Nat) (chk : ReadCheck) (hI : s.Good wq) : (State.bmAtomic s o aop chk).Good wq := by
  unfold State.bmAtomic
  repeat' (first | with_reducible assumption | (extract_lets +onlyGivenNames zz; first | (refine State.Good.gen wq zz (fun _ => ?_) ?_; clear_value zz; rotate_left; subst zz; rotate_right) | (refine State.Good.genFst wq zz (fun _ => ?_) ?_; clear_value zz; rotate_left; subst zz; rotate_right)) | with_reducible apply State.fabricWrite_inv | with_reducible apply State.noteWrites_inv | with_reducible apply State.port_inv | with_reducible apply State.portRead_at | with_reducible apply State.Good.iteFst | (with_reducible intro _ _ _))

theorem execFetchAdd_inv (o : BmOp) (chk : ReadCheck) (s : State) (hI : s.Good wq) : Goes wq (execFetchAdd o chk s) := by
  unfold execFetchAdd
  repeat' (first | with_reducible assumption | with_reducible apply Goes.next | with_reducible apply State.bmAtomic_inv)

theorem execSwap_inv (o : BmOp) (chk : ReadCheck) (s : State) (hI : s.Good wq) : Goes wq (execSwap o chk s) := by
  unfold execSwap
  repeat' (first | with_reducible assumption | with_reducible apply Goes.next | with_reducible apply State.bmAtomic_inv)

theorem execFetchAnd_inv (o : BmOp) (chk : ReadCheck) (s : State) (hI : s.Good wq) : Goes wq (execFetchAnd o chk s) := by
  unfold execFetchAnd
  repeat' (first | with_reducible assumption | with_reducible apply Goes.next | with_reducible apply State.bmAtomic_inv)

theorem execFetchOr_inv (o : BmOp) (chk : ReadCheck) (s : State) (hI : s.Good wq) : Goes wq (execFetchOr o chk s) := by
  unfold execFetchOr
  repeat' (first | with_reducible assumption | with_reducible apply Goes.next | with_reducible apply State.bmAtomic_inv)

theorem execFetchMax_inv (o : BmOp) (chk : ReadCheck) (s : State) (hI : s.Good wq) : Goes wq (execFetchMax o chk s) := by
  unfold execFetchMax
  repeat' (first | with_reducible assumption | with_reducible apply Goes.next | with_reducible apply State.bmAtomic_inv)

theorem State.bmTrig_inv (s : State) (o : BmOp) (hI : s.Good wq) : (State.bmTrig s o).Good wq := by
  unfold State.bmTrig
  repeat' (first | with_reducible assumption | (extract_lets +onlyGivenNames zz; first | (refine State.Good.gen wq zz (fun _ => ?_) ?_; clear_value zz; rotate_left; subst zz; rotate_right) | (refine State.Good.genFst wq zz (fun _ => ?_) ?_; clear_value zz; rotate_left; subst zz; rotate_right) | (refine State.Good.genSnd wq zz (fun _ => ?_) ?_; clear_value zz; rotate_left; subst zz; rotate_right) | (refine State.Good.genLine wq zz (fun _ => ?_) ?_; clear_value zz; rotate_left; subst zz; rotate_right) | (refine State.Good.genMeta wq zz (fun _ => ?_) ?_; clear_value zz; rotate_left; subst zz; rotate_right) | (refine State.Good.genRes wq zz (fun _ => ?_) ?_; clear_value zz; rotate_left; subst zz; rotate_right) | (refine State.Good.genWrite wq zz (fun _ => ?_) ?_; clear_value zz; rotate_left; subst zz; rotate_right) | (refine State.Good.genIngest wq zz (fun _ => ?_) ?_; clear_value zz; rotate_left; subst zz; rotate_right) | (refine State.Good.genOut wq zz (fun _ => ?_) ?_; clear_value zz; rotate_left; subst zz; rotate_right) | (refine State.Good.genBuild wq zz (fun _ => ?_) ?_; clear_value zz; rotate_left; subst zz; rotate_right) | (refine State.Good.genTaken wq zz (fun _ => ?_) ?_; clear_value zz; rotate_left; subst zz; rotate_right) | (refine State.Good.genMode wq zz (fun _ _ => ?_) ?_ ?_; clear_value zz; rotate_left; subst zz; rotate_left; subst zz; rotate_left) | (have := State.Good.isFun zz; clear this; subst zz) | clear_value zz) | with_reducible apply State.Good.ite | with_reducible apply State.badCmd_inv | with_reducible apply State.port_inv | with_reducible apply State.post_inv | with_reducible apply State.setQueue_inv | with_reducible apply State.badCmd_at | (refine State.Good.fst (State.badCmd_at _ _ ?_) (by with_reducible assumption)) | with_reducible apply State.Good.iteFst | with_reducible apply State.Good.iteSnd | with_reducible apply State.Good.iteLine | with_reducible apply State.Good.iteMeta | (with_reducible intro _ _ _) | (with_reducible intro _ _) | (show Mode.isBase _ = true; first | exact rfl | exact State.Good.base (by assumption) | exact State.Good.before (by assumption) | (with_reducible refine ModeSt.withPending_base ?_) | (with_reducible refine ModeSt.withPending_before ?_) | (with_reducible refine ModeSt.withBack_base ?_) | (with_reducible refine ModeSt.withBack_before ?_)) | split | (with_reducible refine State.Good.mk_of ?_; first | with_reducible refine State.Good.parts ?_ | refine State.Good.fromReset ?_ | refine State.Good.sameBase ?_ rfl rfl | refine GoodOf.filterMem _ (State.Good.parts ?_) | refine GoodOf.filterRegs _ (State.Good.parts ?_) | refine GoodOf.fillMem _ _ _ (State.Good.parts ?_) | refine GoodOf.insertRegs _ (State.Good.parts ?_) | refine State.Good.newBase ?_ ?_ ?_) | (with_reducible refine InvAt.inv (π := Prod.fst) ?_) | with_reducible apply InvAt.fst | with_reducible apply InvAt.ite)

theorem execTrig_inv (o : BmOp) (s : State) (hI : s.Good wq) : Goes wq (execTrig o s) := by
  unfold execTrig
  repeat' (first | with_reducible assumption | with_reducible apply Goes.next | with_reducible apply State.bmTrig_inv)

theorem State.bmResetq_inv (s : State) (o : BmOp) (hI : s.Good wq) : (State.bmResetq s o).Good wq := by
  unfold State.bmResetq
  repeat' (first | with_reducible assumption | (extract_lets +onlyGivenNames zz; first | (refine State.Good.gen wq zz (fun _ => ?_) ?_; clear_value zz; rotate_left; subst zz; rotate_right) | (refine State.Good.genFst wq zz (fun _ => ?_) ?_; clear_value zz; rotate_left; subst zz; rotate_right) | (refine State.Good.genSnd wq zz (fun _ => ?_) ?_; clear_value zz; rotate_left; subst zz; rotate_right) | (refine State.Good.genLine wq zz (fun _ => ?_) ?_; clear_value zz; rotate_left; subst zz; rotate_right) | (refine State.Good.genMeta wq zz (fun _ => ?_) ?_; clear_value zz; rotate_left; subst zz; rotate_right) | (refine State.Good.genRes wq zz (fun _ => ?_) ?_; clear_value zz; rotate_left; subst zz; rotate_right) | (refine State.Good.genWrite wq zz (fun _ => ?_) ?_; clear_value zz; rotate_left; subst zz; rotate_right) | (refine State.Good.genIngest wq zz (fun _ => ?_) ?_; clear_value zz; rotate_left; subst zz; rotate_right) | (refine State.Good.genOut wq zz (fun _ => ?_) ?_; clear_value zz; rotate_left; subst zz; rotate_right) | (refine State.Good.genBuild wq zz (fun _ => ?_) ?_; clear_value zz; rotate_left; subst zz; rotate_right) | (refine State.Good.genTaken wq zz (fun _ => ?_) ?_; clear_value zz; rotate_left; subst zz; rotate_right) | (refine State.Good.genMode wq zz (fun _ _ => ?_) ?_ ?_; clear_value zz; rotate_left; subst zz; rotate_left; subst zz; rotate_left) | (have := State.Good.isFun zz; clear this; subst zz) | clear_value zz) | with_reducible apply State.Good.ite | with_reducible apply State.badCmd_inv | with_reducible apply State.port_inv | with_reducible apply State.post_inv | with_reducible apply State.setQueue_inv | with_reducible apply State.badCmd_at | (refine State.Good.fst (State.badCmd_at _ _ ?_) (by with_reducible assumption)) | with_reducible apply State.Good.iteFst | with_reducible apply State.Good.iteSnd | with_reducible apply State.Good.iteLine | with_reducible apply State.Good.iteMeta | (with_reducible intro _ _ _) | (with_reducible intro _ _) | (show Mode.isBase _ = true; first | exact rfl | exact State.Good.base (by assumption) | exact State.Good.before (by assumption) | (with_reducible refine ModeSt.withPending_base ?_) | (with_reducible refine ModeSt.withPending_before ?_) | (with_reducible refine ModeSt.withBack_base ?_) | (with_reducible refine ModeSt.withBack_before ?_)) | split | (with_reducible refine State.Good.mk_of ?_; first | with_reducible refine State.Good.parts ?_ | refine State.Good.fromReset ?_ | refine State.Good.sameBase ?_ rfl rfl | refine GoodOf.filterMem _ (State.Good.parts ?_) | refine GoodOf.filterRegs _ (State.Good.parts ?_) | refine GoodOf.fillMem _ _ _ (State.Good.parts ?_) | refine GoodOf.insertRegs _ (State.Good.parts ?_) | refine State.Good.newBase ?_ ?_ ?_) | (with_reducible refine InvAt.inv (π := Prod.fst) ?_) | with_reducible apply InvAt.fst | with_reducible apply InvAt.ite)

theorem execResetq_inv (o : BmOp) (s : State) (hI : s.Good wq) : Goes wq (execResetq o s) := by
  unfold execResetq
  repeat' (first | with_reducible assumption | with_reducible apply Goes.next | with_reducible apply State.bmResetq_inv)

theorem State.inSlot_inv (s : State) (f j cyc : Nat) (g : State → State) (hI : s.Good wq) (hg : ∀ x0, x0.Good wq → (g x0).Good wq) : (State.inSlot s f j cyc g).Good wq := by
  unfold State.inSlot
  repeat' (first | with_reducible assumption | (extract_lets +onlyGivenNames zz; first | (refine State.Good.gen wq zz (fun _ => ?_) ?_; clear_value zz; rotate_left; subst zz; rotate_right) | (refine State.Good.genFst wq zz (fun _ => ?_) ?_; clear_value zz; rotate_left; subst zz; rotate_right) | (refine State.Good.genSnd wq zz (fun _ => ?_) ?_; clear_value zz; rotate_left; subst zz; rotate_right) | (refine State.Good.genLine wq zz (fun _ => ?_) ?_; clear_value zz; rotate_left; subst zz; rotate_right) | (refine State.Good.genMeta wq zz (fun _ => ?_) ?_; clear_value zz; rotate_left; subst zz; rotate_right) | (refine State.Good.genRes wq zz (fun _ => ?_) ?_; clear_value zz; rotate_left; subst zz; rotate_right) | (refine State.Good.genWrite wq zz (fun _ => ?_) ?_; clear_value zz; rotate_left; subst zz; rotate_right) | (refine State.Good.genIngest wq zz (fun _ => ?_) ?_; clear_value zz; rotate_left; subst zz; rotate_right) | (refine State.Good.genOut wq zz (fun _ => ?_) ?_; clear_value zz; rotate_left; subst zz; rotate_right) | (refine State.Good.genBuild wq zz (fun _ => ?_) ?_; clear_value zz; rotate_left; subst zz; rotate_right) | (refine State.Good.genTaken wq zz (fun _ => ?_) ?_; clear_value zz; rotate_left; subst zz; rotate_right) | (refine State.Good.genMode wq zz (fun _ _ => ?_) ?_ ?_; clear_value zz; rotate_left; subst zz; rotate_left; subst zz; rotate_left) | (have := State.Good.isFun zz; clear this; subst zz) | clear_value zz) | with_reducible apply State.Good.ite | with_reducible apply State.memCycle_inv | with_reducible apply State.refreshSt_inv | with_reducible apply State.takeSlot_inv | with_reducible apply hg | with_reducible apply State.Good.iteFst | with_reducible apply State.Good.iteSnd | with_reducible apply State.Good.iteLine | with_reducible apply State.Good.iteMeta | (with_reducible intro _ _ _) | (with_reducible intro _ _) | (show Mode.isBase _ = true; first | exact rfl | exact State.Good.base (by assumption) | exact State.Good.before (by assumption) | (with_reducible refine ModeSt.withPending_base ?_) | (with_reducible refine ModeSt.withPending_before ?_) | (with_reducible refine ModeSt.withBack_base ?_) | (with_reducible refine ModeSt.withBack_before ?_)) | split | (with_reducible refine State.Good.mk_of ?_; first | with_reducible refine State.Good.parts ?_ | refine State.Good.fromReset ?_ | refine State.Good.sameBase ?_ rfl rfl | refine GoodOf.filterMem _ (State.Good.parts ?_) | refine GoodOf.filterRegs _ (State.Good.parts ?_) | refine GoodOf.fillMem _ _ _ (State.Good.parts ?_) | refine GoodOf.insertRegs _ (State.Good.parts ?_) | refine State.Good.newBase ?_ ?_ ?_))

theorem State.writeBack_inv (s : State) (f j cyc : Nat) (hI : s.Good wq) : (State.writeBack s f j cyc).Good wq := by
  unfold State.writeBack
  repeat' (first | with_reducible assumption | with_reducible apply State.Good.ite | with_reducible apply State.arrayWrite_inv | with_reducible apply State.inSlot_inv | (with_reducible intro _ _) | split)

theorem execWriteBack_inv (f : FieldNo) (j : Fin 192) (cyc : Nat) (s : State) (hI : s.Good wq) : Goes wq (execWriteBack f j cyc s) := by
  unfold execWriteBack
  repeat' (first | with_reducible assumption | with_reducible apply Goes.next | with_reducible apply State.writeBack_inv)

theorem State.finishJob_inv (s : State) (f j : Nat) (b : SpineJob) (pkt : List Carriage) (hI : s.Good wq) : (State.finishJob s f j b pkt).Good wq := by
  unfold State.finishJob
  repeat' (first | with_reducible assumption | (extract_lets +onlyGivenNames zz; first | (refine State.Good.gen wq zz (fun _ => ?_) ?_; clear_value zz; rotate_left; subst zz; rotate_right) | clear_value zz) | with_reducible apply State.Good.ite | with_reducible apply State.reply_inv | with_reducible apply State.setNi_inv | with_reducible apply State.setQueue_inv)

theorem State.endJob_inv (s : State) (f j : Nat) (b : SpineJob) (hI : s.Good wq) : (State.endJob s f j b).Good wq := by
  unfold State.endJob
  repeat' (first | with_reducible assumption | with_reducible apply State.finishJob_inv)

theorem State.nextWord_inv (s : State) (f j : Nat) (b : SpineJob) (hI : s.Good wq) : (State.nextWord s f j b).Good wq := by
  unfold State.nextWord
  repeat' (first | with_reducible assumption | (extract_lets +onlyGivenNames zz; first | (refine State.Good.gen wq zz (fun _ => ?_) ?_; clear_value zz; rotate_left; subst zz; rotate_right) | (refine State.Good.genFst wq zz (fun _ => ?_) ?_; clear_value zz; rotate_left; subst zz; rotate_right) | (refine State.Good.genSnd wq zz (fun _ => ?_) ?_; clear_value zz; rotate_left; subst zz; rotate_right) | (refine State.Good.genLine wq zz (fun _ => ?_) ?_; clear_value zz; rotate_left; subst zz; rotate_right) | (refine State.Good.genMeta wq zz (fun _ => ?_) ?_; clear_value zz; rotate_left; subst zz; rotate_right) | (refine State.Good.genRes wq zz (fun _ => ?_) ?_; clear_value zz; rotate_left; subst zz; rotate_right) | (refine State.Good.genWrite wq zz (fun _ => ?_) ?_; clear_value zz; rotate_left; subst zz; rotate_right) | (refine State.Good.genIngest wq zz (fun _ => ?_) ?_; clear_value zz; rotate_left; subst zz; rotate_right) | (refine State.Good.genOut wq zz (fun _ => ?_) ?_; clear_value zz; rotate_left; subst zz; rotate_right) | (refine State.Good.genBuild wq zz (fun _ => ?_) ?_; clear_value zz; rotate_left; subst zz; rotate_right) | (refine State.Good.genTaken wq zz (fun _ => ?_) ?_; clear_value zz; rotate_left; subst zz; rotate_right) | (refine State.Good.genMode wq zz (fun _ _ => ?_) ?_ ?_; clear_value zz; rotate_left; subst zz; rotate_left; subst zz; rotate_left) | (have := State.Good.isFun zz; clear this; subst zz) | clear_value zz) | with_reducible apply State.Good.ite | with_reducible apply State.endJob_inv | with_reducible apply State.setQueue_inv | with_reducible apply State.Good.iteFst | with_reducible apply State.Good.iteSnd | with_reducible apply State.Good.iteLine | with_reducible apply State.Good.iteMeta | (with_reducible intro _ _ _) | (with_reducible intro _ _) | (show Mode.isBase _ = true; first | exact rfl | exact State.Good.base (by assumption) | exact State.Good.before (by assumption) | (with_reducible refine ModeSt.withPending_base ?_) | (with_reducible refine ModeSt.withPending_before ?_) | (with_reducible refine ModeSt.withBack_base ?_) | (with_reducible refine ModeSt.withBack_before ?_)) | split | (with_reducible refine State.Good.mk_of ?_; first | with_reducible refine State.Good.parts ?_ | refine State.Good.fromReset ?_ | refine State.Good.sameBase ?_ rfl rfl | refine GoodOf.filterMem _ (State.Good.parts ?_) | refine GoodOf.filterRegs _ (State.Good.parts ?_) | refine GoodOf.fillMem _ _ _ (State.Good.parts ?_) | refine GoodOf.insertRegs _ (State.Good.parts ?_) | refine State.Good.newBase ?_ ?_ ?_))

theorem State.spineAtomic_inv (s : State) (f j : Nat) (b : SpineJob) (w : Nat) (chk : ReadCheck) (hI : s.Good wq) : (State.spineAtomic s f j b w chk).Good wq := by
  unfold State.spineAtomic
  repeat' (first | with_reducible assumption | (extract_lets +onlyGivenNames zz; first | (refine State.Good.genOut wq zz (fun _ => ?_) ?_; clear_value zz; rotate_left; subst zz; rotate_right) | clear_value zz) | with_reducible apply State.Good.ite | with_reducible apply State.nextWord_inv | with_reducible apply State.spineWrite_inv | with_reducible apply State.spineRead_at)

theorem State.spinePop_inv (s : State) (f j : Nat) (b : SpineJob) (i : Nat) (chk : ReadCheck) (hI : s.Good wq) : (State.spinePop s f j b i chk).Good wq := by
  unfold State.spinePop
  repeat' (first | with_reducible assumption | (extract_lets +onlyGivenNames zz; first | (refine State.Good.gen wq zz (fun _ => ?_) ?_; clear_value zz; rotate_left; subst zz; rotate_right) | (refine State.Good.genOut wq zz (fun _ => ?_) ?_; clear_value zz; rotate_left; subst zz; rotate_right) | clear_value zz) | with_reducible apply State.Good.ite | with_reducible apply State.advanceRp_inv | with_reducible apply State.endJob_inv | with_reducible apply State.nextWord_inv | with_reducible apply State.raise_inv | with_reducible apply State.spineRead_at)

theorem State.spinePush_inv (s : State) (f j cyc : Nat) (b : SpineJob) (i : Nat) (hI : s.Good wq) : (State.spinePush s f j cyc b i).Good wq := by
  unfold State.spinePush
  repeat' (first | with_reducible assumption | with_reducible apply State.nextWord_inv | with_reducible apply State.pushWord_inv)

theorem State.serveWord_inv (s : State) (f j cyc : Nat) (chk : ReadCheck) (hI : s.Good wq) : (State.serveWord s f j cyc chk).Good wq := by
  unfold State.serveWord
  repeat' (first | with_reducible assumption | (extract_lets +onlyGivenNames zz; first | (refine State.Good.genOut wq zz (fun _ => ?_) ?_; clear_value zz; rotate_left; subst zz; rotate_right) | clear_value zz) | with_reducible apply State.Good.ite | with_reducible apply State.endJob_inv | with_reducible apply State.nextWord_inv | with_reducible apply State.spineAtomic_inv | with_reducible apply State.spinePop_inv | with_reducible apply State.spinePush_inv | with_reducible apply State.spineWrite_inv | with_reducible apply State.spineRead_at | split)

theorem State.haltWord_inv (s : State) (f j cyc : Nat) (chk : ReadCheck) (hI : s.Good wq) : (State.haltWord s f j cyc chk).Good wq := by
  unfold State.haltWord
  repeat' (first | with_reducible assumption | (extract_lets +onlyGivenNames zz; first | (refine State.Good.gen wq zz (fun _ => ?_) ?_; clear_value zz; rotate_left; subst zz; rotate_right) | clear_value zz) | with_reducible apply State.arrayWrite_inv | with_reducible apply State.serveWord_inv | with_reducible apply State.setQueue_inv | with_reducible apply State.Good.foldl | (with_reducible intro _ _ _) | split)

theorem State.spineWord_inv (s : State) (f j cyc : Nat) (chk : ReadCheck) (hI : s.Good wq) : (State.spineWord s f j cyc chk).Good wq := by
  unfold State.spineWord
  repeat' (first | with_reducible assumption | (extract_lets +onlyGivenNames zz; first | (refine State.Good.gen wq zz (fun _ => ?_) ?_; clear_value zz; rotate_left; subst zz; rotate_right) | (refine State.Good.genFst wq zz (fun _ => ?_) ?_; clear_value zz; rotate_left; subst zz; rotate_right) | (refine State.Good.genSnd wq zz (fun _ => ?_) ?_; clear_value zz; rotate_left; subst zz; rotate_right) | (refine State.Good.genLine wq zz (fun _ => ?_) ?_; clear_value zz; rotate_left; subst zz; rotate_right) | (refine State.Good.genMeta wq zz (fun _ => ?_) ?_; clear_value zz; rotate_left; subst zz; rotate_right) | (refine State.Good.genRes wq zz (fun _ => ?_) ?_; clear_value zz; rotate_left; subst zz; rotate_right) | (refine State.Good.genWrite wq zz (fun _ => ?_) ?_; clear_value zz; rotate_left; subst zz; rotate_right) | (refine State.Good.genIngest wq zz (fun _ => ?_) ?_; clear_value zz; rotate_left; subst zz; rotate_right) | (refine State.Good.genOut wq zz (fun _ => ?_) ?_; clear_value zz; rotate_left; subst zz; rotate_right) | (refine State.Good.genBuild wq zz (fun _ => ?_) ?_; clear_value zz; rotate_left; subst zz; rotate_right) | (refine State.Good.genTaken wq zz (fun _ => ?_) ?_; clear_value zz; rotate_left; subst zz; rotate_right) | (refine State.Good.genMode wq zz (fun _ _ => ?_) ?_ ?_; clear_value zz; rotate_left; subst zz; rotate_left; subst zz; rotate_left) | (have := State.Good.isFun zz; clear this; subst zz) | clear_value zz) | with_reducible apply State.Good.ite | with_reducible apply State.haltWord_inv | with_reducible apply State.inSlot_inv | with_reducible apply State.serveWord_inv | with_reducible apply State.Good.iteFst | with_reducible apply State.Good.iteSnd | with_reducible apply State.Good.iteLine | with_reducible apply State.Good.iteMeta | (with_reducible intro _ _ _) | (with_reducible intro _ _) | (show Mode.isBase _ = true; first | exact rfl | exact State.Good.base (by assumption) | exact State.Good.before (by assumption) | (with_reducible refine ModeSt.withPending_base ?_) | (with_reducible refine ModeSt.withPending_before ?_) | (with_reducible refine ModeSt.withBack_base ?_) | (with_reducible refine ModeSt.withBack_before ?_)) | split | (with_reducible refine State.Good.mk_of ?_; first | with_reducible refine State.Good.parts ?_ | refine State.Good.fromReset ?_ | refine State.Good.sameBase ?_ rfl rfl | refine GoodOf.filterMem _ (State.Good.parts ?_) | refine GoodOf.filterRegs _ (State.Good.parts ?_) | refine GoodOf.fillMem _ _ _ (State.Good.parts ?_) | refine GoodOf.insertRegs _ (State.Good.parts ?_) | refine State.Good.newBase ?_ ?_ ?_))

theorem execSpineWordAccess_inv (f : FieldNo) (j : Fin 192) (cyc : Nat) (chk : ReadCheck) (s : State) (hI : s.Good wq) : Goes wq (execSpineWordAccess f j cyc chk s) := by
  unfold execSpineWordAccess
  repeat' (first | with_reducible assumption | with_reducible apply Goes.next | with_reducible apply State.spineWord_inv)

theorem State.queueTimeout_inv (s : State) (f j : Nat) (hI : s.Good wq) : (State.queueTimeout s f j).Good wq := by
  unfold State.queueTimeout
  repeat' (first | with_reducible assumption | (extract_lets +onlyGivenNames zz; first | (refine State.Good.gen wq zz (fun _ => ?_) ?_; clear_value zz; rotate_left; subst zz; rotate_right) | (refine State.Good.genFst wq zz (fun _ => ?_) ?_; clear_value zz; rotate_left; subst zz; rotate_right) | (refine State.Good.genSnd wq zz (fun _ => ?_) ?_; clear_value zz; rotate_left; subst zz; rotate_right) | (refine State.Good.genLine wq zz (fun _ => ?_) ?_; clear_value zz; rotate_left; subst zz; rotate_right) | (refine State.Good.genMeta wq zz (fun _ => ?_) ?_; clear_value zz; rotate_left; subst zz; rotate_right) | (refine State.Good.genRes wq zz (fun _ => ?_) ?_; clear_value zz; rotate_left; subst zz; rotate_right) | (refine State.Good.genWrite wq zz (fun _ => ?_) ?_; clear_value zz; rotate_left; subst zz; rotate_right) | (refine State.Good.genIngest wq zz (fun _ => ?_) ?_; clear_value zz; rotate_left; subst zz; rotate_right) | (refine State.Good.genOut wq zz (fun _ => ?_) ?_; clear_value zz; rotate_left; subst zz; rotate_right) | (refine State.Good.genBuild wq zz (fun _ => ?_) ?_; clear_value zz; rotate_left; subst zz; rotate_right) | (refine State.Good.genTaken wq zz (fun _ => ?_) ?_; clear_value zz; rotate_left; subst zz; rotate_right) | (refine State.Good.genMode wq zz (fun _ _ => ?_) ?_ ?_; clear_value zz; rotate_left; subst zz; rotate_left; subst zz; rotate_left) | (have := State.Good.isFun zz; clear this; subst zz) | clear_value zz) | with_reducible apply State.Good.ite | with_reducible apply State.finishJob_inv | with_reducible apply State.Good.iteFst | with_reducible apply State.Good.iteSnd | with_reducible apply State.Good.iteLine | with_reducible apply State.Good.iteMeta | (with_reducible intro _ _ _) | (with_reducible intro _ _) | (show Mode.isBase _ = true; first | exact rfl | exact State.Good.base (by assumption) | exact State.Good.before (by assumption) | (with_reducible refine ModeSt.withPending_base ?_) | (with_reducible refine ModeSt.withPending_before ?_) | (with_reducible refine ModeSt.withBack_base ?_) | (with_reducible refine ModeSt.withBack_before ?_)) | split | (with_reducible refine State.Good.mk_of ?_; first | with_reducible refine State.Good.parts ?_ | refine State.Good.fromReset ?_ | refine State.Good.sameBase ?_ rfl rfl | refine GoodOf.filterMem _ (State.Good.parts ?_) | refine GoodOf.filterRegs _ (State.Good.parts ?_) | refine GoodOf.fillMem _ _ _ (State.Good.parts ?_) | refine GoodOf.insertRegs _ (State.Good.parts ?_) | refine State.Good.newBase ?_ ?_ ?_))

theorem execQueueWriteTimeout_inv (f : FieldNo) (j : Fin 192) (s : State) (hI : s.Good wq) : Goes wq (execQueueWriteTimeout f j s) := by
  unfold execQueueWriteTimeout
  repeat' (first | with_reducible assumption | with_reducible apply Goes.next | with_reducible apply State.queueTimeout_inv)

theorem State.patrol_inv (s : State) (f cyc : Nat) (chk : ReadCheck) (hI : s.Good wq) : (State.patrol s f cyc chk).Good wq := by
  unfold State.patrol
  repeat' (first | with_reducible assumption | (extract_lets +onlyGivenNames zz; first | (refine State.Good.gen wq zz (fun _ => ?_) ?_; clear_value zz; rotate_left; subst zz; rotate_right) | clear_value zz) | with_reducible apply State.Good.ite | with_reducible apply State.inSlot_inv | with_reducible apply State.setFld_inv | with_reducible apply State.checkRead_at | (with_reducible intro _ _) | split)

theorem execPatrolVisit_inv (f : FieldNo) (cyc : Nat) (chk : ReadCheck) (s : State) (hI : s.Good wq) : Goes wq (execPatrolVisit f cyc chk s) := by
  unfold execPatrolVisit
  repeat' (first | with_reducible assumption | with_reducible apply Goes.next | with_reducible apply State.patrol_inv)

theorem State.bmInit_inv (s : State) (f block : Nat) (hI : s.Good wq) : (State.bmInit s f block).Good wq := by
  unfold State.bmInit
  repeat' (first | with_reducible assumption | (extract_lets +onlyGivenNames zz; first | (refine State.Good.gen wq zz (fun _ => ?_) ?_; clear_value zz; rotate_left; subst zz; rotate_right) | clear_value zz) | with_reducible apply State.Good.ite | with_reducible apply State.put_inv | with_reducible apply State.raise_inv | with_reducible apply State.setFld_inv)

theorem execBminit_inv (f : FieldNo) (block : Fin 256) (s : State) (hI : s.Good wq) : Goes wq (execBminit f block s) := by
  unfold execBminit
  repeat' (first | with_reducible assumption | with_reducible apply Goes.next | with_reducible apply State.bmInit_inv)

theorem State.zeroMemory_inv (s : State) (f j : Nat) (hI : s.Good wq) : (State.zeroMemory s f j).Good wq := by
  unfold State.zeroMemory
  repeat' (first | with_reducible assumption | (extract_lets +onlyGivenNames zz; first | (refine State.Good.gen wq zz (fun _ => ?_) ?_; clear_value zz; rotate_left; subst zz; rotate_right) | clear_value zz) | with_reducible apply State.raise_inv | with_reducible apply State.setQueue_inv | (with_reducible refine State.Good.mk_of ?_; refine GoodOf.fillMem _ _ _ (State.Good.parts ?_)))

theorem State.bmInitDone_inv (s : State) (f : Nat) (hI : s.Good wq) : (State.bmInitDone s f).Good wq := by
  unfold State.bmInitDone
  repeat' (first | with_reducible assumption | (extract_lets +onlyGivenNames zz; first | (refine State.Good.gen wq zz (fun _ => ?_) ?_; clear_value zz; rotate_left; subst zz; rotate_right) | clear_value zz) | with_reducible apply State.Good.ite | with_reducible apply State.clear_inv | with_reducible apply State.forEach_inv | with_reducible apply State.setFld_inv | with_reducible apply State.zeroMemory_inv | (with_reducible intro _ _ _) | split)

theorem execBminitDone_inv (f : FieldNo) (s : State) (hI : s.Good wq) : Goes wq (execBminitDone f s) := by
  unfold execBminitDone
  repeat' (first | with_reducible assumption | with_reducible apply Goes.next | with_reducible apply State.bmInitDone_inv)

theorem State.bmAdmit_inv (s : State) (n : Nat) (pkt : List Carriage) (hI : s.Good wq) : (State.bmAdmit s n pkt).Good wq := by
  unfold State.bmAdmit
  repeat' (first | with_reducible assumption | (extract_lets +onlyGivenNames zz; first | (refine State.Good.gen wq zz (fun _ => ?_) ?_; clear_value zz; rotate_left; subst zz; rotate_right) | (refine State.Good.genFst wq zz (fun _ => ?_) ?_; clear_value zz; rotate_left; subst zz; rotate_right) | (refine State.Good.genSnd wq zz (fun _ => ?_) ?_; clear_value zz; rotate_left; subst zz; rotate_right) | (refine State.Good.genLine wq zz (fun _ => ?_) ?_; clear_value zz; rotate_left; subst zz; rotate_right) | (refine State.Good.genMeta wq zz (fun _ => ?_) ?_; clear_value zz; rotate_left; subst zz; rotate_right) | (refine State.Good.genRes wq zz (fun _ => ?_) ?_; clear_value zz; rotate_left; subst zz; rotate_right) | (refine State.Good.genWrite wq zz (fun _ => ?_) ?_; clear_value zz; rotate_left; subst zz; rotate_right) | (refine State.Good.genIngest wq zz (fun _ => ?_) ?_; clear_value zz; rotate_left; subst zz; rotate_right) | (refine State.Good.genOut wq zz (fun _ => ?_) ?_; clear_value zz; rotate_left; subst zz; rotate_right) | (refine State.Good.genBuild wq zz (fun _ => ?_) ?_; clear_value zz; rotate_left; subst zz; rotate_right) | (refine State.Good.genTaken wq zz (fun _ => ?_) ?_; clear_value zz; rotate_left; subst zz; rotate_right) | (refine State.Good.genMode wq zz (fun _ _ => ?_) ?_ ?_; clear_value zz; rotate_left; subst zz; rotate_left; subst zz; rotate_left) | (have := State.Good.isFun zz; clear this; subst zz) | clear_value zz) | with_reducible apply State.Good.ite | with_reducible apply State.replyFail_inv | with_reducible apply State.setNi_inv | with_reducible apply State.setQueue_inv | with_reducible apply State.Good.iteFst | with_reducible apply State.Good.iteSnd | with_reducible apply State.Good.iteLine | with_reducible apply State.Good.iteMeta | (with_reducible intro _ _ _) | (with_reducible intro _ _) | (show Mode.isBase _ = true; first | exact rfl | exact State.Good.base (by assumption) | exact State.Good.before (by assumption) | (with_reducible refine ModeSt.withPending_base ?_) | (with_reducible refine ModeSt.withPending_before ?_) | (with_reducible refine ModeSt.withBack_base ?_) | (with_reducible refine ModeSt.withBack_before ?_)) | split | (with_reducible refine State.Good.mk_of ?_; first | with_reducible refine State.Good.parts ?_ | refine State.Good.fromReset ?_ | refine State.Good.sameBase ?_ rfl rfl | refine GoodOf.filterMem _ (State.Good.parts ?_) | refine GoodOf.filterRegs _ (State.Good.parts ?_) | refine GoodOf.fillMem _ _ _ (State.Good.parts ?_) | refine GoodOf.insertRegs _ (State.Good.parts ?_) | refine State.Good.newBase ?_ ?_ ?_))

end Sys2Proof.Machine
end

