-- ==== Sys2Proof/Laws/KeepDram.lean ====
section
/-! SUPPORT. Every operation keeps the invariant and the commands that wait: DRAM lines, metadata and the serving of requests.
One lemma for each operation that answers a state (`_inv`, and `_at` for the state inside a larger answer); of a command the lemma says that it completes (`Goes`). -/
namespace Sys2Proof.Machine
variable {wq : List Instr}

/-! Machine/DramLines.lean -/

theorem State.setDram_inv (s : State) (c : Nat) (x : ChSt) (hI : s.Good wq) : (State.setDram s c x).Good wq := by
  unfold State.setDram
  repeat' (first | with_reducible assumption | (with_reducible refine State.Good.mk_of ?_; with_reducible refine State.Good.parts ?_))

theorem State.dramCmd_inv (s : State) (c code bank row line : Nat) (w : DramWho) (hI : s.Good wq) : (State.dramCmd s c code bank row line w).Good wq := by
  unfold State.dramCmd
  repeat' (first | with_reducible assumption | with_reducible apply State.setDram_inv)

theorem State.lineCmd_inv (s : State) (c p : Nat) (wr : Bool) (w : DramWho) (hI : s.Good wq) : (State.lineCmd s c p wr w).Good wq := by
  unfold State.lineCmd
  repeat' (first | with_reducible assumption | with_reducible apply State.Good.ite | with_reducible apply State.bump_inv | with_reducible apply State.dramCmd_inv | with_reducible apply State.setDram_inv | split)

theorem State.freeWords_inv : ∀ (n : Nat) (s : State), s.Good wq → InvAt wq Prod.snd (State.freeWords s n)
  | 0, _, h => h
  | n + 1, s, h => State.freeWords_inv n _ (State.freeWord_inv s h)
theorem State.freeWords_at (s : State) (n : Nat) (h : s.Good wq) : (State.freeWords s n).2.Good wq := InvAt.inv (State.freeWords_inv n s h)

theorem State.storedLine_inv (s : State) (c p : Nat) (hI : s.Good wq) : InvAt wq Prod.snd (State.storedLine s c p) := by
  unfold State.storedLine
  repeat' (first | with_reducible assumption | with_reducible apply InvAt.snd | with_reducible apply State.freeWords_at | with_reducible apply State.Good.iteSnd | split)
theorem State.storedLine_at (s : State) (c p : Nat) (hI : s.Good wq) : (Prod.snd (State.storedLine s c p)).Good wq := InvAt.inv (State.storedLine_inv _ _ _ hI)

theorem LineOut.beat_inv (o : LineOut) (m : BitVec 16) (k : Nat) (e : BitVec 16) (hI : o.state.Good wq) :
    InvAt wq LineOut.state (o.beat m k e) := by
  have hv : (o.state.freeNat.2.freeWord.2).Good wq := State.freeWord_at _ (State.freeNat_at _ hI)
  unfold LineOut.beat
  split
  · exact hI
  · exact InvAt.line hI
  · exact InvAt.line hI
  · dsimp only
    split <;> exact InvAt.line hv
theorem LineOut.beat_at (o : LineOut) (m : BitVec 16) (k : Nat) (e : BitVec 16) (hI : o.state.Good wq) :
    (o.beat m k e).state.Good wq := InvAt.inv (LineOut.beat_inv o m k e hI)

theorem LineOut.decode_inv (o : LineOut) (m : BitVec 16) (errs : List (Nat × BitVec 16)) (hI : o.state.Good wq) :
    InvAt wq LineOut.state (o.decode m errs) := by
  unfold LineOut.decode
  split
  · exact hI
  · generalize List.range 16 = l
    induction l generalizing o with
    | nil => exact hI
    | cons a l ih => exact ih _ (LineOut.beat_at o m a _ hI)
theorem LineOut.decode_at (o : LineOut) (m : BitVec 16) (errs : List (Nat × BitVec 16)) (hI : o.state.Good wq) :
    (o.decode m errs).state.Good wq := InvAt.inv (LineOut.decode_inv o m errs hI)

theorem State.decodeLine_inv (s : State) (c l : Nat) (checks : List LineCheck) (w : DramWho) (hI : s.Good wq) : InvAt wq LineOut.state (State.decodeLine s c l checks w) := by
  unfold State.decodeLine
  repeat' (first | with_reducible assumption | (extract_lets +onlyGivenNames zz; first | (refine State.Good.gen wq zz (fun _ => ?_) ?_; clear_value zz; rotate_left; subst zz; rotate_right) | (refine State.Good.genSnd wq zz (fun _ => ?_) ?_; clear_value zz; rotate_left; subst zz; rotate_right) | (refine State.Good.genLine wq zz (fun _ => ?_) ?_; clear_value zz; rotate_left; subst zz; rotate_right) | clear_value zz) | with_reducible apply InvAt.line | with_reducible apply State.lineCmd_inv | with_reducible apply LineOut.decode_at | with_reducible apply State.storedLine_at)
theorem State.decodeLine_at (s : State) (c l : Nat) (checks : List LineCheck) (w : DramWho) (hI : s.Good wq) : (LineOut.state (State.decodeLine s c l checks w)).Good wq := InvAt.inv (State.decodeLine_inv _ _ _ _ _ hI)

theorem State.storeLine_inv (s : State) (c l : Nat) (ws : List Word) (w : DramWho) (hI : s.Good wq) : (State.storeLine s c l ws w).Good wq := by
  unfold State.storeLine
  repeat' (first | with_reducible assumption | with_reducible apply State.lineCmd_inv | with_reducible apply State.setDram_inv)

theorem State.clearLost_inv (s : State) (c l : Nat) (hI : s.Good wq) : (State.clearLost s c l).Good wq := by
  unfold State.clearLost
  repeat' (first | with_reducible assumption | with_reducible apply State.clear_inv | split)

theorem State.groupXor_inv (s : State) (c : Nat) (ls : List Nat) (checks : List LineCheck) (w : DramWho) (h : s.Good wq) :
    InvAt wq LineOut.state (State.groupXor s c ls checks w) := by
  have gen : ∀ (ls : List Nat) (o : LineOut), InvAt wq LineOut.state o → InvAt wq LineOut.state (ls.foldl (fun (o : LineOut) l =>
      let r := o.state.decodeLine c l checks w
      (⟨r.state, xorLines o.words r.words, 0, o.lost ||| r.lost, 0⟩ : LineOut)) o) := by
    intro ls
    induction ls with
    | nil => intro o ho; exact ho
    | cons l ls ih => intro o ho; exact ih _ (InvAt.line (State.decodeLine_at o.state c l checks w (InvAt.inv ho)))
  unfold State.groupXor
  exact gen ls _ (InvAt.line h)
theorem State.groupXor_at (s : State) (c : Nat) (ls : List Nat) (checks : List LineCheck) (w : DramWho) (hI : s.Good wq) : (LineOut.state (State.groupXor s c ls checks w)).Good wq := InvAt.inv (State.groupXor_inv _ _ _ _ _ hI)

theorem State.noteLine_inv (s : State) (c l kind : Nat) (bs syms : BitVec 16) (hI : s.Good wq) : (State.noteLine s c l kind bs syms).Good wq := by
  unfold State.noteLine
  repeat' (first | with_reducible assumption | with_reducible apply State.Good.ite | with_reducible apply State.logEntry_inv | with_reducible apply State.setDram_inv | with_reducible apply State.setReg_inv | with_reducible apply State.freeNat_at | with_reducible apply State.Good.iteSnd)

theorem State.noteFixed_inv (s : State) (c l : Nat) (d : LineOut) (hI : s.Good wq) (hI1 : d.state.Good wq) : (State.noteFixed s c l d).Good wq := by
  unfold State.noteFixed
  repeat' (first | with_reducible assumption | with_reducible apply State.Good.ite | with_reducible apply State.bump_inv | with_reducible apply State.forEach_inv | with_reducible apply State.noteLine_inv | with_reducible apply State.see_inv | (with_reducible intro _ _ _))

theorem State.openUnwritten_inv (s : State) (c l : Nat) (nested : Bool) (d : LineOut) (hI : s.Good wq) (hI1 : d.state.Good wq) : InvAt wq LineOut.state (State.openUnwritten s c l nested d) := by
  unfold State.openUnwritten
  repeat' (first | with_reducible assumption | (extract_lets +onlyGivenNames zz; (refine State.Good.genSnd wq zz (fun _ => ?_) ?_; clear_value zz; rotate_left; subst zz; rotate_right)) | with_reducible apply InvAt.ite | with_reducible apply InvAt.line | with_reducible apply State.freeWords_at)
theorem State.openUnwritten_at (s : State) (c l : Nat) (nested : Bool) (d : LineOut) (hI : s.Good wq) (hI1 : d.state.Good wq) : (LineOut.state (State.openUnwritten s c l nested d)).Good wq := InvAt.inv (State.openUnwritten_inv _ _ _ _ _ hI hI1)

theorem State.readLine_inv (s : State) (c l : Nat) (nested demand : Bool) (checks : List LineCheck) (w : DramWho) (hI : s.Good wq) : InvAt wq LineOut.state (State.readLine s c l nested demand checks w) := by
  unfold State.readLine
  repeat' (first | with_reducible assumption | (extract_lets +onlyGivenNames zz; first | (refine State.Good.gen wq zz (fun _ => ?_) ?_; clear_value zz; rotate_left; subst zz; rotate_right) | (refine State.Good.genLine wq zz (fun _ => ?_) ?_; clear_value zz; rotate_left; subst zz; rotate_right) | clear_value zz) | with_reducible apply State.Good.ite | with_reducible apply InvAt.ite | with_reducible apply InvAt.line | with_reducible apply State.bump_inv | with_reducible apply State.noteFixed_inv | with_reducible apply State.noteLine_inv | with_reducible apply State.post_inv | with_reducible apply State.raise_inv | with_reducible apply State.setDram_inv | with_reducible apply State.storeLine_inv | with_reducible apply State.decodeLine_at | with_reducible apply State.groupXor_at | with_reducible apply State.openUnwritten_at | with_reducible apply State.Good.iteLine)
theorem State.readLine_at (s : State) (c l : Nat) (nested demand : Bool) (checks : List LineCheck) (w : DramWho) (hI : s.Good wq) : (LineOut.state (State.readLine s c l nested demand checks w)).Good wq := InvAt.inv (State.readLine_inv _ _ _ _ _ _ _ hI)

theorem State.newParity_inv (s : State) (c l : Nat) (x : List Word) (lost : BitVec 16) (y : List Word) (checks : List LineCheck) (w : DramWho) (hI : s.Good wq) : InvAt wq Prod.fst (State.newParity s c l x lost y checks w) := by
  unfold State.newParity
  repeat' (first | with_reducible assumption | (extract_lets +onlyGivenNames zz; first | (refine State.Good.genLine wq zz (fun _ => ?_) ?_; clear_value zz; rotate_left; subst zz; rotate_right) | clear_value zz) | with_reducible apply InvAt.ite | with_reducible apply InvAt.fst | with_reducible apply State.decodeLine_at | with_reducible apply State.groupXor_at)
theorem State.newParity_at (s : State) (c l : Nat) (x : List Word) (lost : BitVec 16) (y : List Word) (checks : List LineCheck) (w : DramWho) (hI : s.Good wq) : (Prod.fst (State.newParity s c l x lost y checks w)).Good wq := InvAt.inv (State.newParity_inv _ _ _ _ _ _ _ _ hI)

theorem State.replaceLine_inv (s : State) (c l : Nat) (nested : Bool) (x : List Word) (lost : BitVec 16) (y : List Word) (checks : List LineCheck) (w : DramWho) (hI : s.Good wq) : InvAt wq Prod.fst (State.replaceLine s c l nested x lost y checks w) := by
  unfold State.replaceLine
  with_reducible apply InvAt.ite
  · with_reducible apply InvAt.fst
    with_reducible apply State.storeLine_inv; assumption
  · have hp := State.newParity_at s c l x lost y checks w hI
    generalize s.newParity c l x lost y checks w = p at hp
    obtain ⟨t, o, f⟩ := p
    cases o with
    | none => exact InvAt.fst hp
    | some q =>
      with_reducible apply InvAt.fst
      have ht : (t.storeLine c l y w).Good wq := State.storeLine_inv _ _ _ _ _ hp
      exact State.Good.ite (State.storeLine_inv _ _ _ _ _ ht) (State.lineCmd_inv _ _ _ _ _ ht)
theorem State.replaceLine_at (s : State) (c l : Nat) (nested : Bool) (x : List Word) (lost : BitVec 16) (y : List Word) (checks : List LineCheck) (w : DramWho) (hI : s.Good wq) : (Prod.fst (State.replaceLine s c l nested x lost y checks w)).Good wq := InvAt.inv (State.replaceLine_inv _ _ _ _ _ _ _ _ _ hI)

theorem State.rmwFail_inv (s : State) (c st : Nat) (hI : s.Good wq) : (State.rmwFail s c st).Good wq := by
  unfold State.rmwFail
  repeat' (first | with_reducible assumption | with_reducible apply State.Good.ite | with_reducible apply State.bump_inv | with_reducible apply State.logEntry_inv | with_reducible apply State.post_inv | with_reducible apply State.raise_inv | with_reducible apply State.setDram_inv)

theorem State.spillMeta_inv (s : State) (ml : Nat) (checks : List LineCheck) (hI : s.Good wq) : (State.spillMeta s ml checks).Good wq := by
  unfold State.spillMeta
  repeat' (first | with_reducible assumption | (extract_lets +onlyGivenNames zz; first | (refine State.Good.gen wq zz (fun _ => ?_) ?_; clear_value zz; rotate_left; subst zz; rotate_right) | (refine State.Good.genFst wq zz (fun _ => ?_) ?_; clear_value zz; rotate_left; subst zz; rotate_right) | (refine State.Good.genLine wq zz (fun _ => ?_) ?_; clear_value zz; rotate_left; subst zz; rotate_right) | clear_value zz) | with_reducible apply State.Good.ite | with_reducible apply State.rmwFail_inv | with_reducible apply State.decodeLine_at | with_reducible apply State.replaceLine_at | with_reducible apply State.Good.iteLine | split | (with_reducible refine State.Good.mk_of ?_; with_reducible refine State.Good.parts ?_))

theorem State.makeRoom_inv (s : State) (c : Nat) (keep : List Nat) (checks : List LineCheck) (hI : s.Good wq) : (State.makeRoom s c keep checks).Good wq := by
  unfold State.makeRoom
  repeat' (first | with_reducible assumption | (extract_lets +onlyGivenNames zz; first | (refine State.Good.gen wq zz (fun _ => ?_) ?_; clear_value zz; rotate_left; subst zz; rotate_right) | (refine State.Good.genSnd wq zz (fun _ => ?_) ?_; clear_value zz; rotate_left; subst zz; rotate_right) | clear_value zz) | with_reducible apply State.spillMeta_inv | with_reducible apply State.freeNat_at | split | (with_reducible refine State.Good.mk_of ?_; with_reducible refine State.Good.parts ?_))

theorem State.metaMiss_inv (s : State) (ml : Nat) (keep : List Nat) (checks : List LineCheck) (w : DramWho) (hI : s.Good wq) : InvAt wq Prod.fst (State.metaMiss s ml keep checks w) := by
  unfold State.metaMiss
  repeat' (first | with_reducible assumption | (extract_lets +onlyGivenNames zz; first | (refine State.Good.gen wq zz (fun _ => ?_) ?_; clear_value zz; rotate_left; subst zz; rotate_right) | (refine State.Good.genLine wq zz (fun _ => ?_) ?_; clear_value zz; rotate_left; subst zz; rotate_right) | clear_value zz) | with_reducible apply State.Good.ite | with_reducible apply InvAt.ite | with_reducible apply InvAt.fst | with_reducible apply State.bump_inv | with_reducible apply State.makeRoom_inv | with_reducible apply State.readLine_at | (with_reducible refine State.Good.mk_of ?_; with_reducible refine State.Good.parts ?_))
theorem State.metaMiss_at (s : State) (ml : Nat) (keep : List Nat) (checks : List LineCheck) (w : DramWho) (hI : s.Good wq) : (Prod.fst (State.metaMiss s ml keep checks w)).Good wq := InvAt.inv (State.metaMiss_inv _ _ _ _ _ hI)

theorem State.metaWrite_inv (s : State) (ml i : Nat) (v : Word) (hI : s.Good wq) : (State.metaWrite s ml i v).Good wq := by
  unfold State.metaWrite
  repeat' (first | with_reducible assumption | split | (with_reducible refine State.Good.mk_of ?_; with_reducible refine State.Good.parts ?_))

theorem State.dropCache_inv (s : State) (c : Nat) (hI : s.Good wq) : (State.dropCache s c).Good wq := by
  unfold State.dropCache
  repeat' (first | with_reducible assumption | (with_reducible refine State.Good.mk_of ?_; with_reducible refine State.Good.parts ?_))

theorem State.metaRead_inv (s : State) (ml : Nat) (keep : List Nat) (checks : List LineCheck) (w : DramWho) (hI : s.Good wq) : InvAt wq Prod.fst (State.metaRead s ml keep checks w) := by
  unfold State.metaRead
  repeat' (first | with_reducible assumption | with_reducible apply InvAt.fst | with_reducible apply State.metaMiss_at | split)
theorem State.metaRead_at (s : State) (ml : Nat) (keep : List Nat) (checks : List LineCheck) (w : DramWho) (hI : s.Good wq) : (Prod.fst (State.metaRead s ml keep checks w)).Good wq := InvAt.inv (State.metaRead_inv _ _ _ _ _ hI)

theorem State.setKeyState_inv (s : State) (k v : Nat) (hI : s.Good wq) : (State.setKeyState s k v).Good wq := by
  unfold State.setKeyState
  repeat' (first | with_reducible assumption | with_reducible apply State.put_inv)

theorem State.readMeta_inv (s : State) (r : LineRgn) (a : Nat) (withTag : Bool) (checks : List LineCheck) (w : DramWho) (hI : s.Good wq) : InvAt wq MetaOut.state (State.readMeta s r a withTag checks w) := by
  unfold State.readMeta
  repeat' (first | with_reducible assumption | (extract_lets +onlyGivenNames zz; first | (refine State.Good.gen wq zz (fun _ => ?_) ?_; clear_value zz; rotate_left; subst zz; rotate_right) | (refine State.Good.genFst wq zz (fun _ => ?_) ?_; clear_value zz; rotate_left; subst zz; rotate_right) | (refine State.Good.genSnd wq zz (fun _ => ?_) ?_; clear_value zz; rotate_left; subst zz; rotate_right) | (refine State.Good.genLine wq zz (fun _ => ?_) ?_; clear_value zz; rotate_left; subst zz; rotate_right) | (refine State.Good.genMeta wq zz (fun _ => ?_) ?_; clear_value zz; rotate_left; subst zz; rotate_right) | (refine State.Good.genRes wq zz (fun _ => ?_) ?_; clear_value zz; rotate_left; subst zz; rotate_right) | (refine State.Good.genWrite wq zz (fun _ => ?_) ?_; clear_value zz; rotate_left; subst zz; rotate_right) | (refine State.Good.genIngest wq zz (fun _ => ?_) ?_; clear_value zz; rotate_left; subst zz; rotate_right) | (refine State.Good.genOut wq zz (fun _ => ?_) ?_; clear_value zz; rotate_left; subst zz; rotate_right) | (refine State.Good.genBuild wq zz (fun _ => ?_) ?_; clear_value zz; rotate_left; subst zz; rotate_right) | (refine State.Good.genTaken wq zz (fun _ => ?_) ?_; clear_value zz; rotate_left; subst zz; rotate_right) | (refine State.Good.genMode wq zz (fun _ _ => ?_) ?_ ?_; clear_value zz; rotate_left; subst zz; rotate_left; subst zz; rotate_left) | (have := State.Good.isFun zz; clear this; subst zz) | clear_value zz) | with_reducible apply State.Good.ite | with_reducible apply InvAt.ite | with_reducible apply InvAt.metaOut | with_reducible apply State.metaRead_inv | with_reducible apply Keeps.getD | with_reducible apply State.metaRead_at | (refine State.Good.fst (State.metaRead_at _ _ _ _ _ ?_) (by with_reducible assumption)) | with_reducible apply State.Good.iteFst | with_reducible apply State.Good.iteSnd | with_reducible apply State.Good.iteLine | with_reducible apply State.Good.iteMeta | (with_reducible refine InvAt.of ?_) | (with_reducible intro _ _ _) | (with_reducible intro _ _) | (show Mode.isBase _ = true; first | exact rfl | exact State.Good.base (by assumption) | exact State.Good.before (by assumption) | (with_reducible refine ModeSt.withPending_base ?_) | (with_reducible refine ModeSt.withPending_before ?_) | (with_reducible refine ModeSt.withBack_base ?_) | (with_reducible refine ModeSt.withBack_before ?_)) | split | (refine InvAt.of ?_; dsimp only) | (with_reducible refine State.Good.mk_of ?_; first | with_reducible refine State.Good.parts ?_ | refine State.Good.fromReset ?_ | refine State.Good.sameBase ?_ rfl rfl | refine GoodOf.filterMem _ (State.Good.parts ?_) | refine GoodOf.filterRegs _ (State.Good.parts ?_) | refine GoodOf.fillMem _ _ _ (State.Good.parts ?_) | refine GoodOf.insertRegs _ (State.Good.parts ?_) | refine State.Good.newBase ?_ ?_ ?_))
theorem State.readMeta_at (s : State) (r : LineRgn) (a : Nat) (withTag : Bool) (checks : List LineCheck) (w : DramWho) (hI : s.Good wq) : (MetaOut.state (State.readMeta s r a withTag checks w)).Good wq := InvAt.inv (State.readMeta_inv _ _ _ _ _ _ hI)

theorem State.writeMeta_inv (s : State) (r : LineRgn) (a : Nat) (ctr : Word) (tag : Option (Nat × Bool)) (hI : s.Good wq) : (State.writeMeta s r a ctr tag).Good wq := by
  unfold State.writeMeta
  repeat' (first | with_reducible assumption | with_reducible apply State.metaWrite_inv | split)

theorem State.tagFail_inv (s : State) (c : Nat) (r : LineRgn) (a : Nat) (m : MetaOut) (arg : Nat) (hI : s.Good wq) (hI1 : m.state.Good wq) : (State.tagFail s c r a m arg).Good wq := by
  unfold State.tagFail
  repeat' (first | with_reducible assumption | with_reducible apply State.bump_inv | with_reducible apply State.postLog_inv | with_reducible apply State.writeMeta_inv)

theorem State.readData_inv (s : State) (c l a : Nat) (r : LineRgn) (raw : Bool) (mask : BitVec 16) (checks : List LineCheck) (w : DramWho) (hI : s.Good wq) : InvAt wq ReadRes.state (State.readData s c l a r raw mask checks w) := by
  unfold State.readData
  repeat' (first | with_reducible assumption | (extract_lets +onlyGivenNames zz; first | (refine State.Good.genLine wq zz (fun _ => ?_) ?_; clear_value zz; rotate_left; subst zz; rotate_right) | (refine State.Good.genMeta wq zz (fun _ => ?_) ?_; clear_value zz; rotate_left; subst zz; rotate_right) | clear_value zz) | with_reducible apply InvAt.ite | with_reducible apply InvAt.readRes | with_reducible apply State.tagFail_inv | with_reducible apply State.readLine_at | with_reducible apply State.readMeta_at)
theorem State.readData_at (s : State) (c l a : Nat) (r : LineRgn) (raw : Bool) (mask : BitVec 16) (checks : List LineCheck) (w : DramWho) (hI : s.Good wq) : (ReadRes.state (State.readData s c l a r raw mask checks w)).Good wq := InvAt.inv (State.readData_inv _ _ _ _ _ _ _ _ _ hI)

theorem State.notWritten_inv (s : State) (c st : Nat) (hI : s.Good wq) : InvAt wq WriteRes.state (State.notWritten s c st) := by
  unfold State.notWritten
  repeat' (first | with_reducible assumption | with_reducible apply InvAt.writeRes | with_reducible apply State.rmwFail_inv)
theorem State.notWritten_at (s : State) (c st : Nat) (hI : s.Good wq) : (WriteRes.state (State.notWritten s c st)).Good wq := InvAt.inv (State.notWritten_inv _ _ _ hI)

theorem State.noteCounter_inv (s : State) (r ctr : Nat) (hI : s.Good wq) : (State.noteCounter s r ctr).Good wq := by
  unfold State.noteCounter
  repeat' (first | with_reducible assumption | with_reducible apply State.Good.ite | with_reducible apply State.postLog_inv | with_reducible apply State.put_inv)

theorem State.storeData_inv (s : State) (c l a : Nat) (r : LineRgn) (full : Bool) (m : MetaOut) (x : LineOut) (y : List Word) (ok : Nat) (checks : List LineCheck) (w : DramWho) (old : List Word) (hI : s.Good wq) (hI1 : m.state.Good wq) (hI2 : x.state.Good wq) : InvAt wq WriteRes.state (State.storeData s c l a r full m x y ok checks w old) := by
  unfold State.storeData
  repeat' (first | with_reducible assumption | (extract_lets +onlyGivenNames zz; first | (refine State.Good.gen wq zz (fun _ => ?_) ?_; clear_value zz; rotate_left; subst zz; rotate_right) | clear_value zz) | with_reducible apply State.Good.ite | with_reducible apply InvAt.writeRes | with_reducible apply State.clearLost_inv | with_reducible apply State.noteCounter_inv | with_reducible apply State.writeMeta_inv | with_reducible apply State.notWritten_at | (refine State.Good.fst (State.replaceLine_at _ _ _ _ _ _ _ _ _ ?_) (by with_reducible assumption)) | split)
theorem State.storeData_at (s : State) (c l a : Nat) (r : LineRgn) (full : Bool) (m : MetaOut) (x : LineOut) (y : List Word) (ok : Nat) (checks : List LineCheck) (w : DramWho) (old : List Word) (hI : s.Good wq) (hI1 : m.state.Good wq) (hI2 : x.state.Good wq) : (WriteRes.state (State.storeData s c l a r full m x y ok checks w old)).Good wq := InvAt.inv (State.storeData_inv _ _ _ _ _ _ _ _ _ _ _ _ _ hI hI1 hI2)

theorem State.mergeLine_inv (s : State) (c l a : Nat) (r : LineRgn) (m : MetaOut) (x : LineOut) (needs : BitVec 16) (upd : List Word → Option (List Word)) (checks : List LineCheck) (w : DramWho) (hI : s.Good wq) (hI1 : m.state.Good wq) (hI2 : x.state.Good wq) : InvAt wq WriteRes.state (State.mergeLine s c l a r m x needs upd checks w) := by
  unfold State.mergeLine
  repeat' (first | with_reducible assumption | (extract_lets +onlyGivenNames zz; first | (refine State.Good.gen wq zz (fun _ => ?_) ?_; clear_value zz; rotate_left; subst zz; rotate_right) | (refine State.Good.genFst wq zz (fun _ => ?_) ?_; clear_value zz; rotate_left; subst zz; rotate_right) | (refine State.Good.genSnd wq zz (fun _ => ?_) ?_; clear_value zz; rotate_left; subst zz; rotate_right) | (refine State.Good.genLine wq zz (fun _ => ?_) ?_; clear_value zz; rotate_left; subst zz; rotate_right) | (refine State.Good.genMeta wq zz (fun _ => ?_) ?_; clear_value zz; rotate_left; subst zz; rotate_right) | (refine State.Good.genRes wq zz (fun _ => ?_) ?_; clear_value zz; rotate_left; subst zz; rotate_right) | (refine State.Good.genWrite wq zz (fun _ => ?_) ?_; clear_value zz; rotate_left; subst zz; rotate_right) | (refine State.Good.genIngest wq zz (fun _ => ?_) ?_; clear_value zz; rotate_left; subst zz; rotate_right) | (refine State.Good.genOut wq zz (fun _ => ?_) ?_; clear_value zz; rotate_left; subst zz; rotate_right) | (refine State.Good.genBuild wq zz (fun _ => ?_) ?_; clear_value zz; rotate_left; subst zz; rotate_right) | (refine State.Good.genTaken wq zz (fun _ => ?_) ?_; clear_value zz; rotate_left; subst zz; rotate_right) | (refine State.Good.genMode wq zz (fun _ _ => ?_) ?_ ?_; clear_value zz; rotate_left; subst zz; rotate_left; subst zz; rotate_left) | (have := State.Good.isFun zz; clear this; subst zz) | clear_value zz) | with_reducible apply State.Good.ite | with_reducible apply InvAt.ite | with_reducible apply InvAt.writeRes | with_reducible apply State.notWritten_inv | with_reducible apply State.storeData_inv | with_reducible apply State.tagFail_inv | with_reducible apply State.notWritten_at | with_reducible apply State.storeData_at | with_reducible apply State.Good.iteFst | with_reducible apply State.Good.iteSnd | with_reducible apply State.Good.iteLine | with_reducible apply State.Good.iteMeta | (with_reducible refine InvAt.of ?_) | (with_reducible intro _ _ _) | (with_reducible intro _ _) | (show Mode.isBase _ = true; first | exact rfl | exact State.Good.base (by assumption) | exact State.Good.before (by assumption) | (with_reducible refine ModeSt.withPending_base ?_) | (with_reducible refine ModeSt.withPending_before ?_) | (with_reducible refine ModeSt.withBack_base ?_) | (with_reducible refine ModeSt.withBack_before ?_)) | split | (refine InvAt.of ?_; dsimp only) | (with_reducible refine State.Good.mk_of ?_; first | with_reducible refine State.Good.parts ?_ | refine State.Good.fromReset ?_ | refine State.Good.sameBase ?_ rfl rfl | refine GoodOf.filterMem _ (State.Good.parts ?_) | refine GoodOf.filterRegs _ (State.Good.parts ?_) | refine GoodOf.fillMem _ _ _ (State.Good.parts ?_) | refine GoodOf.insertRegs _ (State.Good.parts ?_) | refine State.Good.newBase ?_ ?_ ?_))
theorem State.mergeLine_at (s : State) (c l a : Nat) (r : LineRgn) (m : MetaOut) (x : LineOut) (needs : BitVec 16) (upd : List Word → Option (List Word)) (checks : List LineCheck) (w : DramWho) (hI : s.Good wq) (hI1 : m.state.Good wq) (hI2 : x.state.Good wq) : (WriteRes.state (State.mergeLine s c l a r m x needs upd checks w)).Good wq := InvAt.inv (State.mergeLine_inv _ _ _ _ _ _ _ _ _ _ _ hI hI1 hI2)

theorem State.writePart_inv (s : State) (c l a : Nat) (r : LineRgn) (m : MetaOut) (needs : BitVec 16) (upd : List Word → Option (List Word)) (checks : List LineCheck) (w : DramWho) (hI : s.Good wq) (hI1 : m.state.Good wq) : InvAt wq WriteRes.state (State.writePart s c l a r m needs upd checks w) := by
  unfold State.writePart
  repeat' (first | with_reducible assumption | (extract_lets +onlyGivenNames zz; (refine State.Good.genLine wq zz (fun _ => ?_) ?_; clear_value zz; rotate_left; subst zz; rotate_right)) | with_reducible apply InvAt.writeRes | with_reducible apply State.mergeLine_at | with_reducible apply State.readLine_at)
theorem State.writePart_at (s : State) (c l a : Nat) (r : LineRgn) (m : MetaOut) (needs : BitVec 16) (upd : List Word → Option (List Word)) (checks : List LineCheck) (w : DramWho) (hI : s.Good wq) (hI1 : m.state.Good wq) : (WriteRes.state (State.writePart s c l a r m needs upd checks w)).Good wq := InvAt.inv (State.writePart_inv _ _ _ _ _ _ _ _ _ _ hI hI1)

theorem State.writeData_inv (s : State) (c l a : Nat) (r : LineRgn) (full : Bool) (needs : BitVec 16) (upd : List Word → Option (List Word)) (checks : List LineCheck) (w : DramWho) (hI : s.Good wq) : InvAt wq WriteRes.state (State.writeData s c l a r full needs upd checks w) := by
  unfold State.writeData
  repeat' (first | with_reducible assumption | (extract_lets +onlyGivenNames zz; first | (refine State.Good.gen wq zz (fun _ => ?_) ?_; clear_value zz; rotate_left; subst zz; rotate_right) | (refine State.Good.genLine wq zz (fun _ => ?_) ?_; clear_value zz; rotate_left; subst zz; rotate_right) | (refine State.Good.genMeta wq zz (fun _ => ?_) ?_; clear_value zz; rotate_left; subst zz; rotate_right)) | with_reducible apply InvAt.ite | with_reducible apply InvAt.writeRes | with_reducible apply State.decodeLine_at | with_reducible apply State.notWritten_at | with_reducible apply State.readMeta_at | with_reducible apply State.storeData_at | with_reducible apply State.writePart_at | with_reducible apply State.Good.iteLine | with_reducible apply State.Good.iteMeta | split)
theorem State.writeData_at (s : State) (c l a : Nat) (r : LineRgn) (full : Bool) (needs : BitVec 16) (upd : List Word → Option (List Word)) (checks : List LineCheck) (w : DramWho) (hI : s.Good wq) : (WriteRes.state (State.writeData s c l a r full needs upd checks w)).Good wq := InvAt.inv (State.writeData_inv _ _ _ _ _ _ _ _ _ _ hI)

/-! Machine/DramOps.lean -/

theorem State.exclHit_inv (s : State) (c e : Nat) (hI : s.Good wq) : (State.exclHit s c e).Good wq := by
  unfold State.exclHit
  repeat' (first | with_reducible assumption | with_reducible apply State.Good.ite | with_reducible apply State.bump_inv | with_reducible apply State.post_inv | with_reducible apply State.setDram_inv)

theorem State.dramRefusal_inv (s : State) (c : Nat) (k : Carriage) (h : s.Good wq) :
    ∀ r, State.dramRefusal s c k = some r → r.2.Good wq := by
  intro r hr
  unfold State.dramRefusal at hr
  extract_lets is ad wr at hr
  clear_value is ad wr
  split at hr
  · injection hr with hr; subst hr; exact h
  · split at hr
    · rename_i e _
      have he := State.exclHit_inv s c e h
      generalize State.exclHit s c e = t at he hr
      injection hr with hr; subst hr
      exact State.Good.ite (State.rmwFail_inv _ _ _ he) he
    · split at hr
      · injection hr with hr; subst hr; exact h
      · split at hr
        · injection hr with hr; subst hr; exact h
        · split at hr
          · cases hr
          · injection hr with hr; subst hr
            refine State.Good.ite (State.raise_inv _ _ ?_) ?_ <;> exact State.Good.ite (State.raise_inv _ _ h) h

theorem State.flushGroup_inv (s : State) (c g : Nat) (hI : s.Good wq) : (State.flushGroup s c g).Good wq := by
  unfold State.flushGroup
  repeat' (first | with_reducible assumption | with_reducible apply State.setDram_inv | split | (with_reducible refine State.Good.mk_of ?_; with_reducible refine State.Good.parts ?_))

theorem State.flushGroups_inv (s : State) (c : Nat) (hI : s.Good wq) : (State.flushGroups s c).Good wq := by
  unfold State.flushGroups
  repeat' (first | with_reducible assumption | with_reducible apply State.flushGroup_inv | with_reducible apply State.forEach_inv | (with_reducible intro _ _ _))

theorem State.bufferLine_inv (s : State) (c : Nat) (r : DramReq) (i : Nat) (hI : s.Good wq) : (State.bufferLine s c r i).Good wq := by
  unfold State.bufferLine
  repeat' (first | with_reducible assumption | with_reducible apply State.Good.ite | with_reducible apply State.flushGroup_inv | with_reducible apply State.setDram_inv | split | (with_reducible refine State.Good.mk_of ?_; with_reducible refine State.Good.parts ?_))

theorem State.dramAccept_inv (s : State) (c : Nat) (pkt : List Carriage) (hI : s.Good wq) : (State.dramAccept s c pkt).Good wq := by
  unfold State.dramAccept
  repeat' (first | with_reducible assumption | with_reducible apply State.Good.ite | with_reducible apply State.bufferLine_inv | with_reducible apply State.flushGroup_inv | with_reducible apply State.forEach_inv | with_reducible apply State.setDram_inv | with_reducible apply State.Good.foldl | (with_reducible intro _ _ _))

theorem State.portDone_inv (s : State) (c : Nat) (r : DramReq) (hI : s.Good wq) : (State.portDone s c r).Good wq := by
  unfold State.portDone
  repeat' (first | with_reducible assumption | with_reducible apply State.Good.ite | with_reducible apply State.bump_inv | with_reducible apply State.peak_inv | with_reducible apply State.post_inv | with_reducible apply State.setDram_inv | split | (with_reducible refine State.Good.mk_of ?_; with_reducible refine State.Good.parts ?_))

theorem State.answerReady_inv (s : State) (c : Nat) (hI : s.Good wq) : (State.answerReady s c).Good wq := by
  unfold State.answerReady
  repeat' (first | with_reducible assumption | with_reducible apply State.Good.ite | with_reducible apply State.portDone_inv | with_reducible apply State.reply_inv | with_reducible apply State.setDram_inv | with_reducible apply State.Good.foldl | (with_reducible intro _ _ _))

theorem State.serveRead_inv (s : State) (c : Nat) (r : DramReq) (i : Nat) (checks : List LineCheck) (hI : s.Good wq) : (State.serveRead s c r i checks).Good wq := by
  unfold State.serveRead
  repeat' (first | with_reducible assumption | (extract_lets +onlyGivenNames zz; first | (refine State.Good.genRes wq zz (fun _ => ?_) ?_; clear_value zz; rotate_left; subst zz; rotate_right) | (have := State.Good.isFun zz; clear this; subst zz) | clear_value zz) | with_reducible apply State.setDram_inv | with_reducible apply State.readData_at | split)

theorem State.serveWrite_inv (s : State) (c : Nat) (r : DramReq) (i : Nat) (checks : List LineCheck) (hI : s.Good wq) : (State.serveWrite s c r i checks).Good wq := by
  unfold State.serveWrite
  repeat' (first | with_reducible assumption | (extract_lets +onlyGivenNames zz; first | (refine State.Good.genWrite wq zz (fun _ => ?_) ?_; clear_value zz; rotate_left; subst zz; rotate_right) | clear_value zz) | with_reducible apply State.Good.ite | with_reducible apply State.put_inv | with_reducible apply State.setDram_inv | with_reducible apply State.writeData_at)

theorem State.serveLine_inv (s : State) (c id i : Nat) (checks : List LineCheck) (hI : s.Good wq) : (State.serveLine s c id i checks).Good wq := by
  unfold State.serveLine
  repeat' (first | with_reducible assumption | with_reducible apply State.Good.ite | with_reducible apply State.serveRead_inv | with_reducible apply State.serveWrite_inv | split)

theorem State.writeGroup_inv (s : State) (c : Nat) (b : GroupBuf) (checks : List LineCheck) (hI : s.Good wq) : (State.writeGroup s c b checks).Good wq := by
  unfold State.writeGroup
  repeat' (first | with_reducible assumption | (extract_lets +onlyGivenNames zz; first | (refine State.Good.gen wq zz (fun _ => ?_) ?_; clear_value zz; rotate_left; subst zz; rotate_right) | (refine State.Good.genFst wq zz (fun _ => ?_) ?_; clear_value zz; rotate_left; subst zz; rotate_right) | (refine State.Good.genMeta wq zz (fun _ => ?_) ?_; clear_value zz; rotate_left; subst zz; rotate_right) | (have := State.Good.isFun zz; clear this; subst zz) | clear_value zz) | with_reducible apply State.Good.ite | with_reducible apply State.clearLost_inv | with_reducible apply State.flushGroup_inv | with_reducible apply State.noteCounter_inv | with_reducible apply State.setDram_inv | with_reducible apply State.storeLine_inv | with_reducible apply State.writeMeta_inv | with_reducible apply State.Good.foldFst | with_reducible apply State.readMeta_at | with_reducible apply State.Good.iteFst | (with_reducible intro _ _ _))

theorem State.dramSlot_inv (s : State) (c : Nat) (checks : List LineCheck) (hI : s.Good wq) : (State.dramSlot s c checks).Good wq := by
  unfold State.dramSlot
  repeat' (first | with_reducible assumption | (extract_lets +onlyGivenNames zz; first | (refine State.Good.gen wq zz (fun _ => ?_) ?_; clear_value zz; rotate_left; subst zz; rotate_right) | clear_value zz) | with_reducible apply State.Good.ite | with_reducible apply State.answerReady_inv | with_reducible apply State.serveLine_inv | with_reducible apply State.setDram_inv | with_reducible apply State.writeGroup_inv | split | (with_reducible refine State.Good.mk_of ?_; with_reducible refine State.Good.parts ?_))

theorem State.confirmAll_inv (s : State) (c : Nat) (hI : s.Good wq) : (State.confirmAll s c).Good wq := by
  unfold State.confirmAll
  repeat' (first | with_reducible assumption | with_reducible apply State.answerReady_inv | with_reducible apply State.setDram_inv)

theorem State.confirmOne_inv (s : State) (c : Nat) (hI : s.Good wq) : (State.confirmOne s c).Good wq := by
  unfold State.confirmOne
  repeat' (first | with_reducible assumption | with_reducible apply State.Good.ite | with_reducible apply State.answerReady_inv | with_reducible apply State.confirmAll_inv | with_reducible apply State.setDram_inv | split)

theorem State.flushCache_inv (s : State) (hI : s.Good wq) : (State.flushCache s).Good wq := by
  unfold State.flushCache
  repeat' (first | with_reducible assumption | with_reducible apply State.confirmAll_inv | with_reducible apply State.forEach_inv | with_reducible apply State.spillMeta_inv | (with_reducible intro _ _ _))

theorem State.serveAll_inv (s : State) (c : Nat) (ids : List Nat) (hI : s.Good wq) : (State.serveAll s c ids).Good wq := by
  unfold State.serveAll
  repeat' (first | with_reducible assumption | with_reducible apply State.Good.ite | with_reducible apply State.confirmAll_inv | with_reducible apply State.serveLine_inv | with_reducible apply State.Good.foldl | (with_reducible intro _ _ _))

theorem State.writeGroups_inv (s : State) (c : Nat) (hI : s.Good wq) : (State.writeGroups s c).Good wq := by
  unfold State.writeGroups
  repeat' (first | with_reducible assumption | (extract_lets +onlyGivenNames zz; first | (refine State.Good.gen wq zz (fun _ => ?_) ?_; clear_value zz; rotate_left; subst zz; rotate_right) | (refine State.Good.genFst wq zz (fun _ => ?_) ?_; clear_value zz; rotate_left; subst zz; rotate_right) | (refine State.Good.genSnd wq zz (fun _ => ?_) ?_; clear_value zz; rotate_left; subst zz; rotate_right) | (refine State.Good.genLine wq zz (fun _ => ?_) ?_; clear_value zz; rotate_left; subst zz; rotate_right) | (refine State.Good.genMeta wq zz (fun _ => ?_) ?_; clear_value zz; rotate_left; subst zz; rotate_right) | (refine State.Good.genRes wq zz (fun _ => ?_) ?_; clear_value zz; rotate_left; subst zz; rotate_right) | (refine State.Good.genWrite wq zz (fun _ => ?_) ?_; clear_value zz; rotate_left; subst zz; rotate_right) | (refine State.Good.genIngest wq zz (fun _ => ?_) ?_; clear_value zz; rotate_left; subst zz; rotate_right) | (refine State.Good.genOut wq zz (fun _ => ?_) ?_; clear_value zz; rotate_left; subst zz; rotate_right) | (refine State.Good.genBuild wq zz (fun _ => ?_) ?_; clear_value zz; rotate_left; subst zz; rotate_right) | (refine State.Good.genTaken wq zz (fun _ => ?_) ?_; clear_value zz; rotate_left; subst zz; rotate_right) | (refine State.Good.genMode wq zz (fun _ _ => ?_) ?_ ?_; clear_value zz; rotate_left; subst zz; rotate_left; subst zz; rotate_left) | (have := State.Good.isFun zz; clear this; subst zz) | clear_value zz) | with_reducible apply State.Good.ite | with_reducible apply State.flushGroups_inv | with_reducible apply State.serveAll_inv | with_reducible apply State.Good.iteFst | with_reducible apply State.Good.iteSnd | with_reducible apply State.Good.iteLine | with_reducible apply State.Good.iteMeta | (with_reducible intro _ _ _) | (with_reducible intro _ _) | (show Mode.isBase _ = true; first | exact rfl | exact State.Good.base (by assumption) | exact State.Good.before (by assumption) | (with_reducible refine ModeSt.withPending_base ?_) | (with_reducible refine ModeSt.withPending_before ?_) | (with_reducible refine ModeSt.withBack_base ?_) | (with_reducible refine ModeSt.withBack_before ?_)) | split | (with_reducible refine State.Good.mk_of ?_; first | with_reducible refine State.Good.parts ?_ | refine State.Good.fromReset ?_ | refine State.Good.sameBase ?_ rfl rfl | refine GoodOf.filterMem _ (State.Good.parts ?_) | refine GoodOf.filterRegs _ (State.Good.parts ?_) | refine GoodOf.fillMem _ _ _ (State.Good.parts ?_) | refine GoodOf.insertRegs _ (State.Good.parts ?_) | refine State.Good.newBase ?_ ?_ ?_))

theorem State.dramSleep_inv (s : State) (c : Nat) (hI : s.Good wq) : (State.dramSleep s c).Good wq := by
  unfold State.dramSleep
  repeat' (first | with_reducible assumption | (extract_lets +onlyGivenNames zz; first | (refine State.Good.gen wq zz (fun _ => ?_) ?_; clear_value zz; rotate_left; subst zz; rotate_right) | clear_value zz) | with_reducible apply State.Good.ite | with_reducible apply State.confirmAll_inv | with_reducible apply State.forEach_inv | with_reducible apply State.put_inv | with_reducible apply State.raise_inv | with_reducible apply State.setDram_inv | with_reducible apply State.spillMeta_inv | with_reducible apply State.writeGroups_inv | (with_reducible intro _ _ _))

theorem State.dramWake_inv (s : State) (c : Nat) (hI : s.Good wq) : (State.dramWake s c).Good wq := by
  unfold State.dramWake
  repeat' (first | with_reducible assumption | with_reducible apply State.Good.ite | with_reducible apply State.clear_inv | with_reducible apply State.put_inv | with_reducible apply State.setDram_inv)

theorem State.drainChannel_inv (s : State) (c : Nat) (hI : s.Good wq) : (State.drainChannel s c).Good wq := by
  unfold State.drainChannel
  repeat' (first | with_reducible assumption | (extract_lets +onlyGivenNames zz; (refine State.Good.gen wq zz (fun _ => ?_) ?_; clear_value zz; rotate_left; subst zz; rotate_right)) | with_reducible apply State.Good.ite | with_reducible apply State.confirmAll_inv | with_reducible apply State.dramSleep_inv | with_reducible apply State.flushGroups_inv | with_reducible apply State.serveAll_inv)

theorem State.endRenewal_inv (s : State) (hI : s.Good wq) : (State.endRenewal s).Good wq := by
  unfold State.endRenewal
  repeat' (first | with_reducible assumption | with_reducible apply State.Good.ite | with_reducible apply State.clear_inv | with_reducible apply State.setKeyState_inv | (with_reducible refine State.Good.mk_of ?_; with_reducible refine State.Good.parts ?_))

theorem State.openLines_inv (s : State) (lo hi : Nat) (hI : s.Good wq) : (State.openLines s lo hi).Good wq := by
  unfold State.openLines
  repeat' (first | with_reducible assumption | with_reducible apply State.forEach_inv | with_reducible apply State.setDram_inv | (with_reducible intro _ _ _))

end Sys2Proof.Machine
end

