-- ==== Sys2Proof/Laws/KeepFields.lean ====
section
/-! SUPPORT. Every operation keeps the invariant and the commands that wait: frames, protected fields, cells, slices and the modes.
One lemma for each operation that answers a state (`_inv`, and `_at` for the state inside a larger answer); of a command the lemma says that it completes (`Goes`). -/
namespace Sys2Proof.Machine
variable {wq : List Instr}

/-! Machine/Frames.lean -/

theorem State.resetQueues_inv (s : State) (f : Nat) (hI : s.Good wq) : (State.resetQueues s f).Good wq := by
  unfold State.resetQueues
  repeat' (first | with_reducible assumption | (with_reducible refine State.Good.mk_of ?_; with_reducible refine State.Good.parts ?_))

theorem State.initFabric_inv (s : State) (f : Nat) (hI : s.Good wq) : (State.initFabric s f).Good wq := by
  unfold State.initFabric
  repeat' (first | with_reducible assumption | with_reducible apply State.resetQueues_inv | with_reducible apply State.setCell_inv | with_reducible apply State.setSlice_inv | with_reducible apply State.Good.foldl | (with_reducible intro _ _ _) | split | (with_reducible refine State.Good.mk_of ?_; with_reducible refine State.Good.parts ?_))

theorem State.captureShadows_inv (s : State) (f : Nat) (hI : s.Good wq) : (State.captureShadows s f).Good wq := by
  unfold State.captureShadows
  repeat' (first | with_reducible assumption | with_reducible apply State.Good.ite | (with_reducible refine State.Good.mk_of ?_; with_reducible refine State.Good.parts ?_))

theorem State.noteDone_inv (s : State) (f c : Nat) (hI : s.Good wq) : (State.noteDone s f c).Good wq := by
  unfold State.noteDone
  repeat' (first | with_reducible assumption | with_reducible apply State.peak_inv | with_reducible apply State.put_inv)

theorem State.unverified_inv (s : State) (f : Nat) (hI : s.Good wq) : (State.unverified s f).Good wq := by
  unfold State.unverified
  repeat' (first | with_reducible assumption | with_reducible apply State.bump_inv | with_reducible apply State.post_inv | with_reducible apply State.raise_inv)

theorem State.doneInTime_inv (s : State) (f c : Nat) (hI : s.Good wq) : (State.doneInTime s f c).Good wq := by
  unfold State.doneInTime
  repeat' (first | with_reducible assumption | with_reducible apply State.Good.ite | with_reducible apply State.setFld_inv | with_reducible apply State.unverified_inv)

theorem State.doneLate_inv (s : State) (f c : Nat) (hI : s.Good wq) : (State.doneLate s f c).Good wq := by
  unfold State.doneLate
  repeat' (first | with_reducible assumption | with_reducible apply State.setFld_inv)

theorem State.done_inv (s : State) (f cyc : Nat) (hI : s.Good wq) : (State.done s f cyc).Good wq := by
  unfold State.done
  repeat' (first | with_reducible assumption | with_reducible apply State.Good.ite | with_reducible apply State.comeTo_inv | with_reducible apply State.doneInTime_inv | with_reducible apply State.doneLate_inv | with_reducible apply State.noteDone_inv)

theorem execDone_inv (f : FieldNo) (cyc : Nat) (s : State) (hI : s.Good wq) : Goes wq (execDone f cyc s) := by
  unfold execDone
  repeat' (first | with_reducible assumption | with_reducible apply Goes.next | with_reducible apply State.done_inv)

theorem State.overrun_inv (s : State) (f : Nat) (hI : s.Good wq) : (State.overrun s f).Good wq := by
  unfold State.overrun
  repeat' (first | with_reducible assumption | with_reducible apply State.Good.ite | with_reducible apply State.bump_inv | with_reducible apply State.logEntry_inv | with_reducible apply State.post_inv | with_reducible apply State.raise_inv | with_reducible apply State.setFld_inv)

theorem State.guard1_inv (s : State) (f : Nat) (hI : s.Good wq) : (State.guard1 s f).Good wq := by
  unfold State.guard1
  repeat' (first | with_reducible assumption | with_reducible apply State.Good.ite | with_reducible apply State.comeTo_inv | with_reducible apply State.overrun_inv | with_reducible apply State.setFld_inv | split | (with_reducible refine State.Good.mk_of ?_; with_reducible refine State.Good.parts ?_))

theorem execGuard1_inv (f : FieldNo) (s : State) (hI : s.Good wq) : Goes wq (execGuard1 f s) := by
  unfold execGuard1
  repeat' (first | with_reducible assumption | with_reducible apply Goes.next | with_reducible apply State.guard1_inv)

theorem State.guard2_inv (s : State) (f : Nat) (hI : s.Good wq) : (State.guard2 s f).Good wq := by
  unfold State.guard2
  repeat' (first | with_reducible assumption | with_reducible apply State.Good.ite | with_reducible apply State.captureShadows_inv | with_reducible apply State.comeTo_inv)

theorem execGuard2_inv (f : FieldNo) (s : State) (hI : s.Good wq) : Goes wq (execGuard2 f s) := by
  unfold execGuard2
  repeat' (first | with_reducible assumption | with_reducible apply Goes.next | with_reducible apply State.guard2_inv)

theorem State.stuckNis_inv (s : State) (f : Nat) (b : Bool) (hI : s.Good wq) : (State.stuckNis s f b).Good wq := by
  unfold State.stuckNis
  repeat' (first | with_reducible assumption | with_reducible apply State.forEach_inv | with_reducible apply State.setNi_inv | (with_reducible intro _ _ _))

theorem State.becomeStuck_inv (s : State) (f : Nat) (hI : s.Good wq) : (State.becomeStuck s f).Good wq := by
  unfold State.becomeStuck
  repeat' (first | with_reducible assumption | with_reducible apply State.clear_inv | with_reducible apply State.logEntry_inv | with_reducible apply State.post_inv | with_reducible apply State.setFld_inv | with_reducible apply State.stuckNis_inv)

theorem State.fieldStuck_inv (s : State) (f : Nat) (hI : s.Good wq) : (State.fieldStuck s f).Good wq := by
  unfold State.fieldStuck
  repeat' (first | with_reducible assumption | with_reducible apply State.Good.ite | with_reducible apply State.becomeStuck_inv)

theorem execFieldStuck_inv (f : FieldNo) (s : State) (hI : s.Good wq) : Goes wq (execFieldStuck f s) := by
  unfold execFieldStuck
  repeat' (first | with_reducible assumption | with_reducible apply Goes.next | with_reducible apply State.fieldStuck_inv)

theorem State.restart_inv (s : State) (f : Nat) (hI : s.Good wq) : (State.restart s f).Good wq := by
  unfold State.restart
  repeat' (first | with_reducible assumption | with_reducible apply State.Good.ite | with_reducible apply State.setFld_inv)

theorem execRestart_inv (f : FieldNo) (s : State) (hI : s.Good wq) : Goes wq (execRestart f s) := by
  unfold execRestart
  repeat' (first | with_reducible assumption | with_reducible apply Goes.next | with_reducible apply State.restart_inv)

theorem State.contention_inv (s : State) (f track cyc : Nat) (hI : s.Good wq) : (State.contention s f track cyc).Good wq := by
  unfold State.contention
  repeat' (first | with_reducible assumption | with_reducible apply State.Good.ite | with_reducible apply State.bump_inv | with_reducible apply State.comeTo_inv | with_reducible apply State.detectBeforeDone_inv | with_reducible apply State.logEntry_inv | with_reducible apply State.logOpen_inv | with_reducible apply State.post_inv | with_reducible apply State.put_inv | with_reducible apply State.setSeg_inv | with_reducible apply State.freeWord_at)

theorem execContention_inv (f : FieldNo) (track : Fin 128) (cyc : Nat) (s : State) (hI : s.Good wq) : Goes wq (execContention f track cyc s) := by
  unfold execContention
  repeat' (first | with_reducible assumption | with_reducible apply Goes.next | with_reducible apply State.contention_inv)

theorem State.contClr_inv (s : State) (f : Nat) (hI : s.Good wq) : (State.contClr s f).Good wq := by
  unfold State.contClr
  repeat' (first | with_reducible assumption | (with_reducible refine State.Good.mk_of ?_; with_reducible refine State.Good.parts ?_))

theorem execContClr_inv (f : FieldNo) (s : State) (hI : s.Good wq) : Goes wq (execContClr f s) := by
  unfold execContClr
  repeat' (first | with_reducible assumption | with_reducible apply Goes.next | with_reducible apply State.contClr_inv)

/-! Machine/Protected.lean -/

theorem State.chkfail_inv (s : State) (f cyc : Nat) (hI : s.Good wq) : (State.chkfail s f cyc).Good wq := by
  unfold State.chkfail
  repeat' (first | with_reducible assumption | with_reducible apply State.Good.ite | with_reducible apply State.comeTo_inv | with_reducible apply State.detectBeforeDone_inv)

theorem execChkfail_inv (f : FieldNo) (cyc : Nat) (s : State) (hI : s.Good wq) : Goes wq (execChkfail f cyc s) := by
  unfold execChkfail
  repeat' (first | with_reducible assumption | with_reducible apply Goes.next | with_reducible apply State.chkfail_inv)

theorem State.replayStart_inv (s : State) (f cyc : Nat) (hI : s.Good wq) : (State.replayStart s f cyc).Good wq := by
  unfold State.replayStart
  repeat' (first | with_reducible assumption | with_reducible apply State.Good.ite | with_reducible apply State.raise_inv | with_reducible apply State.setFld_inv)

theorem execReplayStart_inv (f : FieldNo) (cyc : Nat) (s : State) (hI : s.Good wq) : Goes wq (execReplayStart f cyc s) := by
  unfold execReplayStart
  repeat' (first | with_reducible assumption | with_reducible apply Goes.next | with_reducible apply State.replayStart_inv)

theorem State.windowClose_inv (s : State) (f : Nat) (hI : s.Good wq) : (State.windowClose s f).Good wq := by
  unfold State.windowClose
  repeat' (first | with_reducible assumption | with_reducible apply State.Good.ite | with_reducible apply State.raise_inv | split | (with_reducible refine State.Good.mk_of ?_; with_reducible refine State.Good.parts ?_))

theorem execVerificationWindowClose_inv (f : FieldNo) (s : State) (hI : s.Good wq) : Goes wq (execVerificationWindowClose f s) := by
  unfold execVerificationWindowClose
  repeat' (first | with_reducible assumption | with_reducible apply Goes.next | with_reducible apply State.windowClose_inv)

theorem State.snapDone_inv (s : State) (f : Nat) (hI : s.Good wq) : (State.snapDone s f).Good wq := by
  unfold State.snapDone
  repeat' (first | with_reducible assumption | with_reducible apply State.Good.ite | with_reducible apply State.clear_inv | with_reducible apply State.post_inv | with_reducible apply State.raise_inv)

theorem execSnapDone_inv (f : FieldNo) (s : State) (hI : s.Good wq) : Goes wq (execSnapDone f s) := by
  unfold execSnapDone
  repeat' (first | with_reducible assumption | with_reducible apply Goes.next | with_reducible apply State.snapDone_inv)

/-! Machine/Cells.lean -/

theorem State.countSat_inv (s : State) (f : Nat) (st : Nat × Nat) (sat : Bool) (hI : s.Good wq) : (State.countSat s f st sat).Good wq := by
  unfold State.countSat
  repeat' (first | with_reducible assumption | with_reducible apply State.Good.ite | with_reducible apply State.bump_inv | with_reducible apply State.setFld_inv)

theorem State.cellTurn_inv (s : State) (o : CellOp) (hI : s.Good wq) : (State.cellTurn s o).Good wq := by
  unfold State.cellTurn
  repeat' (first | with_reducible assumption | with_reducible apply State.comeTo_inv | with_reducible apply State.setCell_inv)

theorem State.cellDone_inv (s : State) (o : CellOp) (st : Nat × Nat) (r : CellRegs) (cout : Bool) (hI : s.Good wq) : (State.cellDone s o st r cout).Good wq := by
  unfold State.cellDone
  repeat' (first | with_reducible assumption | with_reducible apply State.setCell_inv)

theorem State.runCell_inv (s : State) (op : Nat) (o : CellOp) (alu : AluIn → AluOut) (always : Bool) (hI : s.Good wq) : (State.runCell s op o alu always).Good wq := by
  unfold State.runCell
  repeat' (first | with_reducible assumption | with_reducible apply State.Good.ite | with_reducible apply State.cellDone_inv | with_reducible apply State.cellTurn_inv | with_reducible apply State.countSat_inv | split | (with_reducible refine State.Good.mk_of ?_; with_reducible refine State.Good.parts ?_))

theorem execNop_inv (o : CellOp) (s : State) (hI : s.Good wq) : Goes wq (execNop o s) := by
  unfold execNop
  repeat' (first | with_reducible assumption | with_reducible apply Goes.next | with_reducible apply State.runCell_inv)

theorem execAdd_inv (o : CellOp) (s : State) (hI : s.Good wq) : Goes wq (execAdd o s) := by
  unfold execAdd
  repeat' (first | with_reducible assumption | with_reducible apply Goes.next | with_reducible apply State.runCell_inv)

theorem execAdc_inv (o : CellOp) (s : State) (hI : s.Good wq) : Goes wq (execAdc o s) := by
  unfold execAdc
  repeat' (first | with_reducible assumption | with_reducible apply Goes.next | with_reducible apply State.runCell_inv)

theorem execAddw_inv (o : CellOp) (s : State) (hI : s.Good wq) : Goes wq (execAddw o s) := by
  unfold execAddw
  repeat' (first | with_reducible assumption | with_reducible apply Goes.next | with_reducible apply State.runCell_inv)

theorem execSub_inv (o : CellOp) (s : State) (hI : s.Good wq) : Goes wq (execSub o s) := by
  unfold execSub
  repeat' (first | with_reducible assumption | with_reducible apply Goes.next | with_reducible apply State.runCell_inv)

theorem execSbc_inv (o : CellOp) (s : State) (hI : s.Good wq) : Goes wq (execSbc o s) := by
  unfold execSbc
  repeat' (first | with_reducible assumption | with_reducible apply Goes.next | with_reducible apply State.runCell_inv)

theorem execSubw_inv (o : CellOp) (s : State) (hI : s.Good wq) : Goes wq (execSubw o s) := by
  unfold execSubw
  repeat' (first | with_reducible assumption | with_reducible apply Goes.next | with_reducible apply State.runCell_inv)

theorem execNeg_inv (o : CellOp) (s : State) (hI : s.Good wq) : Goes wq (execNeg o s) := by
  unfold execNeg
  repeat' (first | with_reducible assumption | with_reducible apply Goes.next | with_reducible apply State.runCell_inv)

theorem execAbs_inv (o : CellOp) (s : State) (hI : s.Good wq) : Goes wq (execAbs o s) := by
  unfold execAbs
  repeat' (first | with_reducible assumption | with_reducible apply Goes.next | with_reducible apply State.runCell_inv)

theorem execAddsh_inv (o : CellOp) (s : State) (hI : s.Good wq) : Goes wq (execAddsh o s) := by
  unfold execAddsh
  repeat' (first | with_reducible assumption | with_reducible apply Goes.next | with_reducible apply State.runCell_inv)

theorem execCmp_inv (o : CellOp) (s : State) (hI : s.Good wq) : Goes wq (execCmp o s) := by
  unfold execCmp
  repeat' (first | with_reducible assumption | with_reducible apply Goes.next | with_reducible apply State.runCell_inv)

theorem execCmpw_inv (o : CellOp) (s : State) (hI : s.Good wq) : Goes wq (execCmpw o s) := by
  unfold execCmpw
  repeat' (first | with_reducible assumption | with_reducible apply Goes.next | with_reducible apply State.runCell_inv)

theorem execAnd_inv (o : CellOp) (s : State) (hI : s.Good wq) : Goes wq (execAnd o s) := by
  unfold execAnd
  repeat' (first | with_reducible assumption | with_reducible apply Goes.next | with_reducible apply State.runCell_inv)

theorem execOr_inv (o : CellOp) (s : State) (hI : s.Good wq) : Goes wq (execOr o s) := by
  unfold execOr
  repeat' (first | with_reducible assumption | with_reducible apply Goes.next | with_reducible apply State.runCell_inv)

theorem execXor_inv (o : CellOp) (s : State) (hI : s.Good wq) : Goes wq (execXor o s) := by
  unfold execXor
  repeat' (first | with_reducible assumption | with_reducible apply Goes.next | with_reducible apply State.runCell_inv)

theorem execAndn_inv (o : CellOp) (s : State) (hI : s.Good wq) : Goes wq (execAndn o s) := by
  unfold execAndn
  repeat' (first | with_reducible assumption | with_reducible apply Goes.next | with_reducible apply State.runCell_inv)

theorem execOrn_inv (o : CellOp) (s : State) (hI : s.Good wq) : Goes wq (execOrn o s) := by
  unfold execOrn
  repeat' (first | with_reducible assumption | with_reducible apply Goes.next | with_reducible apply State.runCell_inv)

theorem execXnor_inv (o : CellOp) (s : State) (hI : s.Good wq) : Goes wq (execXnor o s) := by
  unfold execXnor
  repeat' (first | with_reducible assumption | with_reducible apply Goes.next | with_reducible apply State.runCell_inv)

theorem execNot_inv (o : CellOp) (s : State) (hI : s.Good wq) : Goes wq (execNot o s) := by
  unfold execNot
  repeat' (first | with_reducible assumption | with_reducible apply Goes.next | with_reducible apply State.runCell_inv)

theorem execBsel_inv (o : CellOp) (s : State) (hI : s.Good wq) : Goes wq (execBsel o s) := by
  unfold execBsel
  repeat' (first | with_reducible assumption | with_reducible apply Goes.next | with_reducible apply State.runCell_inv)

theorem execTest_inv (o : CellOp) (s : State) (hI : s.Good wq) : Goes wq (execTest o s) := by
  unfold execTest
  repeat' (first | with_reducible assumption | with_reducible apply Goes.next | with_reducible apply State.runCell_inv)

theorem execXorshr_inv (o : CellOp) (s : State) (hI : s.Good wq) : Goes wq (execXorshr o s) := by
  unfold execXorshr
  repeat' (first | with_reducible assumption | with_reducible apply Goes.next | with_reducible apply State.runCell_inv)

theorem execShl_inv (o : CellOp) (s : State) (hI : s.Good wq) : Goes wq (execShl o s) := by
  unfold execShl
  repeat' (first | with_reducible assumption | with_reducible apply Goes.next | with_reducible apply State.runCell_inv)

theorem execShr_inv (o : CellOp) (s : State) (hI : s.Good wq) : Goes wq (execShr o s) := by
  unfold execShr
  repeat' (first | with_reducible assumption | with_reducible apply Goes.next | with_reducible apply State.runCell_inv)

theorem execSar_inv (o : CellOp) (s : State) (hI : s.Good wq) : Goes wq (execSar o s) := by
  unfold execSar
  repeat' (first | with_reducible assumption | with_reducible apply Goes.next | with_reducible apply State.runCell_inv)

theorem execRol_inv (o : CellOp) (s : State) (hI : s.Good wq) : Goes wq (execRol o s) := by
  unfold execRol
  repeat' (first | with_reducible assumption | with_reducible apply Goes.next | with_reducible apply State.runCell_inv)

theorem execRor_inv (o : CellOp) (s : State) (hI : s.Good wq) : Goes wq (execRor o s) := by
  unfold execRor
  repeat' (first | with_reducible assumption | with_reducible apply Goes.next | with_reducible apply State.runCell_inv)

theorem execShlv_inv (o : CellOp) (s : State) (hI : s.Good wq) : Goes wq (execShlv o s) := by
  unfold execShlv
  repeat' (first | with_reducible assumption | with_reducible apply Goes.next | with_reducible apply State.runCell_inv)

theorem execShrv_inv (o : CellOp) (s : State) (hI : s.Good wq) : Goes wq (execShrv o s) := by
  unfold execShrv
  repeat' (first | with_reducible assumption | with_reducible apply Goes.next | with_reducible apply State.runCell_inv)

theorem execSarv_inv (o : CellOp) (s : State) (hI : s.Good wq) : Goes wq (execSarv o s) := by
  unfold execSarv
  repeat' (first | with_reducible assumption | with_reducible apply Goes.next | with_reducible apply State.runCell_inv)

theorem execFshr_inv (o : CellOp) (s : State) (hI : s.Good wq) : Goes wq (execFshr o s) := by
  unfold execFshr
  repeat' (first | with_reducible assumption | with_reducible apply Goes.next | with_reducible apply State.runCell_inv)

theorem execExtu_inv (o : CellOp) (s : State) (hI : s.Good wq) : Goes wq (execExtu o s) := by
  unfold execExtu
  repeat' (first | with_reducible assumption | with_reducible apply Goes.next | with_reducible apply State.runCell_inv)

theorem execExts_inv (o : CellOp) (s : State) (hI : s.Good wq) : Goes wq (execExts o s) := by
  unfold execExts
  repeat' (first | with_reducible assumption | with_reducible apply Goes.next | with_reducible apply State.runCell_inv)

theorem execIns_inv (o : CellOp) (s : State) (hI : s.Good wq) : Goes wq (execIns o s) := by
  unfold execIns
  repeat' (first | with_reducible assumption | with_reducible apply Goes.next | with_reducible apply State.runCell_inv)

theorem execBrev_inv (o : CellOp) (s : State) (hI : s.Good wq) : Goes wq (execBrev o s) := by
  unfold execBrev
  repeat' (first | with_reducible assumption | with_reducible apply Goes.next | with_reducible apply State.runCell_inv)

theorem execBswap_inv (o : CellOp) (s : State) (hI : s.Good wq) : Goes wq (execBswap o s) := by
  unfold execBswap
  repeat' (first | with_reducible assumption | with_reducible apply Goes.next | with_reducible apply State.runCell_inv)

theorem execPopc_inv (o : CellOp) (s : State) (hI : s.Good wq) : Goes wq (execPopc o s) := by
  unfold execPopc
  repeat' (first | with_reducible assumption | with_reducible apply Goes.next | with_reducible apply State.runCell_inv)

theorem execClz_inv (o : CellOp) (s : State) (hI : s.Good wq) : Goes wq (execClz o s) := by
  unfold execClz
  repeat' (first | with_reducible assumption | with_reducible apply Goes.next | with_reducible apply State.runCell_inv)

theorem execCtz_inv (o : CellOp) (s : State) (hI : s.Good wq) : Goes wq (execCtz o s) := by
  unfold execCtz
  repeat' (first | with_reducible assumption | with_reducible apply Goes.next | with_reducible apply State.runCell_inv)

theorem execCls_inv (o : CellOp) (s : State) (hI : s.Good wq) : Goes wq (execCls o s) := by
  unfold execCls
  repeat' (first | with_reducible assumption | with_reducible apply Goes.next | with_reducible apply State.runCell_inv)

theorem execMins_inv (o : CellOp) (s : State) (hI : s.Good wq) : Goes wq (execMins o s) := by
  unfold execMins
  repeat' (first | with_reducible assumption | with_reducible apply Goes.next | with_reducible apply State.runCell_inv)

theorem execMaxs_inv (o : CellOp) (s : State) (hI : s.Good wq) : Goes wq (execMaxs o s) := by
  unfold execMaxs
  repeat' (first | with_reducible assumption | with_reducible apply Goes.next | with_reducible apply State.runCell_inv)

theorem execMinu_inv (o : CellOp) (s : State) (hI : s.Good wq) : Goes wq (execMinu o s) := by
  unfold execMinu
  repeat' (first | with_reducible assumption | with_reducible apply Goes.next | with_reducible apply State.runCell_inv)

theorem execMaxu_inv (o : CellOp) (s : State) (hI : s.Good wq) : Goes wq (execMaxu o s) := by
  unfold execMaxu
  repeat' (first | with_reducible assumption | with_reducible apply Goes.next | with_reducible apply State.runCell_inv)

theorem execSel_inv (o : CellOp) (s : State) (hI : s.Good wq) : Goes wq (execSel o s) := by
  unfold execSel
  repeat' (first | with_reducible assumption | with_reducible apply Goes.next | with_reducible apply State.runCell_inv)

theorem execSelz_inv (o : CellOp) (s : State) (hI : s.Good wq) : Goes wq (execSelz o s) := by
  unfold execSelz
  repeat' (first | with_reducible assumption | with_reducible apply Goes.next | with_reducible apply State.runCell_inv)

theorem execMov_inv (o : CellOp) (s : State) (hI : s.Good wq) : Goes wq (execMov o s) := by
  unfold execMov
  repeat' (first | with_reducible assumption | with_reducible apply Goes.next | with_reducible apply State.runCell_inv)

theorem execLdi_inv (o : CellOp) (s : State) (hI : s.Good wq) : Goes wq (execLdi o s) := by
  unfold execLdi
  repeat' (first | with_reducible assumption | with_reducible apply Goes.next | with_reducible apply State.runCell_inv)

theorem execLdim_inv (o : CellOp) (s : State) (hI : s.Good wq) : Goes wq (execLdim o s) := by
  unfold execLdim
  repeat' (first | with_reducible assumption | with_reducible apply Goes.next | with_reducible apply State.runCell_inv)

theorem execLdih_inv (o : CellOp) (s : State) (hI : s.Good wq) : Goes wq (execLdih o s) := by
  unfold execLdih
  repeat' (first | with_reducible assumption | with_reducible apply Goes.next | with_reducible apply State.runCell_inv)

theorem execGetf_inv (o : CellOp) (s : State) (hI : s.Good wq) : Goes wq (execGetf o s) := by
  unfold execGetf
  repeat' (first | with_reducible assumption | with_reducible apply Goes.next | with_reducible apply State.runCell_inv)

theorem execSetf_inv (o : CellOp) (s : State) (hI : s.Good wq) : Goes wq (execSetf o s) := by
  unfold execSetf
  repeat' (first | with_reducible assumption | with_reducible apply Goes.next | with_reducible apply State.runCell_inv)

theorem execVadd_inv (o : CellOp) (s : State) (hI : s.Good wq) : Goes wq (execVadd o s) := by
  unfold execVadd
  repeat' (first | with_reducible assumption | with_reducible apply Goes.next | with_reducible apply State.runCell_inv)

theorem execVsub_inv (o : CellOp) (s : State) (hI : s.Good wq) : Goes wq (execVsub o s) := by
  unfold execVsub
  repeat' (first | with_reducible assumption | with_reducible apply Goes.next | with_reducible apply State.runCell_inv)

theorem execVabs_inv (o : CellOp) (s : State) (hI : s.Good wq) : Goes wq (execVabs o s) := by
  unfold execVabs
  repeat' (first | with_reducible assumption | with_reducible apply Goes.next | with_reducible apply State.runCell_inv)

theorem execVmins_inv (o : CellOp) (s : State) (hI : s.Good wq) : Goes wq (execVmins o s) := by
  unfold execVmins
  repeat' (first | with_reducible assumption | with_reducible apply Goes.next | with_reducible apply State.runCell_inv)

theorem execVmaxs_inv (o : CellOp) (s : State) (hI : s.Good wq) : Goes wq (execVmaxs o s) := by
  unfold execVmaxs
  repeat' (first | with_reducible assumption | with_reducible apply Goes.next | with_reducible apply State.runCell_inv)

theorem execVminu_inv (o : CellOp) (s : State) (hI : s.Good wq) : Goes wq (execVminu o s) := by
  unfold execVminu
  repeat' (first | with_reducible assumption | with_reducible apply Goes.next | with_reducible apply State.runCell_inv)

theorem execVmaxu_inv (o : CellOp) (s : State) (hI : s.Good wq) : Goes wq (execVmaxu o s) := by
  unfold execVmaxu
  repeat' (first | with_reducible assumption | with_reducible apply Goes.next | with_reducible apply State.runCell_inv)

theorem execVcmpeq_inv (o : CellOp) (s : State) (hI : s.Good wq) : Goes wq (execVcmpeq o s) := by
  unfold execVcmpeq
  repeat' (first | with_reducible assumption | with_reducible apply Goes.next | with_reducible apply State.runCell_inv)

theorem execVcmpgt_inv (o : CellOp) (s : State) (hI : s.Good wq) : Goes wq (execVcmpgt o s) := by
  unfold execVcmpgt
  repeat' (first | with_reducible assumption | with_reducible apply Goes.next | with_reducible apply State.runCell_inv)

theorem execVshl_inv (o : CellOp) (s : State) (hI : s.Good wq) : Goes wq (execVshl o s) := by
  unfold execVshl
  repeat' (first | with_reducible assumption | with_reducible apply Goes.next | with_reducible apply State.runCell_inv)

theorem execVshr_inv (o : CellOp) (s : State) (hI : s.Good wq) : Goes wq (execVshr o s) := by
  unfold execVshr
  repeat' (first | with_reducible assumption | with_reducible apply Goes.next | with_reducible apply State.runCell_inv)

theorem execVsar_inv (o : CellOp) (s : State) (hI : s.Good wq) : Goes wq (execVsar o s) := by
  unfold execVsar
  repeat' (first | with_reducible assumption | with_reducible apply Goes.next | with_reducible apply State.runCell_inv)

theorem execVavg_inv (o : CellOp) (s : State) (hI : s.Good wq) : Goes wq (execVavg o s) := by
  unfold execVavg
  repeat' (first | with_reducible assumption | with_reducible apply Goes.next | with_reducible apply State.runCell_inv)

theorem execLut12_inv (o : CellOp) (s : State) (hI : s.Good wq) : Goes wq (execLut12 o s) := by
  unfold execLut12
  repeat' (first | with_reducible assumption | with_reducible apply Goes.next | with_reducible apply State.runCell_inv)

theorem State.runLutOnly_inv (s : State) (o : CellOp) (hI : s.Good wq) : (State.runLutOnly s o).Good wq := by
  unfold State.runLutOnly
  repeat' (first | with_reducible assumption | with_reducible apply State.Good.ite | with_reducible apply State.cellDone_inv | with_reducible apply State.cellTurn_inv | split)

theorem execLutonly_inv (o : CellOp) (s : State) (hI : s.Good wq) : Goes wq (execLutonly o s) := by
  unfold execLutonly
  repeat' (first | with_reducible assumption | with_reducible apply Goes.next | with_reducible apply State.runLutOnly_inv)

theorem State.wireEdge_inv (s : State) (e : WireEdge) (wop : Nat) (g : Word → Word → Word → Word) (hI : s.Good wq) : (State.wireEdge s e wop g).Good wq := by
  unfold State.wireEdge
  repeat' (first | with_reducible assumption | with_reducible apply State.Good.ite | with_reducible apply State.setCell_inv | split)

theorem execLoadx_inv (e : WireEdge) (s : State) (hI : s.Good wq) : Goes wq (execLoadx e s) := by
  unfold execLoadx
  repeat' (first | with_reducible assumption | with_reducible apply Goes.next | with_reducible apply State.wireEdge_inv)

theorem execLoady_inv (e : WireEdge) (s : State) (hI : s.Good wq) : Goes wq (execLoady e s) := by
  unfold execLoady
  repeat' (first | with_reducible assumption | with_reducible apply Goes.next | with_reducible apply State.wireEdge_inv)

theorem execInc_inv (e : WireEdge) (s : State) (hI : s.Good wq) : Goes wq (execInc e s) := by
  unfold execInc
  repeat' (first | with_reducible assumption | with_reducible apply Goes.next | with_reducible apply State.wireEdge_inv)

theorem execIncg_inv (e : WireEdge) (s : State) (hI : s.Good wq) : Goes wq (execIncg e s) := by
  unfold execIncg
  repeat' (first | with_reducible assumption | with_reducible apply Goes.next | with_reducible apply State.wireEdge_inv)

/-! Machine/Slices.lean -/

theorem State.sliceTurn_inv (s : State) (o : SliceOp) (hI : s.Good wq) : (State.sliceTurn s o).Good wq := by
  unfold State.sliceTurn
  repeat' (first | with_reducible assumption | with_reducible apply State.comeTo_inv | with_reducible apply State.setSlice_inv)

theorem State.countOvf_inv (s : State) (f : Nat) (st : Nat × Nat) (ovf : Bool) (hI : s.Good wq) : (State.countOvf s f st ovf).Good wq := by
  unfold State.countOvf
  repeat' (first | with_reducible assumption | with_reducible apply State.Good.ite | with_reducible apply State.bump_inv | with_reducible apply State.setFld_inv)

theorem State.sliceDone_inv (s : State) (o : SliceOp) (st : Nat × Nat) (r : SliceRegs) (hI : s.Good wq) : (State.sliceDone s o st r).Good wq := by
  unfold State.sliceDone
  repeat' (first | with_reducible assumption | with_reducible apply State.setSlice_inv)

theorem State.runSlice_inv (s : State) (op : Nat) (o : SliceOp) (g : SliceIn → SliceOut) (hI : s.Good wq) : (State.runSlice s op o g).Good wq := by
  unfold State.runSlice
  repeat' (first | with_reducible assumption | with_reducible apply State.Good.ite | with_reducible apply State.countOvf_inv | with_reducible apply State.countSat_inv | with_reducible apply State.sliceDone_inv | with_reducible apply State.sliceTurn_inv | split | (with_reducible refine State.Good.mk_of ?_; with_reducible refine State.Good.parts ?_))

theorem execSliceNop_inv (o : SliceOp) (s : State) (hI : s.Good wq) : Goes wq (execSliceNop o s) := by
  unfold execSliceNop
  repeat' (first | with_reducible assumption | with_reducible apply Goes.next | with_reducible apply State.runSlice_inv)

theorem execMul_inv (o : SliceOp) (s : State) (hI : s.Good wq) : Goes wq (execMul o s) := by
  unfold execMul
  repeat' (first | with_reducible assumption | with_reducible apply Goes.next | with_reducible apply State.runSlice_inv)

theorem execMac_inv (o : SliceOp) (s : State) (hI : s.Good wq) : Goes wq (execMac o s) := by
  unfold execMac
  repeat' (first | with_reducible assumption | with_reducible apply Goes.next | with_reducible apply State.runSlice_inv)

theorem execMsu_inv (o : SliceOp) (s : State) (hI : s.Good wq) : Goes wq (execMsu o s) := by
  unfold execMsu
  repeat' (first | with_reducible assumption | with_reducible apply Goes.next | with_reducible apply State.runSlice_inv)

theorem execTapm_inv (o : SliceOp) (s : State) (hI : s.Good wq) : Goes wq (execTapm o s) := by
  unfold execTapm
  repeat' (first | with_reducible assumption | with_reducible apply Goes.next | with_reducible apply State.runSlice_inv)

theorem execTapc_inv (o : SliceOp) (s : State) (hI : s.Good wq) : Goes wq (execTapc o s) := by
  unfold execTapc
  repeat' (first | with_reducible assumption | with_reducible apply Goes.next | with_reducible apply State.runSlice_inv)

theorem execTapz_inv (o : SliceOp) (s : State) (hI : s.Good wq) : Goes wq (execTapz o s) := by
  unfold execTapz
  repeat' (first | with_reducible assumption | with_reducible apply Goes.next | with_reducible apply State.runSlice_inv)

theorem execRdacc_inv (o : SliceOp) (s : State) (hI : s.Good wq) : Goes wq (execRdacc o s) := by
  unfold execRdacc
  repeat' (first | with_reducible assumption | with_reducible apply Goes.next | with_reducible apply State.runSlice_inv)

theorem execLdacc_inv (o : SliceOp) (s : State) (hI : s.Good wq) : Goes wq (execLdacc o s) := by
  unfold execLdacc
  repeat' (first | with_reducible assumption | with_reducible apply Goes.next | with_reducible apply State.runSlice_inv)

theorem execAddacc_inv (o : SliceOp) (s : State) (hI : s.Good wq) : Goes wq (execAddacc o s) := by
  unfold execAddacc
  repeat' (first | with_reducible assumption | with_reducible apply Goes.next | with_reducible apply State.runSlice_inv)

theorem execClracc_inv (o : SliceOp) (s : State) (hI : s.Good wq) : Goes wq (execClracc o s) := by
  unfold execClracc
  repeat' (first | with_reducible assumption | with_reducible apply Goes.next | with_reducible apply State.runSlice_inv)

theorem execSliceMov_inv (o : SliceOp) (s : State) (hI : s.Good wq) : Goes wq (execSliceMov o s) := by
  unfold execSliceMov
  repeat' (first | with_reducible assumption | with_reducible apply Goes.next | with_reducible apply State.runSlice_inv)

theorem execSliceLdi_inv (o : SliceOp) (s : State) (hI : s.Good wq) : Goes wq (execSliceLdi o s) := by
  unfold execSliceLdi
  repeat' (first | with_reducible assumption | with_reducible apply Goes.next | with_reducible apply State.runSlice_inv)

theorem execSliceLdim_inv (o : SliceOp) (s : State) (hI : s.Good wq) : Goes wq (execSliceLdim o s) := by
  unfold execSliceLdim
  repeat' (first | with_reducible assumption | with_reducible apply Goes.next | with_reducible apply State.runSlice_inv)

theorem execSliceLdih_inv (o : SliceOp) (s : State) (hI : s.Good wq) : Goes wq (execSliceLdih o s) := by
  unfold execSliceLdih
  repeat' (first | with_reducible assumption | with_reducible apply Goes.next | with_reducible apply State.runSlice_inv)

theorem execSwaph_inv (o : SliceOp) (s : State) (hI : s.Good wq) : Goes wq (execSwaph o s) := by
  unfold execSwaph
  repeat' (first | with_reducible assumption | with_reducible apply Goes.next | with_reducible apply State.runSlice_inv)

theorem execConj_inv (o : SliceOp) (s : State) (hI : s.Good wq) : Goes wq (execConj o s) := by
  unfold execConj
  repeat' (first | with_reducible assumption | with_reducible apply Goes.next | with_reducible apply State.runSlice_inv)

/-! Machine/Modes.lean -/

theorem State.syncConfig_inv (s : State) (hI : s.Good wq) : (State.syncConfig s).Good wq := by
  unfold State.syncConfig
  repeat' (first | with_reducible assumption | with_reducible apply State.put_inv)

theorem State.unconfigure_inv (s : State) (f : Nat) (hI : s.Good wq) : (State.unconfigure s f).Good wq := by
  unfold State.unconfigure
  repeat' (first | with_reducible assumption | with_reducible apply State.dropImageBits_inv | with_reducible apply State.initFabric_inv | with_reducible apply State.setImage_inv | (with_reducible refine State.Good.mk_of ?_; first | with_reducible refine State.Good.parts ?_ | refine GoodOf.filterMem _ (State.Good.parts ?_)))

theorem State.clearConfig_inv (s : State) (hI : s.Good wq) : (State.clearConfig s).Good wq := by
  unfold State.clearConfig
  repeat' (first | with_reducible assumption | with_reducible apply State.forEach_inv | with_reducible apply State.put_inv | with_reducible apply State.setFld_inv | with_reducible apply State.syncConfig_inv | with_reducible apply State.unconfigure_inv | (with_reducible intro _ _ _) | (with_reducible refine State.Good.mk_of ?_; with_reducible refine State.Good.parts ?_))

theorem State.loadReply_inv (s : State) (l : LoadSt) (status code : Nat) (hI : s.Good wq) : (State.loadReply s l status code).Good wq := by
  unfold State.loadReply
  repeat' (first | with_reducible assumption | with_reducible apply State.finish_inv | split)

theorem State.noteLoadFail_inv (s : State) (f : LoadFail) (hI : s.Good wq) : (State.noteLoadFail s f).Good wq := by
  unfold State.noteLoadFail
  repeat' (first | with_reducible assumption | with_reducible apply State.put_inv)

theorem State.setPoints_inv (s : State) (v f : Nat) (hI : s.Good wq) : (State.setPoints s v f).Good wq := by
  unfold State.setPoints
  repeat' (first | with_reducible assumption | with_reducible apply State.put_inv)

theorem State.command_inv (s : State) (v : Nat) (hI : s.Good wq) : (State.command s v).Good wq := by
  unfold State.command
  repeat' (first | with_reducible assumption | with_reducible apply State.setPoints_inv | (with_reducible refine State.Good.mk_of ?_; with_reducible refine State.Good.parts ?_))

theorem State.opBegin_inv (s : State) (j : Nat) (hI : s.Good wq) : (State.opBegin s j).Good wq := by
  unfold State.opBegin
  repeat' (first | with_reducible assumption | with_reducible apply State.Good.ite | with_reducible apply State.command_inv | with_reducible apply State.post_inv | with_reducible apply State.raise_inv | with_reducible apply State.setPoints_inv | (with_reducible refine State.Good.mk_of ?_; with_reducible refine State.Good.parts ?_))

theorem State.opRequest_inv (s : State) (j : Nat) (hI : s.Good wq) : (State.opRequest s j).Good wq := by
  unfold State.opRequest
  repeat' (first | with_reducible assumption | with_reducible apply State.Good.ite | with_reducible apply State.opBegin_inv | with_reducible apply State.put_inv | with_reducible apply State.raise_inv)

theorem State.opHeldRequest_inv (s : State) (hI : s.Good wq) : (State.opHeldRequest s).Good wq := by
  unfold State.opHeldRequest
  repeat' (first | with_reducible assumption | with_reducible apply State.Good.ite | with_reducible apply State.clear_inv | with_reducible apply State.opRequest_inv)

theorem State.lockRaise_inv (s : State) (hI : s.Good wq) : (State.lockRaise s).Good wq := by
  unfold State.lockRaise
  repeat' (first | with_reducible assumption | with_reducible apply State.Good.ite | with_reducible apply State.opRequest_inv)

theorem State.enterLocking_inv (s : State) (c : Cause) (hI : s.Good wq) : (State.enterLocking s c).Good wq := by
  unfold State.enterLocking
  repeat' (first | with_reducible assumption | with_reducible apply State.enterMode_inv | with_reducible apply State.lockBegin_inv | with_reducible apply State.lockRaise_inv | (show Mode.isBase _ = true; first | exact rfl | exact State.Good.before (by assumption)))

theorem State.failLoad_inv (s : State) (f : LoadFail) (hI : s.Good wq) : (State.failLoad s f).Good wq := by
  unfold State.failLoad
  repeat' (first | with_reducible assumption | (extract_lets +onlyGivenNames zz; first | (refine State.Good.gen wq zz (fun _ => ?_) ?_; clear_value zz; rotate_left; subst zz; rotate_right) | (refine State.Good.genMode wq zz (fun _ _ => ?_) ?_ ?_; clear_value zz; rotate_left; subst zz; rotate_left; subst zz; rotate_left) | clear_value zz) | with_reducible apply State.Good.ite | with_reducible apply State.clearConfig_inv | with_reducible apply State.enterLocking_inv | with_reducible apply State.enterMode_inv | with_reducible apply State.loadReply_inv | with_reducible apply State.noteLoadFail_inv | with_reducible apply State.raise_inv | with_reducible apply State.syncConfig_inv | (show Mode.isBase _ = true; first | exact State.Good.base (by assumption) | exact State.Good.before (by assumption)) | split | (with_reducible refine State.Good.mk_of ?_; with_reducible refine State.Good.parts ?_))

theorem State.keepFenced_inv (s : State) (f : Nat) (hI : s.Good wq) : (State.keepFenced s f).Good wq := by
  unfold State.keepFenced
  repeat' (first | with_reducible assumption | (with_reducible refine State.Good.mk_of ?_; with_reducible refine State.Good.parts ?_))

theorem State.endFenced_inv (s : State) (f : Nat) (hI : s.Good wq) : (State.endFenced s f).Good wq := by
  unfold State.endFenced
  repeat' (first | with_reducible assumption | (with_reducible refine State.Good.mk_of ?_; with_reducible refine State.Good.parts ?_))

theorem State.voidLoad_inv (s : State) (hI : s.Good wq) : (State.voidLoad s).Good wq := by
  unfold State.voidLoad
  repeat' (first | with_reducible assumption | (extract_lets +onlyGivenNames zz; first | (refine State.Good.gen wq zz (fun _ => ?_) ?_; clear_value zz; rotate_left; subst zz; rotate_right) | clear_value zz) | with_reducible apply State.Good.ite | with_reducible apply State.failLoad_inv | with_reducible apply State.forEach_inv | with_reducible apply State.keepFenced_inv | with_reducible apply State.put_inv | with_reducible apply State.setFld_inv | with_reducible apply State.syncConfig_inv | with_reducible apply State.unconfigure_inv | (with_reducible intro _ _ _) | split | (with_reducible refine State.Good.mk_of ?_; with_reducible refine State.Good.parts ?_))

theorem State.rejectDrain_inv (s : State) (hI : s.Good wq) : (State.rejectDrain s).Good wq := by
  unfold State.rejectDrain
  repeat' (first | with_reducible assumption | with_reducible apply State.rejectRequest_inv | split | (with_reducible refine State.Good.mk_of ?_; refine State.Good.sameBase ?_ rfl rfl))

theorem State.stopLock_inv (s : State) (hI : s.Good wq) : (State.stopLock s).Good wq := by
  unfold State.stopLock
  repeat' (first | with_reducible assumption | (with_reducible refine State.Good.mk_of ?_; with_reducible refine State.Good.parts ?_))

theorem State.enterFreeze_inv (s : State) (hI : s.Good wq) : (State.enterFreeze s).Good wq := by
  unfold State.enterFreeze
  repeat' (first | with_reducible assumption | (extract_lets +onlyGivenNames zz; first | (refine State.Good.gen wq zz (fun _ => ?_) ?_; clear_value zz; rotate_left; subst zz; rotate_right) | (refine State.Good.genMode wq zz (fun _ _ => ?_) ?_ ?_; clear_value zz; rotate_left; subst zz; rotate_left; subst zz; rotate_left) | clear_value zz) | with_reducible apply State.Good.ite | with_reducible apply State.dramSleep_inv | with_reducible apply State.endRenewal_inv | with_reducible apply State.enterMode_inv | with_reducible apply State.forEach_inv | with_reducible apply State.linksFrozen_inv | with_reducible apply State.pendCause_inv | with_reducible apply State.rejectDrain_inv | with_reducible apply State.stopLock_inv | with_reducible apply State.voidLoad_inv | (show Mode.isBase _ = true; first | exact State.Good.base (by assumption) | exact State.Good.before (by assumption)))

theorem State.enterSafeHold_inv (s : State) (c : Cause) (hI : s.Good wq) : (State.enterSafeHold s c).Good wq := by
  unfold State.enterSafeHold
  repeat' (first | with_reducible assumption | (extract_lets +onlyGivenNames zz; first | (refine State.Good.gen wq zz (fun _ => ?_) ?_; clear_value zz; rotate_left; subst zz; rotate_right) | (refine State.Good.genMode wq zz (fun _ _ => ?_) ?_ ?_; clear_value zz; rotate_left; subst zz; rotate_left; subst zz; rotate_left) | clear_value zz) | with_reducible apply State.Good.ite | with_reducible apply State.clear_inv | with_reducible apply State.dramSleep_inv | with_reducible apply State.enterMode_inv | with_reducible apply State.forEach_inv | with_reducible apply State.linksSafe_inv | with_reducible apply State.rejectDrain_inv | with_reducible apply State.stopLock_inv | with_reducible apply State.voidLoad_inv | with_reducible apply State.wdLoad_inv | (show Mode.isBase _ = true; first | exact State.Good.base (by assumption) | exact State.Good.before (by assumption)) | (with_reducible refine State.Good.mk_of ?_; with_reducible refine State.Good.parts ?_))

theorem State.abandonRaise_inv (s : State) (j : Nat) (hI : s.Good wq) : (State.abandonRaise s j).Good wq := by
  unfold State.abandonRaise
  repeat' (first | with_reducible assumption | with_reducible apply State.clear_inv | with_reducible apply State.command_inv | with_reducible apply State.postLog_inv | with_reducible apply State.raise_inv | (with_reducible refine State.Good.mk_of ?_; with_reducible refine State.Good.parts ?_))

theorem State.opSwitch_inv (s : State) (hI : s.Good wq) : (State.opSwitch s).Good wq := by
  unfold State.opSwitch
  repeat' (first | with_reducible assumption | with_reducible apply State.Good.ite | with_reducible apply State.clear_inv | with_reducible apply State.lockRaise_inv | with_reducible apply State.lockRaised_inv | with_reducible apply State.post_inv | with_reducible apply State.setPoints_inv | split | (with_reducible refine State.Good.mk_of ?_; with_reducible refine State.Good.parts ?_))

theorem execPowerGood_inv (s : State) (hI : s.Good wq) : Goes wq (execPowerGood s) := by
  unfold execPowerGood
  repeat' (first | with_reducible assumption | with_reducible apply State.Good.ite | with_reducible apply Goes.next | (with_reducible refine State.Good.mk_of ?_; with_reducible refine State.Good.parts ?_))

theorem execPgtmo_inv (s : State) (hI : s.Good wq) : Goes wq (execPgtmo s) := by
  unfold execPgtmo
  repeat' (first | with_reducible assumption | with_reducible apply State.Good.ite | with_reducible apply Goes.next | with_reducible apply State.abandonRaise_inv | split)

theorem State.settled_inv (s : State) (hI : s.Good wq) : (State.settled s).Good wq := by
  unfold State.settled
  repeat' (first | with_reducible assumption | with_reducible apply State.Good.ite | with_reducible apply State.clear_inv | with_reducible apply State.lockRaise_inv | (with_reducible refine State.Good.mk_of ?_; with_reducible refine State.Good.parts ?_))

theorem execVcoreSettled_inv (s : State) (hI : s.Good wq) : Goes wq (execVcoreSettled s) := by
  unfold execVcoreSettled
  repeat' (first | with_reducible assumption | with_reducible apply Goes.next | with_reducible apply State.settled_inv)

theorem State.voutMode_inv (s : State) (answer : Option Bool) (hI : s.Good wq) : (State.voutMode s answer).Good wq := by
  unfold State.voutMode
  repeat' (first | with_reducible assumption | with_reducible apply State.Good.ite | with_reducible apply State.clear_inv | with_reducible apply State.command_inv | with_reducible apply State.postLog_inv | with_reducible apply State.raise_inv | split)

theorem execVoutModeRead_inv (answer : Option Bool) (s : State) (hI : s.Good wq) : Goes wq (execVoutModeRead answer s) := by
  unfold execVoutModeRead
  repeat' (first | with_reducible assumption | with_reducible apply Goes.next | with_reducible apply State.voutMode_inv)

theorem State.pmbusFail_inv (s : State) (hI : s.Good wq) : (State.pmbusFail s).Good wq := by
  unfold State.pmbusFail
  repeat' (first | with_reducible assumption | with_reducible apply State.Good.ite | with_reducible apply State.abandonRaise_inv | with_reducible apply State.command_inv | with_reducible apply State.postLog_inv | with_reducible apply State.raise_inv | with_reducible apply State.settled_inv | split | (with_reducible refine State.Good.mk_of ?_; with_reducible refine State.Good.parts ?_))

theorem State.pmbusPoll_inv (s : State) (a : PmbusAnswer) (hI : s.Good wq) : (State.pmbusPoll s a).Good wq := by
  unfold State.pmbusPoll
  repeat' (first | with_reducible assumption | with_reducible apply State.Good.ite | with_reducible apply State.pmbusFail_inv | with_reducible apply State.settled_inv | split | (with_reducible refine State.Good.mk_of ?_; with_reducible refine State.Good.parts ?_))

theorem execPmbusPoll_inv (a : PmbusAnswer) (s : State) (hI : s.Good wq) : Goes wq (execPmbusPoll a s) := by
  unfold execPmbusPoll
  repeat' (first | with_reducible assumption | with_reducible apply Goes.next | with_reducible apply State.pmbusPoll_inv)

theorem State.undervoltage_inv (s : State) (hI : s.Good wq) : (State.undervoltage s).Good wq := by
  unfold State.undervoltage
  repeat' (first | with_reducible assumption | (extract_lets +onlyGivenNames zz; (refine State.Good.gen wq zz (fun _ => ?_) ?_; clear_value zz; rotate_left; subst zz; rotate_right)) | with_reducible apply State.Good.ite | with_reducible apply State.enterFreeze_inv | with_reducible apply State.logEntry_inv | with_reducible apply State.post_inv | with_reducible apply State.raise_inv)

theorem execUndervoltage_inv (s : State) (hI : s.Good wq) : Goes wq (execUndervoltage s) := by
  unfold execUndervoltage
  repeat' (first | with_reducible assumption | with_reducible apply Goes.next | with_reducible apply State.undervoltage_inv)

theorem State.reqRun_inv (s : State) (hI : s.Good wq) : (State.reqRun s).Good wq := by
  unfold State.reqRun
  repeat' (first | with_reducible assumption | with_reducible apply State.Good.ite | with_reducible apply State.enterLocking_inv | with_reducible apply State.rejectRequest_inv)

theorem execReqRun_inv (s : State) (hI : s.Good wq) : Goes wq (execReqRun s) := by
  unfold execReqRun
  repeat' (first | with_reducible assumption | with_reducible apply Goes.next | with_reducible apply State.reqRun_inv)

theorem State.beginDrain_inv (s : State) (d : Drain) (hI : s.Good wq) : (State.beginDrain s d).Good wq := by
  unfold State.beginDrain
  repeat' (first | with_reducible assumption | (with_reducible refine State.Good.mk_of ?_; refine State.Good.sameBase ?_ rfl rfl))

theorem State.reqStop_inv (s : State) (hI : s.Good wq) : (State.reqStop s).Good wq := by
  unfold State.reqStop
  repeat' (first | with_reducible assumption | with_reducible apply State.Good.ite | with_reducible apply State.beginDrain_inv | with_reducible apply State.rejectRequest_inv)

theorem State.niCauses_inv (s : State) (n : Nat) (g : NiCauses → NiCauses) (hI : s.Good wq) : (State.niCauses s n g).Good wq := by
  unfold State.niCauses
  repeat' (first | with_reducible assumption | with_reducible apply State.setNi_inv)

theorem State.nisClosing_inv (s : State) (d : Nat) (hI : s.Good wq) : (State.nisClosing s d).Good wq := by
  unfold State.nisClosing
  repeat' (first | with_reducible assumption | with_reducible apply State.forEach_inv | with_reducible apply State.niCauses_inv | (with_reducible intro _ _ _))

theorem State.beginOff_inv (s : State) (d : Nat) (hI : s.Good wq) : (State.beginOff s d).Good wq := by
  unfold State.beginOff
  repeat' (first | with_reducible assumption | with_reducible apply State.nisClosing_inv | with_reducible apply State.setFld_inv | split | (with_reducible refine State.Good.mk_of ?_; with_reducible refine State.Good.parts ?_))

theorem State.enterValley_inv (s : State) (hI : s.Good wq) : (State.enterValley s).Good wq := by
  unfold State.enterValley
  repeat' (first | with_reducible assumption | with_reducible apply State.beginOff_inv | with_reducible apply State.clearTimetable_inv | with_reducible apply State.enterMode_inv | with_reducible apply State.forEach_inv | with_reducible apply State.put_inv | (show Mode.isBase _ = true; first | exact State.Good.base (by assumption) | exact State.Good.before (by assumption)))

theorem State.reqValley_inv (s : State) (hI : s.Good wq) : (State.reqValley s).Good wq := by
  unfold State.reqValley
  repeat' (first | with_reducible assumption | with_reducible apply State.Good.ite | with_reducible apply State.beginDrain_inv | with_reducible apply State.enterValley_inv | with_reducible apply State.rejectRequest_inv)

theorem execReqValley_inv (s : State) (hI : s.Good wq) : Goes wq (execReqValley s) := by
  unfold execReqValley
  repeat' (first | with_reducible assumption | with_reducible apply Goes.next | with_reducible apply State.reqValley_inv)

theorem State.reqUnload_inv (s : State) (hI : s.Good wq) : (State.reqUnload s).Good wq := by
  unfold State.reqUnload
  repeat' (first | with_reducible assumption | with_reducible apply State.Good.ite | with_reducible apply State.clearConfig_inv | with_reducible apply State.enterMode_inv | with_reducible apply State.rejectRequest_inv | (show Mode.isBase _ = true; first | exact rfl | exact State.Good.before (by assumption)))

theorem State.lockTimeout_inv (s : State) (hI : s.Good wq) : (State.lockTimeout s).Good wq := by
  unfold State.lockTimeout
  repeat' (first | with_reducible assumption | with_reducible apply State.Good.ite | with_reducible apply State.enterMode_inv | with_reducible apply State.raise_inv | with_reducible apply State.stopLock_inv | (show Mode.isBase _ = true; first | exact rfl | exact State.Good.before (by assumption)))

theorem State.unlockAll_inv (s : State) (hI : s.Good wq) : (State.unlockAll s).Good wq := by
  unfold State.unlockAll
  repeat' (first | with_reducible assumption | with_reducible apply State.clear_inv)

theorem State.startHoldover_inv (s : State) (hI : s.Good wq) : (State.startHoldover s).Good wq := by
  unfold State.startHoldover
  repeat' (first | with_reducible assumption | with_reducible apply State.raise_inv | (with_reducible refine State.Good.mk_of ?_; refine State.Good.sameBase ?_ rfl rfl))

theorem State.failover_inv (s : State) (hI : s.Good wq) : (State.failover s).Good wq := by
  unfold State.failover
  repeat' (first | with_reducible assumption | (extract_lets +onlyGivenNames zz; first | (refine State.Good.gen wq zz (fun _ => ?_) ?_; clear_value zz; rotate_left; subst zz; rotate_right) | (refine State.Good.genMode wq zz (fun _ _ => ?_) ?_ ?_; clear_value zz; rotate_left; subst zz; rotate_left; subst zz; rotate_left)) | with_reducible apply State.Good.ite | with_reducible apply State.enterMode_inv | with_reducible apply State.pendCause_inv | with_reducible apply State.startHoldover_inv | (show Mode.isBase _ = true; first | exact rfl | exact State.Good.base (by assumption) | exact State.Good.before (by assumption)))

theorem State.chLoss_inv (s : State) (hI : s.Good wq) : (State.chLoss s).Good wq := by
  unfold State.chLoss
  repeat' (first | with_reducible assumption | (extract_lets +onlyGivenNames zz; first | (refine State.Good.gen wq zz (fun _ => ?_) ?_; clear_value zz; rotate_left; subst zz; rotate_right) | clear_value zz) | with_reducible apply State.Good.ite | with_reducible apply State.clear_inv | with_reducible apply State.enterSafeHold_inv | with_reducible apply State.failover_inv | with_reducible apply State.post_inv | with_reducible apply State.raise_inv | with_reducible apply State.unlockAll_inv)

theorem execRefclkChLoss_inv (s : State) (hI : s.Good wq) : Goes wq (execRefclkChLoss s) := by
  unfold execRefclkChLoss
  repeat' (first | with_reducible assumption | with_reducible apply Goes.next | with_reducible apply State.chLoss_inv)

theorem State.locLoss_inv (s : State) (hI : s.Good wq) : (State.locLoss s).Good wq := by
  unfold State.locLoss
  repeat' (first | with_reducible assumption | (extract_lets +onlyGivenNames zz; (refine State.Good.gen wq zz (fun _ => ?_) ?_; clear_value zz; rotate_left; subst zz; rotate_right)) | with_reducible apply State.Good.ite | with_reducible apply State.clear_inv | with_reducible apply State.enterSafeHold_inv | with_reducible apply State.post_inv | with_reducible apply State.raise_inv | with_reducible apply State.unlockAll_inv)

theorem execRefclkLocLoss_inv (s : State) (hI : s.Good wq) : Goes wq (execRefclkLocLoss s) := by
  unfold execRefclkLocLoss
  repeat' (first | with_reducible assumption | with_reducible apply Goes.next | with_reducible apply State.locLoss_inv)

theorem State.ratioValid_inv (s : State) (ratio : Word) (hI : s.Good wq) : (State.ratioValid s ratio).Good wq := by
  unfold State.ratioValid
  repeat' (first | with_reducible assumption | with_reducible apply State.Good.ite | with_reducible apply State.raise_inv | with_reducible apply State.setPair_inv)

theorem execRatioValid_inv (ratio : Word) (s : State) (hI : s.Good wq) : Goes wq (execRatioValid ratio s) := by
  unfold execRatioValid
  repeat' (first | with_reducible assumption | with_reducible apply Goes.next | with_reducible apply State.ratioValid_inv)

theorem State.requalify_inv (s : State) (hI : s.Good wq) : (State.requalify s).Good wq := by
  unfold State.requalify
  repeat' (first | with_reducible assumption | with_reducible apply State.Good.ite | with_reducible apply State.clear_inv | with_reducible apply State.post_inv | with_reducible apply State.raise_inv | (with_reducible refine State.Good.mk_of ?_; refine State.Good.sameBase ?_ rfl rfl))

theorem execRequalify_inv (s : State) (hI : s.Good wq) : Goes wq (execRequalify s) := by
  unfold execRequalify
  repeat' (first | with_reducible assumption | with_reducible apply Goes.next | with_reducible apply State.requalify_inv)

theorem State.measureRefs_inv (s : State) (ch loc : Option Nat) (hI : s.Good wq) : (State.measureRefs s ch loc).Good wq := by
  unfold State.measureRefs
  repeat' (first | with_reducible assumption | with_reducible apply State.Good.ite | with_reducible apply State.clear_inv | with_reducible apply State.put_inv)

theorem State.lockAll_inv (s : State) (hI : s.Good wq) : (State.lockAll s).Good wq := by
  unfold State.lockAll
  repeat' (first | with_reducible assumption | with_reducible apply State.raise_inv)

theorem State.synthLock_inv (s : State) (ch loc : Option Nat) (hI : s.Good wq) : (State.synthLock s ch loc).Good wq := by
  unfold State.synthLock
  repeat' (first | with_reducible assumption | with_reducible apply State.Good.ite | with_reducible apply State.lockAll_inv | with_reducible apply State.lockBegin_inv | with_reducible apply State.measureRefs_inv | with_reducible apply State.put_inv | with_reducible apply State.startTicks_inv | split | (with_reducible refine State.Good.mk_of ?_; with_reducible refine State.Good.parts ?_))

theorem execSynthLock_inv (ch loc : Option Nat) (s : State) (hI : s.Good wq) : Goes wq (execSynthLock ch loc s) := by
  unfold execSynthLock
  repeat' (first | with_reducible assumption | with_reducible apply Goes.next | with_reducible apply State.synthLock_inv)

theorem State.synthUnlock_inv (s : State) (k : Nat) (hI : s.Good wq) : (State.synthUnlock s k).Good wq := by
  unfold State.synthUnlock
  repeat' (first | with_reducible assumption | (extract_lets +onlyGivenNames zz; (refine State.Good.gen wq zz (fun _ => ?_) ?_; clear_value zz; rotate_left; subst zz; rotate_right)) | with_reducible apply State.Good.ite | with_reducible apply State.clear_inv | with_reducible apply State.enterSafeHold_inv | with_reducible apply State.forEach_inv | with_reducible apply State.laneLoss_inv | with_reducible apply State.post_inv | with_reducible apply State.put_inv | with_reducible apply State.raise_inv)

theorem execSynthUnlock_inv (k : Fin 10) (s : State) (hI : s.Good wq) : Goes wq (execSynthUnlock k s) := by
  unfold execSynthUnlock
  repeat' (first | with_reducible assumption | with_reducible apply Goes.next | with_reducible apply State.synthUnlock_inv)

theorem State.safeLevel_inv (s : State) (low : Bool) (hI : s.Good wq) : (State.safeLevel s low).Good wq := by
  unfold State.safeLevel
  repeat' (first | with_reducible assumption | (extract_lets +onlyGivenNames zz; first | (refine State.Good.gen wq zz (fun _ => ?_) ?_; clear_value zz; rotate_left; subst zz; rotate_right) | clear_value zz) | with_reducible apply State.Good.ite | with_reducible apply State.enterSafeHold_inv | with_reducible apply State.raise_inv | (with_reducible refine State.Good.mk_of ?_; with_reducible refine State.Good.parts ?_))

theorem execSafeN_inv (low : Bool) (s : State) (hI : s.Good wq) : Goes wq (execSafeN low s) := by
  unfold execSafeN
  repeat' (first | with_reducible assumption | with_reducible apply Goes.next | with_reducible apply State.safeLevel_inv)

end Sys2Proof.Machine
end

