-- ==== Sys2Proof/Laws/KeepChannels.lean ====
section
/-! SUPPORT. Every operation keeps the invariant and the commands that wait: the channel commands of the DRAM and the configuration store.
One lemma for each operation that answers a state (`_inv`, and `_at` for the state inside a larger answer); of a command the lemma says that it completes (`Goes`). -/
namespace Sys2Proof.Machine
variable {wq : List Instr}

/-! Machine/StewardOps.lean -/

theorem State.clearSeen_inv (s : State) (k i : Nat) (hI : s.Good wq) : (State.clearSeen s k i).Good wq := by
  unfold State.clearSeen
  repeat' (first | with_reducible assumption | (with_reducible refine State.Good.mk_of ?_; with_reducible refine State.Good.parts ?_))

theorem State.setQuiet_inv (s : State) (k i n : Nat) (hI : s.Good wq) : (State.setQuiet s k i n).Good wq := by
  unfold State.setQuiet
  repeat' (first | with_reducible assumption | (with_reducible refine State.Good.mk_of ?_; with_reducible refine State.Good.parts ?_))

theorem State.stwLog_inv (s : State) (k flags inst old new meas thr : Nat) (hI : s.Good wq) : (State.stwLog s k flags inst old new meas thr).Good wq := by
  unfold State.stwLog
  repeat' (first | with_reducible assumption | with_reducible apply State.logEntry_inv)

theorem State.stwAct_inv (s : State) (k : Nat) (clamp : Bool) (inst old new meas : Nat) (write : State → State) (hI : s.Good wq) (hwrite : ∀ x0, x0.Good wq → (write x0).Good wq) : (State.stwAct s k clamp inst old new meas write).Good wq := by
  unfold State.stwAct
  repeat' (first | with_reducible assumption | with_reducible apply State.Good.ite | with_reducible apply State.post_inv | with_reducible apply State.stwLog_inv | with_reducible apply hwrite)

theorem State.stageStw_inv (s : State) (f : Fld) (v : Nat) (hI : s.Good wq) : (State.stageStw s f v).Good wq := by
  unfold State.stageStw
  repeat' (first | with_reducible assumption | (with_reducible refine State.Good.mk_of ?_; with_reducible refine State.Good.parts ?_))

theorem State.moveSetting_inv (s : State) (k inst w cur v meas : Nat) (write : State → Nat → State) (hI : s.Good wq) (hwrite : ∀ x0 x1, x0.Good wq → (write x0 x1).Good wq) : (State.moveSetting s k inst w cur v meas write).Good wq := by
  unfold State.moveSetting
  repeat' (first | with_reducible assumption | with_reducible apply State.Good.ite | with_reducible apply State.stwAct_inv | with_reducible apply hwrite | (with_reducible intro _ _))

theorem State.scanLoop_inv (s : State) (k i inst w cur : Nat) (write : State → Nat → State) (hI : s.Good wq) (hwrite : ∀ x0 x1, x0.Good wq → (write x0 x1).Good wq) : (State.scanLoop s k i inst w cur write).Good wq := by
  unfold State.scanLoop
  repeat' (first | with_reducible assumption | with_reducible apply State.Good.ite | with_reducible apply State.clearSeen_inv | with_reducible apply State.moveSetting_inv | with_reducible apply State.setQuiet_inv)

theorem State.retrainLoop_inv (s : State) (c drift : Nat) (hI : s.Good wq) : (State.retrainLoop s c drift).Good wq := by
  unfold State.retrainLoop
  repeat' (first | with_reducible assumption | with_reducible apply State.Good.ite | with_reducible apply State.moveSetting_inv | with_reducible apply State.setQuiet_inv | with_reducible apply State.stageStw_inv | (with_reducible intro _ _ _))

/-! Machine/Dram.lean -/

theorem execCommandSlot_inv (c : Fin 8) (checks : List LineCheck) (s : State) (hI : s.Good wq) : Goes wq (execCommandSlot c checks s) := by
  unfold execCommandSlot
  repeat' (first | with_reducible assumption | with_reducible apply Goes.next | with_reducible apply State.dramSlot_inv)

theorem execCommandConfirm_inv (c : Fin 8) (s : State) (hI : s.Good wq) : Goes wq (execCommandConfirm c s) := by
  unfold execCommandConfirm
  repeat' (first | with_reducible assumption | with_reducible apply State.Good.ite | with_reducible apply Goes.next | with_reducible apply State.confirmOne_inv)

theorem State.closeRows_inv (s : State) (c : Nat) (p : Nat → Bool) (hI : s.Good wq) : (State.closeRows s c p).Good wq := by
  unfold State.closeRows
  repeat' (first | with_reducible assumption | with_reducible apply State.setDram_inv)

theorem State.refSb_inv (s : State) (c rank bank : Nat) (hI : s.Good wq) : (State.refSb s c rank bank).Good wq := by
  unfold State.refSb
  repeat' (first | with_reducible assumption | with_reducible apply State.Good.ite | with_reducible apply State.closeRows_inv | with_reducible apply State.dramCmd_inv)

theorem execRefsb_inv (c : Fin 8) (rank : Bool) (bank : Fin 4) (s : State) (hI : s.Good wq) : Goes wq (execRefsb c rank bank s) := by
  unfold execRefsb
  repeat' (first | with_reducible assumption | with_reducible apply Goes.next | with_reducible apply State.refSb_inv)

theorem State.rowIdle_inv (s : State) (c b : Nat) (hI : s.Good wq) : (State.rowIdle s c b).Good wq := by
  unfold State.rowIdle
  repeat' (first | with_reducible assumption | with_reducible apply State.Good.ite | with_reducible apply State.closeRows_inv | with_reducible apply State.dramCmd_inv | split)

theorem execRowIdleClose_inv (c : Fin 8) (bank : Fin 64) (s : State) (hI : s.Good wq) : Goes wq (execRowIdleClose c bank s) := by
  unfold execRowIdleClose
  repeat' (first | with_reducible assumption | with_reducible apply Goes.next | with_reducible apply State.rowIdle_inv)

theorem State.refEff_inv (s : State) (c : Nat) (hI : s.Good wq) : (State.refEff s c).Good wq := by
  unfold State.refEff
  repeat' (first | with_reducible assumption | with_reducible apply State.put_inv)

theorem execTempStatusPoll_inv (c : Fin 8) (demand : Fin 3) (s : State) (hI : s.Good wq) : Goes wq (execTempStatusPoll c demand s) := by
  unfold execTempStatusPoll
  repeat' (first | with_reducible assumption | with_reducible apply State.Good.ite | with_reducible apply Goes.next | with_reducible apply State.refEff_inv | with_reducible apply State.setDram_inv)

theorem State.retrain_inv (s : State) (c comp : Nat) (drift : BitVec 8) (hI : s.Good wq) : (State.retrain s c comp drift).Good wq := by
  unfold State.retrain
  repeat' (first | with_reducible assumption | with_reducible apply State.Good.ite | with_reducible apply State.closeRows_inv | with_reducible apply State.dramCmd_inv | with_reducible apply State.post_inv | with_reducible apply State.put_inv | with_reducible apply State.raise_inv | with_reducible apply State.retrainLoop_inv | with_reducible apply State.setDram_inv)

theorem execRetrainNow_inv (c : Fin 8) (comp : Fin 32) (drift : BitVec 8) (s : State) (hI : s.Good wq) : Goes wq (execRetrainNow c comp drift s) := by
  unfold execRetrainNow
  repeat' (first | with_reducible assumption | with_reducible apply State.Good.ite | with_reducible apply Goes.next | with_reducible apply State.retrain_inv)

theorem State.forcedRetrain_inv (s : State) (c comp : Nat) (drift : BitVec 8) (hI : s.Good wq) : (State.forcedRetrain s c comp drift).Good wq := by
  unfold State.forcedRetrain
  repeat' (first | with_reducible assumption | with_reducible apply State.Good.ite | with_reducible apply State.postLog_inv | with_reducible apply State.raise_inv | with_reducible apply State.retrain_inv)

theorem execForcedRetrain_inv (c : Fin 8) (comp : Fin 32) (drift : BitVec 8) (s : State) (hI : s.Good wq) : Goes wq (execForcedRetrain c comp drift s) := by
  unfold execForcedRetrain
  repeat' (first | with_reducible assumption | with_reducible apply Goes.next | with_reducible apply State.forcedRetrain_inv)

theorem State.maintWindow_inv (s : State) (c : Nat) (hI : s.Good wq) : (State.maintWindow s c).Good wq := by
  unfold State.maintWindow
  repeat' (first | with_reducible assumption | with_reducible apply State.Good.ite | with_reducible apply State.dramCmd_inv | with_reducible apply State.retrain_inv | with_reducible apply State.setDram_inv | with_reducible apply State.freeNat_at)

theorem State.freezeChannel_inv (s : State) (c : Nat) (crc asleep : Bool) (hI : s.Good wq) : (State.freezeChannel s c crc asleep).Good wq := by
  unfold State.freezeChannel
  repeat' (first | with_reducible assumption | (extract_lets +onlyGivenNames zz; first | (refine State.Good.gen wq zz (fun _ => ?_) ?_; clear_value zz; rotate_left; subst zz; rotate_right) | clear_value zz) | with_reducible apply State.Good.ite | with_reducible apply State.dropCache_inv | with_reducible apply State.enterFreeze_inv | with_reducible apply State.postLog_inv | with_reducible apply State.put_inv | with_reducible apply State.raise_inv | with_reducible apply State.replyFail_inv | with_reducible apply State.setDram_inv | with_reducible apply State.Good.foldl | (with_reducible intro _ _ _))

theorem State.dramAlert_inv (s : State) (c : Nat) (crc asleep : Bool) (hI : s.Good wq) : (State.dramAlert s c crc asleep).Good wq := by
  unfold State.dramAlert
  repeat' (first | with_reducible assumption | (extract_lets +onlyGivenNames zz; first | (refine State.Good.gen wq zz (fun _ => ?_) ?_; clear_value zz; rotate_left; subst zz; rotate_right) | clear_value zz) | with_reducible apply State.Good.ite | with_reducible apply State.bump_inv | with_reducible apply State.freezeChannel_inv | with_reducible apply State.postLog_inv | with_reducible apply State.raise_inv | with_reducible apply State.setDram_inv)

theorem execAlert_inv (c : Fin 8) (crc asleep : Bool) (s : State) (hI : s.Good wq) : Goes wq (execAlert c crc asleep s) := by
  unfold execAlert
  repeat' (first | with_reducible assumption | with_reducible apply Goes.next | with_reducible apply State.dramAlert_inv)

theorem execDramPhyUnlock_inv (c : Fin 8) (asleep : Bool) (s : State) (hI : s.Good wq) : Goes wq (execDramPhyUnlock c asleep s) := by
  unfold execDramPhyUnlock
  repeat' (first | with_reducible assumption | with_reducible apply State.Good.ite | with_reducible apply Goes.next | with_reducible apply State.freezeChannel_inv)

theorem State.loseContents_inv (s : State) (c : Nat) (hI : s.Good wq) : (State.loseContents s c).Good wq := by
  unfold State.loseContents
  repeat' (first | with_reducible assumption | with_reducible apply State.setDram_inv)

theorem State.channelEnable_inv (s : State) (c : Nat) (hI : s.Good wq) : (State.channelEnable s c).Good wq := by
  unfold State.channelEnable
  repeat' (first | with_reducible assumption | with_reducible apply State.Good.ite | with_reducible apply State.clear_inv | with_reducible apply State.loseContents_inv | with_reducible apply State.put_inv | with_reducible apply State.raise_inv | with_reducible apply State.setDram_inv)

theorem execChannelEnable_inv (c : Fin 8) (s : State) (hI : s.Good wq) : Goes wq (execChannelEnable c s) := by
  unfold execChannelEnable
  repeat' (first | with_reducible assumption | with_reducible apply Goes.next | with_reducible apply State.channelEnable_inv)

theorem State.channelInitDone_inv (s : State) (c err : Nat) (hI : s.Good wq) : (State.channelInitDone s c err).Good wq := by
  unfold State.channelInitDone
  repeat' (first | with_reducible assumption | with_reducible apply State.Good.ite | with_reducible apply State.clear_inv | with_reducible apply State.put_inv | with_reducible apply State.raise_inv | with_reducible apply State.setDram_inv)

theorem execChannelInitDone_inv (c : Fin 8) (err : Fin 6) (s : State) (hI : s.Good wq) : Goes wq (execChannelInitDone c err s) := by
  unfold execChannelInitDone
  repeat' (first | with_reducible assumption | with_reducible apply Goes.next | with_reducible apply State.channelInitDone_inv)

theorem State.channelDisable_inv (s : State) (c : Nat) (hI : s.Good wq) : (State.channelDisable s c).Good wq := by
  unfold State.channelDisable
  repeat' (first | with_reducible assumption | (extract_lets +onlyGivenNames zz; (refine State.Good.gen wq zz (fun _ => ?_) ?_; clear_value zz; rotate_left; subst zz; rotate_right)) | with_reducible apply State.Good.ite | with_reducible apply State.clear_inv | with_reducible apply State.drainChannel_inv | with_reducible apply State.put_inv)

theorem State.unfreeze_inv (s : State) (c : Nat) (hI : s.Good wq) : (State.unfreeze s c).Good wq := by
  unfold State.unfreeze
  repeat' (first | with_reducible assumption | with_reducible apply State.Good.ite | with_reducible apply State.clear_inv | with_reducible apply State.loseContents_inv | with_reducible apply State.put_inv | with_reducible apply State.raise_inv)

theorem execUnfreeze_inv (c : Fin 8) (s : State) (hI : s.Good wq) : Goes wq (execUnfreeze c s) := by
  unfold execUnfreeze
  repeat' (first | with_reducible assumption | with_reducible apply Goes.next | with_reducible apply State.unfreeze_inv)

theorem State.zeroFillDone_inv (s : State) (c : Nat) (hI : s.Good wq) : (State.zeroFillDone s c).Good wq := by
  unfold State.zeroFillDone
  repeat' (first | with_reducible assumption | with_reducible apply State.Good.ite | with_reducible apply State.clear_inv | with_reducible apply State.raise_inv | with_reducible apply State.setDram_inv)

theorem execZeroFillDone_inv (c : Fin 8) (s : State) (hI : s.Good wq) : Goes wq (execZeroFillDone c s) := by
  unfold execZeroFillDone
  repeat' (first | with_reducible assumption | with_reducible apply Goes.next | with_reducible apply State.zeroFillDone_inv)

theorem execSelfRefreshIdle_inv (c : Fin 8) (s : State) (hI : s.Good wq) : Goes wq (execSelfRefreshIdle c s) := by
  unfold execSelfRefreshIdle
  repeat' (first | with_reducible assumption | with_reducible apply State.Good.ite | with_reducible apply Goes.next | with_reducible apply State.dramSleep_inv)

theorem execGroupFlush_inv (c : Fin 8) (group : Nat) (s : State) (hI : s.Good wq) : Goes wq (execGroupFlush c group s) := by
  unfold execGroupFlush
  repeat' (first | with_reducible assumption | with_reducible apply Goes.next | with_reducible apply State.flushGroup_inv)

theorem State.patrolLine_inv (s : State) (c : Nat) (checks : List LineCheck) (hI : s.Good wq) :
    (State.patrolLine s c checks).Good wq := by
  unfold State.patrolLine
  refine State.Good.ite hI ?_
  extract_lets l a s1 due d t y x again
  have h1 : s1.Good wq := State.put_inv _ _ _ hI
  clear_value s1
  have ht : t.Good wq := State.readLine_at s1 c l (s1.rgnNested a) false checks .none h1
  clear_value again x y t d due
  refine State.Good.ite h1 (State.Good.ite h1 ?_)
  exact State.setDram_inv _ _ _ ht

theorem execDramPatrolVisit_inv (c : Fin 8) (checks : List LineCheck) (s : State) (hI : s.Good wq) : Goes wq (execDramPatrolVisit c checks s) := by
  unfold execDramPatrolVisit
  repeat' (first | with_reducible assumption | with_reducible apply Goes.next | with_reducible apply State.patrolLine_inv)

theorem State.remapStart_inv (s : State) (c k : Nat) (hI : s.Good wq) : (State.remapStart s c k).Good wq := by
  unfold State.remapStart
  repeat' (first | with_reducible assumption | with_reducible apply State.Good.ite | with_reducible apply State.clear_inv | with_reducible apply State.raise_inv)

theorem execRemapValid_inv (c : Fin 8) (k : Fin 16) (s : State) (hI : s.Good wq) : Goes wq (execRemapValid c k s) := by
  unfold execRemapValid
  repeat' (first | with_reducible assumption | with_reducible apply State.Good.ite | with_reducible apply Goes.next | with_reducible apply State.clear_inv | with_reducible apply State.remapStart_inv)

theorem State.remapDone_inv (s : State) (c k : Nat) (checks : List LineCheck) (hI : s.Good wq) : (State.remapDone s c k checks).Good wq := by
  unfold State.remapDone
  repeat' (first | with_reducible assumption | (extract_lets +onlyGivenNames zz; first | (refine State.Good.gen wq zz (fun _ => ?_) ?_; clear_value zz; rotate_left; subst zz; rotate_right) | (refine State.Good.genLine wq zz (fun _ => ?_) ?_; clear_value zz; rotate_left; subst zz; rotate_right) | clear_value zz) | with_reducible apply State.Good.ite | with_reducible apply State.clear_inv | with_reducible apply State.raise_inv | with_reducible apply State.setDram_inv | with_reducible apply State.storeLine_inv | with_reducible apply State.readLine_at)

theorem execRemapDone_inv (c : Fin 8) (k : Fin 16) (checks : List LineCheck) (s : State) (hI : s.Good wq) : Goes wq (execRemapDone c k checks s) := by
  unfold execRemapDone
  repeat' (first | with_reducible assumption | with_reducible apply Goes.next | with_reducible apply State.remapDone_inv)

theorem State.keyCtl_inv (s : State) (op k : Nat) (hI : s.Good wq) : (State.keyCtl s op k).Good wq := by
  unfold State.keyCtl
  repeat' (first | with_reducible assumption | with_reducible apply State.Good.ite | with_reducible apply State.raise_inv | with_reducible apply State.setKeyState_inv | (with_reducible refine State.Good.mk_of ?_; with_reducible refine State.Good.parts ?_))

theorem execZero_inv (key : Fin 64) (s : State) (hI : s.Good wq) : Goes wq (execZero key s) := by
  unfold execZero
  repeat' (first | with_reducible assumption | with_reducible apply Goes.next | with_reducible apply State.keyCtl_inv)

theorem execSpare_inv (key : Fin 64) (s : State) (hI : s.Good wq) : Goes wq (execSpare key s) := by
  unfold execSpare
  repeat' (first | with_reducible assumption | with_reducible apply Goes.next | with_reducible apply State.keyCtl_inv)

theorem execUnspare_inv (key : Fin 64) (s : State) (hI : s.Good wq) : Goes wq (execUnspare key s) := by
  unfold execUnspare
  repeat' (first | with_reducible assumption | with_reducible apply Goes.next | with_reducible apply State.keyCtl_inv)

theorem execFlush_inv (s : State) (hI : s.Good wq) : Goes wq (execFlush s) := by
  unfold execFlush
  repeat' (first | with_reducible assumption | with_reducible apply State.Good.ite | with_reducible apply Goes.next | with_reducible apply State.flushCache_inv)

theorem State.keyLoadFail_inv (s : State) (q : Nat) (d : DescSt) (hI : s.Good wq) : (State.keyLoadFail s q d).Good wq := by
  unfold State.keyLoadFail
  repeat' (first | with_reducible assumption | with_reducible apply State.finish_inv | with_reducible apply State.postLog_inv | with_reducible apply State.raise_inv)

theorem State.actKeyload_inv (s : State) (q : Nat) (d : DescSt) (hI : s.Good wq) : (State.actKeyload s q d).Good wq := by
  have hf := State.keyLoadFail_inv s q d hI
  unfold State.actKeyload
  generalize (if s.bist.scanned = true then none else s.fuses.root) = o
  cases o with
  | none => exact hf
  | some root =>
    generalize ho : Config.unwrap (Config.wrapKey root s.fuses.unit) ((d.gathered.flatMap packWord).take 40) = k
    dsimp only
    rw [ho]
    cases k with
    | none => exact hf
    | some key =>
      dsimp only
      refine State.Good.ite hf (State.Good.ite ?_ ?_)
      · with_reducible apply State.finish_inv
        with_reducible apply State.raise_inv
        with_reducible refine State.Good.mk_of ?_
        exact State.Good.parts hI
      · with_reducible apply State.finish_inv
        with_reducible apply State.setKeyState_inv
        with_reducible refine State.Good.mk_of ?_
        exact State.Good.parts hI

theorem execKeyload_inv (q : Fin 32) (slot : Nat) (s : State) (hI : s.Good wq) : Goes wq (execKeyload q slot s) := by
  unfold execKeyload
  repeat' (first | with_reducible assumption | with_reducible apply Goes.next | with_reducible apply State.actKeyload_inv | with_reducible apply State.gatherDesc_inv | with_reducible apply State.withDesc_inv | (with_reducible intro _ _ _))

theorem State.renewStart_inv (s : State) (r n rate : Nat) (stw : Bool) (hI : s.Good wq) : Keeps wq (State.renewStart s r n rate stw) := by
  unfold State.renewStart
  repeat' (first | with_reducible assumption | (extract_lets +onlyGivenNames zz; first | (refine State.Good.gen wq zz (fun _ => ?_) ?_; clear_value zz; rotate_left; subst zz; rotate_right) | clear_value zz) | with_reducible exact Keeps.none | with_reducible apply Keeps.ite | with_reducible apply Keeps.some | with_reducible apply State.setKeyState_inv | with_reducible apply State.setPair_inv | with_reducible apply State.setReg_inv | (with_reducible refine State.Good.mk_of ?_; with_reducible refine State.Good.parts ?_))

theorem State.renewDesc_inv (s : State) (q slot : Nat) (d : DescSt) (hI : s.Good wq) : (State.renewDesc s q slot d).Good wq := by
  unfold State.renewDesc
  repeat' (first | with_reducible assumption | (extract_lets +onlyGivenNames zz; first | (refine State.Good.gen wq zz (fun _ => ?_) ?_; clear_value zz; rotate_left; subst zz; rotate_right) | (refine State.Good.genFst wq zz (fun _ => ?_) ?_; clear_value zz; rotate_left; subst zz; rotate_right) | (refine State.Good.genSnd wq zz (fun _ => ?_) ?_; clear_value zz; rotate_left; subst zz; rotate_right) | (refine State.Good.genLine wq zz (fun _ => ?_) ?_; clear_value zz; rotate_left; subst zz; rotate_right) | (refine State.Good.genMeta wq zz (fun _ => ?_) ?_; clear_value zz; rotate_left; subst zz; rotate_right) | (refine State.Good.genRes wq zz (fun _ => ?_) ?_; clear_value zz; rotate_left; subst zz; rotate_right) | (refine State.Good.genWrite wq zz (fun _ => ?_) ?_; clear_value zz; rotate_left; subst zz; rotate_right) | (refine State.Good.genIngest wq zz (fun _ => ?_) ?_; clear_value zz; rotate_left; subst zz; rotate_right) | (refine State.Good.genOut wq zz (fun _ => ?_) ?_; clear_value zz; rotate_left; subst zz; rotate_right) | (refine State.Good.genBuild wq zz (fun _ => ?_) ?_; clear_value zz; rotate_left; subst zz; rotate_right) | (refine State.Good.genTaken wq zz (fun _ => ?_) ?_; clear_value zz; rotate_left; subst zz; rotate_right) | (refine State.Good.genMode wq zz (fun _ _ => ?_) ?_ ?_; clear_value zz; rotate_left; subst zz; rotate_left; subst zz; rotate_left) | (have := State.Good.isFun zz; clear this; subst zz) | clear_value zz) | with_reducible apply State.Good.ite | with_reducible apply State.finish_inv | with_reducible apply State.keepDesc_inv | with_reducible apply State.renewStart_inv | with_reducible apply State.slot_inv | (refine (State.renewStart_inv _ _ _ _ _ ?_) _ (by with_reducible assumption)) | with_reducible apply State.Good.iteFst | with_reducible apply State.Good.iteSnd | with_reducible apply State.Good.iteLine | with_reducible apply State.Good.iteMeta | (with_reducible intro _ _ _) | (with_reducible intro _ _) | (show Mode.isBase _ = true; first | exact rfl | exact State.Good.base (by assumption) | exact State.Good.before (by assumption) | (with_reducible refine ModeSt.withPending_base ?_) | (with_reducible refine ModeSt.withPending_before ?_) | (with_reducible refine ModeSt.withBack_base ?_) | (with_reducible refine ModeSt.withBack_before ?_)) | split | (with_reducible refine State.Good.mk_of ?_; first | with_reducible refine State.Good.parts ?_ | refine State.Good.fromReset ?_ | refine State.Good.sameBase ?_ rfl rfl | refine GoodOf.filterMem _ (State.Good.parts ?_) | refine GoodOf.filterRegs _ (State.Good.parts ?_) | refine GoodOf.fillMem _ _ _ (State.Good.parts ?_) | refine GoodOf.insertRegs _ (State.Good.parts ?_) | refine State.Good.newBase ?_ ?_ ?_))

theorem execRenew_inv (q : Fin 32) (slot : Nat) (s : State) (hI : s.Good wq) : Goes wq (execRenew q slot s) := by
  unfold execRenew
  repeat' (first | with_reducible assumption | with_reducible apply Goes.next | with_reducible apply State.renewDesc_inv | with_reducible apply State.withDesc_inv | (with_reducible intro _ _ _))

theorem State.syncUrgent_inv (s : State) (r : Nat) (hI : s.Good wq) : (State.syncUrgent s r).Good wq := by
  unfold State.syncUrgent
  repeat' (first | with_reducible assumption | with_reducible apply State.put_inv)

theorem State.renewLine_inv (s : State) (a : Nat) (g : LineRgn) (early : Bool) (checks : List LineCheck) (hI : s.Good wq) : (State.renewLine s a g early checks).Good wq := by
  unfold State.renewLine
  repeat' (first | with_reducible assumption | (extract_lets +onlyGivenNames zz; first | (refine State.Good.gen wq zz (fun _ => ?_) ?_; clear_value zz; rotate_left; subst zz; rotate_right) | (refine State.Good.genFst wq zz (fun _ => ?_) ?_; clear_value zz; rotate_left; subst zz; rotate_right) | (refine State.Good.genLine wq zz (fun _ => ?_) ?_; clear_value zz; rotate_left; subst zz; rotate_right) | (refine State.Good.genMeta wq zz (fun _ => ?_) ?_; clear_value zz; rotate_left; subst zz; rotate_right) | (refine State.Good.genRes wq zz (fun _ => ?_) ?_; clear_value zz; rotate_left; subst zz; rotate_right) | clear_value zz) | with_reducible apply State.Good.ite | with_reducible apply State.bump_inv | with_reducible apply State.logOpen_inv | with_reducible apply State.writeMeta_inv | with_reducible apply State.decodeLine_at | with_reducible apply State.readData_at | with_reducible apply State.readMeta_at | with_reducible apply State.replaceLine_at | with_reducible apply State.Good.iteLine | (with_reducible refine State.Good.mk_of ?_; with_reducible refine State.Good.parts ?_))

theorem State.renewEnd_inv (s : State) (r : Nat) (hI : s.Good wq) : (State.renewEnd s r).Good wq := by
  unfold State.renewEnd
  repeat' (first | with_reducible assumption | (extract_lets +onlyGivenNames zz; first | (refine State.Good.gen wq zz (fun _ => ?_) ?_; clear_value zz; rotate_left; subst zz; rotate_right) | (have := State.Good.isFun zz; clear this; subst zz) | clear_value zz) | with_reducible apply State.clear_inv | with_reducible apply State.finish_inv | with_reducible apply State.flushCache_inv | with_reducible apply State.forEach_inv | with_reducible apply State.post_inv | with_reducible apply State.put_inv | with_reducible apply State.setDram_inv | with_reducible apply State.setKeyState_inv | with_reducible apply State.syncUrgent_inv | (with_reducible intro _ _ _) | split | (with_reducible refine State.Good.mk_of ?_; with_reducible refine State.Good.parts ?_))

theorem State.renewVisit_inv (s : State) (checks : List LineCheck) (hI : s.Good wq) : (State.renewVisit s checks).Good wq := by
  unfold State.renewVisit
  repeat' (first | with_reducible assumption | (extract_lets +onlyGivenNames zz; first | (refine State.Good.gen wq zz (fun _ => ?_) ?_; clear_value zz; rotate_left; subst zz; rotate_right) | (have := State.Good.isFun zz; clear this; subst zz) | clear_value zz) | with_reducible apply State.Good.ite | with_reducible apply State.forEach_inv | with_reducible apply State.renewEnd_inv | with_reducible apply State.renewLine_inv | with_reducible apply State.setDram_inv | with_reducible apply State.setPair_inv | with_reducible apply State.syncUrgent_inv | (with_reducible intro _ _ _) | split)

theorem execRenewVisit_inv (checks : List LineCheck) (s : State) (hI : s.Good wq) : Goes wq (execRenewVisit checks s) := by
  unfold execRenewVisit
  repeat' (first | with_reducible assumption | with_reducible apply Goes.next | with_reducible apply State.renewVisit_inv)

theorem State.holdTimeout_inv (s : State) (c id : Nat) (hI : s.Good wq) : (State.holdTimeout s c id).Good wq := by
  unfold State.holdTimeout
  repeat' (first | with_reducible assumption | with_reducible apply State.Good.ite | with_reducible apply State.answerReady_inv | with_reducible apply State.post_inv | with_reducible apply State.raise_inv | with_reducible apply State.setDram_inv | with_reducible apply State.syncUrgent_inv | split | (with_reducible refine State.Good.mk_of ?_; with_reducible refine State.Good.parts ?_))

theorem execHoldTimeout_inv (c : Fin 8) (id : Nat) (s : State) (hI : s.Good wq) : Goes wq (execHoldTimeout c id s) := by
  unfold execHoldTimeout
  repeat' (first | with_reducible assumption | with_reducible apply Goes.next | with_reducible apply State.holdTimeout_inv)

theorem State.dramAdmit_inv (s : State) (c : Nat) (pkt : List Carriage) (hI : s.Good wq) : Keeps wq (State.dramAdmit s c pkt) := by
  unfold State.dramAdmit
  repeat' (first | with_reducible assumption | (extract_lets +onlyGivenNames zz; first | (refine State.Good.gen wq zz (fun _ => ?_) ?_; clear_value zz; rotate_left; subst zz; rotate_right) | clear_value zz) | with_reducible apply State.Good.ite | with_reducible exact Keeps.none | with_reducible apply Keeps.ite | with_reducible apply Keeps.some | with_reducible apply State.answerReady_inv | with_reducible apply State.dramAccept_inv | with_reducible apply State.dramWake_inv | with_reducible apply State.flushGroups_inv | with_reducible apply State.replyFail_inv | (refine State.dramRefusal_inv _ _ _ ?_ _ (by with_reducible assumption)) | split)

/-! Machine/Store.lean -/

theorem State.engineAdmit_inv (s : State) (k : Carriage) (g : Nat) (hI : s.Good wq) : InvAt wq Prod.fst (State.engineAdmit s k g) := by
  unfold State.engineAdmit
  repeat' (first | with_reducible assumption | with_reducible apply State.Good.ite | with_reducible apply InvAt.ite | with_reducible apply InvAt.fst | with_reducible apply State.dramWake_inv | (refine State.dramRefusal_inv _ _ _ ?_ _ (by with_reducible assumption)) | split)
theorem State.engineAdmit_at (s : State) (k : Carriage) (g : Nat) (hI : s.Good wq) : (Prod.fst (State.engineAdmit s k g)).Good wq := InvAt.inv (State.engineAdmit_inv _ _ _ hI)

theorem State.engineWrite_inv (s : State) (src ctx g : Nat) (m : BitVec 16) (ws : List Word) (checks : List LineCheck) (hI : s.Good wq) : InvAt wq Prod.fst (State.engineWrite s src ctx g m ws checks) := by
  unfold State.engineWrite
  repeat' (first | with_reducible assumption | (extract_lets +onlyGivenNames zz; first | (refine State.Good.genFst wq zz (fun _ => ?_) ?_; clear_value zz; rotate_left; subst zz; rotate_right) | (refine State.Good.genWrite wq zz (fun _ => ?_) ?_; clear_value zz; rotate_left; subst zz; rotate_right)) | with_reducible apply InvAt.ite | with_reducible apply InvAt.fst | with_reducible apply State.engineAdmit_at | with_reducible apply State.writeData_at)
theorem State.engineWrite_at (s : State) (src ctx g : Nat) (m : BitVec 16) (ws : List Word) (checks : List LineCheck) (hI : s.Good wq) : (Prod.fst (State.engineWrite s src ctx g m ws checks)).Good wq := InvAt.inv (State.engineWrite_inv _ _ _ _ _ _ _ hI)

theorem State.engineRead_inv (s : State) (src ctx g : Nat) (checks : List LineCheck) (hI : s.Good wq) : InvAt wq Prod.fst (State.engineRead s src ctx g checks) := by
  unfold State.engineRead
  repeat' (first | with_reducible assumption | (extract_lets +onlyGivenNames zz; first | (refine State.Good.genFst wq zz (fun _ => ?_) ?_; clear_value zz; rotate_left; subst zz; rotate_right) | (refine State.Good.genRes wq zz (fun _ => ?_) ?_; clear_value zz; rotate_left; subst zz; rotate_right)) | with_reducible apply InvAt.ite | with_reducible apply InvAt.fst | with_reducible apply State.engineAdmit_at | with_reducible apply State.readData_at)
theorem State.engineRead_at (s : State) (src ctx g : Nat) (checks : List LineCheck) (hI : s.Good wq) : (Prod.fst (State.engineRead s src ctx g checks)).Good wq := InvAt.inv (State.engineRead_inv _ _ _ _ _ hI)

theorem State.confirmed_inv (s t : State) (hI : s.Good wq) (hI1 : t.Good wq) : (State.confirmed s t).Good wq := by
  unfold State.confirmed
  repeat' (first | with_reducible assumption | with_reducible apply State.forEach_inv | with_reducible apply State.setDram_inv | (with_reducible intro _ _ _))

theorem State.putWords_inv (s : State) (src ctx b o : Nat) (ws : List Word) (checks : List LineCheck) (hI : s.Good wq) : InvAt wq Prod.fst (State.putWords s src ctx b o ws checks) := by
  unfold State.putWords
  repeat' (first | with_reducible assumption | (extract_lets +onlyGivenNames zz; first | (refine State.Good.genFst wq zz (fun _ => ?_) ?_; clear_value zz; rotate_left; subst zz; rotate_right) | clear_value zz) | with_reducible apply InvAt.fst | with_reducible apply State.confirmed_inv | with_reducible apply State.Good.foldFst | with_reducible apply State.engineWrite_at | (with_reducible intro _ _ _))
theorem State.putWords_at (s : State) (src ctx b o : Nat) (ws : List Word) (checks : List LineCheck) (hI : s.Good wq) : (Prod.fst (State.putWords s src ctx b o ws checks)).Good wq := InvAt.inv (State.putWords_inv _ _ _ _ _ _ _ hI)

theorem State.getWords_inv (s : State) (src ctx b o n : Nat) (checks : List LineCheck) (hI : s.Good wq) : InvAt wq Prod.fst (State.getWords s src ctx b o n checks) := by
  unfold State.getWords
  repeat' (first | with_reducible assumption | (extract_lets +onlyGivenNames zz; (refine State.Good.genFst wq zz (fun _ => ?_) ?_; clear_value zz; rotate_left; subst zz; rotate_right)) | with_reducible apply InvAt.fst | with_reducible apply State.confirmed_inv | with_reducible apply State.Good.foldFst | with_reducible apply State.engineRead_at | (with_reducible intro _ _ _))
theorem State.getWords_at (s : State) (src ctx b o n : Nat) (checks : List LineCheck) (hI : s.Good wq) : (Prod.fst (State.getWords s src ctx b o n checks)).Good wq := InvAt.inv (State.getWords_inv _ _ _ _ _ _ _ hI)

theorem State.checkStore_inv (s : State) (hI : s.Good wq) : (State.checkStore s).Good wq := by
  unfold State.checkStore
  repeat' (first | with_reducible assumption | with_reducible apply State.put_inv)

theorem State.putSlot_inv (s : State) (f k o : Nat) (ws : List Word) (checks : List LineCheck) (hI : s.Good wq) : InvAt wq Prod.fst (State.putSlot s f k o ws checks) := by
  unfold State.putSlot
  repeat' (first | with_reducible assumption | with_reducible apply InvAt.fst | with_reducible apply State.putWords_at)
theorem State.putSlot_at (s : State) (f k o : Nat) (ws : List Word) (checks : List LineCheck) (hI : s.Good wq) : (Prod.fst (State.putSlot s f k o ws checks)).Good wq := InvAt.inv (State.putSlot_inv _ _ _ _ _ _ hI)

theorem State.getSlot_inv (s : State) (f k o n : Nat) (checks : List LineCheck) (hI : s.Good wq) : InvAt wq Prod.fst (State.getSlot s f k o n checks) := by
  unfold State.getSlot
  repeat' (first | with_reducible assumption | with_reducible apply InvAt.fst | with_reducible apply State.getWords_at)
theorem State.getSlot_at (s : State) (f k o n : Nat) (checks : List LineCheck) (hI : s.Good wq) : (Prod.fst (State.getSlot s f k o n checks)).Good wq := InvAt.inv (State.getSlot_inv _ _ _ _ _ _ hI)

theorem State.putSection_inv (s : State) (f k : Nat) (ws : List Word) (checks : List LineCheck) (hI : s.Good wq) : InvAt wq Prod.fst (State.putSection s f k ws checks) := by
  unfold State.putSection
  repeat' (first | with_reducible assumption | (extract_lets +onlyGivenNames zz; (refine State.Good.genFst wq zz (fun _ => ?_) ?_; clear_value zz; rotate_left; subst zz; rotate_right)) | with_reducible apply InvAt.fst | with_reducible apply State.Good.foldFst | with_reducible apply State.putSlot_at | (with_reducible intro _ _ _))
theorem State.putSection_at (s : State) (f k : Nat) (ws : List Word) (checks : List LineCheck) (hI : s.Good wq) : (Prod.fst (State.putSection s f k ws checks)).Good wq := InvAt.inv (State.putSection_inv _ _ _ _ _ hI)

theorem State.getSection_inv (s : State) (f k : Nat) (checks : List LineCheck) (hI : s.Good wq) :
    InvAt wq Prod.fst (State.getSection s f k checks) := by
  unfold State.getSection
  extract_lets o r
  have ho : o.1.Good wq := State.getSlot_at _ _ _ _ _ _ hI
  clear_value o
  have hr : r.1.Good wq := State.getSlot_at _ _ _ _ _ _ ho
  clear_value r
  split
  · refine InvAt.fst (InvAt.foldl (π := Prod.fst) (fun p a hp => ?_) _ _ hr)
    exact State.getSlot_at _ _ _ _ _ _ hp
  · exact InvAt.fst hr
theorem State.getSection_at (s : State) (f k : Nat) (checks : List LineCheck) (hI : s.Good wq) :
    (State.getSection s f k checks).1.Good wq := InvAt.inv (State.getSection_inv s f k checks hI)

theorem State.setFrame_inv (s : State) (code n : Nat) (ws : List Word) (hI : s.Good wq) : (State.setFrame s code n ws).Good wq := by
  unfold State.setFrame
  repeat' (first | with_reducible assumption | with_reducible apply State.Good.ite | with_reducible apply State.setImage_inv | split | (with_reducible refine State.Good.mk_of ?_; with_reducible refine State.Good.parts ?_))

theorem State.ilvCheck_inv (s : State) (n : Nat) (hI : s.Good wq) : InvAt wq Prod.snd (State.ilvCheck s n) := by
  unfold State.ilvCheck
  repeat' (first | with_reducible assumption | with_reducible apply InvAt.ite | with_reducible apply InvAt.snd | with_reducible apply State.freeNat_at)
theorem State.ilvCheck_at (s : State) (n : Nat) (hI : s.Good wq) : (Prod.snd (State.ilvCheck s n)).Good wq := InvAt.inv (State.ilvCheck_inv _ _ hI)

theorem State.frameCheck_inv (s : State) (e : FrameErrors) (hI : s.Good wq) : (State.frameCheck s e).2.2.Good wq := by
  unfold State.frameCheck
  refine InvAt.foldl (π := fun p : FrameCheck × BitVec 6 × State => p.2.2) (fun p a hp => ?_) _ _ hI
  have hr := State.ilvCheck_at p.2.2 (e.ilv a) hp
  dsimp only
  split <;> exact hr

end Sys2Proof.Machine
end

