-- ==== Sys2Proof/Laws/KeepPower.lean ====
section
/-! SUPPORT. Every operation keeps the invariant and the commands that wait: snapshots, save areas, power, the debugger and the requests at their targets.
One lemma for each operation that answers a state (`_inv`, and `_at` for the state inside a larger answer); of a command the lemma says that it completes (`Goes`). -/
namespace Sys2Proof.Machine
variable {wq : List Instr}

/-! Machine/Snapshot.lean -/

theorem State.snapAck_inv (s : State) (f status : Nat) (hI : s.Good wq) : (State.snapAck s f status).Good wq := by
  unfold State.snapAck
  repeat' (first | with_reducible assumption | with_reducible apply State.Good.ite | with_reducible apply State.raise_inv | with_reducible apply State.setFld_inv)

theorem State.unhold_inv (s : State) (n : Nat) (f : Nat) (hI : s.Good wq) : (State.unhold s n f).Good wq := by
  unfold State.unhold
  repeat' (first | with_reducible assumption | with_reducible apply State.setNi_inv)

theorem State.snapOne_inv (s : State) (f : Nat) (hI : s.Good wq) : (State.snapOne s f).Good wq := by
  unfold State.snapOne
  repeat' (first | with_reducible assumption | with_reducible apply State.Good.ite | with_reducible apply State.pump_inv | with_reducible apply State.setFld_inv | with_reducible apply State.snapAck_inv | with_reducible apply State.unhold_inv | with_reducible apply State.niTake_at | split | (with_reducible refine State.Good.mk_of ?_; with_reducible refine State.Good.parts ?_))

theorem State.snapPump_inv (s : State) (f : Nat) (hI : s.Good wq) : (State.snapPump s f).Good wq := by
  unfold State.snapPump
  repeat' (first | with_reducible assumption | with_reducible apply State.snapOne_inv | with_reducible apply State.Good.foldl | (with_reducible intro _ _ _))

theorem State.snapStart_inv (s : State) (f : Nat) (hI : s.Good wq) : (State.snapStart s f).Good wq := by
  unfold State.snapStart
  repeat' (first | with_reducible assumption | with_reducible apply State.raise_inv | with_reducible apply State.setFld_inv | with_reducible apply State.snapPump_inv | (with_reducible refine State.Good.mk_of ?_; with_reducible refine State.Good.parts ?_))

/-! Machine/SaveArea.lean -/

theorem State.putSave_inv (s : State) (b o : Nat) (ws : List Word) (checks : List LineCheck) (hI : s.Good wq) : (State.putSave s b o ws checks).Good wq := by
  unfold State.putSave
  repeat' (first | with_reducible assumption | with_reducible apply State.putWords_at)

theorem State.getSave_inv (s : State) (b o n : Nat) (checks : List LineCheck) (hI : s.Good wq) : InvAt wq Prod.fst (State.getSave s b o n checks) := by
  unfold State.getSave
  repeat' (first | with_reducible assumption | with_reducible apply InvAt.fst | with_reducible apply State.getWords_at)
theorem State.getSave_at (s : State) (b o n : Nat) (checks : List LineCheck) (hI : s.Good wq) : (Prod.fst (State.getSave s b o n checks)).Good wq := InvAt.inv (State.getSave_inv _ _ _ _ _ hI)

theorem State.savedCell_inv (s : State) (m w : Nat) (hI : s.Good wq) : InvAt wq Prod.snd (State.savedCell s m w) := by
  unfold State.savedCell
  repeat' (first | with_reducible assumption | with_reducible apply InvAt.snd | with_reducible apply State.freeNat_at | split)
theorem State.savedCell_at (s : State) (m w : Nat) (hI : s.Good wq) : (Prod.snd (State.savedCell s m w)).Good wq := InvAt.inv (State.savedCell_inv _ _ _ hI)

theorem State.savedMemory_inv (s : State) (m : Nat) (hI : s.Good wq) : InvAt wq Prod.snd (State.savedMemory s m) := by
  unfold State.savedMemory
  generalize List.range 2048 = l
  extract_lets r tag
  have hr : r.2.Good wq := by
    refine InvAt.foldl (π := Prod.snd) (fun p a hp => ?_) _ _ hI
    exact State.savedCell_at _ _ _ hp
  clear_value tag
  clear_value r
  exact InvAt.snd hr
theorem State.savedMemory_at (s : State) (m : Nat) (hI : s.Good wq) : (State.savedMemory s m).2.Good wq :=
  InvAt.inv (State.savedMemory_inv s m hI)

theorem State.saveField_inv (s : State) (f : Nat) (checks : List LineCheck) (hI : s.Good wq) :
    (State.saveField s f checks).Good wq := by
  unfold State.saveField
  generalize List.range 192 = l
  extract_lets b frames s1 s2
  have h1 : s1.Good wq := State.putSave_inv _ _ _ _ _ hI
  clear_value frames s1
  have h2 : s2.Good wq := State.forEach_inv _ _ h1 fun s a h => State.putSave_inv _ _ _ _ _ (State.savedMemory_at _ _ h)
  clear_value s2
  exact State.putSave_inv _ _ _ _ _ h2

theorem State.restoreMemory_inv (s : State) (f j : Nat) (ws : List Word) (hI : s.Good wq) : (State.restoreMemory s f j ws).Good wq := by
  unfold State.restoreMemory
  repeat' (first | with_reducible assumption | with_reducible apply State.Good.ite | with_reducible apply State.setWord_inv | with_reducible apply State.Good.foldl | (with_reducible intro _ _ _))

theorem State.restoreFlops_inv (s : State) (f : Nat) (ws : List Word) (hI : s.Good wq) : (State.restoreFlops s f ws).Good wq := by
  unfold State.restoreFlops
  repeat' (first | with_reducible assumption | with_reducible apply State.forEach_inv | with_reducible apply State.setCell_inv | with_reducible apply State.setQueue_inv | with_reducible apply State.setSeg_inv | with_reducible apply State.setSlice_inv | (with_reducible intro _ _ _))

theorem State.readSave_inv (s : State) (f : Nat) (checks : List LineCheck) (hI : s.Good wq) :
    InvAt wq Prod.fst (State.readSave s f checks) := by
  unfold State.readSave
  generalize List.range 192 = l
  extract_lets b r m q
  have hr : r.1.Good wq := State.getSave_at _ _ _ _ _ hI
  clear_value r
  have hm : m.1.Good wq := by
    refine InvAt.foldl (π := Prod.fst) (fun p a hp => ?_) _ _ hr
    exact State.getSave_at _ _ _ _ _ hp
  clear_value m
  have hq : q.1.Good wq := State.getSave_at _ _ _ _ _ hm
  clear_value q
  exact InvAt.fst hq
theorem State.readSave_at (s : State) (f : Nat) (checks : List LineCheck) (hI : s.Good wq) :
    (State.readSave s f checks).1.Good wq := InvAt.inv (State.readSave_inv s f checks hI)

theorem State.restoreFrom_inv (s : State) (f : Nat) (o : Option (List Word × List (Nat × List Word) × List Word))
    (hI : s.Good wq) : InvAt wq Prod.fst (State.restoreFrom s f o) := by
  unfold State.restoreFrom
  generalize List.range 3584 = l
  split
  · refine InvAt.fst (State.awaitSweep_inv _ _ _ (State.restoreFlops_inv _ _ _ (State.Good.foldl (fun s a h => ?_) _ ?_)))
    · exact State.restoreMemory_inv _ _ _ _ h
    · refine State.forEach_inv _ _ hI fun s a h => ?_
      exact State.setFrame_inv _ _ _ _ h
  · exact InvAt.fst (State.syncConfig_inv _ (State.keepFenced_inv _ _ (State.setFld_inv _ _ _ (State.unconfigure_inv _ _ hI))))
theorem State.restoreFrom_at (s : State) (f : Nat) (o : Option (List Word × List (Nat × List Word) × List Word))
    (hI : s.Good wq) : (State.restoreFrom s f o).1.Good wq := InvAt.inv (State.restoreFrom_inv s f o hI)

theorem State.restoreField_inv (s : State) (f : Nat) (checks : List LineCheck) (hI : s.Good wq) :
    InvAt wq Prod.fst (State.restoreField s f checks) := by
  unfold State.restoreField
  extract_lets r
  have hr : r.1.Good wq := State.readSave_at _ _ _ hI
  clear_value r
  exact State.restoreFrom_inv r.1 f r.2 hr
theorem State.restoreField_at (s : State) (f : Nat) (checks : List LineCheck) (hI : s.Good wq) :
    (State.restoreField s f checks).1.Good wq := InvAt.inv (State.restoreField_inv s f checks hI)

/-! Machine/Power.lean -/

theorem State.dropNi_inv (s : State) (n : Nat) (hI : s.Good wq) : (State.dropNi s n).Good wq := by
  unfold State.dropNi
  repeat' (first | with_reducible assumption | with_reducible apply State.setNi_inv)

theorem State.dropDomain_inv (s : State) (d : Nat) (hI : s.Good wq) : (State.dropDomain s d).Good wq := by
  unfold State.dropDomain
  repeat' (first | with_reducible assumption | with_reducible apply State.Good.ite | with_reducible apply State.dropNi_inv | with_reducible apply State.forEach_inv | with_reducible apply State.resetRegs_inv | with_reducible apply State.setDram_inv | (with_reducible refine State.Good.mk_of ?_; first | with_reducible refine State.Good.parts ?_ | refine GoodOf.filterMem _ (State.Good.parts ?_) | refine GoodOf.filterRegs _ (State.Good.parts ?_)))

theorem State.putDomain_inv (s : State) (d : Nat) (on : Bool) (hI : s.Good wq) : (State.putDomain s d on).Good wq := by
  unfold State.putDomain
  repeat' (first | with_reducible assumption | with_reducible apply State.Good.ite | with_reducible apply State.put_inv)

theorem State.setStep_inv (s : State) (d k : Nat) (hI : s.Good wq) : (State.setStep s d k).Good wq := by
  unfold State.setStep
  repeat' (first | with_reducible assumption | (with_reducible refine State.Good.mk_of ?_; with_reducible refine State.Good.parts ?_))

theorem State.fenceBegin_inv (s : State) (g : Nat) (hI : s.Good wq) : (State.fenceBegin s g).Good wq := by
  unfold State.fenceBegin
  repeat' (first | with_reducible assumption | with_reducible apply State.Good.ite | with_reducible apply State.forEach_inv | with_reducible apply State.setFld_inv | with_reducible apply State.Good.foldl | (with_reducible intro _ _ _) | split)

theorem State.isolate_inv (s : State) (d : Nat) (hI : s.Good wq) : (State.isolate s d).Good wq := by
  unfold State.isolate
  repeat' (first | with_reducible assumption | with_reducible apply State.Good.ite | with_reducible apply State.dropDomain_inv | with_reducible apply State.fenceBegin_inv | with_reducible apply State.forEach_inv | with_reducible apply State.niCauses_inv | with_reducible apply State.portsOff_inv | with_reducible apply State.post_inv | with_reducible apply State.putDomain_inv | with_reducible apply State.setStep_inv | (with_reducible intro _ _ _))

theorem State.isolateReady_inv (s : State) (hI : s.Good wq) : (State.isolateReady s).Good wq := by
  unfold State.isolateReady
  repeat' (first | with_reducible assumption | with_reducible apply State.Good.ite | with_reducible apply State.forEach_inv | with_reducible apply State.isolate_inv)

theorem State.drainStep_inv (s : State) (d : Nat) (hI : s.Good wq) : (State.drainStep s d).Good wq := by
  unfold State.drainStep
  repeat' (first | with_reducible assumption | (extract_lets +onlyGivenNames zz; first | (refine State.Good.gen wq zz (fun _ => ?_) ?_; clear_value zz; rotate_left; subst zz; rotate_right) | clear_value zz) | with_reducible apply State.Good.ite | with_reducible apply State.drainChannel_inv | with_reducible apply State.flushCache_inv | with_reducible apply State.setFld_inv | with_reducible apply State.setStep_inv)

theorem State.domainDrain_inv (s : State) (d : Nat) (hI : s.Good wq) : (State.domainDrain s d).Good wq := by
  unfold State.domainDrain
  repeat' (first | with_reducible assumption | (extract_lets +onlyGivenNames zz; (refine State.Good.gen wq zz (fun _ => ?_) ?_; clear_value zz; rotate_left; subst zz; rotate_right)) | with_reducible apply State.Good.ite | with_reducible apply State.drainStep_inv | with_reducible apply State.isolateReady_inv)

theorem State.drainTimeout_inv (s : State) (d : Nat) (hI : s.Good wq) : (State.drainTimeout s d).Good wq := by
  unfold State.drainTimeout
  repeat' (first | with_reducible assumption | with_reducible apply State.Good.ite | with_reducible apply State.forEach_inv | with_reducible apply State.post_inv | with_reducible apply State.raise_inv | with_reducible apply State.setNi_inv | with_reducible apply State.setStep_inv | (with_reducible intro _ _ _))

theorem State.loadWords_inv (s : State) (f : Nat) (ws : List (Nat × (Word × BitVec 4))) (hI : s.Good wq) : (State.loadWords s f ws).Good wq := by
  unfold State.loadWords
  repeat' (first | with_reducible assumption | with_reducible apply State.setWord_inv | with_reducible apply State.Good.foldl | (with_reducible intro _ _ _))

theorem State.loadMemories_inv (s : State) (f : Nat) (i : FieldImage) (hI : s.Good wq) : (State.loadMemories s f i).Good wq := by
  unfold State.loadMemories
  repeat' (first | with_reducible assumption | with_reducible apply State.loadWords_inv | with_reducible apply State.zeroMemory_inv | with_reducible apply State.Good.foldl | (with_reducible intro _ _ _))

theorem State.reloadMemory_inv (s : State) (f j : Nat) (checks : List LineCheck) (hI : s.Good wq) : (State.reloadMemory s f j checks).Good wq := by
  unfold State.reloadMemory
  repeat' (first | with_reducible assumption | (extract_lets +onlyGivenNames zz; (refine State.Good.genFst wq zz (fun _ => ?_) ?_; clear_value zz; rotate_left; subst zz; rotate_right)) | with_reducible apply State.loadWords_inv | with_reducible apply State.zeroMemory_inv | with_reducible apply State.getSlot_at | split)

theorem State.reloadMemories_inv (s : State) (f : Nat) (checks : List LineCheck) (hI : s.Good wq) : (State.reloadMemories s f checks).Good wq := by
  unfold State.reloadMemories
  repeat' (first | with_reducible assumption | with_reducible apply State.Good.ite | with_reducible apply State.reloadMemory_inv | with_reducible apply State.Good.foldl | (with_reducible intro _ _ _) | split)

theorem State.powerUp_inv (s : State) (d : Nat) (checks : List LineCheck) (hI : s.Good wq) : (State.powerUp s d checks).Good wq := by
  unfold State.powerUp
  repeat' (first | with_reducible assumption | (extract_lets +onlyGivenNames zz; first | (refine State.Good.gen wq zz (fun _ => ?_) ?_; clear_value zz; rotate_left; subst zz; rotate_right) | clear_value zz) | with_reducible apply State.Good.ite | with_reducible apply State.awaitSweep_inv | with_reducible apply State.bump_inv | with_reducible apply State.dropDomain_inv | with_reducible apply State.forEach_inv | with_reducible apply State.initFabric_inv | with_reducible apply State.niCauses_inv | with_reducible apply State.post_inv | with_reducible apply State.putDomain_inv | with_reducible apply State.reloadMemories_inv | with_reducible apply State.setFld_inv | (with_reducible intro _ _ _))

theorem State.domainUp_inv (s : State) (d : Nat) (checks : List LineCheck) (hI : s.Good wq) : (State.domainUp s d checks).Good wq := by
  unfold State.domainUp
  repeat' (first | with_reducible assumption | with_reducible apply State.Good.ite | with_reducible apply State.powerUp_inv)

theorem execDomainOn_inv (d : Fin 41) (checks : List LineCheck) (s : State) (hI : s.Good wq) : Goes wq (execDomainOn d checks s) := by
  unfold execDomainOn
  repeat' (first | with_reducible assumption | with_reducible apply Goes.next | with_reducible apply State.domainUp_inv)

theorem State.powerChange_inv (s : State) (hI : s.Good wq) : (State.powerChange s).Good wq := by
  unfold State.powerChange
  repeat' (first | with_reducible assumption | with_reducible apply State.Good.ite | with_reducible apply State.beginOff_inv | with_reducible apply State.forEach_inv | (with_reducible refine State.Good.mk_of ?_; with_reducible refine State.Good.parts ?_))

theorem State.valleyOff_inv (s : State) (d : Nat) (hI : s.Good wq) : (State.valleyOff s d).Good wq := by
  unfold State.valleyOff
  repeat' (first | with_reducible assumption | with_reducible apply State.Good.ite | with_reducible apply State.clearTimetable_inv | with_reducible apply State.forEach_inv | with_reducible apply State.isolate_inv | with_reducible apply State.setNi_inv | (with_reducible intro _ _ _) | split | (with_reducible refine State.Good.mk_of ?_; first | with_reducible refine State.Good.parts ?_ | refine GoodOf.insertRegs _ (State.Good.parts ?_)))

theorem State.wakeFrom_inv (s : State) (k : Nat) (hI : s.Good wq) : (State.wakeFrom s k).Good wq := by
  unfold State.wakeFrom
  repeat' (first | with_reducible assumption | with_reducible apply State.Good.ite | with_reducible apply State.put_inv)

theorem State.valleyEntry_inv (s : State) (hI : s.Good wq) : (State.valleyEntry s).Good wq := by
  unfold State.valleyEntry
  repeat' (first | with_reducible assumption | (extract_lets +onlyGivenNames zz; first | (refine State.Good.gen wq zz (fun _ => ?_) ?_; clear_value zz; rotate_left; subst zz; rotate_right) | (refine State.Good.genMode wq zz (fun _ _ => ?_) ?_ ?_; clear_value zz; rotate_left; subst zz; rotate_left; subst zz; rotate_left)) | with_reducible apply State.Good.ite | with_reducible apply State.drainStep_inv | with_reducible apply State.forEach_inv | with_reducible apply State.put_inv | with_reducible apply State.syncConfig_inv | with_reducible apply State.valleyOff_inv | (show Mode.isBase _ = true; first | exact State.Good.base (by assumption) | exact State.Good.before (by assumption)) | (with_reducible refine State.Good.mk_of ?_; refine State.Good.newBase ?_ ?_ ?_))

theorem execWakeN_inv (s : State) (hI : s.Good wq) : Goes wq (execWakeN s) := by
  unfold execWakeN
  repeat' (first | with_reducible assumption | with_reducible apply State.Good.ite | with_reducible apply Goes.next | with_reducible apply State.wakeFrom_inv)

theorem execL1Exit_inv (s : State) (hI : s.Good wq) : Goes wq (execL1Exit s) := by
  unfold execL1Exit
  repeat' (first | with_reducible assumption | with_reducible apply State.Good.ite | with_reducible apply Goes.next | with_reducible apply State.wakeFrom_inv)

theorem State.baseOn_inv (s : State) (hI : s.Good wq) : (State.baseOn s).Good wq := by
  unfold State.baseOn
  repeat' (first | with_reducible assumption | with_reducible apply State.forEach_inv | with_reducible apply State.niCauses_inv | with_reducible apply State.putDomain_inv | (with_reducible intro _ _ _))

theorem State.wakeComplete_inv (s : State) (hI : s.Good wq) : (State.wakeComplete s).Good wq := by
  unfold State.wakeComplete
  repeat' (first | with_reducible assumption | (extract_lets +onlyGivenNames zz; first | (refine State.Good.gen wq zz (fun _ => ?_) ?_; clear_value zz; rotate_left; subst zz; rotate_right) | (refine State.Good.genMode wq zz (fun _ _ => ?_) ?_ ?_; clear_value zz; rotate_left; subst zz; rotate_left; subst zz; rotate_left) | clear_value zz) | with_reducible apply State.Good.ite | with_reducible apply State.awaitSweep_inv | with_reducible apply State.baseOn_inv | with_reducible apply State.dramWake_inv | with_reducible apply State.enterMode_inv | with_reducible apply State.forEach_inv | with_reducible apply State.powerUp_inv | with_reducible apply State.put_inv | with_reducible apply State.resumeMode_inv | with_reducible apply State.syncConfig_inv | with_reducible apply State.wdLoad_inv | (with_reducible intro _ _ _) | (show Mode.isBase _ = true; first | exact State.Good.base (by assumption) | exact State.Good.before (by assumption) | (with_reducible refine ModeSt.withPending_base ?_) | (with_reducible refine ModeSt.withPending_before ?_)) | (with_reducible refine State.Good.mk_of ?_; refine GoodOf.insertRegs _ (State.Good.parts ?_)))

theorem State.endCutTest_inv (s : State) (frozen : Bool) (checks : List LineCheck) (hI : s.Good wq) : (State.endCutTest s frozen checks).Good wq := by
  unfold State.endCutTest
  repeat' (first | with_reducible assumption | (extract_lets +onlyGivenNames zz; first | (refine State.Good.gen wq zz (fun _ => ?_) ?_; clear_value zz; rotate_left; subst zz; rotate_right) | clear_value zz) | with_reducible apply State.Good.ite | with_reducible apply State.clear_inv | with_reducible apply State.postLog_inv | with_reducible apply State.put_inv | with_reducible apply State.restoreField_at | split | (with_reducible refine State.Good.mk_of ?_; with_reducible refine State.Good.parts ?_))

theorem State.reqRelease_inv (s : State) (checks : List LineCheck) (hI : s.Good wq) : (State.reqRelease s checks).Good wq := by
  unfold State.reqRelease
  repeat' (first | with_reducible assumption | (extract_lets +onlyGivenNames zz; first | (refine State.Good.gen wq zz (fun _ => ?_) ?_; clear_value zz; rotate_left; subst zz; rotate_right) | (refine State.Good.genMode wq zz (fun _ _ => ?_) ?_ ?_; clear_value zz; rotate_left; subst zz; rotate_left; subst zz; rotate_left) | clear_value zz) | with_reducible apply State.Good.ite | with_reducible apply State.awaitSweep_inv | with_reducible apply State.baseOn_inv | with_reducible apply State.dramWake_inv | with_reducible apply State.endCutTest_inv | with_reducible apply State.enterMode_inv | with_reducible apply State.flushCache_inv | with_reducible apply State.forEach_inv | with_reducible apply State.linksRelease_inv | with_reducible apply State.niCauses_inv | with_reducible apply State.powerChange_inv | with_reducible apply State.put_inv | with_reducible apply State.rejectRequest_inv | with_reducible apply State.setFld_inv | with_reducible apply State.startTicks_inv | with_reducible apply State.wdLoad_inv | (with_reducible intro _ _ _) | (show Mode.isBase _ = true; first | exact rfl | exact State.Good.base (by assumption) | exact State.Good.before (by assumption)) | split | (with_reducible refine State.Good.mk_of ?_; with_reducible refine State.Good.parts ?_))

theorem State.deviceReset_inv (s : State) (cause : Nat) (hI : s.Good wq) : (State.deviceReset s cause).Good wq := by
  unfold State.deviceReset
  repeat' (first | with_reducible assumption | with_reducible apply State.Good.ite | with_reducible apply State.enterMode_inv | with_reducible apply State.put_inv | with_reducible apply State.raise_inv | (show Mode.isBase _ = true; exact rfl) | split | (with_reducible refine State.Good.mk_of ?_; first | with_reducible refine State.Good.parts ?_ | refine State.Good.fromReset ?_))

theorem execPowerOn_inv (s : State) (hI : s.Good wq) : Goes wq (execPowerOn s) := by
  unfold execPowerOn
  repeat' (first | with_reducible assumption | with_reducible apply State.Good.ite | with_reducible apply Goes.next | with_reducible apply State.deviceReset_inv | (with_reducible refine State.Good.mk_of ?_; with_reducible refine State.Good.parts ?_))

theorem execSupplyLoss_inv (s : State) (hI : s.Good wq) : Goes wq (execSupplyLoss s) := by
  unfold execSupplyLoss
  repeat' (first | with_reducible assumption | with_reducible apply Goes.next | (with_reducible refine State.Good.mk_of ?_; refine State.Good.fromReset ?_))

theorem execPerstN_inv (s : State) (hI : s.Good wq) : Goes wq (execPerstN s) := by
  unfold execPerstN
  repeat' (first | with_reducible assumption | with_reducible apply State.Good.ite | with_reducible apply Goes.next | with_reducible apply State.deviceReset_inv)

theorem execDeviceReset_inv (cause : Fin 3) (s : State) (hI : s.Good wq) : Goes wq (execDeviceReset cause s) := by
  unfold execDeviceReset
  repeat' (first | with_reducible assumption | with_reducible apply State.Good.ite | with_reducible apply Goes.next | with_reducible apply State.deviceReset_inv)

theorem execSoftwareReset_inv (path : Path) (first second : BitVec 16) (cycles : Nat) (s : State) (hI : s.Good wq) : Goes wq (execSoftwareReset path first second cycles s) := by
  unfold execSoftwareReset
  repeat' (first | with_reducible assumption | with_reducible apply State.Good.ite | with_reducible apply Goes.next | with_reducible apply State.deviceReset_inv)

theorem State.hostBridgeReset_inv (s : State) (kind : Nat) (hI : s.Good wq) : (State.hostBridgeReset s kind).Good wq := by
  unfold State.hostBridgeReset
  repeat' (first | with_reducible assumption | with_reducible apply State.Good.ite | with_reducible apply State.dbgUnlocked_inv | with_reducible apply State.failLoad_inv | with_reducible apply State.forEach_inv | with_reducible apply State.post_inv | with_reducible apply State.raise_inv | with_reducible apply State.setNi_inv | (with_reducible intro _ _ _) | split | (with_reducible refine State.Good.mk_of ?_; refine GoodOf.filterRegs _ (State.Good.parts ?_)))

theorem execHostBridgeReset_inv (kind : Fin 3) (s : State) (hI : s.Good wq) : Goes wq (execHostBridgeReset kind s) := by
  unfold execHostBridgeReset
  repeat' (first | with_reducible assumption | with_reducible apply Goes.next | with_reducible apply State.hostBridgeReset_inv)

/-! Machine/Debug.lean -/

theorem State.dbgRefuse_inv (s : State) (p : Path) (hI : s.Good wq) : (State.dbgRefuse s p).Good wq := by
  unfold State.dbgRefuse
  repeat' (first | with_reducible assumption | with_reducible apply State.Good.ite | with_reducible apply State.raise_inv)

theorem State.dbgWrite_inv (s : State) (p : Path) (g : State → State) (hI : s.Good wq) (hg : ∀ x0, x0.Good wq → (g x0).Good wq) : (State.dbgWrite s p g).Good wq := by
  unfold State.dbgWrite
  repeat' (first | with_reducible assumption | with_reducible apply State.Good.ite | with_reducible apply State.dbgRefuse_inv | with_reducible apply hg)

theorem State.dbgUnlock_inv (s : State) (path : Path) (first second : BitVec 16) (cycles : Nat) (hI : s.Good wq) : (State.dbgUnlock s path first second cycles).Good wq := by
  unfold State.dbgUnlock
  repeat' (first | with_reducible assumption | with_reducible apply State.Good.ite | with_reducible apply State.dbgUnlocked_inv | with_reducible apply State.raise_inv)

theorem execUnlock_inv (path : Path) (first second : BitVec 16) (cycles : Nat) (s : State) (hI : s.Good wq) : Goes wq (execUnlock path first second cycles s) := by
  unfold execUnlock
  repeat' (first | with_reducible assumption | with_reducible apply Goes.next | with_reducible apply State.dbgUnlock_inv)

theorem execLock_inv (path : Path) (s : State) (hI : s.Good wq) : Goes wq (execLock path s) := by
  unfold execLock
  repeat' (first | with_reducible assumption | with_reducible apply Goes.next | with_reducible apply State.dbgUnlocked_inv | with_reducible apply State.dbgWrite_inv | (with_reducible intro _ _))

theorem execDbgEnFall_inv (s : State) (hI : s.Good wq) : Goes wq (execDbgEnFall s) := by
  unfold execDbgEnFall
  repeat' (first | with_reducible assumption | with_reducible apply Goes.next | (with_reducible refine State.Good.mk_of ?_; with_reducible refine State.Good.parts ?_))

theorem State.clearReservations_inv (s : State) (hI : s.Good wq) : (State.clearReservations s).Good wq := by
  unfold State.clearReservations
  repeat' (first | with_reducible assumption | (with_reducible refine State.Good.mk_of ?_; with_reducible refine State.Good.parts ?_))

theorem State.reserve_inv (s : State) (p : Path) (r : Word × Word) (hI : s.Good wq) : (State.reserve s p r).Good wq := by
  unfold State.reserve
  repeat' (first | with_reducible assumption | (extract_lets +onlyGivenNames zz; first | (refine State.Good.gen wq zz (fun _ => ?_) ?_; clear_value zz; rotate_left; subst zz; rotate_right) | (refine State.Good.genFst wq zz (fun _ => ?_) ?_; clear_value zz; rotate_left; subst zz; rotate_right) | (refine State.Good.genSnd wq zz (fun _ => ?_) ?_; clear_value zz; rotate_left; subst zz; rotate_right) | (refine State.Good.genLine wq zz (fun _ => ?_) ?_; clear_value zz; rotate_left; subst zz; rotate_right) | (refine State.Good.genMeta wq zz (fun _ => ?_) ?_; clear_value zz; rotate_left; subst zz; rotate_right) | (refine State.Good.genRes wq zz (fun _ => ?_) ?_; clear_value zz; rotate_left; subst zz; rotate_right) | (refine State.Good.genWrite wq zz (fun _ => ?_) ?_; clear_value zz; rotate_left; subst zz; rotate_right) | (refine State.Good.genIngest wq zz (fun _ => ?_) ?_; clear_value zz; rotate_left; subst zz; rotate_right) | (refine State.Good.genOut wq zz (fun _ => ?_) ?_; clear_value zz; rotate_left; subst zz; rotate_right) | (refine State.Good.genBuild wq zz (fun _ => ?_) ?_; clear_value zz; rotate_left; subst zz; rotate_right) | (refine State.Good.genTaken wq zz (fun _ => ?_) ?_; clear_value zz; rotate_left; subst zz; rotate_right) | (refine State.Good.genMode wq zz (fun _ _ => ?_) ?_ ?_; clear_value zz; rotate_left; subst zz; rotate_left; subst zz; rotate_left) | (have := State.Good.isFun zz; clear this; subst zz) | clear_value zz) | with_reducible apply State.Good.ite | with_reducible apply State.Good.iteFst | with_reducible apply State.Good.iteSnd | with_reducible apply State.Good.iteLine | with_reducible apply State.Good.iteMeta | (with_reducible intro _ _ _) | (with_reducible intro _ _) | (show Mode.isBase _ = true; first | exact rfl | exact State.Good.base (by assumption) | exact State.Good.before (by assumption) | (with_reducible refine ModeSt.withPending_base ?_) | (with_reducible refine ModeSt.withPending_before ?_) | (with_reducible refine ModeSt.withBack_base ?_) | (with_reducible refine ModeSt.withBack_before ?_)) | split | (with_reducible refine State.Good.mk_of ?_; first | with_reducible refine State.Good.parts ?_ | refine State.Good.fromReset ?_ | refine State.Good.sameBase ?_ rfl rfl | refine GoodOf.filterMem _ (State.Good.parts ?_) | refine GoodOf.filterRegs _ (State.Good.parts ?_) | refine GoodOf.fillMem _ _ _ (State.Good.parts ?_) | refine GoodOf.insertRegs _ (State.Good.parts ?_) | refine State.Good.newBase ?_ ?_ ?_))

theorem State.accAnswer_inv (s : State) (p : Path) (a : Word) (op : Nat) (old : Word) (ok : Bool) (w : Word) (hI : s.Good wq) : (State.accAnswer s p a op old ok w).Good wq := by
  unfold State.accAnswer
  repeat' (first | with_reducible assumption | (extract_lets +onlyGivenNames zz; (refine State.Good.gen wq zz (fun _ => ?_) ?_; clear_value zz; rotate_left; subst zz; rotate_right)) | with_reducible apply State.Good.ite | with_reducible apply State.clearReservations_inv | with_reducible apply State.put_inv | with_reducible apply State.reserve_inv | with_reducible apply State.setPair_inv | split)

theorem State.accDone_inv (s : State) (status : Nat) (w : Word) (hI : s.Good wq) : (State.accDone s status w).Good wq := by
  unfold State.accDone
  repeat' (first | with_reducible assumption | (extract_lets +onlyGivenNames zz; first | (refine State.Good.gen wq zz (fun _ => ?_) ?_; clear_value zz; rotate_left; subst zz; rotate_right) | clear_value zz) | with_reducible apply State.accAnswer_inv | with_reducible apply State.clear_inv | with_reducible apply State.put_inv | split | (with_reducible refine State.Good.mk_of ?_; with_reducible refine State.Good.parts ?_))

theorem State.accIssue_inv (s : State) (p : Path) (op : Nat) (old : Word) (q : Request) (hI : s.Good wq) : (State.accIssue s p op old q).Good wq := by
  unfold State.accIssue
  repeat' (first | with_reducible assumption | (extract_lets +onlyGivenNames zz; first | (refine State.Good.gen wq zz (fun _ => ?_) ?_; clear_value zz; rotate_left; subst zz; rotate_right) | (refine State.Good.genTaken wq zz (fun _ => ?_) ?_; clear_value zz; rotate_left; subst zz; rotate_right) | clear_value zz) | with_reducible apply State.accDone_inv | with_reducible apply State.pump_inv | with_reducible apply State.raise_inv | with_reducible apply State.niTake_at | split | (with_reducible refine State.Good.mk_of ?_; with_reducible refine State.Good.parts ?_))

theorem State.accGo_inv (s : State) (p : Path) (op : Nat) (hI : s.Good wq) : (State.accGo s p op).Good wq := by
  unfold State.accGo
  repeat' (first | with_reducible assumption | (extract_lets +onlyGivenNames zz; (refine State.Good.gen wq zz (fun _ => ?_) ?_; clear_value zz; rotate_left; subst zz; rotate_right)) | with_reducible apply State.Good.ite | with_reducible apply State.accIssue_inv | with_reducible apply State.clearReservations_inv | with_reducible apply State.put_inv | with_reducible apply State.raise_inv | split)

theorem execAccRead_inv (path : Path) (s : State) (hI : s.Good wq) : Goes wq (execAccRead path s) := by
  unfold execAccRead
  repeat' (first | with_reducible assumption | with_reducible apply Goes.next | with_reducible apply State.accGo_inv | with_reducible apply State.dbgWrite_inv | (with_reducible intro _ _))

theorem execAccWrite_inv (path : Path) (s : State) (hI : s.Good wq) : Goes wq (execAccWrite path s) := by
  unfold execAccWrite
  repeat' (first | with_reducible assumption | with_reducible apply Goes.next | with_reducible apply State.accGo_inv | with_reducible apply State.dbgWrite_inv | (with_reducible intro _ _))

theorem execLr_inv (path : Path) (s : State) (hI : s.Good wq) : Goes wq (execLr path s) := by
  unfold execLr
  repeat' (first | with_reducible assumption | with_reducible apply Goes.next | with_reducible apply State.accGo_inv | with_reducible apply State.dbgWrite_inv | (with_reducible intro _ _))

theorem execSc_inv (path : Path) (s : State) (hI : s.Good wq) : Goes wq (execSc path s) := by
  unfold execSc
  repeat' (first | with_reducible assumption | with_reducible apply Goes.next | with_reducible apply State.accGo_inv | with_reducible apply State.dbgWrite_inv | (with_reducible intro _ _))

theorem State.lcWindow_inv (s : State) (i : Nat) (hI : s.Good wq) : (State.lcWindow s i).Good wq := by
  unfold State.lcWindow
  repeat' (first | with_reducible assumption | with_reducible apply State.Good.ite | with_reducible apply State.put_inv | split)

theorem execLcWindow_inv (i : Fin 4) (s : State) (hI : s.Good wq) : Goes wq (execLcWindow i s) := by
  unfold execLcWindow
  repeat' (first | with_reducible assumption | with_reducible apply Goes.next | with_reducible apply State.lcWindow_inv)

theorem State.traceEnable_inv (s : State) (hI : s.Good wq) : (State.traceEnable s).Good wq := by
  unfold State.traceEnable
  repeat' (first | with_reducible assumption | with_reducible apply State.Good.ite | with_reducible apply State.clear_inv | with_reducible apply State.raise_inv | (with_reducible refine State.Good.mk_of ?_; with_reducible refine State.Good.parts ?_))

theorem execTraceEnable_inv (path : Path) (s : State) (hI : s.Good wq) : Goes wq (execTraceEnable path s) := by
  unfold execTraceEnable
  repeat' (first | with_reducible assumption | with_reducible apply Goes.next | with_reducible apply State.dbgWrite_inv | with_reducible apply State.traceEnable_inv)

theorem State.cutField_inv (s : State) (f : Nat) (hI : s.Good wq) : (State.cutField s f).Good wq := by
  unfold State.cutField
  repeat' (first | with_reducible assumption | with_reducible apply State.Good.ite | with_reducible apply State.clear_inv | with_reducible apply State.rewindFabric_inv | with_reducible apply State.rewindNis_inv | with_reducible apply State.setFld_inv | split | (with_reducible refine State.Good.mk_of ?_; with_reducible refine State.Good.parts ?_))

theorem State.enterHalt_inv (s : State) (now : Bool) (src : Nat) (hI : s.Good wq) : (State.enterHalt s now src).Good wq := by
  unfold State.enterHalt
  repeat' (first | with_reducible assumption | (extract_lets +onlyGivenNames zz; first | (refine State.Good.gen wq zz (fun _ => ?_) ?_; clear_value zz; rotate_left; subst zz; rotate_right) | (refine State.Good.genMode wq zz (fun _ _ => ?_) ?_ ?_; clear_value zz; rotate_left; subst zz; rotate_left; subst zz; rotate_left) | clear_value zz) | with_reducible apply State.clearReservations_inv | with_reducible apply State.enterMode_inv | with_reducible apply State.post_inv | with_reducible apply State.put_inv | with_reducible apply State.setPair_inv | (show Mode.isBase _ = true; first | exact State.Good.base (by assumption) | exact State.Good.before (by assumption)) | (with_reducible refine State.Good.mk_of ?_; with_reducible refine State.Good.parts ?_))

theorem State.haltCut_inv (s : State) (src : Nat) (hI : s.Good wq) : (State.haltCut s src).Good wq := by
  unfold State.haltCut
  repeat' (first | with_reducible assumption | with_reducible apply State.cutField_inv | with_reducible apply State.enterHalt_inv | with_reducible apply State.forEach_inv | with_reducible apply State.rejectDrain_inv)

theorem State.haltNow_inv (s : State) (hI : s.Good wq) : (State.haltNow s).Good wq := by
  unfold State.haltNow
  repeat' (first | with_reducible assumption | with_reducible apply State.haltCut_inv | split)

theorem execHaltNow_inv (path : Option Path) (s : State) (hI : s.Good wq) : Goes wq (execHaltNow path s) := by
  unfold execHaltNow
  repeat' (first | with_reducible assumption | with_reducible apply Goes.next | with_reducible apply State.dbgWrite_inv | with_reducible apply State.haltNow_inv | with_reducible apply State.haltRequest_inv | (with_reducible intro _ _) | split)

theorem execHaltFrameEnd_inv (path : Path) (s : State) (hI : s.Good wq) : Goes wq (execHaltFrameEnd path s) := by
  unfold execHaltFrameEnd
  repeat' (first | with_reducible assumption | with_reducible apply Goes.next | with_reducible apply State.dbgWrite_inv | with_reducible apply State.haltRequest_inv | (with_reducible intro _ _))

theorem State.haltRelease_inv (s : State) (hI : s.Good wq) : (State.haltRelease s).Good wq := by
  unfold State.haltRelease
  repeat' (first | with_reducible assumption | with_reducible apply State.Good.ite | with_reducible apply State.raise_inv | (with_reducible refine State.Good.mk_of ?_; with_reducible refine State.Good.parts ?_))

theorem execRelease_inv (path : Path) (s : State) (hI : s.Good wq) : Goes wq (execRelease path s) := by
  unfold execRelease
  repeat' (first | with_reducible assumption | with_reducible apply Goes.next | with_reducible apply State.dbgWrite_inv | with_reducible apply State.haltRelease_inv)

theorem State.resumePrepare_inv (s : State) (hI : s.Good wq) : (State.resumePrepare s).Good wq := by
  unfold State.resumePrepare
  repeat' (first | with_reducible assumption | with_reducible apply State.Good.ite | with_reducible apply State.dramWake_inv | with_reducible apply State.forEach_inv | (with_reducible intro _ _ _) | (with_reducible refine State.Good.mk_of ?_; with_reducible refine State.Good.parts ?_))

theorem execResumePrepare_inv (s : State) (hI : s.Good wq) : Goes wq (execResumePrepare s) := by
  unfold execResumePrepare
  repeat' (first | with_reducible assumption | with_reducible apply Goes.next | with_reducible apply State.resumePrepare_inv)

theorem State.vtPort_inv (s : State) (cyc b : Nat) (g : Word → State → State) (hI : s.Good wq) (hg : ∀ x0 x1, x1.Good wq → (g x0 x1).Good wq) : (State.vtPort s cyc b g).Good wq := by
  unfold State.vtPort
  repeat' (first | with_reducible assumption | with_reducible apply State.Good.ite | with_reducible apply State.comeTo_inv | with_reducible apply hg | split)

theorem State.vtReceive_inv (s : State) (data : Word) (hI : s.Good wq) : (State.vtReceive s data).Good wq := by
  unfold State.vtReceive
  repeat' (first | with_reducible assumption | with_reducible apply State.Good.ite | with_reducible apply State.put_inv | with_reducible apply State.raise_inv)

theorem execVtSend_inv (cyc : Nat) (s : State) (hI : s.Good wq) : Goes wq (execVtSend cyc s) := by
  unfold execVtSend
  repeat' (first | with_reducible assumption | with_reducible apply Goes.next | with_reducible apply State.vtPort_inv | with_reducible apply State.vtReceive_inv | (with_reducible intro _ _ _))

theorem execTake_inv (cyc : Nat) (s : State) (hI : s.Good wq) : Goes wq (execTake cyc s) := by
  unfold execTake
  repeat' (first | with_reducible assumption | with_reducible apply Goes.next | with_reducible apply State.clear_inv | with_reducible apply State.vtPort_inv | (with_reducible intro _ _ _))

theorem State.vtTxWrite_inv (s : State) (data : BitVec 32) (hI : s.Good wq) : (State.vtTxWrite s data).Good wq := by
  unfold State.vtTxWrite
  repeat' (first | with_reducible assumption | with_reducible apply State.Good.ite | with_reducible apply State.put_inv | with_reducible apply State.raise_inv)

theorem execVtTxWrite_inv (path : Path) (data : BitVec 32) (s : State) (hI : s.Good wq) : Goes wq (execVtTxWrite path data s) := by
  unfold execVtTxWrite
  repeat' (first | with_reducible assumption | with_reducible apply Goes.next | with_reducible apply State.dbgWrite_inv | with_reducible apply State.vtTxWrite_inv | (with_reducible intro _ _))

theorem execRxtake_inv (path : Path) (s : State) (hI : s.Good wq) : Goes wq (execRxtake path s) := by
  unfold execRxtake
  repeat' (first | with_reducible assumption | with_reducible apply Goes.next | with_reducible apply State.clear_inv | with_reducible apply State.dbgWrite_inv | (with_reducible intro _ _))

/-! Machine/Requests.lean -/

theorem execCarriageHop_inv (n : NodeNo) (out : Fin 5) (cyc : Nat) (link : LinkOutcome) (s : State) (hI : s.Good wq) : Goes wq (execCarriageHop n out cyc link s) := by
  unfold execCarriageHop
  repeat' (first | with_reducible assumption | with_reducible apply Goes.next | with_reducible apply State.hop_inv)

theorem State.dropRequest_inv (s : State) (n : Nat) (pkt : List Carriage) (hI : s.Good wq) : (State.dropRequest s n pkt).Good wq := by
  unfold State.dropRequest
  repeat' (first | with_reducible assumption | with_reducible apply State.setNi_inv)

theorem State.bcastRefused_inv (s : State) (n : Nat) (hI : s.Good wq) : (State.bcastRefused s n).Good wq := by
  unfold State.bcastRefused
  repeat' (first | with_reducible assumption | with_reducible apply State.bump_inv)

theorem State.decline_inv (s : State) (n : Nat) (pkt : List Carriage) (status : Nat) (hI : s.Good wq) : (State.decline s n pkt status).Good wq := by
  unfold State.decline
  repeat' (first | with_reducible assumption | with_reducible apply State.Good.ite | with_reducible apply State.bcastRefused_inv | with_reducible apply State.bounceBack_inv | with_reducible apply State.replyFail_inv)

theorem State.fenceAck_inv (s : State) (n : Nat) (c : Carriage) (hI : s.Good wq) : Keeps wq (State.fenceAck s n c) := by
  unfold State.fenceAck
  repeat' (first | with_reducible assumption | with_reducible exact Keeps.none | with_reducible apply Keeps.ite | with_reducible apply Keeps.some | with_reducible apply State.replyOne_inv)

theorem State.rxportWrite_inv (s : State) (n : Nat) (pkt : List Carriage) (hI : s.Good wq) : Keeps wq (State.rxportWrite s n pkt) := by
  unfold State.rxportWrite
  repeat' (first | with_reducible assumption | (extract_lets +onlyGivenNames zz; first | (refine State.Good.gen wq zz (fun _ => ?_) ?_; clear_value zz; rotate_left; subst zz; rotate_right) | (refine State.Good.genFst wq zz (fun _ => ?_) ?_; clear_value zz; rotate_left; subst zz; rotate_right) | (refine State.Good.genSnd wq zz (fun _ => ?_) ?_; clear_value zz; rotate_left; subst zz; rotate_right) | (refine State.Good.genLine wq zz (fun _ => ?_) ?_; clear_value zz; rotate_left; subst zz; rotate_right) | (refine State.Good.genMeta wq zz (fun _ => ?_) ?_; clear_value zz; rotate_left; subst zz; rotate_right) | (refine State.Good.genRes wq zz (fun _ => ?_) ?_; clear_value zz; rotate_left; subst zz; rotate_right) | (refine State.Good.genWrite wq zz (fun _ => ?_) ?_; clear_value zz; rotate_left; subst zz; rotate_right) | (refine State.Good.genIngest wq zz (fun _ => ?_) ?_; clear_value zz; rotate_left; subst zz; rotate_right) | (refine State.Good.genOut wq zz (fun _ => ?_) ?_; clear_value zz; rotate_left; subst zz; rotate_right) | (refine State.Good.genBuild wq zz (fun _ => ?_) ?_; clear_value zz; rotate_left; subst zz; rotate_right) | (refine State.Good.genTaken wq zz (fun _ => ?_) ?_; clear_value zz; rotate_left; subst zz; rotate_right) | (refine State.Good.genMode wq zz (fun _ _ => ?_) ?_ ?_; clear_value zz; rotate_left; subst zz; rotate_left; subst zz; rotate_left) | (have := State.Good.isFun zz; clear this; subst zz) | clear_value zz) | with_reducible apply State.Good.ite | with_reducible exact Keeps.none | with_reducible apply Keeps.ite | with_reducible apply Keeps.some | with_reducible apply State.replyOne_inv | with_reducible apply State.rxItem_inv | with_reducible apply State.Good.iteFst | with_reducible apply State.Good.iteSnd | with_reducible apply State.Good.iteLine | with_reducible apply State.Good.iteMeta | (with_reducible intro _ _ _) | (with_reducible intro _ _) | (show Mode.isBase _ = true; first | exact rfl | exact State.Good.base (by assumption) | exact State.Good.before (by assumption) | (with_reducible refine ModeSt.withPending_base ?_) | (with_reducible refine ModeSt.withPending_before ?_) | (with_reducible refine ModeSt.withBack_base ?_) | (with_reducible refine ModeSt.withBack_before ?_)) | split | (with_reducible refine State.Good.mk_of ?_; first | with_reducible refine State.Good.parts ?_ | refine State.Good.fromReset ?_ | refine State.Good.sameBase ?_ rfl rfl | refine GoodOf.filterMem _ (State.Good.parts ?_) | refine GoodOf.filterRegs _ (State.Good.parts ?_) | refine GoodOf.fillMem _ _ _ (State.Good.parts ?_) | refine GoodOf.insertRegs _ (State.Good.parts ?_) | refine State.Good.newBase ?_ ?_ ?_))

theorem State.fieldRequest_inv (s : State) (n : Nat) (pkt : List Carriage) (hI : s.Good wq) : Keeps wq (State.fieldRequest s n pkt) := by
  unfold State.fieldRequest
  repeat' (first | with_reducible assumption | (extract_lets +onlyGivenNames zz; first | (refine State.Good.gen wq zz (fun _ => ?_) ?_; clear_value zz; rotate_left; subst zz; rotate_right) | (refine State.Good.genFst wq zz (fun _ => ?_) ?_; clear_value zz; rotate_left; subst zz; rotate_right) | (refine State.Good.genSnd wq zz (fun _ => ?_) ?_; clear_value zz; rotate_left; subst zz; rotate_right) | (refine State.Good.genLine wq zz (fun _ => ?_) ?_; clear_value zz; rotate_left; subst zz; rotate_right) | (refine State.Good.genMeta wq zz (fun _ => ?_) ?_; clear_value zz; rotate_left; subst zz; rotate_right) | (refine State.Good.genRes wq zz (fun _ => ?_) ?_; clear_value zz; rotate_left; subst zz; rotate_right) | (refine State.Good.genWrite wq zz (fun _ => ?_) ?_; clear_value zz; rotate_left; subst zz; rotate_right) | (refine State.Good.genIngest wq zz (fun _ => ?_) ?_; clear_value zz; rotate_left; subst zz; rotate_right) | (refine State.Good.genOut wq zz (fun _ => ?_) ?_; clear_value zz; rotate_left; subst zz; rotate_right) | (refine State.Good.genBuild wq zz (fun _ => ?_) ?_; clear_value zz; rotate_left; subst zz; rotate_right) | (refine State.Good.genTaken wq zz (fun _ => ?_) ?_; clear_value zz; rotate_left; subst zz; rotate_right) | (refine State.Good.genMode wq zz (fun _ _ => ?_) ?_ ?_; clear_value zz; rotate_left; subst zz; rotate_left; subst zz; rotate_left) | (have := State.Good.isFun zz; clear this; subst zz) | clear_value zz) | with_reducible apply State.Good.ite | with_reducible exact Keeps.none | with_reducible apply Keeps.ite | with_reducible apply Keeps.some | with_reducible apply State.bcastRefused_inv | with_reducible apply State.bmAdmit_inv | with_reducible apply State.decline_inv | with_reducible apply State.fenceAck_inv | with_reducible apply State.replyFail_inv | with_reducible apply State.rxItem_inv | with_reducible apply State.rxportWrite_inv | (refine (State.fenceAck_inv _ _ _ ?_) _ (by with_reducible assumption)) | (refine (State.rxportWrite_inv _ _ _ ?_) _ (by with_reducible assumption)) | with_reducible apply State.Good.iteFst | with_reducible apply State.Good.iteSnd | with_reducible apply State.Good.iteLine | with_reducible apply State.Good.iteMeta | (with_reducible intro _ _ _) | (with_reducible intro _ _) | (show Mode.isBase _ = true; first | exact rfl | exact State.Good.base (by assumption) | exact State.Good.before (by assumption) | (with_reducible refine ModeSt.withPending_base ?_) | (with_reducible refine ModeSt.withPending_before ?_) | (with_reducible refine ModeSt.withBack_base ?_) | (with_reducible refine ModeSt.withBack_before ?_)) | split | (with_reducible refine State.Good.mk_of ?_; first | with_reducible refine State.Good.parts ?_ | refine State.Good.fromReset ?_ | refine State.Good.sameBase ?_ rfl rfl | refine GoodOf.filterMem _ (State.Good.parts ?_) | refine GoodOf.filterRegs _ (State.Good.parts ?_) | refine GoodOf.fillMem _ _ _ (State.Good.parts ?_) | refine GoodOf.insertRegs _ (State.Good.parts ?_) | refine State.Good.newBase ?_ ?_ ?_))

theorem State.dramRequest_inv (s : State) (n : Nat) (pkt : List Carriage) (hI : s.Good wq) : Keeps wq (State.dramRequest s n pkt) := by
  unfold State.dramRequest
  repeat' (first | with_reducible assumption | (extract_lets +onlyGivenNames zz; first | (refine State.Good.gen wq zz (fun _ => ?_) ?_; clear_value zz; rotate_left; subst zz; rotate_right) | (refine State.Good.genFst wq zz (fun _ => ?_) ?_; clear_value zz; rotate_left; subst zz; rotate_right) | (refine State.Good.genSnd wq zz (fun _ => ?_) ?_; clear_value zz; rotate_left; subst zz; rotate_right) | (refine State.Good.genLine wq zz (fun _ => ?_) ?_; clear_value zz; rotate_left; subst zz; rotate_right) | (refine State.Good.genMeta wq zz (fun _ => ?_) ?_; clear_value zz; rotate_left; subst zz; rotate_right) | (refine State.Good.genRes wq zz (fun _ => ?_) ?_; clear_value zz; rotate_left; subst zz; rotate_right) | (refine State.Good.genWrite wq zz (fun _ => ?_) ?_; clear_value zz; rotate_left; subst zz; rotate_right) | (refine State.Good.genIngest wq zz (fun _ => ?_) ?_; clear_value zz; rotate_left; subst zz; rotate_right) | (refine State.Good.genOut wq zz (fun _ => ?_) ?_; clear_value zz; rotate_left; subst zz; rotate_right) | (refine State.Good.genBuild wq zz (fun _ => ?_) ?_; clear_value zz; rotate_left; subst zz; rotate_right) | (refine State.Good.genTaken wq zz (fun _ => ?_) ?_; clear_value zz; rotate_left; subst zz; rotate_right) | (refine State.Good.genMode wq zz (fun _ _ => ?_) ?_ ?_; clear_value zz; rotate_left; subst zz; rotate_left; subst zz; rotate_left) | (have := State.Good.isFun zz; clear this; subst zz) | clear_value zz) | with_reducible apply State.Good.ite | with_reducible exact Keeps.none | with_reducible apply Keeps.ite | with_reducible apply Keeps.some | with_reducible apply State.decline_inv | with_reducible apply State.dramAdmit_inv | (refine (State.dramAdmit_inv _ _ _ ?_) _ (by with_reducible assumption)) | with_reducible apply State.Good.iteFst | with_reducible apply State.Good.iteSnd | with_reducible apply State.Good.iteLine | with_reducible apply State.Good.iteMeta | (with_reducible intro _ _ _) | (with_reducible intro _ _) | (show Mode.isBase _ = true; first | exact rfl | exact State.Good.base (by assumption) | exact State.Good.before (by assumption) | (with_reducible refine ModeSt.withPending_base ?_) | (with_reducible refine ModeSt.withPending_before ?_) | (with_reducible refine ModeSt.withBack_base ?_) | (with_reducible refine ModeSt.withBack_before ?_)) | split | (with_reducible refine State.Good.mk_of ?_; first | with_reducible refine State.Good.parts ?_ | refine State.Good.fromReset ?_ | refine State.Good.sameBase ?_ rfl rfl | refine GoodOf.filterMem _ (State.Good.parts ?_) | refine GoodOf.filterRegs _ (State.Good.parts ?_) | refine GoodOf.fillMem _ _ _ (State.Good.parts ?_) | refine GoodOf.insertRegs _ (State.Good.parts ?_) | refine State.Good.newBase ?_ ?_ ?_))

theorem State.rawRequest_inv (s : State) (n : Nat) (pkt : List Carriage) (hI : s.Good wq) : (State.rawRequest s n pkt).Good wq := by
  unfold State.rawRequest
  repeat' (first | with_reducible assumption | with_reducible apply State.Good.ite | with_reducible apply State.decline_inv | with_reducible apply State.replyOne_inv | with_reducible apply State.rawAccept_at)

theorem State.ttCarriage_inv (s : State) (pkt : List Carriage) (hI : s.Good wq) : InvAt wq Prod.fst (State.ttCarriage s pkt) := by
  unfold State.ttCarriage
  repeat' (first | with_reducible assumption | with_reducible apply InvAt.fst | with_reducible apply State.ttLoad_at)
theorem State.ttCarriage_at (s : State) (pkt : List Carriage) (hI : s.Good wq) : (Prod.fst (State.ttCarriage s pkt)).Good wq := InvAt.inv (State.ttCarriage_inv _ _ hI)

theorem State.ttRequest_inv (s : State) (pkt : List Carriage) (hI : s.Good wq) : (State.ttRequest s pkt).Good wq := by
  unfold State.ttRequest
  repeat' (first | with_reducible assumption | with_reducible apply State.Good.ite | with_reducible apply State.replyFail_inv | with_reducible apply State.replyOne_inv | with_reducible apply State.ttCarriage_at)

theorem State.eventRequest_inv (s : State) (pkt : List Carriage) (hI : s.Good wq) : (State.eventRequest s pkt).Good wq := by
  unfold State.eventRequest
  repeat' (first | with_reducible assumption | with_reducible apply State.Good.ite | with_reducible apply State.bounceBack_inv | with_reducible apply State.forEach_inv | with_reducible apply State.passTake_inv | (with_reducible intro _ _ _))

theorem State.triggerRequest_inv (s : State) (pkt : List Carriage) (hI : s.Good wq) : (State.triggerRequest s pkt).Good wq := by
  unfold State.triggerRequest
  repeat' (first | with_reducible assumption | with_reducible apply State.Good.ite | with_reducible apply State.bounceBack_inv | with_reducible apply State.edgeAt_inv | with_reducible apply State.matrixSend_inv)

theorem State.request93At_inv (s : State) (pkt : List Carriage) (hI : s.Good wq) : Keeps wq (State.request93At s pkt) := by
  unfold State.request93At
  repeat' (first | with_reducible assumption | (extract_lets +onlyGivenNames zz; first | (refine State.Good.gen wq zz (fun _ => ?_) ?_; clear_value zz; rotate_left; subst zz; rotate_right) | (refine State.Good.genFst wq zz (fun _ => ?_) ?_; clear_value zz; rotate_left; subst zz; rotate_right) | (refine State.Good.genSnd wq zz (fun _ => ?_) ?_; clear_value zz; rotate_left; subst zz; rotate_right) | (refine State.Good.genLine wq zz (fun _ => ?_) ?_; clear_value zz; rotate_left; subst zz; rotate_right) | (refine State.Good.genMeta wq zz (fun _ => ?_) ?_; clear_value zz; rotate_left; subst zz; rotate_right) | (refine State.Good.genRes wq zz (fun _ => ?_) ?_; clear_value zz; rotate_left; subst zz; rotate_right) | (refine State.Good.genWrite wq zz (fun _ => ?_) ?_; clear_value zz; rotate_left; subst zz; rotate_right) | (refine State.Good.genIngest wq zz (fun _ => ?_) ?_; clear_value zz; rotate_left; subst zz; rotate_right) | (refine State.Good.genOut wq zz (fun _ => ?_) ?_; clear_value zz; rotate_left; subst zz; rotate_right) | (refine State.Good.genBuild wq zz (fun _ => ?_) ?_; clear_value zz; rotate_left; subst zz; rotate_right) | (refine State.Good.genTaken wq zz (fun _ => ?_) ?_; clear_value zz; rotate_left; subst zz; rotate_right) | (refine State.Good.genMode wq zz (fun _ _ => ?_) ?_ ?_; clear_value zz; rotate_left; subst zz; rotate_left; subst zz; rotate_left) | (have := State.Good.isFun zz; clear this; subst zz) | clear_value zz) | with_reducible apply State.Good.ite | with_reducible exact Keeps.none | with_reducible apply Keeps.ite | with_reducible apply Keeps.some | with_reducible apply State.bcastRefused_inv | with_reducible apply State.eventRequest_inv | with_reducible apply State.fenceAck_inv | with_reducible apply State.replyFail_inv | with_reducible apply State.triggerRequest_inv | with_reducible apply State.ttCarriage_inv | with_reducible apply State.ttRequest_inv | (refine (State.fenceAck_inv _ _ _ ?_) _ (by with_reducible assumption)) | with_reducible apply State.ttCarriage_at | (refine State.Good.fst (State.ttCarriage_at _ _ ?_) (by with_reducible assumption)) | with_reducible apply State.Good.iteFst | with_reducible apply State.Good.iteSnd | with_reducible apply State.Good.iteLine | with_reducible apply State.Good.iteMeta | (with_reducible intro _ _ _) | (with_reducible intro _ _) | (show Mode.isBase _ = true; first | exact rfl | exact State.Good.base (by assumption) | exact State.Good.before (by assumption) | (with_reducible refine ModeSt.withPending_base ?_) | (with_reducible refine ModeSt.withPending_before ?_) | (with_reducible refine ModeSt.withBack_base ?_) | (with_reducible refine ModeSt.withBack_before ?_)) | split | (with_reducible refine State.Good.mk_of ?_; first | with_reducible refine State.Good.parts ?_ | refine State.Good.fromReset ?_ | refine State.Good.sameBase ?_ rfl rfl | refine GoodOf.filterMem _ (State.Good.parts ?_) | refine GoodOf.filterRegs _ (State.Good.parts ?_) | refine GoodOf.fillMem _ _ _ (State.Good.parts ?_) | refine GoodOf.insertRegs _ (State.Good.parts ?_) | refine State.Good.newBase ?_ ?_ ?_))

theorem State.otherRequest_inv (s : State) (n : Nat) (pkt : List Carriage) (hI : s.Good wq) : Keeps wq (State.otherRequest s n pkt) := by
  unfold State.otherRequest
  repeat' (first | with_reducible assumption | (extract_lets +onlyGivenNames zz; first | (refine State.Good.genSnd wq zz (fun _ => ?_) ?_; clear_value zz; rotate_left; subst zz; rotate_right) | clear_value zz) | with_reducible apply Keeps.ite | with_reducible apply Keeps.some | with_reducible apply State.decline_inv | with_reducible apply State.fenceAck_inv | with_reducible apply State.replyFail_inv | with_reducible apply State.freeNat_at)

theorem State.atTarget_inv (s : State) (n : Nat) (pkt : List Carriage) (hI : s.Good wq) : Keeps wq (State.atTarget s n pkt) := by
  unfold State.atTarget
  repeat' (first | with_reducible assumption | with_reducible apply Keeps.ite | with_reducible apply Keeps.some | with_reducible apply State.bcastRefused_inv | with_reducible apply State.dramRequest_inv | with_reducible apply State.fieldRequest_inv | with_reducible apply State.linkForward_inv | with_reducible apply State.otherRequest_inv | with_reducible apply State.rawRequest_inv | with_reducible apply State.request93At_inv)

theorem State.request_inv (s : State) (n : Nat) (k : Carriage → Bool) (g : State → List Carriage → Option State) (hI : s.Good wq) (hg : ∀ x0 x1, x0.Good wq → Keeps wq (g x0 x1)) : (State.request s n k g).Good wq := by
  unfold State.request
  repeat' (first | with_reducible assumption | (extract_lets +onlyGivenNames zz; first | (refine State.Good.gen wq zz (fun _ => ?_) ?_; clear_value zz; rotate_left; subst zz; rotate_right) | clear_value zz) | with_reducible apply State.Good.ite | with_reducible apply State.bcastRefused_inv | with_reducible apply State.bounceBack_inv | with_reducible apply State.decline_inv | with_reducible apply State.dropRequest_inv | (refine hg _ _ ?_ _ (by with_reducible assumption)) | split)

theorem execRdLine_inv (n : NodeNo) (s : State) (hI : s.Good wq) : Goes wq (execRdLine n s) := by
  unfold execRdLine
  repeat' (first | with_reducible assumption | with_reducible apply Goes.next | with_reducible apply State.atTarget_inv | with_reducible apply State.request_inv | (with_reducible intro _ _ _))

theorem execRdWords_inv (n : NodeNo) (s : State) (hI : s.Good wq) : Goes wq (execRdWords n s) := by
  unfold execRdWords
  repeat' (first | with_reducible assumption | with_reducible apply Goes.next | with_reducible apply State.atTarget_inv | with_reducible apply State.request_inv | (with_reducible intro _ _ _))

theorem execWrLine_inv (n : NodeNo) (s : State) (hI : s.Good wq) : Goes wq (execWrLine n s) := by
  unfold execWrLine
  repeat' (first | with_reducible assumption | with_reducible apply Goes.next | with_reducible apply State.atTarget_inv | with_reducible apply State.request_inv | (with_reducible intro _ _ _))

theorem execWrWords_inv (n : NodeNo) (s : State) (hI : s.Good wq) : Goes wq (execWrWords n s) := by
  unfold execWrWords
  repeat' (first | with_reducible assumption | with_reducible apply Goes.next | with_reducible apply State.atTarget_inv | with_reducible apply State.request_inv | (with_reducible intro _ _ _))

theorem execAtomic_inv (n : NodeNo) (s : State) (hI : s.Good wq) : Goes wq (execAtomic n s) := by
  unfold execAtomic
  repeat' (first | with_reducible assumption | with_reducible apply Goes.next | with_reducible apply State.atTarget_inv | with_reducible apply State.request_inv | (with_reducible intro _ _ _))

theorem execCas_inv (n : NodeNo) (s : State) (hI : s.Good wq) : Goes wq (execCas n s) := by
  unfold execCas
  repeat' (first | with_reducible assumption | with_reducible apply Goes.next | with_reducible apply State.atTarget_inv | with_reducible apply State.request_inv | (with_reducible intro _ _ _))

theorem execFenceReq_inv (n : NodeNo) (s : State) (hI : s.Good wq) : Goes wq (execFenceReq n s) := by
  unfold execFenceReq
  repeat' (first | with_reducible assumption | with_reducible apply Goes.next | with_reducible apply State.atTarget_inv | with_reducible apply State.request_inv | (with_reducible intro _ _ _))

theorem execEvent_inv (n : NodeNo) (s : State) (hI : s.Good wq) : Goes wq (execEvent n s) := by
  unfold execEvent
  repeat' (first | with_reducible assumption | with_reducible apply Goes.next | with_reducible apply State.atTarget_inv | with_reducible apply State.request_inv | (with_reducible intro _ _ _))

theorem execTrigger_inv (n : NodeNo) (s : State) (hI : s.Good wq) : Goes wq (execTrigger n s) := by
  unfold execTrigger
  repeat' (first | with_reducible assumption | with_reducible apply Goes.next | with_reducible apply State.atTarget_inv | with_reducible apply State.request_inv | (with_reducible intro _ _ _))

theorem execBcast_inv (n : NodeNo) (s : State) (hI : s.Good wq) : Goes wq (execBcast n s) := by
  unfold execBcast
  repeat' (first | with_reducible assumption | with_reducible apply Goes.next | with_reducible apply State.atTarget_inv | with_reducible apply State.request_inv | (with_reducible intro _ _ _))

end Sys2Proof.Machine
end

