-- ==== Sys2Proof/Laws/KeepLoading.lean ====
section
/-! SUPPORT. Every operation keeps the invariant and the commands that wait: loading, the pins, the scrubber and self-test.
One lemma for each operation that answers a state (`_inv`, and `_at` for the state inside a larger answer); of a command the lemma says that it completes (`Goes`). -/
namespace Sys2Proof.Machine
variable {wq : List Instr}

/-! Machine/Loading.lean -/

theorem State.setLoad_inv (s : State) (l : LoadSt) (hI : s.Good wq) : (State.setLoad s l).Good wq := by
  unfold State.setLoad
  repeat' (first | with_reducible assumption | (with_reducible refine State.Good.mk_of ?_; with_reducible refine State.Good.parts ?_))

theorem State.storeEn_inv (s : State) (on : Bool) (hI : s.Good wq) : (State.storeEn s on).Good wq := by
  unfold State.storeEn
  repeat' (first | with_reducible assumption | with_reducible apply State.Good.ite | with_reducible apply State.checkStore_inv | with_reducible apply State.clear_inv | with_reducible apply State.raise_inv)

theorem execStoreen_inv (on : Bool) (s : State) (hI : s.Good wq) : Goes wq (execStoreen on s) := by
  unfold execStoreen
  repeat' (first | with_reducible assumption | with_reducible apply Goes.next | with_reducible apply State.storeEn_inv)

theorem State.goldBuild_inv (s : State) (hI : s.Good wq) : (State.goldBuild s).Good wq := by
  unfold State.goldBuild
  repeat' (first | with_reducible assumption | with_reducible apply State.Good.ite | with_reducible apply State.raise_inv)

theorem execGoldbuild_inv (s : State) (hI : s.Good wq) : Goes wq (execGoldbuild s) := by
  unfold execGoldbuild
  repeat' (first | with_reducible assumption | with_reducible apply Goes.next | with_reducible apply State.goldBuild_inv)

theorem State.swapSlot_inv (s : State) (f : Nat) (hI : s.Good wq) : (State.swapSlot s f).Good wq := by
  unfold State.swapSlot
  repeat' (first | with_reducible assumption | with_reducible apply State.put_inv | with_reducible apply State.raise_inv)

theorem State.enterLoading_inv (s : State) (hI : s.Good wq) : (State.enterLoading s).Good wq := by
  unfold State.enterLoading
  repeat' (first | with_reducible assumption | with_reducible apply State.Good.ite | with_reducible apply State.enterMode_inv | (show Mode.isBase _ = true; first | exact rfl | exact State.Good.base (by assumption)))

theorem State.takeHeader_inv (s : State) (l : LoadSt) (ws : List Word) (hI : s.Good wq) : InvAt wq Ingest.state (State.takeHeader s l ws) := by
  unfold State.takeHeader
  repeat' (first | with_reducible assumption | with_reducible apply State.Good.ite | with_reducible apply InvAt.ite | with_reducible apply InvAt.ingest | with_reducible apply State.checkStore_inv | with_reducible apply State.enterLoading_inv | with_reducible apply State.put_inv | with_reducible apply State.setReg_inv | split)
theorem State.takeHeader_at (s : State) (l : LoadSt) (ws : List Word) (hI : s.Good wq) : (Ingest.state (State.takeHeader s l ws)).Good wq := InvAt.inv (State.takeHeader_inv _ _ _ hI)

theorem State.takeField_inv (s : State) (l : LoadSt) (n : Nat) (ws : List Word) (checks : List LineCheck) (hI : s.Good wq) : InvAt wq Ingest.state (State.takeField s l n ws checks) := by
  unfold State.takeField
  repeat' (first | with_reducible assumption | with_reducible apply InvAt.ite | with_reducible apply InvAt.ingest | with_reducible apply State.setImage_inv | with_reducible apply State.putSection_at | with_reducible apply State.Good.iteFst | split)
theorem State.takeField_at (s : State) (l : LoadSt) (n : Nat) (ws : List Word) (checks : List LineCheck) (hI : s.Good wq) : (Ingest.state (State.takeField s l n ws checks)).Good wq := InvAt.inv (State.takeField_inv _ _ _ _ _ hI)

theorem State.takeDevice_inv (s : State) (l : LoadSt) (i : ImageInfo) (ws : List Word) (checks : List LineCheck) (hI : s.Good wq) : InvAt wq Ingest.state (State.takeDevice s l i ws checks) := by
  unfold State.takeDevice
  repeat' (first | with_reducible assumption | with_reducible apply InvAt.ite | with_reducible apply InvAt.ingest | with_reducible apply State.putSlot_at | with_reducible apply State.Good.iteFst)
theorem State.takeDevice_at (s : State) (l : LoadSt) (i : ImageInfo) (ws : List Word) (checks : List LineCheck) (hI : s.Good wq) : (Ingest.state (State.takeDevice s l i ws checks)).Good wq := InvAt.inv (State.takeDevice_inv _ _ _ _ _ hI)

theorem State.takePart_inv (s : State) (l : LoadSt) (i : ImageInfo) (n : Nat) (checks : List LineCheck) (hI : s.Good wq) : InvAt wq Ingest.state (State.takePart s l i n checks) := by
  unfold State.takePart
  repeat' (first | with_reducible assumption | with_reducible apply InvAt.ite | with_reducible apply InvAt.ingest | with_reducible apply State.takeDevice_at | with_reducible apply State.takeField_at | split)
theorem State.takePart_at (s : State) (l : LoadSt) (i : ImageInfo) (n : Nat) (checks : List LineCheck) (hI : s.Good wq) : (Ingest.state (State.takePart s l i n checks)).Good wq := InvAt.inv (State.takePart_inv _ _ _ _ _ hI)

theorem State.takeParts_inv (checks : List LineCheck) : ∀ (fuel : Nat) (s : State) (l : LoadSt), s.Good wq →
    (State.takeParts s l checks fuel).state.Good wq
  | 0, _, _, h => h
  | fuel + 1, s, l, h => by
    unfold State.takeParts
    split
    · split
      · exact h
      · extract_lets r
        have hr : r.state.Good wq := State.takeHeader_at _ _ _ h
        clear_value r
        split
        · exact hr
        · exact State.takeParts_inv checks fuel _ _ hr
    · split
      · exact h
      · exact h
      · split
        · exact h
        · extract_lets r
          have hr : r.state.Good wq := State.takePart_at _ _ _ _ _ h
          clear_value r
          split
          · exact hr
          · exact State.takeParts_inv checks fuel _ _ hr

theorem State.ingest_inv (s : State) (l : LoadSt) (ws : List Word) (checks : List LineCheck) (hI : s.Good wq) :
    InvAt wq Ingest.state (State.ingest s l ws checks) := by
  unfold State.ingest
  extract_lets l' s' r0 r
  have h0 : s'.Good wq := State.put_inv _ _ _ (State.setLoad_inv _ _ hI)
  have h1 : r0.state.Good wq := State.takeParts_inv _ _ _ _ h0
  have h2 : r.state.Good wq := State.setLoad_inv _ _ h1
  clear_value r
  exact InvAt.ite h2 (InvAt.ite (InvAt.ingest h2) (InvAt.ite (InvAt.ingest (State.setLoad_inv _ _ h2)) h2))
theorem State.ingest_at (s : State) (l : LoadSt) (ws : List Word) (checks : List LineCheck) (hI : s.Good wq) :
    (State.ingest s l ws checks).state.Good wq := InvAt.inv (State.ingest_inv s l ws checks hI)

theorem State.actCfgload_inv (s : State) (q : Nat) (d : DescSt) (checks : List LineCheck) (hI : s.Good wq) : (State.actCfgload s q d checks).Good wq := by
  unfold State.actCfgload
  repeat' (first | with_reducible assumption | with_reducible apply State.Good.ite | with_reducible apply State.failLoad_inv | with_reducible apply State.finish_inv | with_reducible apply State.ingest_at | split | (with_reducible refine State.Good.mk_of ?_; with_reducible refine State.Good.parts ?_))

theorem execCfgload_inv (q : Fin 32) (slot : Nat) (checks : List LineCheck) (s : State) (hI : s.Good wq) : Goes wq (execCfgload q slot checks s) := by
  unfold execCfgload
  repeat' (first | with_reducible assumption | with_reducible apply Goes.next | with_reducible apply State.actCfgload_inv | with_reducible apply State.gatherDesc_inv | with_reducible apply State.withDesc_inv | (with_reducible intro _ _ _))

theorem State.loadTimeout_inv (s : State) (hI : s.Good wq) : (State.loadTimeout s).Good wq := by
  unfold State.loadTimeout
  repeat' (first | with_reducible assumption | with_reducible apply State.Good.ite | with_reducible apply State.failLoad_inv | split)

theorem execLoadSourceTimeout_inv (s : State) (hI : s.Good wq) : Goes wq (execLoadSourceTimeout s) := by
  unfold execLoadSourceTimeout
  repeat' (first | with_reducible assumption | with_reducible apply Goes.next | with_reducible apply State.loadTimeout_inv)

theorem State.abortLoad_inv (s : State) (hI : s.Good wq) : (State.abortLoad s).Good wq := by
  unfold State.abortLoad
  repeat' (first | with_reducible assumption | with_reducible apply State.failLoad_inv | with_reducible apply State.raise_inv | split)

theorem execAbort_inv (s : State) (hI : s.Good wq) : Goes wq (execAbort s) := by
  unfold execAbort
  repeat' (first | with_reducible assumption | with_reducible apply Goes.next | with_reducible apply State.abortLoad_inv)

theorem State.reshapeNis_inv (s : State) (f : Nat) (b : Bool) (hI : s.Good wq) : (State.reshapeNis s f b).Good wq := by
  unfold State.reshapeNis
  repeat' (first | with_reducible assumption | with_reducible apply State.forEach_inv | with_reducible apply State.niCauses_inv | (with_reducible intro _ _ _))

theorem State.placeField_inv (s : State) (f : Nat) (x : FieldImage) (enc : Bool) (hI : s.Good wq) : (State.placeField s f x enc).Good wq := by
  unfold State.placeField
  repeat' (first | with_reducible assumption | with_reducible apply State.endFenced_inv | with_reducible apply State.initFabric_inv | with_reducible apply State.loadMemories_inv | with_reducible apply State.put_inv | with_reducible apply State.raise_inv | with_reducible apply State.setFld_inv | with_reducible apply State.setImage_inv | with_reducible apply State.setReg_inv | with_reducible apply State.stuckNis_inv | with_reducible apply State.unconfigure_inv | with_reducible apply State.Good.foldl | (with_reducible intro _ _ _) | (with_reducible refine State.Good.mk_of ?_; with_reducible refine State.Good.parts ?_))

theorem State.placeDevice_inv (s : State) (ws : List Word) (mine : Nat → Bool) (hI : s.Good wq) : (State.placeDevice s ws mine).Good wq := by
  unfold State.placeDevice
  repeat' (first | with_reducible assumption | with_reducible apply State.Good.ite | with_reducible apply State.Good.foldl | (with_reducible intro _ _ _) | (with_reducible refine State.Good.mk_of ?_; with_reducible refine State.Good.parts ?_))

theorem State.placePatch_inv (s : State) (p : Option (Nat × Nat)) (hI : s.Good wq) : (State.placePatch s p).Good wq := by
  unfold State.placePatch
  repeat' (first | with_reducible assumption | with_reducible apply State.postLog_inv | with_reducible apply State.put_inv | split)

theorem State.noteLoadOk_inv (s : State) (hI : s.Good wq) : (State.noteLoadOk s).Good wq := by
  unfold State.noteLoadOk
  repeat' (first | with_reducible assumption | with_reducible apply State.noteLoadFail_inv)

theorem State.fullWritten_inv (s : State) (l : LoadSt) (i : ImageInfo) (hI : s.Good wq) : (State.fullWritten s l i).Good wq := by
  unfold State.fullWritten
  repeat' (first | with_reducible assumption | (extract_lets +onlyGivenNames zz; first | (refine State.Good.gen wq zz (fun _ => ?_) ?_; clear_value zz; rotate_left; subst zz; rotate_right) | (refine State.Good.genMode wq zz (fun _ _ => ?_) ?_ ?_; clear_value zz; rotate_left; subst zz; rotate_left; subst zz; rotate_left) | clear_value zz) | with_reducible apply State.Good.ite | with_reducible apply State.enterLocking_inv | with_reducible apply State.enterMode_inv | with_reducible apply State.forEach_inv | with_reducible apply State.loadReply_inv | with_reducible apply State.noteLoadOk_inv | with_reducible apply State.placeDevice_inv | with_reducible apply State.placeField_inv | with_reducible apply State.put_inv | with_reducible apply State.reshapeNis_inv | with_reducible apply State.setFld_inv | with_reducible apply State.setReg_inv | with_reducible apply State.swapSlot_inv | with_reducible apply State.syncConfig_inv | with_reducible apply State.unconfigure_inv | (with_reducible intro _ _ _) | (show Mode.isBase _ = true; first | exact rfl | exact State.Good.base (by assumption) | exact State.Good.before (by assumption)) | split | (with_reducible refine State.Good.mk_of ?_; with_reducible refine State.Good.parts ?_))

theorem State.noteOwner_inv (s : State) (digest : List (BitVec 32)) (hI : s.Good wq) : (State.noteOwner s digest).Good wq := by
  unfold State.noteOwner
  repeat' (first | with_reducible assumption | with_reducible apply State.put_inv)

theorem State.acceptPartial_inv (s : State) (l : LoadSt) (i : ImageInfo) (hI : s.Good wq) : (State.acceptPartial s l i).Good wq := by
  unfold State.acceptPartial
  repeat' (first | with_reducible assumption | (extract_lets +onlyGivenNames zz; first | (refine State.Good.gen wq zz (fun _ => ?_) ?_; clear_value zz; rotate_left; subst zz; rotate_right) | (refine State.Good.genMode wq zz (fun _ _ => ?_) ?_ ?_; clear_value zz; rotate_left; subst zz; rotate_left; subst zz; rotate_left) | clear_value zz) | with_reducible apply State.enterMode_inv | with_reducible apply State.loadReply_inv | with_reducible apply State.noteLoadOk_inv | with_reducible apply State.put_inv | with_reducible apply State.setLoad_inv | with_reducible apply State.syncConfig_inv | (show Mode.isBase _ = true; first | exact State.Good.base (by assumption) | exact State.Good.before (by assumption)))

theorem State.acceptLoad_inv (s : State) (l : LoadSt) (i : ImageInfo) (hI : s.Good wq) : (State.acceptLoad s l i).Good wq := by
  unfold State.acceptLoad
  repeat' (first | with_reducible assumption | with_reducible apply State.Good.ite | with_reducible apply State.acceptPartial_inv | with_reducible apply State.fullWritten_inv | with_reducible apply State.placePatch_inv | with_reducible apply State.setLoad_inv)

theorem State.verifyWith_inv (s : State) (l : LoadSt) (i : ImageInfo) (fail : State → LoadFail → State) (hI : s.Good wq) (hfail : ∀ x0 x1, x0.Good wq → (fail x0 x1).Good wq) : (State.verifyWith s l i fail).Good wq := by
  unfold State.verifyWith
  repeat' (first | with_reducible assumption | with_reducible apply State.acceptLoad_inv | with_reducible apply State.noteOwner_inv | with_reducible apply hfail | split | (with_reducible refine State.Good.mk_of ?_; with_reducible refine State.Good.parts ?_))

theorem State.verifyLoad_inv (s : State) (hI : s.Good wq) : (State.verifyLoad s).Good wq := by
  unfold State.verifyLoad
  repeat' (first | with_reducible assumption | with_reducible apply State.failLoad_inv | with_reducible apply State.verifyWith_inv | split)

theorem execVerify_inv (s : State) (hI : s.Good wq) : Goes wq (execVerify s) := by
  unfold execVerify
  repeat' (first | with_reducible assumption | with_reducible apply Goes.next | with_reducible apply State.verifyLoad_inv)

theorem State.flashFail_inv (s : State) (f : LoadFail) (hI : s.Good wq) : (State.flashFail s f).Good wq := by
  unfold State.flashFail
  repeat' (first | with_reducible assumption | with_reducible apply State.Good.ite | with_reducible apply State.clearConfig_inv | with_reducible apply State.failLoad_inv | with_reducible apply State.noteLoadFail_inv | with_reducible apply State.raise_inv | with_reducible apply State.setLoad_inv)

theorem State.flashLoad_inv (s : State) (words : Option (List Word)) (hI : s.Good wq) : (State.flashLoad s words).Good wq := by
  unfold State.flashLoad
  repeat' (first | with_reducible assumption | (extract_lets +onlyGivenNames zz; first | (refine State.Good.genIngest wq zz (fun _ => ?_) ?_; clear_value zz; rotate_left; subst zz; rotate_right) | clear_value zz) | with_reducible apply State.Good.ite | with_reducible apply State.flashFail_inv | with_reducible apply State.verifyWith_inv | with_reducible apply State.ingest_at | split)

theorem execFlashLoad_inv (words : Option (List Word)) (s : State) (hI : s.Good wq) : Goes wq (execFlashLoad words s) := by
  unfold execFlashLoad
  repeat' (first | with_reducible assumption | with_reducible apply Goes.next | with_reducible apply State.flashLoad_inv)

theorem State.writeFail_inv (s : State) (l : LoadSt) (i : ImageInfo) (hI : s.Good wq) : (State.writeFail s l i).Good wq := by
  unfold State.writeFail
  repeat' (first | with_reducible assumption | (extract_lets +onlyGivenNames zz; first | (refine State.Good.gen wq zz (fun _ => ?_) ?_; clear_value zz; rotate_left; subst zz; rotate_right) | clear_value zz) | with_reducible apply State.Good.ite | with_reducible apply State.enterFreeze_inv | with_reducible apply State.loadReply_inv | with_reducible apply State.noteLoadFail_inv | with_reducible apply State.syncConfig_inv | (with_reducible refine State.Good.mk_of ?_; with_reducible refine State.Good.parts ?_))

theorem State.partialWritten_inv (s : State) (l : LoadSt) (i : ImageInfo) (hI : s.Good wq) : (State.partialWritten s l i).Good wq := by
  unfold State.partialWritten
  repeat' (first | with_reducible assumption | with_reducible apply State.forEach_inv | with_reducible apply State.placeField_inv | with_reducible apply State.setLoad_inv | with_reducible apply State.swapSlot_inv | with_reducible apply State.syncConfig_inv | (with_reducible intro _ _ _) | split)

theorem State.readSlots_inv (s : State) (l : LoadSt) (checks : List LineCheck) (hI : s.Good wq) : InvAt wq Prod.fst (State.readSlots s l checks) := by
  unfold State.readSlots
  repeat' (first | with_reducible assumption | with_reducible apply InvAt.fst | with_reducible apply State.Good.foldFst | with_reducible apply State.getSection_at | (with_reducible intro _ _ _))
theorem State.readSlots_at (s : State) (l : LoadSt) (checks : List LineCheck) (hI : s.Good wq) : (Prod.fst (State.readSlots s l checks)).Good wq := InvAt.inv (State.readSlots_inv _ _ _ hI)

theorem State.copySlots_inv (s : State) (l : LoadSt) (i : ImageInfo) (checks : List LineCheck) (hI : s.Good wq) : (State.copySlots s l i checks).Good wq := by
  unfold State.copySlots
  repeat' (first | with_reducible assumption | with_reducible apply State.fullWritten_inv | with_reducible apply State.partialWritten_inv | with_reducible apply State.writeFail_inv | with_reducible apply State.getSlot_at | with_reducible apply State.readSlots_at | split | (with_reducible refine State.Good.mk_of ?_; with_reducible refine State.Good.parts ?_))

theorem State.writePhase_inv (s : State) (checks : List LineCheck) (hI : s.Good wq) : (State.writePhase s checks).Good wq := by
  unfold State.writePhase
  repeat' (first | with_reducible assumption | with_reducible apply State.Good.ite | with_reducible apply State.copySlots_inv | split)

theorem execWritePhase_inv (checks : List LineCheck) (s : State) (hI : s.Good wq) : Goes wq (execWritePhase checks s) := by
  unfold execWritePhase
  repeat' (first | with_reducible assumption | with_reducible apply Goes.next | with_reducible apply State.writePhase_inv)

theorem State.reshapeStop_inv (s : State) (f : Nat) (hI : s.Good wq) : (State.reshapeStop s f).Good wq := by
  unfold State.reshapeStop
  repeat' (first | with_reducible assumption | with_reducible apply State.discardHeld_inv | with_reducible apply State.fenceBegin_inv | with_reducible apply State.initFabric_inv | with_reducible apply State.post_inv | with_reducible apply State.reshapeNis_inv | with_reducible apply State.setFld_inv | split | (with_reducible refine State.Good.mk_of ?_; with_reducible refine State.Good.parts ?_))

theorem State.reshapeStops_inv (s : State) (hI : s.Good wq) : (State.reshapeStops s).Good wq := by
  unfold State.reshapeStops
  repeat' (first | with_reducible assumption | with_reducible apply State.Good.ite | with_reducible apply State.forEach_inv | with_reducible apply State.reshapeStop_inv | with_reducible apply State.setLoad_inv | split)

theorem State.reshapeDrained_inv (s : State) (f : Nat) (hI : s.Good wq) : (State.reshapeDrained s f).Good wq := by
  unfold State.reshapeDrained
  repeat' (first | with_reducible assumption | with_reducible apply State.Good.ite | with_reducible apply State.setFld_inv | with_reducible apply State.setLoad_inv | split)

theorem State.reshapeCommit_inv (s : State) (f n : Nat) (hI : s.Good wq) : (State.reshapeCommit s f n).Good wq := by
  unfold State.reshapeCommit
  repeat' (first | with_reducible assumption | with_reducible apply State.initFabric_inv | with_reducible apply State.logEntry_inv | with_reducible apply State.post_inv | with_reducible apply State.put_inv | with_reducible apply State.reshapeNis_inv | with_reducible apply State.setFld_inv)

theorem State.reshapeCommits_inv (s : State) (hI : s.Good wq) : (State.reshapeCommits s).Good wq := by
  unfold State.reshapeCommits
  repeat' (first | with_reducible assumption | (extract_lets +onlyGivenNames zz; first | (refine State.Good.gen wq zz (fun _ => ?_) ?_; clear_value zz; rotate_left; subst zz; rotate_right) | (refine State.Good.genMode wq zz (fun _ _ => ?_) ?_ ?_; clear_value zz; rotate_left; subst zz; rotate_left; subst zz; rotate_left) | (have := State.Good.isFun zz; clear this; subst zz) | clear_value zz) | with_reducible apply State.Good.ite | with_reducible apply State.clear_inv | with_reducible apply State.enterMode_inv | with_reducible apply State.forEach_inv | with_reducible apply State.placeDevice_inv | with_reducible apply State.reshapeCommit_inv | with_reducible apply State.setLoad_inv | with_reducible apply State.syncConfig_inv | (with_reducible intro _ _ _) | (show Mode.isBase _ = true; first | exact State.Good.base (by assumption) | exact State.Good.before (by assumption)) | split | (with_reducible refine State.Good.mk_of ?_; with_reducible refine State.Good.parts ?_))

/-! Machine/Pins.lean -/

theorem State.tapDo_inv (s : State) (g : TapSt → TapSt) (hI : s.Good wq) : (State.tapDo s g).Good wq := by
  unfold State.tapDo
  repeat' (first | with_reducible assumption | with_reducible apply State.Good.ite | (with_reducible refine State.Good.mk_of ?_; with_reducible refine State.Good.parts ?_))

theorem execBypass_inv (bits : List Bool) (s : State) (hI : s.Good wq) : Goes wq (execBypass bits s) := by
  unfold execBypass
  repeat' (first | with_reducible assumption | with_reducible apply Goes.next | with_reducible apply State.tapDo_inv)

theorem execSamplePreload_inv (pins bits : List Bool) (s : State) (hI : s.Good wq) : Goes wq (execSamplePreload pins bits s) := by
  unfold execSamplePreload
  repeat' (first | with_reducible assumption | with_reducible apply Goes.next | with_reducible apply State.tapDo_inv)

theorem execExtest_inv (pins bits : List Bool) (s : State) (hI : s.Good wq) : Goes wq (execExtest pins bits s) := by
  unfold execExtest
  repeat' (first | with_reducible assumption | with_reducible apply Goes.next | with_reducible apply State.tapDo_inv)

theorem execClamp_inv (bits : List Bool) (s : State) (hI : s.Good wq) : Goes wq (execClamp bits s) := by
  unfold execClamp
  repeat' (first | with_reducible assumption | with_reducible apply Goes.next | with_reducible apply State.tapDo_inv)

theorem execHighz_inv (bits : List Bool) (s : State) (hI : s.Good wq) : Goes wq (execHighz bits s) := by
  unfold execHighz
  repeat' (first | with_reducible assumption | with_reducible apply Goes.next | with_reducible apply State.tapDo_inv)

theorem execIdcode_inv (s : State) (hI : s.Good wq) : Goes wq (execIdcode s) := by
  unfold execIdcode
  repeat' (first | with_reducible assumption | with_reducible apply Goes.next | with_reducible apply State.tapDo_inv)

theorem execTapReset_inv (s : State) (hI : s.Good wq) : Goes wq (execTapReset s) := by
  unfold execTapReset
  repeat' (first | with_reducible assumption | with_reducible apply Goes.next | with_reducible apply State.tapDo_inv | (with_reducible refine State.Good.mk_of ?_; with_reducible refine State.Good.parts ?_))

theorem State.vccioFault_inv (s : State) (b : Nat) (hI : s.Good wq) : (State.vccioFault s b).Good wq := by
  unfold State.vccioFault
  repeat' (first | with_reducible assumption | with_reducible apply State.Good.ite | with_reducible apply State.postLog_inv | (with_reducible refine State.Good.mk_of ?_; with_reducible refine State.Good.parts ?_))

theorem execVccioFault_inv (b : Fin 8) (s : State) (hI : s.Good wq) : Goes wq (execVccioFault b s) := by
  unfold execVccioFault
  repeat' (first | with_reducible assumption | with_reducible apply Goes.next | with_reducible apply State.vccioFault_inv)

theorem State.vccioReturn_inv (s : State) (b : Nat) (hI : s.Good wq) : (State.vccioReturn s b).Good wq := by
  unfold State.vccioReturn
  repeat' (first | with_reducible assumption | with_reducible apply State.Good.ite | (with_reducible refine State.Good.mk_of ?_; with_reducible refine State.Good.parts ?_))

theorem execVccioReturn_inv (b : Fin 8) (s : State) (hI : s.Good wq) : Goes wq (execVccioReturn b s) := by
  unfold execVccioReturn
  repeat' (first | with_reducible assumption | with_reducible apply Goes.next | with_reducible apply State.vccioReturn_inv)

theorem State.banksBack_inv (s : State) (hI : s.Good wq) : (State.banksBack s).Good wq := by
  unfold State.banksBack
  repeat' (first | with_reducible assumption | (with_reducible refine State.Good.mk_of ?_; with_reducible refine State.Good.parts ?_))

/-! Machine/Scrub.lean -/

theorem State.goldenFrame_inv (s : State) (code n : Nat) (checks : List LineCheck) (hI : s.Good wq) : InvAt wq Prod.fst (State.goldenFrame s code n checks) := by
  unfold State.goldenFrame
  repeat' (first | with_reducible assumption | with_reducible apply InvAt.fst | with_reducible apply State.getSlot_at)
theorem State.goldenFrame_at (s : State) (code n : Nat) (checks : List LineCheck) (hI : s.Good wq) : (Prod.fst (State.goldenFrame s code n checks)).Good wq := InvAt.inv (State.goldenFrame_inv _ _ _ _ hI)

theorem State.noteLast_inv (s : State) (kind : Nat) (esc : Bool) (code frame : Nat) (ilv : BitVec 6) (hI : s.Good wq) : (State.noteLast s kind esc code frame ilv).Good wq := by
  unfold State.noteLast
  repeat' (first | with_reducible assumption | with_reducible apply State.put_inv)

theorem State.noteUpset_inv (s : State) (code : Nat) (always : Bool) (hI : s.Good wq) : (State.noteUpset s code always).Good wq := by
  unfold State.noteUpset
  repeat' (first | with_reducible assumption | with_reducible apply State.logEntry_inv | with_reducible apply State.post_inv | with_reducible apply State.see_inv | split | (with_reducible refine State.Good.mk_of ?_; with_reducible refine State.Good.parts ?_))

theorem State.uncorrectable_inv (s : State) (code : Nat) (hI : s.Good wq) : (State.uncorrectable s code).Good wq := by
  unfold State.uncorrectable
  repeat' (first | with_reducible assumption | with_reducible apply State.Good.ite | with_reducible apply State.becomeStuck_inv | with_reducible apply State.bump_inv | with_reducible apply State.enterFreeze_inv | with_reducible apply State.put_inv | with_reducible apply State.setLoad_inv | split)

theorem State.queueRepair_inv (s : State) (r : RepairReq) (hI : s.Good wq) : (State.queueRepair s r).Good wq := by
  unfold State.queueRepair
  repeat' (first | with_reducible assumption | (with_reducible refine State.Good.mk_of ?_; with_reducible refine State.Good.parts ?_))

theorem State.postRelease_inv (s : State) (f cyc : Nat) (hI : s.Good wq) : (State.postRelease s f cyc).Good wq := by
  unfold State.postRelease
  repeat' (first | with_reducible assumption | with_reducible apply State.Good.ite | with_reducible apply State.post_inv | with_reducible apply State.raise_inv)

theorem State.upset_inv (s : State) (code frame : Nat) (ilv : BitVec 6) (esc unc : Bool) (cyc : Nat) (hI : s.Good wq) : (State.upset s code frame ilv esc unc cyc).Good wq := by
  unfold State.upset
  repeat' (first | with_reducible assumption | (extract_lets +onlyGivenNames zz; first | (refine State.Good.gen wq zz (fun _ => ?_) ?_; clear_value zz; rotate_left; subst zz; rotate_right) | clear_value zz) | with_reducible apply State.Good.ite | with_reducible apply State.bump_inv | with_reducible apply State.detect_inv | with_reducible apply State.noteLast_inv | with_reducible apply State.noteUpset_inv | with_reducible apply State.postRelease_inv | with_reducible apply State.queueRepair_inv | with_reducible apply State.raise_inv | with_reducible apply State.uncorrectable_inv)

theorem State.sense_inv (s : State) (code frame : Nat) (errs : FrameErrors) (ns cyc : Nat) (hI : s.Good wq) :
    (State.sense s code frame errs ns cyc).Good wq := by
  unfold State.sense
  refine State.Good.ite hI ?_
  extract_lets r
  have hr : r.2.2.Good wq := State.frameCheck_inv _ _ (State.peak_inv _ _ _ hI)
  clear_value r
  split
  · exact hr
  · exact State.upset_inv _ _ _ _ _ _ _ hr
  · exact State.upset_inv _ _ _ _ _ _ _ hr

theorem execSense_inv (code : Fin 32) (frame : Fin 3584) (errs : FrameErrors) (ns cyc : Nat) (s : State) (hI : s.Good wq) : Goes wq (execSense code frame errs ns cyc s) := by
  unfold execSense
  repeat' (first | with_reducible assumption | with_reducible apply Goes.next | with_reducible apply State.sense_inv)

theorem State.reenable_inv (s : State) (f track : Nat) (hI : s.Good wq) : (State.reenable s f track).Good wq := by
  unfold State.reenable
  repeat' (first | with_reducible assumption | with_reducible apply State.Good.ite | with_reducible apply State.setSeg_inv)

theorem State.goldenRepair_inv (s : State) (code n : Nat) (checks : List LineCheck) (hI : s.Good wq) : InvAt wq Prod.fst (State.goldenRepair s code n checks) := by
  unfold State.goldenRepair
  repeat' (first | with_reducible assumption | with_reducible apply InvAt.fst | with_reducible apply State.setFrame_inv | with_reducible apply State.goldenFrame_at | split)
theorem State.goldenRepair_at (s : State) (code n : Nat) (checks : List LineCheck) (hI : s.Good wq) : (Prod.fst (State.goldenRepair s code n checks)).Good wq := InvAt.inv (State.goldenRepair_inv _ _ _ _ hI)

theorem State.repair_inv (s : State) (checks : List LineCheck) (segs : List (FieldNo × Fin 128)) (hI : s.Good wq) : (State.repair s checks segs).Good wq := by
  unfold State.repair
  repeat' (first | with_reducible assumption | (extract_lets +onlyGivenNames zz; first | (refine State.Good.gen wq zz (fun _ => ?_) ?_; clear_value zz; rotate_left; subst zz; rotate_right) | (refine State.Good.genFst wq zz (fun _ => ?_) ?_; clear_value zz; rotate_left; subst zz; rotate_right) | (have := State.Good.isFun zz; clear this; subst zz) | clear_value zz) | with_reducible apply State.Good.ite | with_reducible apply State.bump_inv | with_reducible apply State.logEntry_inv | with_reducible apply State.noteLast_inv | with_reducible apply State.reenable_inv | with_reducible apply State.uncorrectable_inv | with_reducible apply State.Good.foldl | with_reducible apply State.goldenRepair_at | with_reducible apply State.Good.iteFst | (with_reducible intro _ _ _) | split | (with_reducible refine State.Good.mk_of ?_; with_reducible refine State.Good.parts ?_))

theorem execRepair_inv (checks : List LineCheck) (segs : List (FieldNo × Fin 128)) (s : State) (hI : s.Good wq) : Goes wq (execRepair checks segs s) := by
  unfold execRepair
  repeat' (first | with_reducible assumption | with_reducible apply Goes.next | with_reducible apply State.repair_inv)

theorem State.goldenScan_inv (s : State) (errs : FrameErrors) (checks : List LineCheck) (cyc : Nat) (hI : s.Good wq) :
    (State.goldenScan s errs checks cyc).Good wq := by
  unfold State.goldenScan
  refine State.Good.ite hI ?_
  split
  · exact hI
  · extract_lets c s1 g r
    have h1 : s1.Good wq := State.Good.of_parts (State.Good.parts (s := s) hI)
    have hg : g.1.Good wq := State.goldenFrame_at _ _ _ _ h1
    have hr : r.2.2.Good wq := State.frameCheck_inv _ _ hg
    clear_value r g s1
    refine State.Good.ite h1 ?_
    split
    · exact State.Good.ite (State.upset_inv _ _ _ _ _ _ _ hr) hr
    · exact hr

theorem execGoldenScan_inv (errs : FrameErrors) (checks : List LineCheck) (cyc : Nat) (s : State) (hI : s.Good wq) : Goes wq (execGoldenScan errs checks cyc s) := by
  unfold execGoldenScan
  repeat' (first | with_reducible assumption | with_reducible apply Goes.next | with_reducible apply State.goldenScan_inv)

theorem BuildSt.frame_inv (b : BuildSt) (code n : Nat) (errs : List (Fin 32 × Fin 3584 × FrameErrors))
    (checks : List LineCheck) (hI : b.state.Good wq) : (BuildSt.frame b code n errs checks).state.Good wq := by
  unfold BuildSt.frame
  extract_lets r
  have hr : r.2.2.Good wq := by
    show (Prod.snd (Prod.snd r)).Good wq
    unfold r
    split
    · exact State.frameCheck_inv _ _ hI
    · exact hI
  clear_value r
  split
  · exact hr
  · exact State.putSlot_at _ _ _ _ _ _ hr
theorem BuildSt.frame_at (b : BuildSt) (code n : Nat) (errs : List (Fin 32 × Fin 3584 × FrameErrors)) (checks : List LineCheck) (hI : b.state.Good wq) : (BuildSt.state (BuildSt.frame b code n errs checks)).Good wq := InvAt.inv (BuildSt.frame_inv _ _ _ _ _ hI)

theorem State.buildAll_inv (s : State) (errs : List (Fin 32 × Fin 3584 × FrameErrors)) (checks : List LineCheck)
    (hI : s.Good wq) : InvAt wq BuildSt.state (State.buildAll s errs checks) :=
  InvAt.foldl (π := BuildSt.state) (fun _ _ hb => InvAt.foldl (π := BuildSt.state)
    (fun b n hb => BuildSt.frame_inv b _ n _ _ hb) _ _ hb) _ _ hI
theorem State.buildAll_at (s : State) (errs : List (Fin 32 × Fin 3584 × FrameErrors)) (checks : List LineCheck)
    (hI : s.Good wq) : (State.buildAll s errs checks).state.Good wq := InvAt.inv (State.buildAll_inv s errs checks hI)

theorem State.goldBuilt_inv (s : State) (errs : List (Fin 32 × Fin 3584 × FrameErrors)) (checks : List LineCheck) (hI : s.Good wq) : (State.goldBuilt s errs checks).Good wq := by
  unfold State.goldBuilt
  repeat' (first | with_reducible assumption | (extract_lets +onlyGivenNames zz; first | (refine State.Good.gen wq zz (fun _ => ?_) ?_; clear_value zz; rotate_left; subst zz; rotate_right) | (refine State.Good.genBuild wq zz (fun _ => ?_) ?_; clear_value zz; rotate_left; subst zz; rotate_right) | clear_value zz) | with_reducible apply State.Good.ite | with_reducible apply State.clear_inv | with_reducible apply State.forEach_inv | with_reducible apply State.noteLast_inv | with_reducible apply State.noteUpset_inv | with_reducible apply State.raise_inv | with_reducible apply State.uncorrectable_inv | with_reducible apply State.Good.foldl | with_reducible apply State.buildAll_at | (with_reducible intro _ _ _))

theorem execGoldbuildDone_inv (errs : List (Fin 32 × Fin 3584 × FrameErrors)) (checks : List LineCheck) (s : State) (hI : s.Good wq) : Goes wq (execGoldbuildDone errs checks s) := by
  unfold execGoldbuildDone
  repeat' (first | with_reducible assumption | with_reducible apply Goes.next | with_reducible apply State.goldBuilt_inv)

/-! Machine/SelfTest.lean -/

theorem State.setBist_inv (s : State) (b : BistSt) (hI : s.Good wq) : (State.setBist s b).Good wq := by
  unfold State.setBist
  repeat' (first | with_reducible assumption | (with_reducible refine State.Good.mk_of ?_; with_reducible refine State.Good.parts ?_))

theorem State.bistPhase_inv (s : State) (busy : Bool) (phase cur : Nat) (hI : s.Good wq) : (State.bistPhase s busy phase cur).Good wq := by
  unfold State.bistPhase
  repeat' (first | with_reducible assumption | with_reducible apply State.put_inv)

theorem State.bistFail_inv (s : State) (arg : Nat) (hI : s.Good wq) : (State.bistFail s arg).Good wq := by
  unfold State.bistFail
  repeat' (first | with_reducible assumption | with_reducible apply State.postLog_inv | with_reducible apply State.setBist_inv)

theorem State.leaveSelfTest_inv (s : State) (hI : s.Good wq) : (State.leaveSelfTest s).Good wq := by
  unfold State.leaveSelfTest
  repeat' (first | with_reducible assumption | (extract_lets +onlyGivenNames zz; first | (refine State.Good.gen wq zz (fun _ => ?_) ?_; clear_value zz; rotate_left; subst zz; rotate_right) | (refine State.Good.genMode wq zz (fun _ _ => ?_) ?_ ?_; clear_value zz; rotate_left; subst zz; rotate_left; subst zz; rotate_left) | clear_value zz) | with_reducible apply State.bistPhase_inv | with_reducible apply State.enterMode_inv | with_reducible apply State.setBist_inv | with_reducible apply State.wdLoad_inv | (show Mode.isBase _ = true; first | exact State.Good.base (by assumption) | exact State.Good.before (by assumption)))

theorem State.scanEntry_inv (s : State) (hI : s.Good wq) : (State.scanEntry s).Good wq := by
  unfold State.scanEntry
  repeat' (first | with_reducible assumption | (extract_lets +onlyGivenNames zz; first | (refine State.Good.gen wq zz (fun _ => ?_) ?_; clear_value zz; rotate_left; subst zz; rotate_right) | clear_value zz) | with_reducible apply State.Good.ite | with_reducible apply State.bistPhase_inv | with_reducible apply State.clear_inv | with_reducible apply State.flushCache_inv | with_reducible apply State.forEach_inv | with_reducible apply State.post_inv | with_reducible apply State.raise_inv | with_reducible apply State.setBist_inv | with_reducible apply State.setKeyState_inv | (with_reducible intro _ _ _) | (with_reducible refine State.Good.mk_of ?_; with_reducible refine State.Good.parts ?_))

theorem State.endTests_inv (s : State) (hI : s.Good wq) : (State.endTests s).Good wq := by
  unfold State.endTests
  repeat' (first | with_reducible assumption | (extract_lets +onlyGivenNames zz; first | (refine State.Good.gen wq zz (fun _ => ?_) ?_; clear_value zz; rotate_left; subst zz; rotate_right) | clear_value zz) | with_reducible apply State.Good.ite | with_reducible apply State.bistPhase_inv | with_reducible apply State.leaveSelfTest_inv | with_reducible apply State.post_inv | with_reducible apply State.scanEntry_inv | with_reducible apply State.setBist_inv)

theorem State.nextTest_inv (s : State) (hI : s.Good wq) : (State.nextTest s).Good wq := by
  unfold State.nextTest
  repeat' (first | with_reducible assumption | with_reducible apply State.bistPhase_inv | with_reducible apply State.endTests_inv | split)

theorem State.analogChecks_inv (s : State) (run fail : BitVec 13) (hI : s.Good wq) : (State.analogChecks s run fail).Good wq := by
  unfold State.analogChecks
  repeat' (first | with_reducible assumption | with_reducible apply State.bistFail_inv | with_reducible apply State.forEach_inv | with_reducible apply State.put_inv | (with_reducible intro _ _ _))

theorem State.reqSelfTest_inv (s : State) (run fail : BitVec 13) (hI : s.Good wq) : (State.reqSelfTest s run fail).Good wq := by
  unfold State.reqSelfTest
  repeat' (first | with_reducible assumption | (extract_lets +onlyGivenNames zz; first | (refine State.Good.gen wq zz (fun _ => ?_) ?_; clear_value zz; rotate_left; subst zz; rotate_right) | (refine State.Good.genMode wq zz (fun _ _ => ?_) ?_ ?_; clear_value zz; rotate_left; subst zz; rotate_left; subst zz; rotate_left) | clear_value zz) | with_reducible apply State.Good.ite | with_reducible apply State.analogChecks_inv | with_reducible apply State.enterMode_inv | with_reducible apply State.forEach_inv | with_reducible apply State.nextTest_inv | with_reducible apply State.rejectRequest_inv | with_reducible apply State.setBist_inv | with_reducible apply State.setReg_inv | (with_reducible intro _ _ _) | (show Mode.isBase _ = true; first | exact State.Good.base (by assumption) | exact State.Good.before (by assumption)))

theorem execReqSelfTest_inv (run fail : BitVec 13) (s : State) (hI : s.Good wq) : Goes wq (execReqSelfTest run fail s) := by
  unfold execReqSelfTest
  repeat' (first | with_reducible assumption | with_reducible apply Goes.next | with_reducible apply State.reqSelfTest_inv)

theorem State.srepWrite_inv (s : State) (k : Nat) (r : BitVec 32) (hI : s.Good wq) : (State.srepWrite s k r).Good wq := by
  unfold State.srepWrite
  repeat' (first | with_reducible assumption | with_reducible apply State.Good.ite | with_reducible apply State.clear_inv | with_reducible apply State.raise_inv | with_reducible apply State.setReg_inv)

theorem execSrepWrite_inv (k : Fin 64) (r : BitVec 32) (s : State) (hI : s.Good wq) : Goes wq (execSrepWrite k r s) := by
  unfold execSrepWrite
  repeat' (first | with_reducible assumption | with_reducible apply Goes.next | with_reducible apply State.srepWrite_inv)

theorem State.fieldResult_inv (s : State) (f result item loc : Nat) (hI : s.Good wq) : (State.fieldResult s f result item loc).Good wq := by
  unfold State.fieldResult
  repeat' (first | with_reducible assumption | with_reducible apply State.put_inv)

theorem State.fieldFails_inv (s : State) (f item loc : Nat) (hI : s.Good wq) : (State.fieldFails s f item loc).Good wq := by
  unfold State.fieldFails
  repeat' (first | with_reducible assumption | with_reducible apply State.Good.ite | with_reducible apply State.bistFail_inv | with_reducible apply State.fieldResult_inv | with_reducible apply State.setBist_inv)

theorem State.fixColumn_inv (s : State) (f j col : Nat) (hI : s.Good wq) : (State.fixColumn s f j col).Good wq := by
  unfold State.fixColumn
  repeat' (first | with_reducible assumption | with_reducible apply State.Good.ite | with_reducible apply State.fieldFails_inv | with_reducible apply State.fieldResult_inv | with_reducible apply State.post_inv | with_reducible apply State.setReg_inv | split | (with_reducible refine State.Good.mk_of ?_; with_reducible refine State.Good.parts ?_))

theorem State.fieldTest_inv (s : State) (cols : List (Fin 192 × Fin 60)) (again : Option (Fin 192 × Fin 60)) (other : Option (Fin 5 × Nat)) (checks : List LineCheck) (hI : s.Good wq) : (State.fieldTest s cols again other checks).Good wq := by
  unfold State.fieldTest
  repeat' (first | with_reducible assumption | (extract_lets +onlyGivenNames zz; first | (refine State.Good.gen wq zz (fun _ => ?_) ?_; clear_value zz; rotate_left; subst zz; rotate_right) | clear_value zz) | with_reducible apply State.Good.ite | with_reducible apply State.bistPhase_inv | with_reducible apply State.fieldFails_inv | with_reducible apply State.fieldResult_inv | with_reducible apply State.fixColumn_inv | with_reducible apply State.nextTest_inv | with_reducible apply State.raise_inv | with_reducible apply State.saveField_inv | with_reducible apply State.setBist_inv | with_reducible apply State.Good.foldl | (with_reducible intro _ _ _) | split)

theorem execFieldTest_inv (cols : List (Fin 192 × Fin 60)) (again : Option (Fin 192 × Fin 60)) (other : Option (Fin 5 × Nat)) (checks : List LineCheck) (s : State) (hI : s.Good wq) : Goes wq (execFieldTest cols again other checks s) := by
  unfold execFieldTest
  repeat' (first | with_reducible assumption | with_reducible apply Goes.next | with_reducible apply State.fieldTest_inv)

theorem State.fieldRestored_inv (s : State) (f : Nat) (ok : Bool) (hI : s.Good wq) : (State.fieldRestored s f ok).Good wq := by
  unfold State.fieldRestored
  repeat' (first | with_reducible assumption | with_reducible apply State.Good.ite | with_reducible apply State.endTests_inv | with_reducible apply State.fieldFails_inv | with_reducible apply State.nextTest_inv | with_reducible apply State.put_inv | with_reducible apply State.setBist_inv)

theorem State.fieldRestore_inv (s : State) (checks : List LineCheck) (hI : s.Good wq) :
    (State.fieldRestore s checks).Good wq := by
  unfold State.fieldRestore
  cases s.bist.saved with
  | none => exact hI
  | some f =>
    refine State.Good.ite hI (State.fieldRestored_inv (s.restoreField f checks).1 f (s.restoreField f checks).2 ?_)
    exact State.restoreField_at _ _ _ hI

theorem execFieldRestore_inv (checks : List LineCheck) (s : State) (hI : s.Good wq) : Goes wq (execFieldRestore checks s) := by
  unfold execFieldRestore
  repeat' (first | with_reducible assumption | with_reducible apply Goes.next | with_reducible apply State.fieldRestore_inv)

theorem State.bistAbort_inv (s : State) (hI : s.Good wq) : (State.bistAbort s).Good wq := by
  unfold State.bistAbort
  repeat' (first | with_reducible assumption | (extract_lets +onlyGivenNames zz; first | (refine State.Good.gen wq zz (fun _ => ?_) ?_; clear_value zz; rotate_left; subst zz; rotate_right) | clear_value zz) | with_reducible apply State.Good.ite | with_reducible apply State.endTests_inv | with_reducible apply State.leaveSelfTest_inv | with_reducible apply State.setBist_inv)

theorem execBistAbort_inv (s : State) (hI : s.Good wq) : Goes wq (execBistAbort s) := by
  unfold execBistAbort
  repeat' (first | with_reducible assumption | with_reducible apply Goes.next | with_reducible apply State.bistAbort_inv)

theorem State.scanTap_inv (s : State) (hI : s.Good wq) : (State.scanTap s).Good wq := by
  unfold State.scanTap
  repeat' (first | with_reducible assumption | (extract_lets +onlyGivenNames zz; first | (refine State.Good.gen wq zz (fun _ => ?_) ?_; clear_value zz; rotate_left; subst zz; rotate_right) | clear_value zz) | with_reducible apply State.Good.ite | with_reducible apply State.scanEntry_inv | (with_reducible refine State.Good.mk_of ?_; with_reducible refine State.Good.parts ?_))

theorem execScanEnter_inv (s : State) (hI : s.Good wq) : Goes wq (execScanEnter s) := by
  unfold execScanEnter
  repeat' (first | with_reducible assumption | with_reducible apply Goes.next | with_reducible apply State.scanTap_inv)

theorem State.openFuses_inv : ∀ (n : Nat) (s : State), s.Good wq → InvAt wq Prod.snd (State.openFuses s n)
  | 0, _, h => h
  | n + 1, s, h => State.openFuses_inv n _ (State.freeNat_inv s h)
theorem State.openFuses_at (s : State) (n : Nat) (h : s.Good wq) : (State.openFuses s n).2.Good wq := InvAt.inv (State.openFuses_inv n s h)

theorem State.fuseHold_inv (s : State) (item index : Nat) (mask : BitVec 32) (ws : List (BitVec 32)) (hI : s.Good wq) : (State.fuseHold s item index mask ws).Good wq := by
  unfold State.fuseHold
  repeat' (first | with_reducible assumption | (extract_lets +onlyGivenNames zz; first | (refine State.Good.gen wq zz (fun _ => ?_) ?_; clear_value zz; rotate_left; subst zz; rotate_right) | (refine State.Good.genFst wq zz (fun _ => ?_) ?_; clear_value zz; rotate_left; subst zz; rotate_right) | (refine State.Good.genSnd wq zz (fun _ => ?_) ?_; clear_value zz; rotate_left; subst zz; rotate_right) | (refine State.Good.genLine wq zz (fun _ => ?_) ?_; clear_value zz; rotate_left; subst zz; rotate_right) | (refine State.Good.genMeta wq zz (fun _ => ?_) ?_; clear_value zz; rotate_left; subst zz; rotate_right) | (refine State.Good.genRes wq zz (fun _ => ?_) ?_; clear_value zz; rotate_left; subst zz; rotate_right) | (refine State.Good.genWrite wq zz (fun _ => ?_) ?_; clear_value zz; rotate_left; subst zz; rotate_right) | (refine State.Good.genIngest wq zz (fun _ => ?_) ?_; clear_value zz; rotate_left; subst zz; rotate_right) | (refine State.Good.genOut wq zz (fun _ => ?_) ?_; clear_value zz; rotate_left; subst zz; rotate_right) | (refine State.Good.genBuild wq zz (fun _ => ?_) ?_; clear_value zz; rotate_left; subst zz; rotate_right) | (refine State.Good.genTaken wq zz (fun _ => ?_) ?_; clear_value zz; rotate_left; subst zz; rotate_right) | (refine State.Good.genMode wq zz (fun _ _ => ?_) ?_ ?_; clear_value zz; rotate_left; subst zz; rotate_left; subst zz; rotate_left) | (have := State.Good.isFun zz; clear this; subst zz) | clear_value zz) | with_reducible apply State.Good.ite | with_reducible apply Keeps.getD | with_reducible apply State.Good.iteFst | with_reducible apply State.Good.iteSnd | with_reducible apply State.Good.iteLine | with_reducible apply State.Good.iteMeta | (with_reducible intro _ _ _) | (with_reducible intro _ _) | (show Mode.isBase _ = true; first | exact rfl | exact State.Good.base (by assumption) | exact State.Good.before (by assumption) | (with_reducible refine ModeSt.withPending_base ?_) | (with_reducible refine ModeSt.withPending_before ?_) | (with_reducible refine ModeSt.withBack_base ?_) | (with_reducible refine ModeSt.withBack_before ?_)) | split | (with_reducible refine State.Good.mk_of ?_; first | with_reducible refine State.Good.parts ?_ | refine State.Good.fromReset ?_ | refine State.Good.sameBase ?_ rfl rfl | refine GoodOf.filterMem _ (State.Good.parts ?_) | refine GoodOf.filterRegs _ (State.Good.parts ?_) | refine GoodOf.fillMem _ _ _ (State.Good.parts ?_) | refine GoodOf.insertRegs _ (State.Good.parts ?_) | refine State.Good.newBase ?_ ?_ ?_))

theorem State.fuseDone_inv (s : State) (item index : Nat) (hI : s.Good wq) : (State.fuseDone s item index).Good wq := by
  unfold State.fuseDone
  extract_lets bad words p s1 s2 s3 b s5 s6
  have h1 : s1.Good wq := State.Good.iteSnd (State.openFuses_at _ _ hI) hI
  clear_value s1
  have h2 : s2.Good wq := State.fuseHold_inv _ _ _ _ _ h1
  clear_value s2
  have h3 : s3.Good wq := State.Good.ite (State.raise_inv _ _ h2) h2
  clear_value s3
  have h5 : s5.Good wq := State.setBist_inv _ _ h3
  have h6 : s6.Good wq := State.post_inv _ _ _ _ h5
  clear_value s6
  exact State.Good.ite (State.leaveSelfTest_inv _ h6) h6

theorem State.fuseBlow_inv (s : State) (tj : Int) (hI : s.Good wq) : (State.fuseBlow s tj).Good wq := by
  unfold State.fuseBlow
  repeat' (first | with_reducible assumption | with_reducible apply State.Good.ite | with_reducible apply State.fuseDone_inv | with_reducible apply State.raise_inv | with_reducible apply State.setBist_inv)

theorem State.fuseProg_inv (s : State) (path : Path) (first second : BitVec 16) (cycles : Nat) (tj : Int) (hI : s.Good wq) : (State.fuseProg s path first second cycles tj).Good wq := by
  unfold State.fuseProg
  repeat' (first | with_reducible assumption | with_reducible apply State.Good.ite | with_reducible apply State.fuseBlow_inv)

theorem execProg_inv (path : Path) (first second : BitVec 16) (cycles : Nat) (tj : Int) (s : State) (hI : s.Good wq) : Goes wq (execProg path first second cycles tj s) := by
  unfold execProg
  repeat' (first | with_reducible assumption | with_reducible apply Goes.next | with_reducible apply State.fuseProg_inv)

theorem State.fuseWord_inv (s : State) (ok : Bool) (hI : s.Good wq) : (State.fuseWord s ok).Good wq := by
  unfold State.fuseWord
  repeat' (first | with_reducible assumption | (extract_lets +onlyGivenNames zz; first | (refine State.Good.gen wq zz (fun _ => ?_) ?_; clear_value zz; rotate_left; subst zz; rotate_right) | clear_value zz) | with_reducible apply State.Good.ite | with_reducible apply State.fuseDone_inv | with_reducible apply State.setBist_inv | split)

theorem execFuseWord_inv (ok : Bool) (s : State) (hI : s.Good wq) : Goes wq (execFuseWord ok s) := by
  unfold execFuseWord
  repeat' (first | with_reducible assumption | with_reducible apply Goes.next | with_reducible apply State.fuseWord_inv)

end Sys2Proof.Machine
end

