-- ==== Sys2Proof/Laws/KeepAccess.lean ====
section
/-! SUPPORT. Every operation keeps the invariant and the commands that wait: the steward, commits and register accesses.
One lemma for each operation that answers a state (`_inv`, and `_at` for the state inside a larger answer); of a command the lemma says that it completes (`Goes`). -/
namespace Sys2Proof.Machine
variable {wq : List Instr}

/-! Machine/Steward.lean -/

theorem State.critLoop_inv (s : State) (hI : s.Good wq) : (State.critLoop s).Good wq := by
  unfold State.critLoop
  repeat' (first | with_reducible assumption | (extract_lets +onlyGivenNames zz; first | (refine State.Good.gen wq zz (fun _ => ?_) ?_; clear_value zz; rotate_left; subst zz; rotate_right) | clear_value zz) | with_reducible apply State.Good.ite | with_reducible apply State.enterFreeze_inv | with_reducible apply State.postLog_inv | (with_reducible refine State.Good.mk_of ?_; with_reducible refine State.Good.parts ?_))

theorem State.sampleThermal_inv (s : State) (vs : List (BitVec 16)) (hI : s.Good wq) : (State.sampleThermal s vs).Good wq := by
  unfold State.sampleThermal
  repeat' (first | with_reducible assumption | (extract_lets +onlyGivenNames zz; first | (refine State.Good.gen wq zz (fun _ => ?_) ?_; clear_value zz; rotate_left; subst zz; rotate_right) | clear_value zz) | with_reducible apply State.critLoop_inv | with_reducible apply State.forEach_inv | with_reducible apply State.put_inv | (with_reducible intro _ _ _))

theorem State.sampleVoltage_inv (s : State) (vs : List (BitVec 16)) (hI : s.Good wq) : (State.sampleVoltage s vs).Good wq := by
  unfold State.sampleVoltage
  repeat' (first | with_reducible assumption | with_reducible apply State.forEach_inv | with_reducible apply State.put_inv | (with_reducible intro _ _ _))

theorem execSensorSample_inv (thermal : Bool) (vs : List (BitVec 16)) (s : State) (hI : s.Good wq) : Goes wq (execSensorSample thermal vs s) := by
  unfold execSensorSample
  repeat' (first | with_reducible assumption | with_reducible apply State.Good.ite | with_reducible apply Goes.next | with_reducible apply State.sampleThermal_inv | with_reducible apply State.sampleVoltage_inv)

theorem execScan_inv (s : State) (hI : s.Good wq) : Goes wq (execScan s) := by
  unfold execScan
  repeat' (first | with_reducible assumption | with_reducible apply Goes.next | with_reducible apply State.scanLoop_inv | with_reducible apply State.stageStw_inv | (with_reducible intro _ _ _))

theorem execBmpat_inv (f : FieldNo) (s : State) (hI : s.Good wq) : Goes wq (execBmpat f s) := by
  unfold execBmpat
  repeat' (first | with_reducible assumption | with_reducible apply State.Good.ite | with_reducible apply Goes.next | with_reducible apply State.put_inv | with_reducible apply State.scanLoop_inv | (with_reducible intro _ _ _))

theorem execDpatrol_inv (c : Fin 8) (s : State) (hI : s.Good wq) : Goes wq (execDpatrol c s) := by
  unfold execDpatrol
  repeat' (first | with_reducible assumption | with_reducible apply State.Good.ite | with_reducible apply Goes.next | with_reducible apply State.put_inv | with_reducible apply State.scanLoop_inv | (with_reducible intro _ _ _))

theorem State.setMult_inv (s : State) (c v : Nat) (hI : s.Good wq) : (State.setMult s c v).Good wq := by
  unfold State.setMult
  repeat' (first | with_reducible assumption | with_reducible apply State.put_inv | with_reducible apply State.refEff_inv)

theorem State.refreshLoop_inv (s : State) (c : Nat) (hI : s.Good wq) : (State.refreshLoop s c).Good wq := by
  unfold State.refreshLoop
  repeat' (first | with_reducible assumption | with_reducible apply State.Good.ite | with_reducible apply State.clearSeen_inv | with_reducible apply State.moveSetting_inv | with_reducible apply State.setMult_inv | with_reducible apply State.setQuiet_inv | (with_reducible intro _ _ _))

theorem execRefresh_inv (c : Fin 8) (s : State) (hI : s.Good wq) : Goes wq (execRefresh c s) := by
  unfold execRefresh
  repeat' (first | with_reducible assumption | with_reducible apply Goes.next | with_reducible apply State.refreshLoop_inv)

theorem State.ctleLoop_inv (s : State) (l : Nat) (valid : Bool) (width height : Nat) (hI : s.Good wq) : (State.ctleLoop s l valid width height).Good wq := by
  unfold State.ctleLoop
  repeat' (first | with_reducible assumption | with_reducible apply State.Good.ite | with_reducible apply State.ctleStep_inv | with_reducible apply State.put_inv | with_reducible apply State.stwAct_inv | with_reducible apply State.stwLog_inv | (with_reducible intro _ _) | split | (with_reducible refine State.Good.mk_of ?_; with_reducible refine State.Good.parts ?_))

theorem execCtle_inv (l : Fin 64) (valid : Bool) (width : Fin 128) (height : Fin 256) (s : State) (hI : s.Good wq) : Goes wq (execCtle l valid width height s) := by
  unfold execCtle
  repeat' (first | with_reducible assumption | with_reducible apply Goes.next | with_reducible apply State.ctleLoop_inv)

theorem State.laneWindow_inv (s : State) (hI : s.Good wq) : (State.laneWindow s).Good wq := by
  unfold State.laneWindow
  repeat' (first | with_reducible assumption | with_reducible apply State.Good.ite | with_reducible apply State.ctleStep_inv | with_reducible apply State.stwAct_inv | with_reducible apply State.Good.foldl | (with_reducible intro _ _ _) | (with_reducible intro _ _) | split | (with_reducible refine State.Good.mk_of ?_; with_reducible refine State.Good.parts ?_))

theorem State.opLoop_inv (s : State) (hI : s.Good wq) : (State.opLoop s).Good wq := by
  unfold State.opLoop
  repeat' (first | with_reducible assumption | with_reducible apply State.Good.ite | with_reducible apply State.setQuiet_inv | with_reducible apply State.stageStw_inv | with_reducible apply State.stwAct_inv | (with_reducible intro _ _))

theorem State.eraseLoop_inv (s : State) (c : Nat) (hI : s.Good wq) : (State.eraseLoop s c).Good wq := by
  unfold State.eraseLoop
  repeat' (first | with_reducible assumption | with_reducible apply State.Good.ite | with_reducible apply State.clearSeen_inv | with_reducible apply State.forEach_inv | with_reducible apply State.postLog_inv | with_reducible apply State.put_inv | with_reducible apply State.raise_inv | with_reducible apply State.stwAct_inv | (with_reducible intro _ _ _) | (with_reducible intro _ _) | split)

theorem execErase_inv (c : Fin 8) (s : State) (hI : s.Good wq) : Goes wq (execErase c s) := by
  unfold execErase
  repeat' (first | with_reducible assumption | with_reducible apply Goes.next | with_reducible apply State.eraseLoop_inv)

theorem State.remapLoop_inv (s : State) (c : Nat) (hI : s.Good wq) : (State.remapLoop s c).Good wq := by
  unfold State.remapLoop
  repeat' (first | with_reducible assumption | with_reducible apply State.Good.ite | with_reducible apply State.postLog_inv | with_reducible apply State.put_inv | with_reducible apply State.raise_inv | with_reducible apply State.remapStart_inv | with_reducible apply State.setDram_inv | with_reducible apply State.stwAct_inv | with_reducible apply State.stwLog_inv | (with_reducible intro _ _) | split | (with_reducible refine State.Good.mk_of ?_; with_reducible refine State.Good.parts ?_))

theorem execRemap_inv (c : Fin 8) (s : State) (hI : s.Good wq) : Goes wq (execRemap c s) := by
  unfold execRemap
  repeat' (first | with_reducible assumption | with_reducible apply Goes.next | with_reducible apply State.remapLoop_inv)

theorem State.renewLoop_inv (s : State) (hI : s.Good wq) : (State.renewLoop s).Good wq := by
  unfold State.renewLoop
  repeat' (first | with_reducible assumption | (extract_lets +onlyGivenNames zz; first | (refine State.Good.gen wq zz (fun _ => ?_) ?_; clear_value zz; rotate_left; subst zz; rotate_right) | (refine State.Good.genFst wq zz (fun _ => ?_) ?_; clear_value zz; rotate_left; subst zz; rotate_right) | (refine State.Good.genSnd wq zz (fun _ => ?_) ?_; clear_value zz; rotate_left; subst zz; rotate_right) | (refine State.Good.genLine wq zz (fun _ => ?_) ?_; clear_value zz; rotate_left; subst zz; rotate_right) | (refine State.Good.genMeta wq zz (fun _ => ?_) ?_; clear_value zz; rotate_left; subst zz; rotate_right) | (refine State.Good.genRes wq zz (fun _ => ?_) ?_; clear_value zz; rotate_left; subst zz; rotate_right) | (refine State.Good.genWrite wq zz (fun _ => ?_) ?_; clear_value zz; rotate_left; subst zz; rotate_right) | (refine State.Good.genIngest wq zz (fun _ => ?_) ?_; clear_value zz; rotate_left; subst zz; rotate_right) | (refine State.Good.genOut wq zz (fun _ => ?_) ?_; clear_value zz; rotate_left; subst zz; rotate_right) | (refine State.Good.genBuild wq zz (fun _ => ?_) ?_; clear_value zz; rotate_left; subst zz; rotate_right) | (refine State.Good.genTaken wq zz (fun _ => ?_) ?_; clear_value zz; rotate_left; subst zz; rotate_right) | (refine State.Good.genMode wq zz (fun _ _ => ?_) ?_ ?_; clear_value zz; rotate_left; subst zz; rotate_left; subst zz; rotate_left) | (have := State.Good.isFun zz; clear this; subst zz) | clear_value zz) | with_reducible apply State.Good.ite | with_reducible apply State.renewStart_inv | with_reducible apply State.stwAct_inv | with_reducible apply Keeps.getD | (refine (State.renewStart_inv _ _ _ _ _ ?_) _ (by with_reducible assumption)) | with_reducible apply State.Good.iteFst | with_reducible apply State.Good.iteSnd | with_reducible apply State.Good.iteLine | with_reducible apply State.Good.iteMeta | (with_reducible intro _ _ _) | (with_reducible intro _ _) | (show Mode.isBase _ = true; first | exact rfl | exact State.Good.base (by assumption) | exact State.Good.before (by assumption) | (with_reducible refine ModeSt.withPending_base ?_) | (with_reducible refine ModeSt.withPending_before ?_) | (with_reducible refine ModeSt.withBack_base ?_) | (with_reducible refine ModeSt.withBack_before ?_)) | split | (with_reducible refine State.Good.mk_of ?_; first | with_reducible refine State.Good.parts ?_ | refine State.Good.fromReset ?_ | refine State.Good.sameBase ?_ rfl rfl | refine GoodOf.filterMem _ (State.Good.parts ?_) | refine GoodOf.filterRegs _ (State.Good.parts ?_) | refine GoodOf.fillMem _ _ _ (State.Good.parts ?_) | refine GoodOf.insertRegs _ (State.Good.parts ?_) | refine State.Good.newBase ?_ ?_ ?_))

theorem execRenewLoop_inv (s : State) (hI : s.Good wq) : Goes wq (execRenewLoop s) := by
  unfold execRenewLoop
  repeat' (first | with_reducible assumption | with_reducible apply Goes.next | with_reducible apply State.renewLoop_inv)

theorem State.stageDomain_inv (s : State) (d : Nat) (on : Bool) (hI : s.Good wq) : (State.stageDomain s d on).Good wq := by
  unfold State.stageDomain
  repeat' (first | with_reducible assumption | with_reducible apply State.stageStw_inv)

theorem State.shedLoop_inv (s : State) (hI : s.Good wq) : (State.shedLoop s).Good wq := by
  unfold State.shedLoop
  repeat' (first | with_reducible assumption | with_reducible apply State.Good.ite | with_reducible apply State.setQuiet_inv | with_reducible apply State.stageDomain_inv | with_reducible apply State.stwAct_inv | (with_reducible intro _ _) | split | (with_reducible refine State.Good.mk_of ?_; with_reducible refine State.Good.parts ?_))

theorem State.clampOne_inv (s : State) (k inst w cur : Nat) (write : State → Nat → State) (hI : s.Good wq) (hwrite : ∀ x0 x1, x0.Good wq → (write x0 x1).Good wq) : (State.clampOne s k inst w cur write).Good wq := by
  unfold State.clampOne
  repeat' (first | with_reducible assumption | with_reducible apply State.Good.ite | with_reducible apply State.stwAct_inv | with_reducible apply hwrite | (with_reducible intro _ _))

theorem State.clampLoop_inv (s : State) (k : Nat) (hI : s.Good wq) : (State.clampLoop s k).Good wq := by
  unfold State.clampLoop
  repeat' (first | with_reducible assumption | with_reducible apply State.Good.ite | with_reducible apply State.clampOne_inv | with_reducible apply State.ctleStep_inv | with_reducible apply State.forEach_inv | with_reducible apply State.put_inv | with_reducible apply State.setMult_inv | with_reducible apply State.stageStw_inv | with_reducible apply State.stwAct_inv | (with_reducible intro _ _ _) | (with_reducible intro _ _) | split | (with_reducible refine State.Good.mk_of ?_; with_reducible refine State.Good.parts ?_))

theorem State.stewardRestart_inv (s : State) (hI : s.Good wq) : (State.stewardRestart s).Good wq := by
  unfold State.stewardRestart
  repeat' (first | with_reducible assumption | with_reducible apply State.Good.ite | with_reducible apply State.bump_inv | with_reducible apply State.postLog_inv | (with_reducible refine State.Good.mk_of ?_; with_reducible refine State.Good.parts ?_))

theorem execStwRestart_inv (s : State) (hI : s.Good wq) : Goes wq (execStwRestart s) := by
  unfold execStwRestart
  repeat' (first | with_reducible assumption | with_reducible apply Goes.next | with_reducible apply State.stewardRestart_inv)

theorem State.limitRatio_inv (s : State) (i num den meas : Nat) (hI : s.Good wq) : (State.limitRatio s i num den meas).Good wq := by
  unfold State.limitRatio
  repeat' (first | with_reducible assumption | with_reducible apply State.Good.ite | with_reducible apply State.put_inv)

theorem execLimitRatio_inv (i : Fin 10) (num den meas : Nat) (s : State) (hI : s.Good wq) : Goes wq (execLimitRatio i num den meas s) := by
  unfold execLimitRatio
  repeat' (first | with_reducible assumption | with_reducible apply Goes.next | with_reducible apply State.limitRatio_inv)

theorem State.placeWindow_inv (s : State) (hI : s.Good wq) : (State.placeWindow s).Good wq := by
  unfold State.placeWindow
  repeat' (first | with_reducible assumption | with_reducible apply State.Good.ite | with_reducible apply State.setColumn_inv | split | (with_reducible refine State.Good.mk_of ?_; with_reducible refine State.Good.parts ?_))

theorem execMwinPlace_inv (s : State) (hI : s.Good wq) : Goes wq (execMwinPlace s) := by
  unfold execMwinPlace
  repeat' (first | with_reducible assumption | with_reducible apply Goes.next | with_reducible apply State.placeWindow_inv)

theorem State.wdExpire_inv (s : State) (hI : s.Good wq) : (State.wdExpire s).Good wq := by
  unfold State.wdExpire
  repeat' (first | with_reducible assumption | (extract_lets +onlyGivenNames zz; first | (refine State.Good.gen wq zz (fun _ => ?_) ?_; clear_value zz; rotate_left; subst zz; rotate_right) | clear_value zz) | with_reducible apply State.Good.ite | with_reducible apply State.bump_inv | with_reducible apply State.enterFreeze_inv | with_reducible apply State.postLog_inv | with_reducible apply State.put_inv | with_reducible apply State.raise_inv | with_reducible apply State.wdLoad_inv)

theorem execWdExpire_inv (s : State) (hI : s.Good wq) : Goes wq (execWdExpire s) := by
  unfold execWdExpire
  repeat' (first | with_reducible assumption | with_reducible apply Goes.next | with_reducible apply State.wdExpire_inv)

theorem State.wdClear_inv (s : State) (hI : s.Good wq) : (State.wdClear s).Good wq := by
  unfold State.wdClear
  repeat' (first | with_reducible assumption | with_reducible apply State.Good.ite | with_reducible apply State.clear_inv | with_reducible apply State.wdLoad_inv)

theorem execWdExpiredClear_inv (s : State) (hI : s.Good wq) : Goes wq (execWdExpiredClear s) := by
  unfold execWdExpiredClear
  repeat' (first | with_reducible assumption | with_reducible apply Goes.next | with_reducible apply State.wdClear_inv)

/-! Machine/Commit.lean -/

theorem State.unstage_inv (s : State) (b : BlockDesc) (i : Nat) (hI : s.Good wq) : (State.unstage s b i).Good wq := by
  unfold State.unstage
  repeat' (first | with_reducible assumption | (with_reducible refine State.Good.mk_of ?_; with_reducible refine State.Good.parts ?_))

theorem State.applyStaged_inv (s : State) (e : Nat × Staged) (hI : s.Good wq) : (State.applyStaged s e).Good wq := by
  unfold State.applyStaged
  repeat' (first | with_reducible assumption | with_reducible apply State.Good.ite | with_reducible apply State.logEntry_inv | with_reducible apply State.setReg_inv | split)

theorem State.applyAll_inv (s : State) (es : SMap Staged) (hI : s.Good wq) : (State.applyAll s es).Good wq := by
  unfold State.applyAll
  repeat' (first | with_reducible assumption | with_reducible apply State.applyStaged_inv | with_reducible apply State.Good.foldl)

theorem State.periodReject_inv (s : State) (p : Nat) (bad : List Nat) (hI : s.Good wq) : (State.periodReject s p bad).Good wq := by
  unfold State.periodReject
  repeat' (first | with_reducible assumption | with_reducible apply State.forEach_inv | with_reducible apply State.logEntry_inv | with_reducible apply State.post_inv | with_reducible apply State.raise_inv | (with_reducible intro _ _ _))

theorem State.commitTime_inv (s : State) (es : SMap Staged) (hI : s.Good wq) : (State.commitTime s es).Good wq := by
  unfold State.commitTime
  repeat' (first | with_reducible assumption | with_reducible apply State.Good.ite | with_reducible apply State.applyAll_inv | with_reducible apply State.periodReject_inv | split)

theorem State.domainReject_inv (s : State) (d : Nat) (on bySteward : Bool) (hI : s.Good wq) : (State.domainReject s d on bySteward).Good wq := by
  unfold State.domainReject
  repeat' (first | with_reducible assumption | with_reducible apply State.Good.ite | with_reducible apply State.logOpen_inv | with_reducible apply State.put_inv | with_reducible apply State.raise_inv | split | (with_reducible refine State.Good.mk_of ?_; with_reducible refine State.Good.parts ?_))

theorem State.commitDomains_inv (s : State) (es : SMap Staged) (hI : s.Good wq) : (State.commitDomains s es).Good wq := by
  unfold State.commitDomains
  repeat' (first | with_reducible assumption | with_reducible apply State.Good.ite | with_reducible apply State.applyAll_inv | with_reducible apply State.domainReject_inv | with_reducible apply State.forEach_inv | with_reducible apply State.powerChange_inv | (with_reducible intro _ _ _))

theorem State.takeRequest_inv (s : State) (j : Nat) (hI : s.Good wq) : (State.takeRequest s j).Good wq := by
  unfold State.takeRequest
  repeat' (first | with_reducible assumption | with_reducible apply State.Good.ite | with_reducible apply State.clear_inv | with_reducible apply State.opRequest_inv | (with_reducible refine State.Good.mk_of ?_; with_reducible refine State.Good.parts ?_))

theorem State.takeAsked_inv (s : State) (hI : s.Good wq) : (State.takeAsked s).Good wq := by
  unfold State.takeAsked
  repeat' (first | with_reducible assumption | with_reducible apply State.opHeldRequest_inv | with_reducible apply State.takeRequest_inv | split)

theorem State.commitPwr_inv (s : State) (es : SMap Staged) (hI : s.Good wq) : (State.commitPwr s es).Good wq := by
  unfold State.commitPwr
  repeat' (first | with_reducible assumption | with_reducible apply State.Good.ite | with_reducible apply State.commitDomains_inv | with_reducible apply State.takeRequest_inv)

theorem State.effectPwr_inv (s : State) (es : SMap Staged) (hI : s.Good wq) : (State.effectPwr s es).Good wq := by
  unfold State.effectPwr
  repeat' (first | with_reducible assumption | with_reducible apply State.Good.ite | with_reducible apply State.commitDomains_inv | with_reducible apply State.commitPwr_inv | (with_reducible refine State.Good.mk_of ?_; with_reducible refine State.Good.parts ?_))

theorem State.syncKeys_inv (s : State) (hI : s.Good wq) : (State.syncKeys s).Good wq := by
  unfold State.syncKeys
  repeat' (first | with_reducible assumption | with_reducible apply State.Good.ite | with_reducible apply State.forEach_inv | with_reducible apply State.setKeyState_inv | (with_reducible intro _ _ _))

theorem State.openChanged_inv (old : State) (cuts : List Nat) : ∀ (n a : Nat) (s : State), s.Good wq →
    (State.openChanged old s cuts n a).Good wq := by
  intro n
  induction n with
  | zero => intro a s h; exact h
  | succ n ih =>
    intro a s h
    unfold State.openChanged
    extract_lets next x y t
    have ht : t.Good wq := State.Good.ite h (State.openLines_inv _ _ _ h)
    clear_value t
    exact State.Good.ite ht (ih _ _ ht)

theorem State.commitFails_inv (s : State) (f : Fld) (es : SMap Staged) (src : Nat) (hI : s.Good wq) : (State.commitFails s f es src).Good wq := by
  unfold State.commitFails
  repeat' (first | with_reducible assumption | with_reducible apply State.logOpen_inv | with_reducible apply State.raise_inv | (with_reducible refine State.Good.mk_of ?_; with_reducible refine State.Good.parts ?_))

theorem State.barAreas_inv (s : State) (hI : s.Good wq) : (State.barAreas s).Good wq := by
  unfold State.barAreas
  repeat' (first | with_reducible assumption | with_reducible apply State.Good.ite | with_reducible apply State.raise_inv | (with_reducible refine State.Good.mk_of ?_; with_reducible refine State.Good.parts ?_))

theorem State.commitMig_inv (s : State) (es : SMap Staged) (hI : s.Good wq) : (State.commitMig s es).Good wq := by
  unfold State.commitMig
  repeat' (first | with_reducible assumption | (extract_lets +onlyGivenNames zz; (refine State.Good.gen wq zz (fun _ => ?_) ?_; clear_value zz; rotate_left; subst zz; rotate_right)) | with_reducible apply State.Good.ite | with_reducible apply State.applyAll_inv | with_reducible apply State.barAreas_inv | with_reducible apply State.commitFails_inv | with_reducible apply State.flushCache_inv | with_reducible apply State.openChanged_inv | with_reducible apply State.syncKeys_inv)

theorem State.commitCry_inv (s : State) (es : SMap Staged) (hI : s.Good wq) : (State.commitCry s es).Good wq := by
  unfold State.commitCry
  repeat' (first | with_reducible assumption | (extract_lets +onlyGivenNames zz; first | (refine State.Good.gen wq zz (fun _ => ?_) ?_; clear_value zz; rotate_left; subst zz; rotate_right) | clear_value zz) | with_reducible apply State.Good.ite | with_reducible apply State.applyAll_inv | with_reducible apply State.commitFails_inv | with_reducible apply State.flushCache_inv | (with_reducible refine State.Good.mk_of ?_; with_reducible refine State.Good.parts ?_))

theorem State.commitStw_inv (s : State) (es : SMap Staged) (hI : s.Good wq) : (State.commitStw s es).Good wq := by
  unfold State.commitStw
  repeat' (first | with_reducible assumption | with_reducible apply State.Good.ite | with_reducible apply State.applyAll_inv | with_reducible apply State.clampLoop_inv | with_reducible apply State.forEach_inv | with_reducible apply State.wdLoad_inv)

theorem State.niLower_inv (s : State) (n : Nat) (hI : s.Good wq) : (State.niLower s n).Good wq := by
  unfold State.niLower
  repeat' (first | with_reducible assumption | with_reducible apply State.Good.ite | with_reducible apply State.setNi_inv)

theorem State.commitInst_inv (s : State) (b : BlockDesc) (i : Nat) (hI : s.Good wq) : (State.commitInst s b i).Good wq := by
  unfold State.commitInst
  repeat' (first | with_reducible assumption | (extract_lets +onlyGivenNames zz; first | (refine State.Good.gen wq zz (fun _ => ?_) ?_; clear_value zz; rotate_left; subst zz; rotate_right) | clear_value zz) | with_reducible apply State.Good.ite | with_reducible apply State.applyAll_inv | with_reducible apply State.commitCry_inv | with_reducible apply State.commitMig_inv | with_reducible apply State.commitPwr_inv | with_reducible apply State.commitStw_inv | with_reducible apply State.commitTime_inv | with_reducible apply State.niLower_inv | with_reducible apply State.niSwap_inv | with_reducible apply State.settleAll_inv | with_reducible apply State.unstage_inv | split)

theorem State.commitGo_inv (s : State) (b : BlockDesc) (i : Nat) (hI : s.Good wq) : (State.commitGo s b i).Good wq := by
  unfold State.commitGo
  repeat' (first | with_reducible assumption | (extract_lets +onlyGivenNames zz; (refine State.Good.gen wq zz (fun _ => ?_) ?_; clear_value zz; rotate_left; subst zz; rotate_right)) | with_reducible apply State.Good.ite | with_reducible apply State.arm_inv | with_reducible apply State.commitInst_inv | with_reducible apply State.takeAsked_inv | split)

theorem State.commitDiscard_inv (s : State) (b : BlockDesc) (i : Nat) (hI : s.Good wq) : (State.commitDiscard s b i).Good wq := by
  unfold State.commitDiscard
  repeat' (first | with_reducible assumption | with_reducible apply State.Good.ite | with_reducible apply State.setNi_inv | with_reducible apply State.unstage_inv)

theorem State.commitWrite_inv (s : State) (b : BlockDesc) (i v : Nat) (hI : s.Good wq) : (State.commitWrite s b i v).Good wq := by
  unfold State.commitWrite
  repeat' (first | with_reducible assumption | (extract_lets +onlyGivenNames zz; (refine State.Good.gen wq zz (fun _ => ?_) ?_; clear_value zz; rotate_left; subst zz; rotate_right)) | with_reducible apply State.Good.ite | with_reducible apply State.commitDiscard_inv | with_reducible apply State.commitGo_inv | with_reducible apply State.put_inv)

theorem State.commitTick_inv (s : State) (b : BlockDesc) (i : Nat) (hI : s.Good wq) : (State.commitTick s b i).Good wq := by
  unfold State.commitTick
  repeat' (first | with_reducible assumption | (extract_lets +onlyGivenNames zz; first | (refine State.Good.gen wq zz (fun _ => ?_) ?_; clear_value zz; rotate_left; subst zz; rotate_right) | clear_value zz) | with_reducible apply State.Good.ite | with_reducible apply State.clear_inv | with_reducible apply State.commitInst_inv)

theorem State.effectNow_inv (s : State) (b : BlockDesc) (i : Nat) (hI : s.Good wq) : (State.effectNow s b i).Good wq := by
  unfold State.effectNow
  repeat' (first | with_reducible assumption | with_reducible apply State.applyAll_inv | with_reducible apply State.commitInst_inv | with_reducible apply State.effectPwr_inv | with_reducible apply State.niLower_inv | with_reducible apply State.unstage_inv | split)

theorem State.flushDisabled_inv (s : State) (hI : s.Good wq) : (State.flushDisabled s).Good wq := by
  unfold State.flushDisabled
  repeat' (first | with_reducible assumption | with_reducible apply State.Good.ite | with_reducible apply State.effectNow_inv | with_reducible apply State.unstage_inv | with_reducible apply State.Good.foldl | (with_reducible intro _ _ _) | split)

/-! Machine/Access.lean -/

theorem State.latch_inv (s : State) (p : Path) (k v : Nat) (hI : s.Good wq) : (State.latch s p k v).Good wq := by
  unfold State.latch
  repeat' (first | with_reducible assumption | with_reducible apply State.setPath_inv)

theorem State.readLo_inv (s : State) (p : Path) (x : RegAt) (hI : s.Good wq) : InvAt wq Prod.fst (State.readLo s p x) := by
  unfold State.readLo
  repeat' (first | with_reducible assumption | with_reducible apply InvAt.ite | with_reducible apply InvAt.fst | with_reducible apply State.latch_inv | with_reducible apply State.setPath_inv | split)
theorem State.readLo_at (s : State) (p : Path) (x : RegAt) (hI : s.Good wq) : (Prod.fst (State.readLo s p x)).Good wq := InvAt.inv (State.readLo_inv _ _ _ hI)

theorem State.readReg_inv (s : State) (p : Path) (x : RegAt) (hI : s.Good wq) : InvAt wq Prod.fst (State.readReg s p x) := by
  unfold State.readReg
  repeat' (first | with_reducible assumption | with_reducible apply InvAt.ite | with_reducible apply InvAt.fst | with_reducible apply State.nowRead_inv | with_reducible apply State.setReg_inv | with_reducible apply State.txqidPop_inv | with_reducible apply State.readLo_at | with_reducible apply State.Good.iteFst | split)
theorem State.readReg_at (s : State) (p : Path) (x : RegAt) (hI : s.Good wq) : (Prod.fst (State.readReg s p x)).Good wq := InvAt.inv (State.readReg_inv _ _ _ hI)

theorem State.busRead_inv (s : State) (p : Path) (off : Nat) (hI : s.Good wq) : InvAt wq Prod.fst (State.busRead s p off) := by
  unfold State.busRead
  repeat' (first | with_reducible assumption | with_reducible apply InvAt.ite | with_reducible apply InvAt.fst | with_reducible apply State.latch_inv | with_reducible apply State.readReg_at | with_reducible apply State.Good.iteFst | split)
theorem State.busRead_at (s : State) (p : Path) (off : Nat) (hI : s.Good wq) : (Prod.fst (State.busRead s p off)).Good wq := InvAt.inv (State.busRead_inv _ _ _ hI)

theorem State.barReadNow_inv (s : State) (p : Path) (off size : Nat) (hI : s.Good wq) : (State.barReadNow s p off size).Good wq := by
  unfold State.barReadNow
  repeat' (first | with_reducible assumption | with_reducible apply State.hbError_inv | with_reducible apply State.busRead_at | split | (with_reducible refine State.Good.mk_of ?_; with_reducible refine State.Good.parts ?_))

theorem State.barRead_inv (s : State) (p : Path) (off size : Nat) (hI : s.Good wq) : (State.barRead s p off size).Good wq := by
  unfold State.barRead
  repeat' (first | with_reducible assumption | with_reducible apply State.Good.ite | with_reducible apply State.barReadNow_inv | with_reducible apply State.holdAccess_inv)

theorem State.staticW_inv (s : State) (x : RegAt) (hI : s.Good wq) : (State.staticW s x).Good wq := by
  unfold State.staticW
  repeat' (first | with_reducible assumption | with_reducible apply State.Good.ite | with_reducible apply State.hbError_inv | with_reducible apply State.niError_inv | with_reducible apply State.raise_inv | split)

theorem State.stage_inv (s : State) (p : Path) (off mask v : Nat) (hI : s.Good wq) : (State.stage s p off mask v).Good wq := by
  unfold State.stage
  repeat' (first | with_reducible assumption | split | (with_reducible refine State.Good.mk_of ?_; with_reducible refine State.Good.parts ?_))

theorem State.storeReg_inv (s : State) (p : Path) (x : RegAt) (d : Nat) (hI : s.Good wq) : (State.storeReg s p x d).Good wq := by
  unfold State.storeReg
  repeat' (first | with_reducible assumption | with_reducible apply State.Good.ite | with_reducible apply State.setReg_inv | with_reducible apply State.stage_inv | with_reducible apply State.staticW_inv)

theorem State.keyWrite_inv (s : State) (p : Path) (off a b d : Nat) (hI : s.Good wq) : InvAt wq Prod.fst (State.keyWrite s p off a b d) := by
  unfold State.keyWrite
  repeat' (first | with_reducible assumption | with_reducible apply InvAt.ite | with_reducible apply InvAt.fst | split | (with_reducible refine State.Good.mk_of ?_; with_reducible refine State.Good.parts ?_))
theorem State.keyWrite_at (s : State) (p : Path) (off a b d : Nat) (hI : s.Good wq) : (Prod.fst (State.keyWrite s p off a b d)).Good wq := InvAt.inv (State.keyWrite_inv _ _ _ _ _ _ hI)

theorem State.hookGlb_inv (s : State) (l d : Nat) (hI : s.Good wq) : (State.hookGlb s l d).Good wq := by
  unfold State.hookGlb
  repeat' (first | with_reducible assumption | (extract_lets +onlyGivenNames zz; (refine State.Good.genSnd wq zz (fun _ => ?_) ?_; clear_value zz; rotate_left; subst zz; rotate_right)) | with_reducible apply State.Good.ite | with_reducible apply State.rejectRequest_inv | with_reducible apply State.reqRelease_inv | with_reducible apply State.reqRun_inv | with_reducible apply State.reqSelfTest_inv | with_reducible apply State.reqStop_inv | with_reducible apply State.reqUnload_inv | with_reducible apply State.reqValley_inv | with_reducible apply State.freeNat_at | split)

theorem State.hookPwr_inv (s : State) (p : Path) (l d : Nat) (hI : s.Good wq) : (State.hookPwr s p l d).Good wq := by
  unfold State.hookPwr
  repeat' (first | with_reducible assumption | with_reducible apply State.Good.ite | with_reducible apply State.deviceReset_inv | with_reducible apply State.keyWrite_at | (with_reducible refine State.Good.mk_of ?_; with_reducible refine State.Good.parts ?_))

theorem State.hookClk_inv (s : State) (l old : Nat) (hI : s.Good wq) : (State.hookClk s l old).Good wq := by
  unfold State.hookClk
  repeat' (first | with_reducible assumption | with_reducible apply State.Good.ite | with_reducible apply State.clear_inv)

theorem State.hookTime_inv (s : State) (l old : Nat) (hI : s.Good wq) : (State.hookTime s l old).Good wq := by
  unfold State.hookTime
  repeat' (first | with_reducible assumption | with_reducible apply State.Good.ite | with_reducible apply State.holdIncr_inv)

theorem State.hookTt_inv (s : State) (l d : Nat) (hI : s.Good wq) : (State.hookTt s l d).Good wq := by
  unfold State.hookTt
  repeat' (first | with_reducible assumption | with_reducible apply State.Good.ite | with_reducible apply State.colClr_inv)

theorem State.keepCtx_inv (s : State) (x : RegAt) (f : Fld) (old d : Nat) (hI : s.Good wq) : (State.keepCtx s x f old d).Good wq := by
  unfold State.keepCtx
  repeat' (first | with_reducible assumption | with_reducible apply State.Good.ite | with_reducible apply State.put_inv | with_reducible apply State.staticW_inv)

theorem State.hookHb_inv (s : State) (x : RegAt) (old d : Nat) (hI : s.Good wq) : (State.hookHb s x old d).Good wq := by
  unfold State.hookHb
  repeat' (first | with_reducible assumption | with_reducible apply State.Good.ite | with_reducible apply State.keepCtx_inv)

theorem State.hookRing_inv (s : State) (x : RegAt) (old d : Nat) (hI : s.Good wq) : (State.hookRing s x old d).Good wq := by
  unfold State.hookRing
  repeat' (first | with_reducible assumption | with_reducible apply State.Good.ite | with_reducible apply State.clear_inv | with_reducible apply State.keepCtx_inv | with_reducible apply State.qpEnable_inv | with_reducible apply State.ringEnable_inv)

theorem State.hookNi_inv (s : State) (n l old d : Nat) (hI : s.Good wq) : (State.hookNi s n l old d).Good wq := by
  unfold State.hookNi
  repeat' (first | with_reducible assumption | with_reducible apply State.Good.ite | with_reducible apply State.niError_inv | with_reducible apply State.ordClr_inv | with_reducible apply State.put_inv)

theorem State.unwriteMemory_inv (s : State) (m : Nat) (hI : s.Good wq) : (State.unwriteMemory s m).Good wq := by
  unfold State.unwriteMemory
  repeat' (first | with_reducible assumption | (with_reducible refine State.Good.mk_of ?_; refine GoodOf.filterMem _ (State.Good.parts ?_)))

theorem State.hookFld_inv (s : State) (f l old d : Nat) (hI : s.Good wq) : (State.hookFld s f l old d).Good wq := by
  unfold State.hookFld
  repeat' (first | with_reducible assumption | with_reducible apply State.Good.ite | with_reducible apply State.bmInit_inv | with_reducible apply State.clear_inv | with_reducible apply State.contClr_inv | with_reducible apply State.restart_inv | with_reducible apply State.unwriteMemory_inv)

theorem State.hookScr_inv (s : State) (l old d : Nat) (hI : s.Good wq) : (State.hookScr s l old d).Good wq := by
  unfold State.hookScr
  repeat' (first | with_reducible assumption | with_reducible apply State.Good.ite | with_reducible apply State.restartSweeps_inv)

theorem State.hookCfg_inv (s : State) (l old d : Nat) (hI : s.Good wq) : (State.hookCfg s l old d).Good wq := by
  unfold State.hookCfg
  repeat' (first | with_reducible assumption | with_reducible apply State.Good.ite | with_reducible apply State.abortLoad_inv | with_reducible apply State.goldBuild_inv | with_reducible apply State.put_inv | with_reducible apply State.storeEn_inv)

theorem State.hookDrc_inv (s : State) (c l old d : Nat) (hI : s.Good wq) : (State.hookDrc s c l old d).Good wq := by
  unfold State.hookDrc
  repeat' (first | with_reducible assumption | (extract_lets +onlyGivenNames zz; first | (refine State.Good.gen wq zz (fun _ => ?_) ?_; clear_value zz; rotate_left; subst zz; rotate_right) | (refine State.Good.genSnd wq zz (fun _ => ?_) ?_; clear_value zz; rotate_left; subst zz; rotate_right)) | with_reducible apply State.Good.ite | with_reducible apply State.channelDisable_inv | with_reducible apply State.channelEnable_inv | with_reducible apply State.clear_inv | with_reducible apply State.raise_inv | with_reducible apply State.refEff_inv | with_reducible apply State.retrain_inv | with_reducible apply State.unfreeze_inv | with_reducible apply State.freeNat_at)

theorem State.hookRemap_inv (s : State) (x : RegAt) (old d : Nat) (hI : s.Good wq) : (State.hookRemap s x old d).Good wq := by
  unfold State.hookRemap
  repeat' (first | with_reducible assumption | with_reducible apply State.Good.ite | with_reducible apply State.clear_inv | with_reducible apply State.raise_inv | with_reducible apply State.remapStart_inv | with_reducible apply State.setReg_inv)

theorem State.hookMig_inv (s : State) (x : RegAt) (old d : Nat) (hI : s.Good wq) : (State.hookMig s x old d).Good wq := by
  unfold State.hookMig
  repeat' (first | with_reducible assumption | with_reducible apply State.Good.ite | with_reducible apply State.hookRemap_inv)

theorem State.hookCry_inv (s : State) (l d : Nat) (hI : s.Good wq) : (State.hookCry s l d).Good wq := by
  unfold State.hookCry
  repeat' (first | with_reducible assumption | with_reducible apply State.Good.ite | with_reducible apply State.flushCache_inv | with_reducible apply State.keyCtl_inv)

theorem State.hookLane_inv (s : State) (i l old d : Nat) (hI : s.Good wq) : (State.hookLane s i l old d).Good wq := by
  unfold State.hookLane
  repeat' (first | with_reducible assumption | with_reducible apply State.Good.ite | with_reducible apply State.clear_inv | with_reducible apply State.laneEidle_inv | with_reducible apply State.laneUnlock_inv | with_reducible apply State.put_inv | with_reducible apply State.raise_inv | with_reducible apply State.setLane_inv | with_reducible apply State.slipWrite_inv)

theorem State.hookStg_inv (s : State) (p l old d : Nat) (hI : s.Good wq) : (State.hookStg s p l old d).Good wq := by
  unfold State.hookStg
  repeat' (first | with_reducible assumption | with_reducible apply State.Good.ite | with_reducible apply State.portDown_inv | with_reducible apply State.portEidle_inv | with_reducible apply State.portTrain_inv | with_reducible apply State.put_inv)

theorem State.hookStw_inv (s : State) (l old d : Nat) (hI : s.Good wq) : (State.hookStw s l old d).Good wq := by
  unfold State.hookStw
  repeat' (first | with_reducible assumption | with_reducible apply State.Good.ite | with_reducible apply State.raise_inv | with_reducible apply State.wdClear_inv | with_reducible apply State.wdLoad_inv)

theorem State.hookBist_inv (s : State) (p : Path) (x : RegAt) (old d : Nat) (hI : s.Good wq) : (State.hookBist s p x old d).Good wq := by
  unfold State.hookBist
  repeat' (first | with_reducible assumption | (extract_lets +onlyGivenNames zz; first | (refine State.Good.genFst wq zz (fun _ => ?_) ?_; clear_value zz; rotate_left; subst zz; rotate_right) | (refine State.Good.genSnd wq zz (fun _ => ?_) ?_; clear_value zz; rotate_left; subst zz; rotate_right) | clear_value zz) | with_reducible apply State.Good.ite | with_reducible apply State.bistAbort_inv | with_reducible apply State.fuseBlow_inv | with_reducible apply State.setBist_inv | with_reducible apply State.setReg_inv | with_reducible apply State.srepWrite_inv | with_reducible apply State.freeNat_at | with_reducible apply State.keyWrite_at)

theorem State.hookDbg_inv (s : State) (p : Path) (l old d : Nat) (hI : s.Good wq) : (State.hookDbg s p l old d).Good wq := by
  unfold State.hookDbg
  repeat' (first | with_reducible assumption | (extract_lets +onlyGivenNames zz; (refine State.Good.gen wq zz (fun _ => ?_) ?_; clear_value zz; rotate_left; subst zz; rotate_right)) | with_reducible apply State.Good.ite | with_reducible apply State.accGo_inv | with_reducible apply State.clear_inv | with_reducible apply State.dbgUnlocked_inv | with_reducible apply State.haltCode_inv | with_reducible apply State.haltNow_inv | with_reducible apply State.haltRelease_inv | with_reducible apply State.setReg_inv | with_reducible apply State.traceEnable_inv | with_reducible apply State.vtTxWrite_inv)

theorem State.hook_inv (s : State) (p : Path) (x : RegAt) (old d : Nat) (hI : s.Good wq) : (State.hook s p x old d).Good wq := by
  unfold State.hook
  repeat' (first | with_reducible assumption | (extract_lets +onlyGivenNames zz; first | (refine State.Good.gen wq zz (fun _ => ?_) ?_; clear_value zz; rotate_left; subst zz; rotate_right) | (refine State.Good.genFst wq zz (fun _ => ?_) ?_; clear_value zz; rotate_left; subst zz; rotate_right) | (refine State.Good.genSnd wq zz (fun _ => ?_) ?_; clear_value zz; rotate_left; subst zz; rotate_right) | (refine State.Good.genLine wq zz (fun _ => ?_) ?_; clear_value zz; rotate_left; subst zz; rotate_right) | (refine State.Good.genMeta wq zz (fun _ => ?_) ?_; clear_value zz; rotate_left; subst zz; rotate_right) | (refine State.Good.genRes wq zz (fun _ => ?_) ?_; clear_value zz; rotate_left; subst zz; rotate_right) | (refine State.Good.genWrite wq zz (fun _ => ?_) ?_; clear_value zz; rotate_left; subst zz; rotate_right) | (refine State.Good.genIngest wq zz (fun _ => ?_) ?_; clear_value zz; rotate_left; subst zz; rotate_right) | (refine State.Good.genOut wq zz (fun _ => ?_) ?_; clear_value zz; rotate_left; subst zz; rotate_right) | (refine State.Good.genBuild wq zz (fun _ => ?_) ?_; clear_value zz; rotate_left; subst zz; rotate_right) | (refine State.Good.genTaken wq zz (fun _ => ?_) ?_; clear_value zz; rotate_left; subst zz; rotate_right) | (refine State.Good.genMode wq zz (fun _ _ => ?_) ?_ ?_; clear_value zz; rotate_left; subst zz; rotate_left; subst zz; rotate_left) | (have := State.Good.isFun zz; clear this; subst zz) | clear_value zz) | with_reducible apply State.Good.ite | with_reducible apply State.hookBist_inv | with_reducible apply State.hookCfg_inv | with_reducible apply State.hookClk_inv | with_reducible apply State.hookCry_inv | with_reducible apply State.hookDbg_inv | with_reducible apply State.hookDrc_inv | with_reducible apply State.hookFld_inv | with_reducible apply State.hookGlb_inv | with_reducible apply State.hookHb_inv | with_reducible apply State.hookLane_inv | with_reducible apply State.hookMig_inv | with_reducible apply State.hookNi_inv | with_reducible apply State.hookPwr_inv | with_reducible apply State.hookRing_inv | with_reducible apply State.hookScr_inv | with_reducible apply State.hookStg_inv | with_reducible apply State.hookStw_inv | with_reducible apply State.hookTime_inv | with_reducible apply State.hookTt_inv | with_reducible apply State.Good.iteFst | with_reducible apply State.Good.iteSnd | with_reducible apply State.Good.iteLine | with_reducible apply State.Good.iteMeta | (with_reducible intro _ _ _) | (with_reducible intro _ _) | (show Mode.isBase _ = true; first | exact rfl | exact State.Good.base (by assumption) | exact State.Good.before (by assumption) | (with_reducible refine ModeSt.withPending_base ?_) | (with_reducible refine ModeSt.withPending_before ?_) | (with_reducible refine ModeSt.withBack_base ?_) | (with_reducible refine ModeSt.withBack_before ?_)) | split | (with_reducible refine State.Good.mk_of ?_; first | with_reducible refine State.Good.parts ?_ | refine State.Good.fromReset ?_ | refine State.Good.sameBase ?_ rfl rfl | refine GoodOf.filterMem _ (State.Good.parts ?_) | refine GoodOf.filterRegs _ (State.Good.parts ?_) | refine GoodOf.fillMem _ _ _ (State.Good.parts ?_) | refine GoodOf.insertRegs _ (State.Good.parts ?_) | refine State.Good.newBase ?_ ?_ ?_))

theorem State.writeReg_inv (s : State) (p : Path) (x : RegAt) (d : Nat) (hI : s.Good wq) : (State.writeReg s p x d).Good wq := by
  unfold State.writeReg
  repeat' (first | with_reducible assumption | (extract_lets +onlyGivenNames zz; first | (refine State.Good.gen wq zz (fun _ => ?_) ?_; clear_value zz; rotate_left; subst zz; rotate_right) | (refine State.Good.genFst wq zz (fun _ => ?_) ?_; clear_value zz; rotate_left; subst zz; rotate_right) | (refine State.Good.genSnd wq zz (fun _ => ?_) ?_; clear_value zz; rotate_left; subst zz; rotate_right) | (refine State.Good.genLine wq zz (fun _ => ?_) ?_; clear_value zz; rotate_left; subst zz; rotate_right) | (refine State.Good.genMeta wq zz (fun _ => ?_) ?_; clear_value zz; rotate_left; subst zz; rotate_right) | (refine State.Good.genRes wq zz (fun _ => ?_) ?_; clear_value zz; rotate_left; subst zz; rotate_right) | (refine State.Good.genWrite wq zz (fun _ => ?_) ?_; clear_value zz; rotate_left; subst zz; rotate_right) | (refine State.Good.genIngest wq zz (fun _ => ?_) ?_; clear_value zz; rotate_left; subst zz; rotate_right) | (refine State.Good.genOut wq zz (fun _ => ?_) ?_; clear_value zz; rotate_left; subst zz; rotate_right) | (refine State.Good.genBuild wq zz (fun _ => ?_) ?_; clear_value zz; rotate_left; subst zz; rotate_right) | (refine State.Good.genTaken wq zz (fun _ => ?_) ?_; clear_value zz; rotate_left; subst zz; rotate_right) | (refine State.Good.genMode wq zz (fun _ _ => ?_) ?_ ?_; clear_value zz; rotate_left; subst zz; rotate_left; subst zz; rotate_left) | (have := State.Good.isFun zz; clear this; subst zz) | clear_value zz) | with_reducible apply State.Good.ite | with_reducible apply State.hook_inv | with_reducible apply State.staticW_inv | with_reducible apply State.storeReg_inv | with_reducible apply State.Good.iteFst | with_reducible apply State.Good.iteSnd | with_reducible apply State.Good.iteLine | with_reducible apply State.Good.iteMeta | (with_reducible intro _ _ _) | (with_reducible intro _ _) | (show Mode.isBase _ = true; first | exact rfl | exact State.Good.base (by assumption) | exact State.Good.before (by assumption) | (with_reducible refine ModeSt.withPending_base ?_) | (with_reducible refine ModeSt.withPending_before ?_) | (with_reducible refine ModeSt.withBack_base ?_) | (with_reducible refine ModeSt.withBack_before ?_)) | split | (with_reducible refine State.Good.mk_of ?_; first | with_reducible refine State.Good.parts ?_ | refine State.Good.fromReset ?_ | refine State.Good.sameBase ?_ rfl rfl | refine GoodOf.filterMem _ (State.Good.parts ?_) | refine GoodOf.filterRegs _ (State.Good.parts ?_) | refine GoodOf.fillMem _ _ _ (State.Good.parts ?_) | refine GoodOf.insertRegs _ (State.Good.parts ?_) | refine State.Good.newBase ?_ ?_ ?_))

theorem State.writePair_inv (s : State) (p : Path) (x : RegAt) (v : Nat) (hI : s.Good wq) : (State.writePair s p x v).Good wq := by
  unfold State.writePair
  repeat' (first | with_reducible assumption | (extract_lets +onlyGivenNames zz; first | (refine State.Good.gen wq zz (fun _ => ?_) ?_; clear_value zz; rotate_left; subst zz; rotate_right) | clear_value zz) | with_reducible apply State.Good.ite | with_reducible apply State.clearReservations_inv | with_reducible apply State.incrWrite_inv | with_reducible apply State.stepWrite_inv | with_reducible apply State.tdataWrite_inv | with_reducible apply State.writeReg_inv | split)

theorem State.writeHi_inv (s : State) (p : Path) (x : RegAt) (d : Nat) (hI : s.Good wq) : (State.writeHi s p x d).Good wq := by
  unfold State.writeHi
  repeat' (first | with_reducible assumption | (extract_lets +onlyGivenNames zz; first | (refine State.Good.gen wq zz (fun _ => ?_) ?_; clear_value zz; rotate_left; subst zz; rotate_right) | clear_value zz) | with_reducible apply State.setPath_inv | with_reducible apply State.writePair_inv)

theorem State.writeAt_inv (s : State) (p : Path) (x : RegAt) (d : Nat) (hI : s.Good wq) : (State.writeAt s p x d).Good wq := by
  unfold State.writeAt
  repeat' (first | with_reducible assumption | (extract_lets +onlyGivenNames zz; first | (refine State.Good.gen wq zz (fun _ => ?_) ?_; clear_value zz; rotate_left; subst zz; rotate_right) | (refine State.Good.genFst wq zz (fun _ => ?_) ?_; clear_value zz; rotate_left; subst zz; rotate_right) | clear_value zz) | with_reducible apply State.Good.ite | with_reducible apply State.commitWrite_inv | with_reducible apply State.dbgRefuse_inv | with_reducible apply State.dbgUnlocked_inv | with_reducible apply State.flushDisabled_inv | with_reducible apply State.raise_inv | with_reducible apply State.setPath_inv | with_reducible apply State.writeHi_inv | with_reducible apply State.writeReg_inv | with_reducible apply State.keyWrite_at | split)

theorem State.msixWrite_inv (s : State) (off d : Nat) (hI : s.Good wq) : (State.msixWrite s off d).Good wq := by
  unfold State.msixWrite
  repeat' (first | with_reducible assumption | with_reducible apply State.Good.ite | with_reducible apply State.clear_inv | with_reducible apply State.setReg_inv | split | (with_reducible refine State.Good.mk_of ?_; with_reducible refine State.Good.parts ?_))

theorem State.busWrite_inv (s : State) (p : Path) (off d : Nat) (hI : s.Good wq) : (State.busWrite s p off d).Good wq := by
  unfold State.busWrite
  repeat' (first | with_reducible assumption | with_reducible apply State.Good.ite | with_reducible apply State.msixWrite_inv | with_reducible apply State.writeAt_inv | split)

theorem State.barWriteNow_inv (s : State) (p : Path) (off size : Nat) (d : BitVec 64) (hI : s.Good wq) : (State.barWriteNow s p off size d).Good wq := by
  unfold State.barWriteNow
  repeat' (first | with_reducible assumption | with_reducible apply State.Good.ite | with_reducible apply State.busWrite_inv | with_reducible apply State.hbError_inv)

theorem State.barWrite_inv (s : State) (p : Path) (off size : Nat) (d : BitVec 64) (hI : s.Good wq) : (State.barWrite s p off size d).Good wq := by
  unfold State.barWrite
  repeat' (first | with_reducible assumption | with_reducible apply State.Good.ite | with_reducible apply State.barWriteNow_inv | with_reducible apply State.holdAccess_inv)

theorem State.answerLate_inv (s : State) (hI : s.Good wq) : (State.answerLate s).Good wq := by
  unfold State.answerLate
  repeat' (first | with_reducible assumption | with_reducible apply State.bar2Pump_inv | with_reducible apply State.bar2Read_inv | with_reducible apply State.bar2Write_inv | with_reducible apply State.barReadNow_inv | with_reducible apply State.barWriteNow_inv | with_reducible apply State.Good.foldl | (with_reducible intro _ _ _) | split | (with_reducible refine State.Good.mk_of ?_; with_reducible refine State.Good.parts ?_))

theorem execRegisterWrite_inv (p : Path) (off : BitVec 24) (size : Nat) (d : BitVec 64) (s : State) (hI : s.Good wq) : Goes wq (execRegisterWrite p off size d s) := by
  unfold execRegisterWrite
  repeat' (first | with_reducible assumption | with_reducible apply Goes.next | with_reducible apply State.barWrite_inv)

theorem execHiWrite_inv (p : Path) (off : BitVec 24) (d : BitVec 32) (s : State) (hI : s.Good wq) : Goes wq (execHiWrite p off d s) := by
  unfold execHiWrite
  repeat' (first | with_reducible assumption | with_reducible apply Goes.next | with_reducible apply State.barWrite_inv)

theorem execLoRead_inv (p : Path) (off : BitVec 24) (size : Nat) (s : State) (hI : s.Good wq) : Goes wq (execLoRead p off size s) := by
  unfold execLoRead
  repeat' (first | with_reducible assumption | with_reducible apply Goes.next | with_reducible apply State.barRead_inv)

theorem execRcRead_inv (p : Path) (off : BitVec 24) (s : State) (hI : s.Good wq) : Goes wq (execRcRead p off s) := by
  unfold execRcRead
  repeat' (first | with_reducible assumption | with_reducible apply Goes.next | with_reducible apply State.barRead_inv)

theorem State.commitCmd_inv (s : State) (p : Path) (off v : Nat) (hI : s.Good wq) : (State.commitCmd s p off v).Good wq := by
  unfold State.commitCmd
  repeat' (first | with_reducible assumption | with_reducible apply State.barWrite_inv | with_reducible apply State.flushDisabled_inv | split)

theorem execCommitGo_inv (p : Path) (off : BitVec 24) (hold : Bool) (s : State) (hI : s.Good wq) : Goes wq (execCommitGo p off hold s) := by
  unfold execCommitGo
  repeat' (first | with_reducible assumption | with_reducible apply Goes.next | with_reducible apply State.commitCmd_inv)

theorem execCommitDiscard_inv (p : Path) (off : BitVec 24) (hold go : Bool) (s : State) (hI : s.Good wq) : Goes wq (execCommitDiscard p off hold go s) := by
  unfold execCommitDiscard
  repeat' (first | with_reducible assumption | with_reducible apply Goes.next | with_reducible apply State.commitCmd_inv)

theorem execDbgReg_inv (w : BitVec 58) (s : State) (hI : s.Good wq) : Goes wq (execDbgReg w s) := by
  unfold execDbgReg
  repeat' (first | with_reducible assumption | with_reducible apply State.Good.ite | with_reducible apply Goes.next | with_reducible apply State.busWrite_inv | with_reducible apply State.busRead_at | with_reducible apply State.Good.iteFst | (with_reducible refine State.Good.mk_of ?_; with_reducible refine State.Good.parts ?_))

theorem execReqStop_inv (s : State) (hI : s.Good wq) : Goes wq (execReqStop s) := by
  unfold execReqStop
  repeat' (first | with_reducible assumption | with_reducible apply Goes.next | with_reducible apply State.flushDisabled_inv | with_reducible apply State.reqStop_inv)

theorem execReqUnload_inv (s : State) (hI : s.Good wq) : Goes wq (execReqUnload s) := by
  unfold execReqUnload
  repeat' (first | with_reducible assumption | with_reducible apply Goes.next | with_reducible apply State.flushDisabled_inv | with_reducible apply State.reqUnload_inv)

theorem execReqRelease_inv (checks : List LineCheck) (s : State) (hI : s.Good wq) : Goes wq (execReqRelease checks s) := by
  unfold execReqRelease
  repeat' (first | with_reducible assumption | with_reducible apply State.Good.ite | with_reducible apply Goes.next | with_reducible apply State.answerLate_inv | with_reducible apply State.flushDisabled_inv | with_reducible apply State.reqRelease_inv)

theorem execWakeComplete_inv (s : State) (hI : s.Good wq) : Goes wq (execWakeComplete s) := by
  unfold execWakeComplete
  repeat' (first | with_reducible assumption | with_reducible apply State.Good.ite | with_reducible apply Goes.next | with_reducible apply State.answerLate_inv | with_reducible apply State.wakeComplete_inv)

theorem execLockTimeout_inv (s : State) (hI : s.Good wq) : Goes wq (execLockTimeout s) := by
  unfold execLockTimeout
  repeat' (first | with_reducible assumption | with_reducible apply Goes.next | with_reducible apply State.flushDisabled_inv | with_reducible apply State.lockTimeout_inv)

theorem execValleyEntry_inv (s : State) (hI : s.Good wq) : Goes wq (execValleyEntry s) := by
  unfold execValleyEntry
  repeat' (first | with_reducible assumption | with_reducible apply Goes.next | with_reducible apply State.flushDisabled_inv | with_reducible apply State.valleyEntry_inv)

theorem execDomainDrain_inv (d : Fin 41) (s : State) (hI : s.Good wq) : Goes wq (execDomainDrain d s) := by
  unfold execDomainDrain
  repeat' (first | with_reducible assumption | with_reducible apply Goes.next | with_reducible apply State.domainDrain_inv | with_reducible apply State.flushDisabled_inv)

theorem execDrainTimeout_inv (d : Fin 41) (s : State) (hI : s.Good wq) : Goes wq (execDrainTimeout d s) := by
  unfold execDrainTimeout
  repeat' (first | with_reducible assumption | with_reducible apply State.Good.ite | with_reducible apply Goes.next | with_reducible apply State.drainTimeout_inv | with_reducible apply State.flushDisabled_inv | with_reducible apply State.isolateReady_inv)

theorem execReshapeWrite_inv (f : FieldNo) (s : State) (hI : s.Good wq) : Goes wq (execReshapeWrite f s) := by
  unfold execReshapeWrite
  repeat' (first | with_reducible assumption | with_reducible apply Goes.next | with_reducible apply State.flushDisabled_inv | with_reducible apply State.reshapeDrained_inv)

theorem execChannelDisable_inv (c : Fin 8) (s : State) (hI : s.Good wq) : Goes wq (execChannelDisable c s) := by
  unfold execChannelDisable
  repeat' (first | with_reducible assumption | with_reducible apply Goes.next | with_reducible apply State.channelDisable_inv | with_reducible apply State.flushDisabled_inv)

theorem execOp_inv (s : State) (hI : s.Good wq) : Goes wq (execOp s) := by
  unfold execOp
  repeat' (first | with_reducible assumption | with_reducible apply Goes.next | with_reducible apply State.flushDisabled_inv | with_reducible apply State.opLoop_inv)

theorem execShed_inv (s : State) (hI : s.Good wq) : Goes wq (execShed s) := by
  unfold execShed
  repeat' (first | with_reducible assumption | with_reducible apply Goes.next | with_reducible apply State.flushDisabled_inv | with_reducible apply State.shedLoop_inv)

end Sys2Proof.Machine
end

