-- ==== Sys2Proof/Laws/KeepTick.lean ====
section
/-! SUPPORT. Every operation keeps the invariant and the commands that wait: responses, the tick and the idle step.
One lemma for each operation that answers a state (`_inv`, and `_at` for the state inside a larger answer); of a command the lemma says that it completes (`Goes`). -/
namespace Sys2Proof.Machine
variable {wq : List Instr}

/-! Machine/Responses.lean -/

theorem State.cfgAccess_inv (s : State) (n : Nat) (pkt : List Carriage) (hI : s.Good wq) : (State.cfgAccess s n pkt).Good wq := by
  unfold State.cfgAccess
  repeat' (first | with_reducible assumption | (extract_lets +onlyGivenNames zz; first | (refine State.Good.genFst wq zz (fun _ => ?_) ?_; clear_value zz; rotate_left; subst zz; rotate_right) | clear_value zz) | with_reducible apply State.Good.ite | with_reducible apply State.busWrite_inv | with_reducible apply State.reply_inv | with_reducible apply State.replyFail_inv | with_reducible apply State.replyOne_inv | with_reducible apply State.busRead_at)

theorem State.cfgAt_inv (s : State) (n : Nat) (pkt : List Carriage) (hI : s.Good wq) : Keeps wq (State.cfgAt s n pkt) := by
  unfold State.cfgAt
  repeat' (first | with_reducible assumption | (extract_lets +onlyGivenNames zz; first | (refine State.Good.gen wq zz (fun _ => ?_) ?_; clear_value zz; rotate_left; subst zz; rotate_right) | (refine State.Good.genFst wq zz (fun _ => ?_) ?_; clear_value zz; rotate_left; subst zz; rotate_right) | (refine State.Good.genSnd wq zz (fun _ => ?_) ?_; clear_value zz; rotate_left; subst zz; rotate_right) | (refine State.Good.genLine wq zz (fun _ => ?_) ?_; clear_value zz; rotate_left; subst zz; rotate_right) | (refine State.Good.genMeta wq zz (fun _ => ?_) ?_; clear_value zz; rotate_left; subst zz; rotate_right) | (refine State.Good.genRes wq zz (fun _ => ?_) ?_; clear_value zz; rotate_left; subst zz; rotate_right) | (refine State.Good.genWrite wq zz (fun _ => ?_) ?_; clear_value zz; rotate_left; subst zz; rotate_right) | (refine State.Good.genIngest wq zz (fun _ => ?_) ?_; clear_value zz; rotate_left; subst zz; rotate_right) | (refine State.Good.genOut wq zz (fun _ => ?_) ?_; clear_value zz; rotate_left; subst zz; rotate_right) | (refine State.Good.genBuild wq zz (fun _ => ?_) ?_; clear_value zz; rotate_left; subst zz; rotate_right) | (refine State.Good.genTaken wq zz (fun _ => ?_) ?_; clear_value zz; rotate_left; subst zz; rotate_right) | (refine State.Good.genMode wq zz (fun _ _ => ?_) ?_ ?_; clear_value zz; rotate_left; subst zz; rotate_left; subst zz; rotate_left) | (have := State.Good.isFun zz; clear this; subst zz) | clear_value zz) | with_reducible apply State.Good.ite | with_reducible exact Keeps.none | with_reducible apply Keeps.ite | with_reducible apply Keeps.some | with_reducible apply State.atTarget_inv | with_reducible apply State.cfgAccess_inv | with_reducible apply State.replyFail_inv | (refine (State.atTarget_inv _ _ _ ?_) _ (by with_reducible assumption)) | with_reducible apply State.Good.iteFst | with_reducible apply State.Good.iteSnd | with_reducible apply State.Good.iteLine | with_reducible apply State.Good.iteMeta | (with_reducible intro _ _ _) | (with_reducible intro _ _) | (show Mode.isBase _ = true; first | exact rfl | exact State.Good.base (by assumption) | exact State.Good.before (by assumption) | (with_reducible refine ModeSt.withPending_base ?_) | (with_reducible refine ModeSt.withPending_before ?_) | (with_reducible refine ModeSt.withBack_base ?_) | (with_reducible refine ModeSt.withBack_before ?_)) | split | (with_reducible refine State.Good.mk_of ?_; first | with_reducible refine State.Good.parts ?_ | refine State.Good.fromReset ?_ | refine State.Good.sameBase ?_ rfl rfl | refine GoodOf.filterMem _ (State.Good.parts ?_) | refine GoodOf.filterRegs _ (State.Good.parts ?_) | refine GoodOf.fillMem _ _ _ (State.Good.parts ?_) | refine GoodOf.insertRegs _ (State.Good.parts ?_) | refine State.Good.newBase ?_ ?_ ?_))

theorem execCfg_inv (n : NodeNo) (s : State) (hI : s.Good wq) : Goes wq (execCfg n s) := by
  unfold execCfg
  repeat' (first | with_reducible assumption | with_reducible apply Goes.next | with_reducible apply State.cfgAt_inv | with_reducible apply State.request_inv | (with_reducible intro _ _ _))

theorem State.freeTracker_inv (s : State) (n : Nat) (seq : BitVec 16) (hI : s.Good wq) : (State.freeTracker s n seq).Good wq := by
  unfold State.freeTracker
  repeat' (first | with_reducible assumption | with_reducible apply State.setNi_inv)

theorem State.hand_inv (s : State) (n : Nat) (t : Tracker) (isLocal : Bool) (pkt : List Carriage) (hI : s.Good wq) : (State.hand s n t isLocal pkt).Good wq := by
  unfold State.hand
  repeat' (first | with_reducible assumption | (extract_lets +onlyGivenNames zz; first | (refine State.Good.gen wq zz (fun _ => ?_) ?_; clear_value zz; rotate_left; subst zz; rotate_right) | (refine State.Good.genFst wq zz (fun _ => ?_) ?_; clear_value zz; rotate_left; subst zz; rotate_right) | (refine State.Good.genSnd wq zz (fun _ => ?_) ?_; clear_value zz; rotate_left; subst zz; rotate_right) | (refine State.Good.genLine wq zz (fun _ => ?_) ?_; clear_value zz; rotate_left; subst zz; rotate_right) | (refine State.Good.genMeta wq zz (fun _ => ?_) ?_; clear_value zz; rotate_left; subst zz; rotate_right) | (refine State.Good.genRes wq zz (fun _ => ?_) ?_; clear_value zz; rotate_left; subst zz; rotate_right) | (refine State.Good.genWrite wq zz (fun _ => ?_) ?_; clear_value zz; rotate_left; subst zz; rotate_right) | (refine State.Good.genIngest wq zz (fun _ => ?_) ?_; clear_value zz; rotate_left; subst zz; rotate_right) | (refine State.Good.genOut wq zz (fun _ => ?_) ?_; clear_value zz; rotate_left; subst zz; rotate_right) | (refine State.Good.genBuild wq zz (fun _ => ?_) ?_; clear_value zz; rotate_left; subst zz; rotate_right) | (refine State.Good.genTaken wq zz (fun _ => ?_) ?_; clear_value zz; rotate_left; subst zz; rotate_right) | (refine State.Good.genMode wq zz (fun _ _ => ?_) ?_ ?_; clear_value zz; rotate_left; subst zz; rotate_left; subst zz; rotate_left) | (have := State.Good.isFun zz; clear this; subst zz) | clear_value zz) | with_reducible apply State.Good.ite | with_reducible apply State.accDone_inv | with_reducible apply State.bar2Answer_inv | with_reducible apply State.bar2WriteDone_inv | with_reducible apply State.bump_inv | with_reducible apply State.descAnswer_inv | with_reducible apply State.linkReturn_inv | with_reducible apply State.rxItem_inv | with_reducible apply State.slot_inv | with_reducible apply State.snapAck_inv | with_reducible apply State.ttWriteDone_inv | with_reducible apply State.Good.iteFst | with_reducible apply State.Good.iteSnd | with_reducible apply State.Good.iteLine | with_reducible apply State.Good.iteMeta | (with_reducible intro _ _ _) | (with_reducible intro _ _) | (show Mode.isBase _ = true; first | exact rfl | exact State.Good.base (by assumption) | exact State.Good.before (by assumption) | (with_reducible refine ModeSt.withPending_base ?_) | (with_reducible refine ModeSt.withPending_before ?_) | (with_reducible refine ModeSt.withBack_base ?_) | (with_reducible refine ModeSt.withBack_before ?_)) | split | (with_reducible refine State.Good.mk_of ?_; first | with_reducible refine State.Good.parts ?_ | refine State.Good.fromReset ?_ | refine State.Good.sameBase ?_ rfl rfl | refine GoodOf.filterMem _ (State.Good.parts ?_) | refine GoodOf.filterRegs _ (State.Good.parts ?_) | refine GoodOf.fillMem _ _ _ (State.Good.parts ?_) | refine GoodOf.insertRegs _ (State.Good.parts ?_) | refine State.Good.newBase ?_ ?_ ?_))

theorem State.noteWrite_inv (s : State) (n : Nat) (t : Tracker) (status : Nat) (hI : s.Good wq) : (State.noteWrite s n t status).Good wq := by
  unfold State.noteWrite
  repeat' (first | with_reducible assumption | with_reducible apply State.Good.ite | with_reducible apply State.setNi_inv)

theorem State.goOn_inv (s : State) (n : Nat) (hI : s.Good wq) : (State.goOn s n).Good wq := by
  unfold State.goOn
  repeat' (first | with_reducible assumption | with_reducible apply State.Good.ite | with_reducible apply State.bar2Pump_inv | with_reducible apply State.drainPort_inv | with_reducible apply State.forwardEvents_inv | with_reducible apply State.groupDeliver_inv | with_reducible apply State.matrixSend_inv | with_reducible apply State.pump_inv | with_reducible apply State.snapPump_inv)

theorem execRegulatedInject_inv (n : NodeNo) (elapsed : Nat) (s : State) (hI : s.Good wq) : Goes wq (execRegulatedInject n elapsed s) := by
  unfold execRegulatedInject
  repeat' (first | with_reducible assumption | with_reducible apply Goes.next | with_reducible apply State.Good.ite | with_reducible apply State.goOn_inv | with_reducible apply State.regulated_inv)

theorem State.settle_inv (s : State) (n : Nat) (t : Tracker) (isLocal : Bool) (pkt : List Carriage) (hI : s.Good wq) : (State.settle s n t isLocal pkt).Good wq := by
  unfold State.settle
  repeat' (first | with_reducible assumption | (extract_lets +onlyGivenNames zz; (refine State.Good.gen wq zz (fun _ => ?_) ?_; clear_value zz; rotate_left; subst zz; rotate_right)) | with_reducible apply State.Good.ite | with_reducible apply State.freeTracker_inv | with_reducible apply State.goOn_inv | with_reducible apply State.hand_inv | with_reducible apply State.noteWrite_inv)

theorem State.dropResponse_inv (s : State) (n : Nat) (pkt : List Carriage) (hI : s.Good wq) : (State.dropResponse s n pkt).Good wq := by
  unfold State.dropResponse
  repeat' (first | with_reducible assumption | with_reducible apply State.setNi_inv)

theorem State.orphans_inv (s : State) (n : Nat) (pkt : List Carriage) (hI : s.Good wq) : (State.orphans s n pkt).Good wq := by
  unfold State.orphans
  repeat' (first | with_reducible assumption | with_reducible apply State.orphan_inv | with_reducible apply State.Good.foldl | (with_reducible intro _ _ _))

theorem State.response_inv (s : State) (n typ : Nat) (g : State → List Carriage → State) (hI : s.Good wq) (hg : ∀ x0 x1, x0.Good wq → (g x0 x1).Good wq) : (State.response s n typ g).Good wq := by
  unfold State.response
  repeat' (first | with_reducible assumption | with_reducible apply State.Good.ite | with_reducible apply State.bounceBack_inv | with_reducible apply State.dropResponse_inv | with_reducible apply State.orphans_inv | with_reducible apply hg | split)

theorem State.answered_inv (s : State) (n : Nat) (pkt : List Carriage) (hI : s.Good wq) : (State.answered s n pkt).Good wq := by
  unfold State.answered
  repeat' (first | with_reducible assumption | with_reducible apply State.orphans_inv | with_reducible apply State.settle_inv | split)

theorem execRdResp_inv (n : NodeNo) (s : State) (hI : s.Good wq) : Goes wq (execRdResp n s) := by
  unfold execRdResp
  repeat' (first | with_reducible assumption | with_reducible apply Goes.next | with_reducible apply State.answered_inv | with_reducible apply State.response_inv | (with_reducible intro _ _ _))

theorem execWrAck_inv (n : NodeNo) (s : State) (hI : s.Good wq) : Goes wq (execWrAck n s) := by
  unfold execWrAck
  repeat' (first | with_reducible assumption | with_reducible apply Goes.next | with_reducible apply State.answered_inv | with_reducible apply State.response_inv | (with_reducible intro _ _ _))

theorem execAtomicResp_inv (n : NodeNo) (s : State) (hI : s.Good wq) : Goes wq (execAtomicResp n s) := by
  unfold execAtomicResp
  repeat' (first | with_reducible assumption | with_reducible apply Goes.next | with_reducible apply State.answered_inv | with_reducible apply State.response_inv | (with_reducible intro _ _ _))

theorem execFenceAck_inv (n : NodeNo) (s : State) (hI : s.Good wq) : Goes wq (execFenceAck n s) := by
  unfold execFenceAck
  repeat' (first | with_reducible assumption | with_reducible apply Goes.next | with_reducible apply State.answered_inv | with_reducible apply State.response_inv | (with_reducible intro _ _ _))

theorem State.retryAlt_inv (s : State) (n : Nat) (t : Tracker) (hI : s.Good wq) : (State.retryAlt s n t).Good wq := by
  unfold State.retryAlt
  repeat' (first | with_reducible assumption | with_reducible apply State.bump_inv | with_reducible apply State.pump_inv | with_reducible apply State.setNi_inv)

theorem State.breakStream_inv (s : State) (n e : Nat) (hI : s.Good wq) : (State.breakStream s n e).Good wq := by
  unfold State.breakStream
  repeat' (first | with_reducible assumption | with_reducible apply State.niError_inv | with_reducible apply State.refuseOrd_inv | with_reducible apply State.setNi_inv | with_reducible apply State.settle_inv | with_reducible apply State.Good.foldl | (with_reducible intro _ _ _) | split | (with_reducible refine State.Good.mk_of ?_; with_reducible refine State.Good.parts ?_))

theorem State.bounced_inv (s : State) (n : Nat) (pkt : List Carriage) (hI : s.Good wq) : (State.bounced s n pkt).Good wq := by
  unfold State.bounced
  repeat' (first | with_reducible assumption | (extract_lets +onlyGivenNames zz; first | (refine State.Good.gen wq zz (fun _ => ?_) ?_; clear_value zz; rotate_left; subst zz; rotate_right) | clear_value zz) | with_reducible apply State.Good.ite | with_reducible apply State.absorb_inv | with_reducible apply State.breakStream_inv | with_reducible apply State.bump_inv | with_reducible apply State.orphans_inv | with_reducible apply State.retryAlt_inv | with_reducible apply State.settle_inv | with_reducible apply State.Good.foldl | (with_reducible intro _ _ _) | split)

theorem execBounce_inv (n : NodeNo) (s : State) (hI : s.Good wq) : Goes wq (execBounce n s) := by
  unfold execBounce
  repeat' (first | with_reducible assumption | with_reducible apply Goes.next | with_reducible apply State.bounced_inv | with_reducible apply State.response_inv | (with_reducible intro _ _ _))

theorem State.requestTimeout_inv (s : State) (n : Nat) (seq : BitVec 16) (hI : s.Good wq) : (State.requestTimeout s n seq).Good wq := by
  unfold State.requestTimeout
  repeat' (first | with_reducible assumption | (extract_lets +onlyGivenNames zz; (refine State.Good.gen wq zz (fun _ => ?_) ?_; clear_value zz; rotate_left; subst zz; rotate_right)) | with_reducible apply State.Good.ite | with_reducible apply State.bump_inv | with_reducible apply State.niError_inv | with_reducible apply State.settle_inv | split)

theorem execRequestTimeout_inv (n : NodeNo) (seq : BitVec 16) (s : State) (hI : s.Good wq) : Goes wq (execRequestTimeout n seq s) := by
  unfold execRequestTimeout
  repeat' (first | with_reducible assumption | with_reducible apply Goes.next | with_reducible apply State.requestTimeout_inv)

theorem State.fenceRelease_inv (s : State) (n : Nat) (hI : s.Good wq) : (State.fenceRelease s n).Good wq := by
  unfold State.fenceRelease
  repeat' (first | with_reducible assumption | (extract_lets +onlyGivenNames zz; first | (refine State.Good.gen wq zz (fun _ => ?_) ?_; clear_value zz; rotate_left; subst zz; rotate_right) | clear_value zz) | with_reducible apply State.Good.ite | with_reducible apply State.absorb_inv | with_reducible apply State.goOn_inv | with_reducible apply State.niError_inv | with_reducible apply State.setNi_inv | with_reducible apply State.settle_inv | split)

theorem execFenceRelease_inv (n : NodeNo) (s : State) (hI : s.Good wq) : Goes wq (execFenceRelease n s) := by
  unfold execFenceRelease
  repeat' (first | with_reducible assumption | with_reducible apply State.Good.ite | with_reducible apply Goes.next | with_reducible apply State.fenceRelease_inv)

/-! Machine/Tick.lean -/

theorem State.tickNumber_inv (s : State) (r : Nat) (hI : s.Good wq) : (State.tickNumber s r).Good wq := by
  unfold State.tickNumber
  repeat' (first | with_reducible assumption | with_reducible apply State.advanceTo_inv | (with_reducible refine State.Good.mk_of ?_; with_reducible refine State.Good.parts ?_))

theorem State.tickEdge_inv (s : State) (r : Nat) (hI : s.Good wq) : (State.tickEdge s r).Good wq := by
  unfold State.tickEdge
  repeat' (first | with_reducible assumption | with_reducible apply State.Good.ite | with_reducible apply State.raise_inv | with_reducible apply State.tickNumber_inv | with_reducible apply State.wdLoad_inv)

theorem State.wdTick_inv (s : State) (hI : s.Good wq) : (State.wdTick s).Good wq := by
  unfold State.wdTick
  repeat' (first | with_reducible assumption | with_reducible apply State.Good.ite | with_reducible apply State.clear_inv | with_reducible apply State.put_inv)

theorem State.tickModes_inv (s : State) (hI : s.Good wq) : (State.tickModes s).Good wq := by
  unfold State.tickModes
  repeat' (first | with_reducible assumption | with_reducible apply State.Good.ite | with_reducible apply State.enterMode_inv | (show Mode.isBase _ = true; first | exact rfl | exact State.Good.before (by assumption)))

theorem State.commitProtected_inv (s : State) (f : Nat) (hI : s.Good wq) : (State.commitProtected s f).Good wq := by
  unfold State.commitProtected
  repeat' (first | with_reducible assumption | with_reducible apply State.clear_inv | with_reducible apply State.releaseNis_inv | with_reducible apply State.setFld_inv | (with_reducible refine State.Good.mk_of ?_; with_reducible refine State.Good.parts ?_))

theorem State.dropFailed_inv (s : State) (f : Nat) (hI : s.Good wq) : (State.dropFailed s f).Good wq := by
  unfold State.dropFailed
  repeat' (first | with_reducible assumption | with_reducible apply State.Good.ite | with_reducible apply State.clear_inv | with_reducible apply State.commitProtected_inv | with_reducible apply State.discardHeld_inv | with_reducible apply State.rewindFabric_inv | with_reducible apply State.rewindNis_inv | with_reducible apply State.setFld_inv)

theorem State.releaseFrame_inv (s : State) (f : Nat) (hI : s.Good wq) : (State.releaseFrame s f).Good wq := by
  unfold State.releaseFrame
  repeat' (first | with_reducible assumption | with_reducible apply State.Good.ite | with_reducible apply State.commitProtected_inv | with_reducible apply State.dropFailed_inv | with_reducible apply State.setFld_inv)

theorem State.crossTick_inv (s : State) (f : Nat) (hI : s.Good wq) : (State.crossTick s f).Good wq := by
  unfold State.crossTick
  repeat' (first | with_reducible assumption | with_reducible apply State.setFld_inv)

theorem State.guardsPass_inv (s : State) (f : Nat) (hI : s.Good wq) : (State.guardsPass s f).Good wq := by
  unfold State.guardsPass
  repeat' (first | with_reducible assumption | with_reducible apply State.Good.ite | with_reducible apply State.guard1_inv | with_reducible apply State.guard2_inv)

theorem State.endFrame_inv (s : State) (f : Nat) (hI : s.Good wq) : (State.endFrame s f).Good wq := by
  unfold State.endFrame
  repeat' (first | with_reducible assumption | with_reducible apply State.Good.ite | with_reducible apply State.becomeStuck_inv | with_reducible apply State.bump_inv | with_reducible apply State.captureShadows_inv | with_reducible apply State.comeTo_inv | with_reducible apply State.crossTick_inv | with_reducible apply State.dropFailed_inv | with_reducible apply State.overrun_inv | with_reducible apply State.releaseFrame_inv | with_reducible apply State.setFld_inv | split | (with_reducible refine State.Good.mk_of ?_; with_reducible refine State.Good.parts ?_))

theorem State.stopFrames_inv (s : State) (hI : s.Good wq) : (State.stopFrames s).Good wq := by
  unfold State.stopFrames
  repeat' (first | with_reducible assumption | with_reducible apply State.Good.ite | with_reducible apply State.fieldStuck_inv | with_reducible apply State.forEach_inv | with_reducible apply State.setFld_inv | (with_reducible intro _ _ _))

theorem State.haltAtTick_inv (s : State) (src : Nat) (hI : s.Good wq) : (State.haltAtTick s src).Good wq := by
  unfold State.haltAtTick
  repeat' (first | with_reducible assumption | with_reducible apply State.enterHalt_inv | with_reducible apply State.rejectDrain_inv | with_reducible apply State.stopFrames_inv)

theorem State.stopAtTick_inv (s : State) (hI : s.Good wq) : (State.stopAtTick s).Good wq := by
  unfold State.stopAtTick
  repeat' (first | with_reducible assumption | (extract_lets +onlyGivenNames zz; first | (refine State.Good.gen wq zz (fun _ => ?_) ?_; clear_value zz; rotate_left; subst zz; rotate_right) | (refine State.Good.genMode wq zz (fun _ _ => ?_) ?_ ?_; clear_value zz; rotate_left; subst zz; rotate_left; subst zz; rotate_left) | clear_value zz) | with_reducible apply State.Good.ite | with_reducible apply State.bump_inv | with_reducible apply State.enterMode_inv | with_reducible apply State.forEach_inv | with_reducible apply State.initFabric_inv | with_reducible apply State.setFld_inv | with_reducible apply State.stopFrames_inv | with_reducible apply State.stuckNis_inv | (with_reducible intro _ _ _) | (show Mode.isBase _ = true; first | exact rfl | exact State.Good.base (by assumption) | exact State.Good.before (by assumption)))

theorem State.tickDrains_inv (s : State) (hI : s.Good wq) : (State.tickDrains s).Good wq := by
  unfold State.tickDrains
  repeat' (first | with_reducible assumption | with_reducible apply State.Good.ite | with_reducible apply State.enterValley_inv | with_reducible apply State.haltAtTick_inv | with_reducible apply State.stopAtTick_inv | with_reducible apply State.stopFrames_inv | split)

theorem State.tickCommits_inv (s : State) (hI : s.Good wq) : (State.tickCommits s).Good wq := by
  unfold State.tickCommits
  repeat' (first | with_reducible assumption | with_reducible apply State.commitTick_inv | with_reducible apply State.forEach_inv | with_reducible apply State.Good.foldl | (with_reducible intro _ _ _))

theorem State.tickNext_inv (s : State) (r : Nat) (hI : s.Good wq) : (State.tickNext s r).Good wq := by
  unfold State.tickNext
  repeat' (first | with_reducible assumption | (with_reducible refine State.Good.mk_of ?_; with_reducible refine State.Good.parts ?_))

theorem State.tickPoints_inv (s : State) (r : Nat) (hI : s.Good wq) : (State.tickPoints s r).Good wq := by
  unfold State.tickPoints
  repeat' (first | with_reducible assumption | (extract_lets +onlyGivenNames zz; (refine State.Good.gen wq zz (fun _ => ?_) ?_; clear_value zz; rotate_left; subst zz; rotate_right)) | with_reducible apply State.Good.ite | with_reducible apply State.opSwitch_inv | with_reducible apply State.takeAsked_inv | with_reducible apply State.tickCommits_inv | with_reducible apply State.tickNext_inv)

theorem State.tickResume_inv (s : State) (hI : s.Good wq) : (State.tickResume s).Good wq := by
  unfold State.tickResume
  repeat' (first | with_reducible assumption | (extract_lets +onlyGivenNames zz; first | (refine State.Good.gen wq zz (fun _ => ?_) ?_; clear_value zz; rotate_left; subst zz; rotate_right) | (refine State.Good.genMode wq zz (fun _ _ => ?_) ?_ ?_; clear_value zz; rotate_left; subst zz; rotate_left; subst zz; rotate_left) | clear_value zz) | with_reducible apply State.Good.ite | with_reducible apply State.post_inv | with_reducible apply State.powerChange_inv | with_reducible apply State.raise_inv | with_reducible apply State.resumeMode_inv | with_reducible apply State.resumePrepare_inv | with_reducible apply State.wdLoad_inv | (show Mode.isBase _ = true; first | exact State.Good.base (by assumption) | exact State.Good.before (by assumption) | (with_reducible refine ModeSt.withPending_base ?_) | (with_reducible refine ModeSt.withPending_before ?_) | (with_reducible refine ModeSt.withBack_base ?_) | (with_reducible refine ModeSt.withBack_before ?_)) | split | (with_reducible refine State.Good.mk_of ?_; with_reducible refine State.Good.parts ?_))

theorem State.openField_inv (s : State) (f : Nat) (hI : s.Good wq) : (State.openField s f).Good wq := by
  unfold State.openField
  repeat' (first | with_reducible assumption | with_reducible apply State.clear_inv | with_reducible apply State.put_inv | with_reducible apply State.setFld_inv)

theorem State.beginFrame_inv (s : State) (f : Nat) (hI : s.Good wq) : (State.beginFrame s f).Good wq := by
  unfold State.beginFrame
  repeat' (first | with_reducible assumption | (extract_lets +onlyGivenNames zz; first | (refine State.Good.gen wq zz (fun _ => ?_) ?_; clear_value zz; rotate_left; subst zz; rotate_right) | clear_value zz) | with_reducible apply State.Good.ite | with_reducible apply State.bump_inv | with_reducible apply State.commitTick_inv | with_reducible apply State.initFabric_inv | with_reducible apply State.openField_inv | with_reducible apply State.snapStart_inv | with_reducible apply State.stuckNis_inv | split)

theorem State.countLost_inv (s : State) (hI : s.Good wq) : (State.countLost s).Good wq := by
  unfold State.countLost
  repeat' (first | with_reducible assumption | with_reducible apply State.Good.ite | (with_reducible refine State.Good.mk_of ?_; refine State.Good.sameBase ?_ rfl rfl))

theorem State.tickEnds_inv (s : State) (hI : s.Good wq) : (State.tickEnds s).Good wq := by
  unfold State.tickEnds
  repeat' (first | with_reducible assumption | with_reducible apply State.Good.ite | with_reducible apply State.endFrame_inv | with_reducible apply State.forEach_inv | with_reducible apply State.guardsPass_inv | with_reducible apply State.reshapeStops_inv)

theorem State.endSweeps_inv (s : State) (hI : s.Good wq) : (State.endSweeps s).Good wq := by
  unfold State.endSweeps
  repeat' (first | with_reducible assumption | (with_reducible refine State.Good.mk_of ?_; with_reducible refine State.Good.parts ?_))

theorem State.tickBegins_inv (s : State) (hI : s.Good wq) : (State.tickBegins s).Good wq := by
  unfold State.tickBegins
  repeat' (first | with_reducible assumption | with_reducible apply State.beginFrame_inv | with_reducible apply State.forEach_inv)

theorem State.tickAt_inv (s : State) (r : Nat) (hI : s.Good wq) : (State.tickAt s r).Good wq := by
  unfold State.tickAt
  repeat' (first | with_reducible assumption | (extract_lets +onlyGivenNames zz; (refine State.Good.gen wq zz (fun _ => ?_) ?_; clear_value zz; rotate_left; subst zz; rotate_right)) | with_reducible apply State.Good.ite | with_reducible apply State.banksBack_inv | with_reducible apply State.countLost_inv | with_reducible apply State.endSweeps_inv | with_reducible apply State.flushDisabled_inv | with_reducible apply State.forEach_inv | with_reducible apply State.lcWindow_inv | with_reducible apply State.openFrame_inv | with_reducible apply State.reshapeCommits_inv | with_reducible apply State.tickBegins_inv | with_reducible apply State.tickDrains_inv | with_reducible apply State.tickEdge_inv | with_reducible apply State.tickEnds_inv | with_reducible apply State.tickModes_inv | with_reducible apply State.tickPoints_inv | with_reducible apply State.tickResume_inv | with_reducible apply State.wdTick_inv)

theorem State.tickStep_inv (s : State) (hI : s.Good wq) : (State.tickStep s).Good wq := by
  unfold State.tickStep
  repeat' (first | with_reducible assumption | with_reducible apply State.tickAt_inv | split)

theorem execTick_inv (s : State) (hI : s.Good wq) : Goes wq (execTick s) := by
  unfold execTick
  repeat' (first | with_reducible assumption | with_reducible apply Goes.next | with_reducible apply State.tickStep_inv)

/-! Machine/Windows.lean -/

theorem execWake_inv (col : Fin 64) (s : State) (hI : s.Good wq) : Goes wq (execWake col s) := by
  unfold execWake
  repeat' (first | with_reducible assumption | with_reducible apply Goes.next | with_reducible apply State.ttPerform_inv | with_reducible apply State.wakeFrom_inv | (with_reducible intro _ _ _))

theorem State.actEvent_inv (s : State) (t : TtTaken) (hI : s.Good wq) : (State.actEvent s t).Good wq := by
  unfold State.actEvent
  repeat' (first | with_reducible assumption | with_reducible apply State.Good.ite | with_reducible apply State.laneWindow_inv | with_reducible apply State.maintWindow_inv | with_reducible apply State.postAt_inv | split)

theorem execTtEvent_inv (col : Fin 64) (s : State) (hI : s.Good wq) : Goes wq (execTtEvent col s) := by
  unfold execTtEvent
  repeat' (first | with_reducible assumption | with_reducible apply Goes.next | with_reducible apply State.actEvent_inv | with_reducible apply State.ttPerform_inv)

theorem State.reshapeGo_inv (s : State) (hI : s.Good wq) : (State.reshapeGo s).Good wq := by
  unfold State.reshapeGo
  repeat' (first | with_reducible assumption | with_reducible apply State.Good.ite | with_reducible apply State.logEntry_inv | with_reducible apply State.setLoad_inv | split)

theorem execReshapeGo_inv (col : Fin 64) (s : State) (hI : s.Good wq) : Goes wq (execReshapeGo col s) := by
  unfold execReshapeGo
  repeat' (first | with_reducible assumption | with_reducible apply Goes.next | with_reducible apply State.reshapeGo_inv | with_reducible apply State.ttPerform_inv | (with_reducible intro _ _ _))

/-! Machine/Step.lean -/

theorem State.idle_inv (s : State) (hI : s.Good wq) : (State.idle s).Good wq := by
  unfold State.idle
  repeat' (first | with_reducible assumption | with_reducible apply State.Good.ite | with_reducible apply State.advance_inv | with_reducible apply State.forEach_inv | with_reducible apply State.resumePort_inv)

end Sys2Proof.Machine
end

