-- ==== Sys2Proof/Laws/SaveArea.lean ====
section
/-! SUPPORT. What a read of a field's save area does while the channels run and no region, exclusion, remap or erasure is set. -/
namespace Sys2Proof.Machine

/-- The registers are those of b but for the channels' line counts, and the mode is b's. -/
def Quiet (b s : State) : Prop :=
  s.mode = b.mode ∧ ∀ r : RegRef, (∀ c < 8, r.off ≠ 0x100050 + 8192 * c) → s.reg r = b.reg r
theorem Quiet.get {b s : State} (h : Quiet b s) (f : Fld) (hf : ∀ c < 8, f.reg.off ≠ 0x100050 + 8192 * c) : s.get f = b.get f := by
  rw [State.get, h.2 _ hf, State.get]
theorem Quiet.is {b s : State} (h : Quiet b s) (f : Fld) (hf : ∀ c < 8, f.reg.off ≠ 0x100050 + 8192 * c) : s.is f = b.is f := by
  rw [State.is, h.get f hf, State.is]
/-- A state whose 8 channels run, that has no region, exclusion, remap or erasure, and whose context 2 may read plain lines. -/
structure Plain (b : State) : Prop where
  chan : ∀ c < 8, b.domainOn (28 + c) = true ∧ b.is (F.MIG_INITCTL_BUSY c) = false ∧ b.get (F.DRC_STAT_STATE c) = 2 ∧
    b.is (F.MIG_ERASE_EN0 c) = false ∧ b.is (F.MIG_ERASE_EN1 c) = false ∧ ∀ k < 16, b.is (F.MIG_REMAP_FROM_VALID c k) = false
  excl : ∀ e < 64, b.is (F.MIG_EXCL_CTL_EN e) = false
  region : ∀ r < 32, b.is (F.MIG_REGION_CTL_EN r) = false
  map : b.get (F.DRC_AMAP_NCH 0) = 3 ∧ b.is F.CRY_CTL_EN = false
  rights : b.is (F.CRY_RIGHTS_CTL_R 2) = true ∧ b.is (F.CRY_RIGHTS_CTL_PLAIN 2) = true
theorem Quiet.plain {b s : State} (h : Quiet b s) (p : Plain b) : Plain s := by
  refine ⟨fun c hc => ?_, fun e he => ?_, fun r hr => ?_, ?_, ?_⟩
  · obtain ⟨h1, h2, h3, h4, h5, h6⟩ := p.chan c hc
    refine ⟨?_, ?_, ?_, ?_, ?_, fun k hk => ?_⟩
    · rw [← h1]; unfold State.domainOn; rw [h.2 _ (by simp [R.PWR_DOMSTAT0]; omega), h.2 _ (by simp [R.PWR_DOMSTAT1]; omega)]
    · rw [h.is _ (by simp [F.MIG_INITCTL_BUSY, R.MIG_INITCTL]; omega), h2]
    · rw [h.get _ (by simp [F.DRC_STAT_STATE, R.DRC_STAT]; omega), h3]
    · rw [h.is _ (by simp [F.MIG_ERASE_EN0, R.MIG_ERASE]; omega), h4]
    · rw [h.is _ (by simp [F.MIG_ERASE_EN1, R.MIG_ERASE]; omega), h5]
    · rw [h.is _ (by simp [F.MIG_REMAP_FROM_VALID, R.MIG_REMAP_FROM]; omega), h6 k hk]
  · rw [h.is _ (by simp [F.MIG_EXCL_CTL_EN, R.MIG_EXCL_CTL]; omega), p.excl e he]
  · rw [h.is _ (by simp [F.MIG_REGION_CTL_EN, R.MIG_REGION_CTL]; omega), p.region r hr]
  · rw [h.get _ (by simp [F.DRC_AMAP_NCH, R.DRC_AMAP]; omega), h.is _ (by simp [F.CRY_CTL_EN, R.CRY_CTL]; omega)]; exact p.map
  · rw [h.is _ (by simp [F.CRY_RIGHTS_CTL_R, R.CRY_RIGHTS_CTL]; omega), h.is _ (by simp [F.CRY_RIGHTS_CTL_PLAIN, R.CRY_RIGHTS_CTL]; omega)]
    exact p.rights
theorem find_range_none {n : Nat} {p : Nat → Bool} (h : ∀ k < n, p k = false) : (List.range n).find? p = none := by
  simp only [List.find?_eq_none, List.mem_range]; intro k hk; simp [h k hk]
namespace Plain
variable {s : State} (p : Plain s)
include p
theorem regionAt (a : Nat) : s.regionAt a = none := find_range_none fun r hr => by simp [p.region r hr]
theorem lineRgn (a : Nat) : s.lineRgn a = ⟨32, false, 0, 0, 0, 0, false⟩ := by simp [State.lineRgn, p.regionAt]
theorem remap {c : Nat} (hc : c < 8) (l : Nat) : s.remapEntry c l = none :=
  find_range_none fun k hk => by simp [(p.chan c hc).2.2.2.2.2 k hk]
theorem exclOf (c l a : Nat) : s.exclOf c l a = none := find_range_none fun e he => by simp [State.exclCovers, p.excl e he]
theorem nch : s.nch = 8 := by simp [State.nch, p.map]
theorem channel (g : Nat) : s.channelOf g < 8 := by rw [State.channelOf, p.nch]; exact Nat.mod_lt _ (by decide)
end Plain
theorem quiet_setDram {b s : State} (h : Quiet b s) (c : Nat) (x : ChSt) : Quiet b (s.setDram c x) := h
theorem quiet_dramCmd {b s : State} (h : Quiet b s) (c k a r l : Nat) (w : DramWho) : Quiet b (s.dramCmd c k a r l w) := h
theorem quiet_bump {b s : State} (h : Quiet b s) {c : Nat} (hc : c < 8) : Quiet b (s.bump (F.DRC_BW_LINES c) 1) := by
  refine ⟨by rw [State.bump_mode]; exact h.1, fun r hr => ?_⟩
  have e : r.off ≠ (F.DRC_BW_LINES c).reg.off := hr c hc
  generalize F.DRC_BW_LINES c = f at e
  rw [State.bump, State.reg_put_other _ _ e, h.2 r hr]
theorem quiet_lineCmd {b s : State} (h : Quiet b s) {c : Nat} (hc : c < 8) (q : Nat) (w : DramWho) : Quiet b (s.lineCmd c q false w) := by
  unfold State.lineCmd
  dsimp only
  refine quiet_bump (quiet_setDram ?_ _ _) hc
  repeat' (first | with_reducible exact h | split | with_reducible apply quiet_dramCmd)
theorem quiet_freeWords {b : State} : ∀ (n : Nat) {s : State}, Quiet b s → Quiet b (s.freeWords n).2
  | 0, _, h => h
  | n + 1, s, h => quiet_freeWords n (s := s.freeWord.2) h
theorem quiet_readData {b s : State} (h : Quiet b s) (p : Plain b) {c : Nat} (hc : c < 8) (l a : Nat) (m : BitVec 16) (w : DramWho) :
    let d := s.readData c l a ⟨32, false, 0, 0, 0, 0, false⟩ false m [] w
    Quiet b d.state ∧ d.status = stOk := by
  have q := h.plain p
  have h1 := quiet_lineCmd h hc l w
  have h2 : Quiet b ((s.lineCmd c l false w).storedLine c l).2 := by
    unfold State.storedLine
    split
    · exact h1
    · split
      · exact h1
      · exact quiet_freeWords 16 h1
  have lost : ∀ {t : State}, Quiet b t → t.lineLost c l = false := fun ht => by simp [State.lineLost, (ht.plain p).remap hc]
  simp [State.readData, State.readLine, State.decodeLine, State.openUnwritten, State.physLine, q.remap hc, lineCheck, LineOut.decode,
    lost h1, h2, readStatus, stOk]
theorem plain_admit {s : State} (q : Plain s) {g : Nat} (hg : g < 2 ^ 31) :
    s.engineAdmit (enginePkt 95 2 tRdLine g) g = (s, true) := by
  obtain ⟨h1, h2, h3, -⟩ := q.chan _ (q.channel g)
  have kl : (enginePkt 95 2 tRdLine g).lineAt 0 = g := by
    simp only [Carriage.lineAt, enginePkt, BitVec.toNat_ofNat]; omega
  have kc : lineCount (enginePkt 95 2 tRdLine g) = 1 := rfl
  have kt : (enginePkt 95 2 tRdLine g).typ = 1 := rfl
  have kx : (enginePkt 95 2 tRdLine g).ctx = 2 := rfl
  generalize enginePkt 95 2 tRdLine g = k at kl kc kt kx
  have d : g < 8 * s.chanLines (s.channelOf g) := by
    generalize s.channelOf g = c
    have d : 2 ^ 28 ≤ s.chanLines c := by
      unfold State.chanLines
      exact Nat.le_trans (Nat.pow_le_pow_right (by decide) (Nat.le_add_right ..)) (Nat.le_mul_of_pos_left _ (by omega))
    omega
  have fit : s.linesFit (s.channelOf g) k = true := by simp [State.linesFit, kl, kc, q.nch, d]
  have ok : s.rightsOk 2 1 (16 * g) = true := by
    simp [State.rightsOk, State.areaOf, q.map, q.lineRgn, q.rights, isReadType, tRdLine]
  have nr : s.dramRefusal (s.channelOf g) k = none := by
    simp [State.dramRefusal, fit, kl, kc, kt, kx, q.exclOf, q.lineRgn, ok, tAtomic]
  simp [State.engineAdmit, h1, h2, h3, nr]
theorem quiet_answer {b : State} {d : ReadRes} (h : Quiet b d.state) (e : d.status = stOk) {p : State × Option (List Word)}
    (hp : p = (d.state, if statusFine d.status then some d.words else none)) : Quiet b p.1 ∧ p.2.isSome = true := by
  have f : statusFine stOk = true := by decide
  subst hp
  exact ⟨h, by rw [e, if_pos f, Option.isSome_some]⟩
theorem quiet_engineRead {b s : State} (h : Quiet b s) (p : Plain b) {g : Nat} (hg : g < 2 ^ 31) :
    Quiet b (s.engineRead 95 2 g []).1 ∧ (s.engineRead 95 2 g []).2.isSome = true := by
  have q := h.plain p
  obtain ⟨r, e⟩ := quiet_readData h p (q.channel g) (s.localLine g) (16 * g) (BitVec.allOnes 16) .none
  refine quiet_answer r e ?_
  unfold State.engineRead
  rw [plain_admit q hg, q.lineRgn]
  rfl
theorem quiet_confirmed {b s t : State} (h : Quiet b t) : Quiet b (s.confirmed t) := by
  have k : ∀ (l : List Nat) {u : State}, Quiet b u →
      Quiet b (u.forEach l fun t c => t.setDram c { t.dram c with retry := (s.dram c).retry, rows := (s.dram c).rows }) := by
    intro l
    induction l with
    | nil => exact fun h => h
    | cons c l ih => exact fun h => ih (quiet_setDram h c _)
  exact k _ h
theorem quiet_fold {b : State} {β : Type} {g : State × Option β → Nat → State × Option β} : ∀ (l : List Nat) (q : State × Option β),
    (∀ m ∈ l, ∀ p, Quiet b p.1 → p.2.isSome = true → ∃ t v, g p m = (t, some v) ∧ Quiet b t) → Quiet b q.1 → q.2.isSome = true →
      Quiet b (l.foldl g q).1 ∧ (l.foldl g q).2.isSome = true
  | [], _, _, h, e => ⟨h, e⟩
  | m :: l, q, hg, h, e => by
    obtain ⟨t, v, e, h⟩ := hg m (by simp) q h e
    rw [List.foldl_cons, e]
    exact quiet_fold l (t, some v) (fun x hx => hg x (by simp [hx])) h rfl
/-- Words of such a state are read, and it stays such a state. -/
theorem quiet_getSave {b s : State} (h : Quiet b s) (p : Plain b) {a o n : Nat} (ha : a / 16 + (o + n + 15) / 16 ≤ 2 ^ 31) :
    Quiet b (s.getSave a o n []).1 ∧ (s.getSave a o n []).2.isSome = true := by
  unfold State.getSave State.getWords
  generalize hx : List.foldl _ _ (areaLines o n) = x
  have k : Quiet b x.1 ∧ x.2.isSome = true := by
    rw [← hx]
    refine quiet_fold _ _ (fun m hm q hq hs => ?_) h rfl
    have e : s.dataLine (a / 16) m = a / 16 + m := by simp [State.dataLine, State.rgnNested, (h.plain p).regionAt]
    obtain ⟨r1, r2⟩ := quiet_engineRead hq p (g := a / 16 + m) (by simp [areaLines] at hm; omega)
    obtain ⟨ws, hw⟩ := Option.isSome_iff_exists.mp hs
    obtain ⟨l, hl⟩ := Option.isSome_iff_exists.mp r2
    rw [e, hw]
    generalize State.engineRead _ _ _ _ _ = d at r1 hl
    exact ⟨d.1, ws ++ l, by dsimp only; rw [hl], r1⟩
  dsimp only
  rw [Option.isSome_map]
  exact ⟨quiet_confirmed k.1, k.2⟩
/-- Every save area of such a state is read. -/
theorem plain_readSave {s : State} (p : Plain s) (f : Nat) (ha : s.saveArea f ≤ 2 ^ 34) : (s.readSave f []).2.isSome = true := by
  have len : s.relays f ≤ 1920 := by
    unfold State.relays
    split
    · exact Nat.min_le_left ..
    · omega
  have lines : s.snapLines f ≤ 6977 := by simp only [State.snapLines]; omega
  unfold State.readSave
  generalize s.saveArea f = b at ha
  generalize s.snapLines f = n at lines
  extract_lets b' r m q
  have hr : Quiet s r.1 ∧ r.2.isSome = true := quiet_getSave ⟨rfl, fun _ _ => rfl⟩ p (by omega)
  clear_value r
  have hm : Quiet s m.1 ∧ m.2.isSome = true := by
    refine quiet_fold _ _ (fun j hj q hq hs => ?_) hr.1 rfl
    have hj := List.mem_range.mp hj
    obtain ⟨r1, r2⟩ := quiet_getSave hq p (a := b) (o := slotMem j) (n := 2219) (by simp only [slotMem]; omega)
    obtain ⟨ws, hw⟩ := Option.isSome_iff_exists.mp hs
    obtain ⟨l, hl⟩ := Option.isSome_iff_exists.mp r2
    rw [hw]
    generalize State.getSave _ _ _ _ _ = d at r1 hl
    exact ⟨d.1, ws ++ [(j, l)], by dsimp only; rw [hl], r1⟩
  clear_value m
  have hq : Quiet s q.1 ∧ q.2.isSome = true := quiet_getSave hm.1 p (by omega)
  clear_value q
  obtain ⟨a, ha⟩ := Option.isSome_iff_exists.mp hr.2
  obtain ⟨m', hm⟩ := Option.isSome_iff_exists.mp hm.2
  obtain ⟨q', hq⟩ := Option.isSome_iff_exists.mp hq.2
  rw [ha, hm, hq]
  rfl
/-- Of a state whose channels serve nothing, no words are read. -/
theorem State.getSave_none {s : State} (h : ∀ g, s.engineRead 95 2 g [] = (s, none)) (a o n : Nat) (hn : 0 < n) :
    (s.getSave a o n []).2 = none := by
  unfold State.getSave State.getWords
  have k : ∀ (g : State × Option (List Word) → Nat → State × Option (List Word)), (∀ v m, g (s, v) m = (s, none)) →
      ∀ l v, (l.foldl g (s, v)).1 = s ∧ (l ≠ [] → (l.foldl g (s, v)).2 = none) := by
    intro g hg l
    induction l with
    | nil => exact fun v => ⟨rfl, fun h => absurd rfl h⟩
    | cons m l ih =>
      intro v
      rw [List.foldl_cons, hg]
      refine ⟨(ih none).1, fun _ => ?_⟩
      cases l with
      | nil => rfl
      | cons _ _ => exact (ih none).2 (by simp)
  dsimp only
  rw [Option.map_eq_none_iff]
  refine (k _ (fun v m => ?_) _ _).2 ?_
  · rw [h]
    cases v <;> rfl
  · simp only [areaLines, ne_eq, List.map_eq_nil_iff, List.range_eq_nil]
    omega
theorem State.readSave_none {s : State} (h : ∀ g, s.engineRead 95 2 g [] = (s, none)) (f : Nat) : (s.readSave f []).2 = none := by
  have e := State.getSave_none h (s.saveArea f) 0 458752 (by decide)
  unfold State.readSave
  extract_lets b r m q
  have e : r.2 = none := e
  clear_value r m q
  rw [e]

end Sys2Proof.Machine
end

