-- ==== Sys2Proof/WellFormed.lean ====
section
/-! DEFINITION. Well-formed commands: what no event outside the block could bring is told apart from what the spec answers. A
command that is not well-formed has a meaning all the same. -/
namespace Sys2Proof

open Sys2Proof.Machine

/-- Every number is listed once. -/
def listedOnce {α : Type} (l : List (Nat × α)) : Bool := (l.map (·.1)).eraseDups.length == l.length
/-- A DRAM line is checked once. -/
def linesOk (l : List LineCheck) : Bool := listedOnce (l.map fun c => (c.line, c))

/-- Well-formed commands. -/
def Instr.wellFormed (i : Instr) : Bool :=
  match i with
  | .registerWrite _ _ size _ => decide (1 ≤ size ∧ size ≤ 8)
  | .loRead _ _ size => decide (1 ≤ size ∧ size ≤ 8)
  | .bar2Write _ bytes => !bytes.isEmpty
  | .bar2Read _ n _ => decide (0 < n)
  | .rawReceive _ ws _ _ _ _ => decide (ws.length ≤ 16)
  | .eidle isPort i _ => !isPort || decide (i.val < 6)
  | .limitRatio _ _ den _ => decide (0 < den)
  | .commandSlot _ checks => linesOk checks
  | .dramPatrolVisit _ checks => linesOk checks
  | .remapDone _ _ checks => linesOk checks
  | .renewVisit checks => linesOk checks
  | _ => true

end Sys2Proof
end

