-- ==== Sys2Proof/Tests/Slice0.lean ====
section
/-! SUPPORT. The author's own tests: ill-formed commands, worked examples of the spec, and states that meet the hypotheses of the
statements. -/
namespace Sys2Proof.Tests

-- Each test is checked before the next one starts: a waiting test holds a thread and its stack.
set_option Elab.async false

open Sys2Proof Sys2Proof.Machine

/-! ## States -/

/-- A state with these register fields set. -/
def tSet (l : List (Fld × Nat)) (s : State) : State := l.foldl (fun s e => s.put e.1 e.2) s
/-- An image of one field that sets the cells and slices listed; cluster 0 has L = 4. CO0 and CO1 of clusters 0 and 3 are O0 of their
cells 1 and 2, which feed slice 0, both ports of block memory 0 and the field control. -/
def tImage (cells : List (Nat × CellCfg)) (slices : List (Nat × SliceCfg)) : FieldImage :=
  { (default : FieldImage) with
    cells := cells, slices := slices, lengths := [(0, 3)], outTracks := [(0, 1), (1, 2), (48, 1), (49, 2)], bmWords := [(0, 0x8020)], doneTrack := some 0 }
/-- A device in RUN with time and ticks. -/
def tOn : State :=
  { State.reset with
    mode := { State.reset.mode with base := .run }
    time := { State.reset.time with running := true, ticks := true, numbered := true, raw := 100, nextTick := some 100 } }
/-- In RUN, field 0 holds this image and is in its first frame, of 1,000 cycles, in cycle 0. -/
def tRun (i : FieldImage) : State :=
  tSet [(F.FLD_BUDGET_CYC 0, 1000)] { tOn with
    images := [(0, i)]
    fields := [(0, { FieldSt.zero with phase := .frame, frames := 1, mhz := 1250 })] }
/-- An entry with these operand names. -/
def tEntry (dst a b c : Fin 8) (shift : BitVec 8) (imm : BitVec 16) : EntryFields :=
  { sat := false, dst := dst, srca := a, srcb := b, srcc := c, cond := 0, shift := shift, imm := imm }
/-- An entry word, as Table 3-2 lays it out. -/
def tWord (op : Nat) (e : EntryFields) : Word :=
  BitVec.ofNat 48 (2 ^ 41 * op + 2 ^ 40 * bit e.sat + 2 ^ 37 * e.dst.val + 2 ^ 34 * e.srca.val + 2 ^ 31 * e.srcb.val +
    2 ^ 28 * e.srcc.val + 2 ^ 24 * e.cond.val + 2 ^ 16 * e.shift.toNat + e.imm.toNat)
/-- A cell with these entries whose X, Y and Z are O0 of cells 1, 2 and 3 of its cluster. -/
def tCellCfg (entries : List Word) : CellCfg := { CellCfg.unused with entries := entries, selX := 1, selY := 2, selZ := 3 }
/-- The state with these words on O0 of the cells from key `k` on. -/
def tLatch (k : Nat) (vs : List Word) (s : State) : State :=
  (vs.zipIdx k).foldl (fun s v => s.setCell v.2 { s.cell v.2 with now := { (s.cell v.2).now with latch := v.1 } }) s
/-- Cell 0 of field 0 in this cycle. -/
def tCell (cyc : Nat) : CellOp := { field := 0, cluster := 0, cell := 0, cycle := cyc, alt := none }
/-- The state after some commands, each a next state. -/
def tAfter : List Instr → State → Option State
  | [], s => some s
  | c :: l, s => match exec c s with | .next t => tAfter l t | _ => none
/-- What a command makes of a state, seen through `g`. -/
def tSee {α : Type} (c : Instr) (s : State) (g : State → α) : Option α :=
  match exec c s with | .next t => some (g t) | _ => none
/-- Cell 0 runs an entry on these words at X, Y and Z. -/
def tOps (op : Nat) (e : EntryFields) (x y z : Word) : State := tLatch 1 [x, y, z] (tRun (tImage [(0, tCellCfg [tWord op e])] []))
/-- The result of a cell operation that names X, Y and Z as a, b and c: latch, and flags as in GETF. -/
def tAlu (op : Nat) (c : CellOp → Instr) (shift : BitVec 8) (imm : BitVec 16) (x y z : Word) : Option (Word × Flags) :=
  tSee (c (tCell 0)) (tOps op (tEntry 0 4 5 6 shift imm) x y z) fun t => ((t.cell 0).now.latch, (t.cell 0).now.fl)
/-- Whether a cell executes an operation, as the statements ask. -/
def tCellRuns (s : State) (o : CellOp) (op : Nat) (i : FieldImage) (e : EntryFields) : Bool :=
  s.image o.field == some i && s.cellReady o && !(o.cfg i).lutOnly &&
    entryFor cellOps op ((o.cfg i).entry (o.cycle % i.len o.cluster)) == some e && !cellForbidden op e (i.len o.cluster)
theorem tCellRuns_spec {s : State} {o : CellOp} {op : Nat} {i : FieldImage} {e : EntryFields} (h : tCellRuns s o op i e = true) :
    CellRuns s o op i e := by
  simp [tCellRuns] at h
  obtain ⟨⟨⟨⟨h1, h2⟩, h3⟩, h4⟩, h5⟩ := h
  exact ⟨h1, h2, h3, h4, h5⟩
/-- Whether a slice executes an operation, as the statements ask. -/
def tSliceRuns (s : State) (o : SliceOp) (op : Nat) (i : FieldImage) (e : EntryFields) : Bool :=
  s.image o.field == some i && s.sliceReady o &&
    entryFor sliceOps op ((o.cfg i).entry (o.cycle % i.len (o.slice.val / 2))) == some e && !sliceForbidden op e
theorem tSliceRuns_spec {s : State} {o : SliceOp} {op : Nat} {i : FieldImage} {e : EntryFields} (h : tSliceRuns s o op i e = true) :
    SliceRuns s o op i e := by
  simp [tSliceRuns] at h
  obtain ⟨⟨⟨h1, h2⟩, h3⟩, h4⟩ := h
  exact ⟨h1, h2, h3, h4⟩
/-- Slice `k` of field 0 in cycle 0. -/
def tSlice (k : Fin 512) : SliceOp := { field := 0, slice := k, cycle := 0, alt := none }

/-! ## Ill-formed commands are told apart -/

theorem test_ill_formed_sizes : Instr.wellFormed (.registerWrite .host 0 0 0) = false ∧
    Instr.wellFormed (.registerWrite .host 0 9 0) = false ∧ Instr.wellFormed (.registerWrite .host 0 8 0) = true ∧
    Instr.wellFormed (.loRead .host 0 0) = false ∧ Instr.wellFormed (.loRead .host 0 4) = true := by decide
theorem test_ill_formed_transfers : Instr.wellFormed (.bar2Write 0 []) = false ∧ Instr.wellFormed (.bar2Read 0 0 0) = false ∧
    Instr.wellFormed (.bar2Read 0 1 0) = true := by decide
theorem test_ill_formed_lines : Instr.wellFormed (.rawReceive 16 (List.replicate 17 0) 0 none 0 false) = false ∧
    Instr.wellFormed (.eidle true 6 true) = false ∧ Instr.wellFormed (.eidle true 5 true) = true ∧
    Instr.wellFormed (.limitRatio 0 1 0 1) = false ∧
    (let c : LineCheck := ⟨7, []⟩
     Instr.wellFormed (.commandSlot 0 [c, c]) = false ∧ Instr.wellFormed (.dramPatrolVisit 0 [c, c]) = false ∧
     Instr.wellFormed (.remapDone 0 0 [c, c]) = false ∧ Instr.wellFormed (.renewVisit [c, c]) = false ∧
     Instr.wellFormed (.renewVisit [c]) = true) := by decide +kernel

/-! ## Cells -/

/-- Table 3-9: X = −10 and Y = 7 with B = 4, the three entry words as the table writes them. -/
theorem test_compare_and_select :
    let i := { tImage [(0, tCellCfg [0x149280000000, 0x80128B000000, 0x02278C000001])] [] with lengths := [(0, 2)] }
    let s := tLatch 1 [0xFFFFFFFFFFF6, 7] ((tRun i).setCell 0 { CellSt.zero with now := { CellRegs.zero with b := 4 } })
    (tAfter [.cmp (tCell 0), .sel (tCell 1), .add (tCell 2)] s).map (fun t => ((t.cell 0).now.a, (t.cell 0).now.b)) = some (7, 5) ∧
    tSee (.cmp (tCell 0)) s (fun t => ((t.cell 0).now.latch, (t.cell 0).now.fl)) = some (0xFFFFFFFFFFEF, ⟨true, false, true, false⟩) := by
  decide +kernel
/-- Chapter 3: DCFG 0x1C0; ten edges leave 0xF in D, and MOV and the first two XORSHR give 10. -/
theorem test_gray_counter :
    let cfg : CellCfg := { CellCfg.unused with word := 0x000E00000000, entries := [0x880C00000000, 0x320000010000] }
    let w : WireEdge := { field := 0, cluster := 0, cell := 0, reg := 3, alt := none }
    (tAfter (List.replicate 10 (.incg w)) (tRun (tImage [(0, cfg)] []))).map (fun t => (t.cell 0).now.d) = some 0xF := by decide +kernel
/-- R78: the words of a 96-bit sum; cell 0 adds with a carry out, and cell 1 takes it. -/
theorem test_carry_chain :
    tAlu 0x01 .add 0 0 0xFFFFFFFFFFFF 1 0 = some (0, ⟨false, true, true, false⟩) ∧
    (let hi := { tCellCfg [tWord 0x03 (tEntry 0 4 5 6 0 0)] with word := 0x004000000000, selX := 4, selY := 5 }
     let lo := { tCellCfg [tWord 0x01 (tEntry 0 4 5 6 0 0)] with selX := 2, selY := 3 }
     (tAfter [.add (tCell 0), .addw { tCell 0 with cell := 1 }]
       (tLatch 2 [0xFFFFFFFFFFFF, 1, 2, 3] (tRun (tImage [(0, lo), (1, hi)] [])))).map (fun t => (t.cell 1).now.latch) = some 6) := by
  decide +kernel
/-- R75's worked example: lanes 0x7FF, 0x002, 0x800 and 0. -/
theorem test_vadd_saturates :
    tSee (.vadd (tCell 0)) (tOps 0x50 { tEntry 0 4 5 6 0x80 0 with sat := true } 0x7F0001800FFF 0x020001FFF001 0)
      (fun t => ((t.cell 0).now.latch, (t.cell 0).now.a)) = some (0x7FF002800000, 0x7FF002800000) := by decide +kernel
/-- R81: lookup 4 as a 4-input AND, its table at bits 31:16 of the entry. -/
theorem test_lut_and :
    let cfg : CellCfg := { tCellCfg [0, 0x80000000] with word := 0x008000000000 }
    let s (x : Word) := tLatch 1 [x] (tRun (tImage [(0, cfg)] []))
    let e := tWord 0x70 (tEntry 0 4 5 6 0 0)
    tSee (.lutonly (tCell 0)) (s 0xF0000) (fun t => (t.cell 0).now.latch) = some 0x10 ∧
    tSee (.lutonly (tCell 0)) (s 0x70000) (fun t => (t.cell 0).now.latch) = some 0 ∧
    tSee (.lut12 (tCell 0)) (tLatch 1 [0xF0000] (tRun (tImage [(0, tCellCfg [e, e, e, e, 0, 0x80000000])] [])))
      (fun t => (t.cell 0).now.latch) = some 0x10 := by decide +kernel
/-- Table 3-5 by hand: a most negative value, shifts, fields, counts and selections. -/
theorem test_cell_sums : tAlu 0x07 .neg 0 0 0x800000000000 0 0 = some (0x800000000000, ⟨true, false, false, true⟩) ∧
    tAlu 0x08 .abs 0 0 0xFFFFFFFFFFFE 0 0 = some (2, flags0) ∧ tAlu 0x04 .sub 0 0 3 5 0 = some (0xFFFFFFFFFFFE, ⟨true, false, false, false⟩) ∧
    tAlu 0x09 .addsh 4 0 1 2 0 = some (0x21, flags0) ∧ tAlu 0x02 .adc 0 0 1 2 0 = some (3, flags0) ∧ tAlu 0x05 .sbc 0 0 5 2 0 = some (2, ⟨false, false, true, false⟩) ∧
    tAlu 0x06 .subw 0 0 5 2 0 = some (2, ⟨false, false, true, false⟩) ∧ tAlu 0x0B .cmpw 0 0 5 2 0 = some (2, ⟨false, false, true, false⟩) := by decide +kernel
theorem test_cell_shifts : tAlu 0x20 .shl 4 0 0x123 0 0 = some (0x1230, flags0) ∧
    tAlu 0x21 .shr 1 0 3 0 0 = some (1, ⟨false, false, true, false⟩) ∧
    tAlu 0x22 .sar 4 0 0x800000000000 0 0 = some (0xF80000000000, ⟨true, false, false, false⟩) ∧
    tAlu 0x23 .rol 4 0 0xF00000000001 0 0 = some (0x1F, flags0) ∧ tAlu 0x24 .ror 4 0 0xF 0 0 = some (0xF00000000000, ⟨true, false, false, false⟩) ∧
    tAlu 0x25 .shlv 0 0 1 3 0 = some (8, flags0) ∧ tAlu 0x26 .shrv 0 0 8 3 0 = some (1, flags0) ∧
    tAlu 0x27 .sarv 0 0 0x800000000000 47 0 = some (0xFFFFFFFFFFFF, ⟨true, false, false, false⟩) ∧
    tAlu 0x28 .fshr 8 0 0x12 0x3400 0 = some (0x120000000034, flags0) := by decide +kernel
theorem test_cell_fields : tAlu 0x30 .extu 4 8 0xABC 0 0 = some (0xAB, flags0) ∧
    tAlu 0x31 .exts 4 8 0xABC 0 0 = some (0xFFFFFFFFFFAB, ⟨true, false, false, false⟩) ∧
    tAlu 0x32 .ins 4 8 0xFFF 0 0 = some (0xF, flags0 ) ∧ tAlu 0x33 .brev 0 0 1 0 0 = some (0x800000000000, ⟨true, false, false, false⟩) ∧
    tAlu 0x34 .bswap 0 0 0x010203040506 0 0 = some (0x060504030201, flags0) ∧ tAlu 0x38 .popc 0 0 0xF0F 0 0 = some (8, flags0) ∧
    tAlu 0x39 .clz 0 0 1 0 0 = some (47, flags0) ∧ tAlu 0x3A .ctz 0 0 8 0 0 = some (3, flags0) ∧ tAlu 0x3B .cls 0 0 0 0 0 = some (47, flags0) := by decide +kernel
theorem test_cell_words : tAlu 0x10 .and 0 0 0xC 0xA 0 = some (8, flags0) ∧ tAlu 0x11 .or 0 0 0xC 0xA 0 = some (0xE, flags0) ∧
    tAlu 0x12 .xor 0 0 0xC 0xA 0 = some (6, flags0) ∧ tAlu 0x13 .andn 0 0 0xC 0xA 0 = some (4, flags0) ∧
    tAlu 0x17 .bsel 0 0 0xC 0xA 6 = some (0xC, flags0) ∧ tAlu 0x19 .xorshr 1 0 0xC 0xA 0 = some (9, flags0) ∧
    tAlu 0x3C .mins 0 0 0xFFFFFFFFFFFF 1 0 = some (0xFFFFFFFFFFFF, ⟨true, false, false, false⟩) ∧
    tAlu 0x3F .maxu 0 0 0xFFFFFFFFFFFF 1 0 = some (0xFFFFFFFFFFFF, ⟨true, false, false, false⟩) ∧
    tAlu 0x41 .selz 0 0 1 2 0 = some (2, flags0) ∧ tAlu 0x45 .ldi 0 0x8000 0 0 0 = some (0xFFFFFFFF8000, flags0) ∧
    tAlu 0x46 .ldim 0 0x1234 0xAAAABBBBCCCC 0 0 = some (0xAAAA1234CCCC, flags0) ∧
    tAlu 0x47 .ldih 0 0x1234 0xAAAABBBBCCCC 0 0 = some (0x1234BBBBCCCC, flags0) ∧
    tAlu 0x49 .setf 0 0 9 0 0 = some (9, ⟨true, false, false, true⟩) := by decide +kernel
theorem test_cell_lanes : tAlu 0x51 .vsub 0x40 0 0x000005000003 0x000001000004 0 = some (0x000004FFFFFF, ⟨false, false, true, false⟩) ∧
    tAlu 0x58 .vcmpgt 0xC0 0 0x050000000000 0x040000000000 0 = some (0xFF0000000000, flags0) ∧
    tAlu 0x5A .vshr 0x81 0 0x002003004005 0 0 = some (0x001001002002, flags0) ∧
    tAlu 0x5C .vavg 0x40 0 0x000003000000 0x000004000001 0 = some (0x000004000001, flags0) := by decide +kernel

/-- O1 to O8: cell 0 of a running field executes each operation, COND holding or not. -/
theorem test_meets_cells : let e := tEntry 0 4 5 6 3 0x1234; let v := { e with shift := 0x43 }
    let ok (op : Nat) (e : EntryFields) (c : Bool) : Bool := let i := tImage [(0, tCellCfg [tWord op e])] []
      let s := tLatch 1 [1, 2, 3] (tRun i)
      tCellRuns s (tCell 0) op i e && (s.reads (tCell 0) i e).cond == c
    (∀ op ∈ [0x00, 0x01, 0x02, 0x03, 0x04, 0x05, 0x06, 0x07, 0x08, 0x09, 0x0A, 0x0B, 0x10, 0x11, 0x12, 0x13, 0x14, 0x15, 0x16, 0x17,
        0x18, 0x19, 0x20, 0x21, 0x22, 0x23, 0x24, 0x25, 0x26, 0x27, 0x28, 0x30, 0x31, 0x32, 0x33, 0x34, 0x38, 0x39, 0x3A, 0x3B, 0x3C,
        0x3D, 0x3E, 0x3F, 0x40, 0x41, 0x44, 0x45, 0x46, 0x47, 0x48, 0x49, 0x70], ok op e true = true ∧ ok op { e with cond := 1 } false = true) ∧
    (∀ op ∈ [0x50, 0x51, 0x52, 0x53, 0x54, 0x55, 0x56, 0x57, 0x58, 0x59, 0x5A, 0x5B, 0x5C],
      ok op v true = true ∧ ok op { v with cond := 1 } false = true) := by decide +kernel
/-- O9: a LUT-only cell, and the four wire operations with the first and last clock bit. -/
theorem test_meets_wire_clocks : let lut : CellCfg := { CellCfg.unused with word := 0x008000000000 }
    (let s := tRun (tImage [(0, lut)] [])
     s.image 0 = some (tImage [(0, lut)] []) ∧ s.cellReady (tCell 0) = true ∧ ((tCell 0).cfg (tImage [(0, lut)] [])).lutOnly = true) ∧
    ∀ op ∈ [0, 1, 2, 3], ∀ b ∈ [0, 47], let c : CellCfg := { CellCfg.unused with word := BitVec.ofNat 48 (256 + 64 * op + b) }
      let s := tRun (tImage [(0, c)] [])
      s.edgesCount 0 = true ∧ ((tImage [(0, c)] []).cell 0).wired 0 = true ∧ ((tImage [(0, c)] []).cell 0).wop 0 = op ∧
        ((tImage [(0, c)] []).cell 0).wcBit 0 ≤ 47 := by decide +kernel
/-! ## Slices and block memories -/

/-- Chapter 5: the entry word 0x11C3_0044_0017 on the operands of the worked example; with SAT 0 lane 1 wraps. -/
theorem test_complex_tap :
    let r : SliceRegs := { SliceRegs.zero with c := 0x600000600000, x := 0x600000A00000, acc1 := BitVec.ofInt 112 (-(2 ^ 43)),
                                                 acc0 := 20971520 }
    let see (w : Word) := tSee (.tapm (tSlice 1)) { tRun (tImage [] [(1, { SliceCfg.unused with word := 0x610, entries := [w] })]) with
        slices := [(0, { SliceSt.zero with now := { SliceRegs.zero with x := 77 } }), (1, { SliceSt.zero with now := r })] }
      fun t => ((t.slice 1).now.latch, (t.slice 1).now.fl, (t.slice 1).now.x, (t.slice 1).now.acc1)
    see 0x11C300440017 = some (0x7FFFFF000002, ⟨false, false, false, true⟩, 77, BitVec.ofNat 112 (2 ^ 46)) ∧
    (see 0x10C300440017).map (·.1) = some 0x800000000002 := by decide +kernel
/-- Slice `k` runs an entry, and CO0 and CO1 of its cluster, O0 of cells 1 and 2, are P and Q. -/
def tSliceCfg (op : Nat) (e : EntryFields) : SliceCfg := { SliceCfg.unused with word := 0x20, entries := [tWord op e] }
def tSliceOps (k : Fin 512) (op : Nat) (e : EntryFields) (p q : Word) : State :=
  tLatch 1 [p, q] (tRun (tImage [] [(k.val, tSliceCfg op e)]))
/-- Table 5-6 by hand, in FULL48 on ACC0: 3 × 5, plus it, minus it, loaded and added, and the word operations. -/
theorem test_slice_operations :
    let e : EntryFields := { tEntry 4 4 5 0 0 0 with srcc := 0 }
    let w : EntryFields := { tEntry 0 4 5 0 0 0x1234 with srcc := 0 }
    let run (op : Nat) (c : SliceOp → Instr) (e : EntryFields) (p q : Word) := tSee (c (tSlice 0)) (tSliceOps 0 op e p q)
      fun t => ((t.slice 0).now.acc0, (t.slice 0).now.latch)
    run 0x01 .mul e 3 5 = some (15, 15) ∧ run 0x02 .mac e 3 5 = some (15, 15) ∧
    run 0x03 .msu e 3 5 = some (BitVec.ofInt 112 (-15), 0xFFFFFFFFFFF1) ∧ run 0x11 .ldacc { e with imm := 4 } 3 0 = some (48, 0) ∧
    run 0x12 .addacc { e with imm := 4 } 3 0 = some (48, 0) ∧ run 0x21 .sliceLdi w 0 0 = some (0, 0x1234) ∧
    run 0x24 .swaph w 0x111111222222 0 = some (0, 0x222222111111) ∧ run 0x25 .conj w 0x111111000001 0 = some (0, 0x111111FFFFFF) ∧
    run 0x20 .sliceMov w 9 0 = some (0, 9) := by decide +kernel
/-- O10 to O12, and O8: a slice executes each operation; COND holds or does not. -/
theorem test_meets_slices :
    let acc : EntryFields := { tEntry 4 4 5 0 0 0 with srcc := 0 }
    let rd : EntryFields := { tEntry 0 4 5 0 4 3 with srcc := 0 }
    let w : EntryFields := { tEntry 3 4 5 0 0 0 with srcc := 0 }
    let ok (k : Fin 512) (op : Nat) (e : EntryFields) (c : Bool) : Bool := let i := tImage [] [(k.val, tSliceCfg op e)]
      let s := tRun i
      tSliceRuns s (tSlice k) op i e && s.sliceCond (tSlice k) i e == c
    (∀ op ∈ [0x01, 0x02, 0x03, 0x08, 0x09, 0x0A, 0x11, 0x12, 0x13], ok 511 op acc true = true ∧ ok 0 op { acc with cond := 1 } false = true) ∧
    (ok 0 0x10 rd true = true ∧ ok 511 0x10 { rd with cond := 1 } false = true) ∧
    (∀ op ∈ [0x00, 0x20, 0x21, 0x22, 0x23, 0x24, 0x25], ok 0 op w true = true ∧ ok 511 op { w with cond := 1 } false = true) := by
  decide +kernel

/-- A port of memory 0 of field 0 in this cycle. -/
def tPort (cyc : Nat) : BmOp := { field := 0, mem := 0, port := .pa, cycle := cyc }
/-- A command word as Table 6-4 lays it out. -/
def tPortWord (cmd aop addr : Nat) : Word := BitVec.ofNat 48 (2 ^ 21 * aop + 2 ^ 12 * cmd + addr)
/-- The state with these command and data words on the tracks of cluster 3 that both ports of memory 0 take. -/
def tWords (cmd aop addr : Nat) (d : Word) (s : State) : State := tLatch 193 [tPortWord cmd aop addr, d] s
/-- The state after some port commands, each with its CMD, AOP, ADDR and data word. -/
def tPorts (l : List ((Nat × Nat × Nat × Word) × Instr)) (s : State) : Option State :=
  l.foldl (fun s e => s.bind fun s => tAfter [e.2] (tWords e.1.1 e.1.2.1 e.1.2.2.1 e.1.2.2.2 s)) (some s)
/-- Memory 0 of field 0 in this queue mode, 16 words at 0, with these pointers. -/
def tQueue (mode : Nat) (wp rp : Nat) : State :=
  (tSet [(F.FLD_BM_CFG_MODE 0 0, mode)] (tRun (tImage [] []))).setQueue 0
    { QCtl.zero with q := { QRegs.zero with wp := wp, rp := rp }, crp := rp, cwp := wp }

/-- R125, R147: a write, a read of it, and FETCH_MAX in signed order. -/
theorem test_block_memory :
    (tPorts [((2, 0, 7, 5), .write (tPort 0)), ((6, 4, 7, 0xFFFFFFFFFFFF), .fetchMax (tPort 1) .ok),
        ((6, 0, 7, 1), .fetchAdd (tPort 2) .ok)] (tQueue 0 0 0)).map
      (fun t => (t.word 0 7, (t.queue 0).q.ra)) = some (some ⟨6, 0⟩, 5) ∧
    (tPorts [((2, 0, 7, 5), .write (tPort 0)), ((1, 0, 7, 0), .read (tPort 1) .ok)] (tQueue 0 0 0)).map
      (fun t => (t.queue 0).q.ra) = some 5 := by decide +kernel
/-- R140: what is pushed first is popped first; a pop of an empty queue returns 0 with Q.UNF. -/
theorem test_fifo :
    (tPorts [((3, 0, 0, 5), .push (tPort 0)), ((3, 0, 0, 6), .push (tPort 1)), ((4, 0, 0, 0), .pop (tPort 2) .ok)] (tQueue 1 0 0)).map
      (fun t => ((t.queue 0).q.ra, (t.queue 0).q.wp, (t.queue 0).q.rp)) = some (5, 2, 1) ∧
    tSee (.pop (tPort 0) .ok) (tWords 4 0 0 0 (tQueue 1 3 3)) (fun t => (t.is (F.FLD_BM_Q_UNF 0 0), (t.queue 0).q.ra)) =
      some (true, 0) := by decide +kernel
/-- O13 to O15: the words of each command at both ports of an unprotected field, and a queue that holds a word. -/
theorem test_meets_accesses :
    (∀ p ∈ [BmPortSel.pa, .pb], ∀ cmd ∈ [0, 1, 2, 3, 4, 5, 6, 7, 8, 9, 15], ∀ aop ∈ [0, 1, 2, 3, 4, 5], let o := { tPort 0 with port := p }
      let s := tWords cmd aop 2047 9 (tQueue 1 1 0)
      s.portReady o = true ∧ (s.atPort o (tImage [] [])) = ⟨cmd, aop, 0, 2047, 9⟩) ∧
    (let u := (tQueue 1 1 0).portTurn (tPort 0)
     u.isProtected 0 = false ∧ u.popBarred 0 0 = false ∧ 0 < u.bmAvail 0 0 (u.fabricLimit 0 0)) := by decide +kernel
/-- O14, O15: a barred push and pop, a FIFO with room and full, a RING with room, full and stopped by a count, a MAILBOX message. -/
theorem test_meets_queues : (tQueue 0 0 0).pushBarred 0 0 = true ∧ (tQueue 0 0 0).popBarred 0 0 = true ∧
    (tQueue 1 0 0).pushBarred 0 0 = false ∧ (tQueue 1 15 0).bmRoom 0 0 1 = true ∧ (tQueue 1 16 0).bmRoom 0 0 1 = false ∧
    (tQueue 2 15 0).bmMode 0 0 = 2 ∧ (tQueue 2 15 0).bmRoom 0 0 1 = true ∧ gap 16 0 = (tQueue 2 16 0).bmSize 0 0 ∧
    (tQueue 2 16 0).pushBarred 0 0 = false ∧ (tQueue 1 3 3).bmAvail 0 0 ((tQueue 1 3 3).fabricLimit 0 0) = 0 ∧
    (let s := tSet [(F.FLD_BM_CFG_MSGL 0 0, 3)] (tQueue 3 0 0)
     s.pushBarred 0 0 = false ∧ s.bmMode 0 0 = 3 ∧ s.bmRoom 0 0 (s.bmMsgAll 0 0) = true ∧ 0 + 1 < s.bmMsg 0 0) := by decide +kernel
/-- O15: TRIG in RING mode and outside it, RESETQ in RAM mode and in another. -/
theorem test_trig_and_resetq :
    tSee (.trig (tPort 0)) (tWords 7 0 0 0 (tQueue 2 0 0)) (fun t => (t.queue 0).q.stop) = some true ∧
    tSee (.trig (tPort 0)) (tWords 7 0 0 5 (tQueue 1 0 0)) (fun t => t.is (F.FLD_BM_Q_BADCMD 0 0)) = some true ∧
    tSee (.resetq (tPort 0)) (tWords 8 0 0 0 (tQueue 0 0 0)) (fun t => t.is (F.FLD_BM_Q_BADCMD 0 0)) = some true ∧
    tSee (.resetq (tPort 0)) (tWords 8 0 0 0 (tQueue 1 9 3)) (fun t => (t.queue 0).q.rp) = some 9 := by decide +kernel

/-- A spine request of this type at memory 0: the words left to move. -/
def tJob (typ : Nat) (ap : Aperture) (todo : List Nat) : SpineJob :=
  { ni := 0, req := [{ Carriage.zero with typ := typ, payload := [9, 8] }], ap := ap, todo := todo, got := [], corrected := false,
    uncorr := false }
/-- O16: a pending write-back, a read and a write in service, and a patrol visit of a written word. -/
theorem test_meets_memory_cycles :
    (let s := (tQueue 0 0 0).setQueue 0 { QCtl.zero with backs := [⟨3, 4, 0⟩] }
     (s.queue 0).backs = [⟨3, 4, 0⟩] ∧ s.slotFree 0 0 0 = true ∧ tSee (.writeBack 0 0 0) s (fun t => t.word 0 3) = some (some ⟨4, 0⟩)) ∧
    (∀ typ ∈ [tRdWords, tWrWords], let s := ((tQueue 0 0 0).setQueue 0 { QCtl.zero with jobs := [tJob typ .data [0, 1]] }).setWord 0 0 (some ⟨5, 0⟩)
     s.mode.top ≠ .halt ∧ s.slotFree 0 0 7 = true ∧ s.isProtected 0 = false ∧ typ ≠ tAtomic ∧ (s.queue 0).backs = [] ∧
     isReadType typ = decide (typ = tRdWords) ∧ (s.queue 0).jobs = [tJob typ .data [0, 1]] ∧ s.word 0 0 = some ⟨5, 0⟩) ∧
    (let s := (tSet [(F.FLD_BMPAT_EN 0, 1), (F.FLD_BM_CFG_PATROL 0 0, 1), (F.FLD_BM_CFG_INITD 0 0, 1)] (tQueue 0 0 0)).setWord 0 0 (some ⟨5, 0⟩)
     s.nextVisit 0 = some 0 ∧ s.is (F.FLD_BMPAT_EN 0) = true ∧ s.slotFree 0 0 7 = true ∧ (s.queue 0).backs = [] ∧
     (s.queue 0).jobs = [] ∧ s.word 0 0 = some ⟨5, 0⟩) := by decide +kernel
/-- O17: a queue write that waits; fills of one memory and of all, begun and done. -/
theorem test_meets_fills :
    (let s := (tQueue 1 16 0).setQueue 0 { (tQueue 1 16 0).queue 0 with jobs := [tJob tWrWords .queue [0]] }
     (s.queue 0).jobs = [tJob tWrWords .queue [0]] ∧ s.jobWaits 0 0 = true ∧
     tSee (.queueWriteTimeout 0 0) s (fun t => (t.queue 0).jobs) = some []) ∧
    (tRun (tImage [] [])).fldEnabled 0 = true ∧ State.reset.fldEnabled 0 = false ∧ State.reset.domainOn 4 = true ∧
    tSee (.bminit 0 191) State.reset (fun t => (t.fld 0).fill) = some (some (some 191)) ∧
    tSee (.bminit 0 255) State.reset (fun t => (t.fld 0).fill) = some (some none) ∧
    tSee (.bminit 0 192) State.reset (fun t => (t.fld 0).fill) = some none ∧
    tSee (.bminit 0 0) (tRun (tImage [] [])) (fun t => t.is (F.FLD_BMINIT_REJ 0)) = some true ∧
    (let s := tRun (tImage [] []); let t := s.setFld 0 { s.fld 0 with fill := some (some 191) }
     t.memClock 0 = true ∧ (t.fld 0).fill = some (some 191)) := by decide +kernel
/-- O18: contention on a free segment holds it, and one on a re-enabled segment within 16 ticks leaves it to CLR, which lets it go. -/
theorem test_contention : let s := tRun (tImage [] []); s.isProtected 0 = false ∧ (s.seg 127).held = false ∧
    tSee (.contention 0 127 2000) s (fun t => ((t.seg 127).held, t.get (F.FLD_CONTSTAT_LASTSEG 0))) = some (true, 127) ∧
    tSee (.contention 0 127 2000) (s.setSeg 127 { SegSt.zero with autoAt := some 0 }) (fun t => (t.seg 127).clrOnly) = some true ∧
    (tAfter [.contention 0 127 2000, .contClr 0] s).map (fun t => (t.seg 127).held) = some false := by decide +kernel
/-- R93, R95: tap 0 of track 0 drives CO1 of cluster 0 onto its segment, and a relay takes the segment's value; without a driver a
segment reads 0. -/
theorem test_segment_loads :
    let i := { tImage [] [] with drivers := [0], taps := [(0, 1)], relays := [(0, NetSource.out 1)] }
    let s := (tLatch 1 [0, 9] (tRun i)).setSeg 1 { SegSt.zero with value := 5 }
    let t := s.comeTo 0 1
    s.image 0 = some i ∧ s.clocked 0 0 = true ∧ s.works 0 0 = true ∧ (t.seg 0).value = 9 ∧ (t.seg 128).value = 9 ∧
    (t.seg 1).value = 0 ∧ (t.seg 1).prev = 5 := by decide +kernel

/-! ## Frames, registers and commits -/

/-- The state in which field 0 stands as `g` makes it, with DONE and CHKFAIL on its control word. -/
def tFld (g : FieldSt → FieldSt) : State := let s := tLatch 1 [3] (tRun (tImage [] [])); s.setFld 0 (g (s.fld 0))
/-- O19: DONE in a frame and in a late one, the guard cycles, a late field to be STUCK, and the restart of a STUCK one. -/
theorem test_meets_frames :
    (tFld fun x => { x with cycle := 999 }).doneSampled 0 999 = true ∧
    (tFld fun x => { x with phase := .late, cycle := 5000 }).doneSampled 0 5000 = true ∧
    (tFld id).mode.running = true ∧ ((tFld id).fld 0).cycle ≤ (tFld id).budget 0 ∧
    (let s := tFld fun x => { x with doneAt := some 900, captured := true, cycle := 1000 }
     (s.fld 0).cycle = s.budget 0 ∧ (s.fld 0).failed = false ∧ (s.comeTo 0 1001).is (F.FLD_SNAPSTAT_DRAIN 0) = false ∧
     tSee (.guard2 0) s (fun t => (t.fld 0).cycle) = some 1001) ∧
    (let s := tFld fun x => { x with phase := .late, crossed := 16 }
     (s.fld 0).doneAt = none ∧ s.get (F.FLD_CTL_OVR_MAX 0) < (s.fld 0).crossed ∧
     tSee (.fieldStuck 0) s (fun t => ((t.fld 0).phase, (t.ni 2).causes.stuck)) = some (.stuck, true)) ∧
    (let s := tFld fun x => { x with phase := .stuck }
     bitOf 0 (s.reg R.SCR_UNCFG) = false ∧ tSee (.restart 0) s (fun t => (t.fld 0).restart) = some true) := by decide +kernel
/-- R39, R41: DONE in time is noted; R43: a frame without DONE overruns in guard cycle B. -/
theorem test_frame_ends :
    tSee (.done 0 900) (tFld fun x => { x with cycle := 900 }) (fun t => ((t.fld 0).doneAt, t.get (F.FLD_LASTDONE_CYC 0))) =
      some (some 900, 900) := by decide +kernel
theorem test_overrun :
    tSee (.guard1 0) (tFld fun x => { x with cycle := 1000 }) (fun t => ((t.fld 0).phase, t.is (F.FLD_FSTAT_OVERRUN 0))) =
      some (.late, true) := by decide +kernel
/-- O20: a tick that counts on, one that places a number, and none without an edge; PERIOD is 125 beats at reset. -/
theorem test_meets_ticks :
    (tOn.time.nextTick = some 100 ∧ tOn.mode.drain ≠ some .valley ∧ tOn.time.lock ≠ .raise ∧ tOn.staged = []) ∧ tOn.period = 125 ∧
    State.reset.time.nextTick = none := by decide +kernel
/-- O21: a protected frame in which CHKFAIL counts, a rewound one, a window that closes, a drain that ends. -/
theorem test_meets_protected : let on := tSet [(F.FLD_PROT_EN 0, 1), (F.FLD_PROT_CHKEN 0, 1)]
    (let s := on (tFld id)
     s.isProtected 0 = true ∧ s.is (F.FLD_PROT_CHKEN 0) = true ∧ s.executes 0 0 = true ∧ (s.fld 0).doneAt = none ∧
     (s.fld 0).phase = .frame ∧ (s.fld 0).rewound = false ∧ (s.fld 0).failed = false ∧
     ((s.comeTo 0 0).controlWord 0 ((s.fld 0).stamp 0)).getLsbD 1 = true ∧ (s.comeTo 0 0).isProtected 0 = true ∧
     (s.comeTo 0 0).is (F.FLD_PROTSTAT_REPLAYING 0) = false ∧ s.overflowed 0 = false ∧
     (s.comeTo 0 0).is (F.FLD_SNAPSTAT_DRAIN 0) = false ∧
     tSee (.chkfail 0 0) s (fun t => ((t.fld 0).rewound, (t.fld 0).cycle)) = some (true, 1)) ∧
    (let s := on (tFld fun x => { x with rewound := true, cycle := 6 })
     (s.fld 0).rewound = true ∧ s.cfg.repairs = [] ∧ tSee (.replayStart 0 6) s (fun t => (t.fld 0).base) = some 6) ∧
    (let s := tSet [(F.FLD_WMAX_CYC 0, 900)] (on (tFld fun x => { x with doneAt := some 900 }))
     s.isProtected 0 = true ∧ 900 ≤ s.get (F.FLD_WMAX_CYC 0) ∧ (s.fld 0).rewound = false ∧ (s.fld 0).failed = false ∧
     tSee (.verificationWindowClose 0) s (fun t => t.is (F.FLD_PROTSTAT_VERIFIED 0)) = some true) ∧
    (let s := tSet [(F.FLD_SNAPSTAT_DRAIN 0, 1)] (tFld id)
     s.is (F.FLD_SNAPSTAT_DRAIN 0) = true ∧ (s.fld 0).snapLeft = 0) := by decide +kernel

/-- O22: TRG OUT at 0x58100, SCR at 0xE1000, by each path, with nothing staged. -/
theorem test_meets_register_writes : ∀ off ∈ [0x58100, 0x58140, 0xE1000, 0xE1008], ∃ x, regAt off = some x ∧
    (x.block.block = .trg ∨ x.block.block = .scr) ∧ x.desc.pair = .single ∧ x.loc ≠ 0xFC ∧ msixReg off = none ∧
    (∀ p ∈ [Path.host, .debug, .steward], State.reset.waits p off = false) ∧
    State.reset.power.powered = true ∧ State.reset.writable x = true ∧ State.reset.staged = [] := by
  decide +kernel
/-- R12, R15: of SCR.CTL, 0xB at reset, the LIVE bits 1:0 take the data, the SHADOW bits 3:2 wait. -/
theorem test_register_write :
    tSee (.registerWrite .host 0xE1000 4 4) tOn (fun t => (t.reg R.SCR_CTL, t.staged)) =
      some (8, [(0xE1000, { Staged.none with hostMask := 0xC, hostVal := 4 })]) := by decide +kernel
/-- O23: a LO half of TRG, an RC register of TIME, and a HI half with its LO half staged. -/
theorem test_meets_pairs :
    (∀ off ∈ [0x40410, 0x58020, 0x58024], State.reset.waits .host off = false ∧ tOn.waits .debug off = false) ∧
    (∃ x, regAt 0x40410 = some x ∧ x.desc.pair = .single ∧ x.desc.bitsWhere (fun f => f.access == .rc) ≠ 0 ∧
      State.reset.readable x = true ∧ x.ref.off ≠ R.TIME_NOW_LO.off ∧ x.ref.off ≠ R.TIME_NOWX.off ∧
      ¬ (x.block.block = .time ∧ 0x800 ≤ x.loc ∧ (x.loc - 0x800) % 64 = 8)) ∧
    (∃ x, regAt 0x58020 = some x ∧ x.desc.pair = .lo ∧ (regAt (x.ref.off + 4)).isSome = true ∧
      tSee (.loRead .host 0x58020 4) (tOn.setReg R.TRG_FABADDR_LO 7) (fun t => t.readOut) = some (.host, 7)) ∧
    (∃ x, regAt 0x58024 = some x ∧ x.desc.pair = .hi ∧ x.block.block = .trg ∧ x.desc.rw .shadow = 2 ^ 16 - 1 ∧
      ∃ l, regAt 0x58020 = some l ∧ l.desc.rw .shadow = 2 ^ 32 - 1 ∧ l.block.block = .trg ∧ l.ref.off = 0x58020 ∧
      tOn.writable x = true ∧
      (let s := { tOn with hostPath := { PathSt.zero with staging := [(0x58020, some 5)] } }
       SMap.get (s.path .host).staging none 0x58020 = some 5 ∧
       tSee (.hiWrite .host 0x58024 9) s (fun t => ((SMap.get t.staged Staged.none 0x58020).hostVal,
         (SMap.get t.staged Staged.none 0x58024).hostVal)) = some (5, 9))) := by decide +kernel
/-- O24: the COMMIT registers of CLK (GO kind) and of TIME (TICK kind). -/
theorem test_meets_commits :
    (commitAt 0x300FC).map (fun b => (b.1.block, b.1.commit, b.2, b.1.holds 0 0x30020)) = some (.clk, .go, 0, true) ∧
    (commitAt 0x400FC).map (fun b => (b.1.block, b.1.commit, b.2)) = some (.time, .tick, 0) ∧
    (∀ o ∈ [0x300FC, 0x400FC], ∃ x, regAt o = some x ∧ tOn.writable x = true ∧ msixReg o = none ∧ tOn.waits .host o = false) ∧
    (tSet [(F.TIME_STATUS_TICKS, 1)] tOn).is F.TIME_STATUS_TICKS = true := by decide +kernel
theorem test_commit_go :
    let s := { tOn with staged := [(0x60004, { Staged.none with hostMask := 1, hostVal := 1, stwMask := 3, stwVal := 2 })] }
    tSee (.commitGo .host 0x600FC false) s (fun t => (t.staged, t.reg ⟨0x60004, 0⟩ % 4)) = some ([], 3) := by decide +kernel

/-! ## Modes, power, clocks and loads -/

/-- Time stands, no field is configured, and the base mode is this one. -/
def tMode (m : Mode) : State := { State.reset with mode := { State.reset.mode with base := m } }
/-- O25: the requests that Table 1-5 allows, each in its mode. -/
theorem test_meets_mode_requests :
    (tMode .staged).refuses [.staged] = false ∧ (tMode .run).refuses [.run, .holdover] = false ∧
    (tMode .holdover).refuses [.run, .holdover] = false ∧ (tMode .bare).refuses [.bare, .staged] = false ∧
    (tMode .staged).staged = [] ∧ (tMode .staged).cfg.load = none ∧ (tMode .locking).mode.top = .locking ∧
    (let s := tSet [(F.CLK_STAT_TBLOCK, 1), (F.CLK_STAT_FABLOCK, 1), (F.CLK_STAT_SPNLOCK, 1), (F.CLK_STAT_STWLOCK, 1),
         (F.CLK_STAT_HBRLOCK, 1), (F.CLK_STAT_LNGLOCK, 15), (F.CLK_STAT_DRCLOCK, 1)] (tMode .run)
     let s := { s with mode := { s.mode with ov := { s.mode.ov with safeHold := true } } }
     s.mode.ov.safeHold = true ∧ s.mode.busy = false ∧ s.synthsLocked = true ∧ s.power.safeN = true ∧
     tSee (.reqRelease []) s (fun t => (t.mode.ov.safeHold, t.mode.base)) = some (false, .bare)) ∧
    (let s := (tSet [(F.BIST_CTL_FIELD, 1)] (tMode .bare)).setReg R.BIST_FMAP 0x800001
     s.is F.BIST_CTL_FIELD = true ∧ (allFields.filter fun g => bitOf g (s.reg R.BIST_FMAP)) = [0, 23]) := by decide +kernel
theorem test_mode_requests :
    tSee .reqRun (tMode .staged) (fun t => (t.mode.base, t.reg R.GLB_TRANS)) = some (.locking, 0x132) ∧
    tSee .reqStop (tMode .run) (fun t => t.mode.drain) = some (some .stop) ∧
    tSee .reqUnload (tMode .staged) (fun t => t.mode.base) = some .bare ∧
    tSee .lockTimeout (tMode .locking) (fun t => (t.mode.base, t.is F.GLB_ERR_LOCKTO)) = some (.staged, true) := by decide +kernel
/-- O26: every request where Table 1-5 does not allow it, and while BUSY. -/
theorem test_meets_rejections : (tMode .run).refuses [.staged] = true ∧ (tMode .staged).refuses [.run, .holdover] = true ∧
    (tMode .locking).refuses [.bare, .staged, .run, .holdover] = true ∧ (tMode .run).refuses [.bare, .staged] = true ∧
    (tMode .run).mode.ov.safeHold = false ∧
    (let s := { tMode .staged with mode := { (tMode .staged).mode with busy := true } }
     s.refuses [.staged] = true ∧ tSee .reqRun s (fun t => (t.is F.GLB_ERR_BUSYREJ, t.mode.base)) = some (true, .staged)) ∧
    tSee .reqRun (tMode .run) (fun t => t.is F.GLB_ERR_REJECT) = some true := by decide +kernel
/-- O27: powered and not; the reset by software with its two values, and with a wrong one. -/
theorem test_meets_resets : State.reset.power.powered = true ∧
    tSee .perstN (tRun (tImage [] [])) (fun t => (t.images, t.get F.PWR_RSTCAUSE_CAUSE, t.mode.base)) = some ([], 1, .bare) ∧
    tSee (.softwareReset .host 0x5245 0x5354 1024) tOn (fun t => t.mode.base) = some .bare ∧
    tSee (.softwareReset .host 0x5245 0x5355 1024) tOn (fun t => t.mode.base) = some .run ∧
    tSee .supplyLoss tOn (fun t => t.power.powered) = some false ∧
    (tAfter [.supplyLoss, .powerOn] tOn).map (fun t => (t.power.powered, t.mode.base)) = some (true, .bare) := by decide +kernel
/-- O28: a raise and a lowering in progress, VMOK, both undervoltage policies. -/
theorem test_meets_operating_points :
    (let s := { tOn with power := { tOn.power with raising := some 2, old := 1 } }
     s.power.good = false ∧ tSee .powerGood s (fun t => t.power.good) = some true ∧
     tSee .pgtmo s (fun t => (t.get F.PWR_OPSTAT_OPV, t.is F.PWR_ERR_PGTMO)) = some (1, true)) ∧
    (let s := { tSet [(F.PWR_OPSTAT_BUSY, 1)] tOn with power := { tOn.power with lowering := true } }
     tSee .vcoreSettled s (fun t => t.is F.PWR_OPSTAT_BUSY) = some false) ∧
    tSee (.voutModeRead none) tOn (fun t => t.is F.PWR_ERR_VMODE) = some true ∧
    (let s := tSet [(F.PWR_OPSTAT_VMOK, 1)] { tOn with power := { tOn.power with raising := some 2, target := 900 } }
     s.is F.PWR_OPSTAT_VMOK = true ∧ s.power.fails + 1 < 3 ∧ ((915 : Int) - s.power.target).natAbs ≤ 15 ∧
     tSee (.pmbusPoll (.status true 915)) s (fun t => t.power.good) = some true) ∧
    tSee .undervoltage (tSet [(F.PWR_CTL_UVPOL, 1)] tOn) (fun t => (t.is F.PWR_ERR_UV, t.mode.ov.freeze)) = some (true, false) ∧
    tSee .undervoltage (tSet [(F.PWR_CTL_UVPOL, 0)] tOn) (fun t => (t.is F.PWR_ERR_UV, t.mode.ov.freeze)) = some (true, true) := by
  decide +kernel
/-- O29: failover and none, the loss of REFCLK_LOC in use, a lock, an unlock, SAFE_N. -/
theorem test_meets_clocks :
    (let s := tSet [(F.CLK_STAT_CHOK, 1), (F.CLK_STAT_LOCOK, 1), (F.CLK_STAT_RATIOV, 1), (F.CLK_CTL_FAILOVER, 1), (F.CLK_STAT_TBLOCK, 1)] tOn
     s.onCh = true ∧ s.anyLock = true ∧ s.is F.CLK_CTL_FAILOVER = true ∧ s.mode.suspended = false ∧
     tSee .refclkChLoss s (fun t => (t.mode.base, t.is F.CLK_STAT_ONLOC)) = some (.holdover, true)) ∧
    (let s := tSet [(F.CLK_STAT_TBLOCK, 1), (F.CLK_CTL_FAILOVER, 0)] tOn
     s.onCh = true ∧ s.anyLock = true ∧ tSee .refclkChLoss s (fun t => t.mode.ov.safeHold) = some true) ∧
    (let s := tSet [(F.CLK_STAT_ONLOC, 1), (F.CLK_STAT_TBLOCK, 1), (F.CLK_CTL_FAILOVER, 1), (F.CLK_LOCFREQ_KHZ, 100000)] tOn
     s.locEnabled = true ∧ s.onCh = false ∧ s.anyLock = true ∧ s.is F.CLK_CTL_PRIM = false ∧
     tSee .refclkLocLoss s (fun t => t.is F.CLK_ERR_LOCLOSS) = some true ∧
     tSee (.ratioValid 7) s (fun t => t.is F.CLK_STAT_RATIOV) = some true ∧
     tSee .requalify s (fun t => t.is F.CLK_STAT_ONLOC) = some false) ∧
    (State.reset.synthsLocked = false ∧ State.reset.time.running = false ∧ State.reset.is F.CLK_CTL_PRIM = false ∧
     tSee (.synthLock (some 100000) none) State.reset (fun t => (t.time.running, t.time.nextTick)) = some (true, some 2000)) ∧
    tSee (.safeN true) tOn (fun t => (t.mode.ov.safeHold, t.time.nextTick)) = some (true, none) ∧
    (let s := tSet [(lockBit 3, 1)] tOn; tSee (.synthUnlock 3) s (fun t => t.mode.ov.safeHold) = some true) := by decide +kernel
/-- O30: a drain that ends and one that times out, a switch-on, VALLEY's entry, wake and end. -/
theorem test_meets_domains :
    (let s := { tOn with power := { tOn.power with steps := [(4, 4)] } }
     s.domainsMove = true ∧ s.domStep 4 = 4 ∧ (∀ k ∈ switchable, k ≠ 4 → s.domStep k = 0) ∧ s.staged = []) ∧
    (let s := { tOn with power := { tOn.power with steps := [(4, 3), (40, 2)] }
                         nis := [(0, { NiSt.zero with trackers := [⟨[], 0, [], false, false, true, none, .fabric⟩] })] }
     s.domStep 4 = 3 ∧ s.awaitsNothing 4 = false ∧ s.domStep 40 = 2 ∧ 40 ∈ switchable) ∧
    (let s := tOn.setReg R.PWR_DOMSTAT0 0xF
     s.mode.ov.halt = false ∧ s.power.waiting = false ∧ s.domainWanted 4 = true ∧ s.domainOn 4 = false) := by decide +kernel
/-- VALLEY over BARE, in this state of its entry or wake, with both wake inputs enabled. -/
def tValley (st : Nat) : State := tSet [(F.PWR_VALLEY_STATE, st), (F.PWR_VALLEY_WNEN, 1), (F.PWR_VALLEY_L1EN, 1)]
  { tMode .bare with mode := { (tMode .bare).mode with busy := true, ov := { State.reset.mode.ov with valley := true } } }
theorem test_meets_valley :
    (let s := { tValley 1 with power := { State.reset.power with steps := valleyDomains.map fun k => (k, 4) } }
     s.get F.PWR_VALLEY_STATE = 1 ∧ s.inProgress = 0 ∧ s.is F.PWR_OPSTAT_BUSY = false ∧ (∀ k ∈ valleyDomains, s.domStep k = 4) ∧
     s.get F.PWR_VALLEY_SRC = 0) ∧
    tSee .wakeN (tValley 2) (fun t => (t.get F.PWR_VALLEY_SRC, t.get F.PWR_VALLEY_STATE)) = some (1, 3) ∧
    tSee .l1Exit (tValley 2) (fun t => t.get F.PWR_VALLEY_SRC) = some 2 ∧
    tSee .wakeComplete (tValley 3) (fun t => t.mode.ov.valley) = some false := by decide +kernel
/-- What a header without a map, a patch or encryption says. -/
def tInfo (full : Bool) : ImageInfo := ⟨full, 553, 0, 0, 0, false, false, 0, false, 25, 0, 0⟩
/-- A load from queue pair 0 in this phase, full or partial. -/
def tLoad (ph : LoadPhase) (full : Bool) (l : List (Nat × FieldImage)) : LoadSt :=
  { LoadSt.start (some 0) false with phase := ph, sections := l, info := some (tInfo full) }
/-- LOADING with this load in progress. -/
def tLoading (l : LoadSt) : State := { tMode .loading with cfg := { CfgSt.zero with load := some l } }
/-- Every DRAM channel runs. -/
def tDram (s : State) : State := tSet ((List.range 8).map fun c => (F.DRC_STAT_STATE c, 2)) s
/-- O31: the store examined, a load from it, a build that runs. -/
theorem test_meets_store :
    State.reset.storeLoad = false ∧ State.reset.is F.CFG_STATUS_GBUSY = false ∧ (tLoading (tLoad .ingest true [])).storeLoad = true ∧
    (let s := tSet [(F.CFG_STATUS_STOREOK, 1)] State.reset
     s.cfg.load = none ∧ tSee .goldbuild s (fun t => t.is F.CFG_STATUS_GBUSY) = some true) ∧
    tSee .goldbuild State.reset (fun t => t.is F.CFG_STATUS_GBUSY) = some false ∧
    (let s := tSet [(F.CFG_STATUS_GBUSY, 1)] { tOn with images := [(23, tImage [] [])] }
     s.mode.ov.valley = false ∧ s.mode.ov.safeHold = false ∧ s.mode.ov.freeze = false ∧ s.configured 23 = true ∧ s.configured 0 = false ∧
     ((BuildSt.mk s [] []).frame 31 63 [] []).unmarked = [31] ∧ ((BuildSt.mk (tDram s) [] []).frame 31 63 [] []).unmarked = []) := by
  decide +kernel
/-- O32: time-out, ABORT in two phases, a tag that cannot be checked, a flash that brings nothing. -/
theorem test_meets_failed_loads :
    tSee .loadSourceTimeout (tLoading (tLoad .ingest true [])) (fun t => (t.cfg.load, t.get F.CFG_ERR_CODE, t.mode.base)) = some (none, 0xB, .bare) ∧
    tSee .abort (tLoading (tLoad .verify true [])) (fun t => t.get F.CFG_ERR_CODE) = some 0xA ∧
    tSee .abort (tLoading (tLoad .write true [])) (fun t => t.is F.CFG_ERR_ABORTLATE) = some true ∧
    (let l := { tLoad .verify true [] with info := some { tInfo true with enc := true } }
     l.tagGood { tInfo true with enc := true } = false ∧ tSee .verify (tLoading l) (fun t => t.get F.CFG_ERR_CODE) = some 5) ∧
    (let s := tLoading (LoadSt.start none true)
     s.straps.mode ≠ 1 ∧ tSee (.flashLoad none) s (fun t => t.get F.CFG_ERR_CODE) = some 0xB ∧
     tSee (.flashLoad none) { s with straps := { s.straps with mode := 1 } } (fun t => t.is F.CFG_STATUS_FLASHSLOT) = some true) := by
  decide +kernel
/-- What verify finds of an image that is not encrypted, is full and keeps every bound: whatever the curve arithmetic answers decides. -/
theorem verifyFails_of_bounds {s : State} {l : LoadSt} {x : ImageInfo} (he : x.enc = false) (hn : s.needFails l x = none)
    (hd : twoDrivers (s.cfgAfter l x) x.fields = none) (hp : x.patch = false) (hf : x.full = true) (ho : s.noOwner = true) :
    s.verifyFails l x = if l.sigGood x then none else some (.ofCode 3) := by
  cases h : l.sigGood x <;> simp [State.verifyFails, he, hn, hd, hp, hf, ho, h]
/-- O32, O33: the image of `tLoad` is taken or fails with SIGNATURE, as its signature says; with an owner key in slot 0 it fails with
OWNERKEY unless the digest is that key's. -/
theorem test_meets_verdicts : let l := tLoad .verify true []; let x := tInfo true; let s := tLoading l
    (s.noteOwner l.keyDigest).verifyFails l x = (if l.sigGood x then none else some (.ofCode 3)) ∧
    (let s := { s with fuses := { s.fuses with owners := [(0, [1])], revoked := 1 } }
     s.noOwner = false ∧ s.ownerSlot l.keyDigest = none) :=
  ⟨verifyFails_of_bounds rfl (by decide +kernel) (by decide +kernel) rfl rfl (by decide +kernel), by decide +kernel⟩
/-- The words of a full image without fields: header, device section, signature block. -/
def tImageWords : List Word :=
  [0x504346470100, 553, 0x000000104824] ++ List.replicate 125 0 ++ [392] ++ List.replicate 424 0
/-- O33: that image from flash is complete and names no field; its signature decides. -/
theorem test_meets_flash_image : let s := tLoading (LoadSt.start none true)
    let r := s.ingest (LoadSt.start none true) tImageWords []
    r.fail = none ∧ r.load.complete = true ∧ r.load.direct = true ∧ r.load.info.map (·.full) = some true ∧
    r.load.info.map (·.length) = some 553 := by decide +kernel
/-- O33: the write phase in HALT, of a full and a partial image, and one whose store cannot be read; a field that has drained. -/
theorem test_meets_write_phase : let w := tLoading (tLoad .write true [])
    ((w.readSlots (tLoad .write true []) []).2 = some [] ∧
      (w.getSlot 31 (w.spareSlot 31) 0 0 []).2 = some [] ∧ w.is F.GLB_LOCKCFG_AUTORUN = false ∧ w.mode.ov.halt = false ∧
      tSee (.writePhase []) w (fun t => (t.mode.base, t.cfg.load, t.mode.ov.freeze)) = some (.staged, none, false)) ∧
    ((tInfo false).full = false ∧ (w.readSlots (tLoad .write false []) []).2 = some []) ∧
    (let l := { tLoad .write true [] with device := [392] }; let s := tLoading l
     (s.getSlot 31 (s.spareSlot 31) 0 1 []).2 = none ∧ tSee (.writePhase []) s (fun t => t.mode.ov.freeze) = some true ∧
     ((tDram s).getSlot 31 ((tDram s).spareSlot 31) 0 1 []).2.isSome = true) ∧
    (let s := { tOn with cfg := { CfgSt.zero with load := some { tLoad .draining false [(3, tImage [] [])] with stopped := [(3, 0)] } } }
     s.servedAll 7 = true ∧ s.staged = [] ∧ tSee (.reshapeWrite 3) s (fun t => ((t.fld 3).drained, t.cfg.load.map (·.phase))) = some (true, some .write)) := by
  decide +kernel
/-- O34: frames sensed clean and correctable, a repair by the code, from the golden copy and without one, a scan. -/
theorem test_meets_scrubbing : let s := { tOn with images := [(0, tImage [] [])] }
    let q (g : Bool) (s : State) : State := { s with cfg := { s.cfg with repairs := [⟨0, 5, 1, false, g⟩] } }
    let one : FrameErrors := ⟨[(127, 47)], []⟩
    s.senses 0 = true ∧ 3583 < framesOf 0 ∧ s.senses 1 = false ∧ framesOf 24 = 0 ∧ (q true s).repairs = true ∧
    (∀ n < 6, (FrameErrors.mk [] []).ilv n = 0) ∧ (∀ n < 6, one.ilv n ≤ 2) ∧ one.ilv 5 = 1 ∧
    tSee (.sense 0 3583 one 9 0) s (fun t => t.cfg.repairs) = some [⟨0, 3583, 32, false, false⟩] ∧
    tSee (.repair [] []) (q false s) (fun t => t.cfg.repairs) = some [] ∧
    (let s := tSet [(F.SCR_CTL_GOLDEN, 1), (F.CFG_GVALID_MAP, 1)] (tDram (q true s))
     s.is F.SCR_CTL_GOLDEN = true ∧ s.goldenHas 0 = true ∧ (s.goldenFrame 0 5 []).2.isSome = true) ∧
    (let s := tSet [(F.SCR_CTL_UNCPOL, 0)] (q true s)
     tSee (.repair [] []) s (fun t => ((t.fld 0).phase, t.is ⟨R.SCR_UNCFG, 0, 1⟩)) = some (.stuck, true)) ∧
    (let s := tSet [(F.SCR_CTL_UNCPOL, 1)] (q true s); tSee (.repair [] []) s (fun t => t.mode.ov.freeze) = some true) ∧
    (let s := tSet [(F.SCR_CTL_SCANEN, 1), (F.CFG_GVALID_MAP, 3)] (tDram s)
     s.scanNext = some 0 ∧ (s.goldenFrame 0 0 []).2.map (·.length) = some 128 ∧ (s.frameWords 0 0).length = 0 ∧
     (s.frameCheck ⟨[], []⟩).1 = .clean) := by decide +kernel

/-! ## Spine -/

/-- A request carriage of this type at this address, from NI 0. -/
def tReq (typ : Nat) (addr : Word) : Carriage := { Carriage.zero with typ := typ, addr := addr, payload := [5, 6], mask := 3 }
/-- Field 0 runs, and these requests stand at NI n. -/
def tAt (n : Nat) (l : List Carriage) : State := (tRun (tImage [] [])).setNi n { NiSt.zero with inReq := l }
/-- Whether a packet of one carriage stands first at an NI and is served, as the statements ask. -/
def tAsks (s : State) (n : Nat) (c : Carriage) : Bool :=
  s.domainOn 2 && firstWhole (s.ni n).inReq == some [c] && !badRequest c && s.niServes n c && c.status == stOk
theorem tAsks_spec {s : State} {n : Nat} {c : Carriage} (h : tAsks s n c = true) : Asks s n [c] c := by
  simp [tAsks] at h
  obtain ⟨⟨⟨⟨h1, h2⟩, h3⟩, h4⟩, h5⟩ := h
  exact ⟨h1, h2, rfl, h3, h4, by simp [h5]⟩
/-- O36: requests of every kind at a field NI, at the corner addresses of memory 0 and 191, and at NIs 92 and 93. -/
theorem test_meets_requests :
    ([tRdLine, tRdWords, tWrLine, tWrWords, tAtomic, tFence].all fun typ => ([0, 0x5FFFF] : List Word).all fun a =>
      tAsks (tAt 0 [tReq typ a]) 0 (tReq typ a) && !(tAt 0 [tReq typ a]).niProtected 0) = true ∧
    (0x5FFFF < 2 ^ 21 ∧ bitsOf 19 2 0x5FFFF = 0 ∧ bitsOf 11 8 0x5FFFF = 191) ∧ isCas (tReq tAtomic 0) = false := by decide +kernel
theorem test_meets_requests_served :
    (let s := tSet [(F.FLD_BM_CFG_SPORT 0 0, 1)] (tAt 71 [])
     s.bmRefusal 0 0 0 (tReq tRdWords 0) 2 = none ∧ s.niServes 71 (tReq tRdWords 0) = true) ∧
    tAsks (tAt 0 [tReq tFence 0]) 0 (tReq tFence 0) = true ∧
    ((tAt 0 []).ni 0).accepted = 0 := by decide +kernel
theorem test_meets_requests_at_units :
    tAsks (tAt 93 [tReq tTrigger 0]) 93 (tReq tTrigger 0) = true ∧ (tReq tTrigger 0).mask = 3 ∧ ((tReq tTrigger 0).word 1).toNat < 128 ∧
    tAsks (tAt 93 [tReq tEvent 0]) 93 (tReq tEvent 0) = true ∧ tAsks (tAt 0 [tReq tBcast 0]) 0 (tReq tBcast 0) = true ∧
    (tSet [(F.NI_CTL_BCACC 0, 1)] (tAt 0 [])).is (F.NI_CTL_BCACC 0) = true ∧ (tAt 0 []).is (F.NI_CTL_BCACC 0) = false := by decide +kernel
theorem test_meets_cfg :
    (let c := { tReq tCfg 0 with payload := [0x10000] }
     tAsks (tAt 92 [c]) 92 c = true ∧ c.cfgWrites = false ∧ (c.word 0).toNat % 4 = 0) := by decide +kernel
/-- R137, R138: a read and a write wait at the memory; an unserved port of it is DENIED. -/
theorem test_requests_wait : let on := tSet [(F.FLD_BM_CFG_SPORT 0 0, 1)]
    tSee (.rdLine 0) (on (tAt 0 [tReq tRdLine 0])) (fun t => (t.queue 0).jobs.map (·.todo.length)) = some [16] ∧
    tSee (.wrWords 0) (on (tAt 0 [tReq tWrWords 0])) (fun t => (t.queue 0).jobs.map (·.todo)) = some [[0, 1]] ∧
    tSee (.rdLine 0) (tAt 0 [tReq tRdLine 0]) (fun t => (t.queue 0).jobs) = some [] := by decide +kernel
/-- O37: a malformed request, and one that a closed NI does not serve. -/
theorem test_meets_refusals : badRequest (tReq 0x0B 0) = true ∧ badRequest { tReq tRdWords 0 with len := 1 } = true ∧
    (let s := (tRun (tImage [] [])).setNi 0 { NiSt.zero with inReq := [tReq tWrLine 0], causes := ⟨false, true, false, false⟩ }
     s.domainOn 2 = true ∧ firstWhole (s.ni 0).inReq = some [tReq tWrLine 0] ∧ s.niServes 0 (tReq tWrLine 0) = false ∧
     badRequest (tReq tWrLine 0) = false) := by decide +kernel
/-- An outstanding request of the fabric of NI 0 with SEQ 9. -/
def tTracker (use : Use) : Tracker := ⟨[{ tReq tRdWords 0 with seq := 9 }], 0, [], false, false, true, none, use⟩
/-- A response to it. -/
def tRsp (typ status : Nat) : Carriage := { tReq typ 0 with rsp := true, seq := 9, status := status, otype := tRdWords }
/-- O38: responses and bounces, tracked, untracked and fit for ALT, and a request that times out. -/
theorem test_meets_responses :
    let s (typ st : Nat) := (tRun (tImage [] [])).setNi 0 { NiSt.zero with inRsp := [tRsp typ st], trackers := [tTracker .fabric] }
    (∀ typ ∈ [tRdResp, tWrAck, tAtomicResp, tFenceAck, tBounce], (s typ 0).domainOn 2 = true ∧
      firstWhole ((s typ 0).ni 0).inRsp = some [tRsp typ 0] ∧ (s typ 0).sinksResponses 0 = false ∧ (s typ 0).discards 0 = false ∧
      (s typ 0).trackerOf 0 (tRsp typ 0) = some (tTracker .fabric) ∧ (s typ 0).is (F.FLD_SNAPSTAT_DRAIN 0) = false) ∧
    (s tRdResp 0).trackerOf 0 { tRsp tRdResp 0 with seq := 8 } = none ∧ expectsResponse tRdWords = true ∧
    (s tBounce stRouteClosed).mayRetry 0 (tTracker .fabric) (tRsp tBounce stRouteClosed) = false ∧
    (let r := tSet [(F.NI_CTL_RETRYALT 0, 1)] ((tRun (tImage [] [])).setNi 0
       { NiSt.zero with inRsp := [tRsp tBounce stRouteClosed], trackers := [tTracker .fabric], active := { NiTables.zero with route := [(0, 0x4000000000)] } })
     r.mayRetry 0 (tTracker .fabric) (tRsp tBounce stRouteClosed) = true) ∧
    tSee (.rdResp 0) (s tRdResp 0) (fun t => ((t.ni 0).rx.length, (t.ni 0).trackers)) = some (1, []) ∧
    tSee (.requestTimeout 0 9) (s tRdResp 0) (fun t => (t.is (F.NI_STAT_TMO 0), (t.ni 0).trackers)) = some (true, []) := by decide +kernel
/-- Tables in which window 0 covers every address, allows reads and writes and names route entry 0, which is open. -/
def tTables : NiTables := { win := [(1, 0xFFFFFFFFFFFF), (3, 0xD00)], route := [(0, 0x2000000000)], slot := [(0, 1)] }
/-- NI 0 of a running field with these tables, and these command and data words on the tracks its transmit port takes. -/
def tTx (cmd d : Word) (tb : NiTables) : State :=
  let i := { tImage [] [] with outTracks := [(640, 1), (641, 2)], niTracks := [(0, (0, 1))] }
  tLatch 2561 [cmd, d] ((tRun i).setNi 0 { NiSt.zero with stHead := 2, active := tb })
/-- O39: in and outside executing cycles; each STEP; SEND with and without a window, and with TXRDY 0. -/
theorem test_meets_transmit :
    let u := (tTx 4 0 tTables).txTurn 0 0
    (tTx 4 0 .zero).executes 0 0 = true ∧ (tTx 4 0 .zero).executes 0 1000 = false ∧ (tTx 4 0 .zero).executes 1 0 = false ∧
    (tTx 4 0 .zero).image 0 = some { tImage [] [] with outTracks := [(640, 1), (641, 2)], niTracks := [(0, (0, 1))] } ∧
    ((tTx 4 0 .zero).ni 0).portAt ≠ some (1, 0) ∧
    (∀ step ∈ [0, 1, 2, 3, 4, 5, 15], let x := tTx (BitVec.ofNat 48 (16 * 63 + step)) 7 tTables
      (x.txTurn 0 0).txWords { tImage [] [] with outTracks := [(640, 1), (641, 2)], niTracks := [(0, (0, 1))] } 0 (1, 0) =
        (BitVec.ofNat 48 (16 * 63 + step), 7)) ∧
    (u.stagedRequest 0).typ = tRdWords ∧ u.txReady 0 tRdWords 0 = true ∧ u.niProtected 0 = false ∧
    isRequestType tRdWords = true ∧ lenAllowed tRdWords 0 = true ∧ tTables.match? 0 = some 0 ∧ NiTables.zero.match? 0 = none ∧
    kindAllowed (tTables.window 0 3) tRdWords 0 = true ∧ (u.translate tTables 0 0).2 = 0 ∧ bitOf 37 (tTables.routeWord 0 0) = true ∧
    (let c := u.setNi 0 { NiSt.zero with causes := ⟨false, true, false, false⟩ }; c.txReady 0 tRdWords 0 = false) := by decide +kernel
theorem test_send :
    tSee (.send 0 0) (tTx 4 0 tTables) (fun t => ((t.ni 0).seq, (t.ni 0).trackers.length, (t.ni 0).stHead)) = some (1, 1, 0) ∧
    tSee (.send 0 0) (tTx 4 0 .zero) (fun t => ((t.ni 0).seq, t.is (F.NI_STAT_NOWIN 0))) = some (0, true) ∧
    tSee (.addr 0 0) (tTx 1 7 .zero) (fun t => (t.ni 0).stAddr) = some 7 ∧
    tSee (.word 0 0) (tTx 0x3F3 7 .zero) (fun t => (t.ni 0).stWords) = some [(63, 7)] := by decide +kernel
/-- O35: no carriage, a winner to the east and to LOCAL, a CLOSED port. -/
theorem test_meets_hops :
    let c (d : BitVec 30) : Carriage := { tReq tWrWords 0 with route := d }
    let s (d : BitVec 30) := (tRun (tImage [] [])).setRouter 10 { RouterSt.zero with bufs := [(0, [⟨c d, some 0, []⟩])] }
    tOn.domainOn 2 = true ∧ tOn.winner 10 1 0 = none ∧
    (s 1).winner 10 1 0 = some (.vc 0, ⟨c 1, some 0, []⟩) ∧ ((s 1).router 10).fate (c 1) = none ∧ ((s 1).router 10).begunAt 1 (c 1) = none ∧ ((s 1).router 10).fast = [] ∧ (c 1).isBcast = false ∧
    (c 1).wants = some 1 ∧ (c 1).guar = false ∧ (s 1).portState 10 1 = .opened ∧ SMap.get ((s 1).router 10).sent 0 1 ≤ 0 ∧
    (s 4).winner 10 4 0 = some (.vc 0, ⟨c 4, some 0, []⟩) ∧ (c 4).wants = some 4 ∧
    (let r := (s 1).setReg (R.NOC_PORTCTL 10) 4
     r.portState 10 1 = .closed ∧ r.winner 10 1 0 = some (.vc 0, ⟨c 1, some 0, []⟩) ∧ (c 1).rsp = false) ∧
    tSee (.carriageHop 10 4 0 .clean) (s 4) (fun t => (t.ni 10).inReq.length) = some 1 ∧
    tSee (.carriageHop 10 1 0 .clean) (s 1) (fun t => (SMap.get (t.router (neighbour 10 1)).bufs [] 12).length) = some 1 := by decide +kernel
/-- O40: ORDCLR, the table port at its last entries, a slot, tokens, a fence to release. -/
theorem test_meets_injection :
    (let s := tSet [(F.NI_TSEL_INDEX 0, 63), (F.NI_TSEL_WORD 0, 3)] tOn
     (s.tableSel 0).2.2 = true ∧ tSee (.tdataWrite 0 7) s (fun t => (t.ni 0).inactive.read 0 255) = some 7) ∧
    ((tSet [(F.NI_TSEL_INDEX 0, 64)] tOn).tableSel 0).2.2 = false ∧
    (let p : InjPkt := ⟨[{ tReq tRdWords 0 with guar := true }], 0, false, false, none⟩
     let s := tOn.setNi 0 { NiSt.zero with inj := [p], active := tTables }
     bitOf 0 ((s.ni 0).active.slotWord 0) = true ∧ bitOf 1 ((s.ni 0).active.slotWord 0) = false ∧
     s.silent 0 = false ∧ (s.ni 0).ready.find? (fun p => (p.pkt.headD Carriage.zero).guar && p.entry == 1 / 4 % 256) = some p ∧
     tSee (.slot 0 0 3 false) s (fun t => ((t.router 0).fast.length, (t.ni 0).inj)) = some (1, [])) ∧
    bitOf 0 (NiTables.zero.slotWord 0) = false ∧ isRegulated 80 = true ∧ isRegulated 0 = false ∧ (tOn.ni 80).nextPacket = none ∧
    (let p : InjPkt := ⟨[tRsp tWrAck 0], 256, false, false, none⟩
     let s := tOn.setNi 80 { NiSt.zero with replies := [p] }
     (1920 : Int) ≤ min (1920 * (s.niDepth 80 : Int)) ((s.ni 80).tokens) ∧ 1 ≤ (s.router 80).room 4 2) ∧
    (tOn.ni 0).fenced = none ∧
    (let p : InjPkt := ⟨[{ tReq tRdWords 0 with fence := true, seq := 9 }], 0, false, false, none⟩
     let s := (tRun (tImage [] [])).setNi 0 { NiSt.zero with inj := [p], badWrite := true, trackers := [tTracker .fabric] }
     (s.ni 0).fenced = some p ∧ tSee (.fenceRelease 0) s (fun t => (t.is (F.NI_STAT_FABORT 0), (t.ni 0).trackers)) = some (true, []) ∧
     ((s.setNi 0 { s.ni 0 with badWrite := false }).ni 0).fenced = some p) := by decide +kernel

/-! ## Time, timetable and host bridge -/

/-- O41, O42: FREE and SYNC mode, INCR at both ends of its range, the steps of LOCKING, edges on and off the grid. -/
theorem test_meets_time : let free := tSet [(F.TIME_CTL_MODE, 2)] tOn
    tOn.time.running = true ∧ State.reset.time.running = false ∧ tOn.timeDelta ≤ 2 ^ 47 ∧ 0x00FFBE76C8B4 ≤ tOn.incr ∧ tOn.time.anchor = 0 ∧ tOn.timeMode = 0 ∧
    free.timeMode = 2 ∧
    tSee (.incrWrite 0x00FFBE76C8B4) free (fun t => (t.incr, t.time.anchor)) = some (0x00FFBE76C8B4, 100) ∧
    tSee (.incrWrite 0x01004189374C) free (fun t => t.incr) = some 0x01004189374C ∧
    tSee (.incrWrite 0x01004189374D) free (fun t => t.is F.TIME_ERR_INCRRANGE) = some true ∧
    tSee (.incrWrite 0x010000000000) tOn (fun t => t.is F.TIME_ERR_SYNCW) = some true ∧ tOn.mode.timeEnabled = true ∧
    tSee (.stepWrite 0xFFFFFFFF0000) free (fun t => t.correctedNat) = some (99 * 65536) ∧
    tSee .timeWrap tOn (fun t => t.time.nowx) = some 1 := by decide +kernel
/-- Chapter 11: with INCR 0x0100_0010_C6F8 from RAW 3,000,000,000, C at RAW 4,000,000,000 is 0xEE6B_2BE8_0016. -/
theorem test_incr_example : let s := tSet [(F.TIME_CTL_MODE, 2)] { tOn with time := { tOn.time with raw := 3000000000 } }
    s.correctedNat = 0xB2D05E000000 ∧
    tSee (.incrWrite 0x01000010C6F8) s (fun t => ({ t with time := { t.time with raw := 4000000000 } } : State).correctedNat) =
      some 0xEE6B2BE80016 := by decide +kernel
theorem test_meets_sync : let m := tOn.time
    let lock (g : Nat) (e : Option Word) : State := { tOn with time := { m with lock := .edges, good := g, lastEdge := e } }
    let run := tSet [(F.TIME_STATUS_VALID, 1), (F.TIME_STATUS_SYNCOK, 1)] tOn
    (lock 0 none).timeMode = 0 ∧ tSee (.syncInEdge 9) (lock 0 none) (fun t => t.time.lastEdge) = some (some 9) ∧
    ((BitVec.ofNat 48 tOn.syncPeriod - 0).toInt - (tOn.syncPeriod : Int)).natAbs ≤ nsUnits 2 ∧
    tSee (.syncInEdge (BitVec.ofNat 48 tOn.syncPeriod)) (lock 3 (some 0)) (fun t => t.time.lock) = some .snap ∧
    run.is F.TIME_STATUS_VALID = true ∧ run.mode.base ≠ .holdover ∧ beyond2ns (run.edgeError 0) = false ∧
    beyond2ns (run.edgeError 0x30000) = true ∧ tSee (.syncInEdge 0x30000) run (fun t => t.is F.TIME_ERR_OUTLIER) = some true ∧
    run.is F.TIME_STATUS_SYNCOK = true ∧ tSee .syncLost run (fun t => t.is F.TIME_ERR_SYNCLOST) = some true ∧
    tSee .syncLost (lock 3 (some 9)) (fun t => t.time.good) = some 0 := by decide +kernel
/-- O43: an edge and its repetition, stamps at the first lane with points and below it, a queue with an entry. -/
theorem test_meets_triggers :
    tOn.matrixOn = true ∧ tOn.matrix.waiting = [] ∧ tOn.inputLevel 25 = false ∧
    (let s := tSet [(F.TRG_OUT_SRC 103, 25), (F.TRG_OUT_MODE 103, 3)] tOn
     s.get (F.TRG_OUT_SRC 103) = 25 ∧ tSee (.trigEdge 25 true 0) s (fun t => (t.inputLevel 25, (SMap.get t.matrix.pulses none 103).isSome)) =
       some (true, true)) ∧
    (let s := { tOn with matrix := { tOn.matrix with pulses := [(103, some 99), (102, some 101)] } }
     tSee (.pulseEnd 103) s (fun t => SMap.get t.matrix.pulses none 103) = some none ∧
     tSee (.pulseEnd 102) s (fun t => SMap.get t.matrix.pulses none 102) = some (some 101)) ∧
    (let s := (tSet [(F.TIME_TSP_CTL_EN 7, 1), (F.TIME_TSP_CTL_LANE 7, 16), (F.TIME_TSP_DLY_TX 7, 1)] tOn).setLane 16
       { LaneSt.zero with stamp := some 3 }
     (s.laneSt 16).stamp = some 3 ∧ tSee (.txStamp 16 10) s (fun t => (t.tspSt 7).queue) = some [⟨266, 3, 16⟩]) ∧
    (let s := { tOn with tsp := [(7, ⟨[⟨266, 3, 16⟩], 0⟩)] }
     tSee (.txqidRead 7 .host) s (fun t => (t.readOut, (t.tspSt 7).queue)) = some ((.host, 0x80100003), []) ∧
     tSee (.txqidRead 7 .debug) s (fun t => (t.tspSt 7).queue.length) = some 1) := by decide +kernel
/-- A timetable entry with this time and W2. -/
def tEnt (time w2 arg : Word) : TtEntry := ⟨time, 0, w2, arg⟩
/-- The timetable runs with these columns and taken entries. -/
def tTable (cols : List (Nat × TtColumn)) (taken : List TtTaken) : State :=
  tSet [(F.TIME_STATUS_VALID, 1), (F.TT_CTL_EN, 1), (F.TIME_STATUS_TICKS, 1)] { tOn with tt := { TtSt.zero with cols := cols, taken := taken } }
/-- O44, O45: a head that is due, heads that are not, a column to clear, a frame to close; each action ready in column 5. -/
theorem test_meets_dispatch : let e := tEnt 0x960000 1 0
    let s := tTable [(63, ⟨[e], 0⟩)] []
    s.ttRuns 63 = true ∧ s.ttDue e = true ∧ s.ttOnTime e = true ∧ tSee .dispatch s (fun t => t.tt.taken) = some [⟨63, e, false⟩] ∧
    (tTable [] []).ttDue (tEnt 0x7FFFFFFFFFFF 1 0) = false ∧
    tSee (.colClr 63) s (fun t => ((t.column 63).entries, (t.column 63).head)) = some ([], 1) ∧
    tOn.is F.RING_EVR_CTL_EN = false ∧ tOn.is F.RING_LGR_CTL_EN = false ∧ tOn.is F.TIME_PASS_CTL_FWD = false ∧
    tOn.pass.fwd = [] ∧ tOn.pass.dropped = 0 ∧ tOn.pass.last = [] ∧
    (let r : EvRec := ⟨5, 0, 1, 0, 93, 0⟩
     let s := { tOn with pass := { tOn.pass with frames := [(1, 0), (2, 10), (3, 20), (4, 30)], held := [(r, false)] } }
     s.passLag ≤ 2 ∧ signed 48 (r.time - 10).toNat < 0 ∧ tSee .frameClose s (fun t => t.pass.out) = some [(r, 1)]) := by decide +kernel
theorem test_meets_actions : let x (k : Nat) (arg : Word) : TtTaken := ⟨5, tEnt 0x640000 (BitVec.ofNat 48 k) arg, false⟩
    (∀ k ∈ [1, 2, 3, 4, 5, 6, 7, 8, 9], (tTable [] [x k 1]).ttReady 5 k = some (x k 1) ∧ (x k 1).entry.evt = false) ∧
    (tTable [] []).ttReady 5 1 = none ∧ tOn.pinGiven 0 = false ∧ (tSet [(F.TRG_OUT_SRC 16, 126)] tOn).pinGiven 0 = true ∧
    tSee (.pulse 5) (tSet [(F.TRG_OUT_SRC 16, 126)] (tTable [] [x 1 7])) (fun t => (t.tt.taken, t.tt.pulses.length)) = some ([], 1) ∧
    tSee (.ttTrigger 5) (tTable [] [x 4 1]) (fun t => t.inputLevel 106) = some true ∧
    tSee (.ttEvent 5) (tTable [] [x 8 1]) (fun t => t.tt.taken) = some [] := by decide +kernel
theorem test_meets_inject : let s := (tTable [] []).setNi 93 { NiSt.zero with active := tTables }
    s.txReady 93 tWrWords 0 = true ∧ (s.ni 93).active.match? 0 = some 0 ∧
    kindAllowed ((s.ni 93).active.window 0 3) tWrWords (s.get (F.NI_CTL_CTX 93)) = true ∧
    (s.translate (s.ni 93).active 0 0).2 = 0 ∧ bitOf 37 ((s.ni 93).active.routeWord 0 0) = true := by decide +kernel

/-- Descriptor slot 5 with these 64 bytes, so many words read and these here. -/
def tDesc (raw rd : Nat) (ws : List (Nat × Word)) : DescSt := ⟨5, BitVec.ofNat 512 raw, rd, 0, ws, 0, none, false, 0, false⟩
/-- Queue pair 0 with descriptors fetched and in progress; NIs 80 and 81 have a window for every address. -/
def tPair (fetched active : List DescSt) : State :=
  let s := tRun (tImage [] [])
  { ((s.setNi 80 { NiSt.zero with active := tTables }).setNi 81 { NiSt.zero with active := tTables }) with
    host := { HostSt.zero with pairs := [(0, { PairSt.zero with fetched := fetched, active := active })] } }
/-- O46: a descriptor that waits for its fence, one that a failure spoils, a malformed one, and a privileged one. -/
theorem test_meets_descriptors :
    (∀ op ∈ [1, 2, 3, 4, 6, 7, 8, 9, 10, 11, 12], (tDesc op 0 []).op = op ∧ (tDesc (op + 256) 0 []).fence = true ∧
      (tDesc (op + 2 ^ 11) 0 []).bad = true) ∧
    (let d := tDesc 0x10C 0 []; let s := tPair [d] [tDesc 1 0 []]
     (s.pairSt 0).fetched = [d] ∧ (s.pairSt 0).active ≠ [] ∧ (s.pairSt 0).find 6 = none) ∧
    (let d := tDesc (7 + 2 ^ 32 * 120) 0 []
     d.privileged = true ∧ d.bad = false ∧ (tPair [d] []).is (F.RING_QP_CTL_PRIV 0) = false ∧
     tSee (.slotload 0 5) (tPair [d] []) (fun t => (t.pairSt 0).waiting.map (·.status)) = some [stDenied]) ∧
    tSee (.mark 0 5) (tPair [tDesc (12 + 2 ^ 11) 0 []] []) (fun t => (t.pairSt 0).waiting.map (·.status)) = some [0x10] := by decide +kernel
/-- Whether a descriptor has its words, as the statements ask. -/
def tReady (s : State) (op : Nat) (d : DescSt) : Bool :=
  (s.pairSt 0).find 5 == some d && d.op == op && d.fail == none && d.have_.length == d.len && decide (d.len ≤ d.rdOff) && d.out == 0
theorem tReady_spec {s : State} {op : Nat} {d : DescSt} (h : tReady s op d = true) : DescReady s 0 5 op d := by
  simp [tReady] at h
  obtain ⟨⟨⟨⟨⟨h1, h2⟩, h3⟩, h4⟩, h5⟩, h6⟩ := h
  exact ⟨h1, h2, h3, h4, h5, h6⟩
/-- O33, O44, O47: descriptors whose words are here, and the first words of an image with the magic value and without. -/
theorem test_meets_image_words : let d (w : Word) := tDesc (5 + 2 ^ 32 * 1) 1 [(0, w)]
    tReady (tPair [] [d 0x504346470100]) 5 (d 0x504346470100) = true ∧ (tPair [] []).cfg.load = none ∧
    (d 0x504346470100).gathered.head? = some 0x504346470100 ∧ bitsOf 16 32 0x504346470100 = 0x50434647 ∧
    tSee (.cfgload 0 5 []) (tPair [] [d 0x504346470100]) (fun t => ((t.pairSt 0).waiting.map (·.status), t.cfg.load.map (·.got))) =
      some ([stOk], some [0x504346470100]) ∧
    tSee (.cfgload 0 5 []) (tPair [] [d 7]) (fun t => (t.cfg.load, t.get F.CFG_ERR_CODE)) = some (none, 1) := by decide +kernel
theorem test_meets_ready : ∀ op ∈ [4, 5, 7, 8, 9], let d := tDesc (op + 2 ^ 32 * 4) 4 [(0, 1), (1, 2), (2, 3), (3, 4)]
    tReady (tPair [] [d]) op d = true := by decide +kernel
theorem test_meets_completions :
    (let d := tDesc 12 0 []; let s := tPair [] [d]
     (s.pairSt 0).find 5 = some d ∧ tSee (.mark 0 5) s (fun t => (t.pairSt 0).waiting.map (·.status)) = some [stOk]) ∧
    (let d := tDesc 3 0 []; (tPair [] [d]).pairSt 0 |>.isOldest 5) = true ∧
    tSee (.fence 0 5) (tPair [] [tDesc 3 0 []]) (fun t => (t.pairSt 0).active) = some [] ∧
    tSee (.snap 0 5) (tPair [] [tDesc (6 + 2 ^ 192) 0 []]) (fun t => (t.fld 0).snapWait) = some true ∧
    (let d := { tDesc (6 + 2 ^ 192) 0 [] with ready := true }; let s := tPair [] [d]
     s.snapFields d = [0] ∧ tSee (.snap 0 5) s (fun t => (t.pairSt 0).active) = some []) ∧
    (let s := tSet [(F.MIG_REGION_CTL_EN 0, 1), (F.MIG_REGION_CTL_CRYPTO 0, 1)] ((tPair [] [tDesc (10 + 2 ^ 200) 0 []]).setKeyState 1 1)
     s.encrypted 0 = true ∧ s.get (F.MIG_REGION_CTL_KEYID 0) ≠ 1 ∧ s.domainOn 40 = true ∧ s.keyState 1 = 1 ∧
     tSee (.renew 0 5) s (fun t => t.is F.CRY_RN_ACTIVE) = some true) ∧
    tSee (.renew 0 5) (tPair [] [tDesc 10 0 []]) (fun t => (t.pairSt 0).waiting.map (·.status)) = some [stDenied] ∧
    (let d := { tDesc 11 1 [] with ready := true, result := 9 }
     tSee (.atomicDesc 0 5) (tPair [] [d]) (fun t => (t.pairSt 0).waiting.map (·.result)) = some [9]) := by decide +kernel
/-- Whether NI n takes a request through window 0 and route entry 0, as the statements ask. -/
def tAccepts (s : State) (n : Nat) (q : Request) : Bool :=
  s.txReady n q.typ q.len && !s.niProtected n && isRequestType q.typ && lenAllowed q.typ q.len &&
    (s.ni n).active.match? q.addr.toNat == some 0 && kindAllowed ((s.ni n).active.window 0 3) q.typ q.ctx &&
    (s.translate (s.ni n).active 0 q.addr.toNat).2 == 0 && bitOf 37 ((s.ni n).active.routeWord 0 0) && (!q.ord || !(s.ni n).broken.contains 0)
theorem tAccepts_spec {s : State} {n : Nat} {q : Request} (h : tAccepts s n q = true) : NiAccepts s n q 0 0 := by
  simp only [tAccepts, Bool.and_eq_true, Bool.or_eq_true, Bool.not_eq_true', beq_iff_eq] at h
  obtain ⟨⟨⟨⟨⟨⟨⟨⟨h1, h2⟩, h3⟩, h4⟩, h5⟩, h6⟩, h7⟩, h8⟩, h9⟩ := h
  exact ⟨h1, h2, h3, h4, h5, h6, h7, h8, fun h => by simpa [h] using h9⟩
/-- O48: a host source, a spine read, a fill, a remote fence and an atomic that go; BAR2 with its window off and on. -/
theorem test_meets_transfers : let s (d : DescSt) := tPair [] [d]
    (let d := tDesc (1 + 2 ^ 32 * 16 + 2 ^ 127) 0 []; d.srcHost = true ∧ d.rdOff < d.len ∧
       tSee (.move 0 5) (s d) (fun t => t.hostOut) = some [.read 0 96]) ∧
    (let d := tDesc (1 + 2 ^ 32 * 16 + 2 ^ 191) 0 []; d.srcHost = false ∧ d.dstHost = true ∧
       tAccepts (s d) 80 ((s d).readPiece 0 d (d.src + d.rdOff) (d.len - d.rdOff)) = true ∧
       tSee (.move 0 5) (s d) (fun t => ((t.ni 80).seq, (t.ni 80).trackers.length)) = some (1, 1)) ∧
    (let d := tDesc (2 + 2 ^ 32 * 3) 0 []; d.dstHost = false ∧ d.wrOff < d.len ∧
       tAccepts (s d) 80 ((s d).writePiece 0 d 0 3 [0, 0, 0]) = true ∧ tSee (.fill 0 5) (s d) (fun t => (t.ni 80).seq) = some 1) ∧
    (let d := tDesc (3 + 2 ^ 192) 0 []; d.bits 24 0 1 = 1 ∧ tAccepts (s d) 80 ((s d).descRequest 0 d tFence 0 d.dst 0 []) = true) ∧
    (let d := tDesc 11 0 []; tAccepts (s d) 80 ((s d).descRequest 0 d tAtomic 0 d.dst 0 []) = true) := by decide +kernel
theorem test_meets_bar2 : let s := tSet [(F.HB_WIN_EN, 1)] (tPair [] [])
    State.reset.is F.HB_WIN_EN = false ∧ s.waking = false ∧ (tValley 3).waking = true ∧ s.is F.HB_WIN_EN = true ∧ s.host.reads = [] ∧ s.host.bar2 = [] ∧ s.bar2Clear = true ∧
    s.winBase = 0 ∧ tAccepts s 81 (s.bar2Request tWrWords 0 0 1 true [(0, 1)]) = true ∧
    tAccepts s 81 (s.bar2Request tRdWords 0 0 (pieceMask 0 1) false []) = true ∧
    tSee (.bar2Write 0 [1, 2, 3, 4, 5, 6]) s (fun t => (t.ni 81).seq) = some 1 ∧
    (s.setNi 81 { NiSt.zero with trackers := [tTracker (.bar2 true 0)] }).bar2Clear = false := by decide +kernel
/-- O49: the doorbell, a fetch, completions with and without room, enables, resets and the link. -/
theorem test_meets_rings :
    (let s := tSet [(F.HB_CTL_EN, 1)] tOn
     s.host.polling = false ∧ s.mode.ov.valley = false ∧ tSee (.doorbellPoll true) s (fun t => t.host.polling) = some true ∧
     s.mode.drain ≠ some .valley ∧ (let p := { s with host := { s.host with polling := true } }
      tSee (.doorbellRead none) p (fun t => t.is F.HB_ERR_QFAULT) = some true)) ∧
    (let s := { tOn with host := { HostSt.zero with pairs := [(0, { PairSt.zero with fetching := true })] } }
     tSee (.hostMemoryRead 0 (.desc 12)) s (fun t => (t.pairSt 0).fetched.length) = some 1 ∧
     tSee (.hostMemoryRead 0 (.desc 99)) s (fun t => (t.pairSt 0).waiting.map (·.status)) = some [0x10] ∧
     tSee (.hostMemoryRead 0 .descFail) s (fun t => (t.pairSt 0).stopped) = some true) ∧
    (let d := tDesc (1 + 2 ^ 32 * 16 + 2 ^ 127) 16 []
     (tPair [] [d]).pairSt 0 |>.find 5) = some (tDesc (1 + 2 ^ 32 * 16 + 2 ^ 127) 16 []) ∧
    (let w (h : Nat) : State := { tOn with host := { HostSt.zero with pairs := [(0, { PairSt.zero with cqHead := h, waiting := [⟨0, 0, false, 0, 0⟩] })] } }
     (w 0).cqRoom 0 = true ∧ (w 1).cqRoom 0 = false ∧ tSee (.completionWrite 0) (w 0) (fun t => (t.pairSt 0).cqTail) = some 1) ∧
    tSee (.qpEnable 31) tOn (fun t => t.is (F.RING_QP_CTL_EN 31)) = some true ∧
    tSee (.ringEnable true) tOn (fun t => t.is F.RING_EVR_CTL_EN) = some true := by decide +kernel

/-! ## Stagelink and lanes -/

/-- Port 0 in this state, with its first w lanes given to it. -/
def tPort0 (w st : Nat) (x : PortSt) : State :=
  tSet ((F.STG_STAT_STATE 0, st) :: (F.STG_CTL_WIDTH 0, if w = 4 then 1 else 0) :: (List.range w).map fun k => (F.LANE_CFG_USE (16 + k), 2))
    { tOn with ports := [(0, x)] }
/-- Whether the lanes of port 0 are ready, as the statements ask. -/
def tLanes (s : State) (w : Nat) : Bool :=
  !s.mode.linksDown && (List.range w).all fun k => s.domainOn (laneDomain (portLane 0 + k)) && s.laneUse (portLane 0 + k) == 2
theorem tLanes_spec {s : State} {w : Nat} (h : tLanes s w = true) : LanesReady s 0 w := by
  simp [tLanes] at h
  exact ⟨h.1, fun k hk => h.2 k hk⟩
/-- O50: lanes ready and not, training that times out, falls back, completes, fails; a marker; a set of times. -/
theorem test_meets_training : let dn := tPort0 8 0 .zero
    dn.domainOn (portDomain 0) = true ∧ tLanes dn 8 = true ∧ (tOn.setReg R.PWR_DOMSTAT1 0).domainOn (portDomain 0) = false ∧
    tOn.laneUse 16 ≠ 2 ∧ tLanes tOn 8 = false ∧
    tSee (.portTrain 0) dn (fun t => (t.get (F.STG_STAT_STATE 0), t.linkOut)) = some (1, [(0, .train false)]) ∧
    tSee (.portTrain 5) tOn (fun t => t.get (F.STG_STAT_FAIL 5)) = some 2 ∧
    tSee (.trainTimeout 0) (tSet [(F.STG_CTL_FALLBACK 0, 0)] (tPort0 8 1 .zero)) (fun t => t.get (F.STG_STAT_FAIL 0)) = some 1 ∧
    (let x := { PortSt.zero with seen := [(0, 0), (1, 1), (2, 2), (3, 3)] }; let s := tSet [(F.STG_CTL_FALLBACK 0, 1)] (tPort0 8 1 x)
     s.portWidth 0 = 8 ∧ tLanes s 4 = true ∧ tSee (.trainTimeout 0) s (fun t => ((t.portSt 0).fellBack, t.get (F.STG_STAT_STATE 0))) =
       some (true, 1)) := by decide +kernel
theorem test_meets_train_blocks : let locked (s : State) : State := tSet ((List.range 8).map fun k => (F.LANE_STAT_CDRLOCK (16 + k), 1)) s
    let x := { PortSt.zero with seen := [(0, 0), (1, 1), (2, 2)], marked := [0, 1, 2, 3], ready := [0, 1, 2] }
    let s := tPort0 4 1 x
    s.portState13 0 = 1 ∧ s.portWidth 0 = 4 ∧
    tSee (.train 0 3 3 true true 7 false) (locked s) (fun t => t.get (F.STG_STAT_STATE 0)) = some 2 ∧
    tSee (.train 0 0 0 true true 7 true) (locked (tPort0 4 1 .zero)) (fun t => ((t.portSt 0).seen, t.is (F.LANE_STAT_POLINV 16))) =
      some ([(0, 0)], true) ∧
    tSee (.train 0 0 0 false true 7 true) (locked (tSet [(F.STG_CTL_FALLBACK 0, 0)] (tPort0 4 1 .zero))) (fun t => t.get (F.STG_STAT_FAIL 0)) = some 2 ∧
    tSee (.train 0 0 0 true true 7 true) (tPort0 4 2 .zero) (fun t => t.get (F.STG_STAT_FAIL 0)) = some 6 ∧
    tSee (.markT 0 3 0 0 false) s (fun t => t.get (F.STG_STAT_FAIL 0)) = some 4 ∧
    tSee (.markT 0 3 0 0 true) (tPort0 4 1 { x with marked := [0, 1, 2] }) (fun t => (t.portSt 0).marked) = some [0, 1, 2, 3] ∧
    (let u := tSet [(F.TIME_CTL_LINKPORT, 1)] (tPort0 4 2 { PortSt.zero with haveT := true, t3 := 1000, t4 := 1600 })
     u.linkPort ≠ 0 ∧ tSee (.markR 0 0 500 700 true) u (fun t => (t.get (F.STG_ONEWAY_DLY 0), t.get (F.STG_OFFSET_THETA 0))) =
       some (200, 2 ^ 32 - 400)) := by decide +kernel
/-- O51: a port that is not up; streams in and out of order; classes stopped and let on; replays. -/
theorem test_meets_stream : let c := tReq tWrWords 0; let up (x : PortSt) := tPort0 4 2 x
    let r : PortSt := { PortSt.zero with replay := [⟨5, c, 0⟩, ⟨6, c, 0⟩], txSeq := 7, rxSeq := 10 }
    (tPort0 4 1 .zero).portCarries 0 = false ∧ (up r).portCarries 0 = true ∧ (up r).portState13 0 = (up r).get (F.STG_STAT_STATE 0) ∧
    (let w := tPort0 4 4 { PortSt.zero with exitFrom := some 0 }; let v := { w with time := { w.time with raw := 100000 } }
     v.get (F.STG_STAT_STATE 0) = 4 ∧ v.burstOver 0 = true ∧ tSee (.idleBlock 0 0xFFFF) v (fun t => t.get (F.STG_STAT_STATE 0)) = some 2) ∧ r.txq = [] ∧ 0 < (up r).replayMax 0 ∧
    tSee (.idleBlock 0 5) (up r) (fun t => (t.portSt 0).replay.length) = some 1 ∧
    tSee (.nak 0 6 5) (up r) (fun t => t.linkOut.length) = some 1 ∧
    tSee (.nak 0 6 5) (up { r with replay := [⟨6, c, 99⟩] }) (fun t => t.get (F.STG_STAT_FAIL 0)) = some 5 ∧
    ({ c with len := 1 } : Carriage).isLast = false ∧ lseqLe 9 9 = true ∧ lseqLe 12 9 = false ∧ lseqLe 5 5 = true ∧
    (let x := { PortSt.zero with txq := [c], stopReq := true }
     (up x).portUp 0 = true ∧ tSee (.xon 0 false 0) (up x) (fun t => (t.linkOut.length, (t.portSt 0).replay.length)) = some (1, 1)) ∧
    tSee (.replayTimeout 0 false) (up r) (fun t => t.linkOut.length) = some 2 := by decide +kernel
/-- A raw lane in this use, on, locked. -/
def tLane (use : Nat) (x : LaneSt) : State :=
  (tSet [(F.LANE_CFG_USE 63, use), (F.LANE_CTL_EN 63, 1), (F.LANE_STAT_CDRLOCK 63, 1), (F.LANE_STAT_EIDLE 63, 0)] tOn).setLane 63 x
/-- O52: lanes 15, 16 and 63, raw and of a port, electrical idle and its exit, slips, FIFOs empty and full, patterns. -/
theorem test_meets_lanes : let s := tLane 3 .zero
    s.domainOn (laneDomain 63) = true ∧ s.rawOn 63 = true ∧ s.rawReceives 63 = true ∧ s.laneUse 63 = 3 ∧ s.rawOn 15 = false ∧
    (tLane 4 .zero).rawReceives 63 = false ∧ s.prbsActs 63 = true ∧ s.is (F.LANE_PRBS_CHK 63) = false ∧
    s.is (F.LANE_PRBS_GEN 63) = false ∧ s.mode.ov.valley = false ∧
    tSee (.ctleStep 63 31) s (fun t => t.get (F.LANE_CTLE_STEP 63)) = some 31 ∧
    tSee (.laneLoss 63) s (fun t => (t.is (F.LANE_STAT_CDRLOCK 63), t.is (F.LANE_STAT_LOSS 63))) = some (false, true) ∧
    tSee (.slip 63 767) s (fun t => (t.laneSt 63).slip) = some 767 ∧ tSee (.slip 63 768) s (fun t => (t.laneSt 63).slip) = some 0 ∧
    tSee (.underrun 63) s (fun t => t.laneOut) = some [(63, .fill)] ∧
    tSee (.underrun 63) (tLane 3 { LaneSt.zero with tx := [[7]] }) (fun t => t.laneOut) = some [(63, .carriage [7])] ∧
    tSee (.rawReceive 63 [] 0 none 0 false) (tLane 3 { LaneSt.zero with rx := List.replicate 8 [] })
      (fun t => t.get (F.LANE_RAWCNT_RXOVF 63)) = some 1 ∧
    (tLane 3 .zero).txReady 91 tWrLine 0 = true := by decide +kernel
theorem test_meets_idle_lanes :
    tSee (.eidle true 0 true) (tPort0 4 2 .zero) (fun t => t.get (F.STG_STAT_STATE 0)) = some 3 ∧
    tSee (.eidle true 0 false) (tPort0 4 3 .zero) (fun t => (t.get (F.STG_STAT_STATE 0), t.linkOut)) = some (4, [(0, .wake)]) ∧
    (tPort0 4 2 .zero).portLanes 0 = [16, 17, 18, 19] ∧
    (tPort0 4 2 .zero).laneUse 16 = 2 ∧ (tPort0 4 2 .zero).portCarries 0 = true ∧
    tSee (.prbsSync 63 5) (tSet [(F.LANE_PRBS_CHK 63, 1)] (tLane 3 .zero)) (fun t => t.get (F.LANE_PRBSCNT_ERRS 63)) = some 5 := by
  decide +kernel
theorem test_meets_received : let s := (tLane 3 .zero).setNi 91 { NiSt.zero with active := tTables }
    tAccepts s 91 ⟨tWrLine, 0, 0, 0, 0xFFFF, false, false, false, s.get (F.NI_CTL_CTX 91), s.devid.toNat, []⟩ = true ∧
    tSee (.rawReceive 63 [1] 0 none 0 false) s (fun t => ((t.laneSt 63).received, (t.ni 91).seq)) = some (1, 1) := by decide +kernel

/-! ## DRAM channels and encryption -/

/-- Channel 0 is enabled, in this state, and holds this. -/
def tChan (st : Nat) (x : ChSt) : State :=
  tSet [(F.DRC_STAT_STATE 0, st), (F.DRC_CTL_EN 0, 1), (F.DRC_CTL_WRCRC 0, 1)] { tOn with drams := [(0, x)] }
/-- A command in a retry buffer. -/
def tCmd : DramCmd := ⟨3, 0, 0, 0, .none, 5⟩
/-- O53: a channel enabled and disabled, initialised and failing, isolated and started again, filled. -/
theorem test_meets_channel : let off := tSet [(F.DRC_CTL_EN 0, 0)] (tChan 0 .zero); let z := ChSt.zero
    off.domainOn 28 = true ∧ off.is (F.DRC_CTL_EN 0) = false ∧ off.is (F.DRC_STAT_SRFOK 0) = false ∧
    tSee (.channelEnable 0) off (fun t => t.get (F.DRC_STAT_STATE 0)) = some 1 ∧
    tSee (.channelEnable 0) (tSet [(F.DRC_STAT_SRFOK 0, 1)] off) (fun t => t.get (F.DRC_STAT_STATE 0)) = some 6 ∧
    tSee (.channelInitDone 0 5) (tChan 1 z) (fun t => t.get (F.DRC_STAT_INITERR 0)) = some 5 ∧
    tSee (.channelInitDone 0 0) (tChan 6 z) (fun t => t.get (F.DRC_STAT_STATE 0)) = some 2 ∧
    (tChan 1 z).staged = [] ∧ tSee (.channelDisable 0) (tChan 1 z) (fun t => t.get (F.DRC_STAT_STATE 0)) = some 0 ∧
    tSee (.channelDisable 0) (tChan 2 z) (fun t => t.get (F.DRC_STAT_STATE 0)) = some 3 ∧
    tSee (.unfreeze 0) (tChan 5 z) (fun t => t.get (F.DRC_STAT_STATE 0)) = some 1 ∧
    (tChan 2 z).is (F.MIG_INITCTL_BUSY 0) = false ∧
    tSee (.zeroFillDone 0) (tSet [(F.MIG_INITCTL_BUSY 0, 1)] (tChan 2 z)) (fun t => t.is (F.MIG_INITCTL_DONE 0)) = some true ∧
    (let s := { tChan 2 z with mode := { tOn.mode with ov := { tOn.mode.ov with halt := true } } }
     (s.dram 0).reqs = [] ∧ (s.dram 0).groups = [] ∧ s.cry.cache = [] ∧
     tSee (.selfRefreshIdle 0) s (fun t => t.get (F.DRC_STAT_STATE 0)) = some 3) := by decide +kernel
theorem test_meets_channel_commands : let x := { ChSt.zero with retry := [tCmd], rows := [(0, some 9), (63, some 1)] }; let s := tChan 2 x
    x.retry ≠ [] ∧ s.is (F.DRC_CTL_WRCRC 0) = true ∧ s.is (F.DRC_CTL_CAPAR 0) = true ∧ s.is (F.DRC_CTL_FREEZEPOL 0) = false ∧
    SMap.get x.rows none 63 = some 1 ∧ SMap.get x.rows none 1 = none ∧
    tSee (.commandConfirm 0) s (fun t => ((t.dram 0).retry, (t.dram 0).oldest)) = some ([], 1) ∧
    tSee (.tempStatusPoll 0 2) s (fun t => t.get (F.DRC_REF_EFF 0)) = some 2 ∧
    tSee (.refsb 0 true 3) s (fun t => (t.dram 0).retry.length) = some 2 ∧
    tSee (.rowIdleClose 0 63) s (fun t => (t.dram 0).rows) = some [(0, some 9)] ∧
    tSee (.retrainNow 0 31 0x80) s (fun t => (t.is (F.DRC_ERR_DRIFT 0), t.get (F.DRC_DQS_COMP 0))) = some (true, 31) ∧
    tSee (.alert 0 true false) s (fun t => (t.dram 0).replay) = some 1 ∧
    tSee (.alert 0 true true) (tChan 2 { x with replay := 4 }) (fun t => (t.get (F.DRC_STAT_STATE 0), t.is (F.DRC_STAT_SRFOK 0))) =
      some (5, true) ∧
    tSee (.commandConfirm 0) (tChan 2 { x with replay := 1 }) (fun t => ((t.dram 0).retry, (t.dram 0).replay)) = some ([], 0) ∧
    (let late := { s with time := { s.time with raw := 2 ^ 40 } }
     2 * late.retrainNs 0 ≤ late.since x.trainedAt ∧
     tSee (.forcedRetrain 0 5 0) late (fun t => t.is (F.DRC_ERR_FORCEDRT 0)) = some true) ∧
    s.since x.trainedAt < 2 * s.retrainNs 0 ∧
    tSee (.dramPhyUnlock 0 false) s (fun t => t.get (F.DRC_STAT_STATE 0)) = some 5 := by decide +kernel
/-- A request for line 0 of channel 0, alone, of this type, from NI 0, with some lines still to do. -/
def tDreq (typ : Nat) (todo : List Nat) (held : Bool) : DramReq :=
  { id := 7, pkt := [tReq typ 0], arrived := 0, port := 0, rgns := [], raw := false, todo := todo, got := [], stats := [], held := held }
/-- Whether a line waits at a channel, as the statements ask. -/
def tWaits (s : State) (c : Nat) (r : DramReq) (i : Nat) : Bool :=
  s.get (F.DRC_STAT_STATE c) == 2 && !s.is (F.MIG_INITCTL_BUSY c) && (s.dram c).reqs == [r] && r.todo == [i] && !r.held && (s.dram c).replay == 0 &&
    (s.dram c).groups == [] && s.ctxServed r && !s.copying c (s.reqLine r i) && !s.lineLost c (s.reqLine r i) &&
    (r.rgns.getD i ⟨32, false, 0, 0, 0, 0, false⟩).crypto == 0 && (List.range 8).all fun d => decide ((s.dram d).retry.length ≤ 60)
theorem tWaits_spec {s : State} {c : Nat} {r : DramReq} {i : Nat} (h : tWaits s c r i = true) : LineWaits s c r i := by
  simp [tWaits] at h
  obtain ⟨⟨⟨⟨⟨⟨⟨⟨⟨⟨⟨h1, h2⟩, h3⟩, h4⟩, h5⟩, h6⟩, h7⟩, h8⟩, h9⟩, h10⟩, h11⟩, h12⟩ := h
  exact ⟨h1, h2, h3, h4, h5, h6, h7, h8, h9, h10, h11, h12⟩
/-- Channel 0 runs with this request and 16 words 9 stored at its line 0. -/
def tLine (r : DramReq) : State := tChan 2 { ChSt.zero with reqs := [r], lines := [(0, some (List.replicate 16 9))] }
/-- O54: a read and a write wait; patrol; a remap whose spare is good and one whose is not. -/
theorem test_meets_lines : let rd := tDreq tRdLine [0] false; let wr := tDreq tWrLine [0] false
    tWaits (tLine rd) 0 rd 0 = true ∧ tWaits (tLine wr) 0 wr 0 = true ∧ rd.head.typ = tRdLine ∧ wr.head.typ = tWrLine ∧
    SMap.get ((tLine rd).dram 0).lines none ((tLine rd).physLine 0 ((tLine rd).reqLine rd 0)) = some (List.replicate 16 9) ∧
    tSee (.commandSlot 0 []) (tLine rd) (fun t => (t.dram 0).reqs.map fun r => (r.got.getD 15 (0, 0), r.stats)) = some [((15, 9), [(0, stOk)])] ∧
    tSee (.commandSlot 0 []) (tLine wr) (fun t => SMap.get (t.dram 0).lines none 0) = some (some (wr.lineWords 0)) ∧
    (let s := tChan 2 { ChSt.zero with groups := [⟨4, [(0, [], [(7, 0)])]⟩], reqs := [tDreq tWrLine [] false] }
     tSee (.groupFlush 0 4) s (fun t => (t.dram 0).reqs.map (·.todo)) = some [[0]]) := by decide +kernel
theorem test_meets_patrol : let s := tSet [(F.MIG_PATROL_EN 0, 1)] (tLine (tDreq tRdLine [] false))
    s.is (F.MIG_PATROL_EN 0) = true ∧ s.get (F.DRC_STAT_STATE 0) = 2 ∧ s.is (F.MIG_INITCTL_BUSY 0) = false ∧
    s.regionAt (16 * s.globalLine 0 (s.get (F.MIG_PATPOS_LINE 0) % s.chanLines 0)) = none ∧
    tSee (.dramPatrolVisit 0 []) s (fun t => t.get (F.MIG_PATPOS_LINE 0)) = some 1 := by decide +kernel
theorem test_meets_remap : let s := tSet [(F.MIG_EXCL_CTL_SPARE 0, 1), (F.MIG_EXCL_CTL_EN 0, 1), (F.MIG_REMAP_FROM_LINE 0 15, 0),
      (F.MIG_REMAP_TO_LINE 0 15, 1)] ((tLine (tDreq tRdLine [] false)).setReg (R.MIG_EXCL_B_LO 0) 0xFFF)
    let busy := tSet [(F.MIG_REMAP_FROM_VALID 0 15, 1), (F.MIG_REMAP_TO_BUSY 0 15, 1)] s
    s.spareLine 0 1 = true ∧ (tLine (tDreq tRdLine [] false)).spareLine 0 0 = false ∧ s.is (F.MIG_REMAP_FROM_VALID 0 15) = false ∧
    tSee (.remapValid 0 15) s (fun t => t.is (F.MIG_REMAP_TO_BUSY 0 15)) = some true ∧
    tSee (.remapValid 0 0) (tLine (tDreq tRdLine [] false)) (fun t => t.is F.MIG_STAT_EXCLBAD) = some true ∧
    busy.lineLost 0 0 = false ∧ busy.physLine 0 0 = 0 ∧
    tSee (.remapDone 0 15 []) busy (fun t => (t.physLine 0 0, SMap.get (t.dram 0).lines none 1)) =
      some (1, some (List.replicate 16 9)) := by decide +kernel
theorem test_meets_keys : let key (st : Nat) := tOn.setReg (R.CRY_KEYSTAT 7) (st * 2 ^ 28)
    tOn.domainOn 40 = true ∧ (key 1).keyState 63 = 1 ∧ (key 2).keyState 63 = 2 ∧ (key 5).keyState 63 = 5 ∧ tOn.keyState 63 = 0 ∧
    tSee (.zero 63) (key 5) (fun t => t.keyState 63) = some 0 ∧ tSee (.spare 63) (key 1) (fun t => t.keyState 63) = some 2 ∧
    tSee (.unspare 63) (key 2) (fun t => t.keyState 63) = some 1 ∧
    tSee (.zero 0) tOn (fun t => t.is F.CRY_STAT_KEYREJ) = some true ∧
    (let s := { tChan 2 .zero with cry := { CrySt.zero with cache := [(0, some ⟨[3], true⟩)] } }
     s.rgnNested (16 * 0) = false ∧ tSee .flush s (fun t => (t.cry.cache, SMap.get (t.dram 0).lines none 0)) =
       some ([(0, some ⟨[3], false⟩)], some [3])) := by decide +kernel
/-- O54: a renewal passes a line that nothing wrote; a held write is given up. -/
def tRenew : State :=
  tSet [(F.CRY_RN_ACTIVE, 1), (F.MIG_REGION_CTL_EN 0, 1), (F.MIG_REGION_CTL_CRYPTO 0, 1)]
    (({ tChan 2 .zero with cry := { CrySt.zero with cache := [(64, some ⟨List.replicate 16 0, false⟩)] } }.setReg
      (R.MIG_REGION_LIMIT_LO 0) 0xFF).setReg (R.CRY_RGN_CTRBASE_LO 0) 0x400)
theorem test_meets_renewal : let s := tRenew; let g := s.lineRgn s.rptr
    s.is F.CRY_RN_ACTIVE = true ∧ s.renewWaits 0 = false ∧ s.get F.CRY_RN_REGION = 0 ∧ s.heldIn 0 = [] ∧ g.crypto = 1 ∧
    s.rptr + 16 ≤ s.rgnLimit 0 ∧ SMap.get s.cry.cache none (g.ctrLine ((s.rptr - g.base) / 16)) = some ⟨List.replicate 16 0, false⟩ ∧
    ctrOf ((List.replicate 16 0).getD (((s.rptr - g.base) / 16) % 16) 0) = 0 ∧
    tSee (.renewVisit []) s (fun t => t.rptr) = some 16 ∧
    (let r := { tDreq tWrLine [0, 1] true with id := 7 }
     ((tLine r).dram 0).find 7 = some r ∧ r.head.typ ≠ tFence ∧
     tSee (.holdTimeout 0 7) (tLine r) (fun t => (((t.dram 0).find 7).map (·.stats), t.is F.CRY_STAT_HOLDTMO)) =
       some (some [(0, stTimeout)], true)) := by decide +kernel

/-! ## Steward, self-test, debug and pins -/

/-- The loops run, acting, with these fields and this record of the steward. -/
def tStw (k thr : Nat) (l : List (Fld × Nat)) (x : StwSt) : State :=
  tSet ([(F.STW_ENV_CTL_EN k, 1), (F.STW_ENV_CTL_THR k, thr), (F.STW_ENV_LIM_MIN k, 0), (F.STW_ENV_LIM_MAX k, 31), (F.STW_CTL_OBS, 0)] ++ l)
    { tOn with stw := x }
/-- O55: samples of both kinds and the loops of the scan, the block memories, the channels and the lanes. -/
theorem test_meets_loops : let z := StwSt.zero; let hot := (List.replicate 63 0) ++ [800]
    tOn.stewardOn = true ∧ (tStw 7 800 [] z).loopRuns 7 = true ∧ (tStw 7 800 [] z).is F.STW_CTL_OBS = false ∧
    (tStw 7 800 [] z).hottest hot = (63, 800) ∧
    tSee (.sensorSample false [5, 6]) tOn (fun t => (t.get (F.STW_VMON_EVEN 0), t.get (F.STW_VMON_ODD 0))) = some (5, 6) ∧
    tSee (.sensorSample true hot) (tStw 7 800 [] z) (fun t => (t.get F.STW_TMAX_SENSOR, t.stw.critical)) = some (63, 1) ∧
    tSee (.sensorSample true hot) (tStw 7 800 [] { z with critical := 1 }) (fun t => t.mode.ov.freeze) = some true ∧
    tSee (.refresh 7) (tStw 3 9 [] { z with seen := [(1024 * 3 + 7, 9)] }) (fun t => t.get (F.DRC_REF_MULT 7)) = some 1 ∧
    tSee (.erase 0) (tStw 8 2 [] { z with seen := [(1024 * 8 + 31, 2)] }) (fun t => (t.is (eraseEn 0 1), t.get (eraseComp 0 1))) =
      some (true, 15) ∧
    tSee (.ctle 63 true 3 4) (tStw 5 9 [] z) (fun t => t.get (F.LANE_CTLE_STEP 63)) = some 17 ∧ tOn.domainOn (laneDomain 63) = true ∧
    tOn.timingLane 63 = false ∧
    tSee (.ctle 63 true 3 4) (tStw 5 9 [(F.TIME_TSP_CTL_EN 0, 1), (F.TIME_TSP_CTL_LANE 0, 63)] z) (fun t => t.stw.pending) =
      some [(63, some 17)] := by decide +kernel
theorem test_meets_remap_loop : let s := (tSet [(F.DRC_STAT_STATE 0, 2), (F.MIG_EXCL_CTL_SPARE 0, 1), (F.MIG_EXCL_CTL_EN 0, 1)]
      ({ tStw 9 1 [] .zero with drams := [(0, { ChSt.zero with suspects := [0] })] }.setReg (R.MIG_EXCL_B_LO 0) 0xFFF))
    s.loopRuns 9 = true ∧ s.firstSpare 0 = some 0 ∧ s.spareLine 0 0 = true ∧ s.is (F.MIG_REMAP_FROM_VALID 0 0) = false ∧
    tSee (.remap 0) s (fun t => (t.is (F.MIG_REMAP_TO_BUSY 0 0), (t.dram 0).suspects)) = some (true, []) ∧
    tSee (.remap 0) (tSet ((List.range 16).map fun k => (F.MIG_REMAP_FROM_VALID 0 k, 1)) s) (fun t => t.is F.MIG_STAT_REMAPFULL) =
      some true := by decide +kernel
theorem test_meets_point_loop : let s := tStw 6 800 [(F.PWR_OPSTAT_OPCUR, 2)] .zero; let m (v : Nat) := tSet [(F.STW_TMAX_TEMP, v)] s
    s.opFloor < s.get F.PWR_OPSTAT_OPCUR ∧ s.is F.PWR_OPSTAT_BUSY = false ∧ s.is F.PWR_OPSTAT_HELD = false ∧ s.staged = [] ∧
    s.mode.timeEnabled = true ∧ (m 800).hot = true ∧
    (m 700).cool = true ∧ (m 720).cool = false ∧ s.get F.PWR_OPSTAT_OPCUR < s.opCeiling ∧
    tSee .op (m 800) (fun t => (SMap.get t.staged Staged.none F.PWR_OPREQ_OP.reg.off).stwVal.toNat % 4) = some 1 ∧
    tSee .op { m 700 with stw := { StwSt.zero with quiet := [(1024 * 6, 99)] } }
      (fun t => (SMap.get t.staged Staged.none F.PWR_OPREQ_OP.reg.off).stwVal.toNat % 4) = some 3 := by decide +kernel
theorem test_meets_renew_and_shed : let s := tStw 10 0 [(F.MIG_REGION_CTL_EN 31, 1), (F.MIG_REGION_CTL_CRYPTO 31, 1)] .zero
    let s := (s.setReg R.CRY_RNREQ (2 ^ 31)).setReg (R.CRY_KEYSTAT 7) (2 * 2 ^ 28)
    s.loopRuns 10 = true ∧ (List.range 32).find? (fun r => bitOf r (s.reg R.CRY_RNREQ)) = some 31 ∧ s.encrypted 31 = true ∧
    (List.range 64).find? (fun k => k != 0 && s.keyState k == 2) = some 63 ∧ s.get (F.MIG_REGION_CTL_KEYID 31) ≠ 63 ∧
    tSee .renewLoop s (fun t => (t.get F.CRY_RN_REGION, t.get F.CRY_RN_NEWKEY)) = some (31, 63) ∧
    (let s := (tStw 11 0 [] { StwSt.zero with quiet := [(1024 * 11, 100)] }).setReg R.STW_SHED2 8
     s.staged = [] ∧ s.mode.timeEnabled = true ∧ s.mayShed 39 = true ∧ s.domainWanted 39 = true ∧ 100 ≤ s.quietFor 11 0 ∧ tSee .shed s (fun t => t.stw.shed) = some [39]) := by
  decide +kernel
theorem test_meets_watch : let wd (a r : Nat) := tSet [(F.STW_WD_CTL_EN, 1), (F.STW_WD_CTL_ACTION, a), (F.STW_WD_STAT_REMAIN, r)] tOn
    (wd 0 0).mode.wdFrozen = false ∧ (wd 0 0).is F.STW_WD_STAT_SAFEOUT = false ∧ tOn.mode.ov.safeHold = false ∧
    tSee .wdExpire (wd 0 0) (fun t => t.is F.STW_WD_STAT_EXPIRED) = some true ∧
    tSee .wdExpire (wd 1 0) (fun t => t.is F.STW_WD_STAT_SAFEOUT) = some true ∧
    tSee .wdExpire (wd 3 0) (fun t => t.mode.ov.freeze) = some true ∧
    tSee .wdExpiredClear (tSet [(F.STW_WD_STAT_EXPIRED, 1)] tOn) (fun t => t.is F.STW_WD_STAT_EXPIRED) = some false ∧
    tSee .stwRestart { tOn with stw := { StwSt.zero with shed := [39], critical := 1 } } (fun t => t.stw) =
      some { StwSt.zero with shed := [39] } ∧
    tOn.loopsAct = true ∧ tSee (.limitRatio 9 1 2 70000) tOn (fun t => t.get (F.STW_LR_MEAS 9)) = some 0xFFFF ∧
    tSee (.limitRatio 1 1 2 3) tOn (fun t => t.get (F.STW_LR_RATIO 1)) = some 0x1000 ∧
    (let s := tSet [(F.STW_MWIN_EN, 1), (F.DRC_STAT_STATE 7, 2)] tOn
     s.windowsWanted = [7] ∧ (s.column 62).entries = [] ∧ tSee .mwinPlace s (fun t => (t.column 62).entries.length) = some 1) := by
  decide +kernel
/-- In SELFTEST with this record, field 0 untouched. -/
def tBist (x : BistSt) : State :=
  { tOn with mode := { tOn.mode with ov := { tOn.mode.ov with selfTest := true } }, bist := x }

/-- O56: fields tested, restored and passed over, an ABORT, SCAN-ENTER, records and fuses. -/
theorem test_meets_self_test : let z := BistSt.zero; let two := { z with todo := [0, 23] }
    (tBist two).domainOn 4 = true ∧ (tBist two).configured 0 = false ∧
    tSee (.fieldTest [] none none []) (tBist two) (fun t => (t.bist.todo, t.get (F.BIST_FRES_RESULT 0))) = some ([23], 1) ∧
    tSee (.fieldTest [] none (some (4, 9)) []) (tBist two) (fun t => t.get (F.BIST_FRES_RESULT 0)) = some 3 ∧
    (let s := { tBist two with images := [(0, tImage [] [])] }
     s.saveOk 0 = false ∧ tSee (.fieldTest [] none none []) s (fun t => t.get (F.BIST_FRES_RESULT 0)) = some 4) ∧
    tSee .bistAbort (tBist { two with saved := some 0 }) (fun t => t.bist.aborted) = some true ∧
    tSee .bistAbort (tBist two) (fun t => t.mode.ov.selfTest) = some false ∧
    tOn.power.powered = true ∧ tOn.mode.ov.selfTest = false ∧
    tSee .scanEnter (tBist z) (fun t => (t.bist.scanned, t.tap.instr)) = some (true, .scanEnter) ∧
    tSee .scanEnter (tSet [(F.CRY_RN_ACTIVE, 1)] (tBist z)) (fun t => t.is F.BIST_ERR_RENEW) = some true := by decide +kernel
theorem test_meets_saved_field : let s := tDram { tBist { BistSt.zero with todo := [0, 1] } with images := [(0, tImage [] [])] }
    s.configured 0 = true ∧ s.saveOk 0 = true ∧ (s.bist.todo, s.bist.saved) = ([0, 1], none) := by decide +kernel
/-- The channels run, and field 0 is saved. -/
def tSaved : State := tDram (tBist { BistSt.zero with todo := [0], saved := some 0 })
theorem test_meets_readable_save : tSaved.bist.saved = some 0 ∧ tSaved.bist.aborted = false ∧ (tSaved.readSave 0 []).2.isSome = true :=
  ⟨rfl, rfl, plain_readSave ⟨by decide +kernel, by decide +kernel, by decide +kernel, by decide +kernel, by decide +kernel⟩ 0
    (by decide +kernel)⟩
/-- No channel runs, and field 0 is saved. -/
def tUnsaved : State := tBist { BistSt.zero with todo := [0, 23], saved := some 0 }
theorem test_meets_unreadable_save : tUnsaved.bist.saved = some 0 ∧ (tUnsaved.readSave 0 []).2 = none := by
  refine ⟨rfl, State.readSave_none (fun g => ?_) 0⟩
  have h : ∀ c < 8, tUnsaved.domainOn (28 + c) = true ∧ tUnsaved.get (F.DRC_STAT_STATE c) = 0 := by decide +kernel
  have n : tUnsaved.channelOf g < 8 := Nat.mod_lt _ (by decide +kernel)
  obtain ⟨h1, h2⟩ := h _ n
  simp [State.engineRead, State.engineAdmit, h1, h2]
theorem test_meets_records_and_fuses : let z := BistSt.zero; let item (k : Nat) := tSet [(F.BIST_FUSECTL_ITEM, k)] (tBist z)
    recValid 0 = false ∧ recValid 0x80000000 = true ∧ (BitVec.toNat (0x80000000 : BitVec 32)) = 0x80000000 ∧
    tSee (.srepWrite 63 0) (tBist z) (fun t => t.reg (R.BIST_SREP 63)) = some 0 ∧
    tSee (.srepWrite 0 0) tOn (fun t => t.is F.BIST_ERR_REPBUSY) = some true ∧
    tSee (.srepWrite 1 0x80000000) ((tBist z).setReg (R.BIST_SREP 0) 0x80000000) (fun t => t.is F.BIST_ERR_SPAREUSED) = some true ∧
    (item 0).fuseFull 0 0 = false ∧ (item 2).get F.BIST_FUSECTL_ITEM = 2 ∧ { (item 3) with
      fuses := { tOn.fuses with root := some [] } }.fuseFull 3 0 = true ∧
    tSee (.prog .host 0x4655 0x5345 1024 (85 * 16)) (item 0) (fun t => t.bist.prog) = some (some (0, 0)) ∧
    tSee (.prog .host 0x4655 0x5345 0 1361) (item 0) (fun t => t.is F.BIST_ERR_FUSETEMP) = some true ∧
    tSee (.prog .host 0x4655 0x5345 0 0) (item 2) (fun t => t.fuses.revoked) = some (setBitsOf 0 1 tOn.fuses.revoked 1) ∧
    tSee (.prog .host 0x4655 0x5345 0 0) tOn (fun t => t.is F.BIST_ERR_FUSEMODE) = some true ∧
    tSee (.fuseWord true) (tBist { z with prog := some (0, 0), staged := [5] }) (fun t => t.fuses.records.length) =
      some (tOn.fuses.records.length + 1) ∧
    tSee (.fuseWord true) (tBist { z with prog := some (3, 0), blown := 7 }) (fun t => t.fuses.root) = some (some (List.replicate 8 0)) ∧
    tSee (.fuseWord false) (tBist { z with prog := some (1, 0), blown := 4 }) (fun t => (t.bist.blown, t.bist.bad)) =
      some (5, true) := by decide +kernel
/-- DBG unlocked for the host. -/
def tDbg (d : DbgSt) : State := tSet [(F.DBG_STAT_UNLOCKED, 1)] { tOn with straps := { tOn.straps with dbgEn := true }, dbg := d }
/-- O57: DBG locked and not, accesses, a halt at a frame end and at once, a release, and the lookups of conditions. -/
theorem test_meets_debug : let s := tDbg .zero; let z := DbgSt.zero
    s.dbgMayWrite .host = true ∧ s.dbgMayWrite .debug = true ∧ s.dbgMayWrite .steward = false ∧ tOn.dbgMayWrite .host = false ∧
    tSee (.unlock .host 0x4442 0x5547 1024) (tSet [(F.DBG_STAT_UNLOCKED, 0)] s) (fun t => t.is F.DBG_STAT_UNLOCKED) = some true ∧
    tSee (.unlock .host 0x4442 0x5547 1025) (tSet [(F.DBG_STAT_UNLOCKED, 0)] s) (fun t => t.is F.DBG_STAT_UNLOCKED) = some false ∧
    tSee (.sc .host) s (fun t => t.is F.DBG_ACC_CTL_SCFAIL) = some true ∧
    (tDbg { z with rsvHost := some (0, 3) }).reservation .host = some ((tDbg z).accAddr, 3) ∧
    s.mode.top = .run ∧ tSee (.haltFrameEnd .host) s (fun t => t.dbg.halt) = some (some (false, 1)) ∧
    tSee (.haltNow (some .debug)) s (fun t => t.mode.ov.halt) = some true ∧ State.reset.mode.top = .bare ∧
    (let h := { s with mode := { s.mode with ov := { s.mode.ov with halt := true } } }
     tSee (.release .host) h (fun t => t.dbg.resume.isSome) = some true ∧
     tSee (.release .host) ((tSet [(F.DBG_CTL_RELAT, 1)] h).setReg R.DBG_RELTICK_LO 0) (fun t => t.is F.DBG_ERR_RELLATE) = some true ∧
     tSee (.release .host) ((tSet [(F.DBG_CTL_RELAT, 1)] h).setReg R.DBG_RELTICK_LO 5000) (fun t => t.is F.DBG_ERR_RELLATE) =
       some false ∧
     tSee .resumePrepare { h with dbg := { z with resume := some (.after 9) } } (fun t => t.dbg.prepared) = some true) ∧
    tSee (.vtTxWrite .host 7) s (fun t => t.get F.DBG_VT_TX_DATA) = some 7 ∧
    tSee (.lcWindow 3) (tSet [(F.DBG_LC_CTL_WINDOW 3, 2), (F.DBG_LC_STAT_CUR 3, 1)]
      { tDbg { z with firstHit := [(3, some 1)] } with time := { tOn.time with tick := 3 } }) (fun t => t.get (F.DBG_LC_STAT_CUR 3)) =
      some 0 ∧ (tRun (tImage [] [])).executes 0 0 = true ∧ (tRun (tImage [] [])).executes 0 1000 = false ∧
    (let s := tLatch 16320 [3, 7] (tRun { tImage [] [] with outTracks := [(4080, 0), (4081, 1)], vtTracks := some (0, 1) })
     tSee (.vtSend 0) s (fun t => t.get F.DBG_VT_RX_DATA) = some 7 ∧
     tSee (.take 0) (tSet [(F.DBG_VT_STAT_TXFULL, 1)] s) (fun t => t.is F.DBG_VT_STAT_TXFULL) = some false) := by decide +kernel
theorem test_meets_access : let s := (tDbg .zero).setNi 95 { NiSt.zero with active := tTables }
    s.is F.DBG_ACC_CTL_BUSY = false ∧ tAccepts s 95 (s.accRequest tRdWords []) = true ∧
    tAccepts s 95 (s.accRequest tWrWords [(0, s.accData)]) = true ∧
    tSee (.lr .host) s (fun t => (t.is F.DBG_ACC_CTL_BUSY, t.dbg.access)) = some (true, some (.host, s.accAddr, 2, 0)) := by decide +kernel
theorem test_meets_pins : tOn.scanAllowed = false ∧ State.reset.power.powered = true ∧ State.reset.scanAllowed = true ∧
    tSee (.bypass [true, false]) tOn (fun t => t.tap.instr) = some .bypass ∧
    tSee (.extest [true] [false]) tOn (fun t => t.tap.instr) = some .bypass ∧
    tSee (.extest [true] [false]) State.reset (fun t => (t.tap.instr, t.tap.cells)) = some (.extest, [false]) ∧
    tSee .idcode tOn (fun t => t.tap.instr) = some .idcode ∧
    tOn.tap.busy = false ∧ tSee (.dbgReg 0x100000000000005) tOn (fun t => t.tap.capture.getLsbD 57) = some true ∧
    tSee .tapReset tOn (fun t => t.tap.instr) = some .idcode ∧
    tSee (.vccioFault 7) tOn (fun t => t.pins.off) = some [(7, true)] ∧
    tSee (.vccioReturn 7) { tOn with pins := { tOn.pins with off := [(7, true)] } } (fun t => t.pins.back) = some [(7, true)] := by
  decide +kernel

/-! ## The step -/

/-- O58 to O60: a command in front, an idle step, the invariant at reset. -/
theorem test_meets_step : (match step { State.reset with pending := [.tapReset, .dbgEnFall] } with
      | .next t => decide (t.pending = [.dbgEnFall]) | _ => false) = true ∧
    (match step tOn with | .next t => decide (t.time.raw = 100) | _ => false) = true ∧ tOn.time.nextTick = some tOn.time.raw ∧
    tOn.pending = [] := by decide +kernel
theorem test_meets_invariant : tOn.Inv := ⟨by decide +kernel, by decide +kernel, by decide +kernel, by decide +kernel⟩

end Sys2Proof.Tests
end

section
/-! SUPPORT. Register accesses of BAR0 (R8 to R15): where a register lies, what reaches it, and what a write stores in a block
that is never disabled. -/
namespace Sys2Proof.Machine

/-! ## Where a register lies -/

/-- The block found at an offset is one of the table, its span holds the offset, and its number there follows from the stride. -/
theorem blockAt_eq_some {off i : Nat} {b : BlockDesc} (h : blockAt off = some (b, i)) :
    b ∈ blockTable ∧ b.base ≤ off ∧ off < b.base + b.span ∧ i = if b.stride = 0 then 0 else (off - b.base) / b.stride := by
  obtain ⟨b', hb, he⟩ := Option.map_eq_some_iff.mp h
  obtain ⟨rfl, rfl⟩ := Prod.mk.inj he
  obtain ⟨hlo, hhi⟩ := of_decide_eq_true
    (List.find?_some (p := fun b : BlockDesc => decide (b.base ≤ off ∧ off < b.base + b.span)) hb)
  exact ⟨List.mem_of_find?_eq_some hb, hlo, hhi, rfl⟩

/-- An offset is the base of one copy of a block plus the offset within that copy. -/
theorem blockAt_offset {off i : Nat} {b : BlockDesc} (h : blockAt off = some (b, i)) :
    b.base + b.stride * i + b.localOff off = off := by
  obtain ⟨-, hlo, -, rfl⟩ := blockAt_eq_some h
  unfold BlockDesc.localOff
  split
  · simp [*]
  · have := Nat.div_add_mod (off - b.base) b.stride
    omega

/-- The register found at an offset: its block and number are those of the offset, and its descriptor is the block's first
that covers the offset within the block. -/
theorem regAt_eq_some {off : Nat} {x : RegAt} (h : regAt off = some x) :
    blockAt off = some (x.block, x.inst) ∧ x.loc = x.block.localOff off ∧
      x.block.regs.find? (fun r => r.covers x.loc) = some x.desc := by
  unfold regAt at h
  split at h
  · cases h
  · next b i hb =>
    dsimp only at h
    split at h
    · obtain ⟨r, hr, rfl⟩ := Option.map_eq_some_iff.mp h
      exact ⟨hb, rfl, hr⟩
    · cases h

theorem RegAt.mem_table {off : Nat} {x : RegAt} (h : regAt off = some x) : x.block ∈ blockTable :=
  (blockAt_eq_some (regAt_eq_some h).1).1

theorem RegAt.desc_mem {off : Nat} {x : RegAt} (h : regAt off = some x) : x.desc ∈ x.block.regs :=
  List.mem_of_find?_eq_some (regAt_eq_some h).2.2

theorem RegAt.desc_covers {off : Nat} {x : RegAt} (h : regAt off = some x) : x.desc.covers x.loc = true :=
  List.find?_some (p := fun r : RegDesc => r.covers x.loc) (regAt_eq_some h).2.2

/-- The register found at an offset is stored at that offset. -/
theorem RegAt.ref_off {off : Nat} {x : RegAt} (h : regAt off = some x) : x.ref.off = off := by
  obtain ⟨hb, hl, -⟩ := regAt_eq_some h
  have := blockAt_offset hb
  rwa [← hl] at this

/-- An element of a register lies no farther than its last one. -/
theorem RegDesc.le_of_covers {r : RegDesc} {l : Nat} (h : r.covers l = true) :
    l ≤ r.off + (r.count - 1) * r.stride + (r.count2 - 1) * r.stride2 := by
  simp only [RegDesc.covers, Bool.and_eq_true, decide_eq_true_eq, beq_iff_eq] at h
  obtain ⟨⟨⟨-, h2⟩, h1⟩, hd⟩ := h
  have := Nat.mul_le_mul_right r.stride2 (Nat.le_sub_one_of_lt h2)
  have := Nat.mul_le_mul_right r.stride (Nat.le_sub_one_of_lt h1)
  omega

/-- The block of a register's offset. -/
theorem RegAt.blockAt_ref {off : Nat} {x : RegAt} (h : regAt off = some x) : blockAt x.ref.off = some (x.block, x.inst) := by
  rw [RegAt.ref_off h, (regAt_eq_some h).1]

/-- A register of one block does not lie at an offset of another. -/
theorem RegAt.ref_off_ne {off o : Nat} {x : RegAt} {k : Block} (h : regAt off = some x)
    (ho : (blockAt o).map (·.1.block) = some k) (hk : x.block.block ≠ k) : x.ref.off ≠ o := by
  rintro rfl
  rw [RegAt.blockAt_ref h] at ho
  exact hk (Option.some.inj ho)

/-- The blocks but LIM lie between LIM and the diagnostic windows. -/
theorem blockTable_bounds : ∀ b ∈ blockTable, b.block ≠ .lim → 0x10000 ≤ b.base ∧ b.base + b.span ≤ 0x200000 := by
  decide +kernel

theorem blockTable_fields_fit : ∀ b ∈ blockTable, ∀ r ∈ b.regs, ∀ f ∈ r.fields, f.lo + f.w ≤ 32 := by decide +kernel

/-- The COMMIT register of a block is no half of a pair. -/
theorem blockTable_commit_single : ∀ b ∈ blockTable, b.commit ≠ .none →
    ∀ r ∈ b.regs.find? (fun r => r.covers 0xFC), r.pair = .single := by decide +kernel

/-- A mask of fields that lie in 32 bits lies in 32 bits. -/
theorem RegDesc.bitsWhere_lt {r : RegDesc} (h : ∀ f ∈ r.fields, f.lo + f.w ≤ 32) (p : FieldDesc → Bool) :
    r.bitsWhere p < 2 ^ 32 := by
  unfold RegDesc.bitsWhere
  refine List.foldlRecOn (motive := (· < 2 ^ 32)) _ _ (by decide) fun m hm v hv => Nat.or_lt_two_pow hm ?_
  obtain ⟨f, hf, rfl⟩ := List.mem_map.mp hv
  split
  · have hle : 2 ^ (f.lo + f.w) ≤ 2 ^ 32 := Nat.pow_le_pow_right (by decide) (h f hf)
    refine Nat.lt_of_lt_of_le ?_ hle
    rw [FieldDesc.mask, Nat.pow_add, Nat.mul_comm]
    exact Nat.mul_lt_mul_of_pos_left (Nat.sub_lt (Nat.two_pow_pos _) Nat.one_pos) (Nat.two_pow_pos _)
  · decide

theorem RegAt.bitsWhere_lt {off : Nat} {x : RegAt} (h : regAt off = some x) (p : FieldDesc → Bool) :
    x.desc.bitsWhere p < 2 ^ 32 :=
  RegDesc.bitsWhere_lt (blockTable_fields_fit _ (RegAt.mem_table h) _ (RegAt.desc_mem h)) p

theorem RegAt.rw_lt {off : Nat} {x : RegAt} (h : regAt off = some x) (c : FieldClass) : x.desc.rw c < 2 ^ 32 :=
  RegAt.bitsWhere_lt h _

/-- The offset of COMMIT holds no half of a pair. -/
theorem RegAt.loc_ne_commit {off : Nat} {x : RegAt} (h : regAt off = some x) (hc : x.block.commit ≠ .none)
    (hp : x.desc.pair ≠ .single) : x.loc ≠ 0xFC := by
  intro hl
  have hf := (regAt_eq_some h).2.2
  rw [hl] at hf
  exact hp (blockTable_commit_single _ (RegAt.mem_table h) hc _ hf)

/-! ## Accesses that reach a register -/

/-- R8, R279, R301: a 4-byte access at `off` finds register `x`: it is aligned, lies between LIM and the diagnostic windows and
outside the MSI-X structure, power is up, and no wake holds it. -/
structure State.Reaches (s : State) (p : Path) (off : Nat) (x : RegAt) : Prop where
  found : regAt off = some x
  aligned : off % 4 = 0
  low : 0x10000 ≤ off
  high : off < 0x200000
  noMsix : msixReg off = none
  powered : s.power.powered = true
  free : s.waits p off = false

section
variable {s : State} {p : Path} {off : Nat} {x : RegAt}

theorem sizeOk_four (h : off % 4 = 0) : sizeOk off 4 = true := by simp [sizeOk, h]

theorem State.Reaches.barWrite (h : s.Reaches p off x) (d : BitVec 64) :
    s.barWrite p off 4 d = s.writeAt p x (d.toNat % 2 ^ 32) := by
  have hlo := h.low
  have hhi := h.high
  simp [State.barWrite, h.free, State.barWriteNow, sizeOk_four h.aligned, State.busWrite, h.powered, h.noMsix, h.found,
    Nat.not_lt.mpr hlo, Nat.not_le.mpr hhi]

theorem State.Reaches.barRead (h : s.Reaches p off x) :
    s.barRead p off 4 = { (s.readReg p x).1 with readOut := (p, BitVec.ofNat 64 (s.readReg p x).2) } := by
  have hlo := h.low
  have hhi := h.high
  have hbus : s.busRead p off = s.readReg p x := by
    simp [State.busRead, h.powered, h.noMsix, h.found, Nat.not_lt.mpr hlo, Nat.not_le.mpr hhi,
      Nat.not_le.mpr (show off < 16777216 by omega), Nat.not_le.mpr (show off < 0x400000 by omega)]
  simp [State.barRead, h.free, State.barReadNow, sizeOk_four h.aligned, hbus]
end

/-! ## Reads -/

/-- The registers whose read the time base answers itself: NOW_LO, NOWX and the TXQID of a timestamp point. -/
def RegAt.timeRead (x : RegAt) : Prop :=
  x.ref.off = R.TIME_NOW_LO.off ∨ x.ref.off = R.TIME_NOWX.off ∨
    (x.block.block = .time ∧ 0x800 ≤ x.loc ∧ (x.loc - 0x800) % 64 = 8)

section
variable {x : RegAt} (ht : ¬ x.timeRead)
include ht

/-- R10: a read of a LO register returns its half and latches the other for its path. -/
theorem State.readReg_lo (s : State) (p : Path) {h : RegAt} (hp : x.desc.pair = .lo) (hs : ¬ (x.block.block = .fld ∧ x.loc = 0x54))
    (hh : regAt (x.ref.off + 4) = some h) :
    s.readReg p x = (s.latch p x.ref.off (s.regValue p h), s.regValue p x) := by
  simp only [RegAt.timeRead, not_or] at ht
  obtain ⟨hnow, hnowx, htxq⟩ := ht
  rw [State.readReg, if_neg hnow, if_neg hnowx, if_neg htxq, hp]
  simp only [State.readLo, if_neg hs, RegAt.hi, hh]

/-- R15, R16: a read of a register with RC fields clears them, except on the debug path. -/
theorem State.readReg_rc (s : State) (p : Path) (hp : x.desc.pair = .single)
    (hm : x.desc.bitsWhere (fun f => f.access == .rc) ≠ 0) (hr : s.readable x = true) :
    s.readReg p x = (if p = .debug then s
      else s.setReg x.ref (s.reg x.ref &&& (2 ^ 32 - 1 - x.desc.bitsWhere fun f => f.access == .rc)), s.regValue p x) := by
  simp only [RegAt.timeRead, not_or] at ht
  obtain ⟨hnow, hnowx, htxq⟩ := ht
  rw [State.readReg, if_neg hnow, if_neg hnowx, if_neg htxq, hp]
  by_cases hd : p = .debug <;> simp [hm, hr, hd]
end

/-! ## Blocks that are never disabled -/

/-- The blocks that are never disabled and have no STATICW bit (R12, Table 0-2; the enable conditions are those of log
entry 12). -/
def Block.alwaysOn (b : Block) : Bool := [Block.trg, .scr, .noc, .gpb, .mig, .stw].contains b

/-- The always-enabled blocks one by one. -/
theorem Block.alwaysOn_iff {b : Block} :
    b.alwaysOn = true ↔ b = .trg ∨ b = .scr ∨ b = .noc ∨ b = .gpb ∨ b = .mig ∨ b = .stw := by
  simp [Block.alwaysOn]

theorem State.blockOn_of_alwaysOn (s : State) {b : Block} (h : b.alwaysOn = true) (i l : Nat) : s.blockOn b i l = true := by
  rcases Block.alwaysOn_iff.mp h with rfl | rfl | rfl | rfl | rfl | rfl <;> rfl

section
variable {x : RegAt} (h : x.block.block.alwaysOn = true)
include h

theorem State.staticW_of_alwaysOn (s : State) : s.staticW x = s := by
  rcases Block.alwaysOn_iff.mp h with h | h | h | h | h | h <;> simp [State.staticW, h]

theorem RegAt.closed_of_alwaysOn : x.closed = false := by
  rcases Block.alwaysOn_iff.mp h with h | h | h | h | h | h <;> simp [RegAt.closed, h]

theorem State.amapShut_of_alwaysOn (s : State) : s.amapShut x = false := by
  have hd : x.block.block ≠ .drc := by rintro hd; simp [hd, Block.alwaysOn] at h
  simp [State.amapShut, hd]

theorem RegAt.not_dbg_of_alwaysOn : x.block.block ≠ .dbg := by
  rintro hd; simp [hd, Block.alwaysOn] at h
end

/-! ## Staging (R52) -/

@[simp] theorem State.path_setPath (s : State) (p : Path) (y : PathSt) : (s.setPath p y).path p = y := by cases p <;> rfl
@[simp] theorem State.path_setReg (s : State) (p : Path) (r : RegRef) (v : Nat) : (s.setReg r v).path p = s.path p := by
  cases p <;> rfl
@[simp] theorem State.path_stage (s : State) (p q : Path) (off mask v : Nat) : (s.stage q off mask v).path p = s.path p := by
  cases p <;> rfl
@[simp] theorem State.setPath_staged (s : State) (p : Path) (y : PathSt) : (s.setPath p y).staged = s.staged := by
  cases p <;> rfl

/-- What a path's write of the masked bits of `v` makes of the values staged for a register. -/
def Staged.take (y : Staged) (p : Path) (mask v : Reg) : Staged :=
  if p = .steward then { y with stwMask := y.stwMask ||| mask, stwVal := mergeBits mask v y.stwVal }
  else { y with hostMask := y.hostMask ||| mask, hostVal := mergeBits mask v y.hostVal }

/-- Staging changes the staged values alone, and of them those of its register. -/
theorem State.stage_eq (s : State) (p : Path) (off mask v : Nat) :
    s.stage p off mask v = { s with
      staged := SMap.set s.staged Staged.none off
        ((SMap.get s.staged Staged.none off).take p (BitVec.ofNat 32 mask) (BitVec.ofNat 32 v)) } := rfl

/-- The values staged after a register took a write, at its own offset and at another. -/
theorem State.get_staged_stage_same (s : State) (p : Path) (off mask v : Nat) :
    SMap.get (s.stage p off mask v).staged Staged.none off =
      (SMap.get s.staged Staged.none off).take p (BitVec.ofNat 32 mask) (BitVec.ofNat 32 v) := SMap.get_set_same ..
theorem State.get_staged_stage_other (s : State) (p : Path) {off o : Nat} (mask v : Nat) (h : o ≠ off) :
    SMap.get (s.stage p off mask v).staged Staged.none o = SMap.get s.staged Staged.none o := SMap.get_set_other _ _ _ _ h

theorem mergeBits_zero (m v : Reg) : mergeBits m v 0 = v &&& m := by simp [mergeBits]

theorem mergeBits_allOnes (v old : Reg) : mergeBits (BitVec.allOnes 32) v old = v := by
  rw [mergeBits, BitVec.and_allOnes, BitVec.not_allOnes, BitVec.and_zero, BitVec.or_zero]

theorem Staged.take_none (p : Path) (m v : Reg) :
    Staged.none.take p m v = if p = .steward then { Staged.none with stwMask := m, stwVal := v &&& m }
      else { Staged.none with hostMask := m, hostVal := v &&& m } := by
  unfold Staged.take Staged.none
  simp only [mergeBits_zero, show (0 : Reg) ||| m = m from BitVec.zero_or]

theorem Staged.take_none_ne {m : Reg} (h : m ≠ 0) (p : Path) (v : Reg) : Staged.none.take p m v ≠ Staged.none := by
  rw [Staged.take_none]
  intro he
  split at he
  · exact h (congrArg Staged.stwMask he)
  · exact h (congrArg Staged.hostMask he)

theorem Staged.take_hostVal {p : Path} (h : p ≠ .steward) (y : Staged) (m v : Reg) :
    (y.take p m v).hostVal = mergeBits m v y.hostVal := by simp [Staged.take, h]

/-- A write lists no key but its own anew. -/
theorem SMap.mem_insert {α : Type} {m : SMap α} {i : Nat} {y : α} {e : Nat × α} (h : e ∈ SMap.insert m i y) :
    e = (i, y) ∨ e ∈ m := by
  induction m with
  | nil => exact .inl (by simpa [SMap.insert] using h)
  | cons a m ih =>
    obtain ⟨k, v⟩ := a
    unfold SMap.insert at h
    split at h
    · exact (List.mem_cons.mp h).imp_right (List.mem_cons_of_mem _)
    · split at h
      · exact List.mem_cons.mp h
      · rcases List.mem_cons.mp h with rfl | h
        · exact .inr (List.mem_cons_self ..)
        · exact (ih h).imp_right (List.mem_cons_of_mem _)

theorem SMap.mem_set {α : Type} [DecidableEq α] {m : SMap α} {d : α} {i : Nat} {y : α} {e : Nat × α}
    (h : e ∈ SMap.set m d i y) : e = (i, y) ∨ e ∈ m := by
  unfold SMap.set at h
  split at h
  · exact .inr (List.mem_filter.mp h).1
  · exact SMap.mem_insert h

/-! ## Staged values of blocks that are never disabled stay staged -/

/-- Values are staged in blocks that are never disabled alone. -/
def State.StagedAlwaysOn (s : State) : Prop :=
  ∀ e ∈ s.staged, ∀ b i, blockAt e.1 = some (b, i) → b.block.alwaysOn = true

theorem State.stagedAlwaysOn_of_nil {s : State} (h : s.staged = []) : s.StagedAlwaysOn := by simp [State.StagedAlwaysOn, h]

theorem State.StagedAlwaysOn.stage {s : State} (hs : s.StagedAlwaysOn) {x : RegAt} {off : Nat} (hx : regAt off = some x)
    (h : x.block.block.alwaysOn = true) (p : Path) (mask v : Nat) : (s.stage p x.ref.off mask v).StagedAlwaysOn := by
  intro e he b i hb
  rcases SMap.mem_set he with rfl | he
  · rw [RegAt.ref_off hx, (regAt_eq_some hx).1] at hb
    obtain ⟨rfl, -⟩ := Prod.mk.inj (Option.some.inj hb)
    exact h
  · exact hs e he b i hb

/-- R14: nothing takes effect at once where no block with staged values is disabled. -/
theorem State.StagedAlwaysOn.flushDisabled {s : State} (hs : s.StagedAlwaysOn) : s.flushDisabled = s := by
  unfold State.flushDisabled
  refine List.foldlRecOn (motive := (· = s)) _ _ rfl fun t ht e he => ?_
  subst ht
  split
  · rfl
  · split
    · next b i hb => rw [if_pos (t.blockOn_of_alwaysOn (hs e he b i hb) _ _)]
    · rfl

/-! ## What a write of such a register stores -/

/-- R12, R15: the bits of a register after a write of `d` that takes effect for the fields with mask `take`. -/
def RegDesc.written (r : RegDesc) (take old d : Nat) : Nat :=
  (old &&& (2 ^ 32 - 1 - take) &&& (2 ^ 32 - 1 - (d &&& r.bitsWhere fun f => f.access == .w1c))) ||| (d &&& take) |||
    (d &&& r.bitsWhere fun f => f.access == .w1s)

/-- R12, R52: a write of a register of a block that is never disabled stores its LIVE, W1S and W1C bits and stages its SHADOW
bits. -/
theorem State.storeReg_of_alwaysOn {x : RegAt} (h : x.block.block.alwaysOn = true) (s : State) (p : Path) (d : Nat) :
    s.storeReg p x d =
      if x.desc.rw .shadow = 0 then s.setReg x.ref (x.desc.written (x.desc.rw .live) (s.reg x.ref) d)
      else (s.setReg x.ref (x.desc.written (x.desc.rw .live) (s.reg x.ref) d)).stage p x.ref.off (x.desc.rw .shadow) d := by
  simp [State.storeReg, State.blockOn_of_alwaysOn _ h, State.staticW_of_alwaysOn h, RegDesc.written]

theorem State.writeReg_of_alwaysOn {x : RegAt} (h : x.block.block.alwaysOn = true) (s : State) (p : Path) (d : Nat) :
    s.writeReg p x d = (s.storeReg p x d).hook p x (s.reg x.ref) d := by
  simp [State.writeReg, RegAt.closed_of_alwaysOn h, State.amapShut_of_alwaysOn h]

theorem bitOf_eq_testBit (i v : Nat) : bitOf i v = v.testBit i := Nat.testBit_eq_decide_div_mod_eq.symm

/-- A mask of 32 bits taken away leaves the other bits. -/
theorem testBit_mask_sub {m k : Nat} (hm : m < 2 ^ 32) (hk : k < 32) : (2 ^ 32 - 1 - m).testBit k = !m.testBit k := by
  rw [Nat.sub_sub, Nat.add_comm, Nat.testBit_two_pow_sub_succ hm]
  simp [hk]

theorem RegDesc.testBit_written {r : RegDesc} {take old d k : Nat} (ht : take < 2 ^ 32) (hd : d < 2 ^ 32) (hk : k < 32) :
    (r.written take old d).testBit k =
      ((old.testBit k && !take.testBit k && !(d.testBit k && (r.bitsWhere fun f => f.access == .w1c).testBit k)) ||
        (d.testBit k && (take.testBit k || (r.bitsWhere fun f => f.access == .w1s).testBit k))) := by
  have hc : d &&& r.bitsWhere (fun f => f.access == .w1c) < 2 ^ 32 := Nat.lt_of_le_of_lt Nat.and_le_left hd
  simp only [RegDesc.written, Nat.testBit_or, Nat.testBit_and, testBit_mask_sub ht hk, testBit_mask_sub hc hk,
    Bool.and_or_distrib_left, Bool.or_assoc]

/-- Storing keeps a state whose staged values are all in blocks that are never disabled. -/
theorem State.StagedAlwaysOn.storeReg {s : State} (hs : s.StagedAlwaysOn) {x : RegAt} {off : Nat} (hx : regAt off = some x)
    (h : x.block.block.alwaysOn = true) (p : Path) (d : Nat) : (s.storeReg p x d).StagedAlwaysOn := by
  rw [State.storeReg_of_alwaysOn h]
  split
  · exact hs
  · exact State.StagedAlwaysOn.stage (s := s.setReg _ _) hs hx h _ _ _

/-- Where nothing is staged, a write of a register with SHADOW bits stages those alone. -/
theorem State.staged_storeReg {s : State} (hs : s.staged = []) {x : RegAt} {off : Nat} (hx : regAt off = some x)
    (h : x.block.block.alwaysOn = true) (p : Path) (d : Nat) :
    (s.storeReg p x d).staged = if x.desc.rw .shadow = 0 then [] else
      [(x.ref.off, Staged.none.take p (BitVec.ofNat 32 (x.desc.rw .shadow)) (BitVec.ofNat 32 d))] := by
  rw [State.storeReg_of_alwaysOn h]
  split
  · exact hs
  · next hsh =>
    have hm : BitVec.ofNat 32 (x.desc.rw .shadow) ≠ 0 := by
      intro h0
      have := congrArg BitVec.toNat h0
      rw [BitVec.toNat_ofNat, Nat.mod_eq_of_lt (RegAt.rw_lt hx _)] at this
      exact hsh this
    rw [State.stage_eq, State.setReg_staged, hs]
    exact if_neg (Staged.take_none_ne hm p _)

/-- The bits of a stored register, read back. -/
theorem State.testBit_reg_setReg (s : State) (r : RegRef) (v : Nat) {k : Nat} (hk : k < 32) :
    ((s.setReg r v).reg r).testBit k = v.testBit k := by
  rw [State.reg_setReg, Nat.testBit_mod_two_pow, decide_eq_true hk, Bool.true_and]

theorem State.writeAt_single {s : State} {x : RegAt} (h : x.block.block.alwaysOn = true) (hw : s.writable x = true)
    (hloc : x.loc ≠ 0xFC) (hp : x.desc.pair = .single) (p : Path) (d : Nat) :
    s.writeAt p x d = (s.writeReg p x d).flushDisabled := by
  simp [State.writeAt, State.dbgShut, RegAt.not_dbg_of_alwaysOn h, hw, hloc, hp]

theorem State.writeAt_hi {s : State} {x lo : RegAt} (h : x.block.block.alwaysOn = true) (hw : s.writable x = true)
    (hloc : x.loc ≠ 0xFC) (hp : x.desc.pair = .hi) (hlo : regAt (x.ref.off - 4) = some lo) (p : Path) (d : Nat) :
    s.writeAt p x d = (s.writeHi p lo d).flushDisabled := by
  simp [State.writeAt, State.dbgShut, RegAt.not_dbg_of_alwaysOn h, hw, hloc, hp, hlo]

/-! ## Pairs (R10) -/

/-- R10: a pair outside TIME, NI and DBG takes a value register by register. -/
theorem State.writePair_eq (s : State) (p : Path) {off : Nat} {lo hi : RegAt} (hlo : regAt off = some lo)
    (hb : lo.block.block ∉ [Block.time, .ni, .dbg]) (hhi : regAt (lo.ref.off + 4) = some hi) (v : Nat) :
    s.writePair p lo v = (s.writeReg p lo (v % 2 ^ 32)).writeReg p hi (v / 2 ^ 32 % 2 ^ 16) := by
  simp only [List.mem_cons, List.not_mem_nil, or_false, not_or] at hb
  obtain ⟨htime, hni, hdbg⟩ := hb
  have hincr : lo.ref.off ≠ R.TIME_INCR_LO.off := RegAt.ref_off_ne hlo (by decide +kernel) htime
  have hstep : lo.ref.off ≠ R.TIME_STEP_LO.off := RegAt.ref_off_ne hlo (by decide +kernel) htime
  have hacc : lo.ref.off ≠ R.DBG_ACC_ADDR_LO.off := RegAt.ref_off_ne hlo (by decide +kernel) hdbg
  simp [State.writePair, hincr, hstep, hacc, hni, RegAt.hi, hhi]

/-- R10: the write of a HI register whose LO half is staged under its path writes both halves and ends the staging. -/
theorem State.writeHi_eq (s : State) (p : Path) {off : Nat} {lo hi : RegAt} (hlo : regAt off = some lo)
    (hb : lo.block.block ∉ [Block.time, .ni, .dbg]) (hhi : regAt (lo.ref.off + 4) = some hi) {v : Reg}
    (hv : SMap.get (s.path p).staging none lo.ref.off = some v) (d : Nat) :
    s.writeHi p lo d = ((s.setPath p { s.path p with
      staging := SMap.set (s.path p).staging none lo.ref.off none }).writeReg p lo v.toNat).writeReg p hi (d % 2 ^ 16) := by
  have hv32 : v.toNat < 2 ^ 32 := v.isLt
  rw [State.writeHi, hv]
  refine (State.writePair_eq _ p hlo hb hhi _).trans ?_
  rw [show (v.toNat + 2 ^ 32 * (d % 2 ^ 16)) % 2 ^ 32 = v.toNat by omega,
    show (v.toNat + 2 ^ 32 * (d % 2 ^ 16)) / 2 ^ 32 % 2 ^ 16 = d % 2 ^ 16 by omega]

end Sys2Proof.Machine
end

section
/-! RESULT. O22: a write of a register of TRG, SCR, NOC or GPB acts bit by bit as access code and class say (R12, R15, R52). -/
namespace Sys2Proof.Machine

theorem exec_registerWrite (p : Path) (off : BitVec 24) (size : Nat) (d : BitVec 64) (s : State) :
    exec (.registerWrite p off size d) s = .next (s.barWrite p off.toNat size d) := rfl

section
variable {x : RegAt} (h : x.block.block ∈ [Block.trg, .scr, .noc, .gpb])
include h

theorem RegAt.alwaysOn_of_plain : x.block.block.alwaysOn = true :=
  (by decide : ∀ b ∈ [Block.trg, .scr, .noc, .gpb], b.alwaysOn = true) _ h

/-- Of TRG, SCR, NOC and GPB, only the write that sets SCR.CTL.EN sets anything off: sensing starts again (R192). -/
theorem State.hook_of_plain (s : State) (p : Path) (old d : Nat) :
    s.hook p x old d =
      if x.block.block = .scr ∧ x.loc = 0 ∧ d.testBit 0 = true ∧ old.testBit 0 = false then s.restartSweeps else s := by
  simp only [List.mem_cons, List.not_mem_nil, or_false] at h
  rcases h with h | h | h | h <;> simp [State.hook, State.hookScr, h, bitOf_eq_testBit]

/-- What a write sets off there changes the configuration engine alone. -/
theorem State.hook_of_plain_eq (s : State) (p : Path) (old d : Nat) :
    s.hook p x old d = { s with cfg := (s.hook p x old d).cfg } := by
  rw [State.hook_of_plain h]
  split <;> rfl

/-- A write of a register there that is no COMMIT register and no half of a pair changes its stored bits, what is staged and, in
SCR, the sweeps. -/
theorem State.writeAt_plain {s : State} {p : Path} {off d : Nat} (hx : regAt off = some x) (hp : x.desc.pair = .single)
    (hloc : x.loc ≠ 0xFC) (hw : s.writable x = true) (hs : s.staged = []) :
    s.writeAt p x d = { (s.setReg x.ref (x.desc.written (x.desc.rw .live) (s.reg x.ref) d)) with
      staged := (s.storeReg p x d).staged
      cfg := ((s.storeReg p x d).hook p x (s.reg x.ref) d).cfg } := by
  have ha := RegAt.alwaysOn_of_plain h
  have hst : ((s.storeReg p x d).hook p x (s.reg x.ref) d).StagedAlwaysOn := by
    rw [State.hook_of_plain_eq h]
    exact (State.stagedAlwaysOn_of_nil hs).storeReg hx ha p d
  rw [State.writeAt_single ha hw hloc hp, State.writeReg_of_alwaysOn ha, hst.flushDisabled, State.hook_of_plain_eq h,
    State.storeReg_of_alwaysOn ha]
  split <;> rfl
end

/-- Settles O22: the write reaches the one register, whose stored bits, staged bits and sweeps are all that changes. -/
theorem registerWritesByClass : Obligations.RegisterWritesByClass := by
  unfold Obligations.RegisterWritesByClass
  intro s p off d x hx hb hp hloc hal hmsix hpow hw hwait hs has live sh
  have ha := RegAt.alwaysOn_of_plain hb
  have hlim : x.block.block ≠ .lim := by rintro he; simp [he] at hb
  obtain ⟨-, hbase, hend, -⟩ := blockAt_eq_some (regAt_eq_some hx).1
  obtain ⟨hlo, hhi⟩ := blockTable_bounds _ (RegAt.mem_table hx) hlim
  have hreach : s.Reaches p off.toNat x := ⟨hx, hal, by omega, by omega, hmsix, hpow, hwait⟩
  have hlive := RegAt.rw_lt hx .live
  have hd : d.toNat % 2 ^ 32 < 2 ^ 32 := Nat.mod_lt _ (by decide)
  have hdbit : ∀ k < 32, (d.toNat % 2 ^ 32).testBit k = d.getLsbD k := fun k hk => by
    rw [Nat.testBit_mod_two_pow, decide_eq_true hk, Bool.true_and, BitVec.testBit_toNat]
  have hstaged := State.staged_storeReg hs hx ha p (d.toNat % 2 ^ 32)
  refine ⟨_, (exec_registerWrite ..).trans (congrArg _ ((hreach.barWrite d).trans
    (State.writeAt_plain hb hx hp hloc hw hs))), fun k hk => ?_, fun o ho r => ?_, fun h0 => ?_, fun h0 => ?_, fun hen => ?_, ?_⟩
  · have := s.testBit_reg_setReg x.ref (x.desc.written (x.desc.rw .live) (s.reg x.ref) (d.toNat % 2 ^ 32)) hk
    refine this.trans ?_
    rw [RegDesc.testBit_written hlive hd hk, hdbit k hk]
    rfl
  · exact SMap.get_set_other _ _ _ _ ho
  · exact hstaged.trans (if_pos h0)
  · refine (hstaged.trans (if_neg h0)).trans ?_
    rw [Staged.take_none]
  · refine (congrArg State.cfg (State.hook_of_plain hb ..)).trans ?_
    rw [hdbit 0 (by decide), if_neg hen, State.storeReg_of_alwaysOn ha]
    split <;> rfl
  · constructor <;> rfl

end Sys2Proof.Machine
end

section
/-! RESULT. O23: LO and HI halves, read-clear fields and the debug path (R10, R15, R247). -/
namespace Sys2Proof.Machine

theorem exec_loRead (p : Path) (off : BitVec 24) (size : Nat) (s : State) :
    exec (.loRead p off size) s = .next (s.barRead p off.toNat size) := rfl
theorem exec_rcRead (p : Path) (off : BitVec 24) (s : State) : exec (.rcRead p off) s = .next (s.barRead p off.toNat 4) := rfl
theorem exec_nowRead (p : Path) (s : State) : exec (.nowRead p) s = .next (s.nowRead p) := rfl
theorem exec_hiWrite (p : Path) (off : BitVec 24) (d : BitVec 32) (s : State) :
    exec (.hiWrite p off d) s = .next (s.barWrite p off.toNat 4 (d.zeroExtend 64)) := rfl

theorem Block.alwaysOn_of_trg_mig {b : Block} (h : b ∈ [Block.trg, .mig]) : b.alwaysOn = true :=
  (by decide : ∀ b ∈ [Block.trg, .mig], b.alwaysOn = true) _ h

theorem blockTable_commit : ∀ b ∈ blockTable, b.block ∈ [Block.trg, .mig] → b.commit ≠ .none := by decide +kernel

/-- The registers of MIG with SHADOW fields lie below the remap table. -/
theorem blockTable_shadow_below_remap : ∀ b ∈ blockTable, b.block = .mig → ∀ r ∈ b.regs, r.rw .shadow ≠ 0 →
    r.off + (r.count - 1) * r.stride + (r.count2 - 1) * r.stride2 < 0x1000 := by decide +kernel

section
variable {off : Nat} {x : RegAt} (hx : regAt off = some x) (hb : x.block.block ∈ [Block.trg, .mig]) (hsh : x.desc.rw .shadow ≠ 0)
include hx hb hsh

theorem State.hook_of_shadow (s : State) (p : Path) (old d : Nat) : s.hook p x old d = s := by
  simp only [List.mem_cons, List.not_mem_nil, or_false] at hb
  rcases hb with hb | hb
  · simp [State.hook, hb]
  · have hcov := RegDesc.le_of_covers (RegAt.desc_covers hx)
    have := blockTable_shadow_below_remap _ (RegAt.mem_table hx) hb _ (RegAt.desc_mem hx) hsh
    simp only [State.hook, hb, State.hookMig]
    rw [if_neg (by omega)]

theorem State.writeReg_of_shadow (s : State) (p : Path) (d : Nat) :
    s.writeReg p x d = (s.setReg x.ref (x.desc.written (x.desc.rw .live) (s.reg x.ref) d)).stage p x.ref.off
      (x.desc.rw .shadow) d := by
  have ha := Block.alwaysOn_of_trg_mig hb
  rw [State.writeReg_of_alwaysOn ha, State.hook_of_shadow hx hb hsh, State.storeReg_of_alwaysOn ha, if_neg hsh]

theorem State.StagedAlwaysOn.writeReg {s : State} (hs : s.StagedAlwaysOn) (p : Path) (d : Nat) :
    (s.writeReg p x d).StagedAlwaysOn := by
  have ha := Block.alwaysOn_of_trg_mig hb
  rw [State.writeReg_of_alwaysOn ha, State.hook_of_shadow hx hb hsh]
  exact hs.storeReg hx ha p d
end

/-- R10, R52: a host's write of the HI register of a SHADOW pair of TRG or MIG whose LO half is staged stages both halves. -/
theorem State.writeAt_hi_staged {s : State} {p : Path} {off : Nat} {x lo : RegAt} (hx : regAt off = some x)
    (hp : x.desc.pair = .hi) (hb : x.block.block ∈ [Block.trg, .mig]) (hw : s.writable x = true) (h4 : 4 ≤ off)
    (hlo : regAt (x.ref.off - 4) = some lo) (hhi : regAt (lo.ref.off + 4) = some x) (hlb : lo.block.block = x.block.block)
    {v : Reg} (hv : SMap.get (s.path p).staging none lo.ref.off = some v) (hs : s.staged = []) (hps : p ≠ .steward)
    (hlosh : lo.desc.rw .shadow = 2 ^ 32 - 1) (hxsh : x.desc.rw .shadow = 2 ^ 16 - 1) (d : Nat) :
    (SMap.get (s.writeAt p x d).staged Staged.none lo.ref.off).hostVal = v ∧
      (SMap.get (s.writeAt p x d).staged Staged.none x.ref.off).hostVal = BitVec.ofNat 32 (d % 2 ^ 16) ∧
      SMap.get ((s.writeAt p x d).path p).staging none lo.ref.off = none := by
  have hlb' : lo.block.block ∈ [Block.trg, .mig] := hlb ▸ hb
  have hother : ∀ b ∈ [Block.trg, .mig], b ∉ [Block.time, .ni, .dbg] := by decide
  have hlosh0 : lo.desc.rw .shadow ≠ 0 := by rw [hlosh]; decide
  have hxsh0 : x.desc.rw .shadow ≠ 0 := by rw [hxsh]; decide
  have hne : lo.ref.off ≠ x.ref.off := by
    rw [RegAt.ref_off hlo, RegAt.ref_off hx]
    omega
  have hloc := RegAt.loc_ne_commit hx (blockTable_commit _ (RegAt.mem_table hx) hb) (by rw [hp]; decide)
  have h0 : (s.setPath p { s.path p with staging := SMap.set (s.path p).staging none lo.ref.off none }).StagedAlwaysOn :=
    State.stagedAlwaysOn_of_nil (by rw [State.setPath_staged, hs])
  rw [State.writeAt_hi (Block.alwaysOn_of_trg_mig hb) hw hloc hp hlo, State.writeHi_eq s p hlo (hother _ hlb') hhi hv,
    ((h0.writeReg hlo hlb' hlosh0 p _).writeReg hx hb hxsh0 p _).flushDisabled, State.writeReg_of_shadow hlo hlb' hlosh0,
    State.writeReg_of_shadow hx hb hxsh0]
  refine ⟨?_, ?_, ?_⟩
  · rw [State.get_staged_stage_other _ _ _ _ hne, State.setReg_staged, State.get_staged_stage_same, Staged.take_hostVal hps,
      hlosh, show BitVec.ofNat 32 (2 ^ 32 - 1) = BitVec.allOnes 32 from rfl, mergeBits_allOnes, BitVec.ofNat_toNat,
      BitVec.setWidth_eq]
  · rw [State.get_staged_stage_same, Staged.take_hostVal hps, State.setReg_staged,
      State.get_staged_stage_other _ _ _ _ hne.symm, State.setReg_staged, State.setPath_staged, hs, hxsh]
    refine (mergeBits_zero _ _).trans ?_
    rw [← BitVec.ofNat_and, Nat.and_two_pow_sub_one_eq_mod, Nat.mod_mod]
  · rw [State.path_stage, State.path_setReg, State.path_stage, State.path_setReg, State.path_setPath, SMap.get_set_same]

/-- Settles O23: each access reaches its register, and the reads and the HI write do there what R10, R15 and R247 say. -/
theorem pairsAndReadClear : Obligations.PairsAndReadClear := by
  unfold Obligations.PairsAndReadClear
  intro s p off x hx hal hlo hhi hmsix hpow hwait hnow hnowx htxq
  have hreach : s.Reaches p off.toNat x := ⟨hx, hal, hlo, hhi, hmsix, hpow, hwait⟩
  have ht : ¬ x.timeRead := by simp only [RegAt.timeRead, not_or]; exact ⟨hnow, hnowx, htxq⟩
  refine ⟨fun h hp hslice hh => ?_, fun hp hm hr => ?_, fun lo v d hp hb hw hlo' hhi' hlb hv hs hps hlosh hxsh => ?_,
    exec_nowRead p s⟩
  · rw [exec_loRead, hreach.barRead, State.readReg_lo ht s p hp hslice hh]
  · rw [exec_rcRead, hreach.barRead, State.readReg_rc ht s p hp hm hr]
  · obtain ⟨hlov, hhiv, hend⟩ := State.writeAt_hi_staged hx hp hb hw (by omega) hlo' hhi' hlb hv hs hps hlosh hxsh
      ((d.zeroExtend 64).toNat % 2 ^ 32)
    refine ⟨_, (exec_hiWrite ..).trans (congrArg _ (hreach.barWrite _)), hlov, hhiv.trans ?_, hend⟩
    have hd : (d.zeroExtend 64).toNat % 2 ^ 32 = d.toNat := by
      have := d.isLt
      rw [BitVec.zeroExtend, BitVec.toNat_setWidth]
      omega
    rw [hd, ← Nat.and_two_pow_sub_one_eq_mod, BitVec.ofNat_and, BitVec.ofNat_toNat, BitVec.setWidth_eq]
    rfl

end Sys2Proof.Machine
end

section
/-! SUPPORT. What a command of a word cell does, given what its operation answers: `CellTakes` from the cell's cycle (R61 to R67). -/
namespace Sys2Proof.Machine

/-! ## The frame of a cell's cycle -/

/-- Stores that agree still agree when both states take the same cells. -/
theorem State.SameStores.withCells {s t : State} (h : State.SameStores s t) (cs : SMap CellSt) :
    State.SameStores { s with cells := cs } { t with cells := cs } := { h with cells := rfl }

section
variable {s t : State} {o : CellOp}

/-- A state that differs from the cell's turn in that cell and in no store: cycles of the field have ended, and the cell took what it
holds now. -/
theorem State.Turned.of_cellTurn
    (hc : ∀ k ≠ cellKey o.field o.cluster o.cell, t.cell k = { s.cell k with sync := (t.cell k).sync })
    (hs : State.SameStores { s.cellTurn o with cells := t.cells } t) :
    State.Turned (s.setCell (cellKey o.field o.cluster o.cell) (t.cell (cellKey o.field o.cluster o.cell))) t o.field := by
  have hcome := State.comeTo_turned s o.field ((s.fld o.field).base + o.cycle)
  refine ⟨fun k => ?_, fun k hk => ?_, ?_⟩
  · by_cases he : k = cellKey o.field o.cluster o.cell
    · subst he
      rw [State.cell_setCell]
    · rw [State.cell_setCell_other _ _ _ he]
      exact hc k he
  · unfold State.seg at *
    rw [hs.segs]
    exact hcome.segs k hk
  · rw [hs.segs, hs.free]
    exact (hcome.rest.withCells t.cells).trans hs

variable {c : Instr} {op : Nat} {alu : AluIn → AluOut} {always : Bool} {i : FieldImage} {e : EntryFields}

/-- An entry that runs changes its own cell alone, whether its COND holds or not. -/
theorem State.runCell_turned (h : CellRuns s o op i e) :
    State.Turned (s.setCell (cellKey o.field o.cluster o.cell)
      ((s.runCell op o alu always).cell (cellKey o.field o.cluster o.cell))) (s.runCell op o alu always) o.field :=
  State.Turned.of_cellTurn (fun _ hk => State.runCell_other s op o alu always hk) (State.runCell_stores h)

/-- The flags a cell reads are its own. -/
theorem State.reads_fl (s : State) (o : CellOp) (i : FieldImage) (e : EntryFields) :
    (s.reads o i e).fl = (s.cell (cellKey o.field o.cluster o.cell)).now.fl := by
  show ((s.cellTurn o).cell (cellKey o.field o.cluster o.cell)).now.fl = _
  rw [State.cell_cellTurn]

/-! ## Registers after an operation -/

theorem CellRegs.get_set_same (r : CellRegs) {n : Nat} (h : n < 4) (v : Word) : (r.set n v).get n = v := by
  match n with | 0 | 1 | 2 | 3 => rfl

theorem CellRegs.get_set_other (r : CellRegs) {m n : Nat} (hm : m < 4) (hn : n < 4) (h : m ≠ n) (v : Word) :
    (r.set m v).get n = r.get n := by
  match m, n with
  | 0, 0 | 1, 1 | 2, 2 | 3, 3 => exact absurd rfl h
  | 0, 1 | 0, 2 | 0, 3 | 1, 0 | 1, 2 | 1, 3 | 2, 0 | 2, 1 | 2, 3 | 3, 0 | 3, 1 | 3, 2 => rfl

theorem CellRegs.get_latch_fl (r : CellRegs) (v : Word) (fl : Flags) (n : Nat) :
    CellRegs.get { r with latch := v, fl := fl } n = r.get n := by
  match n with | 0 | 1 | 2 | _ + 3 => rfl

/-- Table 3-3: the register DST names takes the value where it is fabric-clocked; every other holds. -/
theorem CellRegs.get_write (r : CellRegs) (cfg : CellCfg) (dst : Nat) (a : AluOut) {n : Nat} (hn : n < 4) :
    (r.write cfg dst a).get n = if a.toReg && dst == n && !cfg.wired n then a.value else r.get n := by
  unfold CellRegs.write
  rw [CellRegs.get_latch_fl]
  by_cases hd : dst = n
  · subst hd
    rw [decide_eq_true hn, beq_self_eq_true]
    split
    · exact CellRegs.get_set_same r hn _
    · rfl
  · rw [beq_false_of_ne hd, Bool.and_false, Bool.false_and, if_neg Bool.false_ne_true]
    split
    · next h =>
      rw [Bool.and_eq_true, Bool.and_eq_true, decide_eq_true_iff] at h
      obtain ⟨⟨-, hlt⟩, -⟩ := h
      exact CellRegs.get_set_other r hlt hn hd _
    · rfl

/-! ## What the command does -/

/-- A command that runs an operation which writes the output latch: the cell takes what the operation answers. -/
theorem CellTakes.of_runCell (hx : exec c s = .next (s.runCell op o alu always)) (h : CellRuns s o op i e)
    (hc : (s.reads o i e).cond = true ∨ always = true) (hl : (alu (s.reads o i e)).toLatch = true) :
    CellTakes s c o i e (alu (s.reads o i e)).toReg (alu (s.reads o i e)).value (alu (s.reads o i e)).fl
      (alu (s.reads o i e)).cout := by
  have hcell := State.runCell_spec (alu := alu) h hc
  refine ⟨_, hx, ?_, ?_, ?_, ?_, fun n hn => ?_, State.runCell_turned h⟩
  · rw [hcell]
    simp [CellRegs.write, hl]
  · rw [hcell]; rfl
  · rw [hcell]
  · rw [hcell]
  · rw [hcell]
    exact CellRegs.get_write _ _ _ _ hn

/-- R67: a command whose COND fails writes nothing. -/
theorem CellTakes.of_skip (hx : exec c s = .next (s.runCell op o alu false)) (h : CellRuns s o op i e)
    (hc : (s.reads o i e).cond = false) :
    CellTakes s c o i e false (s.cell (cellKey o.field o.cluster o.cell)).now.latch
      (s.cell (cellKey o.field o.cluster o.cell)).now.fl false := by
  have hcell := State.runCell_skip (alu := alu) h hc
  have hnow : ((s.cellTurn o).cell (cellKey o.field o.cluster o.cell)).now =
      (s.cell (cellKey o.field o.cluster o.cell)).now := by rw [State.cell_cellTurn]
  refine ⟨_, hx, ?_, ?_, ?_, ?_, fun n _ => ?_, State.runCell_turned h⟩
  · rw [hcell, ← hnow]
  · rw [hcell, ← hnow]
  · rw [hcell]
  · rw [hcell]
  · rw [hcell, Bool.false_and, Bool.false_and, if_neg Bool.false_ne_true]
    exact congrArg (CellRegs.get · n) hnow

/-- NOP writes nothing, whatever its COND. -/
theorem CellTakes.of_nop (hx : exec c s = .next (s.runCell op o aluNop false)) (h : CellRuns s o op i e) :
    CellTakes s c o i e false (s.cell (cellKey o.field o.cluster o.cell)).now.latch
      (s.cell (cellKey o.field o.cluster o.cell)).now.fl false := by
  cases hc : (s.reads o i e).cond with
  | false => exact CellTakes.of_skip hx h hc
  | true =>
    have hcell := State.runCell_spec (alu := aluNop) (always := false) h (.inl hc)
    refine ⟨_, hx, ?_, ?_, ?_, ?_, fun n hn => ?_, State.runCell_turned h⟩
    · rw [hcell]; rfl
    · rw [hcell]; exact State.reads_fl s o i e
    · rw [hcell]; rfl
    · rw [hcell]
    · rw [hcell]
      exact CellRegs.get_write _ _ _ _ hn
end

end Sys2Proof.Machine
end

section
/-! SUPPORT. `CellTakes` by the kind of an operation's result: a word with its flags, a count, an exact value (R68, R69). -/
namespace Sys2Proof.Machine

/-! ## Commands by the kind of their result -/

section
variable {s : State} {c : Instr} {op : Nat} {o : CellOp} {alu : AluIn → AluOut} {always : Bool} {i : FieldImage} {e : EntryFields}

/-- A command whose operation answers `out` of what the cell reads. -/
theorem CellTakes.of_out {out : AluOut} (hl : out.toLatch = true) (hc : (s.reads o i e).cond = true ∨ always = true)
    (hx : exec c s = .next (s.runCell op o alu always)) (ha : alu (s.reads o i e) = out) (h : CellRuns s o op i e) :
    CellTakes s c o i e out.toReg out.value out.fl out.cout := by
  subst ha
  exact CellTakes.of_runCell hx h hc hl

/-- N and Z are those of the result; C and V hold. -/
theorem CellTakes.of_nzOut {v : Word} {reg : Bool} (hc : (s.reads o i e).cond = true)
    (hx : exec c s = .next (s.runCell op o alu false)) (ha : alu (s.reads o i e) = nzOut (s.reads o i e) v reg)
    (h : CellRuns s o op i e) : CellTakes s c o i e reg v (wordFlags (s.reads o i e).fl v) false :=
  CellTakes.of_out rfl (.inl hc) hx ha h

/-- N and Z are those of the result, C is a bit shifted out, and holds at a count of 0. -/
theorem CellTakes.of_nzcOut {v : Word} {n : Nat} {b : Bool} (hc : (s.reads o i e).cond = true)
    (hx : exec c s = .next (s.runCell op o alu false))
    (ha : alu (s.reads o i e) = nzcOut (s.reads o i e) v (if n = 0 then none else some b)) (h : CellRuns s o op i e) :
    CellTakes s c o i e true v { (wordFlags (s.reads o i e).fl v) with c := if n = 0 then (s.reads o i e).fl.c else b } false := by
  have := CellTakes.of_out rfl (.inl hc) hx ha h
  by_cases hn : n = 0 <;> simp only [nzcOut, hn, if_true, if_false] at this ⊢ <;> exact this

/-- The flags hold. -/
theorem CellTakes.of_plainOut {v : Word} (hc : (s.reads o i e).cond = true ∨ always = true)
    (hx : exec c s = .next (s.runCell op o alu always)) (ha : alu (s.reads o i e) = plainOut (s.reads o i e) v)
    (h : CellRuns s o op i e) : CellTakes s c o i e true v (s.reads o i e).fl false :=
  CellTakes.of_out rfl hc hx ha h

/-- A count of at most 48: Z tells that it is 0. -/
theorem CellTakes.of_count {k : Nat} (hk : k ≤ 48) (hc : (s.reads o i e).cond = true)
    (hx : exec c s = .next (s.runCell op o alu false)) (ha : alu (s.reads o i e) = zOut (s.reads o i e) (BitVec.ofNat 48 k))
    (h : CellRuns s o op i e) :
    CellTakes s c o i e true (BitVec.ofNat 48 k) { (s.reads o i e).fl with z := decide (k = 0) } false := by
  have hz : (BitVec.ofNat 48 k == 0) = decide (k = 0) := by
    rw [Bool.eq_iff_iff, beq_iff_eq, decide_eq_true_iff, ← BitVec.toNat_inj, BitVec.toNat_ofNat,
      Nat.mod_eq_of_lt (Nat.lt_of_le_of_lt hk (by decide))]
    exact Iff.rfl
  have := CellTakes.of_out rfl (.inl hc) hx ha h
  rwa [zOut, hz] at this

/-! ## Results with an exact value (R68, R69) -/

/-- R69: the word written for an exact value `r` whose low bits are `raw`. -/
theorem intWord_eq (sat : Bool) (r : Int) :
    intWord sat r = if outOfRange r && sat then saturated48 r else BitVec.ofInt 48 r := by
  unfold intWord saturated48 outOfRange wordMin wordMax
  cases sat with
  | false => simp
  | true =>
    by_cases hlo : r < -(2 ^ 47)
    · have hm : max (-(2 ^ 47)) (min (2 ^ 47 - 1) r) = -(2 ^ 47) := by omega
      have hn : ¬ 0 < r := by omega
      simp only [hm, hlo, hn, if_true, if_false, decide_true, Bool.true_or, Bool.true_and]
      decide
    · by_cases hhi : 2 ^ 47 - 1 < r
      · have hm : max (-(2 ^ 47)) (min (2 ^ 47 - 1) r) = 2 ^ 47 - 1 := by omega
        have hn : 0 < r := by omega
        simp only [hm, hhi, hn, if_true, decide_true, Bool.or_true, Bool.true_and]
        decide
      · have hm : max (-(2 ^ 47)) (min (2 ^ 47 - 1) r) = r := by omega
        simp only [hm, hlo, hhi, if_true, decide_false, Bool.or_false, Bool.false_and]
        rfl

/-- A command whose result is an exact value. -/
theorem CellTakesInt.of_overflowOut {raw : Word} {r : Int} {carry : Option Bool} {cout sat reg : Bool}
    (hc : (s.reads o i e).cond = true) (hx : exec c s = .next (s.runCell op o alu false))
    (ha : alu (s.reads o i e) = overflowOut (s.reads o i e) raw r carry cout sat reg) (hr : raw = BitVec.ofInt 48 r)
    (h : CellRuns s o op i e) : CellTakesInt s c o i e reg sat r carry cout := by
  have := CellTakes.of_out rfl (.inl hc) hx ha h
  rw [overflowOut, hr] at this
  rw [CellTakesInt, intWord_eq]
  exact this

/-- Additions: the carry is C and COUT. -/
theorem CellTakesInt.of_addOut {a b : Word} {ci : Bool}
    (hc : (s.reads o i e).cond = true) (hx : exec c s = .next (s.runCell op o alu false))
    (ha : alu (s.reads o i e) = addOut (s.reads o i e) a b ci) (h : CellRuns s o op i e) :
    CellTakesInt s c o i e true (s.reads o i e).sat (a.toInt + b.toInt + bit ci)
      (some (decide (2 ^ 48 ≤ a.toNat + b.toNat + bit ci))) (decide (2 ^ 48 ≤ a.toNat + b.toNat + bit ci)) := by
  refine CellTakesInt.of_overflowOut hc hx ha ?_ h
  rw [BitVec.ofInt_add, BitVec.ofInt_add, BitVec.ofInt_toInt, BitVec.ofInt_toInt, BitVec.ofInt_natCast]

theorem bit_not (b : Bool) : bit (!b) = 1 - bit b := by cases b <;> rfl
theorem bit_not_int (b : Bool) : (bit (!b) : Int) = 1 - bit b := by cases b <;> rfl

/-- Subtractions and comparisons: the inverse of the borrow is C and COUT. -/
theorem CellTakesInt.of_subOut {a b : Word} {ci sat reg : Bool}
    (hc : (s.reads o i e).cond = true) (hx : exec c s = .next (s.runCell op o alu false))
    (ha : alu (s.reads o i e) = subOut (s.reads o i e) a b ci sat reg) (h : CellRuns s o op i e) :
    CellTakesInt s c o i e reg sat (a.toInt - b.toInt - (1 - bit ci))
      (some (decide (b.toNat + (1 - bit ci) ≤ a.toNat))) (decide (b.toNat + (1 - bit ci) ≤ a.toNat)) := by
  rw [← bit_not, ← bit_not_int]
  refine CellTakesInt.of_overflowOut hc hx ha ?_ h
  rw [Int.sub_eq_add_neg, Int.sub_eq_add_neg, BitVec.ofInt_add, BitVec.ofInt_add, BitVec.ofInt_neg, BitVec.ofInt_neg,
    BitVec.ofInt_toInt, BitVec.ofInt_toInt, BitVec.ofInt_natCast, ← BitVec.sub_eq_add_neg, ← BitVec.sub_eq_add_neg]

/-- Shifts to the left: the exact product. -/
theorem CellTakesInt.of_shlOut {n : Nat}
    (hc : (s.reads o i e).cond = true) (hx : exec c s = .next (s.runCell op o alu false))
    (ha : alu (s.reads o i e) = shlOut (s.reads o i e) n) (h : CellRuns s o op i e) :
    CellTakesInt s c o i e true (s.reads o i e).sat ((s.reads o i e).a.toInt * 2 ^ n)
      (if n = 0 then none else some (decide (n ≤ 48) && (s.reads o i e).a.getLsbD (48 - n))) false := by
  have hp : ((2 ^ n : Nat) : Int) = 2 ^ n := by push_cast; rfl
  rw [shlOut, hp] at ha
  refine CellTakesInt.of_overflowOut hc hx ha ?_ h
  rw [BitVec.ofInt_mul, BitVec.ofInt_toInt, ← hp, BitVec.ofInt_natCast, BitVec.shiftLeft_eq_mul_twoPow]
  exact congrArg (_ * ·) (BitVec.eq_of_toNat_eq (by rw [BitVec.toNat_twoPow, BitVec.toNat_ofNat]))
end

/-- R72: the size of a word is that of its signed value, with its bit 47 as the sign. -/
theorem ofInt_natAbs_toInt (a : Word) : (if a.getLsbD 47 then 0 - a else a) = BitVec.ofInt 48 a.toInt.natAbs := by
  have hm : a.getLsbD 47 = true ↔ a.toInt < 0 := by
    rw [show a.getLsbD 47 = a.msb from rfl, BitVec.msb_eq_toInt, decide_eq_true_iff]
  split
  · next h =>
    rw [Int.ofNat_natAbs_of_nonpos (Int.le_of_lt (hm.mp h)), BitVec.ofInt_neg, BitVec.ofInt_toInt]
    exact BitVec.zero_sub a
  · next h => rw [Int.natAbs_of_nonneg (Int.not_lt.mp (mt hm.mpr h)), BitVec.ofInt_toInt]

end Sys2Proof.Machine
end

section
/-! SUPPORT. Bits of fields, digits of words, counts of bits and lookups (R5, R73, R79). -/
namespace Sys2Proof.Machine

theorem bit_eq_toNat (b : Bool) : bit b = b.toNat := by cases b <;> rfl

/-- A sum of distinct powers of two has the bits it was made of. -/
theorem testBit_foldl_bits (f : Nat → Bool) (n : Nat) :
    (List.range n).foldl (fun acc k => acc + bit (f k) * 2 ^ k) 0 < 2 ^ n ∧
    ∀ j, ((List.range n).foldl (fun acc k => acc + bit (f k) * 2 ^ k) 0).testBit j = (decide (j < n) && f j) := by
  induction n with
  | zero => exact ⟨Nat.one_pos, fun j => by simp⟩
  | succ n ih =>
    obtain ⟨hlt, hbits⟩ := ih
    have hb : bit (f n) ≤ 1 := by cases f n <;> decide
    rw [List.range_succ, List.foldl_append, List.foldl_cons, List.foldl_nil, Nat.add_comm, Nat.mul_comm]
    refine ⟨?_, fun j => ?_⟩
    · have := Nat.mul_le_mul_left (2 ^ n) hb
      rw [Nat.pow_succ]
      omega
    · rw [Nat.testBit_two_pow_mul_add _ hlt, hbits]
      by_cases hj : j < n
      · simp [hj, Nat.lt_succ_of_lt hj]
      · by_cases he : j = n
        · subst he
          cases f j <;> simp [bit]
        · rw [if_neg hj, decide_eq_false (show ¬ j < n + 1 by omega), Bool.false_and]
          exact Nat.testBit_lt_two_pow (Nat.lt_of_le_of_lt hb (Nat.one_lt_two_pow (by omega)))

/-! ## Fields (R73) -/

theorem getLsbD_ofNat_bitsOf (a : Word) (n w : Nat) {k : Nat} (hk : k < 48) :
    (BitVec.ofNat 48 (bitsOf n w a.toNat)).getLsbD k = (decide (k < w) && a.getLsbD (n + k)) := by
  rw [BitVec.getLsbD_ofNat, decide_eq_true hk, Bool.true_and, testBit_bitsOf, BitVec.testBit_toNat, Nat.add_comm]

theorem getLsbD_ofNat_setBitsOf (a b : Word) (n w : Nat) {k : Nat} (hk : k < 48) :
    (BitVec.ofNat 48 (setBitsOf n w a.toNat b.toNat)).getLsbD k =
      if n ≤ k ∧ k < n + w then b.getLsbD (k - n) else a.getLsbD k := by
  rw [BitVec.getLsbD_ofNat, decide_eq_true hk, Bool.true_and, testBit_setBitsOf, BitVec.testBit_toNat, BitVec.testBit_toNat]

/-- The signed value of the low bits is that of the bit vector. -/
theorem signed_toNat {w : Nat} (hw : 0 < w) (v : BitVec w) : signed w v.toNat = v.toInt := by
  have hp : 2 ^ w = 2 * 2 ^ (w - 1) := by rw [← Nat.pow_succ', Nat.sub_one, Nat.succ_pred (by omega)]
  rw [signed, Nat.mod_eq_of_lt v.isLt, BitVec.toInt_eq_toNat_cond]
  by_cases h : 2 * v.toNat < 2 ^ w
  · rw [if_pos h, if_pos (by omega)]
  · rw [if_neg h, if_neg (by omega)]

theorem toInt_ofInt_signed_bitsOf (a : Word) (n : Nat) {w : Nat} (hw : 0 < w) (hle : w ≤ 48) :
    (BitVec.ofInt 48 (signed w (bitsOf n w a.toNat))).toInt = (a.extractLsb' n w).toInt := by
  have hb : bitsOf n w a.toNat = (a.extractLsb' n w).toNat := by
    rw [BitVec.extractLsb'_toNat, Nat.shiftRight_eq_div_pow, bitsOf]
  rw [hb, signed_toNat hw]
  exact BitVec.toInt_signExtend_of_le hle

/-- EXTS answers the signed value of the field, and 0 of an empty one. -/
theorem toInt_aluExts (a : Word) (n : Nat) {w : Nat} (hle : w ≤ 48) :
    (if w = 0 then 0 else BitVec.ofInt 48 (signed w (bitsOf n w a.toNat))).toInt =
      if w = 0 then 0 else (a.extractLsb' n w).toInt := by
  split
  · rfl
  · next h0 => exact toInt_ofInt_signed_bitsOf a n (Nat.pos_of_ne_zero h0) hle

/-- INS answers a with the field taken from b, and a itself where the field is empty. -/
theorem getLsbD_aluIns (a b : Word) (n w : Nat) {k : Nat} (hk : k < 48) :
    (if w = 0 then a else BitVec.ofNat 48 (setBitsOf n w a.toNat b.toNat)).getLsbD k =
      if n ≤ k ∧ k < n + w then b.getLsbD (k - n) else a.getLsbD k := by
  split
  · rw [if_neg (by omega)]
  · exact getLsbD_ofNat_setBitsOf a b n w hk

/-! ## Words as lists of digits (R5, R74) -/

/-- The digits of a sum of digits, each wrapped to its width. -/
theorem digits_foldr (w : Nat) (l : List Nat) :
    l.foldr (fun v acc => v % 2 ^ w + 2 ^ w * acc) 0 < 2 ^ (w * l.length) ∧
    ∀ j (hj : j < l.length), l.foldr (fun v acc => v % 2 ^ w + 2 ^ w * acc) 0 / 2 ^ (w * j) % 2 ^ w = l[j] % 2 ^ w := by
  induction l with
  | nil => exact ⟨by simp, fun _ hj => absurd hj (Nat.not_lt_zero _)⟩
  | cons v l ih =>
    obtain ⟨hlt, hdig⟩ := ih
    have hv : v % 2 ^ w < 2 ^ w := Nat.mod_lt _ (Nat.two_pow_pos _)
    rw [List.foldr_cons]
    refine ⟨?_, fun j hj => ?_⟩
    · have := Nat.mul_le_mul_left (2 ^ w) (Nat.succ_le_of_lt hlt)
      rw [Nat.mul_succ] at this
      rw [List.length_cons, Nat.mul_succ, Nat.pow_add, Nat.mul_comm (2 ^ (w * l.length))]
      omega
    · cases j with
      | zero => simp
      | succ j =>
        rw [Nat.mul_succ, Nat.add_comm (w * j), Nat.pow_add, ← Nat.div_div_eq_div_mul, Nat.add_mul_div_left _ _ (Nat.two_pow_pos _),
          Nat.div_eq_of_lt hv, Nat.zero_add]
        exact hdig j (Nat.lt_of_succ_lt_succ hj)

/-- A lane of joined lanes. -/
theorem bitsOf_joinLanes {w : Nat} {l : List Nat} (hl : w * l.length = 48) {j : Nat} (hj : j < l.length) :
    bitsOf (w * j) w (joinLanes w l).toNat = l[j] % 2 ^ w := by
  obtain ⟨hlt, hdig⟩ := digits_foldr w l
  rw [hl] at hlt
  rw [joinLanes, BitVec.toNat_ofNat, Nat.mod_eq_of_lt hlt, bitsOf]
  exact hdig j hj

/-- Six bytes make a word whose lanes of 8 bits they are. -/
theorem unpackWord_eq_joinLanes (bs : List Byte) : unpackWord bs = joinLanes 8 ((bs.take 6).map BitVec.toNat) := by
  rw [unpackWord, joinLanes, List.foldr_map]
  congr 2
  funext b acc
  exact congrArg (· + _) (Nat.mod_eq_of_lt b.isLt).symm

theorem bitsOf_bswap (a : Word) {j : Nat} (hj : j < 6) :
    bitsOf (8 * j) 8 (unpackWord (packWord a).reverse).toNat = bitsOf (8 * (5 - j)) 8 a.toNat := by
  have hlen : (packWord a).length = 6 := by simp [packWord]
  have htake : (packWord a).reverse.take 6 = (packWord a).reverse := List.take_of_length_le (by simp [hlen])
  rw [unpackWord_eq_joinLanes, htake, bitsOf_joinLanes (by simp [hlen]) (by simp [hlen, hj])]
  simp only [List.getElem_map, List.getElem_reverse, packWord, List.length_map, List.length_range, List.getElem_range,
    BitVec.toNat_ofNat, Nat.mod_mod, bitsOf]
  rw [Nat.sub_sub, Nat.add_comm 1 j, show 6 - (j + 1) = 5 - j by omega, Nat.pow_mul]

theorem getLsbD_bswap (a : Word) {j k : Nat} (hj : j < 6) (hk : k < 8) :
    (unpackWord (packWord a).reverse).getLsbD (8 * j + k) = a.getLsbD (8 * (5 - j) + k) := by
  have h := congrArg (Nat.testBit · k) (bitsOf_bswap a hj)
  simpa only [testBit_bitsOf, hk, decide_true, Bool.true_and, BitVec.testBit_toNat, Nat.add_comm k] using h

theorem getLsbD_reverse_word (a : Word) {k : Nat} (hk : k < 48) : a.reverse.getLsbD k = a.getLsbD (47 - k) := by
  rw [BitVec.getLsbD_reverse, BitVec.getMsbD, decide_eq_true hk, Bool.true_and]

/-! ## Counts of bits -/

theorem foldl_bit_eq_filter (p : Nat → Bool) (l : List Nat) (n : Nat) :
    l.foldl (fun n k => n + bit (p k)) n = n + (l.filter p).length := by
  induction l generalizing n with
  | nil => rfl
  | cons k l ih =>
    rw [List.foldl_cons, ih, List.filter_cons]
    cases p k
    · rfl
    · exact Nat.add_right_comm ..

theorem aluPopc_eq (x : AluIn) :
    aluPopc x = zOut x (BitVec.ofNat 48 ((List.range 48).filter fun j => x.a.getLsbD j).length) := by
  rw [aluPopc, foldl_bit_eq_filter, Nat.zero_add]

/-- The run of bits `b` from bit m − 1 down ends at the first other bit, or with the last. -/
theorem leading_spec (b : Bool) (a : Word) (m : Nat) :
    leading b a m ≤ m ∧ (∀ j < leading b a m, a.getLsbD (m - 1 - j) = b) ∧
      (leading b a m = m ∨ a.getLsbD (m - 1 - leading b a m) ≠ b) := by
  induction m with
  | zero => exact ⟨Nat.le_refl _, fun _ hj => absurd hj (Nat.not_lt_zero _), .inl rfl⟩
  | succ m ih =>
    obtain ⟨hle, hrun, hend⟩ := ih
    unfold leading
    split
    · next hb =>
      refine ⟨Nat.succ_le_succ hle, fun j hj => ?_, hend.imp (congrArg (· + 1)) fun h => ?_⟩
      · cases j with
        | zero => exact hb
        | succ j =>
          rw [show m + 1 - 1 - (j + 1) = m - 1 - j by omega]
          exact hrun j (Nat.lt_of_succ_lt_succ hj)
      · rwa [show m + 1 - 1 - (leading b a m + 1) = m - 1 - leading b a m by omega]
    · next hb => exact ⟨Nat.zero_le _, fun _ hj => absurd hj (Nat.not_lt_zero _), .inr hb⟩

/-- The run of zeros from bit 48 − m up ends at the first one, or with the last bit. -/
theorem trailing_spec (a : Word) {m : Nat} (hm : m ≤ 48) :
    trailing a m ≤ m ∧ (∀ j < trailing a m, a.getLsbD (48 - m + j) = false) ∧
      (trailing a m = m ∨ a.getLsbD (48 - m + trailing a m) = true) := by
  induction m with
  | zero => exact ⟨Nat.le_refl _, fun _ hj => absurd hj (Nat.not_lt_zero _), .inl rfl⟩
  | succ m ih =>
    obtain ⟨hle, hrun, hend⟩ := ih (by omega)
    have hpos : 47 - m = 48 - (m + 1) := by omega
    unfold trailing
    split
    · next hb => exact ⟨Nat.zero_le _, fun _ hj => absurd hj (Nat.not_lt_zero _), .inr (hpos ▸ hb)⟩
    · next hb =>
      refine ⟨Nat.succ_le_succ hle, fun j hj => ?_, hend.imp (congrArg (· + 1)) fun h => ?_⟩
      · cases j with
        | zero => exact hpos ▸ Bool.eq_false_iff.mpr hb
        | succ j =>
          rw [show 48 - (m + 1) + (j + 1) = 48 - m + j by omega]
          exact hrun j (Nat.lt_of_succ_lt_succ hj)
      · rwa [show 48 - (m + 1) + (trailing a m + 1) = 48 - m + trailing a m by omega]

/-! ## Lookups (R79, R80) -/

theorem getLsbD_lut12 (tables : List Word) (a : Word) {k : Nat} (hk : k < 12) :
    (lut12 tables a).getLsbD k = (tables.getD (k / 3) 0).getLsbD (16 * (k % 3) + bitsOf (4 * k) 4 a.toNat) := by
  rw [lut12, BitVec.getLsbD_ofNat, (testBit_foldl_bits _ 12).2, decide_eq_true hk, decide_eq_true (show k < 48 by omega),
    Bool.true_and, Bool.true_and]

theorem getLsbD_lut12_high (tables : List Word) (a : Word) {k : Nat} (hk : 12 ≤ k) : (lut12 tables a).getLsbD k = false := by
  rw [lut12, BitVec.getLsbD_ofNat, (testBit_foldl_bits _ 12).2, decide_eq_false (Nat.not_lt.mpr hk), Bool.false_and,
    Bool.and_false]

/-- Four bits of a word, as a number. -/
theorem bitsOf_four (a : Word) (n : Nat) :
    bitsOf n 4 a.toNat = bit (a.getLsbD n) + 2 * bit (a.getLsbD (n + 1)) + 4 * bit (a.getLsbD (n + 2)) +
      8 * bit (a.getLsbD (n + 3)) := by
  have hbit (k : Nat) : bit (a.getLsbD (n + k)) = a.toNat / 2 ^ n / 2 ^ k % 2 := by
    rw [← BitVec.testBit_toNat, Nat.add_comm, ← Nat.testBit_div_two_pow, ← Nat.toNat_testBit]
    exact bit_eq_toNat _
  have := hbit 0
  rw [Nat.add_zero] at this
  rw [this, hbit, hbit, hbit, bitsOf]
  omega

end Sys2Proof.Machine
end

section
/-! SUPPORT. Lanes (R74, R75): what each lane operation makes of one lane, and a command that runs one. -/
namespace Sys2Proof.Machine

theorem laneWidth_cases (m : Nat) : laneWidth m = 24 ∨ laneWidth m = 12 ∨ laneWidth m = 8 := by
  unfold laneWidth
  split <;> simp

theorem laneWidth_pos (m : Nat) : 0 < laneWidth m := by
  rcases laneWidth_cases m with h | h | h <;> rw [h] <;> decide

/-- A lane of the result of a lane operation is given by that lane of a and of b. -/
theorem bitsOf_laneOut (x : AluIn) (lf : LaneFlags) (g : Nat → Nat → Nat → Nat → LaneOut) {w j : Nat}
    (hw : w = laneWidth (x.shift.toNat / 64)) (hj : j < 48 / w) :
    bitsOf (w * j) w (laneOut x lf g).value.toNat =
      (g w (x.shift.toNat % 32) (bitsOf (w * j) w x.a.toNat) (bitsOf (w * j) w x.b.toNat)).value w (x.sat && lf.sat) % 2 ^ w := by
  have h48 : w * (48 / w) = 48 := by rcases hw ▸ laneWidth_cases (x.shift.toNat / 64) with h | h | h <;> rw [h]
  subst hw
  rw [laneOut, bitsOf_joinLanes (by simpa [lanesOf] using h48) (by simpa [lanesOf] using hj)]
  simp [lanesOf]

/-- R75: the value a lane takes for an exact one, before it is wrapped to its width: the nearer bound of its range where `sat`. -/
def laneFit (w : Nat) (sat : Bool) (r : Int) : Int := if sat then max (-(2 ^ (w - 1))) (min (2 ^ (w - 1) - 1) r) else r

theorem two_pow_eq_add_half {w : Nat} (hw : 0 < w) : (2 : Int) ^ w = 2 ^ (w - 1) + 2 ^ (w - 1) := by
  obtain ⟨v, rfl⟩ := Nat.exists_eq_add_one.mpr hw
  rw [Nat.add_sub_cancel, Int.pow_succ]
  omega

theorem signed_emod (w v : Nat) : signed w v % 2 ^ w = (v : Int) % 2 ^ w := by
  have hv : ((v % 2 ^ w : Nat) : Int) = v % 2 ^ w := by push_cast; rfl
  unfold signed
  dsimp only
  split
  · rw [hv, Int.emod_emod]
  · rw [hv]
    push_cast
    rw [Int.sub_emod_right, Int.emod_emod]

theorem signed_of_lt {w v : Nat} (h : v < 2 ^ w) : signed w v = if 2 ^ (w - 1) ≤ v then (v : Int) - 2 ^ w else v := by
  unfold signed
  rw [Nat.mod_eq_of_lt h]
  push_cast
  by_cases hv : 2 ^ (w - 1) ≤ v
  · rw [if_neg (Nat.not_lt.mpr hv), if_pos hv]
  · rw [if_pos (Nat.lt_of_not_le hv), if_neg hv]

theorem wrap_cast (w : Nat) (r : Int) : (wrap w r : Int) = r % 2 ^ w := by
  have hp : (0 : Int) < 2 ^ w := Int.pow_pos (by decide)
  unfold wrap
  push_cast
  rw [Int.toNat_of_nonneg (Int.emod_nonneg _ (Int.ne_of_gt hp))]

/-- A lane that can overflow: its value is the exact one, fitted and wrapped, when its raw value is the exact one wrapped. -/
theorem LaneOut.value_exact {w : Nat} (hw : 0 < w) (sat : Bool) {raw : Nat} {r : Int} {carry : Bool}
    (h : (raw : Int) % 2 ^ w = r % 2 ^ w) :
    ((LaneOut.value w sat ⟨raw, some r, carry⟩ : Nat) : Int) % 2 ^ w = laneFit w sat r % 2 ^ w := by
  have hp : (0 : Int) < 2 ^ (w - 1) := Int.pow_pos (by decide)
  have h2 := two_pow_eq_add_half hw
  unfold LaneOut.value laneFit LaneOut.overflow
  cases sat with
  | false => simpa using h
  | true =>
    by_cases hlo : r < -(2 ^ (w - 1))
    · have hm : max (-(2 ^ (w - 1))) (min (2 ^ (w - 1) - 1) r) = -(2 ^ (w - 1)) := by omega
      have hn : ¬ 0 < r := by omega
      simp only [hlo, hn, decide_true, Bool.true_or, Bool.and_true, if_true, if_false, hm]
      push_cast
      rw [← Int.add_emod_right (-(2 ^ (w - 1))), h2]
      congr 1
      omega
    · by_cases hhi : 2 ^ (w - 1) ≤ r
      · have hm : max (-(2 ^ (w - 1))) (min (2 ^ (w - 1) - 1) r) = 2 ^ (w - 1) - 1 := by omega
        have hn : 0 < r := by omega
        have hle : 1 ≤ 2 ^ (w - 1) := Nat.one_le_two_pow
        simp only [hhi, hn, decide_true, Bool.or_true, Bool.and_true, if_true, hm]
        push_cast [hle]
        rfl
      · have hm : max (-(2 ^ (w - 1))) (min (2 ^ (w - 1) - 1) r) = r := by omega
        simp only [hlo, hhi, decide_false, Bool.or_false, Bool.false_and, Bool.false_eq_true, if_false, if_true, hm]
        exact h

section
variable {w p q : Nat} (sat : Bool)

theorem laneAdd_value (hw : 0 < w) (n : Nat) :
    ((laneAdd w n p q).value w sat : Int) % 2 ^ w = laneFit w sat (signed w p + signed w q) % 2 ^ w := by
  refine LaneOut.value_exact hw sat ?_
  push_cast
  rw [Int.emod_emod, Int.add_emod, ← signed_emod w p, ← signed_emod w q, ← Int.add_emod]

theorem laneSub_value (hw : 0 < w) (hq : q < 2 ^ w) (n : Nat) :
    ((laneSub w n p q).value w sat : Int) % 2 ^ w = laneFit w sat (signed w p - signed w q) % 2 ^ w := by
  refine LaneOut.value_exact hw sat ?_
  rw [Int.natCast_emod, Int.ofNat_sub (by omega)]
  push_cast
  rw [Int.emod_emod, show (p : Int) + 2 ^ w - q = p - q + 2 ^ w by omega, Int.add_emod_right, Int.sub_emod, ← signed_emod w p,
    ← signed_emod w q, ← Int.sub_emod]

theorem laneAbs_value (hw : 0 < w) (n : Nat) :
    ((laneAbs w n p q).value w sat : Int) % 2 ^ w = laneFit w sat (signed w p).natAbs % 2 ^ w := by
  refine LaneOut.value_exact hw sat ?_
  rw [wrap_cast, Int.emod_emod]

theorem laneShl_value (hw : 0 < w) (n : Nat) :
    ((laneShl w n p q).value w sat : Int) % 2 ^ w = laneFit w sat (signed w p * 2 ^ n) % 2 ^ w := by
  have hp : ((2 ^ n : Nat) : Int) = 2 ^ n := by push_cast; rfl
  rw [laneShl, hp]
  refine LaneOut.value_exact hw sat ?_
  push_cast
  rw [Int.emod_emod, Int.mul_emod, ← signed_emod w p, ← Int.mul_emod]

theorem laneMins_value (n : Nat) :
    ((laneMins w n p q).value w sat : Int) % 2 ^ w = min (signed w p) (signed w q) % 2 ^ w := by
  show ((ite _ p q : Nat) : Int) % _ = _
  rw [Int.min_def]
  split <;> rw [signed_emod]

theorem laneMaxs_value (n : Nat) :
    ((laneMaxs w n p q).value w sat : Int) % 2 ^ w = max (signed w p) (signed w q) % 2 ^ w := by
  show ((ite _ p q : Nat) : Int) % _ = _
  rw [Int.max_comm, Int.max_def]
  split <;> rw [signed_emod]

/-- All ones are −1. -/
theorem ones_emod (w : Nat) : ((2 ^ w - 1 : Nat) : Int) % 2 ^ w = -1 % 2 ^ w := by
  rw [← Int.add_emod_right (-1), Int.ofNat_sub Nat.one_le_two_pow]
  push_cast
  rw [Int.add_comm, ← Int.sub_eq_add_neg]

/-- A comparison gives all ones or 0. -/
theorem laneMask_emod (w : Nat) (c : Prop) [Decidable c] :
    ((if c then 2 ^ w - 1 else 0 : Nat) : Int) % 2 ^ w = (if c then -1 else 0) % 2 ^ w := by
  split
  · exact ones_emod w
  · rfl

theorem laneMinu_value (n : Nat) : ((laneMinu w n p q).value w sat : Int) % 2 ^ w = min (p : Int) q % 2 ^ w := by
  rw [show min (p : Int) q = (min p q : Nat) by omega]
  rfl

theorem laneMaxu_value (n : Nat) : ((laneMaxu w n p q).value w sat : Int) % 2 ^ w = max (p : Int) q % 2 ^ w := by
  rw [show max (p : Int) q = (max p q : Nat) by omega]
  rfl

theorem laneShr_value (n : Nat) : ((laneShr w n p q).value w sat : Int) % 2 ^ w = (p : Int) / 2 ^ n % 2 ^ w := by
  show ((p / 2 ^ n : Nat) : Int) % _ = _
  push_cast
  rfl

theorem laneEq_value (n : Nat) :
    ((laneEq w n p q).value w sat : Int) % 2 ^ w = (if p = q then -1 else 0) % 2 ^ w := laneMask_emod ..

theorem laneGt_value (n : Nat) :
    ((laneGt w n p q).value w sat : Int) % 2 ^ w = (if signed w q < signed w p then -1 else 0) % 2 ^ w := laneMask_emod ..

theorem laneSar_value (n : Nat) : ((laneSar w n p q).value w sat : Int) % 2 ^ w = signed w p / 2 ^ n % 2 ^ w := by
  show (wrap w (signed w p / (2 ^ n : Nat)) : Int) % _ = _
  rw [wrap_cast, Int.emod_emod]
  push_cast
  rfl

theorem laneAvg_value (n : Nat) :
    ((laneAvg w n p q).value w sat : Int) % 2 ^ w = (signed w p + signed w q + 1) / 2 % 2 ^ w := by
  show (wrap w _ : Int) % _ = _
  rw [wrap_cast, Int.emod_emod]
end

/-- A lane operation: each lane of the result is that of an exact value of the same lanes of a and of b. -/
theorem CellTakes.of_laneOut {s : State} {c : Instr} {op : Nat} {o : CellOp} {alu : AluIn → AluOut} {i : FieldImage}
    {e : EntryFields} {keepN setC keepV sats : Bool} {g : Nat → Nat → Nat → Nat → LaneOut} {f : Nat → Nat → Int} {w : Nat}
    (hw : w = laneWidth ((s.reads o i e).shift.toNat / 64)) (hc : (s.reads o i e).cond = true)
    (hx : exec c s = .next (s.runCell op o alu false))
    (ha : alu (s.reads o i e) = laneOut (s.reads o i e) ⟨!keepN, setC, !keepV, sats⟩ g)
    (hf : ∀ p q, p < 2 ^ w → q < 2 ^ w →
      ((g w ((s.reads o i e).shift.toNat % 32) p q).value w ((s.reads o i e).sat && sats) : Int) % 2 ^ w = f p q % 2 ^ w)
    (h : CellRuns s o op i e) :
    ∃ (v : Word) (fl : Flags), CellTakes s c o i e true v fl false ∧ fl.z = (v == 0) ∧
      fl.n = (if keepN then (s.reads o i e).fl.n else v.getLsbD 47) ∧ (keepV = true → fl.v = (s.reads o i e).fl.v) ∧
      ∀ j < 48 / w, (bitsOf (w * j) w v.toNat : Int) =
        f (bitsOf (w * j) w (s.reads o i e).a.toNat) (bitsOf (w * j) w (s.reads o i e).b.toNat) % 2 ^ w := by
  refine ⟨_, _, CellTakes.of_out rfl (.inl hc) hx ha h, rfl, ?_, fun hv => ?_, fun j hj => ?_⟩
  · cases keepN <;> rfl
  · subst hv
    rfl
  · rw [bitsOf_laneOut _ _ _ hw hj]
    push_cast
    exact hf _ _ (bitsOf_lt ..) (bitsOf_lt ..)

end Sys2Proof.Machine
end

section
/-! SUPPORT. A slice whose COND fails (R109). -/
namespace Sys2Proof.Machine

/-- Stores that agree still agree when both states take the same slices. -/
theorem State.SameStores.withSlices {s t : State} (h : State.SameStores s t) (sl : SMap SliceSt) :
    State.SameStores { s with slices := sl } { t with slices := sl } := { h with slices := rfl }

/-- R109: a slice whose COND fails keeps its registers; its neighbours read what they were. -/
theorem State.runSlice_skip {s : State} {op : Nat} {o : SliceOp} {g : SliceIn → SliceOut} {i : FieldImage} {e : EntryFields}
    (h : SliceRuns s o op i e) (hc : s.sliceCond o i e = false) :
    (s.runSlice op o g).slice (sliceKey o.field o.slice) =
      { s.slice (sliceKey o.field o.slice) with
        prev := (s.slice (sliceKey o.field o.slice)).now, stamp := (s.fld o.field).stamp o.cycle, alt := o.alt } := by
  obtain ⟨hi, hr, he, -⟩ := h
  have hc' : condHolds e.cond ((s.sliceTurn o).sliceIn i o ((s.fld o.field).stamp o.cycle) e).regs.fl
      (decide (o.cycle < i.len (o.slice.val / 2))) = false := hc
  have hdone (t : State) (st : Nat × Nat) (r : SliceRegs) : (t.sliceDone o st r).slice (sliceKey o.field o.slice) =
      { t.slice (sliceKey o.field o.slice) with
        now := r, prev := (t.slice (sliceKey o.field o.slice)).now, stamp := st } := SMap.get_set_same _ _ _ _
  have hregs : ((s.sliceTurn o).sliceIn i o ((s.fld o.field).stamp o.cycle) e).regs =
      (s.slice (sliceKey o.field o.slice)).now := by
    show ((s.sliceTurn o).slice (sliceKey o.field o.slice)).now = _
    rw [State.slice_sliceTurn]
  unfold State.runSlice
  simp only [hi, hr, State.sliceCfg_sliceTurn, he, hc', Bool.not_true, Bool.not_false, Bool.or_true, Bool.false_eq_true,
    if_false, if_true]
  rw [hdone, hregs, State.slice_sliceTurn]

/-- An entry that runs changes its own slice alone, whether its COND holds or not. -/
theorem State.runSlice_turned {s : State} {op : Nat} {o : SliceOp} {g : SliceIn → SliceOut} {i : FieldImage} {e : EntryFields}
    (h : SliceRuns s o op i e) :
    State.Turned { s with slices := (s.runSlice op o g).slices } (s.runSlice op o g) o.field := by
  have hcome := State.comeTo_turned s o.field ((s.fld o.field).base + o.cycle)
  have hst := State.runSlice_stores (g := g) h
  refine ⟨fun k => ?_, fun k hk => ?_, ?_⟩
  · unfold State.cell at *
    rw [hst.cells]
    exact hcome.cells k
  · unfold State.seg at *
    rw [hst.segs]
    exact hcome.segs k hk
  · rw [hst.cells, hst.segs, hst.free]
    exact (hcome.rest.withSlices _).trans hst

/-- R109: a slice command whose COND fails writes nothing. -/
theorem SliceTakes.of_skip {s : State} {c : Instr} {op : Nat} {o : SliceOp} {g : SliceIn → SliceOut} {i : FieldImage}
    {e : EntryFields} (hx : exec c s = .next (s.runSlice op o g)) (hc : s.sliceCond o i e = false) (h : SliceRuns s o op i e) :
    SliceTakes s c o fun r => r = (s.slice (sliceKey o.field o.slice)).now := by
  have hs := State.runSlice_skip (g := g) h hc
  refine ⟨_, hx, ?_, ?_, fun j hj => State.runSlice_other s op o g hj, State.runSlice_turned h⟩ <;> rw [hs]

end Sys2Proof.Machine
end

section
/-! RESULT. O1: the sums, differences and comparisons of a cell (R68 to R72, R76). -/
namespace Sys2Proof.Machine

/-- Settles O1: each is an addition, a subtraction or, for ABS, a size with its exact value. -/
theorem cellSumsAndDifferences : Obligations.CellSumsAndDifferences := by
  unfold Obligations.CellSumsAndDifferences
  intro s o i e x hx
  exact ⟨.of_addOut hx rfl rfl, .of_addOut hx rfl rfl, .of_addOut hx rfl rfl, .of_subOut hx rfl rfl, .of_subOut hx rfl rfl,
    .of_subOut hx rfl rfl, .of_subOut hx rfl rfl, .of_overflowOut hx rfl rfl (ofInt_natAbs_toInt _), .of_addOut hx rfl rfl,
    .of_subOut hx rfl rfl, .of_subOut hx rfl rfl⟩

end Sys2Proof.Machine
end

section
/-! RESULT. O2: the bitwise operations of a cell (R71). -/
namespace Sys2Proof.Machine

/-- Settles O2: each answers its word with the word's flags. -/
theorem cellBitwiseOperations : Obligations.CellBitwiseOperations := by
  unfold Obligations.CellBitwiseOperations
  intro s o i e x hx
  refine ⟨?_, ?_, ?_, ?_, ?_, ?_, ?_, ?_, ?_, ?_⟩ <;> exact CellTakes.of_nzOut hx rfl rfl

end Sys2Proof.Machine
end

section
/-! RESULT. O3: the shifts and rotates of a cell (R72). -/
namespace Sys2Proof.Machine

/-- Settles O3: left shifts answer an exact product, right shifts a word and the last bit shifted out, rotates a word. -/
theorem cellShiftsAndRotates : Obligations.CellShiftsAndRotates := by
  unfold Obligations.CellShiftsAndRotates
  intro s o i e x hx
  exact ⟨.of_shlOut hx rfl rfl, .of_nzcOut hx rfl rfl, .of_nzcOut hx rfl rfl, .of_nzOut hx rfl rfl, .of_nzOut hx rfl rfl,
    .of_shlOut hx rfl rfl, .of_nzcOut hx rfl rfl, .of_nzcOut hx rfl rfl, .of_nzOut hx rfl rfl⟩

end Sys2Proof.Machine
end

section
/-! RESULT. O4: the fields, reversals and counts of a cell (R71, R73). -/
namespace Sys2Proof.Machine

/-- Settles O4: each answers its word with the word's flags, or a count of at most 48 with Z; what the word or the count is, the
lemmas on bits say. -/
theorem cellFieldsAndCounts : Obligations.CellFieldsAndCounts := by
  unfold Obligations.CellFieldsAndCounts
  intro s o i e x hx n iw w word count
  have hwle : w ≤ 48 := by
    show (if 48 ≤ n then 0 else min (if iw = 0 then 48 else iw) (48 - n)) ≤ 48
    split <;> omega
  have hword {c : Instr} {op : Nat} {alu : AluIn → AluOut} {P : Word → Prop} {v : Word}
      (he : exec c s = .next (s.runCell op o alu false)) (ha : alu x = nzOut x v true) (hv : P v) : word c op P :=
    fun h => ⟨v, hv, CellTakes.of_nzOut hx he ha h⟩
  have hcount {c : Instr} {op : Nat} {alu : AluIn → AluOut} {P : Nat → Prop} {k : Nat} (hk : k ≤ 48)
      (he : exec c s = .next (s.runCell op o alu false)) (ha : alu x = zOut x (BitVec.ofNat 48 k)) (hv : P k) : count c op P :=
    fun h => ⟨k, hv, hk, CellTakes.of_count hk hx he ha h⟩
  obtain ⟨hclz, hclz0, hclz1⟩ := leading_spec false x.a 48
  obtain ⟨hctz, hctz0, hctz1⟩ := trailing_spec x.a (Nat.le_refl 48)
  obtain ⟨hcls, hcls0, hcls1⟩ := leading_spec (x.a.getLsbD 47) x.a 47
  exact ⟨hword rfl rfl fun k hk => getLsbD_ofNat_bitsOf x.a n w hk, hword rfl rfl (toInt_aluExts x.a n hwle),
    hword rfl rfl fun k hk => getLsbD_aluIns x.a x.b n w hk,
    hword rfl rfl fun k hk => getLsbD_reverse_word x.a hk, hword rfl rfl fun j hj k hk => getLsbD_bswap x.a hj hk,
    hcount (Nat.le_trans (List.length_filter_le ..) (Nat.le_of_eq List.length_range)) rfl (aluPopc_eq x) rfl,
    hcount hclz rfl rfl ⟨hclz0, hclz1.imp id Bool.ne_false_iff.mp⟩,
    hcount hctz rfl rfl ⟨fun j hj => by simpa using hctz0 j hj, by simpa using hctz1⟩,
    hcount (by omega) rfl rfl ⟨hcls, hcls0, hcls1⟩⟩

end Sys2Proof.Machine
end

section
/-! RESULT. O5: the selections and moves of a cell (R67, R71). -/
namespace Sys2Proof.Machine

/-- Settles O5: the minima and maxima answer a word with its flags, the selections and moves a word alone, SEL under either COND. -/
theorem cellSelectionsAndMoves : Obligations.CellSelectionsAndMoves := by
  unfold Obligations.CellSelectionsAndMoves
  intro s o i e x imm low move old
  have hlow {c : Instr} {op : Nat} {alu : AluIn → AluOut} {v : Word} (he : exec c s = .next (s.runCell op o alu false))
      (ha : alu x = nzOut x v true) : low c op v := fun h hx => CellTakes.of_nzOut hx he ha h
  have hmove {c : Instr} {op : Nat} {alu : AluIn → AluOut} {v : Word} (he : exec c s = .next (s.runCell op o alu false))
      (ha : alu x = plainOut x v) : move c op v := fun h hx => CellTakes.of_plainOut (.inl hx) he ha h
  exact ⟨hlow rfl rfl, hlow rfl rfl, hlow rfl rfl, hlow rfl rfl, CellTakes.of_plainOut (.inr rfl) rfl rfl, hmove rfl rfl,
    hmove rfl rfl, hmove rfl rfl, hmove rfl rfl, hmove rfl rfl, hmove rfl rfl,
    fun h hx => CellTakes.of_runCell (alu := aluSetf) rfl h (.inl hx) rfl, CellTakes.of_nop rfl⟩

end Sys2Proof.Machine
end

section
/-! RESULT. O6: the lane operations of a cell (R74, R75). -/
namespace Sys2Proof.Machine

/-- Settles O6: every lane operation joins the lanes that its function gives of the lanes of a and of b. -/
theorem cellLaneOperations : Obligations.CellLaneOperations := by
  unfold Obligations.CellLaneOperations
  intro s o i e x hx w n lane sg fit each
  have hw : w = laneWidth (x.shift.toNat / 64) := rfl
  have hpos : 0 < w := laneWidth_pos (x.shift.toNat / 64)
  have hsg {p : Nat} (hp : p < 2 ^ w) : sg p = signed w p := (signed_of_lt hp).symm
  have hfit : fit = laneFit w (x.sat && true) := by rw [Bool.and_true]; rfl
  have run {c : Instr} {op : Nat} {alu : AluIn → AluOut} {keepN setC keepV sats : Bool} {g : Nat → Nat → Nat → Nat → LaneOut}
      {f : Nat → Nat → Int} (he : exec c s = .next (s.runCell op o alu false))
      (ha : alu x = laneOut x ⟨!keepN, setC, !keepV, sats⟩ g)
      (hf : ∀ p q, p < 2 ^ w → q < 2 ^ w → ((g w n p q).value w (x.sat && sats) : Int) % 2 ^ w = f p q % 2 ^ w) :
      each c op keepN keepV f := CellTakes.of_laneOut hw hx he ha hf
  -- `each` stays folded from here on, so that `run` is applied to its arguments as they stand.
  clear_value each
  exact ⟨
    run rfl rfl fun p q hp hq => by simpa only [hsg hp, hsg hq, hfit] using laneAdd_value _ hpos n,
    run rfl rfl fun p q hp hq => by simpa only [hsg hp, hsg hq, hfit] using laneSub_value _ hpos hq n,
    run rfl rfl fun p q hp _ => by simpa only [hsg hp, hfit] using laneAbs_value _ hpos n,
    run rfl rfl fun p q hp hq => by simpa only [hsg hp, hsg hq] using laneMins_value _ n,
    run rfl rfl fun p q hp hq => by simpa only [hsg hp, hsg hq] using laneMaxs_value _ n,
    run rfl rfl fun p q _ _ => laneMinu_value _ n,
    run rfl rfl fun p q _ _ => laneMaxu_value _ n,
    run rfl rfl fun p q _ _ => laneEq_value _ n,
    run rfl rfl fun p q hp hq => by simpa only [hsg hp, hsg hq] using laneGt_value _ n,
    run rfl rfl fun p q hp _ => by simpa only [hsg hp, hfit] using laneShl_value _ hpos n,
    run rfl rfl fun p q _ _ => laneShr_value _ n,
    run rfl rfl fun p q hp _ => by simpa only [hsg hp] using laneSar_value _ n,
    run rfl rfl fun p q hp hq => by simpa only [hsg hp, hsg hq] using laneAvg_value _ n⟩

end Sys2Proof.Machine
end

section
/-! RESULT. O7: the twelve lookups of a cell (R79, R80). -/
namespace Sys2Proof.Machine

/-- The tables that LUT12 reads are the entry words 4 to 7 of the cell's configuration. -/
theorem State.reads_tables (s : State) (o : CellOp) (i : FieldImage) (e : EntryFields) :
    (s.reads o i e).tables = [(o.cfg i).entry 4, (o.cfg i).entry 5, (o.cfg i).entry 6, (o.cfg i).entry 7] := by
  rw [← State.cellCfg_cellTurn s o i]
  rfl

/-- Settles O7: LUT12 answers the word of its lookups and leaves the flags. -/
theorem cellTwelveLookups : Obligations.CellTwelveLookups := by
  unfold Obligations.CellTwelveLookups
  intro s o i e x c hx h
  refine ⟨_, CellTakes.of_plainOut (alu := aluLut12) (.inl hx) rfl rfl h, fun k hk => ?_, fun k hk => getLsbD_lut12_high _ _ hk⟩
  have htab : x.tables.getD (k / 3) 0 = c.entry (4 + k / 3) := by
    rw [State.reads_tables]
    have hword : k / 3 < 4 := Nat.div_lt_of_lt_mul hk
    match k / 3, hword with
    | 0, _ | 1, _ | 2, _ | 3, _ => rfl
  rw [getLsbD_lut12 _ _ hk, bitsOf_four, htab]

end Sys2Proof.Machine
end

section
/-! RESULT. O8: a COND that fails (R67, R109). -/
namespace Sys2Proof.Machine

/-- Every operation of Table 3-5 but SEL is run as one that obeys COND. -/
theorem exec_cellCommands (s : State) (o : CellOp) :
    ∀ p ∈ cellCommands o, ∃ alu, exec p.2 s = .next (s.runCell p.1 o alu false) := by
  simp only [cellCommands, List.flatten_cons, List.flatten_nil, List.cons_append, List.nil_append, List.forall_mem_cons]
  repeat' refine And.intro ⟨_, rfl⟩ ?_
  exact fun _ h => nomatch h

/-- Every operation of Table 5-6 is run as one that obeys COND. -/
theorem exec_sliceCommands (s : State) (o : SliceOp) :
    ∀ p ∈ sliceCommands o, ∃ g, exec p.2 s = .next (s.runSlice p.1 o g) := by
  simp only [sliceCommands, List.flatten_cons, List.flatten_nil, List.cons_append, List.nil_append, List.forall_mem_cons]
  repeat' refine And.intro ⟨_, rfl⟩ ?_
  exact fun _ h => nomatch h

/-- Settles O8: every listed command runs its entry, and an entry whose COND fails writes nothing. -/
theorem conditionsHoldBack : Obligations.ConditionsHoldBack := by
  unfold Obligations.ConditionsHoldBack
  refine ⟨fun s o i e hc => ?_, fun s o i e hc => ?_⟩ <;> intro _ p hp h
  · obtain ⟨alu, hx⟩ := exec_cellCommands s o p hp
    exact CellTakes.of_skip hx h hc
  · obtain ⟨g, hx⟩ := exec_sliceCommands s o p hp
    exact SliceTakes.of_skip hx hc h

end Sys2Proof.Machine
end

section
/-! RESULT. O9: LUT-only cells and the wire operations (R81, R82). -/
namespace Sys2Proof.Machine

/-- R81: a LUT-only cell's cycle. -/
theorem State.runLutOnly_eq {s : State} {o : CellOp} {i : FieldImage} (hi : s.image o.field = some i)
    (hr : s.cellReady o = true) (hl : (o.cfg i).lutOnly = true) :
    let v := lut12 [(o.cfg i).entry 0, (o.cfg i).entry 1, (o.cfg i).entry 2, (o.cfg i).entry 3]
      ((s.cellTurn o).input i o.field o.place ((s.fld o.field).stamp o.cycle) (o.cfg i).selX)
    let r := (s.cell (cellKey o.field o.cluster o.cell)).now
    s.runLutOnly o = (s.cellTurn o).cellDone o ((s.fld o.field).stamp o.cycle)
      { r with a := if (o.cfg i).wired 0 then r.a else v, latch := v } false := by
  unfold State.runLutOnly
  simp only [hi, hr, State.cellCfg_cellTurn, hl]
  rw [if_neg (by simp), State.cell_cellTurn]

/-- R81: it changes its own cell alone. -/
theorem State.runLutOnly_turned {s : State} {o : CellOp} {i : FieldImage} (hi : s.image o.field = some i)
    (hr : s.cellReady o = true) (hl : (o.cfg i).lutOnly = true) :
    State.Turned (s.setCell (cellKey o.field o.cluster o.cell)
      ((s.runLutOnly o).cell (cellKey o.field o.cluster o.cell))) (s.runLutOnly o) o.field := by
  rw [State.runLutOnly_eq hi hr hl]
  refine State.Turned.of_cellTurn (fun j hj => ?_) (State.SameStores.cellDone ..)
  rw [State.cell_cellDone_other _ _ _ _ _ hj]
  exact State.cell_cellTurn_other s o hj

/-- R82: a wire operation updates the register of the edge. -/
theorem State.wireEdge_eq {s : State} {w : WireEdge} {i : FieldImage} {op : Nat} {g : Word → Word → Word → Word}
    (hi : s.image w.field = some i) (hc : s.edgesCount w.field = true)
    (hw : (w.alt.getD (i.cell (64 * w.cluster.val + w.cell.val))).wired w.reg = true)
    (hb : (w.alt.getD (i.cell (64 * w.cluster.val + w.cell.val))).wcBit w.reg ≤ 47)
    (ho : (w.alt.getD (i.cell (64 * w.cluster.val + w.cell.val))).wop w.reg = op) :
    let c := w.alt.getD (i.cell (64 * w.cluster.val + w.cell.val))
    let x := s.cell (cellKey w.field w.cluster w.cell)
    let sees (sel : BitVec 8) : Word := s.input i w.field (64 * w.cluster.val + w.cell.val) (s.fld w.field).here sel
    s.wireEdge w op g = s.setCell (cellKey w.field w.cluster w.cell)
      { x with now := x.now.set w.reg (g (sees c.selX) (sees c.selY) (x.now.get w.reg)), alt := w.alt } := by
  unfold State.wireEdge
  simp only [hi]
  rw [if_pos (by simp [hc, hw, hb, ho])]

/-- Settles O9: a LUT-only cell ends its cycle with its lookups, and a wire operation sets the one register of its edge. -/
theorem cellTablesAndWireClocks : Obligations.CellTablesAndWireClocks := by
  unfold Obligations.CellTablesAndWireClocks
  refine ⟨fun s o i hi hr => ?_, fun s w i hi hc => ?_⟩
  · intro c k x hl
    have heq := State.runLutOnly_eq hi hr hl
    have hnow : ((s.runLutOnly o).cell k).now = { (s.cell k).now with
        a := if c.wired 0 then (s.cell k).now.a else lut12 [c.entry 0, c.entry 1, c.entry 2, c.entry 3] x
        latch := lut12 [c.entry 0, c.entry 1, c.entry 2, c.entry 3] x } := by
      rw [heq, State.cell_cellDone]
    refine ⟨_, rfl, fun j hj => ?_, fun j hj => ?_, ?_, ?_, fun n hn hn0 => ?_, State.runLutOnly_turned hi hr hl⟩ <;> rw [hnow]
    · exact getLsbD_lut12 _ _ hj
    · exact getLsbD_lut12_high _ _ hj
    · match n with | 1 | 2 | 3 => rfl
  · intro n c k sees hw hb takes
    exact ⟨fun ho => congrArg _ (State.wireEdge_eq hi hc hw hb ho), fun ho => congrArg _ (State.wireEdge_eq hi hc hw hb ho),
      fun ho => congrArg _ (State.wireEdge_eq hi hc hw hb ho), fun ho => congrArg _ (State.wireEdge_eq hi hc hw hb ho)⟩

end Sys2Proof.Machine
end

section
/-! SUPPORT. Relays and segments as a cycle of their field ends (R93, R95, R99). -/
namespace Sys2Proof.Machine

/-! ## Loading all at once -/

theorem segKey_ne {f d e : Nat} (h : d ≠ e) : segKey f d ≠ segKey f e := by
  unfold segKey
  omega

/-- A segment of a field, after writes that all give it the value `x`: it reads as `x` if one names it or it did so before. -/
theorem State.seg_foldl_setSeg {f d : Nat} {x : SegSt} :
    ∀ (l : List (Nat × SegSt)) {s : State}, (∀ e ∈ l, e.1 = d → e.2 = x) → (s.seg (segKey f d) = x ∨ ∃ e ∈ l, e.1 = d) →
      (l.foldl (fun s e => s.setSeg (segKey f e.1) e.2) s).seg (segKey f d) = x
  | [], _, _, h => h.resolve_right fun ⟨_, he, _⟩ => nomatch he
  | e :: l, s, hx, h => by
    refine State.seg_foldl_setSeg l (fun e he => hx e (List.mem_cons_of_mem _ he)) ?_
    dsimp only
    by_cases hd : e.1 = d
    · left
      rw [hd, State.seg_setSeg, hx e List.mem_cons_self hd]
    · rw [State.seg_setSeg_other _ _ _ (segKey_ne (Ne.symm hd))]
      exact h.imp_right fun ⟨a, ha, had⟩ => ⟨a, (List.mem_cons.mp ha).resolve_left (by rintro rfl; exact hd had), had⟩

section
variable (s : State) (i : FieldImage) (f : Nat) (st : Nat × Nat) (load : Bool)

/-- R95, R99: a segment loads its next value, whatever else loads beside it. -/
theorem State.seg_loadNet_segment {n : Nat} (hn : n < 128) :
    (s.loadNet i f st load).seg (segKey f n) = s.segmentNext i f st load n := by
  refine State.seg_foldl_setSeg _ (fun e he hd => ?_)
    (.inr ⟨_, List.mem_append_left _ (List.mem_map_of_mem (List.mem_range.mpr hn)), rfl⟩)
  rcases List.mem_append.mp he with he | he <;> obtain ⟨m, -, rfl⟩ := List.mem_map.mp he <;> dsimp only at hd ⊢
  · rw [hd]
  · omega

/-- R93: so does a relay. -/
theorem State.seg_loadNet_relay {n : Nat} (hn : n < 1920) (hlen : n < i.relays.length) :
    (s.loadNet i f st load).seg (segKey f (128 + n)) = s.relayNext i f st load n := by
  refine State.seg_foldl_setSeg _ (fun e he hd => ?_)
    (.inr ⟨_, List.mem_append_right _ (List.mem_map_of_mem (List.mem_range.mpr (Nat.lt_min.mpr ⟨hn, hlen⟩))), rfl⟩)
  rcases List.mem_append.mp he with he | he <;> obtain ⟨m, hm, rfl⟩ := List.mem_map.mp he <;> dsimp only at hd ⊢
  · have hlt := List.mem_range.mp hm
    omega
  · rw [Nat.add_left_cancel hd]

end

/-! ## The end of one cycle -/

@[simp] theorem State.segs_syncReg (s : State) (c : CellCfg) (k r : Nat) : (s.syncReg c k r).segs = s.segs := by
  unfold State.syncReg
  dsimp only
  split
  · rfl
  · rw [State.setCell_segs]
    split <;> rfl

theorem State.segs_foldl {α : Type} {g : State → α → State} (hg : ∀ s a, (g s a).segs = s.segs) :
    ∀ (l : List α) (s : State), (l.foldl g s).segs = s.segs
  | [], _ => rfl
  | a :: l, s => (State.segs_foldl hg l (g s a)).trans (hg s a)

/-- The synchronisers of a field change no segment. -/
theorem State.segs_syncField (s : State) (i : FieldImage) (f : Nat) : (s.syncField i f).segs = s.segs := by
  unfold State.syncField State.forEach
  exact State.segs_foldl (fun s _ => State.segs_foldl (fun s r => State.segs_syncReg s _ _ r) _ s) _ s

/-- A clocked cycle leaves of relays and segments what they load. -/
theorem State.segs_endCycle {s : State} {f c : Nat} {i : FieldImage} (hi : s.image f = some i) (hc : s.clocked f c = true) :
    (s.endCycle f c).segs = (s.loadNet i f ((s.fld f).frames, c) (s.works f c)).segs := by
  unfold State.endCycle
  rw [hi]
  dsimp only
  rw [if_pos hc, (State.sampleProbes_stays _ _ _ (.refl _)).segs, State.segs_syncField]

/-- A field that comes to the next cycle has ended the one it stood in. -/
theorem State.segs_comeTo_next (s : State) (f : Nat) :
    (s.comeTo f ((s.fld f).cycle + 1)).segs = (s.endCycle f (s.fld f).cycle).segs := by
  have hone : (s.fld f).cycle + 1 - (s.fld f).cycle = 1 := Nat.add_sub_cancel_left _ _
  unfold State.comeTo
  simp only [hone, State.setFld_segs]
  rfl

theorem State.cycle_comeTo (s : State) (f c : Nat) : ((s.comeTo f c).fld f).cycle = max (s.fld f).cycle c := by
  unfold State.comeTo
  rw [State.fld_setFld]

/-- R93, R95, R99: what a clocked cycle leaves of the segments of its field. -/
theorem State.seg_comeTo_segment {s : State} {f : Nat} {i : FieldImage} (hi : s.image f = some i)
    (hc : s.clocked f (s.fld f).cycle = true) {n : Nat} (hn : n < 128) :
    (s.comeTo f ((s.fld f).cycle + 1)).seg (segKey f n) =
      s.segmentNext i f ((s.fld f).frames, (s.fld f).cycle) (s.works f (s.fld f).cycle) n := by
  rw [State.seg, State.segs_comeTo_next, State.segs_endCycle hi hc]
  exact State.seg_loadNet_segment s i f _ _ hn

/-- R93: and of its relays. -/
theorem State.seg_comeTo_relay {s : State} {f : Nat} {i : FieldImage} (hi : s.image f = some i)
    (hc : s.clocked f (s.fld f).cycle = true) {n : Nat} (hn : n < 1920) (hlen : n < i.relays.length) :
    (s.comeTo f ((s.fld f).cycle + 1)).seg (segKey f (128 + n)) =
      s.relayNext i f ((s.fld f).frames, (s.fld f).cycle) (s.works f (s.fld f).cycle) n := by
  rw [State.seg, State.segs_comeTo_next, State.segs_endCycle hi hc]
  exact State.seg_loadNet_relay s i f _ _ hn hlen

/-- R95, R96: a segment without a tap, and without a boundary switch that drives, is brought 0. -/
theorem State.segmentInput_undriven {s : State} {i : FieldImage} {f n : Nat} {st : Nat × Nat}
    (htap : ∀ d < 8, i.drivers.contains (10 * n + d) = false)
    (hsw : ∀ e ∈ trackEnds n, s.switchWord i f n e.1 e.2 st.2 = none) : s.segmentInput i f st n = 0 := by
  have hfind : ((List.range 8).find? fun d => i.drivers.contains (10 * n + d)) = none :=
    List.find?_eq_none.mpr fun d hd => by rw [htap d (List.mem_range.mp hd)]; decide
  unfold State.segmentInput
  rw [hfind]
  dsimp only
  rw [List.findSome?_eq_none_iff.mpr hsw]
  rfl

end Sys2Proof.Machine
end

section
/-! SUPPORT. What noting an event in the log and the Pass leaves as it was (R271, R424). -/
namespace Sys2Proof.Machine

/-! ## Registers -/

/-- A register below the channels', but PASS_STAT, reads through what events and the log change. -/
theorem State.EngineWork.get {s t : State} (h : State.EngineWork s t) {g : Fld} (hlt : g.reg.off < 0x100000)
    (hne : g.reg.off ≠ R.TIME_PASS_STAT.off) : t.get g = s.get g := by
  unfold State.get State.reg
  rw [h.regs _ hlt hne]

/-! ## Stores -/

theorem State.LogOnly.trans {s t u : State} (h : State.LogOnly s t) (g : State.LogOnly t u) : State.LogOnly s u := by
  have hh : t.host = { s.host with dropped := t.host.dropped } := h.host
  refine State.SameStores.trans (t := { t with log := u.log, host := { t.host with dropped := u.host.dropped } }) ?_ g
  exact { h with log := rfl, host := by dsimp only; rw [hh] }

/-- What changes none of the stores changes only the log. -/
theorem State.SameStores.logOnly {s t : State} (h : State.SameStores s t) : State.LogOnly s t :=
  { h with log := rfl, host := by dsimp only; rw [h.host] }

/-- Stores that agree still agree when both states have used as many open values. -/
theorem State.SameStores.withFree {s t : State} (h : State.SameStores s t) (n : Nat) :
    State.SameStores { s with free := n } { t with free := n } := { h with free := rfl }

theorem State.logOnly_logEntry (s : State) (code src arg detail : Nat) : State.LogOnly s (s.logEntry code src arg detail) := by
  unfold State.logEntry
  split <;> constructor <;> rfl

end Sys2Proof.Machine
end

section
/-! RESULT. O18: segments load what drives them, contention holds one of them, and CLR re-enables (R93 to R101). -/
namespace Sys2Proof.Machine

/-! ## A trip -/

/-- R99, R101: segment `k` is held; its register captures an open value at the end of a cycle that runs, and else reads 0. -/
def State.trip (s : State) (k : Nat) (runs again : Bool) : State :=
  let x := s.seg k
  if runs then s.freeWord.2.setSeg k { x with held := true, clrOnly := again, trip := some s.freeWord.1, autoAt := none }
  else s.setSeg k { x with held := true, clrOnly := again, value := 0, trip := none, autoAt := none }
/-- R101: a trip of segment `track` is counted and named in CONTSTAT. -/
def State.countTrip (s : State) (f track : Nat) : State :=
  (s.bump (F.FLD_CONTSTAT_TRIPS f) 1).put (F.FLD_CONTSTAT_LASTSEG f) track
/-- R100: the log entry of a segment that is left to CLR alone. -/
def State.logAgain (s : State) (f track : Nat) (again : Bool) : State :=
  if again then s.logOpen (fieldSrc f) (128 * f + track) else s
/-- R100, R101: a trip of segment `track` is counted and named, logged and posted. -/
def State.noteTrip (s : State) (f track : Nat) (again : Bool) : State :=
  (((s.logAgain f track again).countTrip f track).logEntry 0x082 (fieldSrc f) (128 * f + track) 0).post 0x082 (fieldSrc f) track

section
variable (s : State) (k : Nat) (runs again : Bool)

theorem State.seg_trip : (s.trip k runs again).seg k =
    { s.seg k with
      held := true, clrOnly := again, value := if runs then (s.seg k).value else 0
      trip := if runs then some (Config.freeWord s.free) else none, autoAt := none } := by
  unfold State.trip
  cases runs <;> exact State.seg_setSeg _ _ _
theorem State.seg_trip_other {j : Nat} (h : j ≠ k) : (s.trip k runs again).seg j = s.seg j := by
  unfold State.trip
  cases runs <;> exact State.seg_setSeg_other _ _ _ h
@[simp] theorem State.get_trip (g : Fld) : (s.trip k runs again).get g = s.get g := by
  unfold State.trip
  cases runs <;> rfl
/-- A trip changes its segment and the open values alone. -/
theorem State.sameStores_trip :
    State.SameStores { s with segs := (s.trip k runs again).segs, free := (s.trip k runs again).free } (s.trip k runs again) := by
  unfold State.trip
  cases runs <;> constructor <;> rfl

end

section
variable (s : State) (f track : Nat) (again : Bool)

theorem State.logOnly_logAgain : State.LogOnly { s with free := (s.logAgain f track again).free } (s.logAgain f track again) := by
  cases again with
  | false => exact (State.SameStores.refl s).logOnly
  | true =>
    have hlog := State.logOnly_logEntry s.freeNat.2 s.freeNat.1 (fieldSrc f) (128 * f + track) 0
    have hfree : (s.logAgain f track true).free = s.free + 1 := hlog.free
    rw [hfree]
    exact hlog

/-- Noting a trip changes registers, events, the log and, where the segment is left to CLR, the open values. -/
theorem State.logOnly_noteTrip : State.LogOnly { s with free := (s.noteTrip f track again).free } (s.noteTrip f track again) := by
  have hcount : State.LogOnly (s.logAgain f track again) ((s.logAgain f track again).countTrip f track) :=
    (State.put_stays _ _ _ (State.bump_stays _ _ _ (.refl _))).logOnly
  have hpost (u : State) : State.LogOnly u (u.post 0x082 (fieldSrc f) track) := (State.post_stays _ _ _ _ (.refl u)).logOnly
  have hrest := (hcount.trans (State.logOnly_logEntry _ 0x082 (fieldSrc f) (128 * f + track) 0)).trans (hpost _)
  have hfree : (s.noteTrip f track again).free = (s.logAgain f track again).free := hrest.free
  rw [hfree]
  exact (State.logOnly_logAgain s f track again).trans hrest

theorem State.segs_noteTrip : (s.noteTrip f track again).segs = s.segs := (State.logOnly_noteTrip s f track again).segs
@[simp] theorem State.seg_noteTrip (m : Nat) : (s.noteTrip f track again).seg m = s.seg m := by
  rw [State.seg, State.segs_noteTrip, State.seg]

end

section
variable (s : State) (f : FieldNo) (track : Nat) (again : Bool)

theorem off_contstat_lt : (R.FLD_CONTSTAT f).off < 0x100000 := by
  show 0xc0068 + 4096 * f.val < _
  omega
theorem off_contstat_ne_passStat : (R.FLD_CONTSTAT f).off ≠ R.TIME_PASS_STAT.off := by
  show 0xc0068 + 4096 * f.val ≠ 0x40410
  omega

/-- The log entry of a segment left to CLR changes no register of a field. -/
theorem State.get_logAgain {g : Fld} (hlt : g.reg.off < 0x100000) (hne : g.reg.off ≠ R.TIME_PASS_STAT.off) :
    (s.logAgain f track again).get g = s.get g := by
  cases again with
  | false => rfl
  | true => exact (State.logEntry_work _ _ _ _ _ (State.freeNat_workAt s (.refl s))).get hlt hne

/-- The log entry and the event of a trip change no register of a field; its count does. -/
theorem State.get_noteTrip {g : Fld} (hlt : g.reg.off < 0x100000) (hne : g.reg.off ≠ R.TIME_PASS_STAT.off) :
    (s.noteTrip f track again).get g = ((s.logAgain f track again).countTrip f track).get g :=
  State.EngineWork.get (State.post_work _ _ _ _ (State.logEntry_work _ _ _ _ _ (.refl _))) hlt hne

theorem State.lastSeg_noteTrip (h : track < 128) : (s.noteTrip f track again).get (F.FLD_CONTSTAT_LASTSEG f) = track := by
  have hfits : (F.FLD_CONTSTAT_LASTSEG f).lo + (F.FLD_CONTSTAT_LASTSEG f).w ≤ 32 := Nat.le_of_ble_eq_true rfl
  rw [State.get_noteTrip _ _ _ _ (off_contstat_lt f) (off_contstat_ne_passStat f), State.countTrip, State.get_put _ _ hfits]
  exact Nat.mod_eq_of_lt h

theorem State.trips_noteTrip : (s.noteTrip f track again).get (F.FLD_CONTSTAT_TRIPS f) =
    min (s.get (F.FLD_CONTSTAT_TRIPS f) + 1) (2 ^ (F.FLD_CONTSTAT_TRIPS f).w - 1) := by
  have hfits : (F.FLD_CONTSTAT_TRIPS f).lo + (F.FLD_CONTSTAT_TRIPS f).w ≤ 32 := Nat.le_of_ble_eq_true rfl
  have happart : (F.FLD_CONTSTAT_LASTSEG f).lo + (F.FLD_CONTSTAT_LASTSEG f).w ≤ (F.FLD_CONTSTAT_TRIPS f).lo :=
    Nat.le_of_ble_eq_true rfl
  have hlt := off_contstat_lt f
  have hne := off_contstat_ne_passStat f
  rw [State.get_noteTrip _ _ _ _ hlt hne, State.countTrip, 
    State.get_put_disjoint (f := F.FLD_CONTSTAT_LASTSEG f) (g := F.FLD_CONTSTAT_TRIPS f) _ _ rfl (.inl happart) hfits,
    State.get_bump _ _ hfits, State.get_logAgain _ _ _ _ hlt hne]

theorem State.isProtected_noteTrip : (s.noteTrip f track again).isProtected f = s.isProtected f := by
  have hlt : (R.FLD_PROT f).off < 0x100000 := by
    show 0xc0090 + 4096 * f.val < _
    omega
  have hpass : (R.FLD_PROT f).off ≠ R.TIME_PASS_STAT.off := by
    show 0xc0090 + 4096 * f.val ≠ 0x40410
    omega
  have hcont : (R.FLD_PROT f).off ≠ (R.FLD_CONTSTAT f).off := by
    show 0xc0090 + 4096 * f.val ≠ 0xc0068 + 4096 * f.val
    omega
  unfold State.isProtected State.is
  rw [State.get_noteTrip _ _ _ _ hlt hpass, State.countTrip, State.get_put_other _ _ hcont, State.get_bump_other _ _ hcont,
    State.get_logAgain _ _ _ _ hlt hpass]

end

/-! ## The commands -/

/-- R157: a field that is not protected has no frame to repeat. -/
theorem State.detectBeforeDone_unprotected {s : State} {f : Nat} (h : s.isProtected f = false) (src : ReplaySource) (t : Nat) :
    s.detectBeforeDone f src t = s := by
  simp [State.detectBeforeDone, State.detect, h]

/-- The time of a tick does not pass as a field comes to a cycle. -/
theorem State.time_comeTo_ite (s : State) (b : Bool) (f c : Nat) : (if b then s.comeTo f c else s).time = s.time := by
  cases b with
  | false => rfl
  | true => exact (State.comeTo_turned s f c).rest.time

/-- R99 to R101: contention on a segment of an unprotected field that is not held. -/
theorem State.contention_eq {s : State} {f : FieldNo} {track cyc : Nat} (hheld : (s.seg (segKey f track)).held = false)
    (hprot : (if s.executes f (cyc - (s.fld f).base) then s.comeTo f cyc else s).isProtected f = false) :
    let k := segKey f track
    let runs := s.executes f (cyc - (s.fld f).base)
    let u := if runs then s.comeTo f cyc else s
    let again := (u.seg k).autoAt.any fun a => decide ((s.time.tick + 2 ^ 48 - a) % 2 ^ 48 ≤ 16)
    s.contention f track cyc = (u.trip k runs again).noteTrip f track again := by
  intro k runs u again
  have hnot : ((u.trip k runs again).noteTrip f track again).isProtected f = false := by
    rw [State.isProtected_noteTrip]
    unfold State.isProtected State.is
    rw [State.get_trip]
    exact hprot
  rw [← State.detectBeforeDone_unprotected hnot .contention cyc]
  unfold State.contention
  extract_lets x again'
  have hagain : again' = again := by
    have htime : u.time = s.time := State.time_comeTo_ite s runs f cyc
    simp only [again', again, x, htime]
    -- by rewriting, since a check of the two sides by `rfl` would unfold the arithmetic on 2 ^ 48
    cases (u.seg k).autoAt with
    | none => rfl
    | some a => rw [Option.any_some]
  clear_value again'
  subst hagain
  exact if_neg (by simp [k, hheld])

/-- Settles O18: a clocked cycle loads every relay and segment; a trip holds its segment and is noted; CLR is its definition. -/
theorem segmentContention : Obligations.SegmentContention := by
  unfold Obligations.SegmentContention
  refine ⟨fun s f i => ?_, fun s f track cyc => ?_⟩
  · refine ⟨State.comeTo_turned _ _ _, (State.cycle_comeTo _ _ _).trans (Nat.max_eq_right (Nat.le_succ _)),
      fun hi hc => ⟨fun n hn => ?_, fun n e hn he hw => ?_⟩⟩
    · intro x y
      have hy : y = s.segmentNext i f _ _ n := State.seg_comeTo_segment hi hc hn
      rw [hy]
      refine ⟨rfl, rfl, rfl, rfl, fun htap hsw hfree hw => ?_⟩
      have hx : (s.seg (segKey f n)).held = false := hfree
      simp only [State.segmentNext, hx, hw, if_true, Bool.false_eq_true, if_false]
      exact State.segmentInput_undriven htap hsw
    · rw [State.seg_comeTo_relay hi hc hn (List.getElem?_eq_some_iff.mp he).1]
      simp only [State.relayNext, he, hw, if_true]
  · intro k runs u
    refine ⟨fun hprot hheld => ?_, rfl⟩
    let again := (u.seg k).autoAt.any fun a => decide ((s.time.tick + 2 ^ 48 - a) % 2 ^ 48 ≤ 16)
    refine ⟨(u.trip k runs again).noteTrip f track again, congrArg Host.Outcome.next (State.contention_eq hheld hprot), ?_⟩
    rw [State.seg_noteTrip, State.seg_trip]
    refine ⟨rfl, rfl, rfl, rfl, rfl, fun m hm => (State.seg_noteTrip _ _ _ _ m).trans (State.seg_trip_other _ _ _ _ hm),
      State.lastSeg_noteTrip _ _ _ _ track.isLt, (State.trips_noteTrip _ _ _ _).trans (by rw [State.get_trip]), ?_⟩
    rw [State.segs_noteTrip]
    exact ((State.sameStores_trip u k runs again).withFree _).logOnly.trans (State.logOnly_noteTrip _ f track again)

end Sys2Proof.Machine
end

section
/-! SUPPORT. Values taken into a number of bits (R116, R117), and what an operation of a slice that writes
accumulators answers (R114 to R121). -/
namespace Sys2Proof.Machine

/-! ## The command -/

/-- R110: a slice whose COND holds takes what its operation answers. -/
theorem SliceTakes.of_runSlice {s : State} {c : Instr} {op : Nat} {o : SliceOp} {g : SliceIn → SliceOut} {i : FieldImage}
    {e : EntryFields} {P : SliceRegs → Prop} (hx : exec c s = .next (s.runSlice op o g)) (hc : s.sliceCond o i e = true)
    (hP : P (g (s.sliceReads o i e)).regs) (h : SliceRuns s o op i e) : SliceTakes s c o P := by
  have hs := State.runSlice_spec (g := g) h hc
  refine ⟨_, hx, ?_, ?_, fun j hj => State.runSlice_other s op o g hj, State.runSlice_turned h⟩ <;> rw [hs]
  exact hP

/-! ## Values of a number of bits -/

/-- The signed value of the low bits is the one congruent to the number. -/
theorem signed_eq_bmod {w : Nat} (hw : 0 < w) (v : Nat) : signed w v = (v : Int).bmod (2 ^ w) := by
  have hmod : signed w v = signed w (BitVec.ofNat w v).toNat := by rw [BitVec.toNat_ofNat, signed, signed, Nat.mod_mod]
  rw [hmod, signed_toNat hw]
  exact BitVec.toInt_ofNat v

theorem leaves_eq_outside (w : Nat) : leaves w = outside w := by
  funext r
  rw [leaves, outside, decide_eq_decide.mpr (show 2 ^ (w - 1) - 1 < r ↔ 2 ^ (w - 1) ≤ r by omega)]

theorem fitInt_eq_bmod_laneFit {w : Nat} (hw : 0 < w) (sat : Bool) (r : Int) : fitInt w sat r = (laneFit w sat r).bmod (2 ^ w) := by
  cases sat with
  | false => rfl
  | true =>
    have hp : (0 : Int) < 2 ^ (w - 1) := Int.pow_pos (by decide)
    have h2 := two_pow_eq_add_half hw
    have hlo : -(2 ^ w) ≤ fitInt w true r * 2 := by
      rw [fitInt, if_pos rfl]
      omega
    have hhi : fitInt w true r * 2 < 2 ^ w := by
      rw [fitInt, if_pos rfl]
      omega
    exact (Int.bmod_eq_of_le_mul_two (by exact_mod_cast hlo) (by exact_mod_cast hhi)).symm

/-- R116, R117: the bits taken for an exact value hold the value that fits. -/
theorem signed_clampTo {w : Nat} (hw : 0 < w) (sat : Bool) (r : Int) : signed w (clampTo w sat r) = fitInt w sat r := by
  have hmod : (clampTo w sat r : Int) % 2 ^ w = laneFit w sat r % 2 ^ w :=
    LaneOut.value_exact (raw := wrap w r) (carry := false) hw sat (by rw [wrap_cast, Int.emod_emod])
  have hp : ((2 ^ w : Nat) : Int) = 2 ^ w := by push_cast; rfl
  rw [signed_eq_bmod hw, fitInt_eq_bmod_laneFit hw, ← Int.emod_bmod, hp, hmod, ← hp, Int.emod_bmod]

theorem signed_mod (w v : Nat) : signed w (v % 2 ^ w) = signed w v := by rw [signed, signed, Nat.mod_mod]

/-- A field of a word, as a signed number. -/
theorem signed_bitsOf_toNat {n lo w : Nat} (hw : 0 < w) (v : BitVec n) :
    signed w (bitsOf lo w v.toNat) = (v.extractLsb' lo w).toInt := by
  rw [← signed_toNat hw, BitVec.extractLsb'_toNat, Nat.shiftRight_eq_div_pow, bitsOf]

/-! ## Lanes of the accumulators (R115) -/

theorem MulMode.accWidth_eq (m : MulMode) : (if m = .quad then 56 else 112) = m.accWidth := by cases m <;> rfl
theorem MulMode.accWidth_pos (m : MulMode) : 0 < m.accWidth := by cases m <;> decide
theorem MulMode.outWidth_pos (m : MulMode) : 0 < m.outWidth := by cases m <;> decide
theorem MulMode.length_lanes (m : MulMode) (code : Nat) : (m.lanes code).length = 48 / m.outWidth := by cases m <;> rfl
theorem MulMode.outWidth_mul_lanes (m : MulMode) : m.outWidth * (48 / m.outWidth) = 48 := by cases m <;> rfl

/-- Lanes of `w` bits that share no bit of an accumulator. -/
def LanesApart (w : Nat) (p q : Nat × Nat) : Prop := (p.1 = 0 ↔ q.1 = 0) → p.2 + w ≤ q.2 ∨ q.2 + w ≤ p.2

theorem MulMode.lanes_fit (m : MulMode) (code : Nat) : ∀ p ∈ m.lanes code, p.2 + m.accWidth ≤ 112 := by
  cases m <;> simp [MulMode.lanes, MulMode.accWidth]
theorem MulMode.lanes_apart (m : MulMode) (code : Nat) : (m.lanes code).Pairwise (LanesApart m.accWidth) := by
  cases m <;> simp [MulMode.lanes, MulMode.accWidth, LanesApart]

section
variable (r : SliceRegs) (w : Nat) (p q : Nat × Nat) (v : Nat)

theorem SliceRegs.acc_setLane (k : Nat) : (r.setLane w p v).acc k =
    if (p.1 = 0 ↔ k = 0) then BitVec.ofNat 112 (setBitsOf p.2 w (r.acc p.1).toNat v) else r.acc k := by
  unfold SliceRegs.setLane SliceRegs.setAcc SliceRegs.acc
  by_cases hp : p.1 = 0 <;> by_cases hk : k = 0 <;> simp [hp, hk]

theorem SliceRegs.acc_congr {j k : Nat} (h : j = 0 ↔ k = 0) : r.acc j = r.acc k := by
  rw [SliceRegs.acc, SliceRegs.acc, ite_cond_congr (propext h)]

variable {w p q}

theorem SliceRegs.lane_setLane (h : p.2 + w ≤ 112) : (r.setLane w p v).lane w p = signed w v := by
  rw [SliceRegs.lane, SliceRegs.acc_setLane, if_pos Iff.rfl, BitVec.toNat_ofNat, bitsOf_mod _ h, bitsOf_setBitsOf_same, signed_mod]

theorem SliceRegs.lane_setLane_other (hq : q.2 + w ≤ 112) (h : LanesApart w p q) : (r.setLane w p v).lane w q = r.lane w q := by
  rw [SliceRegs.lane, SliceRegs.acc_setLane]
  split
  · next hpq =>
    rw [BitVec.toNat_ofNat, bitsOf_mod _ hq, bitsOf_setBitsOf_other _ _ (h hpq), r.acc_congr hpq]
    rfl
  · rfl

/-- A lane is part of an accumulator alone. -/
theorem SliceRegs.setLane_words : { r.setLane w p v with acc0 := 0, acc1 := 0 } = { r with acc0 := 0, acc1 := 0 } := by
  unfold SliceRegs.setLane SliceRegs.setAcc
  split <;> rfl
end

/-- R115, R116: lanes that take exact values, one after another. -/
def SliceRegs.takeLanes (w : Nat) (sat : Bool) (r : SliceRegs) (ls : List (Nat × Nat)) (exact : List Int) : SliceRegs :=
  (ls.zip exact).foldl (fun r le => r.setLane w le.1 (clampTo w sat le.2)) r

theorem accumulate_eq_takeLanes (x : SliceIn) (exact : List Int) :
    (accumulate x exact).1 = x.regs.takeLanes x.e.mode.accWidth x.e.sat (x.e.mode.lanes x.e.dst.val) exact := rfl

section
variable {w : Nat} {sat : Bool}

/-- What none of the lanes is part of stays. -/
theorem SliceRegs.takeLanes_keeps {β : Type} (φ : SliceRegs → β) {ls : List (Nat × Nat)}
    (h : ∀ p ∈ ls, ∀ r v, φ (SliceRegs.setLane r w p v) = φ r) (r : SliceRegs) (exact : List Int) :
    φ (r.takeLanes w sat ls exact) = φ r := by
  induction ls generalizing r exact with
  | nil => rfl
  | cons p ls ih =>
    cases exact with
    | nil => rfl
    | cons y ys => exact (ih (fun q hq => h q (List.mem_cons_of_mem _ hq)) _ ys).trans (h p List.mem_cons_self _ _)

/-- R115: lanes never carry into one another, so each holds its own value in the end. -/
theorem SliceRegs.lane_takeLanes (hw : 0 < w) {ls : List (Nat × Nat)} (hfit : ∀ p ∈ ls, p.2 + w ≤ 112)
    (hap : ls.Pairwise (LanesApart w)) (r : SliceRegs) (exact : List Int) {j : Nat} {p : Nat × Nat} {y : Int}
    (hp : ls[j]? = some p) (hy : exact[j]? = some y) : (r.takeLanes w sat ls exact).lane w p = fitInt w sat y := by
  induction ls generalizing r exact j with
  | nil => cases hp
  | cons l ls ih =>
    obtain ⟨hl, hls⟩ := List.pairwise_cons.mp hap
    have hfits : ∀ p ∈ ls, p.2 + w ≤ 112 := fun p hp => hfit p (List.mem_cons_of_mem _ hp)
    cases exact with
    | nil => cases hy
    | cons z zs =>
      cases j with
      | zero =>
        obtain rfl : l = p := Option.some.inj hp
        obtain rfl : z = y := Option.some.inj hy
        have hkeep := SliceRegs.takeLanes_keeps (sat := sat) (SliceRegs.lane · w l) (ls := ls)
          (fun q hq r v => r.lane_setLane_other v (hfit l List.mem_cons_self) fun h => (hl q hq h.symm).symm)
        calc ((r.setLane w l (clampTo w sat z)).takeLanes w sat ls zs).lane w l
          _ = (r.setLane w l (clampTo w sat z)).lane w l := hkeep _ zs
          _ = signed w (clampTo w sat z) := r.lane_setLane _ (hfit l List.mem_cons_self)
          _ = fitInt w sat z := signed_clampTo hw sat z
      | succ j => exact ih hfits hls _ zs hp hy
end

section
variable (x : SliceIn) (exact : List Int)

/-- R115: an accumulation writes nothing but the accumulators. -/
theorem accumulate_words : ∃ u v, (accumulate x exact).1 = { x.regs with acc0 := u, acc1 := v } :=
  ⟨(accumulate x exact).1.acc0, (accumulate x exact).1.acc1,
    congrArg (fun q : SliceRegs => { q with acc0 := (accumulate x exact).1.acc0, acc1 := (accumulate x exact).1.acc1 })
      (SliceRegs.takeLanes_keeps (fun r => { r with acc0 := 0, acc1 := 0 }) (fun _ _ r v => r.setLane_words v) x.regs exact)⟩

/-- R115: in FULL48 the accumulator that DST does not name holds. -/
theorem acc_accumulate_full48 (h : x.e.mode = .full48) :
    (accumulate x exact).1.acc (5 - x.e.dst.val) = x.regs.acc (5 - x.e.dst.val) := by
  rw [accumulate_eq_takeLanes]
  refine SliceRegs.takeLanes_keeps (SliceRegs.acc · (5 - x.e.dst.val)) (fun p hp r v => ?_) x.regs exact
  rw [h] at hp
  obtain rfl := List.mem_singleton.mp hp
  rw [SliceRegs.acc_setLane, if_neg (by omega)]

theorem sliceAccs_accumulate : SliceAccs x.e x.regs (accumulate x exact).1 exact := by
  unfold SliceAccs
  rw [MulMode.accWidth_eq]
  refine ⟨fun j p y hp hy => ?_, acc_accumulate_full48 x exact⟩
  rw [accumulate_eq_takeLanes]
  exact SliceRegs.lane_takeLanes x.e.mode.accWidth_pos (x.e.mode.lanes_fit _) (x.e.mode.lanes_apart _) _ _ hp hy

/-! ## Operations that write accumulators (R114 to R121) -/

/-- R120: where the tap registers move. -/
theorem SliceRegs.moveTap_eq (r : SliceRegs) (d : Bool) (b : Word) :
    r.moveTap d b = { r with x := if d then r.xd else b, xd := if d then b else r.xd } := by cases d <;> rfl

/-- R114, R118, R120: the lanes, latch and flags of an operation that loads extract into the latch, and where the taps move. -/
theorem accOut_spec (tap : Bool) : let r := (accOut x exact tap).regs
    SliceAccs x.e x.regs r exact ∧ r.latch = (extract r x.e x.e.dst.val).1 ∧
      r.fl.n = r.latch.getLsbD 47 ∧ r.fl.z = (r.latch == 0) ∧ r.fl.c = false ∧
      r.fl.v = (exact.any (leaves x.e.mode.accWidth) || (extract r x.e x.e.dst.val).2) ∧
      r.a = x.regs.a ∧ r.b = x.regs.b ∧ r.c = x.regs.c ∧
      (if tap then (if x.xdepth then r.x = x.regs.xd ∧ r.xd = x.b else r.x = x.b ∧ r.xd = x.regs.xd)
        else r.x = x.regs.x ∧ r.xd = x.regs.xd) := by
  have haccs := sliceAccs_accumulate x exact
  obtain ⟨u, v, hregs⟩ := accumulate_words x exact
  rw [hregs] at haccs
  rw [leaves_eq_outside, accOut, hregs]
  cases tap with
  | false => exact ⟨haccs, rfl, rfl, rfl, rfl, rfl, rfl, rfl, rfl, rfl, rfl⟩
  | true =>
    rw [SliceRegs.moveTap_eq]
    refine ⟨haccs, rfl, rfl, rfl, rfl, rfl, rfl, rfl, rfl, ?_⟩
    cases x.xdepth <;> exact ⟨rfl, rfl⟩

/-- R114, R118: LDACC and ADDACC write accumulators, V and C. -/
theorem loadOut_spec : let r := (loadOut x exact).regs
    (r.latch = x.regs.latch ∧ r.a = x.regs.a ∧ r.b = x.regs.b ∧ r.c = x.regs.c ∧ r.x = x.regs.x ∧ r.xd = x.regs.xd) ∧
      SliceAccs x.e x.regs r exact ∧ r.fl = { x.regs.fl with c := false, v := exact.any (leaves x.e.mode.accWidth) } := by
  have haccs := sliceAccs_accumulate x exact
  obtain ⟨u, v, hregs⟩ := accumulate_words x exact
  rw [hregs] at haccs
  rw [leaves_eq_outside, loadOut, hregs]
  exact ⟨⟨rfl, rfl, rfl, rfl, rfl, rfl⟩, haccs, rfl⟩

/-- CLRACC writes accumulators alone. -/
theorem sliceClracc_spec : let r := (sliceClracc x).regs
    (r.latch = x.regs.latch ∧ r.a = x.regs.a ∧ r.b = x.regs.b ∧ r.c = x.regs.c ∧ r.x = x.regs.x ∧ r.xd = x.regs.xd) ∧
      r.fl = x.regs.fl ∧ SliceAccs x.e x.regs r ((x.e.mode.lanes x.e.dst.val).map fun _ => 0) := by
  have haccs := sliceAccs_accumulate x ((x.e.mode.lanes x.e.dst.val).map fun _ => 0)
  obtain ⟨u, v, hregs⟩ := accumulate_words x ((x.e.mode.lanes x.e.dst.val).map fun _ => 0)
  rw [hregs] at haccs
  rw [sliceClracc, hregs]
  exact ⟨⟨rfl, rfl, rfl, rfl, rfl, rfl⟩, rfl, haccs⟩
end

/-! ## Operands (R107, R114) -/

theorem highHalf_eq (u : Bool) (w : Word) :
    highHalf u w = if u then ((w.extractLsb' 24 24).toNat : Int) else (w.extractLsb' 24 24).toInt := by
  have hdiv : w.toNat / 2 ^ 24 < 2 ^ 24 := by have := w.isLt; omega
  have hbits : (w.extractLsb' 24 24).toNat = w.toNat / 2 ^ 24 := by
    rw [BitVec.extractLsb'_toNat, Nat.shiftRight_eq_div_pow, Nat.mod_eq_of_lt hdiv]
  rw [← signed_toNat (by decide), hbits, highHalf]

theorem lowHalf_eq (u : Bool) (w : Word) :
    lowHalf u w = if u then ((w.extractLsb' 0 24).toNat : Int) else (w.extractLsb' 0 24).toInt := by
  have hbits : (w.extractLsb' 0 24).toNat = w.toNat % 2 ^ 24 := by
    rw [BitVec.extractLsb'_toNat, Nat.shiftRight_zero]
  rw [← signed_toNat (by decide), hbits, signed_mod, lowHalf]

/-- Table 5-1: the products the model forms are those of the halves. -/
theorem products_eq (e : EntryFields) (a b : Word) : products e.mode e.au e.bu a b = sliceProducts e a b := by
  unfold products sliceProducts
  simp only [highHalf_eq, lowHalf_eq]
  cases e.mode <;> rfl

/-- a′ of LDACC and ADDACC: the output lanes of a, shifted left by the count. -/
theorem SliceIn.loads_eq (x : SliceIn) : x.loads = (List.range (48 / x.e.mode.outWidth)).map fun j =>
    (x.a.extractLsb' (x.e.mode.outWidth * j) x.e.mode.outWidth).toInt * 2 ^ (x.e.imm.toNat % 128) := by
  have hp : ((2 ^ x.e.count : Nat) : Int) = 2 ^ (x.e.imm.toNat % 128) := by push_cast; rfl
  unfold SliceIn.loads
  simp only [signed_bitsOf_toNat x.e.mode.outWidth_pos, hp]

end Sys2Proof.Machine
end

section
/-! RESULT. O10: the operations of a slice that write accumulators (R114 to R121). -/
namespace Sys2Proof.Machine

/-- Settles O10: each operation is an accumulation of its exact values, which `accOut` or `loadOut` performs;
CLRACC of zeros. -/
theorem sliceAccumulations : Obligations.SliceAccumulations := by
  unfold Obligations.SliceAccumulations
  intro s o i e x hc w lanes acc holds load shifted
  have hprods : x.prods = sliceProducts e x.a x.b := products_eq e x.a x.b
  have htaps : x.tapProds = sliceProducts e x.regs.c x.regs.x := products_eq e x.regs.c x.regs.x
  have hloads : x.loads = shifted := x.loads_eq
  have hacc {c : Instr} {op : Nat} {g : SliceIn → SliceOut} {exact : List Int} (tap : Bool)
      (hx : exec c s = .next (s.runSlice op o g)) (hg : g x = accOut x exact tap) : acc c op tap exact :=
    SliceTakes.of_runSlice hx hc (hg ▸ accOut_spec x exact tap)
  have hload {c : Instr} {op : Nat} {g : SliceIn → SliceOut} {exact : List Int}
      (hx : exec c s = .next (s.runSlice op o g)) (hg : g x = loadOut x exact) : load c op exact :=
    SliceTakes.of_runSlice hx hc (hg ▸ loadOut_spec x exact)
  rw [← hprods, ← htaps, ← hloads]
  exact ⟨hacc false rfl rfl, hacc false rfl rfl, hacc false rfl rfl, hacc true rfl rfl, hacc true rfl rfl, hacc true rfl rfl,
    hload rfl rfl, hload rfl rfl, SliceTakes.of_runSlice rfl hc (sliceClracc_spec x)⟩

end Sys2Proof.Machine
end

section
/-! SUPPORT. What an operation of a slice that reads accumulators or writes a word register answers (R114, R117, R118). -/
namespace Sys2Proof.Machine

/-! ## Rounding (Table 5-8) -/

section
variable (sh : Nat) (v : Int)

/-- What rounding works on: the divisor, the quotient rounded down, and what is left. -/
theorem ediv_two_pow_spec : (0 : Int) < 2 ^ sh ∧ v = v / 2 ^ sh * 2 ^ sh + v % 2 ^ sh ∧ 0 ≤ v % 2 ^ sh ∧ v % 2 ^ sh < 2 ^ sh := by
  have hd : (0 : Int) < 2 ^ sh := Int.pow_pos (by decide)
  exact ⟨hd, (Int.ediv_mul_add_emod v _).symm, Int.emod_nonneg _ (Int.ne_of_gt hd), Int.emod_lt_of_pos _ hd⟩

theorem roundTo_trunc : roundTo 0 sh v * 2 ^ sh ≤ v ∧ v < roundTo 0 sh v * 2 ^ sh + 2 ^ sh := by
  obtain ⟨-, hv, hlo, hhi⟩ := ediv_two_pow_spec sh v
  dsimp only [roundTo]
  push_cast
  omega

/-- RHE: to the nearer integer, and to the even one at a tie. -/
theorem roundTo_rhe : let d : Int := 2 ^ sh; let r := 2 * (v - roundTo 1 sh v * d);
    -d ≤ r ∧ r ≤ d ∧ (r.natAbs = d.natAbs → roundTo 1 sh v % 2 = 0) := by
  obtain ⟨hd, hv, hlo, hhi⟩ := ediv_two_pow_spec sh v
  have hup := Int.add_mul (v / 2 ^ sh) 1 (2 ^ sh)
  dsimp only [roundTo]
  push_cast
  split
  · omega
  · split
    · omega
    · split <;> omega

/-- RHU: to the nearer integer, and up at a tie. -/
theorem roundTo_rhu (n : Nat) : let d : Int := 2 ^ sh; let r := 2 * (v - roundTo (n + 2) sh v * d);
    -d ≤ r ∧ r < d := by
  obtain ⟨hd, hv, hlo, hhi⟩ := ediv_two_pow_spec sh v
  have hup := Int.add_mul (v / 2 ^ sh) 1 (2 ^ sh)
  dsimp only [roundTo]
  push_cast
  split <;> omega
end

/-! ## The output word (R117) -/

/-- R117: what extract rounds to before it fits the output lanes. -/
def SliceRegs.quotients (r : SliceRegs) (e : EntryFields) (code : Nat) : List Int :=
  (e.mode.lanes code).map fun p => roundTo e.rnd e.count (r.lane e.mode.accWidth p)

section
variable (r : SliceRegs) (e : EntryFields) (code : Nat)

theorem SliceRegs.length_quotients : (r.quotients e code).length = 48 / e.mode.outWidth := by
  rw [SliceRegs.quotients, List.length_map, MulMode.length_lanes]

theorem extract_ovf : (extract r e code).2 = (r.quotients e code).any (leaves e.mode.outWidth) := by
  rw [leaves_eq_outside]
  rfl

/-- R117: each output lane holds its own quotient, as it fits. -/
theorem extract_lane {j : Nat} {q : Int} (h : (r.quotients e code)[j]? = some q) :
    ((extract r e code).1.extractLsb' (e.mode.outWidth * j) e.mode.outWidth).toInt = fitInt e.mode.outWidth e.sat q := by
  obtain ⟨hj, hq⟩ := List.getElem?_eq_some_iff.mp h
  have hlen : e.mode.outWidth * ((r.quotients e code).map (clampTo e.mode.outWidth e.sat)).length = 48 := by
    rw [List.length_map, SliceRegs.length_quotients, MulMode.outWidth_mul_lanes]
  have hlane := bitsOf_joinLanes hlen (j := j) (by simpa using hj)
  rw [List.getElem_map, hq] at hlane
  calc ((extract r e code).1.extractLsb' (e.mode.outWidth * j) e.mode.outWidth).toInt
    _ = signed e.mode.outWidth (bitsOf (e.mode.outWidth * j) e.mode.outWidth (extract r e code).1.toNat) :=
      (signed_bitsOf_toNat e.mode.outWidth_pos _).symm
    _ = signed e.mode.outWidth (clampTo e.mode.outWidth e.sat q % 2 ^ e.mode.outWidth) := congrArg _ hlane
    _ = fitInt e.mode.outWidth e.sat q := (signed_mod _ _).trans (signed_clampTo e.mode.outWidth_pos _ _)
end

/-! ## Word registers (R113, R114) -/

/-- Table 5-5: the register DST names takes the word, and so does the latch. -/
theorem SliceRegs.writeDst_eq (r : SliceRegs) (dst : Nat) (v : Word) :
    r.writeDst dst v =
      { r with
        a := if dst = 0 then v else r.a, b := if dst = 1 then v else r.b, c := if dst = 2 then v else r.c
        x := if dst = 3 then v else r.x, latch := v } := by
  match dst with
  | 0 | 1 | 2 | 3 | _ + 4 => simp [SliceRegs.writeDst]

theorem sliceRdacc_latch (x : SliceIn) : (sliceRdacc x).regs.latch = (extract x.regs x.e x.e.srca.val).1 := by
  rw [sliceRdacc, SliceRegs.writeDst_eq]

theorem wordOut_spec (x : SliceIn) (v : Word) : let r := (wordOut x v).regs
    r.latch = v ∧ r.fl = x.regs.fl ∧ r.acc0 = x.regs.acc0 ∧ r.acc1 = x.regs.acc1 ∧ r.xd = x.regs.xd ∧
      r.a = (if x.e.dst.val = 0 then v else x.regs.a) ∧ r.b = (if x.e.dst.val = 1 then v else x.regs.b) ∧
      r.c = (if x.e.dst.val = 2 then v else x.regs.c) ∧ r.x = (if x.e.dst.val = 3 then v else x.regs.x) := by
  rw [wordOut, SliceRegs.writeDst_eq]
  exact ⟨rfl, rfl, rfl, rfl, rfl, rfl, rfl, rfl, rfl⟩

/-- Bits that take an exact value hold the value that fits. -/
theorem toInt_ofNat_clampTo {w : Nat} (hw : 0 < w) (sat : Bool) (r : Int) :
    (BitVec.ofNat w (clampTo w sat r)).toInt = fitInt w sat r := by
  rw [← signed_toNat hw, BitVec.toNat_ofNat, signed_mod, signed_clampTo hw]

/-- The least signed half alone has a negation that leaves its range. -/
theorem outside_neg_toInt (v : BitVec 24) : outside 24 (-v.toInt) = (v.toInt == -(2 ^ 23)) := by
  have hlo := v.le_toInt
  have hhi := v.toInt_lt
  rw [outside, Bool.eq_iff_iff, Bool.or_eq_true, decide_eq_true_iff, decide_eq_true_iff, beq_iff_eq]
  omega

/-- CONJ: the high half stays, the low half is negated and fits as SAT says. -/
theorem sliceConj_spec (x : SliceIn) : let r := (sliceConj x).regs
    r.latch.extractLsb' 24 24 = x.a.extractLsb' 24 24 ∧
      (r.latch.extractLsb' 0 24).toInt = fitInt 24 x.e.sat (-(x.a.extractLsb' 0 24).toInt) ∧
      r.fl = ⟨r.latch.getLsbD 47, r.latch == 0, false, (x.a.extractLsb' 0 24).toInt == -(2 ^ 23)⟩ ∧
      r.acc0 = x.regs.acc0 ∧ r.acc1 = x.regs.acc1 := by
  have hlow : signed 24 x.a.toNat = (x.a.extractLsb' 0 24).toInt := lowHalf_eq false x.a
  rw [sliceConj, SliceRegs.writeDst_eq, hlow, ← outside_neg_toInt]
  refine ⟨?_, ?_, rfl, rfl, rfl⟩
  · exact BitVec.extractLsb'_append_eq_left
  · rw [BitVec.extractLsb'_append_eq_right]
    exact toInt_ofNat_clampTo (by decide) _ _

end Sys2Proof.Machine
end

section
/-! RESULT. O11: RDACC (R117, R118, Table 5-8). -/
namespace Sys2Proof.Machine

/-- Settles O11: the quotients are those that extract rounds to. -/
theorem sliceReadsAccumulators : Obligations.SliceReadsAccumulators := by
  unfold Obligations.SliceReadsAccumulators
  intro s o i e x hc w d rounds
  have hrounds (y : Int) : rounds y (roundTo e.rnd e.count y) := by
    have hrnd : e.shift.toNat / 4 % 4 = e.rnd := rfl
    dsimp only [rounds]
    rw [hrnd]
    generalize e.rnd = rnd
    match rnd with
    | 0 => exact roundTo_trunc _ y
    | 1 => exact roundTo_rhe _ y
    | n + 2 => exact roundTo_rhu _ y n
  refine SliceTakes.of_runSlice (g := sliceRdacc) rfl hc
    ⟨x.regs.quotients e e.srca.val, SliceRegs.length_quotients .., fun j p q hp hq => ⟨?_, ?_⟩, ?_⟩
  · rw [SliceRegs.quotients, List.getElem?_map, hp] at hq
    obtain rfl := Option.some.inj hq
    exact hrounds _
  · rw [sliceRdacc_latch]
    exact extract_lane _ _ _ hq
  · rw [sliceRdacc_latch, ← extract_ovf]
    rfl

end Sys2Proof.Machine
end

section
/-! RESULT. O12: the word operations of a slice (R114). -/
namespace Sys2Proof.Machine

/-- Settles O12: each word operation is `wordOut` of its word. -/
theorem sliceWordOperations : Obligations.SliceWordOperations := by
  unfold Obligations.SliceWordOperations
  intro s o i e x hc word
  have hword {c : Instr} {op : Nat} {g : SliceIn → SliceOut} {v : Word}
      (hx : exec c s = .next (s.runSlice op o g)) (hg : g x = wordOut x v) : word c op v :=
    SliceTakes.of_runSlice hx hc (hg ▸ wordOut_spec x v)
  exact ⟨hword rfl rfl, hword rfl rfl, hword rfl rfl, hword rfl rfl, hword rfl rfl,
    SliceTakes.of_runSlice rfl hc (sliceConj_spec x), SliceTakes.of_runSlice (g := sliceNop) rfl hc rfl⟩

end Sys2Proof.Machine
end

section
/-! SUPPORT. The controls of a field as its cycles end (R61, R104): what debug watches changes none, and a field that comes to a
cycle has only its cycle and its probe words changed. -/
namespace Sys2Proof.Machine

/-- A fold of steps none of which changes a part of the state does not change it. -/
theorem foldl_keeps {α β σ : Type} (part : σ → β) {g : σ → α → σ} (hg : ∀ s a, part (g s a) = part s) (l : List α) (s : σ) :
    part (l.foldl g s) = part s :=
  List.foldlRecOn (motive := fun t => part t = part s) l g rfl fun t ht a _ => (hg t a).trans ht

/-! ## What debug watches -/

theorem State.fld_ite {c : Prop} [Decidable c] {a b : State} {f : Nat} {x : FieldSt} (ha : a.fld f = x) (hb : b.fld f = x) :
    (if c then a else b).fld f = x := by split <;> assumption

section
variable (s : State) (f : Nat)

theorem State.fld_raise (g : Fld) : (s.raise g).fld f = s.fld f := rfl
theorem State.fld_bump (g : Fld) (n : Nat) : (s.bump g n).fld f = s.fld f := rfl
theorem State.fld_setPair (lo hi : RegRef) (v : Nat) : (s.setPair lo hi v).fld f = s.fld f := rfl
theorem State.fld_setDbg (x : DbgSt) : State.fld { s with dbg := x } f = s.fld f := rfl

theorem State.fld_post (code src arg : Nat) : (s.post code src arg).fld f = s.fld f := by
  rw [State.fld, (State.post_work s code src arg (.refl s)).fields, State.fld]

theorem State.fld_haltCode (code src : Nat) : (s.haltCode code src).fld f = s.fld f := by
  unfold State.haltCode State.haltRequest
  refine State.fld_ite rfl (State.fld_ite rfl ?_)
  split
  · rfl
  · exact State.fld_ite rfl rfl
  · split
    · rfl
    · rfl
    · rfl
    · exact State.fld_raise _ _ _

theorem State.fld_traceCount : s.traceCount.fld f = s.fld f := by
  unfold State.traceCount
  exact State.fld_ite rfl (State.fld_ite ((State.fld_raise _ _ _).trans (State.fld_setDbg _ _ _)) (State.fld_setDbg _ _ _))

theorem State.fld_traceStore (w : Word) : (s.traceStore w).fld f = s.fld f := by
  unfold State.traceStore
  exact State.fld_ite ((State.fld_raise _ _ _).trans ((State.fld_put _ _ _ _).trans (State.fld_setDbg _ _ _)))
    ((State.fld_put _ _ _ _).trans (State.fld_setDbg _ _ _))

theorem State.fld_traceWord (w : Word) : (s.traceWord w).fld f = s.fld f :=
  State.fld_ite rfl ((State.fld_traceCount _ _).trans (s.fld_traceStore f w))

theorem State.fld_traceTrigger : s.traceTrigger.fld f = s.fld f := by
  unfold State.traceTrigger
  have h (v : Nat) (x : DbgSt) : State.fld { ((s.raise F.DBG_TRC_STAT_TRIGD).put F.DBG_TRC_TRIG_IDX
      (s.get F.DBG_TRC_STAT_WPTR)).setPair R.DBG_TRC_TRIGT_LO R.DBG_TRC_TRIGT_HI v with dbg := x } f = s.fld f := by
    rw [State.fld_setDbg, State.fld_setPair, State.fld_put, State.fld_raise]
  exact State.fld_ite rfl (State.fld_ite ((State.fld_raise _ _ _).trans (h _ _)) (h _ _))

theorem State.fld_traceHit (u : Nat) (w : Watched) : (s.traceHit u w).fld f = s.fld f :=
  State.fld_ite rfl ((State.fld_traceWord _ _ _).trans (State.fld_traceWord _ _ _))

theorem State.fld_lcComplete (i : Nat) : (s.lcComplete i).fld f = s.fld f := by
  unfold State.lcComplete
  have h := (State.fld_bump _ f (F.DBG_LC_STAT_COUNT i) 1).trans (s.fld_put (F.DBG_LC_STAT_CUR i) 0 f)
  have hevent (b : Bool) (t : State) : (if b then t.post 0x0ED 95 i else t).fld f = t.fld f :=
    State.fld_ite (State.fld_post _ _ _ _ _) rfl
  exact (State.fld_haltCode _ _ _ _).trans
    (State.fld_ite ((State.fld_traceTrigger _ _).trans ((hevent _ _).trans h)) ((hevent _ _).trans h))

theorem State.fld_lcStep (i stamp : Nat) (units : List Nat) : (s.lcStep i stamp units).fld f = s.fld f := by
  unfold State.lcStep
  refine State.fld_ite rfl (State.fld_ite ((State.fld_lcComplete _ _ _).trans ?_) ((State.fld_put _ _ _ _).trans ?_)) <;>
    exact State.fld_ite (State.fld_setDbg _ _ _) (State.fld_setDbg _ _ _)

/-- R446 to R448: no watch unit and no linked condition changes a field. -/
theorem State.fld_watch (w : Watched) (stamp : Nat) : (s.watch w stamp).fld f = s.fld f := by
  have hhit (t : State) (u : Nat) : ((t.bump (F.DBG_WU_HITS_COUNT u) 1).traceHit u w).fld f = t.fld f :=
    (State.fld_traceHit _ _ _ _).trans (State.fld_bump _ _ _ _)
  unfold State.watch State.forEach
  refine State.fld_ite rfl ?_
  split
  · rfl
  · exact (foldl_keeps (State.fld · f) (fun t i => t.fld_lcStep f i stamp _) _ _).trans (foldl_keeps (State.fld · f) hhit _ _)
end

/-! ## A cycle's end -/

/-- Two controls of a field that differ at most in the cycle it stands in and in its probe words. -/
def FieldSt.SameFrame (x y : FieldSt) : Prop := y = { x with cycle := y.cycle, probe := y.probe }

theorem FieldSt.SameFrame.refl (x : FieldSt) : x.SameFrame x := rfl
theorem FieldSt.SameFrame.trans {x y z : FieldSt} (h : x.SameFrame y) (g : y.SameFrame z) : x.SameFrame z := by
  unfold FieldSt.SameFrame at *
  rw [g, h]

section
variable (s : State) (f : Nat)

/-- R104: a sample changes the probe words of its field alone. -/
theorem State.sameFrame_sampleProbe (c k : Nat) : (s.fld f).SameFrame ((s.sampleProbe f c k).fld f) := by
  unfold State.sampleProbe
  extract_lets x v s1 s2
  have h1 : (s.fld f).SameFrame (s1.fld f) := by
    unfold s1
    split
    · rw [State.fld_setFld]
      rfl
    · exact .refl _
  have h2 : s2.fld f = s1.fld f := State.fld_ite (State.fld_traceWord _ _ _) rfl
  rw [State.fld_watch, h2]
  exact h1

theorem State.fld_syncReg (c : CellCfg) (k r : Nat) : (s.syncReg c k r).fld f = s.fld f := by
  unfold State.syncReg
  refine State.fld_ite rfl ?_
  show State.fld (Prod.snd (ite _ _ _)) f = _
  split <;> rfl

theorem State.fld_syncField (i : FieldImage) (g : Nat) : (s.syncField i g).fld f = s.fld f :=
  foldl_keeps (State.fld · f) (fun t _ => foldl_keeps (State.fld · f) (fun u _ => u.fld_syncReg f _ _ _) _ t) _ s

theorem State.fld_loadNet (i : FieldImage) (g : Nat) (st : Nat × Nat) (load : Bool) : (s.loadNet i g st load).fld f = s.fld f :=
  foldl_keeps (State.fld · f) (g := fun t (e : Nat × SegSt) => t.setSeg (segKey g e.1) e.2) (fun _ _ => rfl) _ s

theorem State.sameFrame_endCycle (c : Nat) : (s.fld f).SameFrame ((s.endCycle f c).fld f) := by
  unfold State.endCycle
  split
  · split
    · refine List.foldlRecOn (motive := fun t : State => (s.fld f).SameFrame (t.fld f)) _ _ ?_
        fun t ht k _ => ht.trans (t.sameFrame_sampleProbe f c k)
      rw [State.fld_syncField, State.fld_loadNet]
      exact .refl _
    · exact .refl _
  · exact .refl _

/-- A field that comes to a cycle: only its cycle and its probe words are others. -/
theorem State.sameFrame_comeTo (c : Nat) : (s.fld f).SameFrame ((s.comeTo f c).fld f) := by
  have hends (l : List Nat) : (s.fld f).SameFrame ((s.forEach l fun t a => t.endCycle f a).fld f) :=
    List.foldlRecOn (motive := fun t : State => (s.fld f).SameFrame (t.fld f)) _ _ (.refl _)
      fun t ht a _ => ht.trans (t.sameFrame_endCycle f a)
  unfold State.comeTo
  rw [State.fld_setFld]
  exact (hends _).trans rfl

end

end Sys2Proof.Machine
end

section
/-! RESULT. O21: a protected field rewinds, replays, releases what it verified, and ends a snapshot's drain (R157, R164 to R168). -/
namespace Sys2Proof.Machine

/-! ## What a rewind of memories, queues and NIs leaves as it was (R162, R164) -/

/-- Registers, the controls of fields and slices are those of before. -/
structure State.KeepsControls (s t : State) : Prop where
  regs : t.regs = s.regs
  fields : t.fields = s.fields
  slices : t.slices = s.slices

section
variable {s t u : State}

theorem State.KeepsControls.refl (s : State) : s.KeepsControls s := ⟨rfl, rfl, rfl⟩
theorem State.KeepsControls.trans (h : s.KeepsControls t) (g : t.KeepsControls u) : s.KeepsControls u :=
  ⟨g.regs.trans h.regs, g.fields.trans h.fields, g.slices.trans h.slices⟩
theorem State.KeepsControls.forEach {g : State → Nat → State} (hg : ∀ (s : State) (a : Nat), s.KeepsControls (g s a))
    (l : List Nat) (s : State) : s.KeepsControls (s.forEach l g) :=
  List.foldlRecOn (motive := s.KeepsControls) l g (.refl s) fun t ht a _ => ht.trans (hg t a)
theorem State.KeepsControls.fld (h : s.KeepsControls t) (f : Nat) : t.fld f = s.fld f := by rw [State.fld, h.fields, State.fld]
theorem State.KeepsControls.get (h : s.KeepsControls t) (g : Fld) : t.get g = s.get g := by
  unfold State.get State.reg
  rw [h.regs]
end

section
variable (s : State) (f : Nat)

theorem State.keepsControls_rewindQueue (j : Nat) : s.KeepsControls (s.rewindQueue f j) := by
  have hwords : s.KeepsControls ((s.queue (memKey f j)).wbuf.foldl (fun s e => s.setWord (memKey f j) e.1 e.2) s) :=
    List.foldlRecOn (motive := s.KeepsControls) _ _ (.refl s) fun t ht e _ => ht.trans ⟨rfl, rfl, rfl⟩
  unfold State.rewindQueue
  dsimp only
  split
  · exact hwords
  · exact hwords.trans ⟨rfl, rfl, rfl⟩

theorem State.keepsControls_rewindNis : s.KeepsControls (s.rewindNis f) :=
  .forEach (g := State.rewindNi) (fun _ _ => ⟨rfl, rfl, rfl⟩) _ s

/-- R164: every slice of the field is restored from its shadow. -/
def State.rewindSlices : State :=
  { s with slices := SMap.mapIn SliceSt.zero (512 * f) (512 * (f + 1)) (fun _ y => { y with now := y.shadow }) s.slices }

/-- R162, R164: of registers, controls and slices, a rewind of the fabric and of the NIs changes the slices alone. -/
theorem State.keepsControls_rewind : (s.rewindSlices f).KeepsControls ((s.rewindFabric f).rewindNis f) := by
  refine State.KeepsControls.trans ?_ (State.keepsControls_rewindNis _ f)
  unfold State.rewindFabric
  dsimp only
  refine State.KeepsControls.trans ?_ (.forEach (fun t j => t.keepsControls_rewindQueue f j) _ _)
  exact ⟨rfl, rfl, rfl⟩

end

/-! ## A detection that rewinds (R157, R164, R167) -/

/-- R164: after a detection at cycle t in the frame of a field, the field is at its shadows and waits for its repairs. -/
def State.rewindAt (s : State) (f t : Nat) : State :=
  ((s.rewindFabric f).rewindNis f).setFld f { s.fld f with
    rewound := true, doneAt := none, captured := false, cycle := max (s.fld f).cycle (t + 1) }

section
variable (s : State) (f t : Nat)

theorem State.fld_rewindAt : (s.rewindAt f t).fld f = { s.fld f with
    rewound := true, doneAt := none, captured := false, cycle := max (s.fld f).cycle (t + 1) } := State.fld_setFld _ _ _
theorem State.get_rewindAt (g : Fld) : (s.rewindAt f t).get g = s.get g := by
  rw [State.rewindAt, State.get_setFld, (s.keepsControls_rewind f).get]
  rfl
theorem State.slices_rewindAt : (s.rewindAt f t).slices = (s.rewindSlices f).slices := by
  rw [State.rewindAt, State.setFld_slices, (s.keepsControls_rewind f).slices]

end

/-- R167: a replay is counted, logged and posted, and nothing is verified. -/
def State.noteReplay (s : State) (f : Nat) (src : ReplaySource) (t : Nat) : State :=
  (((s.clear (F.FLD_PROTSTAT_VERIFIED f)).bump (F.FLD_PCNT_REPLAY f) 1).logEntry 0x085 (fieldSrc f) t 0).post 0x085 (fieldSrc f)
    src.code

/-- R157, R164: a protected frame before its DONE that may still be replayed. -/
structure State.MayReplay (s : State) (f : Nat) : Prop where
  prot : s.isProtected f = true
  phase : (s.fld f).phase = .frame
  done : (s.fld f).doneAt = none
  rewound : (s.fld f).rewound = false
  failed : (s.fld f).failed = false
  replaying : s.is (F.FLD_PROTSTAT_REPLAYING f) = false
  overflow : s.overflowed f = false
  drain : s.is (F.FLD_SNAPSTAT_DRAIN f) = false

theorem State.MayReplay.detect {s : State} {f : Nat} (h : s.MayReplay f) (src : ReplaySource) (t : Nat) :
    s.detectBeforeDone f src t = (s.rewindAt f t).noteReplay f src t := by
  have hfld : ((s.rewindFabric f).rewindNis f).fld f = s.fld f := (s.keepsControls_rewind f).fld f
  have hwin : (s.fld f).inWindow t = true := by rw [FieldSt.inWindow, h.done]
  unfold State.detectBeforeDone State.detect State.rewindAt
  rw [h.done]
  dsimp only
  rw [hfld, h.phase, h.done]
  simp [h.prot, h.rewound, h.failed, h.replaying, h.overflow, h.drain, hwin, State.noteReplay]

section
variable (s : State) (f : FieldNo) (src : ReplaySource) (t : Nat)

theorem State.engineWork_noteReplay :
    State.EngineWork ((s.clear (F.FLD_PROTSTAT_VERIFIED f)).bump (F.FLD_PCNT_REPLAY f) 1) (s.noteReplay f src t) :=
  State.post_work _ _ _ _ (State.logEntry_work _ _ _ _ _ (.refl _))

theorem State.fld_noteReplay : (s.noteReplay f src t).fld f = s.fld f := by
  rw [State.fld, (s.engineWork_noteReplay f src t).fields, State.bump_fields, State.clear_fields, State.fld]

theorem State.slices_noteReplay : (s.noteReplay f src t).slices = s.slices := by
  rw [(s.engineWork_noteReplay f src t).rest.slices, State.bump_slices, State.clear_slices]

/-- Noting a replay changes PROTSTAT in VERIFIED alone. -/
theorem State.get_noteReplay {g : Fld} (h : g.reg = R.FLD_PROTSTAT f) :
    (s.noteReplay f src t).get g = (s.clear (F.FLD_PROTSTAT_VERIFIED f)).get g := by
  have hoff : g.reg.off = 0xc0094 + 4096 * f.val := congrArg RegRef.off h
  have hcnt : g.reg.off ≠ (F.FLD_PCNT_REPLAY f).reg.off := by
    show g.reg.off ≠ 0xc0098 + 4096 * f.val
    omega
  have hpass : g.reg.off ≠ R.TIME_PASS_STAT.off := by
    show g.reg.off ≠ 0x40410
    omega
  rw [(s.engineWork_noteReplay f src t).get (by omega) hpass, State.get_bump_other _ _ hcnt]

theorem State.verified_noteReplay : (s.noteReplay f src t).is (F.FLD_PROTSTAT_VERIFIED f) = false := by
  rw [State.is, State.get_noteReplay _ _ _ _ rfl, State.get_clear _ (Nat.le_of_ble_eq_true rfl)]
  rfl

theorem State.replaying_noteReplay :
    (s.noteReplay f src t).is (F.FLD_PROTSTAT_REPLAYING f) = s.is (F.FLD_PROTSTAT_REPLAYING f) := by
  have hapart : (F.FLD_PROTSTAT_VERIFIED f).lo + (F.FLD_PROTSTAT_VERIFIED f).w ≤ (F.FLD_PROTSTAT_REPLAYING f).lo := Nat.le_refl 1
  rw [State.is, State.get_noteReplay _ _ _ _ rfl, State.clear,
    State.get_put_disjoint (f := F.FLD_PROTSTAT_VERIFIED f) (g := F.FLD_PROTSTAT_REPLAYING f) _ _ rfl (.inl hapart)
      (Nat.le_of_ble_eq_true rfl)]
  rfl

end

/-! ## The commands -/

/-- R157: CHKFAIL is sampled as the field comes to its cycle. -/
theorem State.chkfail_eq {s : State} {f cyc : Nat} (hprot : s.isProtected f = true) (hen : s.is (F.FLD_PROT_CHKEN f) = true)
    (hex : s.executes f cyc = true)
    (hport : ((s.comeTo f ((s.fld f).base + cyc)).controlWord f ((s.fld f).stamp cyc)).getLsbD 1 = true) :
    s.chkfail f cyc = (s.comeTo f ((s.fld f).base + cyc)).detectBeforeDone f .chkfail ((s.fld f).base + cyc) := by
  unfold State.chkfail
  exact if_pos (by simp [hprot, hen, hex, hport])

/-- A field executes no cycle that has ended. -/
theorem State.cycle_le_of_executes {s : State} {f t : Nat} (h : s.executes f t = true) : (s.fld f).cycle ≤ (s.fld f).base + t := by
  simp only [State.executes, Bool.and_eq_true, decide_eq_true_eq] at h
  exact h.1.2

theorem State.overflowed_congr {s t : State} {f : Nat} (h : t.queues = s.queues) : t.overflowed f = s.overflowed f := by
  unfold State.overflowed State.queue
  rw [h]

section
variable {s : State} {f : Nat}

/-- R164: the replay starts once no repair of the field is pending. -/
theorem State.replayStart_eq {cyc : Nat} (hrew : (s.fld f).rewound = true) (hcyc : (s.fld f).cycle ≤ cyc)
    (hrep : ∀ r ∈ s.cfg.repairs, r.field ≠ f) :
    s.replayStart f cyc = (s.setFld f { s.fld f with rewound := false, base := cyc, cycle := cyc }).raise
      (F.FLD_PROTSTAT_REPLAYING f) := by
  have hall : s.repaired f = true := List.all_eq_true.mpr fun r hr => bne_iff_ne.mpr (hrep r hr)
  exact if_pos (by simp [hrew, hall, hcyc])

/-- R165: the window of a good DONE closes with the frame verified. -/
theorem State.windowClose_eq {d : Nat} (hd : (s.fld f).doneAt = some d) (hprot : s.isProtected f = true)
    (hphase : (s.fld f).phase = .frame) (hw : d ≤ s.get (F.FLD_WMAX_CYC f)) (hrew : (s.fld f).rewound = false)
    (hfail : (s.fld f).failed = false) : s.windowClose f = s.raise (F.FLD_PROTSTAT_VERIFIED f) := by
  unfold State.windowClose
  dsimp only
  rw [hd]
  exact if_pos (by simp [hprot, hphase, hw, hrew, hfail])

/-- R168: the last acknowledgement ends the drain. -/
theorem State.snapDone_eq (hdrain : s.is (F.FLD_SNAPSTAT_DRAIN f) = true) (hleft : (s.fld f).snapLeft = 0) :
    s.snapDone f =
      ((s.clear (F.FLD_SNAPSTAT_DRAIN f)).raise (F.FLD_SNAPSTAT_DONE f)).post 0x089 (fieldSrc f) f :=
  if_pos (by simp [hdrain, hleft])

end

/-- Settles O21: a CHKFAIL that counts rewinds and is noted; the other commands act as defined where their conditions hold. -/
theorem protectedExecution : Obligations.ProtectedExecution := by
  unfold Obligations.ProtectedExecution
  intro s f cyc x u
  refine ⟨?_, fun hrew hcyc hrep => congrArg Host.Outcome.next (State.replayStart_eq hrew hcyc hrep),
    fun d hd hprot hphase hw hrew hfail => congrArg Host.Outcome.next (State.windowClose_eq hd hprot hphase hw hrew hfail),
    fun hdrain hleft => congrArg Host.Outcome.next (State.snapDone_eq hdrain hleft)⟩
  intro hprot hen hex hdone hphase hrew hfail hport huprot hrep hovf hdrain
  let c := x.base + cyc
  have hsame : x.SameFrame (u.fld f) := s.sameFrame_comeTo f c
  have hturn : State.Turned s u f := s.comeTo_turned f c
  have hmay : u.MayReplay f :=
    { prot := huprot, replaying := hrep, drain := hdrain
      phase := by rw [hsame]; exact hphase
      done := by rw [hsame]; exact hdone
      rewound := by rw [hsame]; exact hrew
      failed := by rw [hsame]; exact hfail
      overflow := by rw [State.overflowed_congr hturn.rest.queues]; exact hovf }
  refine ⟨(u.rewindAt f c).noteReplay f .chkfail c,
    congrArg Host.Outcome.next ((State.chkfail_eq hprot hen hex hport).trans (hmay.detect .chkfail c)), ?_⟩
  rw [State.fld_noteReplay, State.fld_rewindAt, State.slices_noteReplay, State.slices_rewindAt, State.replaying_noteReplay, State.is,
    State.get_rewindAt]
  refine ⟨rfl, ?_, hrep, State.verified_noteReplay _ _ _ _, ?_⟩
  · show max (u.fld f).cycle (c + 1) = c + 1
    rw [State.cycle_comeTo, Nat.max_eq_right (State.cycle_le_of_executes hex)]
    exact Nat.max_eq_right (Nat.le_succ c)
  · rw [State.rewindSlices, hturn.rest.slices]

end Sys2Proof.Machine
end

section
/-! SUPPORT. Descriptors of the host bridge (chapter 12): what becomes of a queue pair as its descriptors without an operation are
dropped, as more are fetched and as one of them completes, and which descriptor a command acts on. -/
namespace Sys2Proof.Machine

/-! ## Registers and time through events and the log -/

section
variable (s : State) (r : RegRef)

/-- R271: an event changes no register but PASS_STAT. -/
theorem State.reg_post_other (code src arg : Nat) (h : r.off ≠ R.TIME_PASS_STAT.off) : (s.post code src arg).reg r = s.reg r := by
  have htake (t : State) (e : EvRec) : (t.passTake e).reg r = t.reg r := by
    unfold State.passTake
    split
    · dsimp only
      split
      · exact State.reg_put_other _ _ h
      · rfl
    · exact State.reg_put_other _ _ h
  exact htake _ _

theorem State.reg_logEntry (code src arg detail : Nat) : (s.logEntry code src arg detail).reg r = s.reg r := by
  unfold State.logEntry
  split <;> rfl

/-- R244: corrected time is given by the time base and TIME.INCR. -/
theorem State.now_congr {s t : State} (ht : t.time = s.time) (hlo : t.reg R.TIME_INCR_LO = s.reg R.TIME_INCR_LO)
    (hhi : t.reg R.TIME_INCR_HI = s.reg R.TIME_INCR_HI) : t.now = s.now := by
  unfold State.now State.correctedNat State.incr State.pair
  rw [ht, hlo, hhi]

end

/-! ## Queue pairs -/

section
variable (s : State) (q : Nat) (x : PairSt)

@[simp] theorem State.pairSt_setPairSt : (s.setPairSt q x).pairSt q = x := SMap.get_set_same _ _ _ _
theorem State.pairSt_setPairSt_other {p : Nat} (h : p ≠ q) : (s.setPairSt q x).pairSt p = s.pairSt p := SMap.get_set_other _ _ _ _ h

end

/-- What a completion of a descriptor without an operation says (R292, R293). -/
def Completion.noOperation (c : Completion) : Prop := c.status = 0x10 ∨ c.status = stFenceAbort

/-- Corrected time and the descriptors of pair q in progress are as before; completions of descriptors without an operation may have
joined those that wait (R291, R293). -/
structure State.KeepsPair (s t : State) (q : Nat) : Prop where
  active : (t.pairSt q).active = (s.pairSt q).active
  waiting : ∃ l : List Completion, (t.pairSt q).waiting = (s.pairSt q).waiting ++ l ∧ ∀ c ∈ l, c.noOperation
  now : t.now = s.now

section
variable {s t u : State} {q : Nat}

theorem State.KeepsPair.refl (s : State) (q : Nat) : s.KeepsPair s q :=
  ⟨rfl, ⟨[], (List.append_nil _).symm, by simp⟩, rfl⟩
theorem State.KeepsPair.trans (h : s.KeepsPair t q) (g : t.KeepsPair u q) : s.KeepsPair u q := by
  obtain ⟨hact, ⟨l, hl, hc⟩, hnow⟩ := h
  obtain ⟨gact, ⟨m, gm, gc⟩, gnow⟩ := g
  refine ⟨gact.trans hact, ⟨l ++ m, ?_, fun c hcm => ?_⟩, gnow.trans hnow⟩
  · rw [gm, hl, List.append_assoc]
  · exact (List.mem_append.mp hcm).elim (hc c) (gc c)
/-- A step that leaves the pair and corrected time as they are. -/
theorem State.KeepsPair.of_same (hp : t.pairSt q = s.pairSt q) (hn : t.now = s.now) : s.KeepsPair t q :=
  ⟨by rw [hp], ⟨[], by rw [hp, List.append_nil], by simp⟩, hn⟩
theorem State.KeepsPair.find (h : s.KeepsPair t q) (slot : Nat) : (t.pairSt q).find slot = (s.pairSt q).find slot := by
  rw [PairSt.find, h.active, PairSt.find]

/-- The bridge's rings and what it sends apart, two states are one. -/
def State.SameButHost (s t : State) : Prop := t = { s with host := t.host, hostOut := t.hostOut }

theorem State.SameButHost.refl (s : State) : s.SameButHost s := rfl
theorem State.SameButHost.trans (h : s.SameButHost t) (g : t.SameButHost u) : s.SameButHost u := by
  unfold State.SameButHost at *
  rw [g, h]
/-- Corrected time is none of the bridge's. -/
theorem State.SameButHost.now (h : s.SameButHost t) : t.now = s.now := by
  rw [h]
  rfl

end

/-! ## Dropping, fetching and completing -/

section
variable (s : State) (q : Nat) (d : DescSt) (status : Nat) (result : Word)

theorem State.sameButHost_setPairSt (x : PairSt) : s.SameButHost (s.setPairSt q x) := rfl

theorem State.sameButHost_completeDesc : s.SameButHost (s.completeDesc q d status result) := rfl

theorem State.pairSt_completeDesc : (s.completeDesc q d status result).pairSt q = { s.pairSt q with
    active := (s.pairSt q).active.filter (fun e => e.slot != d.slot)
    fetched := (s.pairSt q).fetched.filter (fun e => e.slot != d.slot)
    waiting := (s.pairSt q).waiting ++ [⟨d.qtag, status, d.irq, result, s.now⟩]
    failed := !statusFine status || ((s.pairSt q).failed && !d.fence) } := State.pairSt_setPairSt _ _ _

theorem State.sameButHost_dropUnknownOne : s.SameButHost (s.dropUnknownOne q) := by
  unfold State.dropUnknownOne
  dsimp only
  split
  · rfl
  · split <;> rfl

/-- R293: a descriptor without an operation leaves the fetched ones with its own completion. -/
theorem State.keepsPair_dropUnknownOne : s.KeepsPair (s.dropUnknownOne q) q := by
  refine ⟨?_, ?_, (s.sameButHost_dropUnknownOne q).now⟩ <;> unfold State.dropUnknownOne <;> dsimp only
  · split
    · rfl
    · split
      · rfl
      · rw [State.pairSt_setPairSt]
  · split
    · exact (State.KeepsPair.refl s q).waiting
    · next d _ _ =>
      split
      · exact (State.KeepsPair.refl s q).waiting
      · rw [State.pairSt_setPairSt, State.pairSt_completeDesc]
        refine ⟨[_], rfl, fun c hc => ?_⟩
        rw [List.mem_singleton.mp hc]
        unfold Completion.noOperation
        split
        · exact .inr rfl
        · exact .inl rfl

theorem State.sameButHost_dropUnknown : s.SameButHost (s.dropUnknown q) :=
  List.foldlRecOn (motive := s.SameButHost) _ _ (.refl s) fun t ht _ _ => ht.trans (t.sameButHost_dropUnknownOne q)
theorem State.keepsPair_dropUnknown : s.KeepsPair (s.dropUnknown q) q :=
  List.foldlRecOn (motive := (s.KeepsPair · q)) _ _ (.refl s q) fun t ht _ _ => ht.trans (t.keepsPair_dropUnknownOne q)

theorem State.sameButHost_fetchNext : s.SameButHost (s.fetchNext q) := by
  unfold State.fetchNext
  split <;> rfl
/-- R285: a fetch that is issued changes no descriptor. -/
theorem State.keepsPair_fetchNext (p : Nat) : s.KeepsPair (s.fetchNext p) q := by
  have hpair : ∃ b, (s.fetchNext p).pairSt q = { s.pairSt q with fetching := b } := by
    unfold State.fetchNext
    split
    · by_cases hq : q = p
      · subst hq
        exact ⟨true, State.pairSt_setPairSt _ _ _⟩
      · exact ⟨_, State.pairSt_setPairSt_other _ _ _ hq⟩
    · exact ⟨_, rfl⟩
  obtain ⟨b, hb⟩ := hpair
  exact ⟨by rw [hb], ⟨[], by rw [hb, List.append_nil], by simp⟩, (s.sameButHost_fetchNext p).now⟩

theorem State.sameButHost_fetchAll : s.SameButHost s.fetchAll :=
  List.foldlRecOn (motive := s.SameButHost) _ _ (.refl s) fun t ht p _ => ht.trans (t.sameButHost_fetchNext p)
theorem State.keepsPair_fetchAll : s.KeepsPair s.fetchAll q :=
  List.foldlRecOn (motive := (s.KeepsPair · q)) _ _ (.refl s q) fun t ht p _ => ht.trans (t.keepsPair_fetchNext q p)

theorem State.sameButHost_finish : s.SameButHost (s.finish q d status result) :=
  ((s.sameButHost_completeDesc q d status result).trans (State.sameButHost_dropUnknown _ q)).trans (State.sameButHost_fetchAll _)

end

/-- R285, R295: a descriptor of pair q completes with its status and result, whatever kept the pair until then. -/
theorem State.KeepsPair.finish {s t : State} {q : Nat} (h : s.KeepsPair t q) (d : DescSt) (status : Nat) (result : Word) :
    DescEnds s (t.finish q d status result) q d.slot d status result := by
  obtain ⟨-, ⟨l, hl, hlc⟩, hnow⟩ := h
  obtain ⟨hact, ⟨m, hm, hmc⟩, -⟩ := (State.keepsPair_dropUnknown (t.completeDesc q d status result) q).trans
    (State.keepsPair_fetchAll _ q)
  rw [State.pairSt_completeDesc] at hact hm
  refine ⟨⟨l, m, ?_, fun c hc => (List.mem_append.mp hc).elim (hlc c) (hmc c)⟩, ?_⟩
  · rw [State.finish, hm, hl, hnow]
  · rw [State.finish, PairSt.find, hact]
    exact List.find?_eq_none.mpr fun e he hslot => bne_iff_ne.mp (List.mem_filter.mp he).2 (beq_iff_eq.mp hslot)

/-! ## The descriptor a command acts on -/

section
variable {s : State} {q slot op : Nat} {d : DescSt} {g : State → DescSt → State}

theorem PairSt.slot_of_find {x : PairSt} (h : x.find slot = some d) : d.slot = slot :=
  beq_iff_eq.mp (List.find?_some (p := fun e : DescSt => e.slot == slot) h)

/-- R291: a command for a descriptor in progress acts on it, once those without an operation are dropped. -/
theorem State.withDesc_of_find (h : (s.pairSt q).find slot = some d) (hop : d.op = op) :
    s.withDesc q slot op g = g (s.dropUnknown q) d := by
  simp only [State.withDesc, State.descFor, h, if_pos hop]

/-- A descriptor that has its words acts. -/
theorem DescReady.gather (h : DescReady s q slot op d) :
    (s.withDesc q slot op fun s _ => s.gatherDesc q slot g) = g (s.dropUnknown q) d := by
  obtain ⟨hfind, hop, hfail, hhere, hread, hout⟩ := h
  rw [State.withDesc_of_find hfind hop]
  have hfind' : ((s.dropUnknown q).pairSt q).find slot = some d := ((s.keepsPair_dropUnknown q).find slot).trans hfind
  have hmore : (s.dropUnknown q).readMore q slot = s.dropUnknown q := by
    simp only [State.readMore, hfind', hfail, if_pos (Or.inr hread)]
  simp [State.gatherDesc, hmore, hfind', hfail, DescSt.allHere, hhere, hout]

theorem DescReady.slot_eq (h : DescReady s q slot op d) : d.slot = slot := PairSt.slot_of_find h.1

end

end Sys2Proof.Machine
end

section
/-! RESULT. O47: descriptors that have what they wait for act and complete (Table 12-7, R168, R227, R292, R295, R375, R381). -/
namespace Sys2Proof.Machine

/-! ## What leaves a pair as it is -/

section
variable {s t : State}

/-- What can be said of a state without its bridge is said of both. -/
theorem State.SameButHost.observe {α : Type} (h : s.SameButHost t) (φ : State → α)
    (hφ : ∀ (s : State) (x : HostSt) (l : List HostOut), φ { s with host := x, hostOut := l } = φ s) : φ t = φ s := by
  rw [h]
  exact hφ _ _ _

variable (s) (q : Nat)

/-- R271: an event. -/
theorem State.keepsPair_post (code src arg : Nat) : s.KeepsPair (s.post code src arg) q := by
  have hstays : State.SameStores s (s.post code src arg) := State.post_stays _ _ _ _ (.refl s)
  refine .of_same (by rw [State.pairSt, hstays.host, State.pairSt]) ?_
  exact State.now_congr hstays.time (s.reg_post_other _ _ _ _ (by decide)) (s.reg_post_other _ _ _ _ (by decide))

/-- R424: an entry of the log. -/
theorem State.keepsPair_logEntry (code src arg detail : Nat) : s.KeepsPair (s.logEntry code src arg detail) q := by
  refine .of_same ?_ (State.now_congr (State.logOnly_logEntry _ _ _ _ _).time (s.reg_logEntry _ _ _ _ _) (s.reg_logEntry _ _ _ _ _))
  unfold State.logEntry
  split <;> rfl

/-- A register other than TIME.INCR. -/
theorem State.keepsPair_put (f : Fld) (v : Nat) (hlo : f.reg.off ≠ R.TIME_INCR_LO.off) (hhi : f.reg.off ≠ R.TIME_INCR_HI.off) :
    s.KeepsPair (s.put f v) q :=
  .of_same rfl (State.now_congr rfl (State.reg_put_other _ _ hlo.symm) (State.reg_put_other _ _ hhi.symm))

end

/-! ## SLOTLOAD and ROUTELOAD (R227) -/

/-- The first `k` words of a table are written in order. -/
def NiTables.fill (t : NiTables) (table k : Nat) (f : Nat → Word) : NiTables :=
  (List.range k).foldl (fun t i => t.write table i (f i)) t
/-- R227: so are those of the inactive bank of NI n. -/
def State.fillBank (s : State) (n table k : Nat) (f : Nat → Word) : State :=
  (List.range k).foldl (fun s i => s.bankWrite n table i (f i)) s

section
variable (t : NiTables) {table : Nat} (k : Nat) (f : Nat → Word)

theorem NiTables.read_write_same (h : table < 3) (key : Nat) (v : Word) : (t.write table key v).read table key = v := by
  match table, h with
  | 0, _ | 1, _ | 2, _ => exact SMap.get_set_same _ _ _ _
theorem NiTables.read_write_other (h : table < 3) {key j : Nat} (hj : j ≠ key) (v : Word) :
    (t.write table key v).read table j = t.read table j := by
  match table, h with
  | 0, _ | 1, _ | 2, _ => exact SMap.get_set_other _ _ _ _ hj

theorem NiTables.fill_succ : t.fill table (k + 1) f = (t.fill table k f).write table k (f k) := by
  rw [NiTables.fill, List.range_succ, List.foldl_append]
  rfl
theorem NiTables.read_fill (h : table < 3) {i : Nat} (hi : i < k) : (t.fill table k f).read table i = f i := by
  induction k with
  | zero => exact absurd hi (Nat.not_lt_zero i)
  | succ k ih =>
    rw [NiTables.fill_succ]
    by_cases hik : i = k
    · rw [hik, NiTables.read_write_same _ h]
    · rw [NiTables.read_write_other _ h hik, ih (by omega)]
/-- A table that is filled leaves the others. -/
theorem NiTables.win_fill_slots : (t.fill 2 k f).win = t.win :=
  foldl_keeps NiTables.win (g := fun t i => t.write 2 i (f i)) (fun _ _ => rfl) _ t
theorem NiTables.slot_fill_windows : (t.fill 0 k f).slot = t.slot :=
  foldl_keeps NiTables.slot (g := fun t i => t.write 0 i (f i)) (fun _ _ => rfl) _ t
theorem NiTables.slot_fill_routes : (t.fill 1 k f).slot = t.slot :=
  foldl_keeps NiTables.slot (g := fun t i => t.write 1 i (f i)) (fun _ _ => rfl) _ t
theorem NiTables.win_fill_routes : (t.fill 1 k f).win = t.win :=
  foldl_keeps NiTables.win (g := fun t i => t.write 1 i (f i)) (fun _ _ => rfl) _ t
end

section
variable (s : State) (n table k : Nat) (f : Nat → Word)

theorem State.fillBank_eq : s.fillBank n table k f = { s with nis := (s.fillBank n table k f).nis } :=
  List.foldlRecOn (motive := fun t : State => t = { s with nis := t.nis }) _ _ rfl fun t ht i _ => by rw [ht]; rfl
theorem State.keepsPair_fillBank (q : Nat) : s.KeepsPair (s.fillBank n table k f) q := by
  rw [State.fillBank_eq]
  exact .of_same rfl rfl
theorem State.active_fillBank : ((s.fillBank n table k f).ni n).active = (s.ni n).active :=
  foldl_keeps (fun s : State => (s.ni n).active) (g := fun s i => s.bankWrite n table i (f i))
    (fun s i => by rw [State.bankWrite, State.ni_setNi]) _ s
theorem State.inactive_fillBank : ((s.fillBank n table k f).ni n).inactive = (s.ni n).inactive.fill table k f :=
  (List.foldl_hom (fun s : State => (s.ni n).inactive) (g₁ := fun s i => s.bankWrite n table i (f i))
    (g₂ := fun t i => t.write table i (f i)) fun s i => by rw [State.bankWrite, State.ni_setNi]).symm

end

section
variable {s : State} {q : Fin 32} {slot : Nat} {d : DescSt}

theorem slotload_completes (h : DescReady s q slot 7 d) : let n := d.bits 24 0 8
    ∃ t, exec (.slotload q slot) s = .next t ∧ DescEnds s t q slot d d.status 0 ∧
      (t.ni n).active = (s.ni n).active ∧ (t.ni n).inactive.win = (s.ni n).inactive.win ∧
      ∀ i < 120, (t.ni n).inactive.read 2 i = d.gathered.getD i 0 := by
  intro n
  let u := s.dropUnknown q
  let v := u.fillBank n 2 120 (d.gathered.getD · 0)
  have hni : u.ni n = s.ni n := (s.sameButHost_dropUnknown q).observe (State.ni · n) fun _ _ _ => rfl
  have hlast : (v.finish q d d.status 0).ni n = v.ni n :=
    (v.sameButHost_finish q d d.status 0).observe (State.ni · n) fun _ _ _ => rfl
  refine ⟨v.finish q d d.status 0, congrArg Host.Outcome.next h.gather, ?_, ?_, ?_, fun i hi => ?_⟩
  · rw [← h.slot_eq]
    exact ((s.keepsPair_dropUnknown q).trans (u.keepsPair_fillBank _ _ _ _ q)).finish _ _ _
  · rw [hlast, State.active_fillBank, hni]
  · rw [hlast, State.inactive_fillBank, NiTables.win_fill_slots, hni]
  · rw [hlast, State.inactive_fillBank, NiTables.read_fill _ _ _ (by decide) hi]

theorem routeload_completes (h : DescReady s q slot 8 d) : let n := d.bits 24 0 8
    ∃ t, exec (.routeload q slot) s = .next t ∧ DescEnds s t q slot d d.status 0 ∧
      (t.ni n).active = (s.ni n).active ∧ (t.ni n).inactive.slot = (s.ni n).inactive.slot ∧
      (∀ i < 256, (t.ni n).inactive.read 0 i = d.gathered.getD i 0) ∧
      ∀ i < 512, (t.ni n).inactive.read 1 i = d.gathered.getD (256 + i) 0 := by
  intro n
  let u := s.dropUnknown q
  let v := u.fillBank n 0 256 (d.gathered.getD · 0)
  let w := v.fillBank n 1 512 fun i => d.gathered.getD (256 + i) 0
  have hni : u.ni n = s.ni n := (s.sameButHost_dropUnknown q).observe (State.ni · n) fun _ _ _ => rfl
  have hlast : (w.finish q d d.status 0).ni n = w.ni n :=
    (w.sameButHost_finish q d d.status 0).observe (State.ni · n) fun _ _ _ => rfl
  have hfilled : (w.ni n).inactive = ((s.ni n).inactive.fill 0 256 (d.gathered.getD · 0)).fill 1 512
      fun i => d.gathered.getD (256 + i) 0 := by
    rw [State.inactive_fillBank, State.inactive_fillBank, hni]
  refine ⟨w.finish q d d.status 0, congrArg Host.Outcome.next h.gather, ?_, ?_, ?_, fun i hi => ?_, fun i hi => ?_⟩
  · rw [← h.slot_eq]
    exact (((s.keepsPair_dropUnknown q).trans (u.keepsPair_fillBank _ _ _ _ q)).trans (v.keepsPair_fillBank _ _ _ _ q)).finish _ _ _
  · rw [hlast, State.active_fillBank, State.active_fillBank, hni]
  · rw [hlast, hfilled, NiTables.slot_fill_routes, NiTables.slot_fill_windows]
  · rw [hlast, hfilled, NiTables.read, NiTables.win_fill_routes]
    exact NiTables.read_fill _ (table := 0) _ _ (by decide) hi
  · rw [hlast, hfilled, NiTables.read_fill _ _ _ (by decide) hi]

end

/-! ## KEYLOAD (R375) -/

/-- R375: a refused key sets KEYFAIL, is logged and posted; the keys stay. -/
def State.noteKeyFail (s : State) (id : Nat) : State := (s.raise F.CRY_STAT_KEYFAIL).postLog 0x0DC 72 id

section
variable (s : State)

theorem State.keepsPair_noteKeyFail (id q : Nat) : s.KeepsPair (s.noteKeyFail id) q :=
  ((s.keepsPair_put q F.CRY_STAT_KEYFAIL 1 (by decide) (by decide)).trans (State.keepsPair_logEntry _ q _ _ _ _)).trans
    (State.keepsPair_post _ q _ _ _)
theorem State.keyFail_noteKeyFail (id : Nat) : (s.noteKeyFail id).is F.CRY_STAT_KEYFAIL = true := by
  have hreg : (s.noteKeyFail id).reg R.CRY_STAT = (s.raise F.CRY_STAT_KEYFAIL).reg R.CRY_STAT :=
    (State.reg_post_other _ _ _ _ _ (by decide)).trans (State.reg_logEntry _ _ _ _ _ _)
  have hget : (s.noteKeyFail id).get F.CRY_STAT_KEYFAIL = (s.raise F.CRY_STAT_KEYFAIL).get F.CRY_STAT_KEYFAIL :=
    congrArg (bitsOf 1 1) hreg
  rw [State.is, hget]
  exact s.is_raise (by decide) rfl
theorem State.cry_noteKeyFail (id : Nat) : (s.noteKeyFail id).cry = s.cry :=
  (State.post_stays _ _ _ _ (.refl _)).cry.trans (State.logOnly_logEntry _ _ _ _ _).cry

end

/-- R375: the descriptor of a refused key ends DENIED. -/
theorem State.KeepsPair.keyLoadFail {s u : State} {q : Nat} (h : s.KeepsPair u q) (d : DescSt) :
    DescEnds s (u.keyLoadFail q d) q d.slot d stDenied 0 ∧ (u.keyLoadFail q d).is F.CRY_STAT_KEYFAIL = true ∧
      (u.keyLoadFail q d).cry = u.cry := by
  let v := u.noteKeyFail (d.bits 24 0 8)
  have hb : v.SameButHost (u.keyLoadFail q d) := v.sameButHost_finish q d stDenied 0
  refine ⟨(h.trans (u.keepsPair_noteKeyFail _ q)).finish d stDenied 0, ?_, ?_⟩
  · rw [hb.observe (State.is · F.CRY_STAT_KEYFAIL) fun _ _ _ => rfl]
    exact u.keyFail_noteKeyFail _
  · rw [hb.observe State.cry fun _ _ _ => rfl]
    exact u.cry_noteKeyFail _

/-- R375: an ID takes a key. -/
def State.addKey (s : State) (id key : Nat) : State :=
  { s with cry := { s.cry with keys := SMap.insert s.cry.keys id (some key) } }

section
variable (s : State) (id v : Nat)

theorem State.keepsPair_setKeyState (q : Nat) : s.KeepsPair (s.setKeyState id v) q := by
  refine s.keepsPair_put q ⟨R.CRY_KEYSTAT (id / 8), 4 * (id % 8), 4⟩ v ?_ ?_
  · show 0x130040 + 4 * (id / 8) ≠ 0x40028
    omega
  · show 0x130040 + 4 * (id / 8) ≠ 0x4002c
    omega
theorem State.keyState_setKeyState : (s.setKeyState id v).keyState id = v % 16 :=
  s.get_put (f := ⟨R.CRY_KEYSTAT (id / 8), 4 * (id % 8), 4⟩) v (by show 4 * (id % 8) + 4 ≤ 32; omega)
theorem State.keepsPair_addKey (q : Nat) : s.KeepsPair (s.addKey id v) q := .of_same rfl rfl
theorem State.get_keys_addKey : SMap.get (s.addKey id v).cry.keys none id = some v := by
  show (SMap.find? (SMap.insert s.cry.keys id (some v)) id).getD none = some v
  rw [SMap.find?_insert_same]
  rfl

end

/-- R375, R436: without a fuse root to read no key is unwrapped. -/
theorem State.actKeyload_rootless {s : State} (q : Nat) (d : DescSt) (h : s.bist.scanned = true ∨ s.fuses.root = none) :
    s.actKeyload q d = s.keyLoadFail q d := by
  have hroot : (if s.bist.scanned then none else s.fuses.root) = none := by
    split
    · rfl
    · exact h.resolve_left ‹_›
  unfold State.actKeyload
  dsimp only
  rw [hroot]

section
variable {s : State} {q : Nat} {d : DescSt} {root : List (BitVec 32)} (hscan : s.bist.scanned = false)
  (hroot : s.fuses.root = some root)
include hscan hroot

/-- R375: a wrapped key that does not unwrap is refused. -/
theorem State.actKeyload_unreadable
    (hkey : Config.unwrap (Config.wrapKey root s.fuses.unit) ((d.gathered.flatMap packWord).take 40) = none) :
    s.actKeyload q d = s.keyLoadFail q d := by
  simp only [State.actKeyload, hscan, hroot, hkey, Bool.false_eq_true, if_false]

/-- R375: one that unwraps for an ID that may take it is installed. -/
theorem State.actKeyload_installs {key : Nat}
    (hkey : Config.unwrap (Config.wrapKey root s.fuses.unit) ((d.gathered.flatMap packWord).take 40) = some key) :
    let id := d.bits 24 0 8
    let bytes := d.gathered.flatMap packWord
    (bytes.getD 40 0).toNat = id → (bytes.getD 41 0).toNat % 2 = 0 → d.bits 25 0 1 = 0 → s.keyState id ≠ 3 → s.keyState id ≠ 4 →
    s.actKeyload q d =
      ((s.addKey id key).setKeyState id (if (bytes.getD 41 0).toNat / 2 % 2 = 1 then 5 else 1)).finish q d d.status 0 := by
  intro id bytes hid hslot hdesc h3 h4
  have hfits : ¬ ((bytes.getD 40 0).toNat ≠ id ∨ (bytes.getD 41 0).toNat % 2 ≠ d.bits 25 0 1 ∨
      (d.bits 25 0 1 = 0 ∧ (s.keyState id = 3 ∨ s.keyState id = 4))) := by
    rw [hid, hslot, hdesc]
    simp [h3, h4]
  unfold State.actKeyload
  simp only [hscan, hroot, hkey, Bool.false_eq_true, if_false]
  rw [if_neg hfits, if_neg (by rw [hdesc]; decide)]
  rfl
end

section
variable {s : State} {q : Fin 32} {slot : Nat} {d : DescSt}

theorem DescReady.keyLoadFail (h : DescReady s q slot 9 d) : let t := (s.dropUnknown q).keyLoadFail q d
    DescEnds s t q slot d stDenied 0 ∧ t.is F.CRY_STAT_KEYFAIL = true ∧ t.cry = s.cry := by
  obtain ⟨hends, hfail, hcry⟩ := (s.keepsPair_dropUnknown q).keyLoadFail d
  rw [h.slot_eq] at hends
  exact ⟨hends, hfail, hcry.trans ((s.sameButHost_dropUnknown q).observe State.cry fun _ _ _ => rfl)⟩

/-- R375, R436: a key that nothing can unwrap is refused. -/
theorem keyload_rootless (h : DescReady s q slot 9 d) (hno : s.bist.scanned = true ∨ s.fuses.root = none) :
    ∃ t, exec (.keyload q slot) s = .next t ∧ DescEnds s t q slot d stDenied 0 ∧ t.is F.CRY_STAT_KEYFAIL = true ∧
      t.cry = s.cry := by
  have hb := s.sameButHost_dropUnknown q
  have hno' : (s.dropUnknown q).bist.scanned = true ∨ (s.dropUnknown q).fuses.root = none := by
    rw [hb.observe State.bist fun _ _ _ => rfl, hb.observe State.fuses fun _ _ _ => rfl]
    exact hno
  exact ⟨_, congrArg Host.Outcome.next (h.gather.trans (State.actKeyload_rootless _ d hno')), h.keyLoadFail⟩

/-- R375: a key that can be read is installed or refused as it unwraps. -/
theorem keyload_completes (h : DescReady s q slot 9 d) (hscan : s.bist.scanned = false) {root : List (BitVec 32)}
    (hroot : s.fuses.root = some root) : let n := d.bits 24 0 8
    let bytes := d.gathered.flatMap packWord
    let key := Config.unwrap (Config.wrapKey root s.fuses.unit) (bytes.take 40)
    (bytes.getD 40 0).toNat = n → (bytes.getD 41 0).toNat % 2 = 0 → d.bits 25 0 1 = 0 → s.keyState n ≠ 3 → s.keyState n ≠ 4 →
    ∃ t, exec (.keyload q slot) s = .next t ∧
      (key = none → DescEnds s t q slot d stDenied 0 ∧ t.is F.CRY_STAT_KEYFAIL = true ∧ t.cry = s.cry) ∧
      ∀ k, key = some k → DescEnds s t q slot d d.status 0 ∧ SMap.get t.cry.keys none n = some k ∧
        t.keyState n = (if (bytes.getD 41 0).toNat / 2 % 2 = 1 then 5 else 1) := by
  intro n bytes key hid hslot hdesc h3 h4
  let u := s.dropUnknown q
  have hb : s.SameButHost u := s.sameButHost_dropUnknown q
  have hfuses : u.fuses = s.fuses := hb.observe State.fuses fun _ _ _ => rfl
  have hstate : u.keyState n = s.keyState n := hb.observe (State.keyState · n) fun _ _ _ => rfl
  have hscan' : u.bist.scanned = false := by rw [hb.observe State.bist fun _ _ _ => rfl, hscan]
  have hroot' : u.fuses.root = some root := by rw [hfuses, hroot]
  have hexec : exec (.keyload q slot) s = .next (u.actKeyload q d) := congrArg Host.Outcome.next h.gather
  have hunwrap : Config.unwrap (Config.wrapKey root u.fuses.unit) (bytes.take 40) = key := by rw [hfuses]
  rw [← hstate] at h3 h4
  cases hkey : key with
  | none =>
    have hact : u.actKeyload q d = u.keyLoadFail q d := State.actKeyload_unreadable hscan' hroot' (hunwrap.trans hkey)
    exact ⟨u.keyLoadFail q d, by rw [hexec, hact], fun _ => h.keyLoadFail, nofun⟩
  | some k =>
    let st := if (bytes.getD 41 0).toNat / 2 % 2 = 1 then 5 else 1
    let v := (u.addKey n k).setKeyState n st
    have hlast : v.SameButHost (v.finish q d d.status 0) := v.sameButHost_finish q d d.status 0
    have hkeep : s.KeepsPair v q :=
      ((s.keepsPair_dropUnknown q).trans (u.keepsPair_addKey n k q)).trans (State.keepsPair_setKeyState _ n st q)
    have hact : u.actKeyload q d = v.finish q d d.status 0 :=
      State.actKeyload_installs hscan' hroot' (hunwrap.trans hkey) hid hslot hdesc h3 h4
    refine ⟨v.finish q d d.status 0, by rw [hexec, hact], nofun, fun k' hk' => ?_⟩
    obtain rfl := Option.some.inj hk'
    refine ⟨?_, ?_, ?_⟩
    · rw [← h.slot_eq]
      exact hkeep.finish d d.status 0
    · rw [hlast.observe State.cry fun _ _ _ => rfl]
      exact u.get_keys_addKey n k
    · have hst : st % 16 = st := by
        unfold st
        split <;> rfl
      rw [hlast.observe (State.keyState · n) fun _ _ _ => rfl, State.keyState_setKeyState, hst]

end

/-! ## MARK and FENCE (R292, R295) -/

theorem State.get_seqs_post (s : State) (code src arg : Nat) :
    SMap.get (s.post code src arg).seqs 0 src = SMap.get s.seqs 0 src + 1 := by
  have htake (t : State) (e : EvRec) : (t.passTake e).seqs = t.seqs := by
    unfold State.passTake
    split
    · dsimp only
      split
      · rw [State.bump_seqs]
      · rfl
    · rw [State.bump_seqs]
  rw [State.post, htake]
  exact SMap.get_set_same _ _ _ _

section
variable {s : State} {q : Nat} {d : DescSt}

/-- R292: a FENCE whose condition has come completes once it is the oldest. -/
theorem State.settleDesc_fence (hop : d.op = 3) (hout : d.out = 0) (hfail : d.fail = none) (hready : d.ready = true)
    (hold : (s.pairSt q).isOldest d.slot = true) : s.settleDesc q d = s.finish q d d.status 0 := by
  simp [State.settleDesc, hop, hout, hfail, hready, hold]
/-- R295: an ATOMIC completes with the word its answer brought. -/
theorem State.settleDesc_atomic (hop : d.op = 11) (hout : d.out = 0) (hfail : d.fail = none) (hready : d.ready = true) :
    s.settleDesc q d = s.finish q d d.status d.result := by
  simp [State.settleDesc, hop, hout, hfail, hready]

end

/-- Which descriptor is the oldest is said of those in progress while one is. -/
theorem PairSt.isOldest_congr {x y : PairSt} {slot : Nat} {d : DescSt} (h : y.active = x.active) (hfind : x.find slot = some d)
    (k : Nat) : y.isOldest k = x.isOldest k := by
  unfold PairSt.isOldest
  rw [h]
  cases hact : x.active with
  | nil => rw [PairSt.find, hact] at hfind; cases hfind
  | cons e l => rfl

section
variable {s : State} {q : Fin 32} {slot : Nat} {d : DescSt} (h : (s.pairSt q).find slot = some d)
include h

theorem mark_completes (hop : d.op = 12) : ∃ t, exec (.mark q slot) s = .next t ∧ DescEnds s t q slot d stOk s.now ∧
    SMap.get t.seqs 0 80 = SMap.get s.seqs 0 80 + 1 := by
  let u := s.dropUnknown q
  let v := u.post 0x0E0 80 (d.bits 24 0 8)
  have hb : s.SameButHost u := s.sameButHost_dropUnknown q
  have hlast : v.SameButHost (v.finish q d stOk u.now) := v.sameButHost_finish q d stOk u.now
  refine ⟨v.finish q d stOk u.now, congrArg Host.Outcome.next (State.withDesc_of_find h hop), ?_, ?_⟩
  · rw [← PairSt.slot_of_find h, ← hb.now]
    exact ((s.keepsPair_dropUnknown q).trans (u.keepsPair_post q _ _ _)).finish _ _ _
  · rw [hlast.observe State.seqs fun _ _ _ => rfl, State.get_seqs_post, hb.observe State.seqs fun _ _ _ => rfl]

/-- R292: a local FENCE that is the oldest of its pair. -/
theorem fence_completes (hop : d.op = 3) (hold : (s.pairSt q).isOldest slot = true) (hlocal : d.bits 24 0 1 = 0) (hout : d.out = 0)
    (hfail : d.fail = none) : ∃ t, exec (.fence q slot) s = .next t ∧ DescEnds s t q slot d d.status 0 ∧ t.nis = s.nis := by
  let u := s.dropUnknown q
  let e : DescSt := { d with ready := true }
  have hb : s.SameButHost u := s.sameButHost_dropUnknown q
  have hold' : (u.pairSt q).isOldest d.slot = true := by
    rw [PairSt.slot_of_find h, PairSt.isOldest_congr (s.keepsPair_dropUnknown q).active h]
    exact hold
  have hact : u.fenceDesc q d = u.finish q e d.status 0 := by
    have hgo : u.fenceDesc q d = u.settleDesc q e := by simp [State.fenceDesc, hold', hlocal, e]
    rw [hgo]
    exact State.settleDesc_fence (d := e) hop hout hfail rfl hold'
  refine ⟨u.finish q e d.status 0, congrArg Host.Outcome.next ((State.withDesc_of_find h hop).trans hact), ?_, ?_⟩
  · rw [← PairSt.slot_of_find h]
    exact (s.keepsPair_dropUnknown q).finish e d.status 0
  · rw [(u.sameButHost_finish q e d.status 0).observe State.nis fun _ _ _ => rfl, hb.observe State.nis fun _ _ _ => rfl]

end

/-! ## ATOMIC (Table 12-7) -/

section
variable (s : State) (n : Nat)

/-- An NI that puts packets into its router changes NIs and routers alone. -/
theorem State.pumpOne_eq : s.pumpOne n = { s with nis := (s.pumpOne n).nis, routers := (s.pumpOne n).routers } := by
  unfold State.pumpOne
  dsimp only
  split
  · split <;> rfl
  · split
    · rfl
    · split <;> rfl
theorem State.pump_eq : s.pump n = { s with nis := (s.pump n).nis, routers := (s.pump n).routers } := by
  unfold State.pump
  split
  · rfl
  · exact List.foldlRecOn (motive := fun t : State => t = { s with nis := t.nis, routers := t.routers }) _ _ rfl
      fun t ht _ _ => by rw [t.pumpOne_eq n, ht]
theorem State.pairSt_pump (q : Nat) : (s.pump n).pairSt q = s.pairSt q := by
  rw [State.pump_eq]
  rfl

end

/-- R295: an ATOMIC whose answer came completes with the word it brought. -/
theorem atomicDesc_completes {s : State} {q : Fin 32} {slot : Nat} {d : DescSt} (h : (s.pairSt q).find slot = some d)
    (hop : d.op = 11) (hsent : d.rdOff ≠ 0) (hout : d.out = 0) (hfail : d.fail = none) (hready : d.ready = true) :
    ∃ t, exec (.atomicDesc q slot) s = .next t ∧ DescEnds s t q slot d d.status d.result := by
  let u := s.dropUnknown q
  have hact : u.atomicDesc q d = u.finish q d d.status d.result :=
    (if_pos hsent).trans (State.settleDesc_atomic hop hout hfail hready)
  have hends : DescEnds s (u.finish q d d.status d.result) q d.slot d d.status d.result :=
    (s.keepsPair_dropUnknown q).finish d d.status d.result
  refine ⟨(u.atomicDesc q d).pump (pairNi q), congrArg Host.Outcome.next (State.withDesc_of_find h hop), ?_⟩
  rw [PairSt.slot_of_find h] at hends
  rw [hact, DescEnds, State.pairSt_pump]
  exact hends

/-! ## SNAP (R168) -/

/-- R168: a field is asked for its snapshot if the map names it and it is configured. -/
theorem State.fld_askSnapshots (s : State) (map f : Nat) :
    (s.askSnapshots map).fld f =
      if f ∈ allFields.filter (fun g => bitOf g map && s.configured g) then { s.fld f with snapWait := true } else s.fld f := by
  unfold State.askSnapshots State.forEach
  generalize allFields.filter (fun g => bitOf g map && s.configured g) = l
  induction l generalizing s with
  | nil => rfl
  | cons g l ih =>
    rw [List.foldl_cons, ih]
    by_cases hfg : f = g
    · subst hfg
      simp
    · simp [State.fld_setFld_other _ _ _ hfg, List.mem_cons, hfg]

section
variable {s : State} {q : Fin 32} {slot : Nat} {d : DescSt} (h : (s.pairSt q).find slot = some d) (hop : d.op = 6)
include h hop

theorem snap_asks (hready : d.ready = false) : ∃ t, exec (.snap q slot) s = .next t ∧
    (∀ f < 24, bitOf f (d.bits 24 0 24) = true → s.configured f = true → (t.fld f).snapWait = true) ∧
    (∀ f, bitOf f (d.bits 24 0 24) = false ∨ s.configured f = false → t.fld f = s.fld f) := by
  let u := s.dropUnknown q
  let v := u.askSnapshots (d.bits 24 0 24)
  have hb : s.SameButHost u := s.sameButHost_dropUnknown q
  have hact : u.snapDesc q d = v.keepDesc q { d with ready := true } := if_pos (by rw [hready]; rfl)
  have hconf (f : Nat) : u.configured f = s.configured f := hb.observe (State.configured · f) fun _ _ _ => rfl
  have hfld (f : Nat) : u.fld f = s.fld f := hb.observe (State.fld · f) fun _ _ _ => rfl
  refine ⟨v.keepDesc q { d with ready := true }, congrArg Host.Outcome.next ((State.withDesc_of_find h hop).trans hact),
    fun f hf hbit hcf => ?_, fun f hno => ?_⟩
  · show (v.fld f).snapWait = true
    have hin : f ∈ allFields.filter fun g => bitOf g (d.bits 24 0 24) && u.configured g :=
      List.mem_filter.mpr ⟨List.mem_range.mpr hf, by rw [hbit, hconf, hcf]; rfl⟩
    rw [State.fld_askSnapshots, if_pos hin]
  · show v.fld f = s.fld f
    have hout : f ∉ allFields.filter fun g => bitOf g (d.bits 24 0 24) && u.configured g := by
      rw [List.mem_filter, hconf]
      rcases hno with hno | hno <;> simp [hno]
    rw [State.fld_askSnapshots, if_neg hout, hfld]

theorem snap_completes (hready : d.ready = true)
    (hdone : ∀ f ∈ s.snapFields d, (s.fld f).snapWait = false ∧ s.is (F.FLD_SNAPSTAT_DRAIN f) = false) :
    ∃ t, exec (.snap q slot) s = .next t ∧
      DescEnds s t q slot d stOk (BitVec.ofNat 48 ((s.snapFields d).foldl (fun m f => max m (s.fld f).snapTick) 0)) := by
  let u := s.dropUnknown q
  have hb : s.SameButHost u := s.sameButHost_dropUnknown q
  have hfields : u.snapFields d = s.snapFields d := hb.observe (State.snapFields · d) fun _ _ _ => rfl
  have hfld (f : Nat) : u.fld f = s.fld f := hb.observe (State.fld · f) fun _ _ _ => rfl
  have hall : ((s.snapFields d).all fun f => !(s.fld f).snapWait && !u.is (F.FLD_SNAPSTAT_DRAIN f)) = true :=
    List.all_eq_true.mpr fun f hf => by
      obtain ⟨hwait, hdrain⟩ := hdone f hf
      rw [hwait, hb.observe (State.is · (F.FLD_SNAPSTAT_DRAIN f)) fun _ _ _ => rfl, hdrain]
      rfl
  have hact : u.snapDesc q d =
      u.finish q d stOk (BitVec.ofNat 48 ((s.snapFields d).foldl (fun m f => max m (s.fld f).snapTick) 0)) := by
    simp only [State.snapDesc, hready, hfields, hfld, hall, Bool.not_true, Bool.false_eq_true, if_false, if_true]
  refine ⟨_, congrArg Host.Outcome.next ((State.withDesc_of_find h hop).trans hact), ?_⟩
  rw [← PairSt.slot_of_find h]
  exact (s.keepsPair_dropUnknown q).finish _ _ _

end

/-! ## RENEW (R381) -/

/-- R381: a renewal of region r to key n takes the registers. -/
def State.renewRegs (s : State) (r n : Nat) (stw : Bool) : State :=
  ((s.setKeyState n 3).setReg R.CRY_RN
    (2 ^ 31 + 2 ^ 30 * bit stw + 2 ^ 18 * r + 2 ^ 6 * n + s.get (F.MIG_REGION_CTL_KEYID r))).setPair
      R.CRY_RPTR_LO R.CRY_RPTR_HI
      (((s.setKeyState n 3).setReg R.CRY_RN
        (2 ^ 31 + 2 ^ 30 * bit stw + 2 ^ 18 * r + 2 ^ 6 * n + s.get (F.MIG_REGION_CTL_KEYID r))).rgnBase r)

section
variable (s : State) (r n rate : Nat) (stw : Bool)

theorem State.is_withCry (f : Fld) (c : CrySt) : ({ s with cry := c } : State).is f = s.is f := rfl
theorem State.cry_renewRegs : (s.renewRegs r n stw).cry = s.cry := rfl

theorem State.renewStart_eq : s.renewStart r n rate stw =
    if s.encrypted r && (s.keyState n == 1 || s.keyState n == 2) && n != s.get (F.MIG_REGION_CTL_KEYID r) &&
        !s.is F.CRY_RN_ACTIVE && s.domainOn 40 then
      some { s.renewRegs r n stw with cry := { s.cry with renewFor := none, renewed := 0, rate := rate } }
    else none := by
  rw [State.renewStart, ← State.cry_renewRegs s r n stw, State.renewRegs]

end

section
variable {s : State} {r n rate : Nat}

theorem State.renewStart_none {stw : Bool}
    (h : s.encrypted r = false ∨ s.is F.CRY_RN_ACTIVE = true ∨ s.get (F.MIG_REGION_CTL_KEYID r) = n) :
    s.renewStart r n rate stw = none := by
  rw [State.renewStart_eq, if_neg]
  rcases h with h | h | h <;> simp [h]

theorem State.active_renewRegs {stw : Bool} (hr : r < 256) (hn : n < 256) : (s.renewRegs r n stw).is F.CRY_RN_ACTIVE = true := by
  have hold : s.get (F.MIG_REGION_CTL_KEYID r) < 2 ^ 6 := bitsOf_lt _ _ _
  have hstw : bit stw ≤ 1 := by cases stw <;> decide
  have hreg : (s.renewRegs r n stw).reg R.CRY_RN =
      (2 ^ 31 + 2 ^ 30 * bit stw + 2 ^ 18 * r + 2 ^ 6 * n + s.get (F.MIG_REGION_CTL_KEYID r)) % 2 ^ 32 := by
    rw [State.renewRegs, State.reg_setPair_other _ _ (by decide) (by decide), State.reg_setReg]
  have hget : (s.renewRegs r n stw).get F.CRY_RN_ACTIVE = bitsOf 31 1 ((s.renewRegs r n stw).reg R.CRY_RN) := rfl
  have hone : (s.renewRegs r n stw).get F.CRY_RN_ACTIVE = 1 := by
    rw [hget, hreg, bitsOf]
    omega
  rw [State.is, hone]
  rfl

/-- R381: a renewal that may start is ACTIVE from then on. -/
theorem State.renewStart_some {stw : Bool} (hr : r < 256) (hn : n < 256) (henc : s.encrypted r = true)
    (hidle : s.is F.CRY_RN_ACTIVE = false) (hkey : s.get (F.MIG_REGION_CTL_KEYID r) ≠ n) (hon : s.domainOn 40 = true)
    (hst : s.keyState n = 1 ∨ s.keyState n = 2) : ∃ t, s.renewStart r n rate stw = some t ∧ t.is F.CRY_RN_ACTIVE = true ∧
      t.cry = { s.cry with renewFor := none, renewed := 0, rate := rate } := by
  refine ⟨{ s.renewRegs r n stw with cry := { s.cry with renewFor := none, renewed := 0, rate := rate } }, ?_,
    (State.is_withCry _ _ _).trans (State.active_renewRegs hr hn), rfl⟩
  rw [State.renewStart_eq, if_pos]
  simp [henc, hst, hkey.symm, hidle, hon]

/-- R381: the descriptor of a renewal that starts stays in progress. -/
theorem State.renewDesc_some {t : State} {q slot : Nat} {d : DescSt} (hready : d.ready = false)
    (hstart : s.renewStart (d.bits 24 0 8) (d.bits 25 0 8) (d.bits 26 0 16) false = some t) :
    s.renewDesc q slot d =
      ({ t with cry := { t.cry with renewFor := some (q, slot) } } : State).keepDesc q { d with ready := true } := by
  simp only [State.renewDesc, hready, hstart, Bool.false_eq_true, if_false]

end

section
variable {s : State} {q : Fin 32} {slot : Nat} {d : DescSt} (h : (s.pairSt q).find slot = some d) (hop : d.op = 10)
  (hready : d.ready = false)
include h hop hready

theorem renew_denied (hno : s.encrypted (d.bits 24 0 8) = false ∨ s.is F.CRY_RN_ACTIVE = true ∨
      s.get (F.MIG_REGION_CTL_KEYID (d.bits 24 0 8)) = d.bits 25 0 8) : ∃ t, exec (.renew q slot) s = .next t ∧
    DescEnds s t q slot d stDenied 0 ∧ t.cry = s.cry ∧ t.regs = s.regs := by
  let u := s.dropUnknown q
  let v := u.finish q d stDenied 0
  have hb : s.SameButHost u := s.sameButHost_dropUnknown q
  have hv : s.SameButHost v := hb.trans (u.sameButHost_finish q d stDenied 0)
  have hstart : u.renewStart (d.bits 24 0 8) (d.bits 25 0 8) (d.bits 26 0 16) false = none := by
    refine State.renewStart_none ?_
    rw [hb.observe (State.encrypted · (d.bits 24 0 8)) fun _ _ _ => rfl, hb.observe (State.is · F.CRY_RN_ACTIVE) fun _ _ _ => rfl,
      hb.observe (State.get · (F.MIG_REGION_CTL_KEYID (d.bits 24 0 8))) fun _ _ _ => rfl]
    exact hno
  have hact : u.renewDesc q slot d = v := by
    simp only [State.renewDesc, hready, hstart, Bool.false_eq_true, if_false, v]
  refine ⟨v, congrArg Host.Outcome.next ((State.withDesc_of_find h hop).trans hact), ?_,
    hv.observe State.cry fun _ _ _ => rfl, hv.observe State.regs fun _ _ _ => rfl⟩
  rw [← PairSt.slot_of_find h]
  exact (s.keepsPair_dropUnknown q).finish _ _ _

theorem renew_starts (henc : s.encrypted (d.bits 24 0 8) = true) (hidle : s.is F.CRY_RN_ACTIVE = false)
    (hkey : s.get (F.MIG_REGION_CTL_KEYID (d.bits 24 0 8)) ≠ d.bits 25 0 8) (hon : s.domainOn 40 = true)
    (hst : s.keyState (d.bits 25 0 8) = 1 ∨ s.keyState (d.bits 25 0 8) = 2) : ∃ t, exec (.renew q slot) s = .next t ∧
    t.is F.CRY_RN_ACTIVE = true ∧ t.cry = { s.cry with renewFor := some (q.val, slot), renewed := 0, rate := d.bits 26 0 16 } := by
  let u := s.dropUnknown q
  have hb : s.SameButHost u := s.sameButHost_dropUnknown q
  have hcry : u.cry = s.cry := hb.observe State.cry fun _ _ _ => rfl
  rw [← hb.observe (State.encrypted · (d.bits 24 0 8)) fun _ _ _ => rfl] at henc
  rw [← hb.observe (State.is · F.CRY_RN_ACTIVE) fun _ _ _ => rfl] at hidle
  rw [← hb.observe (State.get · (F.MIG_REGION_CTL_KEYID (d.bits 24 0 8))) fun _ _ _ => rfl] at hkey
  rw [← hb.observe (State.domainOn · 40) fun _ _ _ => rfl] at hon
  rw [← hb.observe (State.keyState · (d.bits 25 0 8)) fun _ _ _ => rfl] at hst
  obtain ⟨v, hstart, hactive, hv⟩ := State.renewStart_some (rate := d.bits 26 0 16) (stw := false)
    (bitsOf_lt _ _ _) (bitsOf_lt _ _ _) henc hidle hkey hon hst
  refine ⟨_, congrArg Host.Outcome.next ((State.withDesc_of_find h hop).trans (State.renewDesc_some hready hstart)), hactive, ?_⟩
  show { v.cry with renewFor := some (q.val, slot) } = _
  rw [hv, hcry]

end

/-- Settles O47: each descriptor acts once those without an operation are dropped from its pair; what it does leaves the pair's
descriptors as they are, and its completion joins those that wait. -/
theorem descriptorsComplete : Obligations.DescriptorsComplete := by
  unfold Obligations.DescriptorsComplete
  intro s q slot d n
  refine ⟨slotload_completes, routeload_completes, keyload_rootless, fun h hscan root hroot => keyload_completes h hscan hroot,
    fun h => ⟨mark_completes h, fence_completes h, snap_asks h, snap_completes h, fun hop hready => ⟨?_, ?_⟩, ?_⟩⟩
  · exact renew_denied h hop hready
  · exact renew_starts h hop hready
  · exact atomicDesc_completes h

end Sys2Proof.Machine
end

section
/-! SUPPORT. The bits of CFG.GVALID, and which registers say whether the store is good (R178, R179). -/
namespace Sys2Proof.Machine

/-! ## GVALID -/

section
variable (s : State) (c k : Nat)

/-- A bit of GVALID set: that bit is 1 and the others are as before. -/
theorem State.is_gvalid_raise :
    (s.raise (gvalidBit c)).is (gvalidBit k) = (min k 24 == min c 24 || s.is (gvalidBit k)) := by
  by_cases h : min k 24 = min c 24
  · have hbit : gvalidBit k = gvalidBit c := by rw [gvalidBit, h, gvalidBit]
    rw [hbit, State.is_raise _ (by show min c 24 + 1 ≤ 32; omega) rfl, h, beq_self_eq_true, Bool.true_or]
  · have happart : min c 24 + 1 ≤ min k 24 ∨ min k 24 + 1 ≤ min c 24 := by omega
    rw [State.is, State.raise, State.get_put_disjoint (f := gvalidBit c) (g := gvalidBit k) _ _ rfl happart
      (by show min k 24 + 1 ≤ 32; omega), beq_false_of_ne h, Bool.false_or, State.is]

theorem State.is_gvalid_raises (l : List Nat) : (s.forEach l fun s c => s.raise (gvalidBit c)).is (gvalidBit k) =
    (l.any (fun c => min k 24 == min c 24) || s.is (gvalidBit k)) := by
  unfold State.forEach
  induction l generalizing s with
  | nil => rfl
  | cons a l ih => rw [List.foldl_cons, ih, State.is_gvalid_raise, List.any_cons, Bool.or_left_comm, Bool.or_assoc]

/-- The field codes share no bit. -/
theorem eq_of_gvalid_eq {c k : Nat} (hc : c < 24 ∨ c = 31) (hk : k < 24 ∨ k = 31) (h : min k 24 = min c 24) : c = k := by omega

end

/-! ## The check of the store -/

section
variable {s t : State} (h : ∀ r : RegRef, 0xE0020 ≤ r.off → t.reg r = s.reg r)
include h

theorem State.rgnBase_congr : t.rgnBase = s.rgnBase := funext fun q => by
  rw [State.rgnBase, State.pair, h _ (by show _ ≤ 0x120c04 + 32 * q; omega), h _ (by show _ ≤ 0x120c08 + 32 * q; omega), State.rgnBase,
    State.pair]
theorem State.rgnLimit_congr : t.rgnLimit = s.rgnLimit := funext fun q => by
  rw [State.rgnLimit, State.pair, h _ (by show _ ≤ 0x120c0c + 32 * q; omega), h _ (by show _ ≤ 0x120c10 + 32 * q; omega), State.rgnLimit,
    State.pair]
/-- R347: a region is found by its bounds and its enable. -/
theorem State.regionAt_congr : t.regionAt = s.regionAt := funext fun a => by
  have hctl (q : Nat) : t.is (F.MIG_REGION_CTL_EN q) = s.is (F.MIG_REGION_CTL_EN q) := by
    rw [State.is, State.get, h _ (by show _ ≤ 0x120c00 + 32 * q; omega), State.is, State.get]
  unfold State.regionAt
  rw [State.rgnBase_congr h, State.rgnLimit_congr h]
  simp only [hctl]
theorem State.storeBase_congr : t.storeBase = s.storeBase := by
  rw [State.storeBase, State.pair, h _ (by decide), h _ (by decide), State.storeBase, State.pair]

/-- R178: whether the store is good is read from the registers of its place, of the regions and of the rights. -/
theorem State.storeOk_congr : t.storeOk = s.storeOk := by
  have hget (g : Fld) (hg : 0xE0020 ≤ g.reg.off) : t.get g = s.get g := by rw [State.get, h _ hg, State.get]
  have hcode (q : Nat) : t.is (F.MIG_REGION_CTL_CODE q) = s.is (F.MIG_REGION_CTL_CODE q) := by
    rw [State.is, hget _ (by show _ ≤ 0x120c00 + 32 * q; omega), State.is]
  have hcrypto (q : Nat) : t.get (F.MIG_REGION_CTL_CRYPTO q) = s.get (F.MIG_REGION_CTL_CRYPTO q) :=
    hget _ (by show _ ≤ 0x120c00 + 32 * q; omega)
  have hkey (q : Nat) : t.get (F.MIG_REGION_CTL_KEYID q) = s.get (F.MIG_REGION_CTL_KEYID q) :=
    hget _ (by show _ ≤ 0x120c00 + 32 * q; omega)
  have hread : t.is (F.CRY_RIGHTS_CTL_R 1) = s.is (F.CRY_RIGHTS_CTL_R 1) := by rw [State.is, hget _ (by decide), State.is]
  have hwrite : t.is (F.CRY_RIGHTS_CTL_W 1) = s.is (F.CRY_RIGHTS_CTL_W 1) := by rw [State.is, hget _ (by decide), State.is]
  have hmask : t.maskBit 1 = s.maskBit 1 := funext fun k => by
    rw [State.maskBit, h _ (by decide), h _ (by decide), State.maskBit]
  unfold State.storeOk
  rw [State.rgnBase_congr h, State.rgnLimit_congr h, State.regionAt_congr h, State.storeBase_congr h, hread, hwrite, hmask]
  simp only [hcode, hcrypto, hkey]

end

end Sys2Proof.Machine
end

section
/-! RESULT. O31: STOREEN, GOLDBUILD and the end of a golden build (R178, R179). -/
namespace Sys2Proof.Machine

/-! ## STOREEN -/

section
variable (s : State)

theorem State.storeOk_raise_storeen : (s.raise F.CFG_CTL_STOREEN).storeOk = s.storeOk :=
  State.storeOk_congr fun r hr => State.reg_put_other s 1 (by show r.off ≠ 0xe0000; omega)

theorem State.storeEn_on : s.storeEn true = (s.raise F.CFG_CTL_STOREEN).put F.CFG_STATUS_STOREOK (bit s.storeOk) := by
  rw [State.storeEn, if_pos rfl, State.checkStore, State.storeOk_raise_storeen]

theorem storeen_on : ∃ t, exec (.storeen true) s = .next t ∧ t.is F.CFG_CTL_STOREEN = true ∧
    t.is F.CFG_STATUS_STOREOK = s.storeOk ∧ State.SameStores s t := by
  refine ⟨_, congrArg Host.Outcome.next s.storeEn_on, ?_, ?_, State.put_stays _ _ _ (State.raise_stays _ _ (.refl s))⟩
  · rw [State.is, State.get_put_other _ _ (by decide)]
    exact State.is_raise _ (by decide) rfl
  · rw [State.is, State.get_put _ _ (by decide)]
    cases s.storeOk <;> rfl

theorem storeen_off (hload : s.storeLoad = false) (hbusy : s.is F.CFG_STATUS_GBUSY = false) :
    ∃ t, exec (.storeen false) s = .next t ∧ t.is F.CFG_CTL_STOREEN = false ∧ t.is F.CFG_STATUS_STOREOK = false ∧
      State.SameStores s t := by
  have hoff : s.storeEn false = (s.clear F.CFG_CTL_STOREEN).clear F.CFG_STATUS_STOREOK := by simp [State.storeEn, hload, hbusy]
  refine ⟨_, congrArg Host.Outcome.next hoff, ?_, ?_, State.clear_stays _ _ (State.clear_stays _ _ (.refl s))⟩
  · rw [State.is, State.clear, State.get_put_other _ _ (by decide), State.get_clear _ (by decide)]
    rfl
  · rw [State.is, State.get_clear _ (by decide)]
    rfl

theorem State.storeEn_kept (h : s.storeLoad = true ∨ s.is F.CFG_STATUS_GBUSY = true) : s.storeEn false = s := by
  rcases h with h | h <;> simp [State.storeEn, h]

end

/-! ## GOLDBUILD -/

section
variable (s : State)

theorem State.goldBuild_taken (hload : s.cfg.load = none) (hok : s.is F.CFG_STATUS_STOREOK = true) :
    s.goldBuild = s.raise F.CFG_STATUS_GBUSY := by simp [State.goldBuild, hload, hok]
theorem State.goldBuild_refused (h : s.cfg.load.isSome = true ∨ s.is F.CFG_STATUS_STOREOK = false) : s.goldBuild = s := by
  rcases h with h | h <;> simp [State.goldBuild, h]

end

/-! ## The end of a build -/

section
variable (b : BuildSt) (c n : Nat) (checks : List LineCheck)

/-- A frame without an error is written as it stands. -/
theorem BuildSt.frame_clean : b.frame c n [] checks =
    let w := b.state.putSlot c (b.state.activeSlot c) (128 * n) (b.state.frameWords c n) checks
    { b with state := w.1, unmarked := if w.2 then b.unmarked else b.unmarked ++ [c] } := rfl

variable {s : State}

/-- A build so far that has lost no frame and has used DRAM alone. -/
structure BuildSt.Fine (b : BuildSt) (s : State) : Prop where
  work : State.EngineWork s b.state
  lost : b.lost = []

theorem BuildSt.Fine.frame {b : BuildSt} (h : b.Fine s) : (b.frame c n [] checks).Fine s := by
  rw [BuildSt.frame_clean]
  exact ⟨State.putSlot_workAt _ _ _ _ _ _ h.work, h.lost⟩

variable (s)

theorem State.buildAll_fine : (s.buildAll [] checks).Fine s := by
  have hcode (b : BuildSt) (hb : b.Fine s) (c : Nat) :
      ((List.range (framesOf c)).foldl (fun b n => b.frame c n [] checks) b).Fine s :=
    List.foldlRecOn (motive := (BuildSt.Fine · s)) _ _ hb fun _ h n _ => h.frame c n checks
  exact List.foldlRecOn (motive := (BuildSt.Fine · s)) _ _ ⟨.refl s, rfl⟩ fun b hb c _ => hcode b hb c

/-- R179: the slots that a build without errors marks: those asked for that were written whole. -/
def State.builtSlots (s : State) (b : BuildSt) : List Nat :=
  ((allFields.filter s.configured) ++ (if s.anyConfigured then [31] else [])).filter (!b.unmarked.contains ·)

theorem State.mem_builtSlots {b : BuildSt} {c : Nat} : c ∈ s.builtSlots b ↔
    ((c < 24 ∧ s.configured c = true) ∨ (c = 31 ∧ s.anyConfigured = true)) ∧ b.unmarked.contains c = false := by
  unfold State.builtSlots
  rw [List.mem_filter, List.mem_append, List.mem_filter, Bool.not_eq_true', allFields, List.mem_range]
  have hdev : (c ∈ if s.anyConfigured then [31] else []) ↔ c = 31 ∧ s.anyConfigured = true := by
    cases s.anyConfigured <;> simp
  rw [hdev]

variable {s}

theorem State.goldBuilt_eq (hbusy : s.is F.CFG_STATUS_GBUSY = true) (hvalley : s.mode.ov.valley = false)
    (hsafe : s.mode.ov.safeHold = false) (hfreeze : s.mode.ov.freeze = false) : s.goldBuilt [] checks =
    let b := (s.clear F.CFG_STATUS_GBUSY).buildAll [] checks
    b.state.forEach (s.builtSlots b) fun s c => s.raise (gvalidBit c) := by
  have hlost : ((s.clear F.CFG_STATUS_GBUSY).buildAll [] checks).lost = [] := (State.buildAll_fine _ _).lost
  simp only [State.goldBuilt, State.builtSlots, hbusy, hvalley, hsafe, hfreeze, hlost, List.foldl_nil, Bool.not_true,
    Bool.or_self, Bool.false_eq_true, if_false]

end

/-- R179: the end of a build without errors marks the slots it wrote, and changes nothing else but DRAM. -/
theorem goldbuildDone_marks {s : State} (hbusy : s.is F.CFG_STATUS_GBUSY = true) (hvalley : s.mode.ov.valley = false)
    (hsafe : s.mode.ov.safeHold = false) (hfreeze : s.mode.ov.freeze = false) (checks : List LineCheck) :
    let b := (s.clear F.CFG_STATUS_GBUSY).buildAll [] checks
    let asked (c : Nat) : Prop := (c < 24 ∧ s.configured c = true) ∨ (c = 31 ∧ s.anyConfigured = true)
    ∃ t, exec (.goldbuildDone [] checks) s = .next t ∧ t.is F.CFG_STATUS_GBUSY = false ∧ t.images = s.images ∧ t.mode = s.mode ∧
      t.drams = b.state.drams ∧ (∀ c, asked c → b.unmarked.contains c = false → t.is (gvalidBit c) = true) ∧
      (∀ c, (c < 24 ∨ c = 31) → (¬ asked c ∨ b.unmarked.contains c = true) → t.is (gvalidBit c) = s.is (gvalidBit c)) := by
  intro b asked
  have hwork : State.EngineWork (s.clear F.CFG_STATUS_GBUSY) b.state := (State.buildAll_fine _ _).work
  let mark (u : State) (c : Nat) : State := u.raise (gvalidBit c)
  let t := b.state.forEach (s.builtSlots b) mark
  have hkeeps {α : Type} (part : State → α) (h : ∀ u c, part (mark u c) = part u) : part t = part b.state :=
    foldl_keeps part h _ _
  have hbits (c : Nat) : t.is (gvalidBit c) = ((s.builtSlots b).any (fun d => min c 24 == min d 24) || s.is (gvalidBit c)) := by
    have hold : b.state.is (gvalidBit c) = s.is (gvalidBit c) := by
      have hlt : R.CFG_GVALID.off < 0x100000 := by decide
      have hpass : R.CFG_GVALID.off ≠ R.TIME_PASS_STAT.off := by decide
      have hstatus : R.CFG_GVALID.off ≠ R.CFG_STATUS.off := by decide
      rw [State.is, hwork.get hlt hpass, State.clear, State.get_put_other _ _ hstatus, State.is]
    rw [State.is_gvalid_raises, hold]
  refine ⟨t, congrArg Host.Outcome.next (State.goldBuilt_eq checks hbusy hvalley hsafe hfreeze), ?_, ?_, ?_, ?_, ?_, ?_⟩
  · have hstatus (u : State) (c : Nat) : (mark u c).get F.CFG_STATUS_GBUSY = u.get F.CFG_STATUS_GBUSY :=
      State.get_put_other _ _ (by show R.CFG_STATUS.off ≠ R.CFG_GVALID.off; decide)
    rw [State.is, hkeeps (State.get · F.CFG_STATUS_GBUSY) hstatus, hwork.get (by decide) (by decide), State.get_clear _ (by decide)]
    rfl
  · exact (hkeeps State.images fun _ _ => rfl).trans hwork.rest.images
  · exact (hkeeps State.mode fun _ _ => rfl).trans hwork.rest.mode
  · exact hkeeps State.drams fun _ _ => rfl
  · intro c hc hun
    have hany : (s.builtSlots b).any (fun d => min c 24 == min d 24) = true :=
      List.any_eq_true.mpr ⟨c, (State.mem_builtSlots s).mpr ⟨hc, hun⟩, beq_self_eq_true _⟩
    rw [hbits, hany, Bool.true_or]
  · intro c hc hno
    have hnone : (s.builtSlots b).any (fun d => min c 24 == min d 24) = false := by
      refine List.any_eq_false.mpr fun d hd heq => ?_
      obtain ⟨hd, hun⟩ := (State.mem_builtSlots s).mp hd
      obtain rfl := eq_of_gvalid_eq (hd.imp And.left And.left) hc (beq_iff_eq.mp heq)
      rcases hno with hno | hno
      · exact hno hd
      · rw [hun] at hno; cases hno
    rw [hbits, hnone, Bool.false_or]

/-- Settles O31: each command acts where its conditions hold; a build without errors loses no frame. -/
theorem storeAndGoldenBuild : Obligations.StoreAndGoldenBuild := by
  unfold Obligations.StoreAndGoldenBuild
  refine fun s => ⟨storeen_on s, storeen_off s, fun h => congrArg Host.Outcome.next (s.storeEn_kept h),
    fun hload hok => congrArg Host.Outcome.next (s.goldBuild_taken hload hok),
    fun h => congrArg Host.Outcome.next (s.goldBuild_refused h), goldbuildDone_marks, fun hidle errs checks => ?_⟩
  exact congrArg Host.Outcome.next (if_pos (by simp [hidle]))

end Sys2Proof.Machine
end

section
/-! SUPPORT. What noting, answering and beginning to lock leave as they were: configuration memory, the load and its registers
(R30, R180, R184, R251, R271, R424). -/
namespace Sys2Proof.Machine

/-! ## Registers of loads and repairs -/

/-- Registers that say how a load or a repair stands and what follows it: GLB.ERR, GLB.LOCKCFG and the blocks CFG and SCR. -/
def RegRef.ofConfig (r : RegRef) : Bool :=
  r.off == R.GLB_ERR.off || r.off == R.GLB_LOCKCFG.off || decide (0xE0000 ≤ r.off ∧ r.off < 0xE2000)

theorem RegRef.ofConfig_iff {r : RegRef} : r.ofConfig = true ↔
    r.off = 0x1000c ∨ r.off = 0x10018 ∨ (0xE0000 ≤ r.off ∧ r.off < 0xE2000) := by
  simp [RegRef.ofConfig, R.GLB_ERR, R.GLB_LOCKCFG, or_assoc]

theorem RegRef.off_ne_of_ofConfig {r x : RegRef} (hr : r.ofConfig = true) (hx : x.ofConfig = false) : r.off ≠ x.off := by
  intro h
  rw [RegRef.ofConfig, h, ← RegRef.ofConfig, hx] at hr
  cases hr

/-- The steward, the bridge and the time base apart, a step that notes something: stores, modes and the registers of loads and
repairs stay. -/
structure State.Notes (s t : State) : Prop where
  rest : t = { s with
    regs := t.regs, time := t.time, seqs := t.seqs, pass := t.pass, log := t.log, host := t.host, hostOut := t.hostOut
    power := t.power }
  regs : ∀ r : RegRef, r.ofConfig = true → t.reg r = s.reg r

section
variable {s t u : State}

theorem State.Notes.refl (s : State) : s.Notes s := ⟨rfl, fun _ _ => rfl⟩
theorem State.Notes.trans (h : s.Notes t) (g : t.Notes u) : s.Notes u := by
  refine ⟨?_, fun r hr => (g.regs r hr).trans (h.regs r hr)⟩
  have hg := g.rest
  rw [h.rest] at hg
  exact hg
theorem State.Notes.mode (h : s.Notes t) : t.mode = s.mode := by rw [h.rest]
theorem State.Notes.images (h : s.Notes t) : t.images = s.images := by rw [h.rest]
theorem State.Notes.cfg (h : s.Notes t) : t.cfg = s.cfg := by rw [h.rest]
theorem State.Notes.cells (h : s.Notes t) : t.cells = s.cells := by rw [h.rest]
theorem State.Notes.bmem (h : s.Notes t) : t.bmem = s.bmem := by rw [h.rest]
theorem State.Notes.get (h : s.Notes t) {g : Fld} (hg : g.reg.ofConfig = true) : t.get g = s.get g := by
  rw [State.get, h.regs _ hg, State.get]
theorem State.Notes.is (h : s.Notes t) {g : Fld} (hg : g.reg.ofConfig = true) : t.is g = s.is g := by
  rw [State.is, h.get hg, State.is]

theorem State.Notes.setReg (h : s.Notes t) {r : RegRef} (hr : r.ofConfig = false) (v : Nat) : s.Notes (t.setReg r v) :=
  h.trans ⟨rfl, fun _ hx => State.reg_setReg_other _ _ (RegRef.off_ne_of_ofConfig hx hr)⟩
theorem State.Notes.put (h : s.Notes t) {f : Fld} (hf : f.reg.ofConfig = false) (v : Nat) : s.Notes (t.put f v) :=
  State.Notes.setReg h hf _
theorem State.Notes.raise (h : s.Notes t) {f : Fld} (hf : f.reg.ofConfig = false) : s.Notes (t.raise f) := h.put hf 1
theorem State.Notes.withTime (h : s.Notes t) (x : TimeSt) : s.Notes { t with time := x } :=
  h.trans ⟨rfl, fun _ _ => rfl⟩
theorem State.Notes.withPower (h : s.Notes t) (x : PowerSt) : s.Notes { t with power := x } :=
  h.trans ⟨rfl, fun _ _ => rfl⟩

theorem State.Notes.post (h : s.Notes t) (code src arg : Nat) : s.Notes (t.post code src arg) := by
  refine h.trans ⟨?_, fun r hr => State.reg_post_other _ _ _ _ _ (RegRef.off_ne_of_ofConfig hr (x := R.TIME_PASS_STAT) (by decide))⟩
  unfold State.post State.passTake
  dsimp only
  split
  · split <;> rfl
  · rfl
theorem State.Notes.logEntry (h : s.Notes t) (code src arg detail : Nat) : s.Notes (t.logEntry code src arg detail) := by
  refine h.trans ⟨?_, fun r _ => State.reg_logEntry _ _ _ _ _ _⟩
  unfold State.logEntry
  split <;> rfl
theorem State.Notes.interrupt (h : s.Notes t) (n : Nat) : s.Notes (t.interrupt n) := by
  unfold State.interrupt
  dsimp only
  split
  · exact h
  · split
    · refine h.put ?_ 1
      rw [Bool.eq_false_iff, Ne, RegRef.ofConfig_iff]
      show ¬ (0x78000 + 4 * (_ % 64 / 32) = 0x1000c ∨ 0x78000 + 4 * (_ % 64 / 32) = 0x10018 ∨
        0xE0000 ≤ 0x78000 + 4 * (_ % 64 / 32) ∧ 0x78000 + 4 * (_ % 64 / 32) < 0xE2000)
      omega
    · exact h.trans ⟨rfl, fun _ _ => rfl⟩
/-- R30: a transition or a rejection is noted. -/
theorem State.Notes.noteMode (h : s.Notes t) (old new : Mode) (c : Cause) (lost flags req : Nat) :
    s.Notes (t.noteMode old new c lost flags req) := by
  have hnote := ((h.setReg (r := R.GLB_TRANS) (by decide) (old.code + 16 * new.code + 256 * c.code + 2 ^ 23 * bit (flags != 0))).logEntry
    0x0001 92 (16 * old.code + new.code + 256 * c.code + 65536 * (lost % 2 ^ 48)) (flags + 256 * req)).post 0x001 92
    (16 * old.code + new.code)
  unfold State.noteMode
  dsimp only
  split
  · exact hnote.interrupt 34
  · exact hnote
/-- What the bridge alone has changed. -/
theorem State.SameButHost.notes (h : s.SameButHost t) : s.Notes t := by
  refine ⟨?_, fun r _ => h.observe (State.reg · r) fun _ _ _ => rfl⟩
  rw [h]

end

/-- A transition changes the mode, and is noted. -/
theorem State.notes_enterMode (s : State) (m : ModeSt) (c : Cause) : State.Notes { s with mode := m } (s.enterMode m c) :=
  State.Notes.noteMode (.refl _) _ _ _ _ _ _
theorem State.mode_enterMode (s : State) (m : ModeSt) (c : Cause) : (s.enterMode m c).mode = m := (s.notes_enterMode m c).mode

/-- R180: the answer to the descriptor of a load. -/
theorem State.Notes.loadReply {s t : State} (h : s.Notes t) (l : LoadSt) (status code : Nat) : s.Notes (t.loadReply l status code) := by
  unfold State.loadReply
  split
  · split
    · exact h.trans (t.sameButHost_finish _ _ _ _).notes
    · exact h
  · exact h

/-! ## LOCKING begins -/

section
variable {s t : State} (h : s.Notes t)
include h

theorem State.Notes.setPoints (v f : Nat) : s.Notes (t.setPoints v f) :=
  ((h.put (f := F.PWR_OPSTAT_OPV) (by decide) v).put (f := F.PWR_OPSTAT_OPF) (by decide) f).put (f := F.PWR_OPSTAT_OPCUR) (by decide) _
theorem State.Notes.command (v : Nat) : s.Notes (t.command v) := (h.setPoints v _).withPower _
/-- R403: a change of the operating point begins. -/
theorem State.Notes.opBegin (j : Nat) : s.Notes (t.opBegin j) := by
  have hbusy : s.Notes (State.raise { t with power := { t.power with old := t.get F.PWR_OPSTAT_OPV } } F.PWR_OPSTAT_BUSY) :=
    (h.withPower _).raise (by decide)
  unfold State.opBegin
  dsimp only
  split
  · exact (hbusy.command j).withPower _
  · split
    · have hlower := ((hbusy.setPoints (t.get F.PWR_OPSTAT_OPV) j).command j).withPower
      split
      · exact (hlower _).post _ _ _
      · exact hlower _
    · exact h.withPower _
theorem State.Notes.opRequest (j : Nat) : s.Notes (t.opRequest j) := by
  unfold State.opRequest
  split
  · exact h.raise (by decide)
  · split
    · exact (h.raise (f := F.PWR_OPSTAT_HELD) (by decide)).put (f := F.PWR_OPSTAT_HELDOP) (by decide) j
    · exact h.opBegin j
theorem State.Notes.lockRaise : s.Notes t.lockRaise := by
  unfold State.lockRaise
  dsimp only
  split
  · exact h.opRequest _
  · exact h

end

/-- R251: steps of LOCKING: what runs and what waits may change in the mode, but neither its base nor an overlay. -/
structure State.Locks (s t : State) : Prop where
  notes : State.Notes { s with mode := t.mode } t
  base : t.mode.base = s.mode.base
  ov : t.mode.ov = s.mode.ov

section
variable {s t : State}

theorem State.Notes.locks (h : s.Notes t) : s.Locks t := by
  refine ⟨?_, by rw [h.mode], by rw [h.mode]⟩
  rw [h.mode]
  exact h
theorem State.Notes.lockDone (h : s.Notes t) (raw number : Nat) : s.Locks (t.lockDone raw number) := by
  have hvalid : s.Notes (t.raise F.TIME_STATUS_VALID) := h.raise (by decide)
  refine ⟨⟨?_, hvalid.regs⟩, (congrArg ModeSt.base h.mode : t.mode.base = _), (congrArg ModeSt.ov h.mode : t.mode.ov = _)⟩
  unfold State.lockDone
  dsimp only
  rw [hvalid.rest]
theorem State.Notes.lockRestart (h : s.Notes t) : s.Notes t.lockRestart := h.withTime _
/-- R256: the grid is placed, or LOCKING restarts. -/
theorem State.Notes.placeGrid (h : s.Notes t) : s.Locks t.placeGrid := by
  unfold State.placeGrid
  dsimp only
  split
  · exact h.lockDone _ _
  · split
    · exact ((h.raise (f := F.TIME_ERR_GRIDOLD) (by decide)).lockRestart).locks
    · split
      · exact ((h.raise (f := F.TIME_ERR_GRIDMIS) (by decide)).lockRestart).locks
      · exact h.lockDone _ _
theorem State.Notes.lockBegin (h : s.Notes t) : s.Locks t.lockBegin := by
  unfold State.lockBegin State.lockSettled
  split
  · split
    · exact h.locks
    · split
      · split
        · exact (h.withTime _).locks
        · exact h.placeGrid
      · exact h.lockRestart.locks
  · exact h.locks

variable (s)

/-- R184, R251: LOCKING begins. -/
theorem State.locks_enterLocking (c : Cause) :
    State.Locks { s with mode := { s.mode with base := .locking } } (s.enterLocking c) :=
  (s.notes_enterMode { s.mode with base := .locking } c).lockRaise.lockBegin

end

end Sys2Proof.Machine
end

section
/-! SUPPORT. FREEZE (R25, R27): the mode is that of the transition, whatever links, channels and the renewal do as they stop. -/
namespace Sys2Proof.Machine

/-! ## What leaves the mode as it is -/

section
variable (s : State)

theorem State.mode_ite {c : Prop} [Decidable c] {a b : State} {m : ModeSt} (ha : a.mode = m) (hb : b.mode = m) :
    (if c then a else b).mode = m := by split <;> assumption

theorem State.mode_post (code src arg : Nat) : (s.post code src arg).mode = s.mode := ((State.Notes.refl s).post _ _ _).mode
theorem State.mode_logEntry (code src arg detail : Nat) : (s.logEntry code src arg detail).mode = s.mode :=
  ((State.Notes.refl s).logEntry _ _ _ _).mode
theorem State.mode_postLog (code src arg : Nat) : (s.postLog code src arg).mode = s.mode :=
  (State.mode_post _ _ _ _).trans (s.mode_logEntry _ _ _ _)
/-- What the configuration engine does with DRAM changes no mode. -/
theorem State.EngineWork.mode {s t : State} (h : State.EngineWork s t) : t.mode = s.mode := h.rest.mode

/-! ## Links -/

theorem State.mode_reply (n : Nat) (c : Carriage) (pkt : List Carriage) : (s.reply n c pkt).mode = s.mode := by
  rw [State.reply, State.pump_eq, State.setNi_mode]
theorem State.mode_replyFail (n : Nat) (pkt : List Carriage) (status : Nat) : (s.replyFail n pkt status).mode = s.mode :=
  State.mode_reply _ _ _ _
theorem State.mode_portDown (p fail : Nat) : (s.portDown p fail).mode = s.mode := by
  have hfwd (u : State) (l : List (Nat × List Carriage)) :
      (l.foldl (fun s e => s.replyFail (82 + p) e.2 stTimeout) u).mode = u.mode :=
    foldl_keeps State.mode (fun _ _ => State.mode_replyFail _ _ _ _) l u
  unfold State.portDown
  refine State.mode_ite rfl ?_
  rw [State.mode_postLog, State.bump_mode, State.put_mode, State.put_mode, State.put_mode, hfwd, State.setPort_mode]
  exact State.mode_ite rfl rfl
theorem State.mode_linkSend (p : Nat) (b : LinkBlock) : (s.linkSend p b).mode = s.mode := State.mode_ite rfl rfl
theorem State.mode_linksFrozen : s.linksFrozen.mode = s.mode := by
  have hdown : (s.portsDown (List.range 6)).mode = s.mode := foldl_keeps State.mode (fun u p => u.mode_portDown p 7) _ s
  exact (foldl_keeps State.mode (fun u p => State.mode_ite (u.mode_linkSend p _) rfl) _ _).trans hdown

/-! ## Channels that enter self-refresh (Table 14-6) -/

theorem State.mode_portDone (c : Nat) (r : DramReq) : (s.portDone c r).mode = s.mode := by
  have hpeak (f : Fld) (v : Nat) : (s.peak f v).mode = s.mode := State.put_mode _ _ _
  unfold State.portDone
  extract_lets a u v x
  have hv : v.mode = s.mode := (State.bump_mode _ _ _).trans (hpeak _ _)
  split
  · exact hpeak _ _
  · exact State.mode_ite (hpeak _ _) (State.mode_ite ((State.mode_post _ _ _ _).trans ((State.setDram_mode _ _ _).trans hv)) hv)
theorem State.mode_answerReady (c : Nat) : (s.answerReady c).mode = s.mode := by
  unfold State.answerReady
  refine foldl_keeps State.mode (fun (u : State) (r : DramReq) => ?_) _ s
  extract_lets x v
  have hv : v.mode = u.mode := State.setDram_mode _ _ _
  refine State.mode_ite ((State.mode_reply _ _ _ _).trans ?_) rfl
  exact State.mode_ite hv ((State.mode_portDone v c r).trans hv)
theorem State.mode_confirmAll (c : Nat) : (s.confirmAll c).mode = s.mode := State.mode_answerReady _ c
theorem State.mode_flushGroup (c g : Nat) : (s.flushGroup c g).mode = s.mode := by
  unfold State.flushGroup
  dsimp only
  split <;> rfl
theorem ReadRes.mode_ite {c : Prop} [Decidable c] {a b : ReadRes} {m : ModeSt} (ha : a.state.mode = m) (hb : b.state.mode = m) :
    (if c then a else b).state.mode = m := by split <;> assumption
theorem State.mode_serveRead (c : Nat) (r : DramReq) (i : Nat) (checks : List LineCheck) :
    (s.serveRead c r i checks).mode = s.mode := by
  unfold State.serveRead
  dsimp only
  rw [State.setDram_mode]
  exact ReadRes.mode_ite rfl (State.EngineWork.mode (State.readData_workAt _ _ _ _ _ _ _ _ _ (.refl s)))
theorem State.mode_serveWrite (c : Nat) (r : DramReq) (i : Nat) (checks : List LineCheck) :
    (s.serveWrite c r i checks).mode = s.mode := by
  unfold State.serveWrite
  dsimp only
  have hwrite (l a : Nat) (g : LineRgn) (full : Bool) (needs : BitVec 16) (upd : List Word → Option (List Word)) (w : DramWho) :
      (s.writeData c l a g full needs upd checks w).state.mode = s.mode :=
    State.EngineWork.mode (State.writeData_workAt _ _ _ _ _ _ _ _ _ _ (.refl s))
  refine State.mode_ite ?_ ?_
  · rw [State.put_mode, State.setDram_mode, hwrite]
  · rw [State.setDram_mode, hwrite]
theorem State.mode_serveLine (c id i : Nat) (checks : List LineCheck) : (s.serveLine c id i checks).mode = s.mode := by
  unfold State.serveLine
  split
  · rfl
  · exact State.mode_ite (State.mode_serveRead _ _ _ _ _) (State.mode_serveWrite _ _ _ _ _)
theorem State.mode_serveAll (c : Nat) (ids : List Nat) : (s.serveAll c ids).mode = s.mode := by
  have hline (r : DramReq) (v : State) (i : Nat) : ((v.serveLine c r.id i []).confirmAll c).mode = v.mode :=
    (State.mode_confirmAll _ c).trans (v.mode_serveLine c r.id i [])
  unfold State.serveAll
  refine foldl_keeps State.mode (fun (u : State) (r : DramReq) => ?_) _ s
  exact State.mode_ite (foldl_keeps State.mode (hline r) _ u) rfl
theorem State.mode_writeGroups (c : Nat) : (s.writeGroups c).mode = s.mode :=
  (State.mode_serveAll _ _ _).trans (foldl_keeps State.mode (fun u g => u.mode_flushGroup c g) _ s)
theorem State.mode_dramSleep (c : Nat) : (s.dramSleep c).mode = s.mode := by
  have hspill (u : State) (l : List Nat) : (u.forEach l fun s ml =>
      if s.channelOf ml = c then (s.spillMeta ml []).confirmAll c else s).mode = u.mode :=
    foldl_keeps State.mode (fun v ml => State.mode_ite ((State.mode_confirmAll _ c).trans
      (State.EngineWork.mode (State.spillMeta_work _ _ _ (.refl v)))) rfl) l u
  have hwritten : ((s.confirmAll c).writeGroups c).mode = s.mode := (State.mode_writeGroups _ c).trans (s.mode_confirmAll c)
  unfold State.dramSleep
  refine State.mode_ite rfl ?_
  rw [State.raise_mode, State.put_mode, State.setDram_mode, State.mode_confirmAll]
  exact State.mode_ite hwritten ((hspill _ _).trans hwritten)

theorem State.mode_endRenewal : s.endRenewal.mode = s.mode := by
  unfold State.endRenewal
  refine State.mode_ite ?_ rfl
  extract_lets n named u
  have hu : u.mode = s.mode := State.mode_ite rfl (State.put_mode _ _ _)
  have hclear : (u.clear F.CRY_RN_ACTIVE).mode = u.mode := State.clear_mode _ _
  exact hclear.trans hu

/-! ## FREEZE -/

theorem State.mode_dramSleeps (cs : List Nat) : (s.forEach cs State.dramSleep).mode = s.mode :=
  foldl_keeps State.mode State.mode_dramSleep cs s

end

/-- R25: FREEZE is active after a fatal error, but under SAFE-HOLD. -/
theorem State.freeze_enterFreeze {s : State} (h : s.mode.ov.safeHold = false) : s.enterFreeze.mode.ov.freeze = true := by
  unfold State.enterFreeze
  split
  · next hfreeze => exact hfreeze
  · rw [if_neg (by rw [h]; exact Bool.false_ne_true)]
    extract_lets x m o y
    have hmode : (y.linksFrozen.forEach (List.range 8) State.dramSleep).endRenewal.mode = y.mode :=
      (State.mode_endRenewal _).trans ((State.mode_dramSleeps _ _).trans (State.mode_linksFrozen _))
    have hy : y.mode = { m with ov := { m.ov with freeze := true } } := State.mode_enterMode _ _ _
    rw [hmode, hy]

end Sys2Proof.Machine
end

section
/-! SUPPORT. What a detection in a field leaves as it was: images, the repair queue and the registers of repairs (R164 to R166, R193,
R196). -/
namespace Sys2Proof.Machine

/-- Images, the repair queue and the registers of loads and repairs are those of before. -/
structure State.KeepsRepairs (s t : State) : Prop where
  images : t.images = s.images
  repairs : t.cfg.repairs = s.cfg.repairs
  regs : ∀ r : RegRef, r.ofConfig = true → t.reg r = s.reg r

/-- The registers of the fields are none of loads and repairs. -/
theorem RegRef.ofConfig_fld {r : RegRef} (h : 0xC0000 ≤ r.off) (hlt : r.off < 0xE0000) : r.ofConfig = false := by
  rw [Bool.eq_false_iff, Ne, RegRef.ofConfig_iff]
  omega
theorem RegRef.ofConfig_protstat {f : Nat} (hf : f < 24) : (R.FLD_PROTSTAT f).ofConfig = false :=
  RegRef.ofConfig_fld (by show 0xC0000 ≤ 0xc0094 + 4096 * f; omega) (by show 0xc0094 + 4096 * f < 0xE0000; omega)
theorem RegRef.ofConfig_pcnt {f : Nat} (hf : f < 24) : (R.FLD_PCNT f).ofConfig = false :=
  RegRef.ofConfig_fld (by show 0xC0000 ≤ 0xc0098 + 4096 * f; omega) (by show 0xc0098 + 4096 * f < 0xE0000; omega)

section
variable {s t u : State}

theorem State.KeepsRepairs.refl (s : State) : s.KeepsRepairs s := ⟨rfl, rfl, fun _ _ => rfl⟩
theorem State.KeepsRepairs.trans (h : s.KeepsRepairs t) (g : t.KeepsRepairs u) : s.KeepsRepairs u :=
  ⟨g.images.trans h.images, g.repairs.trans h.repairs, fun r hr => (g.regs r hr).trans (h.regs r hr)⟩
theorem State.KeepsRepairs.get (h : s.KeepsRepairs t) {g : Fld} (hg : g.reg.ofConfig = true) : t.get g = s.get g := by
  rw [State.get, h.regs _ hg, State.get]
theorem State.Notes.keepsRepairs (h : s.Notes t) : s.KeepsRepairs t := ⟨h.images, congrArg _ h.cfg, h.regs⟩
theorem State.KeepsRepairs.put (h : s.KeepsRepairs t) {f : Fld} (hf : f.reg.ofConfig = false) (v : Nat) : s.KeepsRepairs (t.put f v) :=
  h.trans ((State.Notes.refl t).put hf v).keepsRepairs
theorem State.KeepsRepairs.postLog (h : s.KeepsRepairs t) (code src arg detail code' src' arg' : Nat) :
    s.KeepsRepairs ((t.logEntry code src arg detail).post code' src' arg') :=
  h.trans (((State.Notes.refl t).logEntry _ _ _ _).post _ _ _).keepsRepairs
theorem State.KeepsRepairs.forEach {g : State → Nat → State} (hg : ∀ (s : State) (a : Nat), s.KeepsRepairs (g s a)) (l : List Nat)
    (s : State) : s.KeepsRepairs (s.forEach l g) :=
  List.foldlRecOn (motive := s.KeepsRepairs) l g (.refl s) fun t ht a _ => ht.trans (hg t a)

end

section
variable (s : State) (f : Nat)

theorem State.keepsRepairs_setFld (x : FieldSt) : s.KeepsRepairs (s.setFld f x) := ⟨rfl, rfl, fun _ _ => rfl⟩
theorem State.keepsRepairs_rewindQueue (j : Nat) : s.KeepsRepairs (s.rewindQueue f j) := by
  have hwords : s.KeepsRepairs ((s.queue (memKey f j)).wbuf.foldl (fun s e => s.setWord (memKey f j) e.1 e.2) s) :=
    List.foldlRecOn (motive := s.KeepsRepairs) _ _ (.refl s) fun t ht e _ => ht.trans ⟨rfl, rfl, fun _ _ => rfl⟩
  unfold State.rewindQueue
  dsimp only
  split
  · exact hwords
  · exact hwords.trans ⟨rfl, rfl, fun _ _ => rfl⟩
theorem State.keepsRepairs_rewindFabric : s.KeepsRepairs (s.rewindFabric f) := by
  unfold State.rewindFabric
  extract_lets cfg u
  have hu : s.KeepsRepairs u := ⟨rfl, rfl, fun _ _ => rfl⟩
  exact hu.trans (.forEach (fun t j => t.keepsRepairs_rewindQueue f j) _ _)
theorem State.keepsRepairs_rewindNis : s.KeepsRepairs (s.rewindNis f) :=
  .forEach (g := State.rewindNi) (fun _ _ => ⟨rfl, rfl, fun _ _ => rfl⟩) _ s
theorem State.keepsRepairs_setNi (n : Nat) (x : NiSt) : s.KeepsRepairs (s.setNi n x) := ⟨rfl, rfl, fun _ _ => rfl⟩
theorem State.keepsRepairs_discardHeld : s.KeepsRepairs (s.discardHeld f) := .forEach (fun t n => t.keepsRepairs_setNi n _) _ s
theorem State.keepsRepairs_stuckNis (b : Bool) : s.KeepsRepairs (s.stuckNis f b) := .forEach (fun t n => t.keepsRepairs_setNi n _) _ s

variable {f}
variable (hf : f < 24)
include hf

theorem State.keepsRepairs_failFrame : s.KeepsRepairs (s.failFrame f) := by
  unfold State.failFrame
  dsimp only
  split
  · exact .refl s
  · have hheld := (s.keepsRepairs_setFld f { s.fld f with failed := true }).trans (State.keepsRepairs_discardHeld _ f)
    have hfailed := hheld.put (f := F.FLD_PROTSTAT_FAILED f) (RegRef.ofConfig_protstat hf) 1
    exact (hfailed.put (f := F.FLD_PCNT_FAIL f) (RegRef.ofConfig_pcnt hf) _).postLog _ _ _ _ _ _ _
/-- R164, R165: a field that rewinds, or whose frame fails. -/
theorem State.keepsRepairs_detect (src : ReplaySource) (t : Nat) : s.KeepsRepairs (s.detect f src t) := by
  unfold State.detect
  extract_lets x inFrame afterWmax u phase u' v w
  split
  · exact .refl s
  · split
    · exact s.keepsRepairs_failFrame hf
    · have hv : s.KeepsRepairs v := ((s.keepsRepairs_rewindFabric f).trans (State.keepsRepairs_rewindNis _ f)).trans
        (State.keepsRepairs_setFld _ f _)
      have hw := hv.put (f := F.FLD_PROTSTAT_VERIFIED f) (RegRef.ofConfig_protstat hf) 0
      exact (hw.put (f := F.FLD_PCNT_REPLAY f) (RegRef.ofConfig_pcnt hf) _).postLog _ _ _ _ _ _ _
theorem State.keepsRepairs_postRelease (cyc : Nat) : s.KeepsRepairs (s.postRelease f cyc) := by
  unfold State.postRelease
  dsimp only
  split
  · exact (((State.Notes.refl s).raise (f := F.FLD_PROTSTAT_POSTREL f) (RegRef.ofConfig_protstat hf)).post _ _ _).keepsRepairs
  · exact .refl s
/-- R46: a field that becomes STUCK. -/
theorem State.keepsRepairs_becomeStuck : s.KeepsRepairs (s.becomeStuck f) := by
  unfold State.becomeStuck
  exact (((s.keepsRepairs_setFld f _).put (f := F.FLD_PROTSTAT_REPLAYING f) (RegRef.ofConfig_protstat hf) 0).trans
    (State.keepsRepairs_stuckNis _ f true)).postLog _ _ _ _ _ _ _

end

theorem State.Notes.fld {s t : State} (h : s.Notes t) (f : Nat) : t.fld f = s.fld f := by rw [h.rest]; rfl
theorem State.fld_setNi (s : State) (f n : Nat) (x : NiSt) : (s.setNi n x).fld f = s.fld f := rfl
theorem State.phase_becomeStuck (s : State) (f : Nat) : ((s.becomeStuck f).fld f).phase = .stuck := by
  have hnis (u : State) : (u.stuckNis f true).fld f = u.fld f := foldl_keeps (State.fld · f) (fun t n => State.fld_setNi t f n _) _ u
  unfold State.becomeStuck
  dsimp only
  rw [(((State.Notes.refl _).logEntry _ _ _ _).post _ _ _).fld, hnis, State.clear, State.fld_put, State.fld_setFld]

end Sys2Proof.Machine
end

section
/-! RESULT. O34: sensing, repair and the golden scan (R191 to R197). -/
namespace Sys2Proof.Machine

/-! ## What the frame code finds (R191) -/

/-- An interleave with at most two errors. -/
theorem State.ilvCheck_of_le {n : Nat} (s : State) (h : n ≤ 2) :
    s.ilvCheck n = (if n = 0 then .clean else .correctable, s) := by
  unfold State.ilvCheck
  split
  · rfl
  · rfl

/-- What the check of one interleave adds to that of those before it. -/
def FrameErrors.checkNext (e : FrameErrors) (p : FrameCheck × BitVec 6 × State) (i : Nat) : FrameCheck × BitVec 6 × State :=
  let r := p.2.2.ilvCheck (e.ilv i)
  match r.1 with
  | .clean => (p.1, p.2.1, r.2)
  | .correctable => (if p.1 = .uncorrectable then .uncorrectable else .correctable, p.2.1 ||| BitVec.ofNat 6 (2 ^ i), r.2)
  | .uncorrectable => (.uncorrectable, p.2.1 ||| BitVec.ofNat 6 (2 ^ i), r.2)
theorem State.frameCheck_eq (s : State) (e : FrameErrors) : s.frameCheck e = (List.range 6).foldl e.checkNext (.clean, 0, s) := rfl

section
variable {e : FrameErrors} {i : Nat} {c : FrameCheck} {m : BitVec 6} {s : State}

theorem FrameErrors.checkNext_clean (h : e.ilv i = 0) : e.checkNext (c, m, s) i = (c, m, s) := by
  unfold FrameErrors.checkNext
  rw [State.ilvCheck_of_le _ (by omega), if_pos h]
theorem FrameErrors.checkNext_correctable (h : e.ilv i ≤ 2) (hne : e.ilv i ≠ 0) (hc : c ≠ .uncorrectable) :
    e.checkNext (c, m, s) i = (.correctable, m ||| BitVec.ofNat 6 (2 ^ i), s) := by
  unfold FrameErrors.checkNext
  rw [State.ilvCheck_of_le _ h, if_neg hne]
  dsimp only
  rw [if_neg hc]

/-- A frame none of whose interleaves holds more than two errors is as clean as before without an error, and else correctable in the
interleaves that hold one. -/
theorem FrameErrors.foldl_checkNext (l : List Nat) (h : ∀ i ∈ l, e.ilv i ≤ 2) (hc : c ≠ .uncorrectable) : ∃ ilv,
    l.foldl e.checkNext (c, m, s) = (if l.any (e.ilv · != 0) then .correctable else c, ilv, s) ∧
      ∀ k < 6, ilv.getLsbD k = (m.getLsbD k || (l.contains k && e.ilv k != 0)) := by
  induction l generalizing c m with
  | nil => exact ⟨m, rfl, fun k _ => by simp⟩
  | cons i l ih =>
    have hl := fun j hj => h j (List.mem_cons_of_mem i hj)
    by_cases h0 : e.ilv i = 0
    · obtain ⟨ilv, hfold, hbits⟩ := ih hl hc
      refine ⟨ilv, ?_, fun k hk => ?_⟩
      · rw [List.foldl_cons, FrameErrors.checkNext_clean h0, hfold]
        simp [h0]
      · rw [hbits k hk]
        by_cases hki : k = i <;> simp [hki, h0]
    · obtain ⟨ilv, hfold, hbits⟩ := ih (c := .correctable) (m := m ||| BitVec.ofNat 6 (2 ^ i)) hl (by decide)
      refine ⟨ilv, ?_, fun k hk => ?_⟩
      · rw [List.foldl_cons, FrameErrors.checkNext_correctable (h i List.mem_cons_self) h0 hc, hfold]
        simp [h0]
      · have hbit : (BitVec.ofNat 6 (2 ^ i)).getLsbD k = decide (i = k) := by
          rw [BitVec.getLsbD_ofNat, Nat.testBit_two_pow, decide_eq_true hk, Bool.true_and]
        rw [hbits k hk, BitVec.getLsbD_or, hbit]
        by_cases hki : i = k
        · subst hki
          simp [h0]
        · simp [hki, Ne.symm hki]

end

theorem State.frameCheck_clean {s : State} {e : FrameErrors} (h : ∀ i < 6, e.ilv i = 0) : s.frameCheck e = (.clean, 0, s) := by
  rw [State.frameCheck_eq]
  refine List.foldlRecOn (motive := (· = (FrameCheck.clean, 0, s))) _ _ rfl fun p hp i hi => ?_
  rw [hp, FrameErrors.checkNext_clean (h i (List.mem_range.mp hi))]
theorem State.frameCheck_correctable {s : State} {e : FrameErrors} (h : ∀ i < 6, e.ilv i ≤ 2) (hne : ∃ i < 6, e.ilv i ≠ 0) :
    ∃ ilv, s.frameCheck e = (.correctable, ilv, s) ∧ ∀ i < 6, ilv.getLsbD i = decide (e.ilv i ≠ 0) := by
  obtain ⟨ilv, hfold, hbits⟩ := FrameErrors.foldl_checkNext (e := e) (c := .clean) (m := 0) (s := s) (List.range 6)
    (fun i hi => h i (List.mem_range.mp hi)) (by decide)
  have hany : (List.range 6).any (e.ilv · != 0) = true := by
    obtain ⟨i, hi, hi0⟩ := hne
    exact List.any_eq_true.mpr ⟨i, List.mem_range.mpr hi, by simpa using hi0⟩
  rw [hany, if_pos rfl] at hfold
  refine ⟨ilv, s.frameCheck_eq e ▸ hfold, fun i hi => ?_⟩
  rw [hbits i hi]
  by_cases hi0 : e.ilv i = 0 <;> simp [hi, hi0]

/-! ## A detection (R193, R197) -/

theorem State.keepsRepairs_noteUpset (s : State) (code : Nat) (always : Bool) : s.KeepsRepairs (s.noteUpset code always) := by
  have hpost := (State.Notes.refl s).post 0x0A0 94 code
  have hlog := hpost.logEntry 0x0A0 94 code 0
  unfold State.noteUpset
  extract_lets u first v w
  have hv : s.Notes v := by
    show s.Notes (if first || always then u.logEntry 0x0A0 94 code 0 else u)
    split
    · exact hlog
    · exact hpost
  exact hv.keepsRepairs.trans ⟨rfl, rfl, fun _ _ => rfl⟩

section
variable (s : State) (kind : Nat) (esc : Bool) (code frame : Nat) (ilv : BitVec 6)

theorem State.noteLast_cfg : (s.noteLast kind esc code frame ilv).cfg = s.cfg := by
  unfold State.noteLast
  dsimp only
  rw [State.put_cfg, State.put_cfg, State.put_cfg, State.put_cfg, State.put_cfg]
theorem State.noteLast_mode : (s.noteLast kind esc code frame ilv).mode = s.mode := by
  unfold State.noteLast
  dsimp only
  rw [State.put_mode, State.put_mode, State.put_mode, State.put_mode, State.put_mode]
theorem State.noteLast_images : (s.noteLast kind esc code frame ilv).images = s.images := by
  unfold State.noteLast
  dsimp only
  rw [State.put_images, State.put_images, State.put_images, State.put_images, State.put_images]
theorem State.get_noteLast_other {g : Fld} (h : g.reg.off ≠ R.SCR_LAST.off) :
    (s.noteLast kind esc code frame ilv).get g = s.get g := by
  unfold State.noteLast
  dsimp only
  rw [State.get_put_other _ _ h, State.get_put_other _ _ h, State.get_put_other _ _ h, State.get_put_other _ _ h, State.get_put_other _ _ h]
theorem State.get_noteLast_kind : (s.noteLast kind esc code frame ilv).get F.SCR_LAST_KIND = kind % 4 := by
  unfold State.noteLast
  dsimp only
  rw [State.get_put_disjoint (f := F.SCR_LAST_ILV) (g := F.SCR_LAST_KIND) _ _ rfl (by decide) (by decide),
    State.get_put_disjoint (f := F.SCR_LAST_FRAME) (g := F.SCR_LAST_KIND) _ _ rfl (by decide) (by decide),
    State.get_put_disjoint (f := F.SCR_LAST_FIELD) (g := F.SCR_LAST_KIND) _ _ rfl (by decide) (by decide),
    State.get_put_disjoint (f := F.SCR_LAST_ESC) (g := F.SCR_LAST_KIND) _ _ rfl (by decide) (by decide),
    State.get_put _ _ (by decide)]
  rfl
theorem State.get_noteLast_field : (s.noteLast kind esc code frame ilv).get F.SCR_LAST_FIELD = code % 32 := by
  unfold State.noteLast
  dsimp only
  rw [State.get_put_disjoint (f := F.SCR_LAST_ILV) (g := F.SCR_LAST_FIELD) _ _ rfl (by decide) (by decide),
    State.get_put_disjoint (f := F.SCR_LAST_FRAME) (g := F.SCR_LAST_FIELD) _ _ rfl (by decide) (by decide),
    State.get_put _ _ (by decide)]
  rfl
theorem State.get_noteLast_frame : (s.noteLast kind esc code frame ilv).get F.SCR_LAST_FRAME = frame % 4096 := by
  unfold State.noteLast
  dsimp only
  rw [State.get_put_disjoint (f := F.SCR_LAST_ILV) (g := F.SCR_LAST_FRAME) _ _ rfl (by decide) (by decide),
    State.get_put _ _ (by decide)]
  rfl
theorem State.is_noteLast_esc : (s.noteLast kind esc code frame ilv).is F.SCR_LAST_ESC = esc := by
  unfold State.noteLast State.is
  dsimp only
  rw [State.get_put_disjoint (f := F.SCR_LAST_ILV) (g := F.SCR_LAST_ESC) _ _ rfl (by decide) (by decide),
    State.get_put_disjoint (f := F.SCR_LAST_FRAME) (g := F.SCR_LAST_ESC) _ _ rfl (by decide) (by decide),
    State.get_put_disjoint (f := F.SCR_LAST_FIELD) (g := F.SCR_LAST_ESC) _ _ rfl (by decide) (by decide),
    State.get_put _ _ (by decide)]
  cases esc <;> rfl

/-- A detection counts as an escaped error or as a correctable one. -/
def State.countUpset : State := if esc then s.bump F.SCR_CNT2_ESCAPE 1 else s.bump F.SCR_CNT_CORR 1
theorem State.countUpset_cfg : (s.countUpset esc).cfg = s.cfg := by
  unfold State.countUpset
  split <;> exact State.bump_cfg _ _ _
theorem State.countUpset_images : (s.countUpset esc).images = s.images := by
  unfold State.countUpset
  split <;> exact State.bump_images _ _ _
theorem State.get_countUpset_last {g : Fld} (h : g.reg.off = R.SCR_LAST.off) : (s.countUpset esc).get g = s.get g := by
  unfold State.countUpset
  split <;> exact State.get_bump_other _ _ (by rw [h]; decide)
theorem State.get_countUpset_escape :
    (s.countUpset true).get F.SCR_CNT2_ESCAPE = satAdd F.SCR_CNT2_ESCAPE.w (s.get F.SCR_CNT2_ESCAPE) 1 := by
  rw [State.countUpset, if_pos rfl, State.get_bump _ _ (by decide), satAdd]
theorem State.get_countUpset_corr :
    (s.countUpset false).get F.SCR_CNT_CORR = satAdd F.SCR_CNT_CORR.w (s.get F.SCR_CNT_CORR) 1 := by
  rw [State.countUpset, if_neg Bool.false_ne_true, State.get_bump _ _ (by decide), satAdd]

theorem State.queueRepair_repairs (r : RepairReq) : (s.queueRepair r).cfg.repairs = s.cfg.repairs ++ [r] := rfl
theorem State.queueRepair_images (r : RepairReq) : (s.queueRepair r).images = s.images := rfl
theorem State.queueRepair_get (r : RepairReq) (g : Fld) : (s.queueRepair r).get g = s.get g := rfl

/-- A correctable frame, or one that escaped its code, is noted, counted and queued for repair. -/
def State.queued : State :=
  (((s.noteUpset code false).noteLast (if esc then 2 else 1) esc code frame ilv).countUpset esc).queueRepair
    ⟨code, frame, ilv, esc, false⟩

theorem State.queued_repairs : (s.queued esc code frame ilv).cfg.repairs = s.cfg.repairs ++ [⟨code, frame, ilv, esc, false⟩] := by
  rw [State.queued, State.queueRepair_repairs, State.countUpset_cfg, State.noteLast_cfg, (s.keepsRepairs_noteUpset code false).repairs]
theorem State.queued_images : (s.queued esc code frame ilv).images = s.images := by
  rw [State.queued, State.queueRepair_images, State.countUpset_images, State.noteLast_images,
    (s.keepsRepairs_noteUpset code false).images]
theorem State.get_queued_last {g : Fld} (h : g.reg.off = R.SCR_LAST.off) : (s.queued esc code frame ilv).get g =
    ((s.noteUpset code false).noteLast (if esc then 2 else 1) esc code frame ilv).get g := by
  rw [State.queued, State.queueRepair_get, State.get_countUpset_last _ _ h]
theorem State.get_queued_corr :
    (s.queued false code frame ilv).get F.SCR_CNT_CORR = satAdd F.SCR_CNT_CORR.w (s.get F.SCR_CNT_CORR) 1 := by
  rw [State.queued, State.queueRepair_get, State.get_countUpset_corr, State.get_noteLast_other _ _ _ _ _ _ (by decide),
    (s.keepsRepairs_noteUpset code false).get (by decide)]
theorem State.get_queued_escape :
    (s.queued true code frame ilv).get F.SCR_CNT2_ESCAPE = satAdd F.SCR_CNT2_ESCAPE.w (s.get F.SCR_CNT2_ESCAPE) 1 := by
  rw [State.queued, State.queueRepair_get, State.get_countUpset_escape, State.get_noteLast_other _ _ _ _ _ _ (by decide),
    (s.keepsRepairs_noteUpset code false).get (by decide)]

variable {s code frame}
variable (hnew : ∀ r ∈ s.cfg.repairs, r.field ≠ code ∨ r.frame ≠ frame) (hroom : s.cfg.repairs.length < 16)
include hnew hroom

/-- A detection that is not queued yet, while the queue has room. -/
theorem State.keepsRepairs_upset (cyc : Nat) : (s.queued esc code frame ilv).KeepsRepairs (s.upset code frame ilv esc false cyc) := by
  have hmiss : (s.cfg.repairs.any fun r => r.field == code && r.frame == frame) = false := by
    rw [List.any_eq_false]
    intro r hr
    rcases hnew r hr with h | h <;> simp [h]
  unfold State.upset
  rw [hmiss, if_neg Bool.false_ne_true]
  extract_lets lost u v w x y
  have hlost : lost = false := rfl
  have hx : x = s.queued esc code frame ilv := by
    cases esc <;> rfl
  have hy : (s.queued esc code frame ilv).KeepsRepairs y := by
    rw [← hx]
    show x.KeepsRepairs (if code < 24 then (x.postRelease code cyc).detect code .config cyc else x)
    split
    · next hcode => exact (State.keepsRepairs_postRelease _ hcode cyc).trans (State.keepsRepairs_detect _ hcode _ _)
    · exact .refl _
  rw [hlost, if_neg (by simp [hroom]), if_neg Bool.false_ne_true]
  exact hy

end

/-! ## An uncorrectable frame (R196) -/

/-- A sweep that found an uncorrectable frame is made again; nothing else changes. -/
def State.resweep (s : State) (code : Nat) : State :=
  match s.cfg.load with
  | some l => if l.phase = LoadPhase.sweep ∧ l.stopped.any (fun e => e.1 == code) then s.setLoad { l with dirty := true } else s
  | none => s
theorem State.resweep_eq (s : State) (code : Nat) : s.resweep code = { s with cfg := (s.resweep code).cfg } := by
  unfold State.resweep
  split
  · split <;> rfl
  · rfl
theorem State.resweep_mode (s : State) (code : Nat) : (s.resweep code).mode = s.mode := by rw [State.resweep_eq]
theorem State.resweep_get (s : State) (code : Nat) (g : Fld) : (s.resweep code).get g = s.get g := by rw [State.resweep_eq]; rfl
theorem State.uncorrectable_eq (s : State) (code : Nat) : s.uncorrectable code =
    let u := (s.bump F.SCR_CNT_UNC 1).resweep code
    if code = 31 || u.is F.SCR_CTL_UNCPOL then u.enterFreeze
    else if ((u.put ⟨R.SCR_UNCFG, code, 1⟩ 1).fld code).phase = .stuck then u.put ⟨R.SCR_UNCFG, code, 1⟩ 1
    else (u.put ⟨R.SCR_UNCFG, code, 1⟩ 1).becomeStuck code := rfl

section
variable {s : State} (code : Nat)

theorem State.is_uncpol_resweep : ((s.bump F.SCR_CNT_UNC 1).resweep code).is F.SCR_CTL_UNCPOL = s.is F.SCR_CTL_UNCPOL := by
  rw [State.is, State.resweep_get, State.get_bump_other _ _ (by decide), State.is]

/-- Under policy 1 it is a fatal error. -/
theorem State.freeze_uncorrectable (hpol : s.is F.SCR_CTL_UNCPOL = true) (hsafe : s.mode.ov.safeHold = false) :
    (s.uncorrectable code).mode.ov.freeze = true := by
  rw [State.uncorrectable_eq]
  dsimp only
  rw [State.is_uncpol_resweep, hpol, Bool.or_true, if_pos rfl]
  refine State.freeze_enterFreeze ?_
  rw [State.resweep_mode, State.bump_mode]
  exact hsafe

/-- Under policy 0 a field without a golden copy ends STUCK and marked. -/
theorem State.uncorrectable_stuck {f : Nat} (hf : f < 24) (hpol : s.is F.SCR_CTL_UNCPOL = false) :
    ((s.uncorrectable f).fld f).phase = .stuck ∧ (s.uncorrectable f).is ⟨R.SCR_UNCFG, f, 1⟩ = true ∧
      (s.uncorrectable f).get F.SCR_CNT_UNC = satAdd F.SCR_CNT_UNC.w (s.get F.SCR_CNT_UNC) 1 := by
  rw [State.uncorrectable_eq]
  dsimp only
  rw [State.is_uncpol_resweep, hpol, Bool.or_false, if_neg (by rw [decide_eq_true_eq]; omega)]
  generalize hv : ((s.bump F.SCR_CNT_UNC 1).resweep f).put ⟨R.SCR_UNCFG, f, 1⟩ 1 = v
  have hmark : v.get ⟨R.SCR_UNCFG, f, 1⟩ = 1 := by
    rw [← hv, State.get_put _ _ (by show f + 1 ≤ 32; omega)]
    rfl
  have hcnt : v.get F.SCR_CNT_UNC = satAdd F.SCR_CNT_UNC.w (s.get F.SCR_CNT_UNC) 1 := by
    rw [← hv, State.get_put_other _ _ (by show R.SCR_CNT.off ≠ R.SCR_UNCFG.off; decide), State.resweep_get,
      State.get_bump _ _ (by decide), satAdd]
  split
  · next hstuck => exact ⟨hstuck, by rw [State.is, hmark]; rfl, hcnt⟩
  · have hkeeps := v.keepsRepairs_becomeStuck hf
    exact ⟨v.phase_becomeStuck f, by rw [State.is, hkeeps.get (show (R.SCR_UNCFG).ofConfig = true by decide), hmark]; rfl,
      (hkeeps.get (show (R.SCR_CNT).ofConfig = true by decide)).trans hcnt⟩

end

/-! ## SENSE (R191 to R193) -/

section
variable {s : State} {code frame : Nat} {errs : FrameErrors} {ns cyc : Nat}

theorem State.sense_idle (h : s.senses code = false ∨ framesOf code ≤ frame) : s.sense code frame errs ns cyc = s := by
  unfold State.sense
  rcases h with h | h <;> simp [h]

variable (hsense : s.senses code = true) (hframe : frame < framesOf code)
include hsense hframe

theorem State.sense_eq : s.sense code frame errs ns cyc =
    let r := (s.peak F.SCR_SWEEP_MAXNS ns).frameCheck errs
    match r.1 with
    | .clean => r.2.2
    | .correctable => r.2.2.upset code frame r.2.1 false false cyc
    | .uncorrectable => r.2.2.upset code frame r.2.1 false true cyc := by
  unfold State.sense
  exact if_neg (by rw [hsense, decide_eq_false (by omega)]; decide)
theorem State.sense_clean (h : ∀ i < 6, errs.ilv i = 0) : s.sense code frame errs ns cyc = s.peak F.SCR_SWEEP_MAXNS ns := by
  rw [State.sense_eq hsense hframe, State.frameCheck_clean h]

theorem State.sense_correctable (h : ∀ i < 6, errs.ilv i ≤ 2) (hne : ∃ i < 6, errs.ilv i ≠ 0)
    (hnew : ∀ r ∈ s.cfg.repairs, r.field ≠ code ∨ r.frame ≠ frame) (hroom : s.cfg.repairs.length < 16) :
    ∃ ilv, (∀ i < 6, ilv.getLsbD i = decide (errs.ilv i ≠ 0)) ∧
      ((s.peak F.SCR_SWEEP_MAXNS ns).queued false code frame ilv).KeepsRepairs (s.sense code frame errs ns cyc) := by
  obtain ⟨ilv, hcheck, hilv⟩ := State.frameCheck_correctable (s := s.peak F.SCR_SWEEP_MAXNS ns) h hne
  refine ⟨ilv, hilv, ?_⟩
  rw [State.sense_eq hsense hframe, hcheck]
  have hcfg : (s.peak F.SCR_SWEEP_MAXNS ns).cfg = s.cfg := State.put_cfg _ _ _
  exact State.keepsRepairs_upset false ilv (by rw [hcfg]; exact hnew) (by rw [hcfg]; exact hroom) cyc

end

/-! ## REPAIR (R194) -/

/-- The oldest frame leaves the repair queue. -/
def State.takeRepair (s : State) (rest : List RepairReq) : State := { s with cfg := { s.cfg with repairs := rest } }
theorem State.EngineWork.cfg {s t : State} (h : State.EngineWork s t) : t.cfg = s.cfg := h.rest.cfg

/-- Where the oldest frame of the queue finds its golden copy. -/
def State.goldenOf (s : State) (r : RepairReq) (checks : List LineCheck) : State × Option (List Word) :=
  if s.is F.SCR_CTL_GOLDEN && s.goldenHas r.field then s.goldenFrame r.field r.frame checks else (s, none)

theorem State.engineWork_goldenFrame (s : State) (code n : Nat) (checks : List LineCheck) :
    State.EngineWork s (s.goldenFrame code n checks).1 := State.getSlot_workAt _ _ _ _ _ _ (.refl s)
theorem State.engineWork_goldenOf (s : State) (r : RepairReq) (checks : List LineCheck) : State.EngineWork s (s.goldenOf r checks).1 := by
  unfold State.goldenOf
  split
  · exact s.engineWork_goldenFrame _ _ _
  · exact .refl s

/-- A frame rewritten changes nothing but what the frames hold. -/
theorem State.setFrame_eq (s : State) (code n : Nat) (ws : List Word) :
    s.setFrame code n ws = { s with images := (s.setFrame code n ws).images, pins := (s.setFrame code n ws).pins } := by
  unfold State.setFrame
  split
  · rfl
  · split
    · rfl
    · split <;> rfl
theorem State.setFrame_cfg (s : State) (code n : Nat) (ws : List Word) : (s.setFrame code n ws).cfg = s.cfg := by
  rw [State.setFrame_eq]
theorem State.setFrame_get (s : State) (code n : Nat) (ws : List Word) (g : Fld) : (s.setFrame code n ws).get g = s.get g := by
  rw [State.setFrame_eq]
  rfl

section
variable {s : State} {r : RepairReq} {rest : List RepairReq} (hrep : s.repairs = true) (hq : s.cfg.repairs = r :: rest)
  (hesc : r.esc = false) (checks : List LineCheck)
include hrep hq hesc

theorem State.repair_plain (hgold : r.golden = false) : s.repair checks [] = s.takeRepair rest := by
  unfold State.repair
  rw [hrep, hq]
  simp [hesc, hgold, State.takeRepair]
theorem State.repair_golden (hgold : r.golden = true) : s.repair checks [] =
    let g := (s.takeRepair rest).goldenOf r checks
    match g.2 with
    | some ws => (g.1.setFrame r.field r.frame ws).bump F.SCR_CNT_GOLD 1
    | none => ((g.1.noteLast 3 false r.field r.frame r.ilv).logEntry 0x0A0 94 r.field 0).uncorrectable r.field := by
  unfold State.repair
  rw [hrep, hq]
  dsimp -zeta only
  rw [if_neg (by decide)]
  extract_lets src u done p v g
  have hu : s.takeRepair rest = u := rfl
  have hp : p = (match g.2 with
      | some ws => (g.1.setFrame r.field r.frame ws, true)
      | none => (g.1, false)) := by
    dsimp only [p, g]
    rw [hu, hesc, Bool.false_or]
    unfold State.goldenOf State.goldenRepair
    split
    · rfl
    · rfl
  rw [if_neg (by simp [hesc, hgold]), if_neg (show ¬ r.esc = true by simp [hesc]), if_neg (show ¬ r.esc = true by simp [hesc])]
  show (if p.2 then p.1.bump F.SCR_CNT_GOLD 1 else _) = _
  dsimp only [v]
  rw [hp]
  obtain ⟨w, ws | _⟩ := g
  · rfl
  · rfl

/-- The golden copy of the frame can be read: the frame is rewritten from it. -/
theorem State.repair_rewrites (hgold : r.golden = true) {ws : List Word} (hws : ((s.takeRepair rest).goldenOf r checks).2 = some ws) :
    (s.repair checks []).images = (((s.takeRepair rest).goldenOf r checks).1.setFrame r.field r.frame ws).images ∧
      (s.repair checks []).cfg = (s.takeRepair rest).cfg ∧
      (s.repair checks []).get F.SCR_CNT_GOLD = satAdd F.SCR_CNT_GOLD.w (s.get F.SCR_CNT_GOLD) 1 := by
  have hwork := (s.takeRepair rest).engineWork_goldenOf r checks
  rw [State.repair_golden hrep hq hesc checks hgold]
  dsimp only
  rw [hws]
  dsimp only
  refine ⟨State.bump_images _ _ _, ?_, ?_⟩
  · rw [State.bump_cfg, State.setFrame_cfg]
    exact hwork.cfg
  · rw [State.get_bump _ _ (by decide), State.setFrame_get, hwork.get (by decide) (by decide), satAdd]
    rfl

/-- No golden copy can be read: the frame counts as uncorrectable, in a state that differs from the first in what the engine and the notes
changed. -/
theorem State.repair_lost (hgold : r.golden = true) (hnone : ((s.takeRepair rest).goldenOf r checks).2 = none) :
    ∃ t : State, s.repair checks [] = t.uncorrectable r.field ∧ t.mode = s.mode ∧
      ∀ g : Fld, g.reg.ofConfig = true → g.reg.off ≠ R.SCR_LAST.off → t.get g = s.get g := by
  have hwork := (s.takeRepair rest).engineWork_goldenOf r checks
  have hlog (u : State) := (State.Notes.refl u).logEntry 0x0A0 94 r.field 0
  refine ⟨(((s.takeRepair rest).goldenOf r checks).1.noteLast 3 false r.field r.frame r.ilv).logEntry 0x0A0 94 r.field 0, ?_, ?_,
    fun g hg hlast => ?_⟩
  · rw [State.repair_golden hrep hq hesc checks hgold]
    dsimp only
    rw [hnone]
  · rw [(hlog _).mode, State.noteLast_mode, hwork.mode]
    rfl
  · have hlow := RegRef.ofConfig_iff.mp hg
    rw [(hlog _).get hg, State.get_noteLast_other _ _ _ _ _ _ hlast, hwork.get (by omega) (by show g.reg.off ≠ 0x40410; omega)]
    rfl

end

/-! ## GOLDEN_SCAN (R195) -/

section
variable {s : State} {p : Nat} (errs : FrameErrors) (checks : List LineCheck) (cyc : Nat)

/-- The scan goes on behind the frame it compares. -/
def State.scanPast (s : State) (p : Nat) : State := { s with cfg := { s.cfg with scanAt := p + 1 } }
theorem State.senses_scanPast (s : State) (p c : Nat) : (s.scanPast p).senses c = s.senses c := rfl
/-- What the frame code finds in the frame of the scan once its golden copy is read. -/
def State.scanCheck (s : State) (p : Nat) (errs : FrameErrors) (checks : List LineCheck) : FrameCheck × BitVec 6 × State :=
  ((s.scanPast p).goldenFrame (p / 4096) (p % 4096) checks).1.frameCheck errs
/-- A difference under a clean code. -/
def State.scanDiffers (s : State) (p : Nat) (errs : FrameErrors) (checks : List LineCheck) : Prop :=
  ∃ ws, ((s.scanPast p).goldenFrame (p / 4096) (p % 4096) checks).2 = some ws ∧ (s.scanCheck p errs checks).1 = .clean ∧
    ws ≠ errs.on (s.frameWords (p / 4096) (p % 4096))

theorem State.engineWork_scanCheck : State.EngineWork (s.scanPast p) (s.scanCheck p errs checks).2.2 :=
  State.frameCheck_work _ _ (State.engineWork_goldenFrame _ _ _ _)

variable (hrep : s.repairs = true) (hen : s.is F.SCR_CTL_SCANEN = true) (hnext : s.scanNext = some p)
include hrep hen hnext

theorem State.goldenScan_idle (hsense : s.senses (p / 4096) = false) : s.goldenScan errs checks cyc = s.scanPast p := by
  unfold State.goldenScan
  rw [hrep, hen, hnext, if_neg (by decide)]
  exact if_pos (congrArg not ((State.senses_scanPast s p _).trans hsense))

theorem State.goldenScan_eq (hsense : s.senses (p / 4096) = true) : s.goldenScan errs checks cyc =
    match ((s.scanPast p).goldenFrame (p / 4096) (p % 4096) checks).2 with
    | some ws =>
      if decide ((s.scanCheck p errs checks).1 = .clean) && ws != errs.on (s.frameWords (p / 4096) (p % 4096)) then
        (s.scanCheck p errs checks).2.2.upset (p / 4096) (p % 4096) 0 true false cyc
      else (s.scanCheck p errs checks).2.2
    | none => (s.scanCheck p errs checks).2.2 := by
  unfold State.goldenScan
  rw [hrep, hen, hnext, if_neg (by decide)]
  exact if_neg (Bool.eq_false_iff.mp (congrArg not ((State.senses_scanPast s p _).trans hsense)))

theorem State.goldenScan_same (hsense : s.senses (p / 4096) = true) (hsame : ¬ s.scanDiffers p errs checks) :
    s.goldenScan errs checks cyc = (s.scanCheck p errs checks).2.2 := by
  rw [State.goldenScan_eq errs checks cyc hrep hen hnext hsense]
  split
  · next ws hws =>
    refine if_neg fun h => hsame ?_
    rw [Bool.and_eq_true, decide_eq_true_eq, bne_iff_ne] at h
    exact ⟨ws, hws, h.1, h.2⟩
  · rfl
theorem State.goldenScan_differs (hsense : s.senses (p / 4096) = true) (hdiff : s.scanDiffers p errs checks) :
    s.goldenScan errs checks cyc = (s.scanCheck p errs checks).2.2.upset (p / 4096) (p % 4096) 0 true false cyc := by
  obtain ⟨ws, hws, hclean, hne⟩ := hdiff
  rw [State.goldenScan_eq errs checks cyc hrep hen hnext hsense, hws]
  exact if_pos (by rw [Bool.and_eq_true, decide_eq_true_eq, bne_iff_ne]; exact ⟨hclean, hne⟩)

/-- A frame that differs under a clean code is queued as an escaped error. -/
theorem State.goldenScan_queues (hsense : s.senses (p / 4096) = true) (hdiff : s.scanDiffers p errs checks)
    (hroom : s.cfg.repairs.length < 16) (hnew : ∀ r ∈ s.cfg.repairs, r.field ≠ p / 4096 ∨ r.frame ≠ p % 4096) :
    ((s.scanCheck p errs checks).2.2.queued true (p / 4096) (p % 4096) 0).KeepsRepairs (s.goldenScan errs checks cyc) := by
  have hcfg : (s.scanCheck p errs checks).2.2.cfg.repairs = s.cfg.repairs :=
    (congrArg CfgSt.repairs (State.engineWork_scanCheck errs checks).cfg : _ = (s.scanPast p).cfg.repairs)
  rw [State.goldenScan_differs errs checks cyc hrep hen hnext hsense hdiff]
  exact State.keepsRepairs_upset true 0 (by rw [hcfg]; exact hnew) (by rw [hcfg]; exact hroom) cyc

end

/-- Settles O34: a detection with at most two errors in each interleave is followed through what it notes, counts and queues; a
repair takes the oldest frame, from its golden copy where it needs one, and else the frame is uncorrectable; the scan queues a frame
that differs. -/
theorem sensingAndRepair : Obligations.SensingAndRepair := by
  unfold Obligations.SensingAndRepair
  intro s
  refine ⟨fun code frame errs ns cyc h => congrArg Host.Outcome.next (State.sense_idle h),
    fun code frame errs ns cyc hsense hframe => ⟨fun h0 => congrArg Host.Outcome.next (State.sense_clean hsense hframe h0),
      fun hle hne hnew hroom => ?_⟩,
    fun r rest hrep hq hesc checks => ⟨fun hgold => congrArg Host.Outcome.next (State.repair_plain hrep hq hesc checks hgold),
      fun ws hgold hws => ⟨_, rfl, State.repair_rewrites hrep hq hesc checks hgold hws⟩, fun hgold hnone hf hpol => ?_,
      fun hgold hnone hpol hsafe => ?_⟩,
    fun p hrep hen hnext errs checks cyc => ⟨fun hsense => congrArg Host.Outcome.next
        (State.goldenScan_idle errs checks cyc hrep hen hnext hsense), fun hsense hsame => ⟨congrArg Host.Outcome.next
        (State.goldenScan_same errs checks cyc hrep hen hnext hsense hsame), State.engineWork_scanCheck errs checks⟩,
      fun hsense hdiff hroom hnew => ?_⟩⟩
  · obtain ⟨ilv, hilv, hkeeps⟩ := State.sense_correctable (ns := ns) (cyc := cyc) hsense hframe hle hne hnew hroom
    refine ⟨_, ilv, rfl, hilv, ?_, ?_, ?_, ?_, ?_, ?_⟩
    · rw [hkeeps.repairs, State.queued_repairs]
      rfl
    · rw [hkeeps.get (by decide), State.get_queued_corr, State.peak, State.get_put_other _ _ (by decide)]
    · rw [hkeeps.get (by decide), State.get_queued_last _ _ _ _ _ rfl, State.get_noteLast_kind]
      rfl
    · rw [hkeeps.get (by decide), State.get_queued_last _ _ _ _ _ rfl, State.get_noteLast_field, Nat.mod_eq_of_lt code.isLt]
    · rw [hkeeps.get (by decide), State.get_queued_last _ _ _ _ _ rfl, State.get_noteLast_frame, Nat.mod_eq_of_lt (by omega)]
    · rw [hkeeps.images, State.queued_images]
      rfl
  · obtain ⟨t, ht, -, hget⟩ := State.repair_lost hrep hq hesc checks hgold hnone
    have hstuck := State.uncorrectable_stuck (s := t) hf (by rw [State.is, hget _ (by decide) (by decide)]; exact hpol)
    refine ⟨_, congrArg Host.Outcome.next ht, hstuck.1, hstuck.2.1, ?_⟩
    rw [hstuck.2.2, hget _ (by decide) (by decide)]
  · obtain ⟨t, ht, hmode, hget⟩ := State.repair_lost hrep hq hesc checks hgold hnone
    exact ⟨_, congrArg Host.Outcome.next ht, State.freeze_uncorrectable _ (by rw [State.is, hget _ (by decide) (by decide)]; exact hpol)
      (by rw [hmode]; exact hsafe)⟩
  · have hkeeps := State.goldenScan_queues errs checks cyc hrep hen hnext hsense hdiff hroom hnew
    have hwork := State.engineWork_scanCheck (s := s) (p := p) errs checks
    refine ⟨_, rfl, ?_, ?_, ?_⟩
    · rw [hkeeps.repairs, State.queued_repairs, congrArg CfgSt.repairs hwork.cfg]
      rfl
    · rw [State.is, hkeeps.get (by decide), State.get_queued_last _ _ _ _ _ rfl, ← State.is, State.is_noteLast_esc]
    · rw [hkeeps.get (by decide), State.get_queued_escape, hwork.get (by decide) (by decide)]
      rfl

end Sys2Proof.Machine
end

section
/-! SUPPORT. Images that leave configuration memory and come into it (R180, R185, R188): which field is configured as what, and what
stays. -/
namespace Sys2Proof.Machine

/-! ## The tables -/

/-- A filter that keeps keys and one key's entry does not change what that key is listed with. -/
theorem SMap.find?_filterMap_key {α : Type} {g : Nat × α → Option (Nat × α)} {j : Nat} (hkey : ∀ e x, g e = some x → x.1 = e.1)
    (hj : ∀ v, g (j, v) = some (j, v)) (m : SMap α) : SMap.find? (m.filterMap g) j = SMap.find? m j := by
  induction m with
  | nil => rfl
  | cons e m ih =>
    obtain ⟨k, v⟩ := e
    by_cases hk : j = k
    · subst hk
      rw [List.filterMap_cons_some (hj v), SMap.find?, SMap.find?, if_pos rfl, if_pos rfl]
    · cases hg : g (k, v) with
      | none => rw [List.filterMap_cons_none hg, ih, SMap.find?, if_neg hk]
      | some x =>
        obtain ⟨k', v'⟩ := x
        have hk' : k' = k := hkey _ _ hg
        rw [List.filterMap_cons_some hg, SMap.find?, SMap.find?, if_neg hk, if_neg (hk' ▸ hk), ih]

/-! ## What stays -/

/-- The mode, the load and the registers `keep` names are those of before. -/
structure State.Settles (keep : RegRef → Prop) (s t : State) : Prop where
  mode : t.mode = s.mode
  load : t.cfg.load = s.cfg.load
  regs : ∀ r, keep r → t.reg r = s.reg r
/-- The images are, too. -/
structure State.SettlesIn (keep : RegRef → Prop) (s t : State) : Prop extends State.Settles keep s t where
  images : t.images = s.images

/-- Registers that tell how a load ended: those below the fields' blocks, and CFG up to WORDS. -/
def RegRef.ofResult (r : RegRef) : Prop := r.off < 0xC0000 ∨ 0xE0000 ≤ r.off ∧ r.off < 0xE0014

section
variable {keep : RegRef → Prop} {s t u : State}

theorem State.Settles.refl (s : State) : s.Settles keep s := ⟨rfl, rfl, fun _ _ => rfl⟩
theorem State.Settles.trans (h : s.Settles keep t) (g : t.Settles keep u) : s.Settles keep u :=
  ⟨g.mode.trans h.mode, g.load.trans h.load, fun r hr => (g.regs r hr).trans (h.regs r hr)⟩
theorem State.Settles.get (h : s.Settles keep t) {g : Fld} (hg : keep g.reg) : t.get g = s.get g := by
  rw [State.get, h.regs _ hg, State.get]
theorem State.Settles.is (h : s.Settles keep t) {g : Fld} (hg : keep g.reg) : t.is g = s.is g := by
  rw [State.is, h.get hg, State.is]
theorem State.Settles.foldl {α : Type} {g : State → α → State} {l : List α} (hg : ∀ (t : State), ∀ a ∈ l, t.Settles keep (g t a))
    (s : State) : s.Settles keep (l.foldl g s) :=
  List.foldlRecOn (motive := s.Settles keep) l g (.refl s) fun t ht a ha => ht.trans (hg t a ha)
theorem State.SettlesIn.refl (s : State) : s.SettlesIn keep s := ⟨.refl s, rfl⟩
theorem State.SettlesIn.trans (h : s.SettlesIn keep t) (g : t.SettlesIn keep u) : s.SettlesIn keep u :=
  ⟨h.toSettles.trans g.toSettles, g.images.trans h.images⟩
theorem State.SettlesIn.image (h : s.SettlesIn keep t) (f : Nat) : t.image f = s.image f := by rw [State.image, h.images, State.image]
theorem State.settles_setReg (s : State) {x : RegRef} (hx : ∀ r, keep r → r.off ≠ x.off) (v : Nat) : s.SettlesIn keep (s.setReg x v) :=
  ⟨⟨rfl, rfl, fun r hr => State.reg_setReg_other _ _ (hx r hr)⟩, rfl⟩
theorem State.settles_put (s : State) {f : Fld} (hf : ∀ r, keep r → r.off ≠ f.reg.off) (v : Nat) : s.SettlesIn keep (s.put f v) :=
  State.settles_setReg s hf _
theorem State.SettlesIn.put (h : s.SettlesIn keep t) {f : Fld} (hf : ∀ r, keep r → r.off ≠ f.reg.off) (v : Nat) :
    s.SettlesIn keep (t.put f v) := h.trans (t.settles_put hf v)
theorem State.SettlesIn.foldl {α : Type} {g : State → α → State} (hg : ∀ (s : State) a, s.SettlesIn keep (g s a)) (l : List α) (s : State) :
    s.SettlesIn keep (l.foldl g s) :=
  List.foldlRecOn (motive := s.SettlesIn keep) l g (.refl s) fun t ht a _ => ht.trans (hg t a)
theorem State.settles_setFld (s : State) (f : Nat) (x : FieldSt) : s.SettlesIn keep (s.setFld f x) := ⟨⟨rfl, rfl, fun _ _ => rfl⟩, rfl⟩
theorem State.settles_setCell (s : State) (k : Nat) (x : CellSt) : s.SettlesIn keep (s.setCell k x) := ⟨⟨rfl, rfl, fun _ _ => rfl⟩, rfl⟩
theorem State.settles_setSlice (s : State) (k : Nat) (x : SliceSt) : s.SettlesIn keep (s.setSlice k x) := ⟨⟨rfl, rfl, fun _ _ => rfl⟩, rfl⟩
theorem State.settles_setNi (s : State) (n : Nat) (x : NiSt) : s.SettlesIn keep (s.setNi n x) := ⟨⟨rfl, rfl, fun _ _ => rfl⟩, rfl⟩
theorem State.settles_encrypted (s : State) (m : SMap Bool) :
    s.SettlesIn keep { s with cfg := { s.cfg with encrypted := m } } := ⟨⟨rfl, rfl, fun _ _ => rfl⟩, rfl⟩
theorem State.settles_bmem (s : State) (m : SMap (Option BmCell)) : s.SettlesIn keep { s with bmem := m } :=
  ⟨⟨rfl, rfl, fun _ _ => rfl⟩, rfl⟩

end

/-! ## One field -/

section
variable {keep : RegRef → Prop} (s : State) (f : Nat)

theorem State.settles_initFabric : s.SettlesIn keep (s.initFabric f) := by
  unfold State.initFabric
  extract_lets i u v
  have hv : s.SettlesIn keep v := ⟨⟨rfl, rfl, fun _ _ => rfl⟩, rfl⟩
  clear_value i
  cases i with
  | none => exact hv
  | some x =>
    have hcells : v.SettlesIn keep (x.cells.foldl (fun s e => s.setCell (16384 * f + e.1 % 16384) e.2.initial) v) :=
      State.SettlesIn.foldl (fun t e => t.settles_setCell _ _) _ _
    exact (hv.trans hcells).trans (State.SettlesIn.foldl (fun t e => t.settles_setSlice _ _) _ _)

theorem State.reg_dropImageBits {r : RegRef} (h : ¬ (0xC0000 + 4096 * f ≤ r.off ∧ r.off < 0xC0000 + 4096 * (f + 1))) :
    (s.dropImageBits f).reg r = s.reg r := by
  unfold State.dropImageBits State.reg SMap.get
  rw [SMap.find?_filterMap_key]
  · intro e x
    extract_lets k m rst v
    clear_value m v
    split
    · rintro ⟨⟩; rfl
    · split
      · rintro ⟨⟩
      · rintro ⟨⟩; rfl
  · intro v
    dsimp only
    rw [if_neg h]
    rfl

variable {f}

theorem State.settles_setImage (x : Option FieldImage) : s.Settles keep (s.setImage f x) := ⟨rfl, rfl, fun _ _ => rfl⟩
/-- Beside the image, what a field that loses it leaves. -/
theorem State.settles_unconfigure (hk : ∀ r, keep r → ¬ (0xC0000 + 4096 * f ≤ r.off ∧ r.off < 0xC0000 + 4096 * (f + 1))) :
    (s.setImage f none).SettlesIn keep (s.unconfigure f) := by
  have hbits (u : State) : u.SettlesIn keep (u.dropImageBits f) := ⟨⟨rfl, rfl, fun r hr => u.reg_dropImageBits f (hk r hr)⟩, rfl⟩
  unfold State.unconfigure
  exact (((State.settles_initFabric _ f).trans (hbits _)).trans (State.settles_bmem _ _)).trans (State.settles_encrypted _ _)

theorem State.image_unconfigure (k : Nat) : (s.unconfigure f).image k = if k = f then none else s.image k := by
  rw [(s.settles_unconfigure (keep := fun _ => False) fun _ h => h.elim).image]
  split
  · next h => rw [h, State.image_setImage]
  · next h => rw [State.image_setImage_other _ _ _ h]

end

/-! ## Configuration memory cleared -/

section
variable (s : State)

theorem State.ne_of_ofResult {r : RegRef} (h : r.ofResult) {o : Nat} (ho : 0xE0014 ≤ o) : r.off ≠ o := by
  unfold RegRef.ofResult at h
  omega
theorem State.settles_syncConfig : s.SettlesIn RegRef.ofResult s.syncConfig :=
  ((State.SettlesIn.refl s).put (fun _ h => State.ne_of_ofResult h (by decide)) _).put (fun _ h => State.ne_of_ofResult h (by decide)) _

/-- Each step gives its field an image, or takes it. -/
theorem State.image_forEach {g : State → Nat → State} {v : Nat → Option FieldImage} {l : List Nat}
    (hg : ∀ s, ∀ f ∈ l, ∀ k, (g s f).image k = if k = f then v f else s.image k) (k : Nat) :
    (s.forEach l g).image k = if k ∈ l then v k else s.image k := by
  unfold State.forEach
  induction l generalizing s with
  | nil => simp
  | cons f l ih =>
    rw [List.foldl_cons, ih _ fun s f hf => hg s f (List.mem_cons_of_mem _ hf), hg s f List.mem_cons_self]
    by_cases hk : k = f <;> by_cases hl : k ∈ l <;> simp [hk, hl]

/-- The fields lose their images and start anew. -/
def State.unconfigures (s : State) (l : List Nat) : State := s.forEach l fun s f => (s.unconfigure f).setFld f FieldSt.zero
/-- No device section stands. -/
def State.dropDevice (s : State) : State := State.put { s with pins := { s.pins with device := [] } } F.CFG_FIELDS_DEV 0
theorem State.clearConfig_eq : s.clearConfig = (s.unconfigures allFields).dropDevice.syncConfig := rfl

theorem State.settles_dropDevice : s.SettlesIn RegRef.ofResult s.dropDevice := by
  have hpins : s.SettlesIn RegRef.ofResult { s with pins := { s.pins with device := [] } } := ⟨⟨rfl, rfl, fun _ _ => rfl⟩, rfl⟩
  exact hpins.put (fun _ h => State.ne_of_ofResult h (by decide)) 0
theorem State.settles_unconfigures {l : List Nat} (hl : ∀ f ∈ l, f < 24) : s.Settles RegRef.ofResult (s.unconfigures l) := by
  refine State.Settles.foldl (fun t f hf => ?_) s
  have hlt := hl f hf
  have hstep := (t.settles_unconfigure (keep := RegRef.ofResult) (f := f) fun r hr => by unfold RegRef.ofResult at hr; omega).trans
    (State.settles_setFld _ f FieldSt.zero)
  exact (t.settles_setImage none).trans hstep.toSettles
/-- R180: configuration memory cleared: what tells how a load ended stays. -/
theorem State.settles_clearConfig : s.Settles RegRef.ofResult s.clearConfig := by
  have hrest := (s.unconfigures allFields).settles_dropDevice.trans (s.unconfigures allFields).dropDevice.settles_syncConfig
  rw [State.clearConfig_eq]
  exact (s.settles_unconfigures fun f hf => List.mem_range.mp hf).trans hrest.toSettles
theorem State.image_clearConfig {k : Nat} (h : k < 24) : s.clearConfig.image k = none := by
  have hstep (t : State) (f : Nat) (_ : f ∈ allFields) (k : Nat) :
      ((t.unconfigure f).setFld f FieldSt.zero).image k = if k = f then none else t.image k := t.image_unconfigure k
  have hrest := (s.unconfigures allFields).settles_dropDevice.trans (s.unconfigures allFields).dropDevice.settles_syncConfig
  rw [State.clearConfig_eq, hrest.image, State.unconfigures, State.image_forEach s hstep,
    if_pos (show k ∈ allFields from List.mem_range.mpr h)]

end

end Sys2Proof.Machine
end

section
/-! SUPPORT. How a load ends (R180, Table 8-5, Table 1-12). -/
namespace Sys2Proof.Machine

/-- A change of the mode that is noted, after another. -/
theorem State.Notes.thenMode {s t u : State} (h : State.Notes { s with mode := t.mode } t) (g : State.Notes { t with mode := u.mode } u) :
    State.Notes { s with mode := u.mode } u := by
  refine ⟨?_, fun r hr => (g.regs r hr).trans (h.regs r hr)⟩
  have hg := g.rest
  rw [h.rest] at hg
  exact hg

/-! ## The result -/

section
variable (s : State) (e : LoadFail)

theorem State.get_noteLoadFail_code : (s.noteLoadFail e).get F.CFG_ERR_CODE = e.code % 256 := by
  unfold State.noteLoadFail
  extract_lets u
  rw [State.get_put_other _ _ (by decide), State.get_put_other _ _ (by decide),
    State.get_put_disjoint (f := F.CFG_ERR_DETAIL) (g := F.CFG_ERR_CODE) _ _ rfl (by decide) (by decide), State.get_put _ _ (by decide)]
  rfl
theorem State.get_noteLoadFail_other {g : Fld} (h : g.reg.off ≠ R.CFG_ERR.off) (h' : g.reg.off ≠ R.CFG_ERRLOC.off) :
    (s.noteLoadFail e).get g = s.get g := by
  unfold State.noteLoadFail
  extract_lets u
  rw [State.get_put_other _ _ h', State.get_put_other _ _ h', State.get_put_other _ _ h, State.get_put_other _ _ h]
/-- A result that is noted changes registers alone. -/
theorem State.noteLoadFail_eq : s.noteLoadFail e = { s with regs := (s.noteLoadFail e).regs } := by
  have hput (u : State) (f : Fld) (v : Nat) (h : u = { s with regs := u.regs }) : u.put f v = { s with regs := (u.put f v).regs } := by
    rw [h]
    rfl
  exact hput _ _ _ (hput _ _ _ (hput _ _ _ (hput _ _ _ rfl)))

/-- The load is no more, and its result stands in CFG.ERR. -/
def State.noteLoad : State := (State.noteLoadFail { s with cfg := { s.cfg with load := none } } e).raise F.GLB_ERR_LOADFAIL
theorem State.noteLoad_eq : s.noteLoad e = { s with cfg := { s.cfg with load := none }, regs := (s.noteLoad e).regs } := by
  unfold State.noteLoad
  rw [State.noteLoadFail_eq]
  rfl
theorem State.get_noteLoad_code (h : e.code < 256) : (s.noteLoad e).get F.CFG_ERR_CODE = e.code := by
  rw [State.noteLoad, State.raise, State.get_put_other _ _ (by decide), State.get_noteLoadFail_code, Nat.mod_eq_of_lt h]
theorem State.is_noteLoad_loadfail : (s.noteLoad e).is F.GLB_ERR_LOADFAIL = true := State.is_raise _ (by decide) rfl
theorem State.is_noteLoad_autorun : (s.noteLoad e).is F.GLB_LOCKCFG_AUTORUN = s.is F.GLB_LOCKCFG_AUTORUN := by
  rw [State.noteLoad, State.is, State.raise, State.get_put_other _ _ (by decide), State.get_noteLoadFail_other _ _ (by decide) (by decide)]
  rfl

/-- The load is over: its result is noted, and a direct one leaves no configuration (R182). -/
def State.dropLoad (l : LoadSt) : State := if l.direct then (s.noteLoad e).clearConfig else (s.noteLoad e).syncConfig

theorem State.settles_dropLoad (l : LoadSt) : (s.noteLoad e).Settles RegRef.ofResult (s.dropLoad e l) := by
  unfold State.dropLoad
  split
  · exact State.settles_clearConfig _
  · exact (State.settles_syncConfig _).toSettles
/-- A load of the store leaves what runs. -/
theorem State.dropLoad_store {l : LoadSt} (h : l.direct = false) : (s.dropLoad e l).images = s.images ∧ (s.dropLoad e l).cells = s.cells ∧
    (s.dropLoad e l).bmem = s.bmem := by
  rw [State.dropLoad, h, if_neg Bool.false_ne_true, State.syncConfig]
  rw [State.put_images, State.put_images, State.put_cells, State.put_cells, State.put_bmem, State.put_bmem, State.noteLoad_eq]
  exact ⟨rfl, rfl, rfl⟩

end

/-! ## The mode before LOADING returns -/

section
variable (s : State) (l : LoadSt) (code : Nat)

/-- The load's descriptor completes, and the mode before LOADING returns; AUTORUN takes STAGED on. -/
def State.leaveLoading : State :=
  if s.mode.base = .loading then
    let s := (s.enterMode { s.mode with base := s.mode.before } .load).loadReply l 0x13 code
    if s.mode.before = .staged ∧ s.is F.GLB_LOCKCFG_AUTORUN then s.enterLocking .load else s
  else s.loadReply l 0x13 code

theorem State.failLoad_eq {e : LoadFail} (h : s.cfg.load = some l) : s.failLoad e = (s.dropLoad e l).leaveLoading l e.code := by
  unfold State.failLoad
  rw [h]
  rfl

/-- The mode that follows a load in error. -/
def ModeSt.afterLoad (m : ModeSt) (autorun : Bool) : Mode :=
  if m.base = .loading then (if m.before = .staged ∧ autorun = true then .locking else m.before) else m.base

theorem State.leaveLoading_ends : State.Notes { s with mode := (s.leaveLoading l code).mode } (s.leaveLoading l code) ∧
    (s.leaveLoading l code).mode.base = s.mode.afterLoad (s.is F.GLB_LOCKCFG_AUTORUN) ∧ (s.leaveLoading l code).mode.ov = s.mode.ov := by
  unfold State.leaveLoading ModeSt.afterLoad
  split
  · have hnotes := (s.notes_enterMode { s.mode with base := s.mode.before } .load).loadReply l 0x13 code
    extract_lets m v
    have hmode : v.mode = { s.mode with base := s.mode.before } := hnotes.mode
    have hauto : v.is F.GLB_LOCKCFG_AUTORUN = s.is F.GLB_LOCKCFG_AUTORUN := hnotes.is (by decide)
    have hv : State.Notes { s with mode := v.mode } v := by rw [hmode]; exact hnotes
    rw [hauto, hmode]
    split
    · have hlocks := v.locks_enterLocking .load
      refine ⟨hv.thenMode hlocks.notes, hlocks.base, hlocks.ov.trans ?_⟩
      show v.mode.ov = _
      rw [hmode]
    · exact ⟨hv, by rw [hmode], by rw [hmode]⟩
  · have hnotes := (State.Notes.refl s).loadReply l 0x13 code
    exact ⟨by rw [hnotes.mode]; exact hnotes, by rw [hnotes.mode], by rw [hnotes.mode]⟩

end

/-- What a load in error leaves: no load, its code, LOADFAIL and the mode before it; a load of the store leaves what runs. -/
def State.EndsLoad (s : State) (l : LoadSt) (code : Nat) (t : State) : Prop :=
  t.cfg.load = none ∧ t.get F.CFG_ERR_CODE = code ∧ t.is F.GLB_ERR_LOADFAIL = true ∧
    t.mode.base = s.mode.afterLoad (s.is F.GLB_LOCKCFG_AUTORUN) ∧ t.mode.ov = s.mode.ov ∧
    (l.direct = false → t.images = s.images ∧ t.cells = s.cells ∧ t.bmem = s.bmem)

theorem State.endsLoad_failLoad {s : State} {l : LoadSt} {e : LoadFail} (h : s.cfg.load = some l) (hcode : e.code < 256) :
    s.EndsLoad l e.code (s.failLoad e) := by
  have hdrop := s.settles_dropLoad e l
  obtain ⟨hnotes, hbase, hov⟩ := (s.dropLoad e l).leaveLoading_ends l e.code
  rw [s.failLoad_eq l h]
  have hmode : (s.dropLoad e l).mode = s.mode := by rw [hdrop.mode, State.noteLoad_eq]
  have hauto : (s.dropLoad e l).is F.GLB_LOCKCFG_AUTORUN = s.is F.GLB_LOCKCFG_AUTORUN :=
    (hdrop.is (g := F.GLB_LOCKCFG_AUTORUN) (.inl (by decide))).trans (s.is_noteLoad_autorun e)
  rw [hmode] at hbase hov
  rw [hauto] at hbase
  have hload : (s.dropLoad e l).cfg.load = none := by rw [hdrop.load, State.noteLoad_eq]
  refine ⟨(congrArg CfgSt.load hnotes.cfg).trans hload, ?_, ?_, hbase, hov, fun hdirect => ?_⟩
  · exact (hnotes.get (by decide)).trans ((hdrop.get (g := F.CFG_ERR_CODE) (.inr (by decide))).trans (s.get_noteLoad_code e hcode))
  · exact (hnotes.is (by decide)).trans ((hdrop.is (g := F.GLB_ERR_LOADFAIL) (.inl (by decide))).trans (s.is_noteLoad_loadfail e))
  · obtain ⟨himages, hcells, hbmem⟩ := s.dropLoad_store e hdirect
    exact ⟨hnotes.images.trans himages, hnotes.cells.trans hcells, hnotes.bmem.trans hbmem⟩

end Sys2Proof.Machine
end

section
/-! RESULT. O32: a load that times out, is aborted or fails a check ends in error (Table 8-5, R180 to R183). -/
namespace Sys2Proof.Machine

/-! ## Checks of verify (R175, R176, R181) -/

section
variable {s t : State} {l : LoadSt} {i : ImageInfo}

theorem State.noteOwner_eq (s : State) (digest : List (BitVec 32)) :
    s.noteOwner digest = { s with regs := (s.noteOwner digest).regs } := rfl
theorem State.get_noteOwner (s : State) (digest : List (BitVec 32)) {g : Fld} (h : g.reg.off ≠ R.CFG_OWNERSTAT.off) :
    (s.noteOwner digest).get g = s.get g := by
  rw [State.noteOwner, State.get_put_other _ _ h, State.get_put_other _ _ h]
/-- Whose key it is does not matter to how the load ends. -/
theorem State.EndsLoad.of_noteOwner {digest : List (BitVec 32)} {code : Nat} (h : (s.noteOwner digest).EndsLoad l code t) :
    s.EndsLoad l code t := by
  have hauto : (s.noteOwner digest).is F.GLB_LOCKCFG_AUTORUN = s.is F.GLB_LOCKCFG_AUTORUN := by
    rw [State.is, State.get_noteOwner _ _ (by decide), State.is]
  obtain ⟨hload, hcode, hfail, hbase, hov, hstore⟩ := h
  rw [hauto] at hbase
  rw [State.noteOwner_eq] at hbase hov hstore
  exact ⟨hload, hcode, hfail, hbase, hov, hstore⟩

theorem State.verifyFails_tag (henc : i.enc = true) (h : l.tagGood i = false) : s.verifyFails l i = some (.ofCode 5) := by
  rw [State.verifyFails, henc, h]
  rfl
theorem State.verifyFails_sig (htag : i.enc = true → l.tagGood i = true) (h : l.sigGood i = false) :
    s.verifyFails l i = some (.ofCode 3) := by
  have hpass : ¬ (i.enc && !l.tagGood i) = true := by
    rw [Bool.and_eq_true, Bool.not_eq_true', not_and]
    exact fun henc => by rw [htag henc]; decide
  rw [State.verifyFails, if_neg hpass, h]
  rfl
theorem State.verifyFails_owner (htag : i.enc = true → l.tagGood i = true) (hsig : l.sigGood i = true) (hown : s.noOwner = false)
    (hslot : s.ownerSlot l.keyDigest = none) : s.verifyFails l i = some (.ofCode 4) := by
  have hpass : ¬ (i.enc && !l.tagGood i) = true := by
    rw [Bool.and_eq_true, Bool.not_eq_true', not_and]
    exact fun henc => by rw [htag henc]; decide
  rw [State.verifyFails, if_neg hpass, hsig, hown, hslot]
  rfl
/-- Table 8-5: codes are small. -/
theorem State.code_verifyFails {e : LoadFail} (h : s.verifyFails l i = some e) : e.code < 256 := by
  revert h
  unfold State.verifyFails
  split
  · rintro ⟨⟩; exact (by decide : 5 < 256)
  split
  · rintro ⟨⟩; exact (by decide : 3 < 256)
  split
  · rintro ⟨⟩; exact (by decide : 4 < 256)
  split
  · rintro ⟨⟩; exact (by decide : 2 < 256)
  split
  · rintro ⟨⟩; exact (by decide : 2 < 256)
  split
  · rintro ⟨⟩; exact (by decide : 6 < 256)
  split
  · rintro ⟨⟩; exact (by decide : 8 < 256)
  · rintro ⟨⟩

theorem State.verifyLoad_eq (hload : s.cfg.load = some l) (hphase : l.phase = .verify) (hinfo : l.info = some i) :
    s.verifyLoad = s.verifyWith l i State.failLoad := by
  unfold State.verifyLoad
  rw [hload]
  dsimp only
  rw [hphase, hinfo]
theorem State.verifyWith_fails {fail : State → LoadFail → State} {e : LoadFail}
    (h : (s.noteOwner l.keyDigest).verifyFails l i = some e) : s.verifyWith l i fail = fail (s.noteOwner l.keyDigest) e := by
  unfold State.verifyWith
  dsimp only
  rw [h]

theorem State.endsLoad_verify (hload : s.cfg.load = some l) (hphase : l.phase = .verify) (hinfo : l.info = some i) {e : LoadFail}
    (h : (s.noteOwner l.keyDigest).verifyFails l i = some e) : s.EndsLoad l e.code s.verifyLoad := by
  rw [State.verifyLoad_eq hload hphase hinfo, State.verifyWith_fails h]
  exact (State.endsLoad_failLoad (s := s.noteOwner l.keyDigest) hload (State.code_verifyFails h)).of_noteOwner

/-! ## Time and ABORT (R180, R183) -/

theorem State.loadTimeout_eq (hload : s.cfg.load = some l) (hphase : l.phase = .ingest) : s.loadTimeout = s.failLoad (.ofCode 0xB) := by
  unfold State.loadTimeout
  rw [hload]
  exact if_pos hphase
theorem State.abortLoad_ends (hload : s.cfg.load = some l) (hphase : l.phase = .ingest ∨ l.phase = .verify) :
    s.abortLoad = s.failLoad (.ofCode 0xA) := by
  unfold State.abortLoad
  rw [hload]
  dsimp only
  rcases hphase with h | h <;> rw [h]
theorem State.abortLoad_late (hload : s.cfg.load = some l) (hphase : l.phase = .write) : s.abortLoad = s.raise F.CFG_ERR_ABORTLATE := by
  unfold State.abortLoad
  rw [hload]
  dsimp only
  rw [hphase]

/-! ## Flash (R169, R170) -/

theorem State.get_setLoad (s : State) (l : LoadSt) (g : Fld) : (s.setLoad l).get g = s.get g := rfl
theorem State.is_setLoad (s : State) (l : LoadSt) (g : Fld) : (s.setLoad l).is g = s.is g := rfl
theorem State.image_setLoad (s : State) (l : LoadSt) (f : Nat) : (s.setLoad l).image f = s.image f := rfl
/-- The second slot of the flash follows the first in mode FLASH. -/
theorem State.flashFail_next {e : LoadFail} (h : s.straps.mode = 1) (hslot : s.is F.CFG_STATUS_FLASHSLOT = false) :
    s.flashFail e = State.setLoad (((s.clearConfig.noteLoadFail e).raise F.GLB_ERR_LOADFAIL).raise F.CFG_STATUS_FLASHSLOT)
      { LoadSt.start none true with flash := .start true } := by
  unfold State.flashFail
  exact if_pos ⟨h, by rw [hslot]; decide⟩
theorem State.flashFail_last {e : LoadFail} (h : s.straps.mode ≠ 1 ∨ s.is F.CFG_STATUS_FLASHSLOT = true) :
    s.flashFail e = s.failLoad e := by
  unfold State.flashFail
  refine if_neg fun hnext => ?_
  rcases h with h | h
  · exact h hnext.1
  · exact hnext.2 h
theorem State.flashLoad_none (hload : s.cfg.load = some l) (hpair : l.pair = none) (hphase : l.phase = .ingest) :
    s.flashLoad none = s.flashFail (.ofCode 0xB) := by
  unfold State.flashLoad
  rw [hload]
  dsimp only
  rw [hpair, hphase]
  rfl

/-- What the second slot finds: nothing configured, and the first slot's result. -/
theorem State.flashFail_first {e : LoadFail} (h : s.straps.mode = 1) (hslot : s.is F.CFG_STATUS_FLASHSLOT = false) (hcode : e.code < 256) :
    (s.flashFail e).cfg.load = some { LoadSt.start none true with flash := .start true } ∧
      (s.flashFail e).is F.CFG_STATUS_FLASHSLOT = true ∧ (s.flashFail e).get F.CFG_ERR_CODE = e.code ∧
      ∀ f < 24, (s.flashFail e).configured f = false := by
  rw [State.flashFail_next h hslot]
  generalize hu : s.clearConfig.noteLoadFail e = u
  have hcodeU : u.get F.CFG_ERR_CODE = e.code := by
    rw [← hu, State.get_noteLoadFail_code, Nat.mod_eq_of_lt hcode]
  have himages : u.images = s.clearConfig.images := by rw [← hu, State.noteLoadFail_eq]
  refine ⟨rfl, ?_, ?_, fun f hf => ?_⟩
  · rw [State.is_setLoad, State.is_raise _ (by decide) rfl]
  · rw [State.get_setLoad, State.raise, State.get_put_other _ _ (by decide), State.raise, State.get_put_other _ _ (by decide), hcodeU]
  · rw [State.configured, State.image_setLoad, State.image, State.raise_images, State.raise_images, himages, ← State.image,
      State.image_clearConfig _ hf]
    rfl

end

/-- Settles O32: every such end is `failLoad`, which notes the result and returns to the mode before LOADING. -/
theorem loadsEndInError : Obligations.LoadsEndInError := by
  unfold Obligations.LoadsEndInError
  intro s l hload
  have hends (c : Instr) {u : State} {code : Nat} (h : s.EndsLoad l code u) (hexec : exec c s = .next u) :
      ∃ t, exec c s = .next t ∧ s.EndsLoad l code t := ⟨u, hexec, h⟩
  have hfail {n : Nat} (hn : n < 256) : s.EndsLoad l n (s.failLoad (.ofCode n)) := State.endsLoad_failLoad (e := .ofCode n) hload hn
  refine ⟨fun hphase => hends .loadSourceTimeout (hfail (by decide)) (congrArg Host.Outcome.next (State.loadTimeout_eq hload hphase)),
    fun hphase => hends .abort (hfail (by decide)) (congrArg Host.Outcome.next (State.abortLoad_ends hload hphase)),
    fun hphase => congrArg Host.Outcome.next (State.abortLoad_late hload hphase),
    fun hphase i hinfo => ⟨fun henc htag => hends .verify ?_ rfl, fun htag hsig => hends .verify ?_ rfl,
      fun htag hsig hown hslot => hends .verify ?_ rfl, fun e he => hends .verify (State.endsLoad_verify hload hphase hinfo he) rfl⟩,
    fun hpair hphase => ⟨fun hlast => hends (.flashLoad none) (hfail (by decide)) (congrArg Host.Outcome.next ?_), fun hmode hslot =>
      ⟨_, congrArg Host.Outcome.next (State.flashLoad_none hload hpair hphase), State.flashFail_first hmode hslot (by decide)⟩⟩⟩
  · exact State.endsLoad_verify (e := .ofCode 5) hload hphase hinfo (State.verifyFails_tag henc htag)
  · exact State.endsLoad_verify (e := .ofCode 3) hload hphase hinfo (State.verifyFails_sig htag hsig)
  · exact State.endsLoad_verify (e := .ofCode 4) hload hphase hinfo (State.verifyFails_owner htag hsig hown hslot)
  · rw [State.flashLoad_none hload hpair hphase, State.flashFail_last hlast]

end Sys2Proof.Machine
end

section
/-! RESULT. O33: a good image goes through ingest, verify and the write phase (R180 to R188). -/
namespace Sys2Proof.Machine

/-! ## Ingest of less than a header (R172, R180) -/

/-- The first word of an image holds the magic value, or the load fails in FORMAT. -/
def magicFails (ws : List Word) : Option LoadFail :=
  match ws with
  | w :: _ => if bitsOf 16 32 w.toNat = 0x50434647 then none else some (.ofCode 1)
  | [] => none
theorem magicFails_none {ws : List Word} (h : ∀ w, ws.head? = some w → bitsOf 16 32 w.toNat = 0x50434647) : magicFails ws = none := by
  cases ws with
  | nil => rfl
  | cons w ws => exact if_pos (h w rfl)
theorem magicFails_some {ws : List Word} {w : Word} (hw : ws.head? = some w) (h : bitsOf 16 32 w.toNat ≠ 0x50434647) :
    magicFails ws = some (.ofCode 1) := by
  cases ws with
  | nil => cases hw
  | cons v ws =>
    rw [List.head?_cons, Option.some.injEq] at hw
    subst hw
    exact if_neg h

/-- A load that takes in words: they are counted in CFG.WORDS. -/
def State.takeIn (s : State) (l : LoadSt) : State := (s.setLoad l).put F.CFG_WORDS_COUNT (min l.got.length (2 ^ 25 - 1))
theorem State.takeIn_load (s : State) (l : LoadSt) : (s.takeIn l).cfg.load = some l := by
  rw [State.takeIn, State.put_cfg]
  rfl
theorem State.get_takeIn (s : State) (l : LoadSt) (h : l.got.length < 2 ^ 25) : (s.takeIn l).get F.CFG_WORDS_COUNT = l.got.length := by
  rw [State.takeIn, State.get_put _ _ (by decide)]
  show min _ _ % 2 ^ 25 = _
  omega
theorem State.setLoad_self {s : State} {l : LoadSt} (h : s.cfg.load = some l) : s.setLoad l = s := by
  rw [State.setLoad, ← h]

section
variable {s : State} {l : LoadSt} {ws : List Word} (checks : List LineCheck)

theorem State.takeParts_short (n : Nat) (hinfo : l.info = none) (hlen : l.got.length < 128) :
    s.takeParts l checks (n + 1) = ⟨s, l, magicFails l.got⟩ := by
  rw [State.takeParts, hinfo]
  exact if_pos hlen

/-- Words that do not make a header yet are kept, and only the magic value is looked at. -/
theorem State.ingest_short (hinfo : l.info = none) (hcomplete : l.complete = false) {m : LoadSt} (hm : { l with got := l.got ++ ws } = m)
    (hlen : m.got.length < 128) : s.ingest l ws checks = ⟨s.takeIn m, m, magicFails m.got⟩ := by
  have hinfo' : m.info = none := by rw [← hm]; exact hinfo
  have hcomplete' : m.complete = false := by rw [← hm]; exact hcomplete
  have hparts : ((s.setLoad m).put F.CFG_WORDS_COUNT (min m.got.length (2 ^ 25 - 1))).takeParts m checks 29 =
      ⟨s.takeIn m, m, magicFails m.got⟩ := State.takeParts_short checks 28 hinfo' hlen
  unfold State.ingest
  rw [hm]
  dsimp only
  rw [hparts]
  dsimp only
  rw [State.setLoad_self (State.takeIn_load s m), LoadSt.lengthBad, hinfo', hcomplete']
  simp

/-! ## CFGLOAD (R180) -/

/-- The load that the first descriptor of an image starts. -/
def DescSt.firstLoad (d : DescSt) (q : Nat) : LoadSt := { LoadSt.start (some q) false with got := d.gathered, last := some d.slot }
theorem DescSt.length_gathered (d : DescSt) : d.gathered.length = d.len := by
  rw [DescSt.gathered, List.length_map, List.length_range]

end

section
variable {s : State} {d : DescSt} {q : Nat} (checks : List LineCheck) (hnone : s.cfg.load = none) (hlen : d.len < 128)
include hnone hlen

theorem State.actCfgload_more (h : magicFails d.gathered = none) :
    s.actCfgload q d checks = (s.takeIn (d.firstLoad q)).finish q d d.status 0 := by
  have hin := State.ingest_short (s := s) (l := { LoadSt.start (some q) false with last := some d.slot }) (ws := d.gathered) checks rfl rfl
    (m := d.firstLoad q) rfl (by rw [DescSt.firstLoad, DescSt.length_gathered]; exact hlen)
  unfold State.actCfgload
  rw [hnone]
  dsimp only
  rw [hin]
  dsimp only
  rw [show (d.firstLoad q).got = d.gathered from rfl, h]
  rfl
theorem State.actCfgload_fails {e : LoadFail} (h : magicFails d.gathered = some e) :
    s.actCfgload q d checks = (s.takeIn (d.firstLoad q)).failLoad e := by
  have hin := State.ingest_short (s := s) (l := { LoadSt.start (some q) false with last := some d.slot }) (ws := d.gathered) checks rfl rfl
    (m := d.firstLoad q) rfl (by rw [DescSt.firstLoad, DescSt.length_gathered]; exact hlen)
  unfold State.actCfgload
  rw [hnone]
  dsimp only
  rw [hin]
  dsimp only
  rw [show (d.firstLoad q).got = d.gathered from rfl, h]

end

section
variable (s : State) (q : Nat) (d : DescSt) (status : Nat) (result : Word)

theorem State.load_dropUnknown : (s.dropUnknown q).cfg.load = s.cfg.load :=
  (s.sameButHost_dropUnknown q).observe (fun u : State => u.cfg.load) fun _ _ _ => rfl
theorem State.load_finish : (s.finish q d status result).cfg.load = s.cfg.load :=
  (s.sameButHost_finish q d status result).observe (fun u : State => u.cfg.load) fun _ _ _ => rfl
theorem State.get_finish (g : Fld) : (s.finish q d status result).get g = s.get g :=
  (s.sameButHost_finish q d status result).observe (State.get · g) fun _ _ _ => rfl
theorem State.keepsPair_takeIn (l : LoadSt) : s.KeepsPair (s.takeIn l) q := by
  have hload : s.KeepsPair (s.setLoad l) q := .of_same rfl rfl
  exact hload.trans (State.keepsPair_put _ q F.CFG_WORDS_COUNT _ (by decide) (by decide))

end

section
variable {s : State} {q : Fin 32} {slot : Nat} {d : DescSt} (checks : List LineCheck) (h : DescReady s q slot 5 d)
  (hnone : s.cfg.load = none) (hlen : d.len < 128)
include h hnone hlen

theorem cfgload_starts (hmagic : ∀ w, d.gathered.head? = some w → bitsOf 16 32 w.toNat = 0x50434647) :
    ∃ t, exec (.cfgload q slot checks) s = .next t ∧ DescEnds s t q slot d d.status 0 ∧ t.get F.CFG_WORDS_COUNT = d.len ∧
      t.cfg.load = some (d.firstLoad q) := by
  have hkeeps := (s.keepsPair_dropUnknown q).trans (State.keepsPair_takeIn _ q (d.firstLoad q))
  refine ⟨((s.dropUnknown q).takeIn (d.firstLoad q)).finish q d d.status 0, congrArg Host.Outcome.next ?_, ?_, ?_, ?_⟩
  · rw [h.gather]
    exact State.actCfgload_more checks ((s.load_dropUnknown q).trans hnone) hlen (magicFails_none hmagic)
  · rw [← h.slot_eq]
    exact hkeeps.finish _ _ _
  · rw [State.get_finish, State.get_takeIn]
    · exact d.length_gathered
    · rw [DescSt.firstLoad, DescSt.length_gathered]
      omega
  · rw [State.load_finish, State.takeIn_load]
theorem cfgload_format {w : Word} (hw : d.gathered.head? = some w) (hmagic : bitsOf 16 32 w.toNat ≠ 0x50434647) :
    ∃ t, exec (.cfgload q slot checks) s = .next t ∧ t.cfg.load = none ∧ t.get F.CFG_ERR_CODE = 1 ∧ t.is F.GLB_ERR_LOADFAIL = true := by
  obtain ⟨hload, hcode, hfail, -⟩ := State.endsLoad_failLoad (e := .ofCode 1) (State.takeIn_load (s.dropUnknown q) (d.firstLoad q))
    (by decide)
  refine ⟨_, congrArg Host.Outcome.next ?_, hload, hcode, hfail⟩
  rw [h.gather]
  exact State.actCfgload_fails checks ((s.load_dropUnknown q).trans hnone) hlen (magicFails_some hw hmagic)

end

/-! ## Verify accepts (R177, R181, R186) -/

section
variable {s : State} {l : LoadSt} {i : ImageInfo}

/-- R177: a patch that takes effect is noted. -/
theorem State.notes_placePatch (s : State) (p : Option (Nat × Nat)) : s.Notes (s.placePatch p) := by
  cases p with
  | none => exact .refl s
  | some p =>
    have hrev := (State.Notes.refl s).put (f := F.STW_FW_PATCHREV) (by decide) p.1
    exact ((hrev.put (f := F.STW_FW_PATCHID) (by decide) p.2).logEntry _ _ _ _).post _ _ _

theorem State.verifyWith_accepts {fail : State → LoadFail → State} (h : (s.noteOwner l.keyDigest).verifyFails l i = none) :
    s.verifyWith l i fail = (s.noteOwner l.keyDigest).acceptLoad l i := by
  unfold State.verifyWith
  dsimp only
  rw [h]

/-- An accepted full image of the store waits for its write phase. -/
theorem State.acceptLoad_store (hfull : i.full = true) (hdirect : l.direct = false) : (s.acceptLoad l i).mode = s.mode ∧
    (s.acceptLoad l i).images = s.images ∧ (s.acceptLoad l i).cfg.load = some { l with phase := .write } := by
  have hpatch := s.notes_placePatch (l.patchFound i)
  unfold State.acceptLoad
  rw [hfull, hdirect]
  exact ⟨hpatch.mode, hpatch.images, rfl⟩

theorem State.get_syncConfig_other (s : State) {g : Fld} (h : g.reg.off ≠ R.CFG_FIELDS.off) (h' : g.reg.off ≠ R.CFG_OPMIN.off) :
    s.syncConfig.get g = s.get g := by
  rw [State.syncConfig, State.get_put_other _ _ h', State.get_put_other _ _ h]

/-- What is noted of an accepted partial image before RESHAPE begins. -/
def State.notePartial (s : State) (l : LoadSt) (i : ImageInfo) : State :=
  ((s.setLoad { l with phase := .waitStop, gosrc := s.is F.CFG_CTL_GOSRC }).put F.CFG_RESHAPE_MAP i.fieldMap.toNat).syncConfig.noteLoadOk
theorem State.notePartial_keeps (s : State) (l : LoadSt) (i : ImageInfo) : (s.notePartial l i).mode = s.mode ∧
    (s.notePartial l i).images = s.images ∧
    (s.notePartial l i).cfg.load = some { l with phase := .waitStop, gosrc := s.is F.CFG_CTL_GOSRC } := by
  have hsync := State.settles_syncConfig
    ((s.setLoad { l with phase := .waitStop, gosrc := s.is F.CFG_CTL_GOSRC }).put F.CFG_RESHAPE_MAP i.fieldMap.toNat)
  rw [State.notePartial, State.noteLoadOk, State.noteLoadFail_eq]
  dsimp only
  rw [hsync.mode, hsync.images, hsync.load, State.put_mode, State.put_images, State.put_cfg]
  exact ⟨rfl, rfl, rfl⟩
theorem State.get_notePartial_map (s : State) (l : LoadSt) (i : ImageInfo) :
    (s.notePartial l i).get F.CFG_RESHAPE_MAP = i.fieldMap.toNat := by
  rw [State.notePartial, State.noteLoadOk, State.get_noteLoadFail_other _ _ (by decide) (by decide),
    State.get_syncConfig_other _ (by decide) (by decide), State.get_put _ _ (by decide)]
  exact Nat.mod_eq_of_lt i.fieldMap.isLt

theorem State.get_withMode (s : State) (m : ModeSt) (g : Fld) : State.get { s with mode := m } g = s.get g := rfl
/-- RESHAPE begins, and the descriptor completes. -/
def State.beginReshape (s : State) (l : LoadSt) : State :=
  (s.enterMode { s.mode with ov := { s.mode.ov with reshape := true } } .load).loadReply l stOk 0
theorem State.notes_beginReshape (s : State) (l : LoadSt) :
    State.Notes { s with mode := { s.mode with ov := { s.mode.ov with reshape := true } } } (s.beginReshape l) :=
  State.Notes.loadReply (s.notes_enterMode _ .load) l stOk 0
theorem State.acceptPartial_eq (s : State) (l : LoadSt) (i : ImageInfo) :
    s.acceptPartial l i = (s.notePartial l i).beginReshape l := by
  rw [State.acceptPartial, State.notePartial, State.beginReshape]
theorem State.acceptLoad_eq (hfull : i.full = false) : s.acceptLoad l i = (s.placePatch (l.patchFound i)).acceptPartial l i := by
  unfold State.acceptLoad
  rw [hfull]
  exact if_pos rfl

/-- R186: an accepted partial image starts RESHAPE. -/
theorem State.acceptLoad_partial (hfull : i.full = false) : (s.acceptLoad l i).mode.ov.reshape = true ∧
    (s.acceptLoad l i).mode.base = s.mode.base ∧ (s.acceptLoad l i).images = s.images ∧
    (s.acceptLoad l i).get F.CFG_RESHAPE_MAP = i.fieldMap.toNat ∧
    ∃ m, (s.acceptLoad l i).cfg.load = some m ∧ m.phase = .waitStop := by
  have hpatch := s.notes_placePatch (l.patchFound i)
  obtain ⟨hmode, himages, hload⟩ := (s.placePatch (l.patchFound i)).notePartial_keeps l i
  have hmap := (s.placePatch (l.patchFound i)).get_notePartial_map l i
  rw [State.acceptLoad_eq hfull, State.acceptPartial_eq]
  generalize (s.placePatch (l.patchFound i)).notePartial l i = u at hmode himages hload hmap ⊢
  have hnotes := u.notes_beginReshape l
  have hbase : u.mode.base = s.mode.base := by rw [hmode, hpatch.mode]
  rw [hnotes.mode, hnotes.images, hnotes.get (by decide), State.get_withMode, hnotes.cfg]
  exact ⟨rfl, hbase, himages.trans hpatch.images, hmap, _, hload, rfl⟩

variable (hload : s.cfg.load = some l) (hphase : l.phase = .verify) (hinfo : l.info = some i)
  (hgood : (s.noteOwner l.keyDigest).verifyFails l i = none)
include hload hphase hinfo hgood

theorem State.verifyLoad_store (hfull : i.full = true) (hdirect : l.direct = false) : s.verifyLoad.mode = s.mode ∧
    s.verifyLoad.images = s.images ∧ s.verifyLoad.cfg.load = some { l with phase := .write } := by
  rw [State.verifyLoad_eq hload hphase hinfo, State.verifyWith_accepts hgood]
  exact State.acceptLoad_store (s := s.noteOwner l.keyDigest) hfull hdirect
theorem State.verifyLoad_partial (hfull : i.full = false) : s.verifyLoad.mode.ov.reshape = true ∧
    s.verifyLoad.mode.base = s.mode.base ∧ s.verifyLoad.images = s.images ∧ s.verifyLoad.get F.CFG_RESHAPE_MAP = i.fieldMap.toNat ∧
    ∃ m, s.verifyLoad.cfg.load = some m ∧ m.phase = .waitStop := by
  rw [State.verifyLoad_eq hload hphase hinfo, State.verifyWith_accepts hgood]
  exact State.acceptLoad_partial (s := s.noteOwner l.keyDigest) hfull

end

/-! ## Images placed (R185) -/

/-- Registers below the fields' blocks. -/
def RegRef.belowFields (r : RegRef) : Prop := r.off < 0xC0000
theorem RegRef.ne_of_belowFields {r : RegRef} (h : r.belowFields) {o : Nat} (ho : 0xC0000 ≤ o) : r.off ≠ o := by
  unfold RegRef.belowFields at h
  omega

section
variable (s : State) (f : Nat)

theorem State.settlesIn_putHigh {g : Fld} (hg : 0xC0000 ≤ g.reg.off) (v : Nat) : s.SettlesIn RegRef.belowFields (s.put g v) :=
  s.settles_put (fun _ h => RegRef.ne_of_belowFields h hg) v
theorem State.settlesIn_setRegHigh {r : RegRef} (hr : 0xC0000 ≤ r.off) (v : Nat) : s.SettlesIn RegRef.belowFields (s.setReg r v) :=
  s.settles_setReg (fun _ h => RegRef.ne_of_belowFields h hr) v
theorem State.settlesIn_setQueue (k : Nat) (q : QCtl) : s.SettlesIn RegRef.belowFields (s.setQueue k q) := ⟨⟨rfl, rfl, fun _ _ => rfl⟩, rfl⟩
theorem State.settlesIn_zeroMemory (j : Nat) : s.SettlesIn RegRef.belowFields (s.zeroMemory f j) := by
  unfold State.zeroMemory
  extract_lets u k
  have hu : s.SettlesIn RegRef.belowFields u := s.settles_bmem _
  exact (hu.trans (State.settlesIn_setQueue u k _)).trans
    (State.settlesIn_putHigh _ (by show 0xC0000 ≤ 0xc0400 + 4096 * f + 16 * j; omega) 1)
theorem State.settlesIn_loadMemories (x : FieldImage) : s.SettlesIn RegRef.belowFields (s.loadMemories f x) := by
  have hword (u : State) (e : Nat × (Word × BitVec 4)) : u.SettlesIn RegRef.belowFields
      (u.setWord (memKey f (e.1 / 2048)) (e.1 % 2048) (some (u.bmCell f (e.1 / 2048) e.2.1 e.2.2))) := u.settles_bmem _
  unfold State.loadMemories State.loadWords
  exact (State.SettlesIn.foldl (fun u j => u.settlesIn_zeroMemory f j) _ _).trans (State.SettlesIn.foldl hword _ _)
theorem State.settlesIn_stuckNis (b : Bool) : s.SettlesIn RegRef.belowFields (s.stuckNis f b) :=
  .foldl (fun u n => u.settles_setNi n _) _ _
theorem State.settlesIn_reshapeNis (b : Bool) : s.SettlesIn RegRef.belowFields (s.reshapeNis f b) :=
  .foldl (fun u n => u.settles_setNi n _) _ _
theorem State.settlesIn_endFenced : s.SettlesIn RegRef.belowFields (s.endFenced f) := ⟨⟨rfl, rfl, fun _ _ => rfl⟩, rfl⟩

/-- Beside the image, what a field that takes one leaves. -/
theorem State.settlesIn_placeField (x : FieldImage) (enc : Bool) :
    ((s.unconfigure f).setImage f (some x)).SettlesIn RegRef.belowFields (s.placeField f x enc) := by
  have hpq (u : State) (e : Nat × BitVec 32) : u.SettlesIn RegRef.belowFields (u.setReg (R.FLD_PQOUT f (e.1 % 6)) e.2.toNat) :=
    u.settlesIn_setRegHigh (by show 0xC0000 ≤ 0xc00a4 + 4096 * f + 4 * (e.1 % 6); omega) _
  have hbm (u : State) (e : Nat × BitVec 32) :
      u.SettlesIn RegRef.belowFields (u.setReg (R.FLD_BM_CFG f (e.1 % 192)) (setBitsOf 5 1 e.2.toNat 0)) :=
    u.settlesIn_setRegHigh (by show 0xC0000 ≤ 0xc0400 + 4096 * f + 16 * (e.1 % 192); omega) _
  have hinit (u : State) (j : Nat) : u.SettlesIn RegRef.belowFields (u.raise (F.FLD_BM_CFG_INITD f (j % 192))) :=
    u.settlesIn_putHigh (by show 0xC0000 ≤ 0xc0400 + 4096 * f + 16 * (j % 192); omega) 1
  unfold State.placeField
  extract_lets old placed set pq bm init fabric zero fresh kept
  have hset : placed.SettlesIn RegRef.belowFields set :=
    (placed.settlesIn_putHigh (g := F.FLD_NEED_CYC f) (by show 0xC0000 ≤ 0xc0008 + 4096 * f; omega) _).trans
      (State.settlesIn_putHigh _ (g := F.FLD_PROT_EN f) (by show 0xC0000 ≤ 0xc0090 + 4096 * f; omega) _)
  have hregs : placed.SettlesIn RegRef.belowFields init :=
    ((hset.trans (.foldl hpq _ _)).trans (.foldl hbm _ _)).trans (.foldl hinit _ _)
  have hfabric : init.SettlesIn RegRef.belowFields fabric :=
    ((init.settlesIn_loadMemories f x).trans (State.settles_initFabric _ f)).trans (State.settlesIn_stuckNis _ f false)
  have hfresh : fabric.SettlesIn RegRef.belowFields fresh := State.settles_setFld _ _ _
  have hkept : fresh.SettlesIn RegRef.belowFields kept :=
    (fresh.settlesIn_putHigh (g := ⟨R.SCR_UNCFG, f, 1⟩) (by show 0xC0000 ≤ R.SCR_UNCFG.off; decide) 0).trans
      (State.settlesIn_endFenced _ f)
  exact (((hregs.trans hfabric).trans hfresh).trans hkept).trans (State.settles_encrypted _ _)

/-- What stays as a field takes an image. -/
theorem State.settles_placeField (x : FieldImage) (enc : Bool) : s.Settles RegRef.belowFields (s.placeField f x enc) := by
  have hdrop := s.settles_unconfigure (keep := RegRef.belowFields) (f := f) fun r hr => by unfold RegRef.belowFields at hr; omega
  exact (((s.settles_setImage none).trans hdrop.toSettles).trans (State.settles_setImage _ _)).trans
    (s.settlesIn_placeField f x enc).toSettles
theorem State.image_placeField (x : FieldImage) (enc : Bool) (k : Nat) :
    (s.placeField f x enc).image k = if k = f then some x else s.image k := by
  rw [(s.settlesIn_placeField f x enc).image]
  split
  · next h => rw [h, State.image_setImage]
  · next h => rw [State.image_setImage_other _ _ _ h, State.image_unconfigure, if_neg h]

end

/-! ## Slots that change places (R181) -/

section
variable (s : State) (k : Nat)

theorem State.settlesIn_swapSlot (c : Nat) : s.SettlesIn RegRef.belowFields (s.swapSlot c) :=
  (s.settlesIn_putHigh (g := slotBit c) (by show 0xC0000 ≤ R.CFG_SLOT.off; decide) _).trans
    (State.settlesIn_putHigh _ (g := gvalidBit c) (by show 0xC0000 ≤ R.CFG_GVALID.off; decide) 1)
theorem State.settlesIn_swapSlots (cs : List Nat) : s.SettlesIn RegRef.belowFields (s.forEach cs State.swapSlot) :=
  .foldl State.settlesIn_swapSlot _ _
theorem State.is_gvalid_swapSlot (c : Nat) :
    (s.swapSlot c).is (gvalidBit k) = (min k 24 == min c 24 || s.is (gvalidBit k)) := by
  rw [State.swapSlot, State.is_gvalid_raise, State.is, State.get_put_other _ _ (by show R.CFG_GVALID.off ≠ R.CFG_SLOT.off; decide),
    State.is]
/-- The new slots hold golden copies. -/
theorem State.is_gvalid_swapSlots {cs : List Nat} (h : k ∈ cs) : (s.forEach cs State.swapSlot).is (gvalidBit k) = true := by
  have hkeep (l : List Nat) (t : State) (ht : t.is (gvalidBit k) = true) : (t.forEach l State.swapSlot).is (gvalidBit k) = true :=
    List.foldlRecOn (motive := fun t : State => t.is (gvalidBit k) = true) _ _ ht fun t ht c _ => by
      rw [State.is_gvalid_swapSlot, ht, Bool.or_true]
  obtain ⟨l, m, rfl⟩ := List.append_of_mem h
  unfold State.forEach at *
  rw [List.foldl_append, List.foldl_cons]
  exact hkeep m _ (by rw [State.is_gvalid_swapSlot, beq_self_eq_true, Bool.true_or])

end

/-! ## A full image is written (R184, R185) -/

/-- A field takes the image's section, or loses its configuration. -/
def State.placeOrClear (l : LoadSt) (i : ImageInfo) (s : State) (f : Nat) : State :=
  match l.sections.find? fun e => e.1 == f with
  | some e => ((s.placeField f e.2 i.enc).setFld f FieldSt.zero).reshapeNis f false
  | none => ((s.unconfigure f).setFld f FieldSt.zero).put (gvalidBit f) 0
/-- The slots of a load of the store change places. -/
def State.swapAll (s : State) (l : LoadSt) : State := if l.direct then s else s.forEach (24 :: l.sections.map (·.1)) State.swapSlot
/-- The device section of a full image takes effect, and no field stands marked as uncorrectable. -/
def State.placeAllPins (s : State) (l : LoadSt) : State := (s.placeDevice l.device fun _ => true).setReg R.SCR_UNCFG 0
/-- A load that has been written is no more, and its result is OK. -/
def State.closeLoad (s : State) : State := (State.syncConfig { s with cfg := { s.cfg with load := none } }).noteLoadOk
/-- STAGED follows a full image, the descriptor completes, and AUTORUN goes on to LOCKING. -/
def State.beginStaged (s : State) (l : LoadSt) : State :=
  let s := (s.enterMode { s.mode with base := .staged } .load).loadReply l stOk 0
  if s.is F.GLB_LOCKCFG_AUTORUN then s.enterLocking .load else s
theorem State.fullWritten_eq (s : State) (l : LoadSt) (i : ImageInfo) : s.fullWritten l i =
    ((((s.forEach allFields (State.placeOrClear l i)).swapAll l).placeAllPins l).closeLoad).beginStaged l := by
  unfold State.fullWritten State.beginStaged State.closeLoad State.placeAllPins State.swapAll State.placeOrClear
  rfl

section
variable (s : State) (l : LoadSt) (i : ImageInfo)

theorem State.settles_placeOrClear (f : Nat) : s.Settles RegRef.belowFields (State.placeOrClear l i s f) := by
  unfold State.placeOrClear
  split
  · exact (s.settles_placeField f _ _).trans ((State.settles_setFld _ f _).trans (State.settlesIn_reshapeNis _ f false)).toSettles
  · have hdrop := s.settles_unconfigure (keep := RegRef.belowFields) (f := f) fun r hr => by unfold RegRef.belowFields at hr; omega
    exact (s.settles_setImage none).trans ((hdrop.trans (State.settles_setFld _ f _)).trans
      (State.settlesIn_putHigh _ (g := gvalidBit f) (by show 0xC0000 ≤ R.CFG_GVALID.off; decide) 0)).toSettles
theorem State.image_placeOrClear (f k : Nat) : (State.placeOrClear l i s f).image k =
    if k = f then (l.sections.find? fun e => e.1 == f).map (·.2) else s.image k := by
  unfold State.placeOrClear
  split
  · next e he =>
    rw [((State.settles_setFld _ f _).trans (State.settlesIn_reshapeNis _ f false)).image, State.image_placeField, he]
    rfl
  · next he =>
    have hput := State.settlesIn_putHigh ((s.unconfigure f).setFld f FieldSt.zero) (g := gvalidBit f)
      (by show 0xC0000 ≤ R.CFG_GVALID.off; decide) 0
    rw [((State.settles_setFld _ f _).trans hput).image, State.image_unconfigure, he]
    rfl
theorem State.settlesIn_swapAll : s.SettlesIn RegRef.belowFields (s.swapAll l) := by
  unfold State.swapAll
  split
  · exact .refl s
  · exact s.settlesIn_swapSlots _
theorem State.settlesIn_placeDevice (keep : RegRef → Prop) (ws : List Word) (mine : Nat → Bool) : s.SettlesIn keep (s.placeDevice ws mine) := by
  refine .foldl (fun t k => ?_) _ s
  split
  · exact ⟨⟨rfl, rfl, fun _ _ => rfl⟩, rfl⟩
  · exact .refl t
theorem State.settlesIn_placeAllPins : s.SettlesIn RegRef.belowFields (s.placeAllPins l) :=
  (s.settlesIn_placeDevice _ _ _).trans (State.settlesIn_setRegHigh _ (by decide) 0)
theorem State.is_gvalid_placeAllPins (k : Nat) : (s.placeAllPins l).is (gvalidBit k) = s.is (gvalidBit k) := by
  have hset := State.settles_setReg (keep := fun r => r.off = R.CFG_GVALID.off) (s.placeDevice l.device fun _ => true) (x := R.SCR_UNCFG)
    (fun r hr => by rw [hr]; decide) 0
  exact ((s.settlesIn_placeDevice _ _ _).trans hset).toSettles.is rfl

theorem State.noteLoadOk_mode : s.noteLoadOk.mode = s.mode := by rw [State.noteLoadOk, State.noteLoadFail_eq]
theorem State.noteLoadOk_images : s.noteLoadOk.images = s.images := by rw [State.noteLoadOk, State.noteLoadFail_eq]
theorem State.noteLoadOk_cfg : s.noteLoadOk.cfg = s.cfg := by rw [State.noteLoadOk, State.noteLoadFail_eq]
theorem State.closeLoad_keeps : s.closeLoad.mode = s.mode ∧ s.closeLoad.images = s.images ∧ s.closeLoad.cfg.load = none := by
  have hsync := State.settles_syncConfig { s with cfg := { s.cfg with load := none } }
  rw [State.closeLoad, State.noteLoadOk_mode, State.noteLoadOk_images, State.noteLoadOk_cfg]
  exact ⟨hsync.mode, hsync.images, hsync.load⟩
theorem State.get_closeLoad_code : s.closeLoad.get F.CFG_ERR_CODE = 0 := by
  rw [State.closeLoad, State.noteLoadOk, State.get_noteLoadFail_code]
  rfl
theorem State.get_withoutLoad (g : Fld) : State.get { s with cfg := { s.cfg with load := none } } g = s.get g := rfl
theorem State.get_closeLoad_other {g : Fld} (h : g.reg.off ≠ R.CFG_ERR.off) (h' : g.reg.off ≠ R.CFG_ERRLOC.off)
    (hf : g.reg.off ≠ R.CFG_FIELDS.off) (ho : g.reg.off ≠ R.CFG_OPMIN.off) : s.closeLoad.get g = s.get g := by
  rw [State.closeLoad, State.noteLoadOk, State.get_noteLoadFail_other _ _ h h', State.get_syncConfig_other _ hf ho, State.get_withoutLoad]

theorem State.beginStaged_ends : State.Notes { s with mode := (s.beginStaged l).mode } (s.beginStaged l) ∧
    (s.beginStaged l).mode.base = if s.is F.GLB_LOCKCFG_AUTORUN then .locking else .staged := by
  have hnotes := (s.notes_enterMode { s.mode with base := .staged } .load).loadReply l stOk 0
  unfold State.beginStaged
  extract_lets m v
  have hmode : v.mode = { s.mode with base := .staged } := hnotes.mode
  have hauto : v.is F.GLB_LOCKCFG_AUTORUN = s.is F.GLB_LOCKCFG_AUTORUN := hnotes.is (by decide)
  have hv : State.Notes { s with mode := v.mode } v := by rw [hmode]; exact hnotes
  rw [hauto]
  split
  · exact ⟨hv.thenMode (v.locks_enterLocking .load).notes, (v.locks_enterLocking .load).base⟩
  · exact ⟨hv, by rw [hmode]⟩

end

section
variable (s : State) (l : LoadSt) (i : ImageInfo)

/-- R184, R185: what a full image leaves. -/
theorem State.fullWritten_ends : (s.fullWritten l i).cfg.load = none ∧ (s.fullWritten l i).get F.CFG_ERR_CODE = 0 ∧
    (s.fullWritten l i).mode.base = (if s.is F.GLB_LOCKCFG_AUTORUN then .locking else .staged) ∧
    (∀ f < 24, (s.fullWritten l i).image f = (l.sections.find? fun e => e.1 == f).map (·.2)) ∧
    ∀ f ∈ l.sections.map (·.1), l.direct = false → (s.fullWritten l i).is (gvalidBit f) = true := by
  rw [State.fullWritten_eq]
  generalize hu : s.forEach allFields (State.placeOrClear l i) = u
  have hset : s.Settles RegRef.belowFields u := by
    rw [← hu]
    exact .foldl (fun t f _ => t.settles_placeOrClear l i f) s
  have himage (f : Nat) (hf : f < 24) : u.image f = (l.sections.find? fun e => e.1 == f).map (·.2) := by
    rw [← hu, State.image_forEach s fun t f _ k => t.image_placeOrClear l i f k, if_pos (show f ∈ allFields from List.mem_range.mpr hf)]
  have hplaced := (u.settlesIn_swapAll l).trans ((u.swapAll l).settlesIn_placeAllPins l)
  obtain ⟨hmode, himages, hload⟩ := ((u.swapAll l).placeAllPins l).closeLoad_keeps
  have hcode := ((u.swapAll l).placeAllPins l).get_closeLoad_code
  have hother := fun g => ((u.swapAll l).placeAllPins l).get_closeLoad_other (g := g)
  have hgvalid (f : Nat) (hf : f ∈ l.sections.map (·.1)) (hdirect : l.direct = false) :
      ((u.swapAll l).placeAllPins l).is (gvalidBit f) = true := by
    rw [State.is_gvalid_placeAllPins, State.swapAll, hdirect, if_neg Bool.false_ne_true]
    exact State.is_gvalid_swapSlots u f (List.mem_cons_of_mem _ hf)
  generalize (u.swapAll l).placeAllPins l = v at hplaced hmode himages hload hcode hother hgvalid ⊢
  obtain ⟨hnotes, hbase⟩ := v.closeLoad.beginStaged_ends l
  refine ⟨(congrArg CfgSt.load hnotes.cfg).trans hload, ?_, ?_, fun f hf => ?_, fun f hf hdirect => ?_⟩
  · rw [hnotes.get (by decide), State.get_withMode, hcode]
  · rw [hbase, State.is, hother _ (by decide) (by decide) (by decide) (by decide), ← State.is]
    have hauto : v.is F.GLB_LOCKCFG_AUTORUN = s.is F.GLB_LOCKCFG_AUTORUN :=
      (hset.trans hplaced.toSettles).is (by show R.GLB_LOCKCFG.off < 0xC0000; decide)
    rw [hauto]
  · rw [State.image, hnotes.images]
    show SMap.get v.closeLoad.images none f = _
    rw [himages, ← State.image, hplaced.image, himage f hf]
  · rw [State.is, hnotes.get (show (R.CFG_GVALID).ofConfig = true by decide), State.get_withMode,
      hother (gvalidBit f) (show R.CFG_GVALID.off ≠ R.CFG_ERR.off by decide) (show R.CFG_GVALID.off ≠ R.CFG_ERRLOC.off by decide)
        (show R.CFG_GVALID.off ≠ R.CFG_FIELDS.off by decide) (show R.CFG_GVALID.off ≠ R.CFG_OPMIN.off by decide), ← State.is]
    exact hgvalid f hf hdirect

end

/-! ## A partial image is written (R188) -/

/-- A field of the image takes its section. -/
def State.placeListed (l : LoadSt) (i : ImageInfo) (s : State) (f : Nat) : State :=
  match l.sections.find? fun e => e.1 == f with
  | some e => s.placeField f e.2 i.enc
  | none => s
theorem State.partialWritten_eq (s : State) (l : LoadSt) (i : ImageInfo) : s.partialWritten l i =
    let u := (s.forEach (l.sections.map (·.1)) (State.placeListed l i)).forEach (24 :: l.sections.map (·.1)) State.swapSlot
    (u.setLoad { l with phase := .sweep, sweepEnd := u.time.raw + 1792, dirty := false }).syncConfig := by
  unfold State.partialWritten State.placeListed
  rfl

section
variable (s : State) (l : LoadSt) (i : ImageInfo)

theorem State.settles_placeListed (f : Nat) : s.Settles RegRef.belowFields (State.placeListed l i s f) := by
  unfold State.placeListed
  split
  · exact s.settles_placeField f _ _
  · exact .refl s
theorem State.image_placeListed {f : Nat} (hf : f ∈ l.sections.map (·.1)) (k : Nat) : (State.placeListed l i s f).image k =
    if k = f then (l.sections.find? fun e => e.1 == f).map (·.2) else s.image k := by
  unfold State.placeListed
  split
  · next e he =>
    rw [State.image_placeField, he]
    rfl
  · next he =>
    obtain ⟨e, hmem, rfl⟩ := List.mem_map.mp hf
    exact absurd (beq_self_eq_true e.1) (List.find?_eq_none.mp he e hmem)

/-- The images of the sections stand, and the sweep of what was written begins. -/
theorem State.partialWritten_keeps : (s.partialWritten l i).mode = s.mode ∧
    (∃ n, (s.partialWritten l i).cfg.load = some { l with phase := .sweep, sweepEnd := n, dirty := false }) ∧
    ∀ f, (s.partialWritten l i).image f =
      if f ∈ l.sections.map (·.1) then (l.sections.find? fun e => e.1 == f).map (·.2) else s.image f := by
  rw [State.partialWritten_eq]
  generalize hu : s.forEach (l.sections.map (·.1)) (State.placeListed l i) = u
  have hset : s.Settles RegRef.belowFields u := by
    rw [← hu]
    exact .foldl (fun t f _ => t.settles_placeListed l i f) s
  have himage (f : Nat) : u.image f =
      if f ∈ l.sections.map (·.1) then (l.sections.find? fun e => e.1 == f).map (·.2) else s.image f := by
    rw [← hu, State.image_forEach s fun t f hf k => t.image_placeListed l i hf k]
  have hswap := u.settlesIn_swapSlots (24 :: l.sections.map (·.1))
  generalize u.forEach (24 :: l.sections.map (·.1)) State.swapSlot = v at hswap ⊢
  have hsync := State.settles_syncConfig (v.setLoad { l with phase := .sweep, sweepEnd := v.time.raw + 1792, dirty := false })
  exact ⟨hsync.mode.trans (hswap.mode.trans hset.mode), ⟨_, hsync.load⟩,
    fun f => (hsync.image f).trans ((hswap.image f).trans (himage f))⟩

end

/-! ## The write phase (R183, R188, R190) -/

section
variable {s : State} {l : LoadSt} {i : ImageInfo} (checks : List LineCheck)

theorem State.engineWork_readSlots (s : State) (l : LoadSt) : State.EngineWork s (s.readSlots l checks).1 := by
  unfold State.readSlots
  exact List.foldlRecOn (motive := fun p : State × Option (List (Nat × FieldImage)) => State.EngineWork s p.1) _ _ (.refl s)
    fun p hp e _ => State.getSection_workAt p.1 e.1 (s.spareSlot e.1) checks hp
/-- The device section of a load as the engine reads it, after the fields'. -/
def State.readDevice (s : State) (l : LoadSt) (checks : List LineCheck) : State × Option (List Word) :=
  (s.readSlots l checks).1.getSlot 31 (s.spareSlot 31) 0 l.device.length checks
theorem State.engineWork_readDevice (s : State) (l : LoadSt) : State.EngineWork s (s.readDevice l checks).1 :=
  State.getSlot_workAt _ _ _ _ _ _ (s.engineWork_readSlots checks l)

theorem State.copySlots_some {xs : List (Nat × FieldImage)} {ws : List Word} (hx : (s.readSlots l checks).2 = some xs)
    (hw : (s.readDevice l checks).2 = some ws) : s.copySlots l i checks =
      if i.full then (s.readDevice l checks).1.fullWritten { l with sections := xs, device := ws } i
      else (s.readDevice l checks).1.partialWritten { l with sections := xs, device := ws } i := by
  rw [State.readDevice] at hw
  unfold State.copySlots State.readDevice
  dsimp only
  rw [hx, hw]
theorem State.copySlots_none (h : (s.readSlots l checks).2 = none ∨ (s.readDevice l checks).2 = none) :
    s.copySlots l i checks = (s.readDevice l checks).1.writeFail l i := by
  rw [State.readDevice] at h
  unfold State.copySlots State.readDevice
  dsimp only
  rcases h with h | h
  · rw [h]
  · rw [h]
    split
    · next hnone => cases hnone
    · rfl

/-- R183: a store read that fails is a fatal error. -/
theorem State.freeze_writeFail (hsafe : s.mode.ov.safeHold = false) : (s.writeFail l i).mode.ov.freeze = true := by
  have hnote : (s.noteLoadFail (.ofCode 0xC)).mode = s.mode := by rw [State.noteLoadFail_eq]
  unfold State.writeFail
  extract_lets u
  have hu : u.mode = s.mode := hnote
  split
  · have hsync := State.settles_syncConfig { u with cfg := { u.cfg with load := none } }
    rw [((State.Notes.refl _).loadReply l 0x13 0xC).mode]
    refine State.freeze_enterFreeze ?_
    rw [hsync.mode]
    show u.mode.ov.safeHold = false
    rw [hu, hsafe]
  · exact State.freeze_enterFreeze (by rw [hu, hsafe])

variable (hload : s.cfg.load = some l) (hphase : l.phase = .write) (hinfo : l.info = some i)
include hload hphase hinfo

theorem State.writePhase_halt (hhalt : s.mode.ov.halt = true) : s.writePhase checks = s := by
  unfold State.writePhase
  rw [hload]
  dsimp only
  rw [hphase, hinfo]
  exact if_pos hhalt
theorem State.writePhase_eq (hhalt : s.mode.ov.halt = false) : s.writePhase checks = s.copySlots l i checks := by
  unfold State.writePhase
  rw [hload]
  dsimp only
  rw [hphase, hinfo]
  exact if_neg (by rw [hhalt]; exact Bool.false_ne_true)

variable (hhalt : s.mode.ov.halt = false)
include hhalt

theorem State.writePhase_fails (h : (s.readSlots l checks).2 = none ∨ (s.readDevice l checks).2 = none)
    (hsafe : s.mode.ov.safeHold = false) : (s.writePhase checks).mode.ov.freeze = true := by
  rw [State.writePhase_eq checks hload hphase hinfo hhalt, State.copySlots_none checks h]
  exact State.freeze_writeFail (by rw [(s.engineWork_readDevice checks l).mode, hsafe])

variable {xs : List (Nat × FieldImage)} {ws : List Word} (hx : (s.readSlots l checks).2 = some xs)
  (hw : (s.readDevice l checks).2 = some ws)
include hx hw

theorem State.writePhase_full (hfull : i.full = true) (hauto : s.is F.GLB_LOCKCFG_AUTORUN = false) :
    (s.writePhase checks).mode.base = .staged ∧ (s.writePhase checks).cfg.load = none ∧ (s.writePhase checks).get F.CFG_ERR_CODE = 0 ∧
      (∀ f < 24, (s.writePhase checks).image f = (xs.find? fun e => e.1 == f).map (·.2)) ∧
      ∀ e ∈ xs, e.1 < 24 → l.direct = false → (s.writePhase checks).is (gvalidBit e.1) = true := by
  have hwork := s.engineWork_readDevice checks l
  rw [State.writePhase_eq checks hload hphase hinfo hhalt, State.copySlots_some checks hx hw, if_pos hfull]
  obtain ⟨hnone, hcode, hbase, himage, hgvalid⟩ :=
    (s.readDevice l checks).1.fullWritten_ends { l with sections := xs, device := ws } i
  have hautoW : (s.readDevice l checks).1.is F.GLB_LOCKCFG_AUTORUN = false := by
    rw [State.is, hwork.get (by decide) (by decide)]
    exact hauto
  rw [hautoW] at hbase
  exact ⟨hbase, hnone, hcode, himage, fun e he _ hdirect => hgvalid e.1 (List.mem_map_of_mem he) hdirect⟩
theorem State.writePhase_partial (hfull : i.full = false) : (s.writePhase checks).mode = s.mode ∧
    (∃ m, (s.writePhase checks).cfg.load = some m ∧ m.phase = .sweep ∧ m.dirty = false ∧ m.sections = xs) ∧
    (∀ f, (∀ e ∈ xs, e.1 ≠ f) → (s.writePhase checks).image f = s.image f) ∧
    ∀ e ∈ xs, (s.writePhase checks).image e.1 = (xs.find? fun x => x.1 == e.1).map (·.2) := by
  have hwork := s.engineWork_readDevice checks l
  rw [State.writePhase_eq checks hload hphase hinfo hhalt, State.copySlots_some checks hx hw,
    if_neg (by rw [hfull]; exact Bool.false_ne_true)]
  obtain ⟨hmode, ⟨n, hsweep⟩, himage⟩ :=
    (s.readDevice l checks).1.partialWritten_keeps { l with sections := xs, device := ws } i
  refine ⟨hmode.trans hwork.mode, ⟨_, hsweep, rfl, rfl, rfl⟩, fun f hf => ?_, fun e he => ?_⟩
  · rw [himage, if_neg fun hmem => ?_, State.image, hwork.rest.images, State.image]
    obtain ⟨e, he, hef⟩ := List.mem_map.mp hmem
    exact hf e he hef
  · rw [himage, if_pos (List.mem_map_of_mem he)]

end

/-! ## A reshape's field has drained (R188) -/

/-- The load once a field has drained: the write phase begins with the last field of the image. -/
def LoadSt.withDrained (l : LoadSt) (f : Nat) : LoadSt :=
  let l := { l with drained := l.drained ++ [f] }
  if l.sections.all fun e => l.drained.contains e.1 then { l with phase := .write } else l

section
variable {s : State} {l : LoadSt}

theorem LoadSt.withDrained_drained (f : Nat) : (l.withDrained f).drained = l.drained ++ [f] := by
  unfold LoadSt.withDrained
  dsimp only
  split <;> rfl
theorem LoadSt.withDrained_phase (h : l.phase = .draining) (f : Nat) :
    (l.withDrained f).phase = .write ↔ ∀ e ∈ l.sections, e.1 ∈ l.drained ++ [f] := by
  have hiff : (l.sections.all fun e => (l.drained ++ [f]).contains e.1) = true ↔ ∀ e ∈ l.sections, e.1 ∈ l.drained ++ [f] := by
    rw [List.all_eq_true]
    exact forall₂_congr fun e _ => List.contains_iff_mem
  unfold LoadSt.withDrained
  rw [← hiff]
  dsimp only
  split
  · next hall => exact iff_of_true rfl hall
  · next hall =>
    refine iff_of_false ?_ hall
    dsimp only
    rw [h]
    decide

variable (f : FieldNo) (hload : s.cfg.load = some l) (hphase : l.phase = .draining) (hhalt : s.mode.ov.halt = false)
  (hstop : l.stopped.any (fun e => e.1 == f.val) = true) (hnew : l.drained.contains f.val = false)
  (hserved : s.servedAll (4 + f.val) = true)
include hload hphase hhalt hstop hnew hserved

theorem State.reshapeDrained_eq :
    s.reshapeDrained f = (s.setFld f { s.fld f with drained := true }).setLoad (l.withDrained f) := by
  unfold State.reshapeDrained
  rw [hload]
  exact if_pos (by rw [hphase, hhalt, hstop, hnew, hserved]; rfl)

theorem reshapeWrite_drains (hstaged : s.staged = []) : ∃ t m, exec (.reshapeWrite f) s = .next t ∧
    t.fld f = { s.fld f with drained := true } ∧ (∀ g ≠ f.val, t.fld g = s.fld g) ∧ t.regs = s.regs ∧ t.cfg.load = some m ∧
    m.drained = l.drained ++ [f.val] ∧ (m.phase = .write ↔ ∀ e ∈ l.sections, e.1 ∈ l.drained ++ [f.val]) := by
  refine ⟨(s.setFld f { s.fld f with drained := true }).setLoad (l.withDrained f), l.withDrained f, congrArg Host.Outcome.next ?_,
    s.fld_setFld _ _, fun g hg => s.fld_setFld_other _ _ hg, rfl, rfl, LoadSt.withDrained_drained f, LoadSt.withDrained_phase hphase f⟩
  rw [State.reshapeDrained_eq f hload hphase hhalt hstop hnew hserved]
  exact State.StagedAlwaysOn.flushDisabled (State.stagedAlwaysOn_of_nil hstaged)

end

/-! ## An image of flash (R182) -/

section
variable {s : State} {l : LoadSt} {i : ImageInfo} {ws : List Word}

/-- The words of a flash slot as far as its image goes. -/
def flashWords (ws : List Word) : List Word := if 128 ≤ ws.length then ws.take (max 128 (headerInfo ws).length) else ws

theorem State.flashLoad_verifies (hload : s.cfg.load = some l) (hpair : l.pair = none) (hphase : l.phase = .ingest)
    (hfail : (s.ingest l (flashWords ws) []).fail = none) (hinfo : (s.ingest l (flashWords ws) []).load.info = some i)
    (hcomplete : (s.ingest l (flashWords ws) []).load.complete = true) : s.flashLoad (some ws) =
      (s.ingest l (flashWords ws) []).state.verifyWith (s.ingest l (flashWords ws) []).load i State.flashFail := by
  rw [flashWords] at hfail hinfo hcomplete ⊢
  unfold State.flashLoad
  rw [hload]
  dsimp only
  rw [hpair, hphase, hfail, hinfo, hcomplete]
  rfl

theorem State.acceptLoad_direct (hfull : i.full = true) (hdirect : l.direct = true) :
    s.acceptLoad l i = (s.placePatch (l.patchFound i)).fullWritten l i := by
  unfold State.acceptLoad
  rw [hfull, hdirect]
  rfl

theorem flashLoad_ends (hload : s.cfg.load = some l) (hpair : l.pair = none) (hphase : l.phase = .ingest)
    (hfail : (s.ingest l (flashWords ws) []).fail = none) (hinfo : (s.ingest l (flashWords ws) []).load.info = some i)
    (hcomplete : (s.ingest l (flashWords ws) []).load.complete = true) (hdirect : (s.ingest l (flashWords ws) []).load.direct = true)
    (hfull : i.full = true) (hgood : ((s.ingest l (flashWords ws) []).state.noteOwner
      (s.ingest l (flashWords ws) []).load.keyDigest).verifyFails (s.ingest l (flashWords ws) []).load i = none) :
    ∃ t, exec (.flashLoad (some ws)) s = .next t ∧ t.cfg.load = none ∧ t.get F.CFG_ERR_CODE = 0 ∧
      (t.mode.base = .staged ∨ t.mode.base = .locking) := by
  have hloads := State.flashLoad_verifies hload hpair hphase hfail hinfo hcomplete
  rw [State.verifyWith_accepts hgood, State.acceptLoad_direct hfull hdirect] at hloads
  obtain ⟨hnone, hcode, hbase, -, -⟩ := State.fullWritten_ends _ (s.ingest l (flashWords ws) []).load i
  refine ⟨_, congrArg Host.Outcome.next hloads, hnone, hcode, ?_⟩
  rw [hbase]
  split
  · exact .inr rfl
  · exact .inl rfl

end

/-- Settles O33: each step of a good image is followed by itself: words that start a load, verify, a field that drains, the write phase,
and a direct image of flash from its words to STAGED. -/
theorem loadsSucceed : Obligations.LoadsSucceed := by
  unfold Obligations.LoadsSucceed
  intro s
  refine ⟨fun q slot d checks h hnone hlen => ⟨fun hmagic => cfgload_starts checks h hnone hlen hmagic,
      fun w hw hmagic => cfgload_format checks h hnone hlen hw hmagic⟩,
    fun l i hload hinfo => ⟨fun hphase hgood => ⟨fun hfull hdirect => ⟨_, rfl, State.verifyLoad_store hload hphase hinfo hgood hfull hdirect⟩,
        fun hfull => ⟨_, rfl, State.verifyLoad_partial hload hphase hinfo hgood hfull⟩⟩,
      fun hphase hhalt checks => congrArg Host.Outcome.next (State.writePhase_halt checks hload hphase hinfo hhalt),
      fun hphase hhalt checks => ⟨fun xs ws hx hw hfull hauto =>
          ⟨_, rfl, State.writePhase_full checks hload hphase hinfo hhalt hx hw hfull hauto⟩,
        fun xs ws hx hw hfull => ⟨_, rfl, State.writePhase_partial checks hload hphase hinfo hhalt hx hw hfull⟩,
        fun h hsafe => ⟨_, rfl, State.writePhase_fails checks hload hphase hinfo hhalt h hsafe⟩⟩,
      fun hphase hhalt f hstop hnew hserved hstaged => reshapeWrite_drains f hload hphase hhalt hstop hnew hserved hstaged⟩,
    fun l i ws hload hpair hphase hfail hinfo hcomplete hdirect hfull hgood =>
      flashLoad_ends hload hpair hphase hfail hinfo hcomplete hdirect hfull hgood⟩

end Sys2Proof.Machine
end
